-- ==== Sys2Proof/Word.lean ====
section
/-! DEFINITION. The word types of the block: bytes, register words and their plainest arithmetic (R5, R6). -/

namespace Sys2Proof

/-- One byte of the granary, of host memory or of a frame. -/
abbrev Byte := BitVec 8

/-- One 32-bit register, descriptor word or data-memory word. -/
abbrev W32 := BitVec 32

/-- One 64-bit word: a granary word, a slot of a frame, an accumulator read out. -/
abbrev W64 := BitVec 64

end Sys2Proof
end

