-- ==== Sys2Proof/Syntax.lean ====
section
/-! DEFINITION. The commands of the block: one constructor for each row of spec/opcode_table.json, with the operands that
come from outside the block (who commands, what arrives on a pin, a lane or a bus, what a converter measures). -/

namespace Sys2Proof

/-! ### Operand types -/

/-- The three bus masters (R12, R371): PCIe port 0, PCIe port 1, maintenance SPI. -/
inductive Master where
  | port0 | port1 | mspi
deriving DecidableEq, Repr

/-- The three outcomes of a SECDED check of one granary word (R452); a double error names the two bits that flipped. -/
inductive Ecc where
  | ok | single | double (i j : Fin 64)
deriving DecidableEq, Repr

def Ecc.isSingle : Ecc → Bool
  | .single => true
  | _ => false

def Ecc.isDouble : Ecc → Bool
  | .double _ _ => true
  | _ => false

/-- A GATHER frame as its last block is decoded: the tag bytes S1 to S7, the time word, the slots in wire order, the 64 bale
bytes, the CRC-32C of the end block, how many of its blocks were of no type of R67, and the lane whose receiver took it. -/
structure RxFrame where
  tag : List Byte
  time : W64
  slots : List W64
  bale : List Byte
  crc : W32
  badBlocks : Nat
  rx : Fin 48
deriving DecidableEq, Repr

/-- A lane reference that is lost, LREF_A or LREF_B, and the receivers that stand inside a frame, with the slots of it that they have
decoded (R477, R113). -/
structure RefLoss where
  b : Bool
  inFrame : List (Fin 50 × List W64)
deriving DecidableEq, Repr

/-- A main rail that leaves its recommended range within the monitor window, or comes back into it (R458). -/
structure RailRange where
  rail : Fin 7
  within : Bool
deriving DecidableEq, Repr

/-- Consecutive blocks of one kind that a lane's receiver has taken (R112, R135). -/
structure BlockRun where
  lane : Fin 50
  blocks : Nat
deriving DecidableEq, Repr

/-- A lane's elastic buffer: its fill in blocks, and whether it stands inside a frame (R117). -/
structure ElasticFill where
  lane : Fin 50
  fill : Fin 5
  inFrame : Bool
deriving DecidableEq, Repr

/-- Bits that a lane's pattern checker has received (R138). -/
structure RxBits where
  lane : Fin 50
  bits : List Bool
deriving DecidableEq, Repr

/-- An engine whose memory is read through its window, and the outcome of the word's check (R210, R224). -/
structure EngRead where
  engine : Fin 12
  ecc : Ecc
deriving DecidableEq, Repr

/-- A set block as received (R89): the 40-bit payload of D2 to D6, and the CRC-8 of D7. -/
structure RxSet where
  payload : BitVec 40
  crc : Byte
deriving DecidableEq, Repr

/-- A set block as the receiver of a lane takes it (R89). -/
structure LaneSet where
  lane : Fin 50
  set : RxSet
deriving DecidableEq, Repr

/-- A block of a mirror frame (R67, R345): the start block with S1 to S7, a data block, the end block with the CRC-32C. -/
inductive MirBlock where
  | start (tag : List Byte)
  | data (w : W64)
  | stop (crc : W32)
deriving DecidableEq, Repr

/-- The blocks of a mirror frame as the receivers of MIR0 and MIR1 take them, IDLE blocks, markers and other sets left out (R121); where a
marker pair came inside the frame, how many of each stood before it. -/
structure MirRx where
  mir0 : List MirBlock
  mir1 : List MirBlock
  pair : Option (Nat × Nat) := none
deriving DecidableEq, Repr

/-- How a transmission attempt of a CAN controller ends (R436 to R438, R443): sent; arbitration lost; an acknowledge error, with whether a
dominant bit came during its error flag; a stuff error, with whether it was one in arbitration whose recessive stuff bit was read dominant;
a form or CRC error; a bit error, after arbitration was won or before, with the bit sent. -/
inductive CanEnd where
  | sent | lostArb
  | ackErr (dominant : Bool)
  | stuffErr (arb : Bool)
  | formErr | crcErr
  | bitErr (afterArb : Bool) (bit : Bool)
deriving DecidableEq, Repr

/-- What else an attempt shows: the delay measured where the FDF-to-res edge was sent (R432), and the further additions of 8 that ISO 11898-1
makes for errors during and dominant bits after the error flag (R443). -/
structure CanSeen where
  tdc : Option (BitVec 8)
  more : Nat
deriving DecidableEq, Repr

/-- An error in a received frame: the code of CAN_STAT.lec, and the additions of 8 that ISO 11898-1 makes during and after the error flag (R443). -/
structure CanRxErr where
  code : Fin 7
  more : Nat
deriving DecidableEq, Repr

/-- A CAN frame as received (R439, R440): id word, control byte, data bytes. -/
structure CanFrame where
  idWord : W32
  control : Byte
  data : List Byte
deriving DecidableEq, Repr


/-- The commands, in the order of spec/opcode_table.json. -/
inductive Instr where
  /-- REGISTER_WRITE (R7). -/
  | registerWrite (m : Master) (addr : Nat) (size : Nat) (value : BitVec 64)
  /-- READ_CLEAR (R9). -/
  | readClear (m : Master) (addr : Nat) (size : Nat)
  /-- SNAPSHOT_READ (R12). -/
  | snapshotRead (m : Master) (addr : Nat) (size : Nat)
  /-- PLL_LOCK (R19). -/
  | pllLock
  /-- REF_LOST (R20). -/
  | refLost
  /-- LOCK_LOST (R20). -/
  | lockLost
  /-- LREF_LOST (R477). -/
  | lrefLost (x : RefLoss)
  /-- PERIOD_TICK (R24). -/
  | periodTick
  /-- GATHER_LAUNCH (R26). -/
  | gatherLaunch
  /-- TIME_SET_LAUNCH (R93). -/
  | timeSetLaunch
  /-- GATHER_FRAME (R27). -/
  | gatherFrame (l : Fin 48) (f : RxFrame) (t : Nat)
  /-- GATHER_DEADLINE (R27). -/
  | gatherDeadline (started : BitVec 48)
  /-- AVAILABILITY_CHECK (R153). -/
  | availabilityCheck
  /-- CHARGE_OK (R56). -/
  | chargeOk
  /-- ORDER_LAUNCH (R29). -/
  | orderLaunch
  /-- REQUEST_BOOT (R45). -/
  | requestBoot (m : Master)
  /-- REQUEST_CONFIGURE (R45). -/
  | requestConfigure (m : Master)
  /-- REQUEST_COMMISSION (R45). -/
  | requestCommission (m : Master)
  /-- REQUEST_PRECHARGE (R45). -/
  | requestPrecharge (m : Master)
  /-- REQUEST_READY (R45). -/
  | requestReady (m : Master)
  /-- REQUEST_RUN (R45). -/
  | requestRun (m : Master)
  /-- REQUEST_DIAGNOSTIC (R45). -/
  | requestDiagnostic (m : Master)
  /-- MODE_REQUEST_EVAL (R46). -/
  | modeRequestEval
  /-- SEQ_RUN_START (R58). -/
  | seqRunStart (m : Master)
  /-- SEQ_RUN_STOP (R58). -/
  | seqRunStop (m : Master)
  /-- ALL_POWER_REMOVED (R45). -/
  | allPowerRemoved
  /-- VBAT_APPLIED (R45). -/
  | vbatApplied
  /-- MAIN_RAILS_REMOVED (R45). -/
  | mainRailsRemoved
  /-- PORST_ASSERT (R45). -/
  | porstAssert
  /-- PORST_RELEASE (R59). -/
  | porstRelease (bootSel : Fin 4) (pcieBif : Bool)
  /-- RAIL_FAULT (R458). -/
  | railFault (rail : Fin 7)
  /-- RAIL_RECOVER (R458). -/
  | railRecover
  /-- RAIL_WARN (R458). -/
  | railWarn (x : RailRange)
  /-- BLOCK_BEACON (R44). -/
  | blockBeacon
  /-- BOOT_READ_DONE (R63). -/
  | bootReadDone (answered : Bool) (image : List Byte)
  /-- BOOT_GO (R64). -/
  | bootGo (m : Master)
  /-- BOOT_CHECK_DONE (R62). -/
  | bootCheckDone
  /-- BOOT_LOAD_DONE (R65). -/
  | bootLoadDone
  /-- CHECK_VALUE_DONE (R54). -/
  | checkValueDone
  /-- SAF_CONFIRM (R332). -/
  | safConfirm (m : Master) (value : W32)
  /-- PENDING_MUSTER_ENTRY (R54). -/
  | pendingMusterEntry
  /-- MUSTER_DONE (R55). -/
  | musterDone
  /-- HELLO_SEND (R124). -/
  | helloSend (l : Fin 50)
  /-- HELLO_RECEIVED (R124). -/
  | helloReceived (l : Fin 50) (h : RxSet)
  /-- TRAINING_TIMEOUT (R126). -/
  | trainingTimeout (l : Fin 50)
  /-- TRAINING_RETRY (R126). -/
  | trainingRetry (l : Fin 50)
  /-- ECHO_MEASURE_RETURN (R98). -/
  | echoMeasureReturn (l : Fin 48) (d : Fin 1048576) (rsum : Fin 1048576)
  /-- DISCOVERY_TIMEOUT (R103). -/
  | discoveryTimeout (l : Fin 48)
  /-- CHAIN_SPLIT (R96). -/
  | chainSplit (k : Fin 24) (j : Fin 128)
  /-- BLOCK_SET_REPEAT (R92). -/
  | blockSetRepeat
  /-- MARKER_SEND (R120). -/
  | markerSend (l : Fin 48)
  /-- MARKER_RECEIVED (R120). -/
  | markerReceived (l : Fin 48) (x : RxSet)
  /-- BLOCK_LOCK_ACQUIRED (R112). -/
  | blockLockAcquired (valid : BlockRun)
  /-- BLOCK_LOCK_LOST (R112). -/
  | blockLockLost (l : Fin 50) (badSync : Nat) (signal : Bool) (inFrame : Option (List W64))
  /-- CHAIN_RELOCK_TIMEOUT (R129). -/
  | chainRelockTimeout (l : Fin 48)
  /-- IDLE_DELETE (R117). -/
  | idleDelete (x : ElasticFill)
  /-- IDLE_INSERT (R117). -/
  | idleInsert (x : ElasticFill)
  /-- MIRROR_MARKER_PAIR (R121). -/
  | mirrorMarkerPair
  /-- MIRROR_MARKER_RECEIVED (R122). -/
  | mirrorMarkerReceived (m0 m1 : RxSet) (skew : Int)
  /-- MIRROR_MARKER_TIMEOUT (R123). -/
  | mirrorMarkerTimeout
  /-- MIRROR_BLOCK_SET (R354). -/
  | mirrorBlockSet (x : LaneSet)
  /-- FOM_MEASURE (R133). -/
  | fomMeasure (l : Fin 50) (eyeV : Nat) (eyeH : Nat) (centreV : Int) (centreH : Int)
  /-- ADAPT_FREEZE (R135). -/
  | adaptFreeze (idles : BlockRun)
  /-- ADAPT_RESUME (R135). -/
  | adaptResume (others : BlockRun)
  /-- EQ_RX_WRITE (R131). -/
  | eqRxWrite (m : Master) (l : Fin 50) (value : W32)
  /-- INJECT_SINGLE (R139). -/
  | injectSingle (m : Master) (l : Fin 50)
  /-- INJECT_BURST (R139). -/
  | injectBurst (m : Master) (l : Fin 50)
  /-- CHECKER_LOCK (R138). -/
  | checkerLock (x : RxBits)
  /-- CHECKER_LOSS (R138). -/
  | checkerLoss (l : Fin 50) (bit : Bool) (more : List Bool)
  /-- ARM_REQUEST (R146). -/
  | armRequest (e : Fin 12)
  /-- SELECTION_HANDOVER (R162). -/
  | selectionHandover (u : Fin 6)
  /-- RANK_COMPLETE (R164). -/
  | rankComplete (u : Fin 6)
  /-- TALLY_UPDATE (R174). -/
  | tallyUpdate (u : Fin 6)
  /-- CELL_RETIRE (R151). -/
  | cellRetire (m : Master) (c : Fin 3072) (retire : Bool)
  /-- CELL_RELEASE (R152). -/
  | cellRelease (m : Master) (c : Fin 3072)
  /-- ARM_PLAN_DONE (R176). -/
  | armPlanDone (u : Fin 6)
  /-- PLAN_COMPLETE (R176). -/
  | planComplete
  /-- OC_TALLY_CLEAR (R187). -/
  | ocTallyClear (m : Master) (c : Fin 3072)
  /-- PWM_RELOAD (R188). -/
  | pwmReload (c : Fin 16) (fltPins : BitVec 8)
  /-- PWM_COMPARE (R189). -/
  | pwmCompare (c : Fin 16) (isOn : Bool)
  /-- PWM_COMMIT (R195). -/
  | pwmCommit (m : Master) (channels : BitVec 16)
  /-- PWM_FORCE_ACTIVE (R196). -/
  | pwmForceActive (m : Master) (c : Fin 16)
  /-- PWM_FORCE_INACTIVE (R196). -/
  | pwmForceInactive (m : Master) (c : Fin 16)
  /-- PWM_FORCE_RELEASE (R196). -/
  | pwmForceRelease (m : Master) (c : Fin 16)
  /-- DL_CALIBRATE (R191). -/
  | dlCalibrate (inRange : Bool) (code : Fin 128)
  /-- MASK_EXPIRE (R197). -/
  | maskExpire (src : Fin 4)
  /-- FAULT_INPUT_ASSERT (R199). -/
  | faultInputAssert (i : Fin 8) (cycles : Nat)
  /-- FAULT_INPUT_CLEAR (R199). -/
  | faultInputClear (m : Master) (i : Fin 8) (pin : Bool)
  /-- SYNC_OUT_PULSE (R202). -/
  | syncOutPulse
  /-- SYNC_OUT_END (R202). -/
  | syncOutEnd
  /-- SYNC_IN_EDGE (R203). -/
  | syncInEdge
  /-- SYNC_IN_TIMEOUT (R203). -/
  | syncInTimeout
  /-- EDGE_RECORD (R227). -/
  | edgeRecord (e : Fin 12)
  /-- NOP (R215). -/
  | nop (e : Fin 12) (fetch : Ecc)
  /-- MUL (R209). -/
  | mul (e : Fin 12) (fetch : Ecc)
  /-- MAC (R209). -/
  | mac (e : Fin 12) (fetch : Ecc)
  /-- MSU (R209). -/
  | msu (e : Fin 12) (fetch : Ecc)
  /-- MAC2 (R215). -/
  | mac2 (e : Fin 12) (fetch : Ecc)
  /-- MACD (R215). -/
  | macd (e : Fin 12) (fetch : Ecc) (data : List Ecc)
  /-- ADDA (R215). -/
  | adda (e : Fin 12) (fetch : Ecc)
  /-- SUBA (R215). -/
  | suba (e : Fin 12) (fetch : Ecc)
  /-- SHA (R211). -/
  | sha (e : Fin 12) (fetch : Ecc)
  /-- ABSA (R215). -/
  | absa (e : Fin 12) (fetch : Ecc)
  /-- NEGA (R215). -/
  | nega (e : Fin 12) (fetch : Ecc)
  /-- LDA (R211). -/
  | lda (e : Fin 12) (fetch : Ecc)
  /-- RND (R211). -/
  | rnd (e : Fin 12) (fetch : Ecc)
  /-- EXT (R211). -/
  | ext (e : Fin 12) (fetch : Ecc)
  /-- CLAMPA (R215). -/
  | clampa (e : Fin 12) (fetch : Ecc)
  /-- ADD (R212). -/
  | add (e : Fin 12) (fetch : Ecc)
  /-- SUB (R212). -/
  | sub (e : Fin 12) (fetch : Ecc)
  /-- AND (R215). -/
  | and (e : Fin 12) (fetch : Ecc)
  /-- OR (R215). -/
  | or (e : Fin 12) (fetch : Ecc)
  /-- XOR (R215). -/
  | xor (e : Fin 12) (fetch : Ecc)
  /-- ANDN (R215). -/
  | andn (e : Fin 12) (fetch : Ecc)
  /-- SHL (R215). -/
  | shl (e : Fin 12) (fetch : Ecc)
  /-- SHR (R215). -/
  | shr (e : Fin 12) (fetch : Ecc)
  /-- SAR (R215). -/
  | sar (e : Fin 12) (fetch : Ecc)
  /-- CMP (R212). -/
  | cmp (e : Fin 12) (fetch : Ecc)
  /-- MOV (R215). -/
  | mov (e : Fin 12) (fetch : Ecc)
  /-- MOVI (R215). -/
  | movi (e : Fin 12) (fetch : Ecc)
  /-- SINCOS (R220). -/
  | sincos (e : Fin 12) (fetch : Ecc)
  /-- TBL (R221). -/
  | tbl (e : Fin 12) (fetch : Ecc) (data : List Ecc)
  /-- XLI (R215). -/
  | xli (e : Fin 12) (fetch : Ecc)
  /-- XLH (R215). -/
  | xlh (e : Fin 12) (fetch : Ecc)
  /-- XADD (R215). -/
  | xadd (e : Fin 12) (fetch : Ecc)
  /-- XADDD (R215). -/
  | xaddd (e : Fin 12) (fetch : Ecc)
  /-- LD (R206). -/
  | ld (e : Fin 12) (fetch : Ecc) (data : List Ecc)
  /-- ST (R206). -/
  | st (e : Fin 12) (fetch : Ecc)
  /-- LDAC (R215). -/
  | ldac (e : Fin 12) (fetch : Ecc) (data : List Ecc)
  /-- STAC (R215). -/
  | stac (e : Fin 12) (fetch : Ecc)
  /-- LDG (R223). -/
  | ldg (e : Fin 12) (fetch : Ecc)
  /-- LDG_RETURN (R223). -/
  | ldgReturn (e : Fin 12) (ecc : Ecc)
  /-- STG (R223). -/
  | stg (e : Fin 12) (fetch : Ecc)
  /-- WRITE_BUFFER_DRAIN (R223). -/
  | writeBufferDrain (e : Fin 12)
  /-- BR (R216). -/
  | br (e : Fin 12) (fetch : Ecc)
  /-- JMP (R215). -/
  | jmp (e : Fin 12) (fetch : Ecc)
  /-- CALL (R218). -/
  | call (e : Fin 12) (fetch : Ecc)
  /-- RET (R218). -/
  | ret (e : Fin 12) (fetch : Ecc)
  /-- LOOP (R219). -/
  | loop (e : Fin 12) (fetch : Ecc)
  /-- YIELD (R249). -/
  | yield (e : Fin 12) (fetch : Ecc)
  /-- WAIT (R251). -/
  | wait (e : Fin 12) (fetch : Ecc)
  /-- SIG (R243). -/
  | sig (e : Fin 12) (fetch : Ecc)
  /-- SIG_EVENT (R243). -/
  | sigEvent (e : Fin 12)
  /-- SEND_WINNOW (R225). -/
  | sendWinnow (e : Fin 12) (fetch : Ecc) (data : List Ecc)
  /-- SEND_EDGE_PLANNER (R225). -/
  | sendEdgePlanner (e : Fin 12) (fetch : Ecc) (data : List Ecc)
  /-- DMAK (R228). -/
  | dmak (e : Fin 12) (fetch : Ecc)
  /-- MVS (R217). -/
  | mvs (e : Fin 12) (fetch : Ecc)
  /-- MSV (R217). -/
  | msv (e : Fin 12) (fetch : Ecc)
  /-- INJ (R237). -/
  | inj (e : Fin 12) (fetch : Ecc)
  /-- CAP (R238). -/
  | cap (e : Fin 12) (fetch : Ecc)
  /-- TRAP (R215). -/
  | trap (e : Fin 12) (fetch : Ecc)
  /-- TRAP_FAULT (R229). -/
  | trapFault (e : Fin 12) (fetch : Ecc)
  /-- PM_DATA_WRITE (R232). -/
  | pmDataWrite (m : Master) (e : Fin 12) (value : W32)
  /-- PM_DATA_READ (R232). -/
  | pmDataRead (m : Master) (e : EngRead)
  /-- DM_DATA_WRITE (R231). -/
  | dmDataWrite (m : Master) (e : Fin 12) (value : W32)
  /-- DM_DATA_READ (R231). -/
  | dmDataRead (m : Master) (e : EngRead)
  /-- COEF_OPEN (R233). -/
  | coefOpen (m : Master) (e : Fin 12)
  /-- COEF_CLOSE (R233). -/
  | coefClose (m : Master) (e : Fin 12)
  /-- INJ_ENABLE (R235). -/
  | injEnable (m : Master) (e : Fin 12)
  /-- INJ_DISABLE (R235). -/
  | injDisable (m : Master) (e : Fin 12)
  /-- INJ_UPDATE (R236). -/
  | injUpdate (e : Fin 12)
  /-- SCHEDULER_TICK (R246). -/
  | schedulerTick
  /-- SLOT_LOAD (R250). -/
  | slotLoad (e : Fin 12)
  /-- DISPATCH (R250). -/
  | dispatch (e : Fin 12)
  /-- EVT_RAISE (R243). -/
  | evtRaise (m : Master) (code : BitVec 8)
  /-- FATAL_DISPATCH (R256). -/
  | fatalDispatch
  /-- FATAL_TIMEOUT (R257). -/
  | fatalTimeout
  /-- ADC_RESULT (R261). -/
  | adcResult (k : Fin 5) (code : Int) (ovr : Bool)
  /-- ADC_CONVERSION_END (R261). -/
  | adcConversionEnd (k : Fin 5)
  /-- ADC_ROUND_TRIGGER (R264). -/
  | adcRoundTrigger
  /-- ADC_CAL_START (R266). -/
  | adcCalStart
  /-- ADC_CAL_DONE (R266). -/
  | adcCalDone (ok : BitVec 5)
  /-- URGENT_REQUEST (R271). -/
  | urgentRequest (m : Master) (slots : BitVec 4)
  /-- ADC_SNAPSHOT (R274). -/
  | adcSnapshot
  /-- SNAPSHOT_RECORD_DONE (R274). -/
  | snapshotRecordDone
  /-- SILO_ARM (R282). -/
  | siloArm (m : Master) (k : Fin 4)
  /-- SILO_DISARM (R290). -/
  | siloDisarm (m : Master) (k : Fin 4)
  /-- SW_TRIG (R297). -/
  | swTrig (m : Master) (k : Fin 4)
  /-- SILO_RELEASE (R294). -/
  | siloRelease (m : Master) (k : Fin 4)
  /-- CELL_ENTRY_WRITE (R285). -/
  | cellEntryWrite (lost : BitVec 4)
  /-- WAVE_TICK (R286). -/
  | waveTick (k : Fin 4) (lost : Bool)
  /-- RECORD_DONE (R294). -/
  | recordDone (k : Fin 4)
  /-- TRIG_IN_EDGE (R298). -/
  | trigInEdge (i : Fin 4) (rising : Bool)
  /-- TRIG_IN_REARM (R298). -/
  | trigInRearm (i : Fin 4)
  /-- TB_SLOT_SEND (R301). -/
  | tbSlotSend
  /-- TB_MESSAGE_RECEIVED (R302). -/
  | tbMessageReceived (slot : Fin 8) (msg : BitVec 16) (rt : Nat)
  /-- TB_RELINK (R303). -/
  | tbRelink
  /-- TB_CLK_LOSS (R306). -/
  | tbClkLoss
  /-- SAFETY_INPUT_ASSERT (R314). -/
  | safetyInputAssert (ch : Fin 8) (dur : Nat) (pins : BitVec 8)
  /-- SAFE_DISCREP (R317). -/
  | safeDiscrep (pair : Fin 4) (pins : BitVec 8)
  /-- TEST_PULSE_START (R318). -/
  | testPulseStart
  /-- TEST_PULSE_END (R318). -/
  | testPulseEnd (pins : BitVec 8)
  /-- TEST_RECOVERY_END (R319). -/
  | testRecoveryEnd (pins : BitVec 8)
  /-- RESET_PIN_FALL (R326). -/
  | resetPinFall
  /-- RESET_PIN_RISE (R326). -/
  | resetPinRise
  /-- RESET_RELEASE (R328). -/
  | resetRelease (pins : BitVec 8) (trig : Bool)
  /-- RESET_STUCK (R327). -/
  | resetStuck
  /-- SAFE_LATCH_CLEAR (R316). -/
  | safeLatchClear (m : Master) (mask : BitVec 8) (pins : BitVec 8)
  /-- FAULT_HIST_CLEAR (R334). -/
  | faultHistClear (m : Master) (mask : W32)
  /-- TRIP_COUNT_CLEAR (R334). -/
  | tripCountClear (m : Master)
  /-- RETENTION_WRITE (R333). -/
  | retentionWrite
  /-- RETENTION_READBACK (R333). -/
  | retentionReadback (bytes : List Byte)
  /-- ILK_IN_CHANGE (R339). -/
  | ilkInChange (reading : Fin 3)
  /-- ABSENT_CLAIM (R341). -/
  | absentClaim
  /-- LOST_CLAIM (R341). -/
  | lostClaim
  /-- ILK_OPEN (R344). -/
  | ilkOpen
  /-- FROZEN_CLEAR (R344). -/
  | frozenClear
  /-- STATUS_FRAME_LAUNCH (R345). -/
  | statusFrameLaunch
  /-- STATUS_FRAME (R346). -/
  | statusFrame (f : MirRx) (t : Nat)
  /-- INPUT_FRAME_LAUNCH (R347). -/
  | inputFrameLaunch
  /-- INPUT_FRAME (R347). -/
  | inputFrame (f : MirRx)
  /-- MIRROR_POINT (R350). -/
  | mirrorPoint
  /-- JOIN_FRAME_LAUNCH (R362). -/
  | joinFrameLaunch
  /-- JOIN_FRAME (R362). -/
  | joinFrame (f : MirRx)
  /-- HANDOVER (R364). -/
  | handover (m : Master)
  /-- REJOIN (R362). -/
  | rejoin (m : Master)
  /-- FWD_REQUEST (R353). -/
  | fwdRequest (m : Master) (target : Fin 16)
  /-- PORT_DOWN (R370). -/
  | portDown (p : Fin 2)
  /-- CLAIM (R371). -/
  | claim (p : Fin 2) (v : W32)
  /-- KEEPALIVE (R374). -/
  | keepalive (p : Fin 2) (v : W32)
  /-- OWNER_HANDOVER (R373). -/
  | ownerHandover (m : Master) (dest : Fin 3)
  /-- OWNER_RELEASE (R373). -/
  | ownerRelease (m : Master)
  /-- HANDOVER_COMPLETE (R373). -/
  | handoverComplete
  /-- LEASE_EXPIRE (R374). -/
  | leaseExpire
  /-- MSPI_READ (R375). -/
  | mspiRead (addr : BitVec 24) (words : Nat)
  /-- MSPI_WRITE (R375). -/
  | mspiWrite (addr : BitVec 24) (data : List W32) (bits : Nat)
  /-- MSPI_READ_GRN (R375). -/
  | mspiReadGrn (addr : BitVec 32) (n : Nat) (eccs : List Ecc)
  /-- MSPI_WRITE_GRN (R375). -/
  | mspiWriteGrn (addr : BitVec 32) (data : List W32) (bits : Nat)
  /-- MSPI_STATUS (R375). -/
  | mspiStatus
  /-- MSPI_CLAIM (R375). -/
  | mspiClaim
  /-- MSPI_KEEPALIVE (R374). -/
  | mspiKeepalive
  /-- CMD_DOORBELL (R377). -/
  | cmdDoorbell (p : Fin 2) (v : W32)
  /-- EVENT_HEAD_DOORBELL (R377). -/
  | eventHeadDoorbell (p : Fin 2) (v : W32)
  /-- TEL_HEAD_DOORBELL (R377). -/
  | telHeadDoorbell (p : Fin 2) (a : Fin 12) (v : W32)
  /-- DUMP_HEAD_DOORBELL (R377). -/
  | dumpHeadDoorbell (p : Fin 2) (v : W32)
  /-- RING_ENABLE (R377). -/
  | ringEnable (m : Master) (p : Fin 2) (r : Fin 5) (value : W32)
  /-- CMD_NOP (R382). -/
  | cmdNop (p : Fin 2) (entry : List Byte)
  /-- CMD_WRITE (R382). -/
  | cmdWrite (p : Fin 2) (entry : List Byte)
  /-- CMD_WRITE_DM (R382). -/
  | cmdWriteDm (p : Fin 2) (entry : List Byte)
  /-- CMD_WRITE_GRN (R382). -/
  | cmdWriteGrn (p : Fin 2) (entry : List Byte)
  /-- CMD_EVENT (R382). -/
  | cmdEvent (p : Fin 2) (entry : List Byte)
  /-- CMD_FENCE (R387). -/
  | cmdFence (p : Fin 2) (entry : List Byte)
  /-- FENCE_COMPLETE (R387). -/
  | fenceComplete
  /-- MAILBOX_GO (R386). -/
  | mailboxGo (m : Master)
  /-- EVENT_WRITE (R390). -/
  | eventWrite (lost : BitVec 4)
  /-- EVENT_VECTOR_TIMEOUT (R380). -/
  | eventVectorTimeout (p : Fin 2)
  /-- STATUS_BLOCK_WRITE (R379). -/
  | statusBlockWrite (p : Fin 2)
  /-- TEL_RECORD_WRITTEN (R393). -/
  | telRecordWritten (p : Fin 2) (a : Fin 12)
  /-- DUMP_COPY_DONE (R397). -/
  | dumpCopyDone
  /-- DMA_DOORBELL (R399). -/
  | dmaDoorbell (p : Fin 2) (c : Fin 16) (v : W32)
  /-- DMA_DESCRIPTOR_FETCH (R400). -/
  | dmaDescriptorFetch (c : Fin 16) (bytes : List Byte) (ok : Bool) (eccs : List Ecc)
  /-- DMA_DESCRIPTOR_END (R400). -/
  | dmaDescriptorEnd (c : Fin 16) (data : List Byte) (err : Bool) (eccs : List Ecc)
  /-- DMA_DISABLE (R405). -/
  | dmaDisable (m : Master) (c : Fin 16)
  /-- DMA_DISABLE_DONE (R405). -/
  | dmaDisableDone (c : Fin 16)
  /-- BAR2_READ (R368). -/
  | bar2Read (m : Master) (addr : Nat) (n : Nat) (eccs : List Ecc)
  /-- BAR2_WRITE (R368). -/
  | bar2Write (m : Master) (addr : Nat) (data : List Byte)
  /-- OFFSET_REQUEST (R411). -/
  | offsetRequest (m : Master) (value : W32)
  /-- ABSOLUTE_SET (R411). -/
  | absoluteSet (m : Master)
  /-- SLEW_END (R410). -/
  | slewEnd
  /-- RAMP_UPDATE (R415). -/
  | rampUpdate
  /-- TIM_REQUEST_APPLY (R416). -/
  | timRequestApply
  /-- ETH_LINK_CHANGE (R417). -/
  | ethLinkChange (p : Fin 2) (up : Bool) (ability : BitVec 16)
  /-- AN_RESTART (R417). -/
  | anRestart (m : Master) (p : Fin 2)
  /-- ETH_FRAME_RECEIVED (R418). -/
  | ethFrameReceived (p : Fin 2) (frame : List Byte) (fcsOk : Bool) (t : Nat)
  /-- TX_DESCRIPTOR_POLL (R420). -/
  | txDescriptorPoll (p : Fin 2) (eccs : List Ecc)
  /-- ETH_FRAME_SENT (R420). -/
  | ethFrameSent (p : Fin 2) (t : Nat)
  /-- ESP_HOLD (R428). -/
  | espHold
  /-- ESP_HOLD_RELEASE (R428). -/
  | espHoldRelease
  /-- CAN_ENABLE (R431). -/
  | canEnable (m : Master) (k : Fin 2) (value : W32)
  /-- CAN_MODE_APPLY (R433). -/
  | canModeApply (k : Fin 2)
  /-- CAN_PUSH (R434). -/
  | canPush (m : Master) (k : Fin 2)
  /-- CAN_FEED_POLL (R434). -/
  | canFeedPoll (k : Fin 2) (eccs : List Ecc)
  /-- CAN_ABORT_HEAD (R436). -/
  | canAbortHead (m : Master) (k : Fin 2) (busy : Bool)
  /-- CAN_FLUSH (R436). -/
  | canFlush (m : Master) (k : Fin 2) (busy : Bool)
  /-- CAN_RECOVER (R443). -/
  | canRecover (m : Master) (k : Fin 2)
  /-- CAN_TX_ATTEMPT_END (R436). -/
  | canTxAttemptEnd (k : Fin 2) (how : CanEnd) (sof : Nat) (seen : CanSeen)
  /-- CAN_RECOVERY_DONE (R443). -/
  | canRecoveryDone (k : Fin 2)
  /-- CAN_FRAME_RECEIVED (R439). -/
  | canFrameReceived (k : Fin 2) (f : CanFrame) (sof : Nat) (err : Option CanRxErr)
  /-- CAN_OBJECT_WRITE (R440). -/
  | canObjectWrite (k : Fin 2)
  /-- ECC_WRITEBACK (R452). -/
  | eccWriteback (bank : Fin 32)
  /-- GRANARY_INIT_DONE (R453). -/
  | granaryInitDone
  /-- PATROL_SCRUB (R453). -/
  | patrolScrub (ecc : Ecc)
  /-- DIE_TEMP_MEASURE (R470). -/
  | dieTempMeasure (code : Int)
  /-- PORT_LINK_UP (R370). -/
  | portLinkUp (p : Fin 2) (speed : Fin 4) (width : Fin 9)
  /-- LREF_RETURN (R477). -/
  | lrefReturn (b : Bool)
deriving DecidableEq, Repr

end Sys2Proof
end

