-- ==== Sys2Proof/Config.lean ====
section
/-! DEFINITION. What an implementation fixes and the specification leaves open: the free values and the fused constants.
Nothing here has a body, so no statement can rest on a value of it. -/

namespace Sys2Proof

/-- A value the specification leaves open, one for each use (State.freeCtr counts the uses). Log entry 3. -/
opaque Config.freeValue : Nat → BitVec 64

/-- SHA-384 (FIPS 180-4, named by R3 and R61, defined outside the specification): the digest bytes of a byte string. Log entry 4. -/
opaque Config.sha384 : List Byte → List Byte

/-- ECDSA P-384 verification (FIPS 186-4, named by R3 and R61): public key X and Y, r, s, and the signed digest. Log entry 4. -/
opaque Config.ecdsaP384 : (keyX keyY sigR sigS : List Byte) → (digest : List Byte) → Bool

/-- The fused hash of the boot key, none where no key is fused (R62). Log entry 5. -/
opaque Config.fusedKeyHash : Option (List Byte)

/-- The sig_required fuse: true where it is blown (R62). Log entry 5. -/
opaque Config.sigRequired : Bool

end Sys2Proof
end

