-- ==== Sys2Proof/Machine/RegMap.lean ====
section
/-! DEFINITION. The register map of BAR0 (R15) and of every register table of spec/: names, offsets, access codes (R9),
reset values and plain field clamps (R13). One entry per register, in the order of the chapters. -/

namespace Sys2Proof.Machine

/-- Every register of the device, one name per table of spec/; indexed registers are one name. -/
inductive Reg where
  | GLB_DEVICE_ID | CLK_PLL_STAT | GLB_PERIOD | GLB_GATHER_DEADLINE | GLB_ORDER_OFFSET | GLB_EDGE_OFFSET
  | GLB_ORIGIN_NS | GLB_ORIGIN_SEC_LO | GLB_ORIGIN_SEC_HI | GLB_PERIOD_POS_LO | GLB_PERIOD_POS_HI | GLB_MS_GATHER
  | GLB_MS_PLAN | GLB_TIMING_STAT | GLB_LATE_CNT | GLB_LANE_MAP | GLB_ARM_CFG | GLB_ARM_STAT | GLB_MAP_STAT
  | GLB_MODE | GLB_MODE_REQ | GLB_MODE_LOG | GLB_PRECHARGE_CFG | GLB_BOOT_STAT | GLB_BOOT_CTL | GLB_BOOT_LEN
  | GLB_IMAGE_VER | GLB_DIAG_CTL | NCL_LCTL | NCL_LSTAT | NCL_ERRCNT | NCL_PATH_D | NCL_PATH_R | NCL_SEG | NCL_ASSIGN
  | NCL_ASSIGN_W | NCL_GCFG | NCL_CELL_LIMIT | LPHY_STAT | LPHY_FOM | LPHY_ERRCNT | LPHY_RMCNT | LPHY_EQ_TX
  | LPHY_EQ_RX | LPHY_DIAG | LPHY_PAT_USER_LO | LPHY_PAT_USER_HI | LPHY_CHK_ERR | LPHY_CHK_BITS_LO | LPHY_CHK_BITS_HI
  | LPHY_TRAIN_CFG | LPHY_EQ_ID | LPHY_MIR_STAT | WIN_CFG | WIN_TALLY_CFG | WIN_DRIFT | WIN_SEL_BASE | WIN_RANK_BASE
  | WIN_ARM_CFG | WIN_ARM_PEN | WIN_ARM_STAT | WIN_ARM_CNT | WIN_ARM_FLAGS | WIN_UNIT_STAT | WIN_CELL_TALLY
  | WIN_CELL_STAT | EDG_CFG | EDG_OC_CFG | EDG_ARM_STAT | EDG_ARM_FLAGS | EDG_PWM_CTL | EDG_PWM_PER | EDG_PWM_ON
  | EDG_PWM_OFF | EDG_PWM_DT | EDG_PWM_PHASE | EDG_PWM_STAT | EDG_PWM_COMMIT | EDG_FLT_CFG | EDG_FLT_STAT | EDG_ZC
  | EDG_MASK_LEN | EDG_MASK_SW | EDG_DL_STAT | EDG_SYNC_CFG | EDG_SYNC_CAP | EDG_CELL_OC | ENG_STAT | ENG_TASK
  | ENG_PM_ADDR | ENG_PM_DATA | ENG_DM_ADDR | ENG_DM_DATA | ENG_COEF_WIN | ENG_COEF_GEN | ENG_TBL | ENG_ARITH
  | ENG_ECC | ENG_INJ_CTL | ENG_INJ_AMP | ENG_INJ_PRBS | ENG_INJ_F0 | ENG_INJ_DF | ENG_INJ_LEN | ENG_INJ_STAT
  | ENG_CAP_BASE | ENG_CAP_CTL | ENG_CAP_IDX | ENG_TONE_F | ENG_TONE_A | SCH_CFG | SCH_STAT | SCH_OVR_CNT
  | SCH_EVT_RAISE | SCH_FATAL | SCH_ENG_CFG | SCH_TRACE_BASE | SCH_TRACE_IDX | SCH_LOAD | SCH_DEPTH | SCH_HIST
  | SCH_TC_CFG | SCH_TC_REL | SCH_TC_ENTRY | SCH_TC_ARG | SCH_TC_STAT | SCH_CTX | ADC_CFG | ADC_CAL | ADC_STAT
  | ADC_SNAP_BASE | ADC_OVR | ADC_LIM_ACT0 | ADC_LIM_ACT1 | ADC_LIM_HIT0 | ADC_LIM_HIT1 | ADC_URG_REQ | ADC_CH_CFG
  | ADC_RES_LO | ADC_RES_HI | ADC_LIM | ADC_URG_CFG | ADC_URG_RES_LO | ADC_URG_RES_HI | ADC_URG_CNT | REC_EVT_MATCH
  | REC_CH | REC_TRIGIN | REC_TRIGIN_STAT | REC_TB_CFG | REC_TB_STAT | REC_TB_CNT | REC_SILO_BASE | REC_SILO_CFG
  | REC_SILO_PRE | REC_SILO_POST | REC_SILO_TRIG | REC_SILO_CTL | REC_SILO_STAT | REC_SILO_CAP | REC_SILO_IDX
  | SAF_STAT | SAF_LATCH | SAF_TEST_STAT | SAF_RESET_STAT | SAF_IN_CFG | SAF_TEST_CFG | SAF_TM_MASK0 | SAF_TM_MASK1
  | SAF_CHECK | SAF_CONFIRM | SAF_CONF_CNT | SAF_RET_CHECK | SAF_FAULT_HIST | SAF_TRIP_TS_LO | SAF_TRIP_TS_HI
  | SAF_TRIP_INFO | SAF_RET_DATA | RED_CFG | RED_TIMING | RED_ASYM | RED_MIR_BASE | RED_CTL | RED_FWD_REQ | RED_STAT
  | RED_FLAGS | RED_CNT | RED_CNT2 | RED_DIGEST_LO | RED_DIGEST_HI | RED_PDIGEST_LO | RED_PDIGEST_HI | RED_DIG_PERIOD
  | RED_TF | RED_MIR_DELAY | RED_SIG | RED_PSIG | HIF_CFG | HIF_OWN_STAT | HIF_OWN_CTL | HIF_OWN_CFG | HIF_ACC_CNT
  | HIF_PORT_STAT | HIF_RING_BASE_LO | HIF_RING_BASE_HI | HIF_RING_CFG | HIF_RING_STAT | HIF_TEL_ARMS | HIF_DUMP_CFG
  | HIF_DUMP_RGN | HIF_DMA_CTL | HIF_DMA_HEAD_LO | HIF_DMA_HEAD_HI | HIF_DMA_HOPS | HIF_DMA_STAT | HIF_DMA_CUR_LO
  | HIF_DMA_CUR_HI | HIF_MBOX | HIF_MBOX_CTL | TIM_NOW_NS | TIM_NOW_SEC_LO | TIM_NOW_SEC_HI | TIM_INC_FRAC
  | TIM_INC_INT | TIM_RATE | TIM_SLEW_CFG | TIM_STEP_THR | TIM_OFS_NS | TIM_OFS_CTL | TIM_SET_NS | TIM_SET_SEC_LO
  | TIM_SET_SEC_HI | TIM_SLEW_REM | TIM_STAT | TIM_STEP_CNT | TIM_ENG_REQ | TIM_ETH_CFG | TIM_ETH_STAT
  | TIM_ETH_MAC_LO | TIM_ETH_MAC_HI | TIM_ETH_LAT | TIM_ETH_RXRING | TIM_ETH_TXRING | TIM_ETH_CNT | TIM_ETH_CNT2
  | TIM_GM_LO | TIM_GM_HI | TIM_ETH_MC_LO | TIM_ETH_MC_HI | TIM_SV_CFG | TIM_SV_BASE | TIM_SV_STAT | TIM_ESP_USER
  | CAN_CFG | CAN_NBT | CAN_DBT | CAN_TDC | CAN_STAT | CAN_CMD | CAN_CNT | CAN_CNT2 | CAN_CNT3 | CAN_CNT4
  | CAN_RX_BASE | CAN_TXFEED | CAN_TXBUF | CAN_RXOBJ | GRN_CFG | GRN_GATHER | GRN_STAT | GRN_ECC_CNT | GRN_ECC_LAST
  | GLB_DIE_TEMP | GLB_RAIL_STAT
deriving DecidableEq, Repr

/-- Field access codes (R9). -/
inductive Acc where
  | rw | ro | wo | w1c | w1s | rc | rwl | snap
deriving DecidableEq, Repr

/-- How a written value of a field is range-checked (R13). `special` fields have a check of their own (`clampSpecial`). -/
inductive Clamp where
  | none
  | range (lo hi : Nat)
  | els (max dflt : Nat)
  | special
deriving DecidableEq, Repr

/-- One field of a register: its bits, its access code and its clamp. -/
structure FieldDef where
  hi : Nat
  lo : Nat
  acc : Acc
  clamp : Clamp
deriving DecidableEq, Repr

/-- One register: first offset, up to two index dimensions as (count, stride), whether it stands in the privileged view only,
its reset value (that of index 0) and its fields. Bits of no field are reserved and read 0 (R13). -/
structure RegDef where
  reg : Reg
  base : Nat
  n1 : Nat
  st1 : Nat
  n2 : Nat
  st2 : Nat
  priv : Bool
  reset : Nat
  fields : List FieldDef
deriving Repr

namespace R
/-- GLB_DEVICE_ID (spec/00_scope.md). -/
def GLB_DEVICE_ID : Nat := 0x00000
/-- CLK_PLL_STAT (spec/01_control_period.md). -/
def CLK_PLL_STAT : Nat := 0x10000
/-- GLB_PERIOD (spec/01_control_period.md). -/
def GLB_PERIOD : Nat := 0x00100
/-- GLB_GATHER_DEADLINE (spec/01_control_period.md). -/
def GLB_GATHER_DEADLINE : Nat := 0x00104
/-- GLB_ORDER_OFFSET (spec/01_control_period.md). -/
def GLB_ORDER_OFFSET : Nat := 0x00108
/-- GLB_EDGE_OFFSET (spec/01_control_period.md). -/
def GLB_EDGE_OFFSET : Nat := 0x0010C
/-- GLB_ORIGIN_NS (spec/01_control_period.md). -/
def GLB_ORIGIN_NS : Nat := 0x00110
/-- GLB_ORIGIN_SEC_LO (spec/01_control_period.md). -/
def GLB_ORIGIN_SEC_LO : Nat := 0x00114
/-- GLB_ORIGIN_SEC_HI (spec/01_control_period.md). -/
def GLB_ORIGIN_SEC_HI : Nat := 0x00118
/-- GLB_PERIOD_POS_LO (spec/01_control_period.md). -/
def GLB_PERIOD_POS_LO : Nat := 0x00120
/-- GLB_PERIOD_POS_HI (spec/01_control_period.md). -/
def GLB_PERIOD_POS_HI : Nat := 0x00124
/-- GLB_MS_GATHER (spec/01_control_period.md). -/
def GLB_MS_GATHER : Nat := 0x00130
/-- GLB_MS_PLAN (spec/01_control_period.md). -/
def GLB_MS_PLAN : Nat := 0x00134
/-- GLB_TIMING_STAT (spec/01_control_period.md). -/
def GLB_TIMING_STAT : Nat := 0x00138
/-- GLB_LATE_CNT (spec/01_control_period.md). -/
def GLB_LATE_CNT : Nat := 0x0013C
/-- GLB_LANE_MAP (spec/01_control_period.md). -/
def GLB_LANE_MAP (i : Nat) : Nat := 0x00200 + i * 0x4
/-- GLB_ARM_CFG (spec/01_control_period.md). -/
def GLB_ARM_CFG (i : Nat) : Nat := 0x00300 + i * 0x4
/-- GLB_ARM_STAT (spec/01_control_period.md). -/
def GLB_ARM_STAT (i : Nat) : Nat := 0x00340 + i * 0x4
/-- GLB_MAP_STAT (spec/01_control_period.md). -/
def GLB_MAP_STAT : Nat := 0x00380
/-- GLB_MODE (spec/02_operating_modes.md). -/
def GLB_MODE : Nat := 0x00010
/-- GLB_MODE_REQ (spec/02_operating_modes.md). -/
def GLB_MODE_REQ : Nat := 0x00014
/-- GLB_MODE_LOG (spec/02_operating_modes.md). -/
def GLB_MODE_LOG : Nat := 0x00018
/-- GLB_PRECHARGE_CFG (spec/02_operating_modes.md). -/
def GLB_PRECHARGE_CFG : Nat := 0x0001C
/-- GLB_BOOT_STAT (spec/02_operating_modes.md). -/
def GLB_BOOT_STAT : Nat := 0x00020
/-- GLB_BOOT_CTL (spec/02_operating_modes.md). -/
def GLB_BOOT_CTL : Nat := 0x00024
/-- GLB_BOOT_LEN (spec/02_operating_modes.md). -/
def GLB_BOOT_LEN : Nat := 0x00028
/-- GLB_IMAGE_VER (spec/02_operating_modes.md). -/
def GLB_IMAGE_VER : Nat := 0x0002C
/-- GLB_DIAG_CTL (spec/02_operating_modes.md). -/
def GLB_DIAG_CTL : Nat := 0x00030
/-- NCL_LCTL (spec/03_cell_link_protocol.md). -/
def NCL_LCTL (i : Nat) : Nat := 0xA0000 + i * 0x400
/-- NCL_LSTAT (spec/03_cell_link_protocol.md). -/
def NCL_LSTAT (i : Nat) : Nat := 0xA0004 + i * 0x400
/-- NCL_ERRCNT (spec/03_cell_link_protocol.md). -/
def NCL_ERRCNT (i : Nat) : Nat := 0xA0008 + i * 0x400
/-- NCL_PATH_D (spec/03_cell_link_protocol.md). -/
def NCL_PATH_D (i : Nat) : Nat := 0xA000C + i * 0x400
/-- NCL_PATH_R (spec/03_cell_link_protocol.md). -/
def NCL_PATH_R (i : Nat) : Nat := 0xA0010 + i * 0x400
/-- NCL_SEG (spec/03_cell_link_protocol.md). -/
def NCL_SEG (i j : Nat) : Nat := 0xA00C0 + i * 0x400 + j * 0x4
/-- NCL_ASSIGN (spec/03_cell_link_protocol.md). -/
def NCL_ASSIGN (i j : Nat) : Nat := 0xA0200 + i * 0x400 + j * 0x8
/-- NCL_ASSIGN_W (spec/03_cell_link_protocol.md). -/
def NCL_ASSIGN_W (i j : Nat) : Nat := 0xA0204 + i * 0x400 + j * 0x8
/-- NCL_GCFG (spec/03_cell_link_protocol.md). -/
def NCL_GCFG : Nat := 0xAC000
/-- NCL_CELL_LIMIT (spec/03_cell_link_protocol.md). -/
def NCL_CELL_LIMIT : Nat := 0xAC004
/-- LPHY_STAT (spec/04_serial_lanes.md). -/
def LPHY_STAT (i : Nat) : Nat := 0xC0000 + i * 0x400
/-- LPHY_FOM (spec/04_serial_lanes.md). -/
def LPHY_FOM (i : Nat) : Nat := 0xC0004 + i * 0x400
/-- LPHY_ERRCNT (spec/04_serial_lanes.md). -/
def LPHY_ERRCNT (i : Nat) : Nat := 0xC0008 + i * 0x400
/-- LPHY_RMCNT (spec/04_serial_lanes.md). -/
def LPHY_RMCNT (i : Nat) : Nat := 0xC000C + i * 0x400
/-- LPHY_EQ_TX (spec/04_serial_lanes.md). -/
def LPHY_EQ_TX (i : Nat) : Nat := 0xC0010 + i * 0x400
/-- LPHY_EQ_RX (spec/04_serial_lanes.md). -/
def LPHY_EQ_RX (i : Nat) : Nat := 0xC0014 + i * 0x400
/-- LPHY_DIAG (spec/04_serial_lanes.md). -/
def LPHY_DIAG (i : Nat) : Nat := 0xC0020 + i * 0x400
/-- LPHY_PAT_USER_LO (spec/04_serial_lanes.md). -/
def LPHY_PAT_USER_LO (i : Nat) : Nat := 0xC0024 + i * 0x400
/-- LPHY_PAT_USER_HI (spec/04_serial_lanes.md). -/
def LPHY_PAT_USER_HI (i : Nat) : Nat := 0xC0028 + i * 0x400
/-- LPHY_CHK_ERR (spec/04_serial_lanes.md). -/
def LPHY_CHK_ERR (i : Nat) : Nat := 0xC002C + i * 0x400
/-- LPHY_CHK_BITS_LO (spec/04_serial_lanes.md). -/
def LPHY_CHK_BITS_LO (i : Nat) : Nat := 0xC0030 + i * 0x400
/-- LPHY_CHK_BITS_HI (spec/04_serial_lanes.md). -/
def LPHY_CHK_BITS_HI (i : Nat) : Nat := 0xC0034 + i * 0x400
/-- LPHY_TRAIN_CFG (spec/04_serial_lanes.md). -/
def LPHY_TRAIN_CFG : Nat := 0xCD000
/-- LPHY_EQ_ID (spec/04_serial_lanes.md). -/
def LPHY_EQ_ID : Nat := 0xCD004
/-- LPHY_MIR_STAT (spec/04_serial_lanes.md). -/
def LPHY_MIR_STAT : Nat := 0xCD008
/-- WIN_CFG (spec/05_winnow_engine.md). -/
def WIN_CFG : Nat := 0x80000
/-- WIN_TALLY_CFG (spec/05_winnow_engine.md). -/
def WIN_TALLY_CFG : Nat := 0x80004
/-- WIN_DRIFT (spec/05_winnow_engine.md). -/
def WIN_DRIFT : Nat := 0x80008
/-- WIN_SEL_BASE (spec/05_winnow_engine.md). -/
def WIN_SEL_BASE : Nat := 0x80010
/-- WIN_RANK_BASE (spec/05_winnow_engine.md). -/
def WIN_RANK_BASE : Nat := 0x80014
/-- WIN_ARM_CFG (spec/05_winnow_engine.md). -/
def WIN_ARM_CFG (i : Nat) : Nat := 0x80100 + i * 0x4
/-- WIN_ARM_PEN (spec/05_winnow_engine.md). -/
def WIN_ARM_PEN (i : Nat) : Nat := 0x80140 + i * 0x4
/-- WIN_ARM_STAT (spec/05_winnow_engine.md). -/
def WIN_ARM_STAT (i : Nat) : Nat := 0x80180 + i * 0x4
/-- WIN_ARM_CNT (spec/05_winnow_engine.md). -/
def WIN_ARM_CNT (i : Nat) : Nat := 0x801C0 + i * 0x4
/-- WIN_ARM_FLAGS (spec/05_winnow_engine.md). -/
def WIN_ARM_FLAGS (i : Nat) : Nat := 0x80200 + i * 0x4
/-- WIN_UNIT_STAT (spec/05_winnow_engine.md). -/
def WIN_UNIT_STAT (i : Nat) : Nat := 0x80240 + i * 0x4
/-- WIN_CELL_TALLY (spec/05_winnow_engine.md). -/
def WIN_CELL_TALLY (i : Nat) : Nat := 0x84000 + i * 0x4
/-- WIN_CELL_STAT (spec/05_winnow_engine.md). -/
def WIN_CELL_STAT (i : Nat) : Nat := 0x88000 + i * 0x4
/-- EDG_CFG (spec/06_edge_planning_and_pwm.md). -/
def EDG_CFG : Nat := 0x90000
/-- EDG_OC_CFG (spec/06_edge_planning_and_pwm.md). -/
def EDG_OC_CFG : Nat := 0x90004
/-- EDG_ARM_STAT (spec/06_edge_planning_and_pwm.md). -/
def EDG_ARM_STAT (i : Nat) : Nat := 0x90100 + i * 0x4
/-- EDG_ARM_FLAGS (spec/06_edge_planning_and_pwm.md). -/
def EDG_ARM_FLAGS (i : Nat) : Nat := 0x90140 + i * 0x4
/-- EDG_PWM_CTL (spec/06_edge_planning_and_pwm.md). -/
def EDG_PWM_CTL (i : Nat) : Nat := 0x91000 + i * 0x40
/-- EDG_PWM_PER (spec/06_edge_planning_and_pwm.md). -/
def EDG_PWM_PER (i : Nat) : Nat := 0x91004 + i * 0x40
/-- EDG_PWM_ON (spec/06_edge_planning_and_pwm.md). -/
def EDG_PWM_ON (i : Nat) : Nat := 0x91008 + i * 0x40
/-- EDG_PWM_OFF (spec/06_edge_planning_and_pwm.md). -/
def EDG_PWM_OFF (i : Nat) : Nat := 0x9100C + i * 0x40
/-- EDG_PWM_DT (spec/06_edge_planning_and_pwm.md). -/
def EDG_PWM_DT (i : Nat) : Nat := 0x91010 + i * 0x40
/-- EDG_PWM_PHASE (spec/06_edge_planning_and_pwm.md). -/
def EDG_PWM_PHASE (i : Nat) : Nat := 0x91014 + i * 0x40
/-- EDG_PWM_STAT (spec/06_edge_planning_and_pwm.md). -/
def EDG_PWM_STAT (i : Nat) : Nat := 0x91018 + i * 0x40
/-- EDG_PWM_COMMIT (spec/06_edge_planning_and_pwm.md). -/
def EDG_PWM_COMMIT : Nat := 0x91400
/-- EDG_FLT_CFG (spec/06_edge_planning_and_pwm.md). -/
def EDG_FLT_CFG (i : Nat) : Nat := 0x91800 + i * 0x4
/-- EDG_FLT_STAT (spec/06_edge_planning_and_pwm.md). -/
def EDG_FLT_STAT (i : Nat) : Nat := 0x91820 + i * 0x4
/-- EDG_ZC (spec/06_edge_planning_and_pwm.md). -/
def EDG_ZC (i : Nat) : Nat := 0x91840 + i * 0x4
/-- EDG_MASK_LEN (spec/06_edge_planning_and_pwm.md). -/
def EDG_MASK_LEN : Nat := 0x91848
/-- EDG_MASK_SW (spec/06_edge_planning_and_pwm.md). -/
def EDG_MASK_SW : Nat := 0x9184C
/-- EDG_DL_STAT (spec/06_edge_planning_and_pwm.md). -/
def EDG_DL_STAT : Nat := 0x91900
/-- EDG_SYNC_CFG (spec/06_edge_planning_and_pwm.md). -/
def EDG_SYNC_CFG : Nat := 0x91A00
/-- EDG_SYNC_CAP (spec/06_edge_planning_and_pwm.md). -/
def EDG_SYNC_CAP : Nat := 0x91A04
/-- EDG_CELL_OC (spec/06_edge_planning_and_pwm.md). -/
def EDG_CELL_OC (i : Nat) : Nat := 0x94000 + i * 0x4
/-- ENG_STAT (spec/07_field_engines.md). -/
def ENG_STAT (i : Nat) : Nat := 0x60000 + i * 0x1000
/-- ENG_TASK (spec/07_field_engines.md). -/
def ENG_TASK (i : Nat) : Nat := 0x60004 + i * 0x1000
/-- ENG_PM_ADDR (spec/07_field_engines.md). -/
def ENG_PM_ADDR (i : Nat) : Nat := 0x60010 + i * 0x1000
/-- ENG_PM_DATA (spec/07_field_engines.md). -/
def ENG_PM_DATA (i : Nat) : Nat := 0x60014 + i * 0x1000
/-- ENG_DM_ADDR (spec/07_field_engines.md). -/
def ENG_DM_ADDR (i : Nat) : Nat := 0x60018 + i * 0x1000
/-- ENG_DM_DATA (spec/07_field_engines.md). -/
def ENG_DM_DATA (i : Nat) : Nat := 0x6001C + i * 0x1000
/-- ENG_COEF_WIN (spec/07_field_engines.md). -/
def ENG_COEF_WIN (i : Nat) : Nat := 0x60020 + i * 0x1000
/-- ENG_COEF_GEN (spec/07_field_engines.md). -/
def ENG_COEF_GEN (i : Nat) : Nat := 0x60024 + i * 0x1000
/-- ENG_TBL (spec/07_field_engines.md). -/
def ENG_TBL (i j : Nat) : Nat := 0x60030 + i * 0x1000 + j * 0x4
/-- ENG_ARITH (spec/07_field_engines.md). -/
def ENG_ARITH (i : Nat) : Nat := 0x60040 + i * 0x1000
/-- ENG_ECC (spec/07_field_engines.md). -/
def ENG_ECC (i : Nat) : Nat := 0x60044 + i * 0x1000
/-- ENG_INJ_CTL (spec/07_field_engines.md). -/
def ENG_INJ_CTL (i : Nat) : Nat := 0x60100 + i * 0x1000
/-- ENG_INJ_AMP (spec/07_field_engines.md). -/
def ENG_INJ_AMP (i : Nat) : Nat := 0x60104 + i * 0x1000
/-- ENG_INJ_PRBS (spec/07_field_engines.md). -/
def ENG_INJ_PRBS (i : Nat) : Nat := 0x60108 + i * 0x1000
/-- ENG_INJ_F0 (spec/07_field_engines.md). -/
def ENG_INJ_F0 (i : Nat) : Nat := 0x6010C + i * 0x1000
/-- ENG_INJ_DF (spec/07_field_engines.md). -/
def ENG_INJ_DF (i : Nat) : Nat := 0x60110 + i * 0x1000
/-- ENG_INJ_LEN (spec/07_field_engines.md). -/
def ENG_INJ_LEN (i : Nat) : Nat := 0x60114 + i * 0x1000
/-- ENG_INJ_STAT (spec/07_field_engines.md). -/
def ENG_INJ_STAT (i : Nat) : Nat := 0x60118 + i * 0x1000
/-- ENG_CAP_BASE (spec/07_field_engines.md). -/
def ENG_CAP_BASE (i : Nat) : Nat := 0x60120 + i * 0x1000
/-- ENG_CAP_CTL (spec/07_field_engines.md). -/
def ENG_CAP_CTL (i : Nat) : Nat := 0x60124 + i * 0x1000
/-- ENG_CAP_IDX (spec/07_field_engines.md). -/
def ENG_CAP_IDX (i : Nat) : Nat := 0x60128 + i * 0x1000
/-- ENG_TONE_F (spec/07_field_engines.md). -/
def ENG_TONE_F (i j : Nat) : Nat := 0x60200 + i * 0x1000 + j * 0x8
/-- ENG_TONE_A (spec/07_field_engines.md). -/
def ENG_TONE_A (i j : Nat) : Nat := 0x60204 + i * 0x1000 + j * 0x8
/-- SCH_CFG (spec/08_task_scheduler.md). -/
def SCH_CFG : Nat := 0x50000
/-- SCH_STAT (spec/08_task_scheduler.md). -/
def SCH_STAT : Nat := 0x50004
/-- SCH_OVR_CNT (spec/08_task_scheduler.md). -/
def SCH_OVR_CNT : Nat := 0x50008
/-- SCH_EVT_RAISE (spec/08_task_scheduler.md). -/
def SCH_EVT_RAISE : Nat := 0x5000C
/-- SCH_FATAL (spec/08_task_scheduler.md). -/
def SCH_FATAL : Nat := 0x50010
/-- SCH_ENG_CFG (spec/08_task_scheduler.md). -/
def SCH_ENG_CFG (i : Nat) : Nat := 0x50100 + i * 0x20
/-- SCH_TRACE_BASE (spec/08_task_scheduler.md). -/
def SCH_TRACE_BASE (i : Nat) : Nat := 0x50104 + i * 0x20
/-- SCH_TRACE_IDX (spec/08_task_scheduler.md). -/
def SCH_TRACE_IDX (i : Nat) : Nat := 0x50108 + i * 0x20
/-- SCH_LOAD (spec/08_task_scheduler.md). -/
def SCH_LOAD (i : Nat) : Nat := 0x5010C + i * 0x20
/-- SCH_DEPTH (spec/08_task_scheduler.md). -/
def SCH_DEPTH (i : Nat) : Nat := 0x50110 + i * 0x20
/-- SCH_HIST (spec/08_task_scheduler.md). -/
def SCH_HIST (i j : Nat) : Nat := 0x50400 + i * 0x40 + j * 0x4
/-- SCH_TC_CFG (spec/08_task_scheduler.md). -/
def SCH_TC_CFG (i : Nat) : Nat := 0x51000 + i * 0x20
/-- SCH_TC_REL (spec/08_task_scheduler.md). -/
def SCH_TC_REL (i : Nat) : Nat := 0x51004 + i * 0x20
/-- SCH_TC_ENTRY (spec/08_task_scheduler.md). -/
def SCH_TC_ENTRY (i : Nat) : Nat := 0x51008 + i * 0x20
/-- SCH_TC_ARG (spec/08_task_scheduler.md). -/
def SCH_TC_ARG (i : Nat) : Nat := 0x5100C + i * 0x20
/-- SCH_TC_STAT (spec/08_task_scheduler.md). -/
def SCH_TC_STAT (i : Nat) : Nat := 0x51010 + i * 0x20
/-- SCH_CTX (spec/08_task_scheduler.md). -/
def SCH_CTX (i j : Nat) : Nat := 0x54000 + i * 0x100 + j * 0x4
/-- ADC_CFG (spec/09_analog_inputs.md). -/
def ADC_CFG : Nat := 0xE0000
/-- ADC_CAL (spec/09_analog_inputs.md). -/
def ADC_CAL : Nat := 0xE0004
/-- ADC_STAT (spec/09_analog_inputs.md). -/
def ADC_STAT : Nat := 0xE0008
/-- ADC_SNAP_BASE (spec/09_analog_inputs.md). -/
def ADC_SNAP_BASE : Nat := 0xE000C
/-- ADC_OVR (spec/09_analog_inputs.md). -/
def ADC_OVR : Nat := 0xE0010
/-- ADC_LIM_ACT0 (spec/09_analog_inputs.md). -/
def ADC_LIM_ACT0 : Nat := 0xE0014
/-- ADC_LIM_ACT1 (spec/09_analog_inputs.md). -/
def ADC_LIM_ACT1 : Nat := 0xE0018
/-- ADC_LIM_HIT0 (spec/09_analog_inputs.md). -/
def ADC_LIM_HIT0 : Nat := 0xE001C
/-- ADC_LIM_HIT1 (spec/09_analog_inputs.md). -/
def ADC_LIM_HIT1 : Nat := 0xE0020
/-- ADC_URG_REQ (spec/09_analog_inputs.md). -/
def ADC_URG_REQ : Nat := 0xE0024
/-- ADC_CH_CFG (spec/09_analog_inputs.md). -/
def ADC_CH_CFG (i : Nat) : Nat := 0xE0040 + i * 0x4
/-- ADC_RES_LO (spec/09_analog_inputs.md). -/
def ADC_RES_LO (i : Nat) : Nat := 0xE0100 + i * 0x8
/-- ADC_RES_HI (spec/09_analog_inputs.md). -/
def ADC_RES_HI (i : Nat) : Nat := 0xE0104 + i * 0x8
/-- ADC_LIM (spec/09_analog_inputs.md). -/
def ADC_LIM (i j : Nat) : Nat := 0xE0200 + i * 0x8 + j * 0x4
/-- ADC_URG_CFG (spec/09_analog_inputs.md). -/
def ADC_URG_CFG (i : Nat) : Nat := 0xE0300 + i * 0x10
/-- ADC_URG_RES_LO (spec/09_analog_inputs.md). -/
def ADC_URG_RES_LO (i : Nat) : Nat := 0xE0304 + i * 0x10
/-- ADC_URG_RES_HI (spec/09_analog_inputs.md). -/
def ADC_URG_RES_HI (i : Nat) : Nat := 0xE0308 + i * 0x10
/-- ADC_URG_CNT (spec/09_analog_inputs.md). -/
def ADC_URG_CNT (i : Nat) : Nat := 0xE030C + i * 0x10
/-- REC_EVT_MATCH (spec/10_fault_recorder.md). -/
def REC_EVT_MATCH : Nat := 0xE8000
/-- REC_CH (spec/10_fault_recorder.md). -/
def REC_CH (i : Nat) : Nat := 0xE8010 + i * 0x4
/-- REC_TRIGIN (spec/10_fault_recorder.md). -/
def REC_TRIGIN (i : Nat) : Nat := 0xE8040 + i * 0x4
/-- REC_TRIGIN_STAT (spec/10_fault_recorder.md). -/
def REC_TRIGIN_STAT (i : Nat) : Nat := 0xE8050 + i * 0x4
/-- REC_TB_CFG (spec/10_fault_recorder.md). -/
def REC_TB_CFG : Nat := 0xE8060
/-- REC_TB_STAT (spec/10_fault_recorder.md). -/
def REC_TB_STAT : Nat := 0xE8064
/-- REC_TB_CNT (spec/10_fault_recorder.md). -/
def REC_TB_CNT : Nat := 0xE8068
/-- REC_SILO_BASE (spec/10_fault_recorder.md). -/
def REC_SILO_BASE (i : Nat) : Nat := 0xE8100 + i * 0x40
/-- REC_SILO_CFG (spec/10_fault_recorder.md). -/
def REC_SILO_CFG (i : Nat) : Nat := 0xE8104 + i * 0x40
/-- REC_SILO_PRE (spec/10_fault_recorder.md). -/
def REC_SILO_PRE (i : Nat) : Nat := 0xE8108 + i * 0x40
/-- REC_SILO_POST (spec/10_fault_recorder.md). -/
def REC_SILO_POST (i : Nat) : Nat := 0xE810C + i * 0x40
/-- REC_SILO_TRIG (spec/10_fault_recorder.md). -/
def REC_SILO_TRIG (i : Nat) : Nat := 0xE8110 + i * 0x40
/-- REC_SILO_CTL (spec/10_fault_recorder.md). -/
def REC_SILO_CTL (i : Nat) : Nat := 0xE8114 + i * 0x40
/-- REC_SILO_STAT (spec/10_fault_recorder.md). -/
def REC_SILO_STAT (i : Nat) : Nat := 0xE8118 + i * 0x40
/-- REC_SILO_CAP (spec/10_fault_recorder.md). -/
def REC_SILO_CAP (i : Nat) : Nat := 0xE811C + i * 0x40
/-- REC_SILO_IDX (spec/10_fault_recorder.md). -/
def REC_SILO_IDX (i : Nat) : Nat := 0xE8120 + i * 0x40
/-- SAF_STAT (spec/11_safety_functions.md). -/
def SAF_STAT : Nat := 0x20000
/-- SAF_LATCH (spec/11_safety_functions.md). -/
def SAF_LATCH : Nat := 0x20004
/-- SAF_TEST_STAT (spec/11_safety_functions.md). -/
def SAF_TEST_STAT : Nat := 0x20008
/-- SAF_RESET_STAT (spec/11_safety_functions.md). -/
def SAF_RESET_STAT : Nat := 0x2000C
/-- SAF_IN_CFG (spec/11_safety_functions.md). -/
def SAF_IN_CFG (i : Nat) : Nat := 0x20010 + i * 0x4
/-- SAF_TEST_CFG (spec/11_safety_functions.md). -/
def SAF_TEST_CFG : Nat := 0x20020
/-- SAF_TM_MASK0 (spec/11_safety_functions.md). -/
def SAF_TM_MASK0 : Nat := 0x20024
/-- SAF_TM_MASK1 (spec/11_safety_functions.md). -/
def SAF_TM_MASK1 : Nat := 0x20028
/-- SAF_CHECK (spec/11_safety_functions.md). -/
def SAF_CHECK : Nat := 0x20040
/-- SAF_CONFIRM (spec/11_safety_functions.md). -/
def SAF_CONFIRM : Nat := 0x20044
/-- SAF_CONF_CNT (spec/11_safety_functions.md). -/
def SAF_CONF_CNT : Nat := 0x20048
/-- SAF_RET_CHECK (spec/11_safety_functions.md). -/
def SAF_RET_CHECK : Nat := 0x2004C
/-- SAF_FAULT_HIST (spec/11_safety_functions.md). -/
def SAF_FAULT_HIST : Nat := 0x20050
/-- SAF_TRIP_TS_LO (spec/11_safety_functions.md). -/
def SAF_TRIP_TS_LO : Nat := 0x20054
/-- SAF_TRIP_TS_HI (spec/11_safety_functions.md). -/
def SAF_TRIP_TS_HI : Nat := 0x20058
/-- SAF_TRIP_INFO (spec/11_safety_functions.md). -/
def SAF_TRIP_INFO : Nat := 0x2005C
/-- SAF_RET_DATA (spec/11_safety_functions.md). -/
def SAF_RET_DATA (i : Nat) : Nat := 0x20100 + i * 0x4
/-- RED_CFG (spec/12_redundant_pair.md). -/
def RED_CFG : Nat := 0x30000
/-- RED_TIMING (spec/12_redundant_pair.md). -/
def RED_TIMING : Nat := 0x30004
/-- RED_ASYM (spec/12_redundant_pair.md). -/
def RED_ASYM : Nat := 0x30008
/-- RED_MIR_BASE (spec/12_redundant_pair.md). -/
def RED_MIR_BASE : Nat := 0x3000C
/-- RED_CTL (spec/12_redundant_pair.md). -/
def RED_CTL : Nat := 0x30010
/-- RED_FWD_REQ (spec/12_redundant_pair.md). -/
def RED_FWD_REQ : Nat := 0x30014
/-- RED_STAT (spec/12_redundant_pair.md). -/
def RED_STAT : Nat := 0x30020
/-- RED_FLAGS (spec/12_redundant_pair.md). -/
def RED_FLAGS : Nat := 0x30024
/-- RED_CNT (spec/12_redundant_pair.md). -/
def RED_CNT : Nat := 0x30028
/-- RED_CNT2 (spec/12_redundant_pair.md). -/
def RED_CNT2 : Nat := 0x3002C
/-- RED_DIGEST_LO (spec/12_redundant_pair.md). -/
def RED_DIGEST_LO : Nat := 0x30030
/-- RED_DIGEST_HI (spec/12_redundant_pair.md). -/
def RED_DIGEST_HI : Nat := 0x30034
/-- RED_PDIGEST_LO (spec/12_redundant_pair.md). -/
def RED_PDIGEST_LO : Nat := 0x30038
/-- RED_PDIGEST_HI (spec/12_redundant_pair.md). -/
def RED_PDIGEST_HI : Nat := 0x3003C
/-- RED_DIG_PERIOD (spec/12_redundant_pair.md). -/
def RED_DIG_PERIOD : Nat := 0x30040
/-- RED_TF (spec/12_redundant_pair.md). -/
def RED_TF : Nat := 0x30044
/-- RED_MIR_DELAY (spec/12_redundant_pair.md). -/
def RED_MIR_DELAY : Nat := 0x30048
/-- RED_SIG (spec/12_redundant_pair.md). -/
def RED_SIG : Nat := 0x3004C
/-- RED_PSIG (spec/12_redundant_pair.md). -/
def RED_PSIG : Nat := 0x30050
/-- HIF_CFG (spec/13_host_interface_and_dma.md). -/
def HIF_CFG : Nat := 0x40000
/-- HIF_OWN_STAT (spec/13_host_interface_and_dma.md). -/
def HIF_OWN_STAT : Nat := 0x40004
/-- HIF_OWN_CTL (spec/13_host_interface_and_dma.md). -/
def HIF_OWN_CTL : Nat := 0x40008
/-- HIF_OWN_CFG (spec/13_host_interface_and_dma.md). -/
def HIF_OWN_CFG : Nat := 0x4000C
/-- HIF_ACC_CNT (spec/13_host_interface_and_dma.md). -/
def HIF_ACC_CNT : Nat := 0x40010
/-- HIF_PORT_STAT (spec/13_host_interface_and_dma.md). -/
def HIF_PORT_STAT (i : Nat) : Nat := 0x40020 + i * 0x4
/-- HIF_RING_BASE_LO (spec/13_host_interface_and_dma.md). -/
def HIF_RING_BASE_LO (i j : Nat) : Nat := 0x40100 + i * 0x80 + j * 0x10
/-- HIF_RING_BASE_HI (spec/13_host_interface_and_dma.md). -/
def HIF_RING_BASE_HI (i j : Nat) : Nat := 0x40104 + i * 0x80 + j * 0x10
/-- HIF_RING_CFG (spec/13_host_interface_and_dma.md). -/
def HIF_RING_CFG (i j : Nat) : Nat := 0x40108 + i * 0x80 + j * 0x10
/-- HIF_RING_STAT (spec/13_host_interface_and_dma.md). -/
def HIF_RING_STAT (i j : Nat) : Nat := 0x4010C + i * 0x80 + j * 0x10
/-- HIF_TEL_ARMS (spec/13_host_interface_and_dma.md). -/
def HIF_TEL_ARMS (i : Nat) : Nat := 0x40200 + i * 0x4
/-- HIF_DUMP_CFG (spec/13_host_interface_and_dma.md). -/
def HIF_DUMP_CFG : Nat := 0x40300
/-- HIF_DUMP_RGN (spec/13_host_interface_and_dma.md). -/
def HIF_DUMP_RGN (i : Nat) : Nat := 0x40340 + i * 0x4
/-- HIF_DMA_CTL (spec/13_host_interface_and_dma.md). -/
def HIF_DMA_CTL (i : Nat) : Nat := 0x40800 + i * 0x20
/-- HIF_DMA_HEAD_LO (spec/13_host_interface_and_dma.md). -/
def HIF_DMA_HEAD_LO (i : Nat) : Nat := 0x40804 + i * 0x20
/-- HIF_DMA_HEAD_HI (spec/13_host_interface_and_dma.md). -/
def HIF_DMA_HEAD_HI (i : Nat) : Nat := 0x40808 + i * 0x20
/-- HIF_DMA_HOPS (spec/13_host_interface_and_dma.md). -/
def HIF_DMA_HOPS (i : Nat) : Nat := 0x4080C + i * 0x20
/-- HIF_DMA_STAT (spec/13_host_interface_and_dma.md). -/
def HIF_DMA_STAT (i : Nat) : Nat := 0x40810 + i * 0x20
/-- HIF_DMA_CUR_LO (spec/13_host_interface_and_dma.md). -/
def HIF_DMA_CUR_LO (i : Nat) : Nat := 0x40814 + i * 0x20
/-- HIF_DMA_CUR_HI (spec/13_host_interface_and_dma.md). -/
def HIF_DMA_CUR_HI (i : Nat) : Nat := 0x40818 + i * 0x20
/-- HIF_MBOX (spec/13_host_interface_and_dma.md). -/
def HIF_MBOX (i : Nat) : Nat := 0x40C00 + i * 0x4
/-- HIF_MBOX_CTL (spec/13_host_interface_and_dma.md). -/
def HIF_MBOX_CTL : Nat := 0x40C40
/-- TIM_NOW_NS (spec/14_timebase_and_network.md). -/
def TIM_NOW_NS : Nat := 0xF0000
/-- TIM_NOW_SEC_LO (spec/14_timebase_and_network.md). -/
def TIM_NOW_SEC_LO : Nat := 0xF0004
/-- TIM_NOW_SEC_HI (spec/14_timebase_and_network.md). -/
def TIM_NOW_SEC_HI : Nat := 0xF0008
/-- TIM_INC_FRAC (spec/14_timebase_and_network.md). -/
def TIM_INC_FRAC : Nat := 0xF0010
/-- TIM_INC_INT (spec/14_timebase_and_network.md). -/
def TIM_INC_INT : Nat := 0xF0014
/-- TIM_RATE (spec/14_timebase_and_network.md). -/
def TIM_RATE : Nat := 0xF0018
/-- TIM_SLEW_CFG (spec/14_timebase_and_network.md). -/
def TIM_SLEW_CFG : Nat := 0xF001C
/-- TIM_STEP_THR (spec/14_timebase_and_network.md). -/
def TIM_STEP_THR : Nat := 0xF0020
/-- TIM_OFS_NS (spec/14_timebase_and_network.md). -/
def TIM_OFS_NS : Nat := 0xF0024
/-- TIM_OFS_CTL (spec/14_timebase_and_network.md). -/
def TIM_OFS_CTL : Nat := 0xF0028
/-- TIM_SET_NS (spec/14_timebase_and_network.md). -/
def TIM_SET_NS : Nat := 0xF002C
/-- TIM_SET_SEC_LO (spec/14_timebase_and_network.md). -/
def TIM_SET_SEC_LO : Nat := 0xF0030
/-- TIM_SET_SEC_HI (spec/14_timebase_and_network.md). -/
def TIM_SET_SEC_HI : Nat := 0xF0034
/-- TIM_SLEW_REM (spec/14_timebase_and_network.md). -/
def TIM_SLEW_REM : Nat := 0xF0038
/-- TIM_STAT (spec/14_timebase_and_network.md). -/
def TIM_STAT : Nat := 0xF003C
/-- TIM_STEP_CNT (spec/14_timebase_and_network.md). -/
def TIM_STEP_CNT : Nat := 0xF0040
/-- TIM_ENG_REQ (spec/14_timebase_and_network.md). -/
def TIM_ENG_REQ : Nat := 0xF0044
/-- TIM_ETH_CFG (spec/14_timebase_and_network.md). -/
def TIM_ETH_CFG (i : Nat) : Nat := 0xF0100 + i * 0x40
/-- TIM_ETH_STAT (spec/14_timebase_and_network.md). -/
def TIM_ETH_STAT (i : Nat) : Nat := 0xF0104 + i * 0x40
/-- TIM_ETH_MAC_LO (spec/14_timebase_and_network.md). -/
def TIM_ETH_MAC_LO (i : Nat) : Nat := 0xF0108 + i * 0x40
/-- TIM_ETH_MAC_HI (spec/14_timebase_and_network.md). -/
def TIM_ETH_MAC_HI (i : Nat) : Nat := 0xF010C + i * 0x40
/-- TIM_ETH_LAT (spec/14_timebase_and_network.md). -/
def TIM_ETH_LAT (i : Nat) : Nat := 0xF0110 + i * 0x40
/-- TIM_ETH_RXRING (spec/14_timebase_and_network.md). -/
def TIM_ETH_RXRING (i : Nat) : Nat := 0xF0114 + i * 0x40
/-- TIM_ETH_TXRING (spec/14_timebase_and_network.md). -/
def TIM_ETH_TXRING (i : Nat) : Nat := 0xF0118 + i * 0x40
/-- TIM_ETH_CNT (spec/14_timebase_and_network.md). -/
def TIM_ETH_CNT (i : Nat) : Nat := 0xF011C + i * 0x40
/-- TIM_ETH_CNT2 (spec/14_timebase_and_network.md). -/
def TIM_ETH_CNT2 (i : Nat) : Nat := 0xF0120 + i * 0x40
/-- TIM_GM_LO (spec/14_timebase_and_network.md). -/
def TIM_GM_LO (i : Nat) : Nat := 0xF0124 + i * 0x40
/-- TIM_GM_HI (spec/14_timebase_and_network.md). -/
def TIM_GM_HI (i : Nat) : Nat := 0xF0128 + i * 0x40
/-- TIM_ETH_MC_LO (spec/14_timebase_and_network.md). -/
def TIM_ETH_MC_LO (i j : Nat) : Nat := 0xF0200 + i * 0x40 + j * 0x8
/-- TIM_ETH_MC_HI (spec/14_timebase_and_network.md). -/
def TIM_ETH_MC_HI (i j : Nat) : Nat := 0xF0204 + i * 0x40 + j * 0x8
/-- TIM_SV_CFG (spec/14_timebase_and_network.md). -/
def TIM_SV_CFG (i : Nat) : Nat := 0xF0300 + i * 0x10
/-- TIM_SV_BASE (spec/14_timebase_and_network.md). -/
def TIM_SV_BASE (i : Nat) : Nat := 0xF0304 + i * 0x10
/-- TIM_SV_STAT (spec/14_timebase_and_network.md). -/
def TIM_SV_STAT (i : Nat) : Nat := 0xF0308 + i * 0x10
/-- TIM_ESP_USER (spec/14_timebase_and_network.md). -/
def TIM_ESP_USER : Nat := 0xF0400
/-- CAN_CFG (spec/15_message_bus.md). -/
def CAN_CFG (i : Nat) : Nat := 0xF8000 + i * 0x1000
/-- CAN_NBT (spec/15_message_bus.md). -/
def CAN_NBT (i : Nat) : Nat := 0xF8004 + i * 0x1000
/-- CAN_DBT (spec/15_message_bus.md). -/
def CAN_DBT (i : Nat) : Nat := 0xF8008 + i * 0x1000
/-- CAN_TDC (spec/15_message_bus.md). -/
def CAN_TDC (i : Nat) : Nat := 0xF800C + i * 0x1000
/-- CAN_STAT (spec/15_message_bus.md). -/
def CAN_STAT (i : Nat) : Nat := 0xF8010 + i * 0x1000
/-- CAN_CMD (spec/15_message_bus.md). -/
def CAN_CMD (i : Nat) : Nat := 0xF8014 + i * 0x1000
/-- CAN_CNT (spec/15_message_bus.md). -/
def CAN_CNT (i : Nat) : Nat := 0xF8018 + i * 0x1000
/-- CAN_CNT2 (spec/15_message_bus.md). -/
def CAN_CNT2 (i : Nat) : Nat := 0xF801C + i * 0x1000
/-- CAN_CNT3 (spec/15_message_bus.md). -/
def CAN_CNT3 (i : Nat) : Nat := 0xF8020 + i * 0x1000
/-- CAN_CNT4 (spec/15_message_bus.md). -/
def CAN_CNT4 (i : Nat) : Nat := 0xF8024 + i * 0x1000
/-- CAN_RX_BASE (spec/15_message_bus.md). -/
def CAN_RX_BASE (i : Nat) : Nat := 0xF8028 + i * 0x1000
/-- CAN_TXFEED (spec/15_message_bus.md). -/
def CAN_TXFEED (i : Nat) : Nat := 0xF802C + i * 0x1000
/-- CAN_TXBUF (spec/15_message_bus.md). -/
def CAN_TXBUF (i j : Nat) : Nat := 0xF8040 + i * 0x1000 + j * 0x4
/-- CAN_RXOBJ (spec/15_message_bus.md). -/
def CAN_RXOBJ (i j : Nat) : Nat := 0xF8100 + i * 0x1000 + j * 0x4
/-- GRN_CFG (spec/16_granary_memory.md). -/
def GRN_CFG : Nat := 0xFC000
/-- GRN_GATHER (spec/16_granary_memory.md). -/
def GRN_GATHER : Nat := 0xFC004
/-- GRN_STAT (spec/16_granary_memory.md). -/
def GRN_STAT : Nat := 0xFC008
/-- GRN_ECC_CNT (spec/16_granary_memory.md). -/
def GRN_ECC_CNT : Nat := 0xFC00C
/-- GRN_ECC_LAST (spec/16_granary_memory.md). -/
def GRN_ECC_LAST : Nat := 0xFC010
/-- GLB_DIE_TEMP (spec/17_electrical_and_package.md). -/
def GLB_DIE_TEMP : Nat := 0x00400
/-- GLB_RAIL_STAT (spec/17_electrical_and_package.md). -/
def GLB_RAIL_STAT : Nat := 0x00404
end R

/-- A field of one register: the register's offset and the field's bits. -/
structure Fld where
  off : Nat
  hi : Nat
  lo : Nat
deriving DecidableEq, Repr

namespace F
def GLB_DEVICE_ID_part_number : Fld := ⟨R.GLB_DEVICE_ID, 31, 16⟩
def GLB_DEVICE_ID_stepping_major : Fld := ⟨R.GLB_DEVICE_ID, 7, 4⟩
def GLB_DEVICE_ID_stepping_minor : Fld := ⟨R.GLB_DEVICE_ID, 3, 0⟩
def CLK_PLL_STAT_pcie_ref_present : Fld := ⟨R.CLK_PLL_STAT, 12, 12⟩
def CLK_PLL_STAT_lref_b_lost : Fld := ⟨R.CLK_PLL_STAT, 11, 11⟩
def CLK_PLL_STAT_lref_a_lost : Fld := ⟨R.CLK_PLL_STAT, 10, 10⟩
def CLK_PLL_STAT_lref_b_present : Fld := ⟨R.CLK_PLL_STAT, 9, 9⟩
def CLK_PLL_STAT_lref_a_present : Fld := ⟨R.CLK_PLL_STAT, 8, 8⟩
def CLK_PLL_STAT_ref_lost : Fld := ⟨R.CLK_PLL_STAT, 5, 5⟩
def CLK_PLL_STAT_ref_present : Fld := ⟨R.CLK_PLL_STAT, 4, 4⟩
def CLK_PLL_STAT_lock_lost : Fld := ⟨R.CLK_PLL_STAT, 1, 1⟩
def CLK_PLL_STAT_locked : Fld := ⟨R.CLK_PLL_STAT, 0, 0⟩
def GLB_PERIOD_period_steps : Fld := ⟨R.GLB_PERIOD, 14, 0⟩
def GLB_GATHER_DEADLINE_deadline_steps : Fld := ⟨R.GLB_GATHER_DEADLINE, 14, 0⟩
def GLB_ORDER_OFFSET_order_offset_steps : Fld := ⟨R.GLB_ORDER_OFFSET, 14, 0⟩
def GLB_EDGE_OFFSET_edge_offset_steps : Fld := ⟨R.GLB_EDGE_OFFSET, 14, 0⟩
def GLB_ORIGIN_NS_origin_ns : Fld := ⟨R.GLB_ORIGIN_NS, 29, 0⟩
def GLB_ORIGIN_SEC_LO_origin_sec_lo : Fld := ⟨R.GLB_ORIGIN_SEC_LO, 31, 0⟩
def GLB_ORIGIN_SEC_HI_origin_sec_hi : Fld := ⟨R.GLB_ORIGIN_SEC_HI, 15, 0⟩
def GLB_PERIOD_POS_LO_phase_ns : Fld := ⟨R.GLB_PERIOD_POS_LO, 16, 0⟩
def GLB_PERIOD_POS_HI_period_num : Fld := ⟨R.GLB_PERIOD_POS_HI, 31, 0⟩
def GLB_MS_GATHER_worst : Fld := ⟨R.GLB_MS_GATHER, 31, 16⟩
def GLB_MS_GATHER_last : Fld := ⟨R.GLB_MS_GATHER, 15, 0⟩
def GLB_MS_PLAN_worst : Fld := ⟨R.GLB_MS_PLAN, 31, 16⟩
def GLB_MS_PLAN_last : Fld := ⟨R.GLB_MS_PLAN, 15, 0⟩
def GLB_TIMING_STAT_late_lane : Fld := ⟨R.GLB_TIMING_STAT, 13, 8⟩
def GLB_TIMING_STAT_plan_late : Fld := ⟨R.GLB_TIMING_STAT, 1, 1⟩
def GLB_TIMING_STAT_gather_late : Fld := ⟨R.GLB_TIMING_STAT, 0, 0⟩
def GLB_LATE_CNT_plan_late_cnt : Fld := ⟨R.GLB_LATE_CNT, 31, 16⟩
def GLB_LATE_CNT_gather_late_cnt : Fld := ⟨R.GLB_LATE_CNT, 15, 0⟩
def GLB_LANE_MAP_topology (i : Nat) : Fld := ⟨R.GLB_LANE_MAP i, 25, 24⟩
def GLB_LANE_MAP_count (i : Nat) : Fld := ⟨R.GLB_LANE_MAP i, 22, 16⟩
def GLB_LANE_MAP_split (i : Nat) : Fld := ⟨R.GLB_LANE_MAP i, 14, 8⟩
def GLB_LANE_MAP_arm_hi (i : Nat) : Fld := ⟨R.GLB_LANE_MAP i, 7, 4⟩
def GLB_LANE_MAP_arm_lo (i : Nat) : Fld := ⟨R.GLB_LANE_MAP i, 3, 0⟩
def GLB_ARM_CFG_arm_enable (i : Nat) : Fld := ⟨R.GLB_ARM_CFG i, 31, 31⟩
def GLB_ARM_CFG_n_required (i : Nat) : Fld := ⟨R.GLB_ARM_CFG i, 25, 16⟩
def GLB_ARM_STAT_n_available (i : Nat) : Fld := ⟨R.GLB_ARM_STAT i, 25, 16⟩
def GLB_ARM_STAT_n_installed (i : Nat) : Fld := ⟨R.GLB_ARM_STAT i, 9, 0⟩
def GLB_MAP_STAT_map_valid : Fld := ⟨R.GLB_MAP_STAT, 31, 31⟩
def GLB_MAP_STAT_err_code : Fld := ⟨R.GLB_MAP_STAT, 23, 16⟩
def GLB_MAP_STAT_err_lane : Fld := ⟨R.GLB_MAP_STAT, 13, 8⟩
def GLB_MAP_STAT_err_arm : Fld := ⟨R.GLB_MAP_STAT, 3, 0⟩
def GLB_MODE_ret_valid : Fld := ⟨R.GLB_MODE, 18, 18⟩
def GLB_MODE_req_pending : Fld := ⟨R.GLB_MODE, 16, 16⟩
def GLB_MODE_pend_target : Fld := ⟨R.GLB_MODE, 15, 12⟩
def GLB_MODE_origin : Fld := ⟨R.GLB_MODE, 11, 8⟩
def GLB_MODE_charge_ok : Fld := ⟨R.GLB_MODE, 7, 7⟩
def GLB_MODE_muster_done : Fld := ⟨R.GLB_MODE, 6, 6⟩
def GLB_MODE_lockout : Fld := ⟨R.GLB_MODE, 5, 5⟩
def GLB_MODE_fatal : Fld := ⟨R.GLB_MODE, 4, 4⟩
def GLB_MODE_mode : Fld := ⟨R.GLB_MODE, 3, 0⟩
def GLB_MODE_REQ_target : Fld := ⟨R.GLB_MODE_REQ, 3, 0⟩
def GLB_MODE_LOG_refuse_reason : Fld := ⟨R.GLB_MODE_LOG, 27, 20⟩
def GLB_MODE_LOG_refused_target : Fld := ⟨R.GLB_MODE_LOG, 19, 16⟩
def GLB_MODE_LOG_cause : Fld := ⟨R.GLB_MODE_LOG, 15, 8⟩
def GLB_MODE_LOG_last_to : Fld := ⟨R.GLB_MODE_LOG, 7, 4⟩
def GLB_MODE_LOG_last_from : Fld := ⟨R.GLB_MODE_LOG, 3, 0⟩
def GLB_PRECHARGE_CFG_vc_ready : Fld := ⟨R.GLB_PRECHARGE_CFG, 31, 16⟩
def GLB_PRECHARGE_CFG_vc_hold : Fld := ⟨R.GLB_PRECHARGE_CFG, 15, 0⟩
def GLB_BOOT_STAT_sel_reserved : Fld := ⟨R.GLB_BOOT_STAT, 16, 16⟩
def GLB_BOOT_STAT_boot_sel : Fld := ⟨R.GLB_BOOT_STAT, 15, 14⟩
def GLB_BOOT_STAT_source : Fld := ⟨R.GLB_BOOT_STAT, 13, 12⟩
def GLB_BOOT_STAT_verified : Fld := ⟨R.GLB_BOOT_STAT, 11, 11⟩
def GLB_BOOT_STAT_busy : Fld := ⟨R.GLB_BOOT_STAT, 10, 10⟩
def GLB_BOOT_STAT_done : Fld := ⟨R.GLB_BOOT_STAT, 9, 9⟩
def GLB_BOOT_STAT_boot_err : Fld := ⟨R.GLB_BOOT_STAT, 7, 0⟩
def GLB_BOOT_CTL_go : Fld := ⟨R.GLB_BOOT_CTL, 0, 0⟩
def GLB_BOOT_LEN_len : Fld := ⟨R.GLB_BOOT_LEN, 23, 0⟩
def GLB_IMAGE_VER_image_version : Fld := ⟨R.GLB_IMAGE_VER, 31, 0⟩
def GLB_DIAG_CTL_seq_run : Fld := ⟨R.GLB_DIAG_CTL, 0, 0⟩
def NCL_LCTL_bale_sel (i : Nat) : Fld := ⟨R.NCL_LCTL i, 7, 0⟩
def NCL_LSTAT_path_mode (i : Nat) : Fld := ⟨R.NCL_LSTAT i, 31, 30⟩
def NCL_LSTAT_break_pos (i : Nat) : Fld := ⟨R.NCL_LSTAT i, 29, 23⟩
def NCL_LSTAT_cells_found (i : Nat) : Fld := ⟨R.NCL_LSTAT i, 22, 16⟩
def NCL_LSTAT_cells_compat (i : Nat) : Fld := ⟨R.NCL_LSTAT i, 15, 9⟩
def NCL_LSTAT_disc_step (i : Nat) : Fld := ⟨R.NCL_LSTAT i, 8, 5⟩
def NCL_LSTAT_bale_err (i : Nat) : Fld := ⟨R.NCL_LSTAT i, 4, 4⟩
def NCL_LSTAT_delay_valid (i : Nat) : Fld := ⟨R.NCL_LSTAT i, 3, 3⟩
def NCL_LSTAT_seq_err (i : Nat) : Fld := ⟨R.NCL_LSTAT i, 2, 2⟩
def NCL_LSTAT_seg_mismatch (i : Nat) : Fld := ⟨R.NCL_LSTAT i, 1, 1⟩
def NCL_LSTAT_echo_spread (i : Nat) : Fld := ⟨R.NCL_LSTAT i, 0, 0⟩
def NCL_ERRCNT_frame_crc_err (i : Nat) : Fld := ⟨R.NCL_ERRCNT i, 31, 16⟩
def NCL_ERRCNT_slot_crc_err (i : Nat) : Fld := ⟨R.NCL_ERRCNT i, 15, 0⟩
def NCL_PATH_D_d (i : Nat) : Fld := ⟨R.NCL_PATH_D i, 19, 0⟩
def NCL_PATH_R_rsum (i : Nat) : Fld := ⟨R.NCL_PATH_R i, 19, 0⟩
def NCL_SEG_seg_delay (i j : Nat) : Fld := ⟨R.NCL_SEG i j, 15, 0⟩
def NCL_ASSIGN_valid (i j : Nat) : Fld := ⟨R.NCL_ASSIGN i j, 31, 31⟩
def NCL_ASSIGN_u (i j : Nat) : Fld := ⟨R.NCL_ASSIGN i j, 19, 0⟩
def NCL_ASSIGN_W_valid (i j : Nat) : Fld := ⟨R.NCL_ASSIGN_W i j, 31, 31⟩
def NCL_ASSIGN_W_u (i j : Nat) : Fld := ⟨R.NCL_ASSIGN_W i j, 19, 0⟩
def NCL_GCFG_side : Fld := ⟨R.NCL_GCFG, 8, 8⟩
def NCL_GCFG_hold_periods : Fld := ⟨R.NCL_GCFG, 3, 0⟩
def NCL_CELL_LIMIT_max_min_insert : Fld := ⟨R.NCL_CELL_LIMIT, 31, 16⟩
def NCL_CELL_LIMIT_max_min_bypass : Fld := ⟨R.NCL_CELL_LIMIT, 15, 0⟩
def LPHY_STAT_attempts (i : Nat) : Fld := ⟨R.LPHY_STAT i, 31, 24⟩
def LPHY_STAT_rx_signal (i : Nat) : Fld := ⟨R.LPHY_STAT i, 13, 13⟩
def LPHY_STAT_chk_lock (i : Nat) : Fld := ⟨R.LPHY_STAT i, 12, 12⟩
def LPHY_STAT_dead (i : Nat) : Fld := ⟨R.LPHY_STAT i, 11, 11⟩
def LPHY_STAT_miswire (i : Nat) : Fld := ⟨R.LPHY_STAT i, 10, 10⟩
def LPHY_STAT_lock_lost (i : Nat) : Fld := ⟨R.LPHY_STAT i, 9, 9⟩
def LPHY_STAT_fom_limit (i : Nat) : Fld := ⟨R.LPHY_STAT i, 8, 8⟩
def LPHY_STAT_frozen (i : Nat) : Fld := ⟨R.LPHY_STAT i, 4, 4⟩
def LPHY_STAT_block_lock (i : Nat) : Fld := ⟨R.LPHY_STAT i, 3, 3⟩
def LPHY_STAT_state (i : Nat) : Fld := ⟨R.LPHY_STAT i, 2, 0⟩
def LPHY_FOM_phase_now (i : Nat) : Fld := ⟨R.LPHY_FOM i, 29, 24⟩
def LPHY_FOM_off_now (i : Nat) : Fld := ⟨R.LPHY_FOM i, 21, 16⟩
def LPHY_FOM_eye_h (i : Nat) : Fld := ⟨R.LPHY_FOM i, 14, 8⟩
def LPHY_FOM_eye_v (i : Nat) : Fld := ⟨R.LPHY_FOM i, 7, 0⟩
def LPHY_ERRCNT_bad_block (i : Nat) : Fld := ⟨R.LPHY_ERRCNT i, 31, 16⟩
def LPHY_ERRCNT_bad_sync (i : Nat) : Fld := ⟨R.LPHY_ERRCNT i, 15, 0⟩
def LPHY_RMCNT_idle_del (i : Nat) : Fld := ⟨R.LPHY_RMCNT i, 31, 16⟩
def LPHY_RMCNT_idle_ins (i : Nat) : Fld := ⟨R.LPHY_RMCNT i, 15, 0⟩
def LPHY_EQ_TX_tx_post (i : Nat) : Fld := ⟨R.LPHY_EQ_TX i, 20, 16⟩
def LPHY_EQ_TX_tx_main (i : Nat) : Fld := ⟨R.LPHY_EQ_TX i, 13, 8⟩
def LPHY_EQ_TX_tx_pre (i : Nat) : Fld := ⟨R.LPHY_EQ_TX i, 3, 0⟩
def LPHY_EQ_RX_rx_phase (i : Nat) : Fld := ⟨R.LPHY_EQ_RX i, 21, 16⟩
def LPHY_EQ_RX_rx_offset (i : Nat) : Fld := ⟨R.LPHY_EQ_RX i, 13, 8⟩
def LPHY_EQ_RX_rx_ctle (i : Nat) : Fld := ⟨R.LPHY_EQ_RX i, 3, 0⟩
def LPHY_DIAG_inj_coded (i : Nat) : Fld := ⟨R.LPHY_DIAG i, 24, 24⟩
def LPHY_DIAG_burst_len (i : Nat) : Fld := ⟨R.LPHY_DIAG i, 22, 16⟩
def LPHY_DIAG_inj_burst (i : Nat) : Fld := ⟨R.LPHY_DIAG i, 13, 13⟩
def LPHY_DIAG_inj_single (i : Nat) : Fld := ⟨R.LPHY_DIAG i, 12, 12⟩
def LPHY_DIAG_chk_en (i : Nat) : Fld := ⟨R.LPHY_DIAG i, 8, 8⟩
def LPHY_DIAG_pat_sel (i : Nat) : Fld := ⟨R.LPHY_DIAG i, 6, 4⟩
def LPHY_DIAG_diag_mode (i : Nat) : Fld := ⟨R.LPHY_DIAG i, 2, 0⟩
def LPHY_PAT_USER_LO_pattern (i : Nat) : Fld := ⟨R.LPHY_PAT_USER_LO i, 31, 0⟩
def LPHY_PAT_USER_HI_pattern (i : Nat) : Fld := ⟨R.LPHY_PAT_USER_HI i, 31, 0⟩
def LPHY_CHK_ERR_chk_err (i : Nat) : Fld := ⟨R.LPHY_CHK_ERR i, 31, 0⟩
def LPHY_CHK_BITS_LO_chk_bits (i : Nat) : Fld := ⟨R.LPHY_CHK_BITS_LO i, 31, 0⟩
def LPHY_CHK_BITS_HI_chk_bits (i : Nat) : Fld := ⟨R.LPHY_CHK_BITS_HI i, 31, 0⟩
def LPHY_TRAIN_CFG_hello_attempts : Fld := ⟨R.LPHY_TRAIN_CFG, 7, 0⟩
def LPHY_EQ_ID_table_id : Fld := ⟨R.LPHY_EQ_ID, 31, 0⟩
def LPHY_MIR_STAT_skew : Fld := ⟨R.LPHY_MIR_STAT, 15, 8⟩
def LPHY_MIR_STAT_bond_lost : Fld := ⟨R.LPHY_MIR_STAT, 3, 3⟩
def LPHY_MIR_STAT_skew_err : Fld := ⟨R.LPHY_MIR_STAT, 2, 2⟩
def LPHY_MIR_STAT_swapped : Fld := ⟨R.LPHY_MIR_STAT, 1, 1⟩
def LPHY_MIR_STAT_bonded : Fld := ⟨R.LPHY_MIR_STAT, 0, 0⟩
def WIN_CFG_tally_keep : Fld := ⟨R.WIN_CFG, 8, 8⟩
def WIN_CFG_stale_limit : Fld := ⟨R.WIN_CFG, 3, 0⟩
def WIN_TALLY_CFG_tally_en : Fld := ⟨R.WIN_TALLY_CFG, 31, 31⟩
def WIN_TALLY_CFG_tally_shift : Fld := ⟨R.WIN_TALLY_CFG, 27, 24⟩
def WIN_TALLY_CFG_tally_block : Fld := ⟨R.WIN_TALLY_CFG, 23, 16⟩
def WIN_TALLY_CFG_tally_min : Fld := ⟨R.WIN_TALLY_CFG, 15, 0⟩
def WIN_DRIFT_drift_pct : Fld := ⟨R.WIN_DRIFT, 7, 0⟩
def WIN_SEL_BASE_base : Fld := ⟨R.WIN_SEL_BASE, 25, 12⟩
def WIN_SEL_BASE_sel_en : Fld := ⟨R.WIN_SEL_BASE, 0, 0⟩
def WIN_RANK_BASE_base : Fld := ⟨R.WIN_RANK_BASE, 25, 14⟩
def WIN_ARM_CFG_full_rank (i : Nat) : Fld := ⟨R.WIN_ARM_CFG i, 31, 31⟩
def WIN_ARM_CFG_warn_margin (i : Nat) : Fld := ⟨R.WIN_ARM_CFG i, 25, 16⟩
def WIN_ARM_CFG_reserve (i : Nat) : Fld := ⟨R.WIN_ARM_CFG i, 11, 8⟩
def WIN_ARM_CFG_unit (i : Nat) : Fld := ⟨R.WIN_ARM_CFG i, 2, 0⟩
def WIN_ARM_PEN_th_code (i : Nat) : Fld := ⟨R.WIN_ARM_PEN i, 31, 24⟩
def WIN_ARM_PEN_k_th (i : Nat) : Fld := ⟨R.WIN_ARM_PEN i, 23, 16⟩
def WIN_ARM_PEN_p_sw (i : Nat) : Fld := ⟨R.WIN_ARM_PEN i, 15, 0⟩
def WIN_ARM_STAT_rank_seq (i : Nat) : Fld := ⟨R.WIN_ARM_STAT i, 31, 16⟩
def WIN_ARM_STAT_n_pinned (i : Nat) : Fld := ⟨R.WIN_ARM_STAT i, 9, 0⟩
def WIN_ARM_CNT_n_unreachable (i : Nat) : Fld := ⟨R.WIN_ARM_CNT i, 29, 20⟩
def WIN_ARM_CNT_n_faulted (i : Nat) : Fld := ⟨R.WIN_ARM_CNT i, 19, 10⟩
def WIN_ARM_CNT_n_bypassed (i : Nat) : Fld := ⟨R.WIN_ARM_CNT i, 9, 0⟩
def WIN_ARM_FLAGS_unit_used (i : Nat) : Fld := ⟨R.WIN_ARM_FLAGS i, 18, 16⟩
def WIN_ARM_FLAGS_bad_reason (i : Nat) : Fld := ⟨R.WIN_ARM_FLAGS i, 15, 8⟩
def WIN_ARM_FLAGS_margin (i : Nat) : Fld := ⟨R.WIN_ARM_FLAGS i, 6, 6⟩
def WIN_ARM_FLAGS_trim_drop (i : Nat) : Fld := ⟨R.WIN_ARM_FLAGS i, 5, 5⟩
def WIN_ARM_FLAGS_req_missing (i : Nat) : Fld := ⟨R.WIN_ARM_FLAGS i, 4, 4⟩
def WIN_ARM_FLAGS_req_stale (i : Nat) : Fld := ⟨R.WIN_ARM_FLAGS i, 3, 3⟩
def WIN_ARM_FLAGS_req_dup (i : Nat) : Fld := ⟨R.WIN_ARM_FLAGS i, 2, 2⟩
def WIN_ARM_FLAGS_req_bad (i : Nat) : Fld := ⟨R.WIN_ARM_FLAGS i, 1, 1⟩
def WIN_ARM_FLAGS_level_clamp (i : Nat) : Fld := ⟨R.WIN_ARM_FLAGS i, 0, 0⟩
def WIN_UNIT_STAT_worst (i : Nat) : Fld := ⟨R.WIN_UNIT_STAT i, 31, 16⟩
def WIN_UNIT_STAT_last (i : Nat) : Fld := ⟨R.WIN_UNIT_STAT i, 15, 0⟩
def WIN_CELL_TALLY_valid (i : Nat) : Fld := ⟨R.WIN_CELL_TALLY i, 31, 31⟩
def WIN_CELL_TALLY_cgain (i : Nat) : Fld := ⟨R.WIN_CELL_TALLY i, 23, 0⟩
def WIN_CELL_STAT_present (i : Nat) : Fld := ⟨R.WIN_CELL_STAT i, 11, 10⟩
def WIN_CELL_STAT_release (i : Nat) : Fld := ⟨R.WIN_CELL_STAT i, 9, 9⟩
def WIN_CELL_STAT_retire (i : Nat) : Fld := ⟨R.WIN_CELL_STAT i, 8, 8⟩
def WIN_CELL_STAT_stale_cnt (i : Nat) : Fld := ⟨R.WIN_CELL_STAT i, 7, 4⟩
def WIN_CELL_STAT_code (i : Nat) : Fld := ⟨R.WIN_CELL_STAT i, 3, 0⟩
def EDG_CFG_trim_policy : Fld := ⟨R.EDG_CFG, 0, 0⟩
def EDG_OC_CFG_oc_limit : Fld := ⟨R.EDG_OC_CFG, 7, 0⟩
def EDG_ARM_STAT_trim_stretch (i : Nat) : Fld := ⟨R.EDG_ARM_STAT i, 31, 24⟩
def EDG_ARM_STAT_trim_pulse_drop (i : Nat) : Fld := ⟨R.EDG_ARM_STAT i, 23, 16⟩
def EDG_ARM_STAT_miss_cnt (i : Nat) : Fld := ⟨R.EDG_ARM_STAT i, 15, 8⟩
def EDG_ARM_STAT_slip_cnt (i : Nat) : Fld := ⟨R.EDG_ARM_STAT i, 7, 0⟩
def EDG_ARM_FLAGS_level_miss (i : Nat) : Fld := ⟨R.EDG_ARM_FLAGS i, 1, 1⟩
def EDG_ARM_FLAGS_slip (i : Nat) : Fld := ⟨R.EDG_ARM_FLAGS i, 0, 0⟩
def EDG_PWM_CTL_mask_en (i : Nat) : Fld := ⟨R.EDG_PWM_CTL i, 31, 24⟩
def EDG_PWM_CTL_ref_ch (i : Nat) : Fld := ⟨R.EDG_PWM_CTL i, 23, 20⟩
def EDG_PWM_CTL_byp_src (i : Nat) : Fld := ⟨R.EDG_PWM_CTL i, 19, 19⟩
def EDG_PWM_CTL_force (i : Nat) : Fld := ⟨R.EDG_PWM_CTL i, 17, 16⟩
def EDG_PWM_CTL_sync_src (i : Nat) : Fld := ⟨R.EDG_PWM_CTL i, 13, 12⟩
def EDG_PWM_CTL_policy (i : Nat) : Fld := ⟨R.EDG_PWM_CTL i, 8, 8⟩
def EDG_PWM_CTL_upd_mode (i : Nat) : Fld := ⟨R.EDG_PWM_CTL i, 4, 4⟩
def EDG_PWM_CTL_pair_en (i : Nat) : Fld := ⟨R.EDG_PWM_CTL i, 3, 3⟩
def EDG_PWM_CTL_pol (i : Nat) : Fld := ⟨R.EDG_PWM_CTL i, 2, 2⟩
def EDG_PWM_CTL_out_en (i : Nat) : Fld := ⟨R.EDG_PWM_CTL i, 1, 1⟩
def EDG_PWM_CTL_run (i : Nat) : Fld := ⟨R.EDG_PWM_CTL i, 0, 0⟩
def EDG_PWM_PER_per (i : Nat) : Fld := ⟨R.EDG_PWM_PER i, 23, 0⟩
def EDG_PWM_ON_cycle (i : Nat) : Fld := ⟨R.EDG_PWM_ON i, 28, 5⟩
def EDG_PWM_ON_fine (i : Nat) : Fld := ⟨R.EDG_PWM_ON i, 4, 0⟩
def EDG_PWM_OFF_cycle (i : Nat) : Fld := ⟨R.EDG_PWM_OFF i, 28, 5⟩
def EDG_PWM_OFF_fine (i : Nat) : Fld := ⟨R.EDG_PWM_OFF i, 4, 0⟩
def EDG_PWM_DT_min_pulse (i : Nat) : Fld := ⟨R.EDG_PWM_DT i, 31, 16⟩
def EDG_PWM_DT_dead (i : Nat) : Fld := ⟨R.EDG_PWM_DT i, 15, 0⟩
def EDG_PWM_PHASE_phase (i : Nat) : Fld := ⟨R.EDG_PWM_PHASE i, 23, 0⟩
def EDG_PWM_STAT_pulse_drop (i : Nat) : Fld := ⟨R.EDG_PWM_STAT i, 31, 16⟩
def EDG_PWM_STAT_masked (i : Nat) : Fld := ⟨R.EDG_PWM_STAT i, 3, 3⟩
def EDG_PWM_STAT_flt_held (i : Nat) : Fld := ⟨R.EDG_PWM_STAT i, 2, 2⟩
def EDG_PWM_STAT_commit_pend (i : Nat) : Fld := ⟨R.EDG_PWM_STAT i, 1, 1⟩
def EDG_PWM_STAT_level (i : Nat) : Fld := ⟨R.EDG_PWM_STAT i, 0, 0⟩
def EDG_PWM_COMMIT_commit : Fld := ⟨R.EDG_PWM_COMMIT, 15, 0⟩
def EDG_FLT_CFG_flt_limit (i : Nat) : Fld := ⟨R.EDG_FLT_CFG i, 31, 24⟩
def EDG_FLT_CFG_ch_mask_hi (i : Nat) : Fld := ⟨R.EDG_FLT_CFG i, 23, 16⟩
def EDG_FLT_CFG_filt_len (i : Nat) : Fld := ⟨R.EDG_FLT_CFG i, 15, 8⟩
def EDG_FLT_CFG_blank_ch (i : Nat) : Fld := ⟨R.EDG_FLT_CFG i, 7, 4⟩
def EDG_FLT_CFG_flt_action (i : Nat) : Fld := ⟨R.EDG_FLT_CFG i, 3, 2⟩
def EDG_FLT_CFG_flt_mode (i : Nat) : Fld := ⟨R.EDG_FLT_CFG i, 1, 0⟩
def EDG_FLT_STAT_clr (i : Nat) : Fld := ⟨R.EDG_FLT_STAT i, 31, 31⟩
def EDG_FLT_STAT_ch_mask_lo (i : Nat) : Fld := ⟨R.EDG_FLT_STAT i, 23, 16⟩
def EDG_FLT_STAT_tally (i : Nat) : Fld := ⟨R.EDG_FLT_STAT i, 15, 8⟩
def EDG_FLT_STAT_escalated (i : Nat) : Fld := ⟨R.EDG_FLT_STAT i, 2, 2⟩
def EDG_FLT_STAT_held (i : Nat) : Fld := ⟨R.EDG_FLT_STAT i, 1, 1⟩
def EDG_FLT_STAT_pin (i : Nat) : Fld := ⟨R.EDG_FLT_STAT i, 0, 0⟩
def EDG_ZC_zc_len (i : Nat) : Fld := ⟨R.EDG_ZC i, 31, 16⟩
def EDG_ZC_zc_hyst (i : Nat) : Fld := ⟨R.EDG_ZC i, 15, 8⟩
def EDG_ZC_ain (i : Nat) : Fld := ⟨R.EDG_ZC i, 4, 0⟩
def EDG_MASK_LEN_tripb_len : Fld := ⟨R.EDG_MASK_LEN, 31, 16⟩
def EDG_MASK_LEN_byp_len : Fld := ⟨R.EDG_MASK_LEN, 15, 0⟩
def EDG_MASK_SW_sw : Fld := ⟨R.EDG_MASK_SW, 3, 0⟩
def EDG_DL_STAT_range_err : Fld := ⟨R.EDG_DL_STAT, 31, 31⟩
def EDG_DL_STAT_code : Fld := ⟨R.EDG_DL_STAT, 30, 24⟩
def EDG_DL_STAT_cal_count : Fld := ⟨R.EDG_DL_STAT, 23, 8⟩
def EDG_DL_STAT_cal_age : Fld := ⟨R.EDG_DL_STAT, 7, 0⟩
def EDG_SYNC_CFG_sync_out_en : Fld := ⟨R.EDG_SYNC_CFG, 31, 31⟩
def EDG_SYNC_CFG_sync_in_en : Fld := ⟨R.EDG_SYNC_CFG, 30, 30⟩
def EDG_SYNC_CFG_sync_width : Fld := ⟨R.EDG_SYNC_CFG, 25, 16⟩
def EDG_SYNC_CFG_sync_out_dly : Fld := ⟨R.EDG_SYNC_CFG, 15, 0⟩
def EDG_SYNC_CAP_sync_lost : Fld := ⟨R.EDG_SYNC_CAP, 31, 31⟩
def EDG_SYNC_CAP_offset : Fld := ⟨R.EDG_SYNC_CAP, 30, 0⟩
def EDG_CELL_OC_clr (i : Nat) : Fld := ⟨R.EDG_CELL_OC i, 31, 31⟩
def EDG_CELL_OC_latched (i : Nat) : Fld := ⟨R.EDG_CELL_OC i, 8, 8⟩
def EDG_CELL_OC_tally (i : Nat) : Fld := ⟨R.EDG_CELL_OC i, 7, 0⟩
def ENG_STAT_fault_pc (i : Nat) : Fld := ⟨R.ENG_STAT i, 29, 16⟩
def ENG_STAT_fault_code (i : Nat) : Fld := ⟨R.ENG_STAT i, 15, 8⟩
def ENG_STAT_state (i : Nat) : Fld := ⟨R.ENG_STAT i, 2, 0⟩
def ENG_TASK_pc (i : Nat) : Fld := ⟨R.ENG_TASK i, 29, 16⟩
def ENG_TASK_tc (i : Nat) : Fld := ⟨R.ENG_TASK i, 7, 0⟩
def ENG_PM_ADDR_addr (i : Nat) : Fld := ⟨R.ENG_PM_ADDR i, 13, 0⟩
def ENG_PM_DATA_instr (i : Nat) : Fld := ⟨R.ENG_PM_DATA i, 31, 0⟩
def ENG_DM_ADDR_auto_inc (i : Nat) : Fld := ⟨R.ENG_DM_ADDR i, 31, 31⟩
def ENG_DM_ADDR_addr (i : Nat) : Fld := ⟨R.ENG_DM_ADDR i, 14, 2⟩
def ENG_DM_DATA_data (i : Nat) : Fld := ⟨R.ENG_DM_DATA i, 31, 0⟩
def ENG_COEF_WIN_limit (i : Nat) : Fld := ⟨R.ENG_COEF_WIN i, 31, 16⟩
def ENG_COEF_WIN_base (i : Nat) : Fld := ⟨R.ENG_COEF_WIN i, 14, 2⟩
def ENG_COEF_GEN_open (i : Nat) : Fld := ⟨R.ENG_COEF_GEN i, 31, 31⟩
def ENG_COEF_GEN_close (i : Nat) : Fld := ⟨R.ENG_COEF_GEN i, 30, 30⟩
def ENG_COEF_GEN_is_open (i : Nat) : Fld := ⟨R.ENG_COEF_GEN i, 29, 29⟩
def ENG_COEF_GEN_stray (i : Nat) : Fld := ⟨R.ENG_COEF_GEN i, 28, 28⟩
def ENG_COEF_GEN_gen (i : Nat) : Fld := ⟨R.ENG_COEF_GEN i, 15, 0⟩
def ENG_TBL_uns (i j : Nat) : Fld := ⟨R.ENG_TBL i j, 31, 31⟩
def ENG_TBL_k (i j : Nat) : Fld := ⟨R.ENG_TBL i j, 19, 16⟩
def ENG_TBL_base (i j : Nat) : Fld := ⟨R.ENG_TBL i j, 14, 1⟩
def ENG_ARITH_sat_cnt (i : Nat) : Fld := ⟨R.ENG_ARITH i, 31, 16⟩
def ENG_ARITH_aov_cnt (i : Nat) : Fld := ⟨R.ENG_ARITH i, 15, 0⟩
def ENG_ECC_pm_corr (i : Nat) : Fld := ⟨R.ENG_ECC i, 31, 16⟩
def ENG_ECC_dm_corr (i : Nat) : Fld := ⟨R.ENG_ECC i, 15, 0⟩
def ENG_INJ_CTL_once (i : Nat) : Fld := ⟨R.ENG_INJ_CTL i, 16, 16⟩
def ENG_INJ_CTL_div (i : Nat) : Fld := ⟨R.ENG_INJ_CTL i, 15, 8⟩
def ENG_INJ_CTL_node (i : Nat) : Fld := ⟨R.ENG_INJ_CTL i, 7, 4⟩
def ENG_INJ_CTL_kind (i : Nat) : Fld := ⟨R.ENG_INJ_CTL i, 2, 1⟩
def ENG_INJ_CTL_inj_en (i : Nat) : Fld := ⟨R.ENG_INJ_CTL i, 0, 0⟩
def ENG_INJ_AMP_amp (i : Nat) : Fld := ⟨R.ENG_INJ_AMP i, 15, 0⟩
def ENG_INJ_PRBS_hold (i : Nat) : Fld := ⟨R.ENG_INJ_PRBS i, 15, 8⟩
def ENG_INJ_PRBS_poly (i : Nat) : Fld := ⟨R.ENG_INJ_PRBS i, 1, 0⟩
def ENG_INJ_F0_f0 (i : Nat) : Fld := ⟨R.ENG_INJ_F0 i, 31, 0⟩
def ENG_INJ_DF_df (i : Nat) : Fld := ⟨R.ENG_INJ_DF i, 31, 0⟩
def ENG_INJ_LEN_len (i : Nat) : Fld := ⟨R.ENG_INJ_LEN i, 23, 0⟩
def ENG_INJ_STAT_sample (i : Nat) : Fld := ⟨R.ENG_INJ_STAT i, 31, 16⟩
def ENG_INJ_STAT_inj_sat (i : Nat) : Fld := ⟨R.ENG_INJ_STAT i, 2, 2⟩
def ENG_INJ_STAT_done (i : Nat) : Fld := ⟨R.ENG_INJ_STAT i, 1, 1⟩
def ENG_INJ_STAT_running (i : Nat) : Fld := ⟨R.ENG_INJ_STAT i, 0, 0⟩
def ENG_CAP_BASE_base (i : Nat) : Fld := ⟨R.ENG_CAP_BASE i, 25, 3⟩
def ENG_CAP_CTL_log2_len (i : Nat) : Fld := ⟨R.ENG_CAP_CTL i, 20, 16⟩
def ENG_CAP_CTL_wrap (i : Nat) : Fld := ⟨R.ENG_CAP_CTL i, 1, 1⟩
def ENG_CAP_CTL_cap_en (i : Nat) : Fld := ⟨R.ENG_CAP_CTL i, 0, 0⟩
def ENG_CAP_IDX_full (i : Nat) : Fld := ⟨R.ENG_CAP_IDX i, 31, 31⟩
def ENG_CAP_IDX_idx (i : Nat) : Fld := ⟨R.ENG_CAP_IDX i, 19, 0⟩
def ENG_TONE_F_incr (i j : Nat) : Fld := ⟨R.ENG_TONE_F i j, 31, 0⟩
def ENG_TONE_A_phase0 (i j : Nat) : Fld := ⟨R.ENG_TONE_A i j, 31, 16⟩
def ENG_TONE_A_amp (i j : Nat) : Fld := ⟨R.ENG_TONE_A i j, 15, 0⟩
def SCH_CFG_n_overrun : Fld := ⟨R.SCH_CFG, 3, 0⟩
def SCH_STAT_ovr_limit : Fld := ⟨R.SCH_STAT, 21, 21⟩
def SCH_STAT_ovr_run : Fld := ⟨R.SCH_STAT, 20, 16⟩
def SCH_STAT_tick : Fld := ⟨R.SCH_STAT, 5, 0⟩
def SCH_OVR_CNT_ovr_periods : Fld := ⟨R.SCH_OVR_CNT, 15, 0⟩
def SCH_EVT_RAISE_evt : Fld := ⟨R.SCH_EVT_RAISE, 7, 0⟩
def SCH_FATAL_fatal_limit : Fld := ⟨R.SCH_FATAL, 31, 24⟩
def SCH_FATAL_fatal_state : Fld := ⟨R.SCH_FATAL, 2, 0⟩
def SCH_ENG_CFG_log2_len (i : Nat) : Fld := ⟨R.SCH_ENG_CFG i, 20, 16⟩
def SCH_ENG_CFG_obs_mode (i : Nat) : Fld := ⟨R.SCH_ENG_CFG i, 9, 8⟩
def SCH_ENG_CFG_idle_tc (i : Nat) : Fld := ⟨R.SCH_ENG_CFG i, 7, 0⟩
def SCH_TRACE_BASE_base (i : Nat) : Fld := ⟨R.SCH_TRACE_BASE i, 25, 4⟩
def SCH_TRACE_IDX_drop (i : Nat) : Fld := ⟨R.SCH_TRACE_IDX i, 31, 16⟩
def SCH_TRACE_IDX_idx (i : Nat) : Fld := ⟨R.SCH_TRACE_IDX i, 15, 0⟩
def SCH_LOAD_worst (i : Nat) : Fld := ⟨R.SCH_LOAD i, 31, 16⟩
def SCH_LOAD_last (i : Nat) : Fld := ⟨R.SCH_LOAD i, 15, 0⟩
def SCH_DEPTH_worst (i : Nat) : Fld := ⟨R.SCH_DEPTH i, 31, 16⟩
def SCH_DEPTH_last (i : Nat) : Fld := ⟨R.SCH_DEPTH i, 15, 0⟩
def SCH_HIST_count (i j : Nat) : Fld := ⟨R.SCH_HIST i j, 31, 0⟩
def SCH_TC_CFG_en (i : Nat) : Fld := ⟨R.SCH_TC_CFG i, 31, 31⟩
def SCH_TC_CFG_crit (i : Nat) : Fld := ⟨R.SCH_TC_CFG i, 30, 30⟩
def SCH_TC_CFG_prio (i : Nat) : Fld := ⟨R.SCH_TC_CFG i, 26, 24⟩
def SCH_TC_CFG_kind (i : Nat) : Fld := ⟨R.SCH_TC_CFG i, 21, 20⟩
def SCH_TC_CFG_evt (i : Nat) : Fld := ⟨R.SCH_TC_CFG i, 7, 0⟩
def SCH_TC_REL_div (i : Nat) : Fld := ⟨R.SCH_TC_REL i, 31, 24⟩
def SCH_TC_REL_phase (i : Nat) : Fld := ⟨R.SCH_TC_REL i, 23, 16⟩
def SCH_TC_REL_delay (i : Nat) : Fld := ⟨R.SCH_TC_REL i, 11, 0⟩
def SCH_TC_ENTRY_entry (i : Nat) : Fld := ⟨R.SCH_TC_ENTRY i, 13, 0⟩
def SCH_TC_ARG_arg (i : Nat) : Fld := ⟨R.SCH_TC_ARG i, 25, 0⟩
def SCH_TC_STAT_ovr_cnt (i : Nat) : Fld := ⟨R.SCH_TC_STAT i, 31, 16⟩
def SCH_TC_STAT_overrun (i : Nat) : Fld := ⟨R.SCH_TC_STAT i, 4, 4⟩
def SCH_TC_STAT_state (i : Nat) : Fld := ⟨R.SCH_TC_STAT i, 2, 0⟩
def SCH_CTX_image (i j : Nat) : Fld := ⟨R.SCH_CTX i j, 31, 0⟩
def ADC_CFG_align : Fld := ⟨R.ADC_CFG, 1, 1⟩
def ADC_CFG_seq_mode : Fld := ⟨R.ADC_CFG, 0, 0⟩
def ADC_CAL_cal_en : Fld := ⟨R.ADC_CAL, 8, 8⟩
def ADC_CAL_cal_interval : Fld := ⟨R.ADC_CAL, 7, 0⟩
def ADC_STAT_cal_count : Fld := ⟨R.ADC_STAT, 31, 16⟩
def ADC_STAT_cal_err : Fld := ⟨R.ADC_STAT, 3, 3⟩
def ADC_STAT_stand_in : Fld := ⟨R.ADC_STAT, 2, 0⟩
def ADC_SNAP_BASE_base : Fld := ⟨R.ADC_SNAP_BASE, 25, 8⟩
def ADC_SNAP_BASE_snap_en : Fld := ⟨R.ADC_SNAP_BASE, 0, 0⟩
def ADC_OVR_ovr : Fld := ⟨R.ADC_OVR, 23, 0⟩
def ADC_LIM_ACT0_act : Fld := ⟨R.ADC_LIM_ACT0, 23, 0⟩
def ADC_LIM_ACT1_act : Fld := ⟨R.ADC_LIM_ACT1, 23, 0⟩
def ADC_LIM_HIT0_hit : Fld := ⟨R.ADC_LIM_HIT0, 23, 0⟩
def ADC_LIM_HIT1_hit : Fld := ⟨R.ADC_LIM_HIT1, 23, 0⟩
def ADC_URG_REQ_req : Fld := ⟨R.ADC_URG_REQ, 3, 0⟩
def ADC_CH_CFG_slice (i : Nat) : Fld := ⟨R.ADC_CH_CFG i, 5, 4⟩
def ADC_CH_CFG_en (i : Nat) : Fld := ⟨R.ADC_CH_CFG i, 0, 0⟩
def ADC_RES_LO_slice (i : Nat) : Fld := ⟨R.ADC_RES_LO i, 22, 20⟩
def ADC_RES_LO_urgent (i : Nat) : Fld := ⟨R.ADC_RES_LO i, 18, 18⟩
def ADC_RES_LO_settle (i : Nat) : Fld := ⟨R.ADC_RES_LO i, 17, 17⟩
def ADC_RES_LO_ovr (i : Nat) : Fld := ⟨R.ADC_RES_LO i, 16, 16⟩
def ADC_RES_LO_code (i : Nat) : Fld := ⟨R.ADC_RES_LO i, 15, 0⟩
def ADC_RES_HI_sample_ns (i : Nat) : Fld := ⟨R.ADC_RES_HI i, 29, 0⟩
def ADC_LIM_en (i j : Nat) : Fld := ⟨R.ADC_LIM i j, 31, 31⟩
def ADC_LIM_dir (i j : Nat) : Fld := ⟨R.ADC_LIM i j, 30, 30⟩
def ADC_LIM_hyst (i j : Nat) : Fld := ⟨R.ADC_LIM i j, 29, 24⟩
def ADC_LIM_count (i j : Nat) : Fld := ⟨R.ADC_LIM i j, 23, 16⟩
def ADC_LIM_thr (i j : Nat) : Fld := ⟨R.ADC_LIM i j, 15, 0⟩
def ADC_URG_CFG_en (i : Nat) : Fld := ⟨R.ADC_URG_CFG i, 31, 31⟩
def ADC_URG_CFG_src (i : Nat) : Fld := ⟨R.ADC_URG_CFG i, 17, 16⟩
def ADC_URG_CFG_pwm_ch (i : Nat) : Fld := ⟨R.ADC_URG_CFG i, 11, 8⟩
def ADC_URG_CFG_ain (i : Nat) : Fld := ⟨R.ADC_URG_CFG i, 4, 0⟩
def ADC_URG_RES_LO_slice (i : Nat) : Fld := ⟨R.ADC_URG_RES_LO i, 22, 20⟩
def ADC_URG_RES_LO_urgent (i : Nat) : Fld := ⟨R.ADC_URG_RES_LO i, 18, 18⟩
def ADC_URG_RES_LO_settle (i : Nat) : Fld := ⟨R.ADC_URG_RES_LO i, 17, 17⟩
def ADC_URG_RES_LO_ovr (i : Nat) : Fld := ⟨R.ADC_URG_RES_LO i, 16, 16⟩
def ADC_URG_RES_LO_code (i : Nat) : Fld := ⟨R.ADC_URG_RES_LO i, 15, 0⟩
def ADC_URG_RES_HI_sample_ns (i : Nat) : Fld := ⟨R.ADC_URG_RES_HI i, 29, 0⟩
def ADC_URG_CNT_done (i : Nat) : Fld := ⟨R.ADC_URG_CNT i, 31, 16⟩
def ADC_URG_CNT_lost (i : Nat) : Fld := ⟨R.ADC_URG_CNT i, 15, 0⟩
def REC_EVT_MATCH_en : Fld := ⟨R.REC_EVT_MATCH, 31, 31⟩
def REC_EVT_MATCH_match_code : Fld := ⟨R.REC_EVT_MATCH, 15, 0⟩
def REC_CH_en (i : Nat) : Fld := ⟨R.REC_CH i, 31, 31⟩
def REC_CH_meas_en (i : Nat) : Fld := ⟨R.REC_CH i, 30, 30⟩
def REC_CH_hyst (i : Nat) : Fld := ⟨R.REC_CH i, 29, 24⟩
def REC_CH_ain (i : Nat) : Fld := ⟨R.REC_CH i, 4, 0⟩
def REC_TRIGIN_en (i : Nat) : Fld := ⟨R.REC_TRIGIN i, 31, 31⟩
def REC_TRIGIN_pol (i : Nat) : Fld := ⟨R.REC_TRIGIN i, 30, 30⟩
def REC_TRIGIN_rearm_us (i : Nat) : Fld := ⟨R.REC_TRIGIN i, 15, 0⟩
def REC_TRIGIN_STAT_ignored (i : Nat) : Fld := ⟨R.REC_TRIGIN_STAT i, 31, 16⟩
def REC_TRIGIN_STAT_rearming (i : Nat) : Fld := ⟨R.REC_TRIGIN_STAT i, 1, 1⟩
def REC_TRIGIN_STAT_pin (i : Nat) : Fld := ⟨R.REC_TRIGIN_STAT i, 0, 0⟩
def REC_TB_CFG_tb_en : Fld := ⟨R.REC_TB_CFG, 31, 31⟩
def REC_TB_CFG_tb_master : Fld := ⟨R.REC_TB_CFG, 30, 30⟩
def REC_TB_CFG_tb_id : Fld := ⟨R.REC_TB_CFG, 2, 0⟩
def REC_TB_STAT_rt_last : Fld := ⟨R.REC_TB_STAT, 31, 24⟩
def REC_TB_STAT_pending : Fld := ⟨R.REC_TB_STAT, 23, 16⟩
def REC_TB_STAT_tb_delay : Fld := ⟨R.REC_TB_STAT, 15, 8⟩
def REC_TB_STAT_spread : Fld := ⟨R.REC_TB_STAT, 3, 3⟩
def REC_TB_STAT_range_err : Fld := ⟨R.REC_TB_STAT, 2, 2⟩
def REC_TB_STAT_tb_down : Fld := ⟨R.REC_TB_STAT, 1, 1⟩
def REC_TB_STAT_tb_up : Fld := ⟨R.REC_TB_STAT, 0, 0⟩
def REC_TB_CNT_rx_bad : Fld := ⟨R.REC_TB_CNT, 31, 16⟩
def REC_TB_CNT_tx_trig : Fld := ⟨R.REC_TB_CNT, 15, 0⟩
def REC_SILO_BASE_base (i : Nat) : Fld := ⟨R.REC_SILO_BASE i, 25, 16⟩
def REC_SILO_BASE_size (i : Nat) : Fld := ⟨R.REC_SILO_BASE i, 9, 0⟩
def REC_SILO_CFG_wave_int (i : Nat) : Fld := ⟨R.REC_SILO_CFG i, 31, 16⟩
def REC_SILO_CFG_lane_first (i : Nat) : Fld := ⟨R.REC_SILO_CFG i, 15, 10⟩
def REC_SILO_CFG_lane_count (i : Nat) : Fld := ⟨R.REC_SILO_CFG i, 9, 6⟩
def REC_SILO_CFG_tb_line (i : Nat) : Fld := ⟨R.REC_SILO_CFG i, 5, 3⟩
def REC_SILO_CFG_tb_out (i : Nat) : Fld := ⟨R.REC_SILO_CFG i, 2, 2⟩
def REC_SILO_CFG_kind (i : Nat) : Fld := ⟨R.REC_SILO_CFG i, 1, 0⟩
def REC_SILO_PRE_pre (i : Nat) : Fld := ⟨R.REC_SILO_PRE i, 23, 0⟩
def REC_SILO_POST_post (i : Nat) : Fld := ⟨R.REC_SILO_POST i, 23, 0⟩
def REC_SILO_TRIG_trig_mask (i : Nat) : Fld := ⟨R.REC_SILO_TRIG i, 15, 0⟩
def REC_SILO_CTL_auto_rearm (i : Nat) : Fld := ⟨R.REC_SILO_CTL i, 31, 31⟩
def REC_SILO_CTL_disarm (i : Nat) : Fld := ⟨R.REC_SILO_CTL i, 3, 3⟩
def REC_SILO_CTL_sw_trig (i : Nat) : Fld := ⟨R.REC_SILO_CTL i, 2, 2⟩
def REC_SILO_CTL_release (i : Nat) : Fld := ⟨R.REC_SILO_CTL i, 1, 1⟩
def REC_SILO_CTL_arm (i : Nat) : Fld := ⟨R.REC_SILO_CTL i, 0, 0⟩
def REC_SILO_STAT_drop (i : Nat) : Fld := ⟨R.REC_SILO_STAT i, 31, 16⟩
def REC_SILO_STAT_err_code (i : Nat) : Fld := ⟨R.REC_SILO_STAT i, 15, 8⟩
def REC_SILO_STAT_clamped (i : Nat) : Fld := ⟨R.REC_SILO_STAT i, 4, 4⟩
def REC_SILO_STAT_state (i : Nat) : Fld := ⟨R.REC_SILO_STAT i, 2, 0⟩
def REC_SILO_CAP_capacity (i : Nat) : Fld := ⟨R.REC_SILO_CAP i, 23, 0⟩
def REC_SILO_IDX_idx (i : Nat) : Fld := ⟨R.REC_SILO_IDX i, 23, 0⟩
def SAF_STAT_ret_confirmed : Fld := ⟨R.SAF_STAT, 17, 17⟩
def SAF_STAT_check_valid : Fld := ⟨R.SAF_STAT, 16, 16⟩
def SAF_STAT_ret_err : Fld := ⟨R.SAF_STAT, 15, 15⟩
def SAF_STAT_confirmed : Fld := ⟨R.SAF_STAT, 14, 14⟩
def SAF_STAT_block_tx : Fld := ⟨R.SAF_STAT, 13, 13⟩
def SAF_STAT_pwm_hiz : Fld := ⟨R.SAF_STAT, 12, 12⟩
def SAF_STAT_safe_state : Fld := ⟨R.SAF_STAT, 11, 11⟩
def SAF_STAT_cause_active : Fld := ⟨R.SAF_STAT, 10, 10⟩
def SAF_STAT_arm_low : Fld := ⟨R.SAF_STAT, 9, 9⟩
def SAF_STAT_tm_active : Fld := ⟨R.SAF_STAT, 8, 8⟩
def SAF_STAT_in_now : Fld := ⟨R.SAF_STAT, 7, 0⟩
def SAF_LATCH_disc : Fld := ⟨R.SAF_LATCH, 11, 8⟩
def SAF_LATCH_in_latch : Fld := ⟨R.SAF_LATCH, 7, 0⟩
def SAF_TEST_STAT_fail_cnt : Fld := ⟨R.SAF_TEST_STAT, 31, 16⟩
def SAF_TEST_STAT_test_fail : Fld := ⟨R.SAF_TEST_STAT, 7, 0⟩
def SAF_RESET_STAT_refused_cnt : Fld := ⟨R.SAF_RESET_STAT, 31, 24⟩
def SAF_RESET_STAT_accepted_cnt : Fld := ⟨R.SAF_RESET_STAT, 23, 16⟩
def SAF_RESET_STAT_reason : Fld := ⟨R.SAF_RESET_STAT, 15, 8⟩
def SAF_RESET_STAT_stuck_seen : Fld := ⟨R.SAF_RESET_STAT, 2, 2⟩
def SAF_RESET_STAT_stuck : Fld := ⟨R.SAF_RESET_STAT, 1, 1⟩
def SAF_RESET_STAT_pressed : Fld := ⟨R.SAF_RESET_STAT, 0, 0⟩
def SAF_IN_CFG_test_en (i : Nat) : Fld := ⟨R.SAF_IN_CFG i, 1, 1⟩
def SAF_IN_CFG_en (i : Nat) : Fld := ⟨R.SAF_IN_CFG i, 0, 0⟩
def SAF_TEST_CFG_test_fail_trip : Fld := ⟨R.SAF_TEST_CFG, 31, 31⟩
def SAF_TEST_CFG_tp_width : Fld := ⟨R.SAF_TEST_CFG, 15, 8⟩
def SAF_TEST_CFG_tp_interval : Fld := ⟨R.SAF_TEST_CFG, 7, 0⟩
def SAF_TM_MASK0_mask : Fld := ⟨R.SAF_TM_MASK0, 23, 0⟩
def SAF_TM_MASK1_mask : Fld := ⟨R.SAF_TM_MASK1, 23, 0⟩
def SAF_CHECK_check : Fld := ⟨R.SAF_CHECK, 31, 0⟩
def SAF_CONFIRM_value : Fld := ⟨R.SAF_CONFIRM, 31, 0⟩
def SAF_CONF_CNT_conf_fail : Fld := ⟨R.SAF_CONF_CNT, 15, 0⟩
def SAF_RET_CHECK_confirmed : Fld := ⟨R.SAF_RET_CHECK, 31, 0⟩
def SAF_FAULT_HIST_trip_count : Fld := ⟨R.SAF_FAULT_HIST, 31, 16⟩
def SAF_FAULT_HIST_count_clr : Fld := ⟨R.SAF_FAULT_HIST, 15, 15⟩
def SAF_FAULT_HIST_test_fail : Fld := ⟨R.SAF_FAULT_HIST, 10, 10⟩
def SAF_FAULT_HIST_disc : Fld := ⟨R.SAF_FAULT_HIST, 9, 9⟩
def SAF_FAULT_HIST_reset_stuck : Fld := ⟨R.SAF_FAULT_HIST, 8, 8⟩
def SAF_FAULT_HIST_rails_lost : Fld := ⟨R.SAF_FAULT_HIST, 7, 7⟩
def SAF_FAULT_HIST_dormant : Fld := ⟨R.SAF_FAULT_HIST, 6, 6⟩
def SAF_FAULT_HIST_fatal : Fld := ⟨R.SAF_FAULT_HIST, 5, 5⟩
def SAF_FAULT_HIST_clock_fault : Fld := ⟨R.SAF_FAULT_HIST, 4, 4⟩
def SAF_FAULT_HIST_overrun : Fld := ⟨R.SAF_FAULT_HIST, 3, 3⟩
def SAF_FAULT_HIST_arm_low : Fld := ⟨R.SAF_FAULT_HIST, 2, 2⟩
def SAF_FAULT_HIST_trip_matrix : Fld := ⟨R.SAF_FAULT_HIST, 1, 1⟩
def SAF_FAULT_HIST_safety_input : Fld := ⟨R.SAF_FAULT_HIST, 0, 0⟩
def SAF_TRIP_TS_LO_ts : Fld := ⟨R.SAF_TRIP_TS_LO, 29, 0⟩
def SAF_TRIP_TS_HI_ts : Fld := ⟨R.SAF_TRIP_TS_HI, 31, 0⟩
def SAF_TRIP_INFO_detail : Fld := ⟨R.SAF_TRIP_INFO, 23, 16⟩
def SAF_TRIP_INFO_cause : Fld := ⟨R.SAF_TRIP_INFO, 15, 8⟩
def SAF_TRIP_INFO_class : Fld := ⟨R.SAF_TRIP_INFO, 7, 4⟩
def SAF_TRIP_INFO_mode : Fld := ⟨R.SAF_TRIP_INFO, 3, 0⟩
def SAF_RET_DATA_data (i : Nat) : Fld := ⟨R.SAF_RET_DATA i, 31, 0⟩
def RED_CFG_pair_en : Fld := ⟨R.RED_CFG, 31, 31⟩
def RED_CFG_first_side : Fld := ⟨R.RED_CFG, 30, 30⟩
def RED_CFG_yield_lane : Fld := ⟨R.RED_CFG, 29, 29⟩
def RED_CFG_absent_wait : Fld := ⟨R.RED_CFG, 23, 16⟩
def RED_CFG_match_need : Fld := ⟨R.RED_CFG, 12, 8⟩
def RED_TIMING_mirror_dly : Fld := ⟨R.RED_TIMING, 14, 0⟩
def RED_ASYM_asym : Fld := ⟨R.RED_ASYM, 15, 0⟩
def RED_MIR_BASE_base : Fld := ⟨R.RED_MIR_BASE, 25, 16⟩
def RED_MIR_BASE_en : Fld := ⟨R.RED_MIR_BASE, 0, 0⟩
def RED_CTL_rejoin : Fld := ⟨R.RED_CTL, 1, 1⟩
def RED_CTL_handover : Fld := ⟨R.RED_CTL, 0, 0⟩
def RED_FWD_REQ_target : Fld := ⟨R.RED_FWD_REQ, 3, 0⟩
def RED_STAT_partner_mode : Fld := ⟨R.RED_STAT, 31, 28⟩
def RED_STAT_sense : Fld := ⟨R.RED_STAT, 27, 26⟩
def RED_STAT_drive : Fld := ⟨R.RED_STAT, 25, 24⟩
def RED_STAT_entitled : Fld := ⟨R.RED_STAT, 23, 23⟩
def RED_STAT_bond : Fld := ⟨R.RED_STAT, 22, 22⟩
def RED_STAT_tf_locked : Fld := ⟨R.RED_STAT, 21, 21⟩
def RED_STAT_sig_match : Fld := ⟨R.RED_STAT, 20, 20⟩
def RED_STAT_join_done : Fld := ⟨R.RED_STAT, 19, 19⟩
def RED_STAT_in_step : Fld := ⟨R.RED_STAT, 18, 18⟩
def RED_STAT_partner_in_step : Fld := ⟨R.RED_STAT, 17, 17⟩
def RED_STAT_frozen : Fld := ⟨R.RED_STAT, 16, 16⟩
def RED_STAT_eligible : Fld := ⟨R.RED_STAT, 15, 15⟩
def RED_STAT_cfg_err : Fld := ⟨R.RED_STAT, 14, 14⟩
def RED_STAT_match_run : Fld := ⟨R.RED_STAT, 9, 0⟩
def RED_FLAGS_ilk_clash : Fld := ⟨R.RED_FLAGS, 9, 9⟩
def RED_FLAGS_side_clash : Fld := ⟨R.RED_FLAGS, 8, 8⟩
def RED_FLAGS_handover_refused : Fld := ⟨R.RED_FLAGS, 7, 7⟩
def RED_FLAGS_tf_unlock : Fld := ⟨R.RED_FLAGS, 6, 6⟩
def RED_FLAGS_sig_mismatch : Fld := ⟨R.RED_FLAGS, 5, 5⟩
def RED_FLAGS_mir_late : Fld := ⟨R.RED_FLAGS, 4, 4⟩
def RED_FLAGS_mismatch : Fld := ⟨R.RED_FLAGS, 3, 3⟩
def RED_FLAGS_takeover : Fld := ⟨R.RED_FLAGS, 2, 2⟩
def RED_FLAGS_partner_lost : Fld := ⟨R.RED_FLAGS, 1, 1⟩
def RED_FLAGS_ilk_open : Fld := ⟨R.RED_FLAGS, 0, 0⟩
def RED_CNT_mismatch_cnt : Fld := ⟨R.RED_CNT, 31, 16⟩
def RED_CNT_status_miss : Fld := ⟨R.RED_CNT, 15, 0⟩
def RED_CNT2_mir_late_cnt : Fld := ⟨R.RED_CNT2, 31, 16⟩
def RED_CNT2_takeovers : Fld := ⟨R.RED_CNT2, 15, 8⟩
def RED_CNT2_deferred : Fld := ⟨R.RED_CNT2, 7, 0⟩
def RED_DIGEST_LO_digest : Fld := ⟨R.RED_DIGEST_LO, 31, 0⟩
def RED_DIGEST_HI_digest : Fld := ⟨R.RED_DIGEST_HI, 31, 0⟩
def RED_PDIGEST_LO_digest : Fld := ⟨R.RED_PDIGEST_LO, 31, 0⟩
def RED_PDIGEST_HI_digest : Fld := ⟨R.RED_PDIGEST_HI, 31, 0⟩
def RED_DIG_PERIOD_period : Fld := ⟨R.RED_DIG_PERIOD, 31, 0⟩
def RED_TF_theta : Fld := ⟨R.RED_TF, 31, 0⟩
def RED_MIR_DELAY_d : Fld := ⟨R.RED_MIR_DELAY, 19, 0⟩
def RED_SIG_signature : Fld := ⟨R.RED_SIG, 31, 0⟩
def RED_PSIG_signature : Fld := ⟨R.RED_PSIG, 31, 0⟩
def HIF_CFG_bif : Fld := ⟨R.HIF_CFG, 31, 31⟩
def HIF_CFG_ev_count : Fld := ⟨R.HIF_CFG, 15, 8⟩
def HIF_CFG_ev_time : Fld := ⟨R.HIF_CFG, 7, 0⟩
def HIF_OWN_STAT_changes : Fld := ⟨R.HIF_OWN_STAT, 31, 16⟩
def HIF_OWN_STAT_last_cause : Fld := ⟨R.HIF_OWN_STAT, 9, 8⟩
def HIF_OWN_STAT_own_refused : Fld := ⟨R.HIF_OWN_STAT, 7, 7⟩
def HIF_OWN_STAT_claim_pend : Fld := ⟨R.HIF_OWN_STAT, 6, 4⟩
def HIF_OWN_STAT_owner : Fld := ⟨R.HIF_OWN_STAT, 1, 0⟩
def HIF_OWN_CTL_go : Fld := ⟨R.HIF_OWN_CTL, 31, 31⟩
def HIF_OWN_CTL_to : Fld := ⟨R.HIF_OWN_CTL, 1, 0⟩
def HIF_OWN_CFG_lease_ms : Fld := ⟨R.HIF_OWN_CFG, 15, 0⟩
def HIF_ACC_CNT_denied : Fld := ⟨R.HIF_ACC_CNT, 31, 16⟩
def HIF_ACC_CNT_narrow : Fld := ⟨R.HIF_ACC_CNT, 15, 8⟩
def HIF_ACC_CNT_locked : Fld := ⟨R.HIF_ACC_CNT, 7, 0⟩
def HIF_PORT_STAT_down_cnt (i : Nat) : Fld := ⟨R.HIF_PORT_STAT i, 31, 16⟩
def HIF_PORT_STAT_width (i : Nat) : Fld := ⟨R.HIF_PORT_STAT i, 7, 4⟩
def HIF_PORT_STAT_speed (i : Nat) : Fld := ⟨R.HIF_PORT_STAT i, 3, 1⟩
def HIF_PORT_STAT_link_up (i : Nat) : Fld := ⟨R.HIF_PORT_STAT i, 0, 0⟩
def HIF_RING_BASE_LO_base (i j : Nat) : Fld := ⟨R.HIF_RING_BASE_LO i j, 31, 12⟩
def HIF_RING_BASE_HI_base (i j : Nat) : Fld := ⟨R.HIF_RING_BASE_HI i j, 31, 0⟩
def HIF_RING_CFG_en (i j : Nat) : Fld := ⟨R.HIF_RING_CFG i j, 31, 31⟩
def HIF_RING_CFG_log2_len (i j : Nat) : Fld := ⟨R.HIF_RING_CFG i j, 27, 24⟩
def HIF_RING_CFG_div (i j : Nat) : Fld := ⟨R.HIF_RING_CFG i j, 23, 16⟩
def HIF_RING_CFG_elem (i j : Nat) : Fld := ⟨R.HIF_RING_CFG i j, 15, 0⟩
def HIF_RING_STAT_drop (i j : Nat) : Fld := ⟨R.HIF_RING_STAT i j, 31, 16⟩
def HIF_RING_STAT_dev_idx (i j : Nat) : Fld := ⟨R.HIF_RING_STAT i j, 15, 0⟩
def HIF_TEL_ARMS_arms (i : Nat) : Fld := ⟨R.HIF_TEL_ARMS i, 11, 0⟩
def HIF_DUMP_CFG_dump_en : Fld := ⟨R.HIF_DUMP_CFG, 31, 31⟩
def HIF_DUMP_CFG_stage : Fld := ⟨R.HIF_DUMP_CFG, 25, 15⟩
def HIF_DUMP_RGN_addr (i : Nat) : Fld := ⟨R.HIF_DUMP_RGN i, 27, 14⟩
def HIF_DUMP_RGN_len (i : Nat) : Fld := ⟨R.HIF_DUMP_RGN i, 11, 0⟩
def HIF_DMA_CTL_en (i : Nat) : Fld := ⟨R.HIF_DMA_CTL i, 31, 31⟩
def HIF_DMA_CTL_disable (i : Nat) : Fld := ⟨R.HIF_DMA_CTL i, 30, 30⟩
def HIF_DMA_CTL_port (i : Nat) : Fld := ⟨R.HIF_DMA_CTL i, 29, 29⟩
def HIF_DMA_CTL_chain_space (i : Nat) : Fld := ⟨R.HIF_DMA_CTL i, 28, 28⟩
def HIF_DMA_CTL_own_eng (i : Nat) : Fld := ⟨R.HIF_DMA_CTL i, 27, 24⟩
def HIF_DMA_CTL_eng_owned (i : Nat) : Fld := ⟨R.HIF_DMA_CTL i, 23, 23⟩
def HIF_DMA_HEAD_LO_head (i : Nat) : Fld := ⟨R.HIF_DMA_HEAD_LO i, 31, 5⟩
def HIF_DMA_HEAD_HI_head (i : Nat) : Fld := ⟨R.HIF_DMA_HEAD_HI i, 31, 0⟩
def HIF_DMA_HOPS_max_hops (i : Nat) : Fld := ⟨R.HIF_DMA_HOPS i, 15, 0⟩
def HIF_DMA_STAT_state (i : Nat) : Fld := ⟨R.HIF_DMA_STAT i, 31, 30⟩
def HIF_DMA_STAT_pending (i : Nat) : Fld := ⟨R.HIF_DMA_STAT i, 29, 29⟩
def HIF_DMA_STAT_loop (i : Nat) : Fld := ⟨R.HIF_DMA_STAT i, 28, 28⟩
def HIF_DMA_STAT_halt (i : Nat) : Fld := ⟨R.HIF_DMA_STAT i, 27, 27⟩
def HIF_DMA_STAT_bad_cnt (i : Nat) : Fld := ⟨R.HIF_DMA_STAT i, 23, 16⟩
def HIF_DMA_STAT_done_cnt (i : Nat) : Fld := ⟨R.HIF_DMA_STAT i, 15, 0⟩
def HIF_DMA_CUR_LO_cur (i : Nat) : Fld := ⟨R.HIF_DMA_CUR_LO i, 31, 0⟩
def HIF_DMA_CUR_HI_cur (i : Nat) : Fld := ⟨R.HIF_DMA_CUR_HI i, 31, 0⟩
def HIF_MBOX_data (i : Nat) : Fld := ⟨R.HIF_MBOX i, 31, 0⟩
def HIF_MBOX_CTL_go : Fld := ⟨R.HIF_MBOX_CTL, 31, 31⟩
def HIF_MBOX_CTL_busy : Fld := ⟨R.HIF_MBOX_CTL, 30, 30⟩
def HIF_MBOX_CTL_status : Fld := ⟨R.HIF_MBOX_CTL, 7, 0⟩
def TIM_NOW_NS_ns : Fld := ⟨R.TIM_NOW_NS, 29, 0⟩
def TIM_NOW_SEC_LO_sec_lo : Fld := ⟨R.TIM_NOW_SEC_LO, 31, 0⟩
def TIM_NOW_SEC_HI_frac : Fld := ⟨R.TIM_NOW_SEC_HI, 23, 16⟩
def TIM_NOW_SEC_HI_sec_hi : Fld := ⟨R.TIM_NOW_SEC_HI, 15, 0⟩
def TIM_INC_FRAC_frac : Fld := ⟨R.TIM_INC_FRAC, 31, 0⟩
def TIM_INC_INT_int : Fld := ⟨R.TIM_INC_INT, 7, 0⟩
def TIM_RATE_rate : Fld := ⟨R.TIM_RATE, 23, 0⟩
def TIM_SLEW_CFG_ramp : Fld := ⟨R.TIM_SLEW_CFG, 19, 16⟩
def TIM_SLEW_CFG_slew_ppm : Fld := ⟨R.TIM_SLEW_CFG, 7, 0⟩
def TIM_STEP_THR_step_thr : Fld := ⟨R.TIM_STEP_THR, 29, 0⟩
def TIM_OFS_NS_ofs_ns : Fld := ⟨R.TIM_OFS_NS, 31, 0⟩
def TIM_OFS_CTL_go : Fld := ⟨R.TIM_OFS_CTL, 31, 31⟩
def TIM_OFS_CTL_set_go : Fld := ⟨R.TIM_OFS_CTL, 30, 30⟩
def TIM_OFS_CTL_force_slew : Fld := ⟨R.TIM_OFS_CTL, 29, 29⟩
def TIM_OFS_CTL_frac : Fld := ⟨R.TIM_OFS_CTL, 7, 0⟩
def TIM_SET_NS_ns : Fld := ⟨R.TIM_SET_NS, 29, 0⟩
def TIM_SET_SEC_LO_sec_lo : Fld := ⟨R.TIM_SET_SEC_LO, 31, 0⟩
def TIM_SET_SEC_HI_sec_hi : Fld := ⟨R.TIM_SET_SEC_HI, 15, 0⟩
def TIM_SLEW_REM_rem : Fld := ⟨R.TIM_SLEW_REM, 31, 0⟩
def TIM_STAT_refuse_reason : Fld := ⟨R.TIM_STAT, 15, 8⟩
def TIM_STAT_following : Fld := ⟨R.TIM_STAT, 5, 5⟩
def TIM_STAT_slewing : Fld := ⟨R.TIM_STAT, 4, 4⟩
def TIM_STAT_gm_change : Fld := ⟨R.TIM_STAT, 3, 3⟩
def TIM_STAT_step_refused : Fld := ⟨R.TIM_STAT, 2, 2⟩
def TIM_STAT_stepped : Fld := ⟨R.TIM_STAT, 1, 1⟩
def TIM_STEP_CNT_refused : Fld := ⟨R.TIM_STEP_CNT, 31, 16⟩
def TIM_STEP_CNT_steps : Fld := ⟨R.TIM_STEP_CNT, 15, 0⟩
def TIM_ENG_REQ_base : Fld := ⟨R.TIM_ENG_REQ, 25, 4⟩
def TIM_ENG_REQ_en : Fld := ⟨R.TIM_ENG_REQ, 0, 0⟩
def TIM_ETH_CFG_en (i : Nat) : Fld := ⟨R.TIM_ETH_CFG i, 31, 31⟩
def TIM_ETH_CFG_pcs (i : Nat) : Fld := ⟨R.TIM_ETH_CFG i, 30, 29⟩
def TIM_ETH_CFG_promisc (i : Nat) : Fld := ⟨R.TIM_ETH_CFG i, 28, 28⟩
def TIM_ETH_CFG_an_restart (i : Nat) : Fld := ⟨R.TIM_ETH_CFG i, 27, 27⟩
def TIM_ETH_CFG_tx_mute (i : Nat) : Fld := ⟨R.TIM_ETH_CFG i, 26, 26⟩
def TIM_ETH_CFG_fwd (i : Nat) : Fld := ⟨R.TIM_ETH_CFG i, 25, 24⟩
def TIM_ETH_CFG_gm_watch (i : Nat) : Fld := ⟨R.TIM_ETH_CFG i, 23, 23⟩
def TIM_ETH_CFG_domain (i : Nat) : Fld := ⟨R.TIM_ETH_CFG i, 15, 8⟩
def TIM_ETH_STAT_partner (i : Nat) : Fld := ⟨R.TIM_ETH_STAT i, 31, 16⟩
def TIM_ETH_STAT_an_done (i : Nat) : Fld := ⟨R.TIM_ETH_STAT i, 2, 2⟩
def TIM_ETH_STAT_link_down (i : Nat) : Fld := ⟨R.TIM_ETH_STAT i, 1, 1⟩
def TIM_ETH_STAT_link (i : Nat) : Fld := ⟨R.TIM_ETH_STAT i, 0, 0⟩
def TIM_ETH_MAC_LO_mac (i : Nat) : Fld := ⟨R.TIM_ETH_MAC_LO i, 31, 0⟩
def TIM_ETH_MAC_HI_mac (i : Nat) : Fld := ⟨R.TIM_ETH_MAC_HI i, 15, 0⟩
def TIM_ETH_LAT_tx_lat (i : Nat) : Fld := ⟨R.TIM_ETH_LAT i, 31, 16⟩
def TIM_ETH_LAT_rx_lat (i : Nat) : Fld := ⟨R.TIM_ETH_LAT i, 15, 0⟩
def TIM_ETH_RXRING_en (i : Nat) : Fld := ⟨R.TIM_ETH_RXRING i, 31, 31⟩
def TIM_ETH_RXRING_base (i : Nat) : Fld := ⟨R.TIM_ETH_RXRING i, 25, 11⟩
def TIM_ETH_RXRING_log2_len (i : Nat) : Fld := ⟨R.TIM_ETH_RXRING i, 3, 0⟩
def TIM_ETH_TXRING_en (i : Nat) : Fld := ⟨R.TIM_ETH_TXRING i, 31, 31⟩
def TIM_ETH_TXRING_base (i : Nat) : Fld := ⟨R.TIM_ETH_TXRING i, 25, 5⟩
def TIM_ETH_TXRING_log2_len (i : Nat) : Fld := ⟨R.TIM_ETH_TXRING i, 3, 0⟩
def TIM_ETH_CNT_rx_drop (i : Nat) : Fld := ⟨R.TIM_ETH_CNT i, 31, 16⟩
def TIM_ETH_CNT_fcs_err (i : Nat) : Fld := ⟨R.TIM_ETH_CNT i, 15, 0⟩
def TIM_ETH_CNT2_tx_err (i : Nat) : Fld := ⟨R.TIM_ETH_CNT2 i, 31, 16⟩
def TIM_ETH_CNT2_tx_muted (i : Nat) : Fld := ⟨R.TIM_ETH_CNT2 i, 15, 0⟩
def TIM_GM_LO_gm (i : Nat) : Fld := ⟨R.TIM_GM_LO i, 31, 0⟩
def TIM_GM_HI_gm (i : Nat) : Fld := ⟨R.TIM_GM_HI i, 31, 0⟩
def TIM_ETH_MC_LO_addr_lo (i j : Nat) : Fld := ⟨R.TIM_ETH_MC_LO i j, 31, 0⟩
def TIM_ETH_MC_HI_en (i j : Nat) : Fld := ⟨R.TIM_ETH_MC_HI i j, 31, 31⟩
def TIM_ETH_MC_HI_mask16 (i j : Nat) : Fld := ⟨R.TIM_ETH_MC_HI i j, 30, 30⟩
def TIM_ETH_MC_HI_addr_hi (i j : Nat) : Fld := ⟨R.TIM_ETH_MC_HI i j, 15, 0⟩
def TIM_SV_CFG_en (i : Nat) : Fld := ⟨R.TIM_SV_CFG i, 31, 31⟩
def TIM_SV_CFG_ports (i : Nat) : Fld := ⟨R.TIM_SV_CFG i, 29, 28⟩
def TIM_SV_CFG_log2_depth (i : Nat) : Fld := ⟨R.TIM_SV_CFG i, 26, 24⟩
def TIM_SV_CFG_slot_units (i : Nat) : Fld := ⟨R.TIM_SV_CFG i, 19, 16⟩
def TIM_SV_CFG_appid (i : Nat) : Fld := ⟨R.TIM_SV_CFG i, 15, 0⟩
def TIM_SV_BASE_base (i : Nat) : Fld := ⟨R.TIM_SV_BASE i, 25, 8⟩
def TIM_SV_STAT_stored (i : Nat) : Fld := ⟨R.TIM_SV_STAT i, 31, 16⟩
def TIM_SV_STAT_trunc (i : Nat) : Fld := ⟨R.TIM_SV_STAT i, 15, 0⟩
def TIM_ESP_USER_user : Fld := ⟨R.TIM_ESP_USER, 31, 0⟩
def CAN_CFG_en (i : Nat) : Fld := ⟨R.CAN_CFG i, 31, 31⟩
def CAN_CFG_mode (i : Nat) : Fld := ⟨R.CAN_CFG i, 30, 29⟩
def CAN_CFG_auto_rec (i : Nat) : Fld := ⟨R.CAN_CFG i, 28, 28⟩
def CAN_CFG_flush_busoff (i : Nat) : Fld := ⟨R.CAN_CFG i, 27, 27⟩
def CAN_CFG_tx_mute (i : Nat) : Fld := ⟨R.CAN_CFG i, 26, 26⟩
def CAN_CFG_retry_lim (i : Nat) : Fld := ⟨R.CAN_CFG i, 23, 16⟩
def CAN_CFG_fifo_limit (i : Nat) : Fld := ⟨R.CAN_CFG i, 5, 0⟩
def CAN_NBT_tseg1 (i : Nat) : Fld := ⟨R.CAN_NBT i, 31, 24⟩
def CAN_NBT_tseg2 (i : Nat) : Fld := ⟨R.CAN_NBT i, 23, 17⟩
def CAN_NBT_sjw (i : Nat) : Fld := ⟨R.CAN_NBT i, 16, 10⟩
def CAN_NBT_brp (i : Nat) : Fld := ⟨R.CAN_NBT i, 5, 0⟩
def CAN_DBT_tseg1 (i : Nat) : Fld := ⟨R.CAN_DBT i, 31, 24⟩
def CAN_DBT_tseg2 (i : Nat) : Fld := ⟨R.CAN_DBT i, 23, 17⟩
def CAN_DBT_sjw (i : Nat) : Fld := ⟨R.CAN_DBT i, 16, 10⟩
def CAN_DBT_tdc_en (i : Nat) : Fld := ⟨R.CAN_DBT i, 9, 9⟩
def CAN_DBT_brp (i : Nat) : Fld := ⟨R.CAN_DBT i, 5, 0⟩
def CAN_TDC_tdc_meas (i : Nat) : Fld := ⟨R.CAN_TDC i, 23, 16⟩
def CAN_TDC_tdc_off (i : Nat) : Fld := ⟨R.CAN_TDC i, 6, 0⟩
def CAN_STAT_state (i : Nat) : Fld := ⟨R.CAN_STAT i, 31, 30⟩
def CAN_STAT_lec (i : Nat) : Fld := ⟨R.CAN_STAT i, 29, 27⟩
def CAN_STAT_fill (i : Nat) : Fld := ⟨R.CAN_STAT i, 26, 21⟩
def CAN_STAT_cfg_err (i : Nat) : Fld := ⟨R.CAN_STAT i, 20, 20⟩
def CAN_STAT_busoff_seen (i : Nat) : Fld := ⟨R.CAN_STAT i, 19, 19⟩
def CAN_STAT_idclash (i : Nat) : Fld := ⟨R.CAN_STAT i, 18, 18⟩
def CAN_STAT_alone (i : Nat) : Fld := ⟨R.CAN_STAT i, 17, 17⟩
def CAN_STAT_tec (i : Nat) : Fld := ⟨R.CAN_STAT i, 16, 8⟩
def CAN_STAT_rec (i : Nat) : Fld := ⟨R.CAN_STAT i, 7, 0⟩
def CAN_CMD_recover (i : Nat) : Fld := ⟨R.CAN_CMD i, 3, 3⟩
def CAN_CMD_flush (i : Nat) : Fld := ⟨R.CAN_CMD i, 2, 2⟩
def CAN_CMD_abort_head (i : Nat) : Fld := ⟨R.CAN_CMD i, 1, 1⟩
def CAN_CMD_push (i : Nat) : Fld := ⟨R.CAN_CMD i, 0, 0⟩
def CAN_CNT_tx_done (i : Nat) : Fld := ⟨R.CAN_CNT i, 31, 16⟩
def CAN_CNT_rx_stored (i : Nat) : Fld := ⟨R.CAN_CNT i, 15, 0⟩
def CAN_CNT2_no_match (i : Nat) : Fld := ⟨R.CAN_CNT2 i, 31, 16⟩
def CAN_CNT2_lost_cnt (i : Nat) : Fld := ⟨R.CAN_CNT2 i, 15, 0⟩
def CAN_CNT3_tx_full (i : Nat) : Fld := ⟨R.CAN_CNT3 i, 31, 16⟩
def CAN_CNT3_tx_bad (i : Nat) : Fld := ⟨R.CAN_CNT3 i, 15, 0⟩
def CAN_CNT4_tx_abort (i : Nat) : Fld := ⟨R.CAN_CNT4 i, 31, 16⟩
def CAN_CNT4_tx_muted (i : Nat) : Fld := ⟨R.CAN_CNT4 i, 15, 0⟩
def CAN_RX_BASE_base (i : Nat) : Fld := ⟨R.CAN_RX_BASE i, 25, 14⟩
def CAN_TXFEED_en (i : Nat) : Fld := ⟨R.CAN_TXFEED i, 31, 31⟩
def CAN_TXFEED_base (i : Nat) : Fld := ⟨R.CAN_TXFEED i, 25, 7⟩
def CAN_TXFEED_log2_len (i : Nat) : Fld := ⟨R.CAN_TXFEED i, 3, 0⟩
def CAN_TXBUF_data (i j : Nat) : Fld := ⟨R.CAN_TXBUF i j, 31, 0⟩
def CAN_RXOBJ_en (i j : Nat) : Fld := ⟨R.CAN_RXOBJ i j, 31, 31⟩
def CAN_RXOBJ_ide (i j : Nat) : Fld := ⟨R.CAN_RXOBJ i j, 29, 29⟩
def CAN_RXOBJ_id (i j : Nat) : Fld := ⟨R.CAN_RXOBJ i j, 28, 0⟩
def GRN_CFG_scrub_int : Fld := ⟨R.GRN_CFG, 7, 0⟩
def GRN_GATHER_base : Fld := ⟨R.GRN_GATHER, 25, 16⟩
def GRN_STAT_init_done : Fld := ⟨R.GRN_STAT, 0, 0⟩
def GRN_ECC_CNT_uncorr : Fld := ⟨R.GRN_ECC_CNT, 31, 16⟩
def GRN_ECC_CNT_corr : Fld := ⟨R.GRN_ECC_CNT, 15, 0⟩
def GRN_ECC_LAST_req : Fld := ⟨R.GRN_ECC_LAST, 31, 24⟩
def GRN_ECC_LAST_word : Fld := ⟨R.GRN_ECC_LAST, 22, 0⟩
def GLB_DIE_TEMP_over_seen : Fld := ⟨R.GLB_DIE_TEMP, 31, 31⟩
def GLB_DIE_TEMP_hot_seen : Fld := ⟨R.GLB_DIE_TEMP, 30, 30⟩
def GLB_DIE_TEMP_worst : Fld := ⟨R.GLB_DIE_TEMP, 27, 16⟩
def GLB_DIE_TEMP_now : Fld := ⟨R.GLB_DIE_TEMP, 11, 0⟩
def GLB_RAIL_STAT_warn : Fld := ⟨R.GLB_RAIL_STAT, 14, 8⟩
def GLB_RAIL_STAT_ok : Fld := ⟨R.GLB_RAIL_STAT, 6, 0⟩
end F

/-- The registers of block GLB. -/
def regsGLB : List RegDef :=
  [⟨.GLB_DEVICE_ID, 0x00000, 1, 0x0, 1, 0x0, false, 0x486000A0, [⟨31, 16, .ro, .none⟩, ⟨7, 4, .ro, .none⟩, ⟨3, 0, .ro, .none⟩]⟩,
   ⟨.GLB_PERIOD, 0x00100, 1, 0x0, 1, 0x0, false, 0x7D0, [⟨14, 0, .rwl, .range 1000 20000⟩]⟩,
   ⟨.GLB_GATHER_DEADLINE, 0x00104, 1, 0x0, 1, 0x0, false, 0x28C, [⟨14, 0, .rwl, .range 40 20000⟩]⟩,
   ⟨.GLB_ORDER_OFFSET, 0x00108, 1, 0x0, 1, 0x0, false, 0x35C, [⟨14, 0, .rwl, .range 40 20000⟩]⟩,
   ⟨.GLB_EDGE_OFFSET, 0x0010C, 1, 0x0, 1, 0x0, false, 0x578, [⟨14, 0, .rwl, .range 200 20000⟩]⟩,
   ⟨.GLB_ORIGIN_NS, 0x00110, 1, 0x0, 1, 0x0, false, 0x0, [⟨29, 0, .rwl, .range 0 999999999⟩]⟩,
   ⟨.GLB_ORIGIN_SEC_LO, 0x00114, 1, 0x0, 1, 0x0, false, 0x0, [⟨31, 0, .rwl, .none⟩]⟩,
   ⟨.GLB_ORIGIN_SEC_HI, 0x00118, 1, 0x0, 1, 0x0, false, 0x0, [⟨15, 0, .rwl, .none⟩]⟩,
   ⟨.GLB_PERIOD_POS_LO, 0x00120, 1, 0x0, 1, 0x0, false, 0x0, [⟨16, 0, .snap, .none⟩]⟩,
   ⟨.GLB_PERIOD_POS_HI, 0x00124, 1, 0x0, 1, 0x0, false, 0x0, [⟨31, 0, .snap, .none⟩]⟩,
   ⟨.GLB_MS_GATHER, 0x00130, 1, 0x0, 1, 0x0, false, 0x0, [⟨31, 16, .rc, .none⟩, ⟨15, 0, .ro, .none⟩]⟩,
   ⟨.GLB_MS_PLAN, 0x00134, 1, 0x0, 1, 0x0, false, 0x0, [⟨31, 16, .rc, .none⟩, ⟨15, 0, .ro, .none⟩]⟩,
   ⟨.GLB_TIMING_STAT, 0x00138, 1, 0x0, 1, 0x0, false, 0x0, [⟨13, 8, .ro, .none⟩, ⟨1, 1, .w1c, .none⟩, ⟨0, 0, .w1c, .none⟩]⟩,
   ⟨.GLB_LATE_CNT, 0x0013C, 1, 0x0, 1, 0x0, false, 0x0, [⟨31, 16, .rc, .none⟩, ⟨15, 0, .rc, .none⟩]⟩,
   ⟨.GLB_LANE_MAP, 0x00200, 48, 0x4, 1, 0x0, false, 0x0, [⟨25, 24, .rwl, .els 2 0⟩, ⟨22, 16, .rwl, .range 0 64⟩, ⟨14, 8, .rwl, .range 0 64⟩, ⟨7, 4, .rwl, .range 0 11⟩, ⟨3, 0, .rwl, .range 0 11⟩]⟩,
   ⟨.GLB_ARM_CFG, 0x00300, 12, 0x4, 1, 0x0, false, 0x0, [⟨31, 31, .rwl, .none⟩, ⟨25, 16, .rwl, .range 0 512⟩]⟩,
   ⟨.GLB_ARM_STAT, 0x00340, 12, 0x4, 1, 0x0, false, 0x0, [⟨25, 16, .ro, .none⟩, ⟨9, 0, .ro, .none⟩]⟩,
   ⟨.GLB_MAP_STAT, 0x00380, 1, 0x0, 1, 0x0, false, 0x70000, [⟨31, 31, .ro, .none⟩, ⟨23, 16, .ro, .none⟩, ⟨13, 8, .ro, .none⟩, ⟨3, 0, .ro, .none⟩]⟩,
   ⟨.GLB_MODE, 0x00010, 1, 0x0, 1, 0x0, false, 0x2, [⟨18, 18, .ro, .none⟩, ⟨16, 16, .ro, .none⟩, ⟨15, 12, .ro, .none⟩, ⟨11, 8, .ro, .none⟩, ⟨7, 7, .ro, .none⟩, ⟨6, 6, .ro, .none⟩, ⟨5, 5, .ro, .none⟩, ⟨4, 4, .ro, .none⟩, ⟨3, 0, .ro, .none⟩]⟩,
   ⟨.GLB_MODE_REQ, 0x00014, 1, 0x0, 1, 0x0, true, 0x0, [⟨3, 0, .wo, .none⟩]⟩,
   ⟨.GLB_MODE_LOG, 0x00018, 1, 0x0, 1, 0x0, false, 0x0, [⟨27, 20, .ro, .none⟩, ⟨19, 16, .ro, .none⟩, ⟨15, 8, .ro, .none⟩, ⟨7, 4, .ro, .none⟩, ⟨3, 0, .ro, .none⟩]⟩,
   ⟨.GLB_PRECHARGE_CFG, 0x0001C, 1, 0x0, 1, 0x0, false, 0x708003E8, [⟨31, 16, .rwl, .range 1 65535⟩, ⟨15, 0, .rwl, .range 1 65535⟩]⟩,
   ⟨.GLB_BOOT_STAT, 0x00020, 1, 0x0, 1, 0x0, false, 0x0, [⟨16, 16, .ro, .none⟩, ⟨15, 14, .ro, .none⟩, ⟨13, 12, .ro, .none⟩, ⟨11, 11, .ro, .none⟩, ⟨10, 10, .ro, .none⟩, ⟨9, 9, .ro, .none⟩, ⟨7, 0, .ro, .none⟩]⟩,
   ⟨.GLB_BOOT_CTL, 0x00024, 1, 0x0, 1, 0x0, true, 0x0, [⟨0, 0, .w1s, .none⟩]⟩,
   ⟨.GLB_BOOT_LEN, 0x00028, 1, 0x0, 1, 0x0, true, 0x0, [⟨23, 0, .rw, .range 0 8388608⟩]⟩,
   ⟨.GLB_IMAGE_VER, 0x0002C, 1, 0x0, 1, 0x0, false, 0x0, [⟨31, 0, .ro, .none⟩]⟩,
   ⟨.GLB_DIAG_CTL, 0x00030, 1, 0x0, 1, 0x0, false, 0x0, [⟨0, 0, .rw, .none⟩]⟩,
   ⟨.GLB_DIE_TEMP, 0x00400, 1, 0x0, 1, 0x0, false, 0x0, [⟨31, 31, .w1c, .none⟩, ⟨30, 30, .w1c, .none⟩, ⟨27, 16, .rc, .none⟩, ⟨11, 0, .ro, .none⟩]⟩,
   ⟨.GLB_RAIL_STAT, 0x00404, 1, 0x0, 1, 0x0, false, 0x7F, [⟨14, 8, .w1c, .none⟩, ⟨6, 0, .ro, .none⟩]⟩]

/-- The registers of block CLK. -/
def regsCLK : List RegDef :=
  [⟨.CLK_PLL_STAT, 0x10000, 1, 0x0, 1, 0x0, false, 0x0, [⟨12, 12, .ro, .none⟩, ⟨11, 11, .w1c, .none⟩, ⟨10, 10, .w1c, .none⟩, ⟨9, 9, .ro, .none⟩, ⟨8, 8, .ro, .none⟩, ⟨5, 5, .w1c, .none⟩, ⟨4, 4, .ro, .none⟩, ⟨1, 1, .w1c, .none⟩, ⟨0, 0, .ro, .none⟩]⟩]

/-- The registers of block NCL. -/
def regsNCL : List RegDef :=
  [⟨.NCL_LCTL, 0xA0000, 48, 0x400, 1, 0x0, false, 0x1, [⟨7, 0, .rw, .special⟩]⟩,
   ⟨.NCL_LSTAT, 0xA0004, 48, 0x400, 1, 0x0, false, 0x0, [⟨31, 30, .ro, .none⟩, ⟨29, 23, .ro, .none⟩, ⟨22, 16, .ro, .none⟩, ⟨15, 9, .ro, .none⟩, ⟨8, 5, .ro, .none⟩, ⟨4, 4, .w1c, .none⟩, ⟨3, 3, .ro, .none⟩, ⟨2, 2, .w1c, .none⟩, ⟨1, 1, .w1c, .none⟩, ⟨0, 0, .w1c, .none⟩]⟩,
   ⟨.NCL_ERRCNT, 0xA0008, 48, 0x400, 1, 0x0, false, 0x0, [⟨31, 16, .rc, .none⟩, ⟨15, 0, .rc, .none⟩]⟩,
   ⟨.NCL_PATH_D, 0xA000C, 48, 0x400, 1, 0x0, false, 0x0, [⟨19, 0, .ro, .none⟩]⟩,
   ⟨.NCL_PATH_R, 0xA0010, 48, 0x400, 1, 0x0, false, 0x0, [⟨19, 0, .ro, .none⟩]⟩,
   ⟨.NCL_SEG, 0xA00C0, 48, 0x400, 65, 0x4, false, 0x0, [⟨15, 0, .rwl, .none⟩]⟩,
   ⟨.NCL_ASSIGN, 0xA0200, 48, 0x400, 64, 0x8, false, 0x0, [⟨31, 31, .ro, .none⟩, ⟨19, 0, .ro, .none⟩]⟩,
   ⟨.NCL_ASSIGN_W, 0xA0204, 48, 0x400, 64, 0x8, false, 0x0, [⟨31, 31, .ro, .none⟩, ⟨19, 0, .ro, .none⟩]⟩,
   ⟨.NCL_GCFG, 0xAC000, 1, 0x0, 1, 0x0, false, 0x3, [⟨8, 8, .rwl, .none⟩, ⟨3, 0, .rwl, .range 2 8⟩]⟩,
   ⟨.NCL_CELL_LIMIT, 0xAC004, 1, 0x0, 1, 0x0, false, 0xFA00FA0, [⟨31, 16, .rwl, .range 100 20000⟩, ⟨15, 0, .rwl, .range 100 20000⟩]⟩]

/-- The registers of block LPHY. -/
def regsLPHY : List RegDef :=
  [⟨.LPHY_STAT, 0xC0000, 50, 0x400, 1, 0x0, false, 0x0, [⟨31, 24, .ro, .none⟩, ⟨13, 13, .ro, .none⟩, ⟨12, 12, .ro, .none⟩, ⟨11, 11, .w1c, .none⟩, ⟨10, 10, .w1c, .none⟩, ⟨9, 9, .w1c, .none⟩, ⟨8, 8, .w1c, .none⟩, ⟨4, 4, .ro, .none⟩, ⟨3, 3, .ro, .none⟩, ⟨2, 0, .ro, .none⟩]⟩,
   ⟨.LPHY_FOM, 0xC0004, 50, 0x400, 1, 0x0, false, 0x0, [⟨29, 24, .ro, .none⟩, ⟨21, 16, .ro, .none⟩, ⟨14, 8, .ro, .none⟩, ⟨7, 0, .ro, .none⟩]⟩,
   ⟨.LPHY_ERRCNT, 0xC0008, 50, 0x400, 1, 0x0, false, 0x0, [⟨31, 16, .rc, .none⟩, ⟨15, 0, .rc, .none⟩]⟩,
   ⟨.LPHY_RMCNT, 0xC000C, 50, 0x400, 1, 0x0, false, 0x0, [⟨31, 16, .rc, .none⟩, ⟨15, 0, .rc, .none⟩]⟩,
   ⟨.LPHY_EQ_TX, 0xC0010, 50, 0x400, 1, 0x0, false, 0x83000, [⟨20, 16, .rwl, .none⟩, ⟨13, 8, .rwl, .special⟩, ⟨3, 0, .rwl, .none⟩]⟩,
   ⟨.LPHY_EQ_RX, 0xC0014, 50, 0x400, 1, 0x0, false, 0x6, [⟨21, 16, .rwl, .none⟩, ⟨13, 8, .rwl, .none⟩, ⟨3, 0, .rwl, .none⟩]⟩,
   ⟨.LPHY_DIAG, 0xC0020, 50, 0x400, 1, 0x0, false, 0x10000, [⟨24, 24, .rw, .none⟩, ⟨22, 16, .rw, .range 1 64⟩, ⟨13, 13, .w1s, .none⟩, ⟨12, 12, .w1s, .none⟩, ⟨8, 8, .rw, .none⟩, ⟨6, 4, .rw, .els 3 0⟩, ⟨2, 0, .rw, .special⟩]⟩,
   ⟨.LPHY_PAT_USER_LO, 0xC0024, 50, 0x400, 1, 0x0, false, 0x0, [⟨31, 0, .rw, .none⟩]⟩,
   ⟨.LPHY_PAT_USER_HI, 0xC0028, 50, 0x400, 1, 0x0, false, 0x0, [⟨31, 0, .rw, .none⟩]⟩,
   ⟨.LPHY_CHK_ERR, 0xC002C, 50, 0x400, 1, 0x0, false, 0x0, [⟨31, 0, .rc, .none⟩]⟩,
   ⟨.LPHY_CHK_BITS_LO, 0xC0030, 50, 0x400, 1, 0x0, false, 0x0, [⟨31, 0, .snap, .none⟩]⟩,
   ⟨.LPHY_CHK_BITS_HI, 0xC0034, 50, 0x400, 1, 0x0, false, 0x0, [⟨31, 0, .snap, .none⟩]⟩,
   ⟨.LPHY_TRAIN_CFG, 0xCD000, 1, 0x0, 1, 0x0, false, 0x8, [⟨7, 0, .rwl, .range 1 255⟩]⟩,
   ⟨.LPHY_EQ_ID, 0xCD004, 1, 0x0, 1, 0x0, false, 0x0, [⟨31, 0, .rwl, .none⟩]⟩,
   ⟨.LPHY_MIR_STAT, 0xCD008, 1, 0x0, 1, 0x0, false, 0x0, [⟨15, 8, .ro, .none⟩, ⟨3, 3, .w1c, .none⟩, ⟨2, 2, .w1c, .none⟩, ⟨1, 1, .ro, .none⟩, ⟨0, 0, .ro, .none⟩]⟩]

/-- The registers of block WIN. -/
def regsWIN : List RegDef :=
  [⟨.WIN_CFG, 0x80000, 1, 0x0, 1, 0x0, false, 0x2, [⟨8, 8, .rwl, .none⟩, ⟨3, 0, .rwl, .range 1 8⟩]⟩,
   ⟨.WIN_TALLY_CFG, 0x80004, 1, 0x0, 1, 0x0, false, 0x84400100, [⟨31, 31, .rwl, .none⟩, ⟨27, 24, .rwl, .range 0 12⟩, ⟨23, 16, .rwl, .range 1 255⟩, ⟨15, 0, .rwl, .range 1 65535⟩]⟩,
   ⟨.WIN_DRIFT, 0x80008, 1, 0x0, 1, 0x0, false, 0x14, [⟨7, 0, .rwl, .range 3 50⟩]⟩,
   ⟨.WIN_SEL_BASE, 0x80010, 1, 0x0, 1, 0x0, false, 0x0, [⟨25, 12, .rwl, .none⟩, ⟨0, 0, .rwl, .none⟩]⟩,
   ⟨.WIN_RANK_BASE, 0x80014, 1, 0x0, 1, 0x0, false, 0x0, [⟨25, 14, .rwl, .none⟩]⟩,
   ⟨.WIN_ARM_CFG, 0x80100, 12, 0x4, 1, 0x0, false, 0x400, [⟨31, 31, .rwl, .none⟩, ⟨25, 16, .rwl, .range 0 512⟩, ⟨11, 8, .rwl, .range 0 8⟩, ⟨2, 0, .rwl, .range 0 5⟩]⟩,
   ⟨.WIN_ARM_PEN, 0x80140, 12, 0x4, 1, 0x0, false, 0x64000100, [⟨31, 24, .rwl, .none⟩, ⟨23, 16, .rwl, .none⟩, ⟨15, 0, .rwl, .none⟩]⟩,
   ⟨.WIN_ARM_STAT, 0x80180, 12, 0x4, 1, 0x0, false, 0x0, [⟨31, 16, .ro, .none⟩, ⟨9, 0, .ro, .none⟩]⟩,
   ⟨.WIN_ARM_CNT, 0x801C0, 12, 0x4, 1, 0x0, false, 0x0, [⟨29, 20, .ro, .none⟩, ⟨19, 10, .ro, .none⟩, ⟨9, 0, .ro, .none⟩]⟩,
   ⟨.WIN_ARM_FLAGS, 0x80200, 12, 0x4, 1, 0x0, false, 0x0, [⟨18, 16, .ro, .none⟩, ⟨15, 8, .ro, .none⟩, ⟨6, 6, .w1c, .none⟩, ⟨5, 5, .w1c, .none⟩, ⟨4, 4, .w1c, .none⟩, ⟨3, 3, .w1c, .none⟩, ⟨2, 2, .w1c, .none⟩, ⟨1, 1, .w1c, .none⟩, ⟨0, 0, .w1c, .none⟩]⟩,
   ⟨.WIN_UNIT_STAT, 0x80240, 6, 0x4, 1, 0x0, false, 0x0, [⟨31, 16, .rc, .none⟩, ⟨15, 0, .ro, .none⟩]⟩,
   ⟨.WIN_CELL_TALLY, 0x84000, 3072, 0x4, 1, 0x0, false, 0x0, [⟨31, 31, .ro, .none⟩, ⟨23, 0, .rwl, .none⟩]⟩,
   ⟨.WIN_CELL_STAT, 0x88000, 3072, 0x4, 1, 0x0, false, 0xC01, [⟨11, 10, .ro, .none⟩, ⟨9, 9, .w1s, .none⟩, ⟨8, 8, .rw, .none⟩, ⟨7, 4, .ro, .none⟩, ⟨3, 0, .ro, .none⟩]⟩]

/-- The registers of block EDG. -/
def regsEDG : List RegDef :=
  [⟨.EDG_CFG, 0x90000, 1, 0x0, 1, 0x0, false, 0x0, [⟨0, 0, .rwl, .none⟩]⟩,
   ⟨.EDG_OC_CFG, 0x90004, 1, 0x0, 1, 0x0, false, 0x3, [⟨7, 0, .rwl, .range 1 255⟩]⟩,
   ⟨.EDG_ARM_STAT, 0x90100, 12, 0x4, 1, 0x0, false, 0x0, [⟨31, 24, .rc, .none⟩, ⟨23, 16, .rc, .none⟩, ⟨15, 8, .rc, .none⟩, ⟨7, 0, .rc, .none⟩]⟩,
   ⟨.EDG_ARM_FLAGS, 0x90140, 12, 0x4, 1, 0x0, false, 0x0, [⟨1, 1, .w1c, .none⟩, ⟨0, 0, .w1c, .none⟩]⟩,
   ⟨.EDG_PWM_CTL, 0x91000, 16, 0x40, 1, 0x0, false, 0x0, [⟨31, 24, .rw, .none⟩, ⟨23, 20, .rw, .none⟩, ⟨19, 19, .rw, .none⟩, ⟨17, 16, .rw, .special⟩, ⟨13, 12, .rw, .none⟩, ⟨8, 8, .rw, .none⟩, ⟨4, 4, .rw, .none⟩, ⟨3, 3, .rw, .none⟩, ⟨2, 2, .rw, .none⟩, ⟨1, 1, .rw, .none⟩, ⟨0, 0, .rw, .none⟩]⟩,
   ⟨.EDG_PWM_PER, 0x91004, 16, 0x40, 1, 0x0, false, 0x1, [⟨23, 0, .rw, .range 1 16777215⟩]⟩,
   ⟨.EDG_PWM_ON, 0x91008, 16, 0x40, 1, 0x0, false, 0x0, [⟨28, 5, .rw, .none⟩, ⟨4, 0, .rw, .none⟩]⟩,
   ⟨.EDG_PWM_OFF, 0x9100C, 16, 0x40, 1, 0x0, false, 0x0, [⟨28, 5, .rw, .none⟩, ⟨4, 0, .rw, .none⟩]⟩,
   ⟨.EDG_PWM_DT, 0x91010, 16, 0x40, 1, 0x0, false, 0x0, [⟨31, 16, .rw, .none⟩, ⟨15, 0, .rw, .none⟩]⟩,
   ⟨.EDG_PWM_PHASE, 0x91014, 16, 0x40, 1, 0x0, false, 0x0, [⟨23, 0, .rw, .special⟩]⟩,
   ⟨.EDG_PWM_STAT, 0x91018, 16, 0x40, 1, 0x0, false, 0x0, [⟨31, 16, .rc, .none⟩, ⟨3, 3, .ro, .none⟩, ⟨2, 2, .ro, .none⟩, ⟨1, 1, .ro, .none⟩, ⟨0, 0, .ro, .none⟩]⟩,
   ⟨.EDG_PWM_COMMIT, 0x91400, 1, 0x0, 1, 0x0, true, 0x0, [⟨15, 0, .w1s, .none⟩]⟩,
   ⟨.EDG_FLT_CFG, 0x91800, 8, 0x4, 1, 0x0, false, 0x1000000, [⟨31, 24, .rw, .range 1 255⟩, ⟨23, 16, .rw, .none⟩, ⟨15, 8, .rw, .none⟩, ⟨7, 4, .rw, .none⟩, ⟨3, 2, .rw, .els 2 1⟩, ⟨1, 0, .rw, .els 2 0⟩]⟩,
   ⟨.EDG_FLT_STAT, 0x91820, 8, 0x4, 1, 0x0, false, 0x0, [⟨31, 31, .wo, .none⟩, ⟨23, 16, .rw, .none⟩, ⟨15, 8, .ro, .none⟩, ⟨2, 2, .ro, .none⟩, ⟨1, 1, .ro, .none⟩, ⟨0, 0, .ro, .none⟩]⟩,
   ⟨.EDG_ZC, 0x91840, 2, 0x4, 1, 0x0, false, 0x0, [⟨31, 16, .rw, .none⟩, ⟨15, 8, .rw, .none⟩, ⟨4, 0, .rw, .range 0 23⟩]⟩,
   ⟨.EDG_MASK_LEN, 0x91848, 1, 0x0, 1, 0x0, false, 0x0, [⟨31, 16, .rw, .none⟩, ⟨15, 0, .rw, .none⟩]⟩,
   ⟨.EDG_MASK_SW, 0x9184C, 1, 0x0, 1, 0x0, false, 0x0, [⟨3, 0, .rw, .none⟩]⟩,
   ⟨.EDG_DL_STAT, 0x91900, 1, 0x0, 1, 0x0, false, 0x0, [⟨31, 31, .w1c, .none⟩, ⟨30, 24, .ro, .none⟩, ⟨23, 8, .ro, .none⟩, ⟨7, 0, .ro, .none⟩]⟩,
   ⟨.EDG_SYNC_CFG, 0x91A00, 1, 0x0, 1, 0x0, false, 0x80000, [⟨31, 31, .rw, .none⟩, ⟨30, 30, .rw, .none⟩, ⟨25, 16, .rw, .range 8 1000⟩, ⟨15, 0, .rw, .none⟩]⟩,
   ⟨.EDG_SYNC_CAP, 0x91A04, 1, 0x0, 1, 0x0, false, 0x0, [⟨31, 31, .w1c, .none⟩, ⟨30, 0, .ro, .none⟩]⟩,
   ⟨.EDG_CELL_OC, 0x94000, 3072, 0x4, 1, 0x0, false, 0x0, [⟨31, 31, .wo, .none⟩, ⟨8, 8, .ro, .none⟩, ⟨7, 0, .ro, .none⟩]⟩]

/-- The registers of block ENG. -/
def regsENG : List RegDef :=
  [⟨.ENG_STAT, 0x60000, 12, 0x1000, 1, 0x0, false, 0x0, [⟨29, 16, .ro, .none⟩, ⟨15, 8, .ro, .none⟩, ⟨2, 0, .ro, .none⟩]⟩,
   ⟨.ENG_TASK, 0x60004, 12, 0x1000, 1, 0x0, false, 0xFF, [⟨29, 16, .ro, .none⟩, ⟨7, 0, .ro, .none⟩]⟩,
   ⟨.ENG_PM_ADDR, 0x60010, 12, 0x1000, 1, 0x0, false, 0x0, [⟨13, 0, .rw, .none⟩]⟩,
   ⟨.ENG_PM_DATA, 0x60014, 12, 0x1000, 1, 0x0, false, 0x0, [⟨31, 0, .rwl, .none⟩]⟩,
   ⟨.ENG_DM_ADDR, 0x60018, 12, 0x1000, 1, 0x0, false, 0x0, [⟨31, 31, .rw, .none⟩, ⟨14, 2, .rw, .none⟩]⟩,
   ⟨.ENG_DM_DATA, 0x6001C, 12, 0x1000, 1, 0x0, false, 0x0, [⟨31, 0, .rw, .none⟩]⟩,
   ⟨.ENG_COEF_WIN, 0x60020, 12, 0x1000, 1, 0x0, false, 0x0, [⟨31, 16, .rw, .special⟩, ⟨14, 2, .rw, .none⟩]⟩,
   ⟨.ENG_COEF_GEN, 0x60024, 12, 0x1000, 1, 0x0, false, 0x0, [⟨31, 31, .wo, .none⟩, ⟨30, 30, .wo, .none⟩, ⟨29, 29, .ro, .none⟩, ⟨28, 28, .w1c, .none⟩, ⟨15, 0, .ro, .none⟩]⟩,
   ⟨.ENG_TBL, 0x60030, 12, 0x1000, 4, 0x4, false, 0x40000, [⟨31, 31, .rw, .none⟩, ⟨19, 16, .rw, .range 4 12⟩, ⟨14, 1, .rw, .none⟩]⟩,
   ⟨.ENG_ARITH, 0x60040, 12, 0x1000, 1, 0x0, false, 0x0, [⟨31, 16, .rc, .none⟩, ⟨15, 0, .rc, .none⟩]⟩,
   ⟨.ENG_ECC, 0x60044, 12, 0x1000, 1, 0x0, false, 0x0, [⟨31, 16, .rc, .none⟩, ⟨15, 0, .rc, .none⟩]⟩,
   ⟨.ENG_INJ_CTL, 0x60100, 12, 0x1000, 1, 0x0, false, 0x100, [⟨16, 16, .rw, .none⟩, ⟨15, 8, .rw, .range 1 255⟩, ⟨7, 4, .rw, .none⟩, ⟨2, 1, .rw, .els 2 0⟩, ⟨0, 0, .rw, .none⟩]⟩,
   ⟨.ENG_INJ_AMP, 0x60104, 12, 0x1000, 1, 0x0, false, 0x0, [⟨15, 0, .rw, .range 0 32767⟩]⟩,
   ⟨.ENG_INJ_PRBS, 0x60108, 12, 0x1000, 1, 0x0, false, 0x100, [⟨15, 8, .rw, .range 1 255⟩, ⟨1, 0, .rw, .els 2 0⟩]⟩,
   ⟨.ENG_INJ_F0, 0x6010C, 12, 0x1000, 1, 0x0, false, 0x0, [⟨31, 0, .rw, .none⟩]⟩,
   ⟨.ENG_INJ_DF, 0x60110, 12, 0x1000, 1, 0x0, false, 0x0, [⟨31, 0, .rw, .none⟩]⟩,
   ⟨.ENG_INJ_LEN, 0x60114, 12, 0x1000, 1, 0x0, false, 0x1, [⟨23, 0, .rw, .range 1 16777215⟩]⟩,
   ⟨.ENG_INJ_STAT, 0x60118, 12, 0x1000, 1, 0x0, false, 0x0, [⟨31, 16, .ro, .none⟩, ⟨2, 2, .w1c, .none⟩, ⟨1, 1, .ro, .none⟩, ⟨0, 0, .ro, .none⟩]⟩,
   ⟨.ENG_CAP_BASE, 0x60120, 12, 0x1000, 1, 0x0, false, 0x0, [⟨25, 3, .rw, .none⟩]⟩,
   ⟨.ENG_CAP_CTL, 0x60124, 12, 0x1000, 1, 0x0, false, 0x80000, [⟨20, 16, .rw, .range 8 20⟩, ⟨1, 1, .rw, .none⟩, ⟨0, 0, .rw, .none⟩]⟩,
   ⟨.ENG_CAP_IDX, 0x60128, 12, 0x1000, 1, 0x0, false, 0x0, [⟨31, 31, .w1c, .none⟩, ⟨19, 0, .ro, .none⟩]⟩,
   ⟨.ENG_TONE_F, 0x60200, 12, 0x1000, 32, 0x8, false, 0x0, [⟨31, 0, .rw, .none⟩]⟩,
   ⟨.ENG_TONE_A, 0x60204, 12, 0x1000, 32, 0x8, false, 0x0, [⟨31, 16, .rw, .none⟩, ⟨15, 0, .rw, .range 0 32767⟩]⟩]

/-- The registers of block SCH. -/
def regsSCH : List RegDef :=
  [⟨.SCH_CFG, 0x50000, 1, 0x0, 1, 0x0, false, 0x2, [⟨3, 0, .rwl, .range 1 15⟩]⟩,
   ⟨.SCH_STAT, 0x50004, 1, 0x0, 1, 0x0, false, 0x0, [⟨21, 21, .w1c, .none⟩, ⟨20, 16, .ro, .none⟩, ⟨5, 0, .ro, .none⟩]⟩,
   ⟨.SCH_OVR_CNT, 0x50008, 1, 0x0, 1, 0x0, false, 0x0, [⟨15, 0, .rc, .none⟩]⟩,
   ⟨.SCH_EVT_RAISE, 0x5000C, 1, 0x0, 1, 0x0, true, 0x0, [⟨7, 0, .wo, .none⟩]⟩,
   ⟨.SCH_FATAL, 0x50010, 1, 0x0, 1, 0x0, false, 0xA000000, [⟨31, 24, .rwl, .range 1 255⟩, ⟨2, 0, .ro, .none⟩]⟩,
   ⟨.SCH_ENG_CFG, 0x50100, 12, 0x20, 1, 0x0, false, 0x600FF, [⟨20, 16, .rw, .range 6 16⟩, ⟨9, 8, .rw, .els 2 0⟩, ⟨7, 0, .rw, .special⟩]⟩,
   ⟨.SCH_TRACE_BASE, 0x50104, 12, 0x20, 1, 0x0, false, 0x0, [⟨25, 4, .rw, .special⟩]⟩,
   ⟨.SCH_TRACE_IDX, 0x50108, 12, 0x20, 1, 0x0, false, 0x0, [⟨31, 16, .rc, .none⟩, ⟨15, 0, .ro, .none⟩]⟩,
   ⟨.SCH_LOAD, 0x5010C, 12, 0x20, 1, 0x0, false, 0x0, [⟨31, 16, .rc, .none⟩, ⟨15, 0, .ro, .none⟩]⟩,
   ⟨.SCH_DEPTH, 0x50110, 12, 0x20, 1, 0x0, false, 0x0, [⟨31, 16, .rc, .none⟩, ⟨15, 0, .ro, .none⟩]⟩,
   ⟨.SCH_HIST, 0x50400, 12, 0x40, 16, 0x4, false, 0x0, [⟨31, 0, .rc, .none⟩]⟩,
   ⟨.SCH_TC_CFG, 0x51000, 192, 0x20, 1, 0x0, false, 0x0, [⟨31, 31, .rwl, .none⟩, ⟨30, 30, .rwl, .none⟩, ⟨26, 24, .rwl, .none⟩, ⟨21, 20, .rwl, .special⟩, ⟨7, 0, .rwl, .none⟩]⟩,
   ⟨.SCH_TC_REL, 0x51004, 192, 0x20, 1, 0x0, false, 0x1000000, [⟨31, 24, .rwl, .range 1 255⟩, ⟨23, 16, .rwl, .special⟩, ⟨11, 0, .rwl, .none⟩]⟩,
   ⟨.SCH_TC_ENTRY, 0x51008, 192, 0x20, 1, 0x0, false, 0x0, [⟨13, 0, .rwl, .none⟩]⟩,
   ⟨.SCH_TC_ARG, 0x5100C, 192, 0x20, 1, 0x0, false, 0x0, [⟨25, 0, .rwl, .none⟩]⟩,
   ⟨.SCH_TC_STAT, 0x51010, 192, 0x20, 1, 0x0, false, 0x0, [⟨31, 16, .rc, .none⟩, ⟨4, 4, .w1c, .none⟩, ⟨2, 0, .ro, .none⟩]⟩,
   ⟨.SCH_CTX, 0x54000, 192, 0x100, 64, 0x4, false, 0x0, [⟨31, 0, .ro, .none⟩]⟩]

/-- The registers of block ADC. -/
def regsADC : List RegDef :=
  [⟨.ADC_CFG, 0xE0000, 1, 0x0, 1, 0x0, false, 0x2, [⟨1, 1, .rwl, .none⟩, ⟨0, 0, .rwl, .none⟩]⟩,
   ⟨.ADC_CAL, 0xE0004, 1, 0x0, 1, 0x0, false, 0x10A, [⟨8, 8, .rwl, .none⟩, ⟨7, 0, .rwl, .range 1 255⟩]⟩,
   ⟨.ADC_STAT, 0xE0008, 1, 0x0, 1, 0x0, false, 0x7, [⟨31, 16, .ro, .none⟩, ⟨3, 3, .w1c, .none⟩, ⟨2, 0, .ro, .none⟩]⟩,
   ⟨.ADC_SNAP_BASE, 0xE000C, 1, 0x0, 1, 0x0, false, 0x0, [⟨25, 8, .rwl, .none⟩, ⟨0, 0, .rwl, .none⟩]⟩,
   ⟨.ADC_OVR, 0xE0010, 1, 0x0, 1, 0x0, false, 0x0, [⟨23, 0, .w1c, .none⟩]⟩,
   ⟨.ADC_LIM_ACT0, 0xE0014, 1, 0x0, 1, 0x0, false, 0x0, [⟨23, 0, .ro, .none⟩]⟩,
   ⟨.ADC_LIM_ACT1, 0xE0018, 1, 0x0, 1, 0x0, false, 0x0, [⟨23, 0, .ro, .none⟩]⟩,
   ⟨.ADC_LIM_HIT0, 0xE001C, 1, 0x0, 1, 0x0, false, 0x0, [⟨23, 0, .w1c, .none⟩]⟩,
   ⟨.ADC_LIM_HIT1, 0xE0020, 1, 0x0, 1, 0x0, false, 0x0, [⟨23, 0, .w1c, .none⟩]⟩,
   ⟨.ADC_URG_REQ, 0xE0024, 1, 0x0, 1, 0x0, true, 0x0, [⟨3, 0, .w1s, .none⟩]⟩,
   ⟨.ADC_CH_CFG, 0xE0040, 24, 0x4, 1, 0x0, false, 0x0, [⟨5, 4, .rwl, .none⟩, ⟨0, 0, .rwl, .none⟩]⟩,
   ⟨.ADC_RES_LO, 0xE0100, 24, 0x8, 1, 0x0, false, 0x0, [⟨22, 20, .snap, .none⟩, ⟨18, 18, .snap, .none⟩, ⟨17, 17, .snap, .none⟩, ⟨16, 16, .snap, .none⟩, ⟨15, 0, .snap, .none⟩]⟩,
   ⟨.ADC_RES_HI, 0xE0104, 24, 0x8, 1, 0x0, false, 0x0, [⟨29, 0, .snap, .none⟩]⟩,
   ⟨.ADC_LIM, 0xE0200, 24, 0x8, 2, 0x4, false, 0x10000, [⟨31, 31, .rwl, .none⟩, ⟨30, 30, .rwl, .none⟩, ⟨29, 24, .rwl, .none⟩, ⟨23, 16, .rwl, .range 1 255⟩, ⟨15, 0, .rwl, .none⟩]⟩,
   ⟨.ADC_URG_CFG, 0xE0300, 4, 0x10, 1, 0x0, false, 0x0, [⟨31, 31, .rw, .none⟩, ⟨17, 16, .rw, .els 2 0⟩, ⟨11, 8, .rw, .none⟩, ⟨4, 0, .rw, .range 0 23⟩]⟩,
   ⟨.ADC_URG_RES_LO, 0xE0304, 4, 0x10, 1, 0x0, false, 0x0, [⟨22, 20, .snap, .none⟩, ⟨18, 18, .snap, .none⟩, ⟨17, 17, .snap, .none⟩, ⟨16, 16, .snap, .none⟩, ⟨15, 0, .snap, .none⟩]⟩,
   ⟨.ADC_URG_RES_HI, 0xE0308, 4, 0x10, 1, 0x0, false, 0x0, [⟨29, 0, .snap, .none⟩]⟩,
   ⟨.ADC_URG_CNT, 0xE030C, 4, 0x10, 1, 0x0, false, 0x0, [⟨31, 16, .rc, .none⟩, ⟨15, 0, .rc, .none⟩]⟩]

/-- The registers of block REC. -/
def regsREC : List RegDef :=
  [⟨.REC_EVT_MATCH, 0xE8000, 1, 0x0, 1, 0x0, false, 0x0, [⟨31, 31, .rw, .none⟩, ⟨15, 0, .rw, .none⟩]⟩,
   ⟨.REC_CH, 0xE8010, 8, 0x4, 1, 0x0, false, 0x0, [⟨31, 31, .rw, .none⟩, ⟨30, 30, .rw, .none⟩, ⟨29, 24, .rw, .none⟩, ⟨4, 0, .rw, .range 0 23⟩]⟩,
   ⟨.REC_TRIGIN, 0xE8040, 4, 0x4, 1, 0x0, false, 0x1, [⟨31, 31, .rw, .none⟩, ⟨30, 30, .rw, .none⟩, ⟨15, 0, .rw, .range 1 65535⟩]⟩,
   ⟨.REC_TRIGIN_STAT, 0xE8050, 4, 0x4, 1, 0x0, false, 0x0, [⟨31, 16, .rc, .none⟩, ⟨1, 1, .ro, .none⟩, ⟨0, 0, .ro, .none⟩]⟩,
   ⟨.REC_TB_CFG, 0xE8060, 1, 0x0, 1, 0x0, false, 0x0, [⟨31, 31, .rw, .none⟩, ⟨30, 30, .rw, .none⟩, ⟨2, 0, .rw, .special⟩]⟩,
   ⟨.REC_TB_STAT, 0xE8064, 1, 0x0, 1, 0x0, false, 0x0, [⟨31, 24, .ro, .none⟩, ⟨23, 16, .ro, .none⟩, ⟨15, 8, .ro, .none⟩, ⟨3, 3, .w1c, .none⟩, ⟨2, 2, .w1c, .none⟩, ⟨1, 1, .w1c, .none⟩, ⟨0, 0, .ro, .none⟩]⟩,
   ⟨.REC_TB_CNT, 0xE8068, 1, 0x0, 1, 0x0, false, 0x0, [⟨31, 16, .rc, .none⟩, ⟨15, 0, .rc, .none⟩]⟩,
   ⟨.REC_SILO_BASE, 0xE8100, 4, 0x40, 1, 0x0, false, 0x1, [⟨25, 16, .rw, .none⟩, ⟨9, 0, .rw, .range 1 768⟩]⟩,
   ⟨.REC_SILO_CFG, 0xE8104, 4, 0x40, 1, 0x0, false, 0x190000, [⟨31, 16, .rw, .range 2 65535⟩, ⟨15, 10, .rw, .range 0 47⟩, ⟨9, 6, .rw, .special⟩, ⟨5, 3, .rw, .none⟩, ⟨2, 2, .rw, .none⟩, ⟨1, 0, .rw, .els 2 0⟩]⟩,
   ⟨.REC_SILO_PRE, 0xE8108, 4, 0x40, 1, 0x0, false, 0x0, [⟨23, 0, .rw, .none⟩]⟩,
   ⟨.REC_SILO_POST, 0xE810C, 4, 0x40, 1, 0x0, false, 0x1, [⟨23, 0, .rw, .range 1 16777215⟩]⟩,
   ⟨.REC_SILO_TRIG, 0xE8110, 4, 0x40, 1, 0x0, false, 0x0, [⟨15, 0, .rw, .none⟩]⟩,
   ⟨.REC_SILO_CTL, 0xE8114, 4, 0x40, 1, 0x0, true, 0x0, [⟨31, 31, .rw, .none⟩, ⟨3, 3, .w1s, .none⟩, ⟨2, 2, .w1s, .none⟩, ⟨1, 1, .w1s, .none⟩, ⟨0, 0, .w1s, .none⟩]⟩,
   ⟨.REC_SILO_STAT, 0xE8118, 4, 0x40, 1, 0x0, false, 0x0, [⟨31, 16, .rc, .none⟩, ⟨15, 8, .ro, .none⟩, ⟨4, 4, .w1c, .none⟩, ⟨2, 0, .ro, .none⟩]⟩,
   ⟨.REC_SILO_CAP, 0xE811C, 4, 0x40, 1, 0x0, false, 0x0, [⟨23, 0, .ro, .none⟩]⟩,
   ⟨.REC_SILO_IDX, 0xE8120, 4, 0x40, 1, 0x0, false, 0x0, [⟨23, 0, .ro, .none⟩]⟩]

/-- The registers of block SAF. -/
def regsSAF : List RegDef :=
  [⟨.SAF_STAT, 0x20000, 1, 0x0, 1, 0x0, false, 0x0, [⟨17, 17, .ro, .none⟩, ⟨16, 16, .ro, .none⟩, ⟨15, 15, .ro, .none⟩, ⟨14, 14, .ro, .none⟩, ⟨13, 13, .ro, .none⟩, ⟨12, 12, .ro, .none⟩, ⟨11, 11, .ro, .none⟩, ⟨10, 10, .ro, .none⟩, ⟨9, 9, .ro, .none⟩, ⟨8, 8, .ro, .none⟩, ⟨7, 0, .ro, .none⟩]⟩,
   ⟨.SAF_LATCH, 0x20004, 1, 0x0, 1, 0x0, false, 0x0, [⟨11, 8, .w1c, .none⟩, ⟨7, 0, .w1c, .none⟩]⟩,
   ⟨.SAF_TEST_STAT, 0x20008, 1, 0x0, 1, 0x0, false, 0x0, [⟨31, 16, .rc, .none⟩, ⟨7, 0, .ro, .none⟩]⟩,
   ⟨.SAF_RESET_STAT, 0x2000C, 1, 0x0, 1, 0x0, false, 0x0, [⟨31, 24, .rc, .none⟩, ⟨23, 16, .rc, .none⟩, ⟨15, 8, .ro, .none⟩, ⟨2, 2, .w1c, .none⟩, ⟨1, 1, .ro, .none⟩, ⟨0, 0, .ro, .none⟩]⟩,
   ⟨.SAF_IN_CFG, 0x20010, 4, 0x4, 1, 0x0, false, 0x1, [⟨1, 1, .rwl, .none⟩, ⟨0, 0, .rwl, .none⟩]⟩,
   ⟨.SAF_TEST_CFG, 0x20020, 1, 0x0, 1, 0x0, false, 0x80000A0A, [⟨31, 31, .rwl, .none⟩, ⟨15, 8, .rwl, .range 2 50⟩, ⟨7, 0, .rwl, .none⟩]⟩,
   ⟨.SAF_TM_MASK0, 0x20024, 1, 0x0, 1, 0x0, false, 0x0, [⟨23, 0, .rwl, .none⟩]⟩,
   ⟨.SAF_TM_MASK1, 0x20028, 1, 0x0, 1, 0x0, false, 0x0, [⟨23, 0, .rwl, .none⟩]⟩,
   ⟨.SAF_CHECK, 0x20040, 1, 0x0, 1, 0x0, false, 0x0, [⟨31, 0, .ro, .none⟩]⟩,
   ⟨.SAF_CONFIRM, 0x20044, 1, 0x0, 1, 0x0, true, 0x0, [⟨31, 0, .wo, .none⟩]⟩,
   ⟨.SAF_CONF_CNT, 0x20048, 1, 0x0, 1, 0x0, false, 0x0, [⟨15, 0, .rc, .none⟩]⟩,
   ⟨.SAF_RET_CHECK, 0x2004C, 1, 0x0, 1, 0x0, false, 0x0, [⟨31, 0, .ro, .none⟩]⟩,
   ⟨.SAF_FAULT_HIST, 0x20050, 1, 0x0, 1, 0x0, false, 0x0, [⟨31, 16, .ro, .none⟩, ⟨15, 15, .wo, .none⟩, ⟨10, 10, .w1c, .none⟩, ⟨9, 9, .w1c, .none⟩, ⟨8, 8, .w1c, .none⟩, ⟨7, 7, .w1c, .none⟩, ⟨6, 6, .w1c, .none⟩, ⟨5, 5, .w1c, .none⟩, ⟨4, 4, .w1c, .none⟩, ⟨3, 3, .w1c, .none⟩, ⟨2, 2, .w1c, .none⟩, ⟨1, 1, .w1c, .none⟩, ⟨0, 0, .w1c, .none⟩]⟩,
   ⟨.SAF_TRIP_TS_LO, 0x20054, 1, 0x0, 1, 0x0, false, 0x0, [⟨29, 0, .snap, .none⟩]⟩,
   ⟨.SAF_TRIP_TS_HI, 0x20058, 1, 0x0, 1, 0x0, false, 0x0, [⟨31, 0, .snap, .none⟩]⟩,
   ⟨.SAF_TRIP_INFO, 0x2005C, 1, 0x0, 1, 0x0, false, 0x0, [⟨23, 16, .ro, .none⟩, ⟨15, 8, .ro, .none⟩, ⟨7, 4, .ro, .none⟩, ⟨3, 0, .ro, .none⟩]⟩,
   ⟨.SAF_RET_DATA, 0x20100, 64, 0x4, 1, 0x0, false, 0x0, [⟨31, 0, .ro, .none⟩]⟩]

/-- The registers of block RED. -/
def regsRED : List RegDef :=
  [⟨.RED_CFG, 0x30000, 1, 0x0, 1, 0x0, false, 0x321000, [⟨31, 31, .rwl, .none⟩, ⟨30, 30, .rwl, .none⟩, ⟨29, 29, .rwl, .none⟩, ⟨23, 16, .rwl, .range 1 255⟩, ⟨12, 8, .rwl, .range 1 31⟩]⟩,
   ⟨.RED_TIMING, 0x30004, 1, 0x0, 1, 0x0, false, 0x104, [⟨14, 0, .rwl, .range 120 20000⟩]⟩,
   ⟨.RED_ASYM, 0x30008, 1, 0x0, 1, 0x0, false, 0x0, [⟨15, 0, .rwl, .none⟩]⟩,
   ⟨.RED_MIR_BASE, 0x3000C, 1, 0x0, 1, 0x0, false, 0x0, [⟨25, 16, .rwl, .none⟩, ⟨0, 0, .rwl, .none⟩]⟩,
   ⟨.RED_CTL, 0x30010, 1, 0x0, 1, 0x0, true, 0x0, [⟨1, 1, .w1s, .none⟩, ⟨0, 0, .w1s, .none⟩]⟩,
   ⟨.RED_FWD_REQ, 0x30014, 1, 0x0, 1, 0x0, true, 0x0, [⟨3, 0, .wo, .none⟩]⟩,
   ⟨.RED_STAT, 0x30020, 1, 0x0, 1, 0x0, false, 0x0, [⟨31, 28, .ro, .none⟩, ⟨27, 26, .ro, .none⟩, ⟨25, 24, .ro, .none⟩, ⟨23, 23, .ro, .none⟩, ⟨22, 22, .ro, .none⟩, ⟨21, 21, .ro, .none⟩, ⟨20, 20, .ro, .none⟩, ⟨19, 19, .ro, .none⟩, ⟨18, 18, .ro, .none⟩, ⟨17, 17, .ro, .none⟩, ⟨16, 16, .ro, .none⟩, ⟨15, 15, .ro, .none⟩, ⟨14, 14, .ro, .none⟩, ⟨9, 0, .ro, .none⟩]⟩,
   ⟨.RED_FLAGS, 0x30024, 1, 0x0, 1, 0x0, false, 0x0, [⟨9, 9, .w1c, .none⟩, ⟨8, 8, .w1c, .none⟩, ⟨7, 7, .w1c, .none⟩, ⟨6, 6, .w1c, .none⟩, ⟨5, 5, .w1c, .none⟩, ⟨4, 4, .w1c, .none⟩, ⟨3, 3, .w1c, .none⟩, ⟨2, 2, .w1c, .none⟩, ⟨1, 1, .w1c, .none⟩, ⟨0, 0, .w1c, .none⟩]⟩,
   ⟨.RED_CNT, 0x30028, 1, 0x0, 1, 0x0, false, 0x0, [⟨31, 16, .rc, .none⟩, ⟨15, 0, .rc, .none⟩]⟩,
   ⟨.RED_CNT2, 0x3002C, 1, 0x0, 1, 0x0, false, 0x0, [⟨31, 16, .rc, .none⟩, ⟨15, 8, .rc, .none⟩, ⟨7, 0, .rc, .none⟩]⟩,
   ⟨.RED_DIGEST_LO, 0x30030, 1, 0x0, 1, 0x0, false, 0x0, [⟨31, 0, .snap, .none⟩]⟩,
   ⟨.RED_DIGEST_HI, 0x30034, 1, 0x0, 1, 0x0, false, 0x0, [⟨31, 0, .snap, .none⟩]⟩,
   ⟨.RED_PDIGEST_LO, 0x30038, 1, 0x0, 1, 0x0, false, 0x0, [⟨31, 0, .snap, .none⟩]⟩,
   ⟨.RED_PDIGEST_HI, 0x3003C, 1, 0x0, 1, 0x0, false, 0x0, [⟨31, 0, .snap, .none⟩]⟩,
   ⟨.RED_DIG_PERIOD, 0x30040, 1, 0x0, 1, 0x0, false, 0x0, [⟨31, 0, .ro, .none⟩]⟩,
   ⟨.RED_TF, 0x30044, 1, 0x0, 1, 0x0, false, 0x0, [⟨31, 0, .ro, .none⟩]⟩,
   ⟨.RED_MIR_DELAY, 0x30048, 1, 0x0, 1, 0x0, false, 0x0, [⟨19, 0, .ro, .none⟩]⟩,
   ⟨.RED_SIG, 0x3004C, 1, 0x0, 1, 0x0, false, 0x0, [⟨31, 0, .ro, .none⟩]⟩,
   ⟨.RED_PSIG, 0x30050, 1, 0x0, 1, 0x0, false, 0x0, [⟨31, 0, .ro, .none⟩]⟩]

/-- The registers of block HIF. -/
def regsHIF : List RegDef :=
  [⟨.HIF_CFG, 0x40000, 1, 0x0, 1, 0x0, false, 0x810, [⟨31, 31, .ro, .none⟩, ⟨15, 8, .rw, .range 1 255⟩, ⟨7, 0, .rw, .range 1 255⟩]⟩,
   ⟨.HIF_OWN_STAT, 0x40004, 1, 0x0, 1, 0x0, false, 0x3, [⟨31, 16, .ro, .none⟩, ⟨9, 8, .ro, .none⟩, ⟨7, 7, .w1c, .none⟩, ⟨6, 4, .ro, .none⟩, ⟨1, 0, .ro, .none⟩]⟩,
   ⟨.HIF_OWN_CTL, 0x40008, 1, 0x0, 1, 0x0, true, 0x3, [⟨31, 31, .w1s, .none⟩, ⟨1, 0, .rw, .none⟩]⟩,
   ⟨.HIF_OWN_CFG, 0x4000C, 1, 0x0, 1, 0x0, false, 0x0, [⟨15, 0, .rw, .none⟩]⟩,
   ⟨.HIF_ACC_CNT, 0x40010, 1, 0x0, 1, 0x0, false, 0x0, [⟨31, 16, .rc, .none⟩, ⟨15, 8, .rc, .none⟩, ⟨7, 0, .rc, .none⟩]⟩,
   ⟨.HIF_PORT_STAT, 0x40020, 2, 0x4, 1, 0x0, false, 0x0, [⟨31, 16, .rc, .none⟩, ⟨7, 4, .ro, .none⟩, ⟨3, 1, .ro, .none⟩, ⟨0, 0, .ro, .none⟩]⟩,
   ⟨.HIF_RING_BASE_LO, 0x40100, 2, 0x80, 5, 0x10, false, 0x0, [⟨31, 12, .rw, .special⟩]⟩,
   ⟨.HIF_RING_BASE_HI, 0x40104, 2, 0x80, 5, 0x10, false, 0x0, [⟨31, 0, .rw, .none⟩]⟩,
   ⟨.HIF_RING_CFG, 0x40108, 2, 0x80, 5, 0x10, false, 0x10000, [⟨31, 31, .rw, .none⟩, ⟨27, 24, .rw, .special⟩, ⟨23, 16, .rw, .special⟩, ⟨15, 0, .rw, .special⟩]⟩,
   ⟨.HIF_RING_STAT, 0x4010C, 2, 0x80, 5, 0x10, false, 0x0, [⟨31, 16, .rc, .none⟩, ⟨15, 0, .ro, .none⟩]⟩,
   ⟨.HIF_TEL_ARMS, 0x40200, 2, 0x4, 1, 0x0, false, 0x0, [⟨11, 0, .rw, .none⟩]⟩,
   ⟨.HIF_DUMP_CFG, 0x40300, 1, 0x0, 1, 0x0, false, 0x0, [⟨31, 31, .rwl, .none⟩, ⟨25, 15, .rwl, .none⟩]⟩,
   ⟨.HIF_DUMP_RGN, 0x40340, 8, 0x4, 1, 0x0, false, 0x0, [⟨27, 14, .rwl, .none⟩, ⟨11, 0, .rwl, .none⟩]⟩,
   ⟨.HIF_DMA_CTL, 0x40800, 16, 0x20, 1, 0x0, false, 0x0, [⟨31, 31, .rw, .none⟩, ⟨30, 30, .w1s, .none⟩, ⟨29, 29, .rw, .none⟩, ⟨28, 28, .rw, .none⟩, ⟨27, 24, .rw, .range 0 11⟩, ⟨23, 23, .rw, .special⟩]⟩,
   ⟨.HIF_DMA_HEAD_LO, 0x40804, 16, 0x20, 1, 0x0, false, 0x0, [⟨31, 5, .rw, .none⟩]⟩,
   ⟨.HIF_DMA_HEAD_HI, 0x40808, 16, 0x20, 1, 0x0, false, 0x0, [⟨31, 0, .rw, .none⟩]⟩,
   ⟨.HIF_DMA_HOPS, 0x4080C, 16, 0x20, 1, 0x0, false, 0x100, [⟨15, 0, .rw, .range 1 65535⟩]⟩,
   ⟨.HIF_DMA_STAT, 0x40810, 16, 0x20, 1, 0x0, false, 0x0, [⟨31, 30, .ro, .none⟩, ⟨29, 29, .ro, .none⟩, ⟨28, 28, .w1c, .none⟩, ⟨27, 27, .w1c, .none⟩, ⟨23, 16, .rc, .none⟩, ⟨15, 0, .rc, .none⟩]⟩,
   ⟨.HIF_DMA_CUR_LO, 0x40814, 16, 0x20, 1, 0x0, false, 0x0, [⟨31, 0, .snap, .none⟩]⟩,
   ⟨.HIF_DMA_CUR_HI, 0x40818, 16, 0x20, 1, 0x0, false, 0x0, [⟨31, 0, .snap, .none⟩]⟩,
   ⟨.HIF_MBOX, 0x40C00, 16, 0x4, 1, 0x0, true, 0x0, [⟨31, 0, .rw, .none⟩]⟩,
   ⟨.HIF_MBOX_CTL, 0x40C40, 1, 0x0, 1, 0x0, true, 0x0, [⟨31, 31, .w1s, .none⟩, ⟨30, 30, .ro, .none⟩, ⟨7, 0, .ro, .none⟩]⟩]

/-- The registers of block TIM. -/
def regsTIM : List RegDef :=
  [⟨.TIM_NOW_NS, 0xF0000, 1, 0x0, 1, 0x0, false, 0x0, [⟨29, 0, .snap, .none⟩]⟩,
   ⟨.TIM_NOW_SEC_LO, 0xF0004, 1, 0x0, 1, 0x0, false, 0x0, [⟨31, 0, .snap, .none⟩]⟩,
   ⟨.TIM_NOW_SEC_HI, 0xF0008, 1, 0x0, 1, 0x0, false, 0x0, [⟨23, 16, .snap, .none⟩, ⟨15, 0, .snap, .none⟩]⟩,
   ⟨.TIM_INC_FRAC, 0xF0010, 1, 0x0, 1, 0x0, false, 0x9999999A, [⟨31, 0, .rwl, .special⟩]⟩,
   ⟨.TIM_INC_INT, 0xF0014, 1, 0x0, 1, 0x0, false, 0x1, [⟨7, 0, .rwl, .special⟩]⟩,
   ⟨.TIM_RATE, 0xF0018, 1, 0x0, 1, 0x0, false, 0x0, [⟨23, 0, .rw, .special⟩]⟩,
   ⟨.TIM_SLEW_CFG, 0xF001C, 1, 0x0, 1, 0x0, false, 0x50064, [⟨19, 16, .rwl, .range 1 9⟩, ⟨7, 0, .rwl, .range 1 200⟩]⟩,
   ⟨.TIM_STEP_THR, 0xF0020, 1, 0x0, 1, 0x0, false, 0x3E8, [⟨29, 0, .rwl, .range 1 1000000000⟩]⟩,
   ⟨.TIM_OFS_NS, 0xF0024, 1, 0x0, 1, 0x0, true, 0x0, [⟨31, 0, .rw, .none⟩]⟩,
   ⟨.TIM_OFS_CTL, 0xF0028, 1, 0x0, 1, 0x0, true, 0x0, [⟨31, 31, .w1s, .none⟩, ⟨30, 30, .w1s, .none⟩, ⟨29, 29, .rw, .none⟩, ⟨7, 0, .rw, .none⟩]⟩,
   ⟨.TIM_SET_NS, 0xF002C, 1, 0x0, 1, 0x0, true, 0x0, [⟨29, 0, .rw, .range 0 999999999⟩]⟩,
   ⟨.TIM_SET_SEC_LO, 0xF0030, 1, 0x0, 1, 0x0, true, 0x0, [⟨31, 0, .rw, .none⟩]⟩,
   ⟨.TIM_SET_SEC_HI, 0xF0034, 1, 0x0, 1, 0x0, true, 0x0, [⟨15, 0, .rw, .none⟩]⟩,
   ⟨.TIM_SLEW_REM, 0xF0038, 1, 0x0, 1, 0x0, false, 0x0, [⟨31, 0, .ro, .none⟩]⟩,
   ⟨.TIM_STAT, 0xF003C, 1, 0x0, 1, 0x0, false, 0x0, [⟨15, 8, .ro, .none⟩, ⟨5, 5, .ro, .none⟩, ⟨4, 4, .ro, .none⟩, ⟨3, 3, .w1c, .none⟩, ⟨2, 2, .w1c, .none⟩, ⟨1, 1, .w1c, .none⟩]⟩,
   ⟨.TIM_STEP_CNT, 0xF0040, 1, 0x0, 1, 0x0, false, 0x0, [⟨31, 16, .rc, .none⟩, ⟨15, 0, .rc, .none⟩]⟩,
   ⟨.TIM_ENG_REQ, 0xF0044, 1, 0x0, 1, 0x0, false, 0x0, [⟨25, 4, .rwl, .none⟩, ⟨0, 0, .rwl, .none⟩]⟩,
   ⟨.TIM_ETH_CFG, 0xF0100, 2, 0x40, 1, 0x0, false, 0x4000000, [⟨31, 31, .rw, .none⟩, ⟨30, 29, .rw, .els 2 0⟩, ⟨28, 28, .rw, .none⟩, ⟨27, 27, .w1s, .none⟩, ⟨26, 26, .rw, .none⟩, ⟨25, 24, .rw, .els 2 0⟩, ⟨23, 23, .rw, .none⟩, ⟨15, 8, .rw, .none⟩]⟩,
   ⟨.TIM_ETH_STAT, 0xF0104, 2, 0x40, 1, 0x0, false, 0x0, [⟨31, 16, .ro, .none⟩, ⟨2, 2, .ro, .none⟩, ⟨1, 1, .w1c, .none⟩, ⟨0, 0, .ro, .none⟩]⟩,
   ⟨.TIM_ETH_MAC_LO, 0xF0108, 2, 0x40, 1, 0x0, false, 0x0, [⟨31, 0, .rw, .none⟩]⟩,
   ⟨.TIM_ETH_MAC_HI, 0xF010C, 2, 0x40, 1, 0x0, false, 0x0, [⟨15, 0, .rw, .none⟩]⟩,
   ⟨.TIM_ETH_LAT, 0xF0110, 2, 0x40, 1, 0x0, false, 0x0, [⟨31, 16, .rw, .none⟩, ⟨15, 0, .rw, .none⟩]⟩,
   ⟨.TIM_ETH_RXRING, 0xF0114, 2, 0x40, 1, 0x0, false, 0x2, [⟨31, 31, .rw, .none⟩, ⟨25, 11, .rw, .none⟩, ⟨3, 0, .rw, .range 2 12⟩]⟩,
   ⟨.TIM_ETH_TXRING, 0xF0118, 2, 0x40, 1, 0x0, false, 0x2, [⟨31, 31, .rw, .none⟩, ⟨25, 5, .rw, .none⟩, ⟨3, 0, .rw, .range 2 12⟩]⟩,
   ⟨.TIM_ETH_CNT, 0xF011C, 2, 0x40, 1, 0x0, false, 0x0, [⟨31, 16, .rc, .none⟩, ⟨15, 0, .rc, .none⟩]⟩,
   ⟨.TIM_ETH_CNT2, 0xF0120, 2, 0x40, 1, 0x0, false, 0x0, [⟨31, 16, .rc, .none⟩, ⟨15, 0, .rc, .none⟩]⟩,
   ⟨.TIM_GM_LO, 0xF0124, 2, 0x40, 1, 0x0, false, 0x0, [⟨31, 0, .snap, .none⟩]⟩,
   ⟨.TIM_GM_HI, 0xF0128, 2, 0x40, 1, 0x0, false, 0x0, [⟨31, 0, .snap, .none⟩]⟩,
   ⟨.TIM_ETH_MC_LO, 0xF0200, 2, 0x40, 8, 0x8, false, 0x0, [⟨31, 0, .rw, .none⟩]⟩,
   ⟨.TIM_ETH_MC_HI, 0xF0204, 2, 0x40, 8, 0x8, false, 0x0, [⟨31, 31, .rw, .none⟩, ⟨30, 30, .rw, .none⟩, ⟨15, 0, .rw, .none⟩]⟩,
   ⟨.TIM_SV_CFG, 0xF0300, 16, 0x10, 1, 0x0, false, 0x10000, [⟨31, 31, .rw, .none⟩, ⟨29, 28, .rw, .none⟩, ⟨26, 24, .rw, .range 0 4⟩, ⟨19, 16, .rw, .range 1 8⟩, ⟨15, 0, .rw, .none⟩]⟩,
   ⟨.TIM_SV_BASE, 0xF0304, 16, 0x10, 1, 0x0, false, 0x0, [⟨25, 8, .rw, .none⟩]⟩,
   ⟨.TIM_SV_STAT, 0xF0308, 16, 0x10, 1, 0x0, false, 0x0, [⟨31, 16, .ro, .none⟩, ⟨15, 0, .rc, .none⟩]⟩,
   ⟨.TIM_ESP_USER, 0xF0400, 1, 0x0, 1, 0x0, false, 0x0, [⟨31, 0, .rw, .none⟩]⟩]

/-- The registers of block CAN. -/
def regsCAN : List RegDef :=
  [⟨.CAN_CFG, 0xF8000, 2, 0x1000, 1, 0x0, false, 0x4200000, [⟨31, 31, .rw, .none⟩, ⟨30, 29, .rw, .special⟩, ⟨28, 28, .rw, .none⟩, ⟨27, 27, .rw, .none⟩, ⟨26, 26, .rw, .none⟩, ⟨23, 16, .rw, .none⟩, ⟨5, 0, .rw, .special⟩]⟩,
   ⟨.CAN_NBT, 0xF8004, 2, 0x1000, 1, 0x0, false, 0xF080C01, [⟨31, 24, .rw, .range 2 128⟩, ⟨23, 17, .rw, .range 1 64⟩, ⟨16, 10, .rw, .range 1 64⟩, ⟨5, 0, .rw, .range 1 32⟩]⟩,
   ⟨.CAN_DBT, 0xF8008, 2, 0x1000, 1, 0x0, false, 0xF080C01, [⟨31, 24, .rw, .range 1 32⟩, ⟨23, 17, .rw, .range 1 16⟩, ⟨16, 10, .rw, .range 1 16⟩, ⟨9, 9, .rw, .none⟩, ⟨5, 0, .rw, .range 1 32⟩]⟩,
   ⟨.CAN_TDC, 0xF800C, 2, 0x1000, 1, 0x0, false, 0x0, [⟨23, 16, .ro, .none⟩, ⟨6, 0, .rw, .none⟩]⟩,
   ⟨.CAN_STAT, 0xF8010, 2, 0x1000, 1, 0x0, false, 0x0, [⟨31, 30, .ro, .none⟩, ⟨29, 27, .ro, .none⟩, ⟨26, 21, .ro, .none⟩, ⟨20, 20, .w1c, .none⟩, ⟨19, 19, .w1c, .none⟩, ⟨18, 18, .w1c, .none⟩, ⟨17, 17, .w1c, .none⟩, ⟨16, 8, .ro, .none⟩, ⟨7, 0, .ro, .none⟩]⟩,
   ⟨.CAN_CMD, 0xF8014, 2, 0x1000, 1, 0x0, true, 0x0, [⟨3, 3, .w1s, .none⟩, ⟨2, 2, .w1s, .none⟩, ⟨1, 1, .w1s, .none⟩, ⟨0, 0, .w1s, .none⟩]⟩,
   ⟨.CAN_CNT, 0xF8018, 2, 0x1000, 1, 0x0, false, 0x0, [⟨31, 16, .rc, .none⟩, ⟨15, 0, .rc, .none⟩]⟩,
   ⟨.CAN_CNT2, 0xF801C, 2, 0x1000, 1, 0x0, false, 0x0, [⟨31, 16, .rc, .none⟩, ⟨15, 0, .rc, .none⟩]⟩,
   ⟨.CAN_CNT3, 0xF8020, 2, 0x1000, 1, 0x0, false, 0x0, [⟨31, 16, .rc, .none⟩, ⟨15, 0, .rc, .none⟩]⟩,
   ⟨.CAN_CNT4, 0xF8024, 2, 0x1000, 1, 0x0, false, 0x0, [⟨31, 16, .rc, .none⟩, ⟨15, 0, .rc, .none⟩]⟩,
   ⟨.CAN_RX_BASE, 0xF8028, 2, 0x1000, 1, 0x0, false, 0x0, [⟨25, 14, .rw, .none⟩]⟩,
   ⟨.CAN_TXFEED, 0xF802C, 2, 0x1000, 1, 0x0, false, 0x2, [⟨31, 31, .rw, .none⟩, ⟨25, 7, .rw, .none⟩, ⟨3, 0, .rw, .range 2 10⟩]⟩,
   ⟨.CAN_TXBUF, 0xF8040, 2, 0x1000, 18, 0x4, true, 0x0, [⟨31, 0, .rw, .none⟩]⟩,
   ⟨.CAN_RXOBJ, 0xF8100, 2, 0x1000, 128, 0x4, false, 0x0, [⟨31, 31, .rw, .none⟩, ⟨29, 29, .rw, .none⟩, ⟨28, 0, .rw, .special⟩]⟩]

/-- The registers of block GRN. -/
def regsGRN : List RegDef :=
  [⟨.GRN_CFG, 0xFC000, 1, 0x0, 1, 0x0, false, 0x0, [⟨7, 0, .rw, .none⟩]⟩,
   ⟨.GRN_GATHER, 0xFC004, 1, 0x0, 1, 0x0, false, 0x100000, [⟨25, 16, .rwl, .special⟩]⟩,
   ⟨.GRN_STAT, 0xFC008, 1, 0x0, 1, 0x0, false, 0x0, [⟨0, 0, .ro, .none⟩]⟩,
   ⟨.GRN_ECC_CNT, 0xFC00C, 1, 0x0, 1, 0x0, false, 0x0, [⟨31, 16, .rc, .none⟩, ⟨15, 0, .rc, .none⟩]⟩,
   ⟨.GRN_ECC_LAST, 0xFC010, 1, 0x0, 1, 0x0, false, 0x0, [⟨31, 24, .ro, .none⟩, ⟨22, 0, .ro, .none⟩]⟩]

/-- The block of an unprivileged offset (R15). -/
def blockRegs (off : Nat) : List RegDef :=
  if off < 0x10000 then regsGLB
  else if off < 0x20000 then regsCLK
  else if off < 0x30000 then regsSAF
  else if off < 0x40000 then regsRED
  else if off < 0x50000 then regsHIF
  else if off < 0x60000 then regsSCH
  else if off < 0x80000 then regsENG
  else if off < 0x90000 then regsWIN
  else if off < 0xA0000 then regsEDG
  else if off < 0xC0000 then regsNCL
  else if off < 0xE0000 then regsLPHY
  else if off < 0xE8000 then regsADC
  else if off < 0xF0000 then regsREC
  else if off < 0xF8000 then regsTIM
  else if off < 0xFC000 then regsCAN
  else if off < 0x100000 then regsGRN
  else []

/-- The indices of `off` in register `d`, when it addresses one of its words. -/
def RegDef.index? (d : RegDef) (off : Nat) : Option (Nat × Nat) :=
  if off < d.base then none
  else
    let r := off - d.base
    let i := if d.st1 = 0 then 0 else if d.n1 = 1 then 0 else min (r / d.st1) (d.n1 - 1)
    let r1 := r - i * d.st1
    let j := if d.st2 = 0 then 0 else r1 / d.st2
    if d.n2 ≤ j then none
    else if d.base + i * d.st1 + j * d.st2 = off then some (i, j) else none

/-- The register definition and indices that an unprivileged, 4-aligned offset names; none for a reserved offset (R16). -/
def lookupIn : List RegDef → Nat → Option (RegDef × Nat × Nat)
  | [], _ => none
  | d :: ds, off =>
    match d.index? off with
    | some (i, j) => some (d, i, j)
    | none => lookupIn ds off

def lookup (off : Nat) : Option (RegDef × Nat × Nat) := lookupIn (blockRegs off) off

/-- The reset value of register `d` at index i, where it depends on the index (WIN_ARM_CFG, ADC_CH_CFG, SCH_TC_CFG). -/
def RegDef.resetAt (d : RegDef) (i : Nat) : Nat :=
  match d.reg with
  | .WIN_ARM_CFG => 0x0400 + i % 6
  | .ADC_CH_CFG => (i % 4) * 0x10
  | .SCH_TC_CFG => if i = 0 then 0x00300000 else 0
  | _ => d.reset

/-- The reset value of the register at an unprivileged offset; 0 for a reserved offset (R16). -/
def resetVal (off : Nat) : Nat :=
  match lookup off with
  | some (d, i, _) => d.resetAt i
  | none => 0

end Sys2Proof.Machine
end

