-- ==== Sys2Proof/Machine/Events.lean ====
section
/-! DEFINITION. The event codes of R392. -/

namespace Sys2Proof.Machine

/-- Every event the device raises (R392). -/
inductive EvCode where
  | modeChange | modeRefused | mapInvalid | laneTiming | gatherLate | bootPairSkip | clkFault | lrefLost | safeTrip
  | safeDiscrep | safeTestFail | resetStuck | resetRefused | checkMismatch | retErr | ilkClash | ilkOpen | mirLate
  | digestMismatch | tfUnlock | sigMismatch | handoverRefused | partnerLost | takeover | fwdRefused | cmdDone
  | clamp | writeDenied | writeNarrow | writeLocked | ownRequest | ownChange | ownLost | telOverflow | dumpDone
  | dmaDone | dmaBad | dmaLoop | dmaHalt | dbRefused | portDown | taskOverrun | fatalDone | fatalTimeout | engFault
  | engTrap | sendBad | dmakRefused | coefStray | injDone | reqBad | reqDup | reqStale | cellExcluded | armLow
  | armMargin | levelClamp | tallyLimit | capDrift | planMiss | ocLatch | dlRange | pulseDrop | pwmFault | syncLost
  | chainSplit | echoSpread | segMismatch | cellIncompat | cellCount | dualActive | cellHolding | laneDead
  | laneDown | laneMiswire | fomLimit | mirBond | mirSkew | mirUnbond | adcLimit | adcOvr | adcUrgLost | adcCalErr
  | recTrig | recDone | recDrop | recArmRefused | recBusy | tbUp | tbDown | tbSpread | tbRange | stepRefused
  | gmChange | ethLink | alone | idclash | canLost | busOff | errPassive | eccCorr | eccUncorr
deriving DecidableEq, Repr

/-- The 16-bit code of an event (R392). -/
def EvCode.code : EvCode → Nat
  | .modeChange => 0x0101
  | .modeRefused => 0x0102
  | .mapInvalid => 0x0103
  | .laneTiming => 0x0104
  | .gatherLate => 0x0105
  | .bootPairSkip => 0x0106
  | .clkFault => 0x0201
  | .lrefLost => 0x0202
  | .safeTrip => 0x0301
  | .safeDiscrep => 0x0302
  | .safeTestFail => 0x0303
  | .resetStuck => 0x0304
  | .resetRefused => 0x0305
  | .checkMismatch => 0x0306
  | .retErr => 0x0307
  | .ilkClash => 0x0401
  | .ilkOpen => 0x0402
  | .mirLate => 0x0403
  | .digestMismatch => 0x0404
  | .tfUnlock => 0x0405
  | .sigMismatch => 0x0406
  | .handoverRefused => 0x0407
  | .partnerLost => 0x0408
  | .takeover => 0x0409
  | .fwdRefused => 0x040A
  | .cmdDone => 0x0501
  | .clamp => 0x0502
  | .writeDenied => 0x0503
  | .writeNarrow => 0x0504
  | .writeLocked => 0x0505
  | .ownRequest => 0x0506
  | .ownChange => 0x0507
  | .ownLost => 0x0508
  | .telOverflow => 0x0509
  | .dumpDone => 0x050A
  | .dmaDone => 0x050B
  | .dmaBad => 0x050C
  | .dmaLoop => 0x050D
  | .dmaHalt => 0x050E
  | .dbRefused => 0x050F
  | .portDown => 0x0510
  | .taskOverrun => 0x0601
  | .fatalDone => 0x0602
  | .fatalTimeout => 0x0603
  | .engFault => 0x0701
  | .engTrap => 0x0702
  | .sendBad => 0x0703
  | .dmakRefused => 0x0704
  | .coefStray => 0x0705
  | .injDone => 0x0706
  | .reqBad => 0x0801
  | .reqDup => 0x0802
  | .reqStale => 0x0803
  | .cellExcluded => 0x0804
  | .armLow => 0x0805
  | .armMargin => 0x0806
  | .levelClamp => 0x0807
  | .tallyLimit => 0x0808
  | .capDrift => 0x0809
  | .planMiss => 0x0901
  | .ocLatch => 0x0902
  | .dlRange => 0x0903
  | .pulseDrop => 0x0904
  | .pwmFault => 0x0905
  | .syncLost => 0x0906
  | .chainSplit => 0x0A01
  | .echoSpread => 0x0A02
  | .segMismatch => 0x0A03
  | .cellIncompat => 0x0A04
  | .cellCount => 0x0A05
  | .dualActive => 0x0A06
  | .cellHolding => 0x0A07
  | .laneDead => 0x0B01
  | .laneDown => 0x0B02
  | .laneMiswire => 0x0B03
  | .fomLimit => 0x0B04
  | .mirBond => 0x0B05
  | .mirSkew => 0x0B06
  | .mirUnbond => 0x0B07
  | .adcLimit => 0x0C01
  | .adcOvr => 0x0C02
  | .adcUrgLost => 0x0C03
  | .adcCalErr => 0x0C04
  | .recTrig => 0x0D01
  | .recDone => 0x0D02
  | .recDrop => 0x0D03
  | .recArmRefused => 0x0D04
  | .recBusy => 0x0D05
  | .tbUp => 0x0D06
  | .tbDown => 0x0D07
  | .tbSpread => 0x0D08
  | .tbRange => 0x0D09
  | .stepRefused => 0x0E01
  | .gmChange => 0x0E02
  | .ethLink => 0x0E03
  | .alone => 0x0F01
  | .idclash => 0x0F02
  | .canLost => 0x0F03
  | .busOff => 0x0F04
  | .errPassive => 0x0F05
  | .eccCorr => 0x1001
  | .eccUncorr => 0x1002

end Sys2Proof.Machine
end

