-- ==== Sys2Proof/Machine/State.lean ====
section
/-! DEFINITION. The state of the block: plain data, every piece of state the specification gives the device, and the queue of
waiting commands. Register fields whose only home is their register stand in `regs`; what the specification gives the device
beside its registers stands in the typed fields. -/

namespace Sys2Proof.Machine

/-! ### Events and frames -/

/-- One raised event, as R388 lays it out: `time` is the time word of R74, `payload` is bytes 16 to 31. -/
structure Event where
  code : EvCode
  source : Nat
  seq : Nat
  time : W64
  payload : List Byte
deriving DecidableEq, Repr

/-- A frame as sent on a lane (R72 to R75): kind, tag S1 to S7, time word, slots in wire order, bale, CRC-32C. -/
structure TxFrame where
  tag : List Byte
  time : W64
  slots : List W64
  bale : List Byte
  crc : Nat
deriving DecidableEq, Repr

/-- A set as sent on a lane (R89, R90): set code, 40-bit payload, and the CRC-8 over D1 to D6. -/
structure TxSet where
  code : Nat
  payload : Nat
  crc : Nat
deriving DecidableEq, Repr

/-- A mirror frame (R345): the tag bytes S1 to S7, the data blocks, and the CRC-32C of the end block. -/
structure MirFrame where
  tag : List Byte
  blocks : List W64
  crc : W32
deriving DecidableEq, Repr

/-! ### Modes, power and boot (R42 to R66) -/

/-- The twelve operating modes (R42). -/
inductive Mode where
  | off | dormant | boot | configure | commission | muster | precharge | ready | run | shadow | safeBlock | diagnostic
deriving DecidableEq, Repr

/-- A mode request that awaits evaluation (R46): the target code, and whether the partner forwarded it (R47, R353). -/
structure ModeReq where
  target : Nat
  forwarded : Bool
  /-- the CORE_CLK cycle of its write (R46) -/
  at_ : Nat
deriving DecidableEq, Repr

/-- The latest accepted request: the cycle of its evaluation, its target, the mode before and after it, the word of GLB_MODE_LOG before
it, and the number of its MODE_CHANGE event (R49). -/
structure EvalNote where
  cyc : Nat
  target : Nat
  old : Mode
  new : Mode
  log : Nat
  seq : Nat
deriving DecidableEq, Repr

/-- Mode control beside the mode itself. -/
structure ModeCtl where
  /-- the pending request of GLB_MODE.req_pending and pend_target -/
  request : Option ModeReq
  /-- GLB_MODE.fatal -/
  fatal : Bool
  /-- GLB_MODE.charge_ok (R56) and the run of periods that met its condition -/
  chargeOk : Bool
  chargeRun : Nat
  /-- GLB_MODE.muster_done (R55) -/
  musterDone : Bool
  /-- GLB_MODE.ret_valid (R52) -/
  retValid : Bool
  /-- the check value of R54 is being computed; the match that waits for the safety inputs, with its cause code (R54) -/
  checkBusy : Bool
  pendMatch : Option Nat
  /-- the request last evaluated and accepted; the cycle in which SAFE-BLOCK was last entered (R49) -/
  evald : Option EvalNote
  blockedAt : Option Nat
deriving DecidableEq, Repr

/-- Supplies, reset pins and clocks (R19, R20, R45, R59, R458, R477). -/
structure Power where
  vbat : Bool
  rails : Bool
  porstLow : Bool
  /-- the internal reset of a rail fault is in force (R458), and the rails that are out of their window, bit order of GLB_RAIL_STAT -/
  railReset : Bool
  railOut : Nat
  /-- the system PLL is locked, and has locked since power-up -/
  pllLocked : Bool
  pllOnce : Bool
  /-- the cycle of that first lock -/
  upCyc : Nat
  /-- the cycle of the latest temperature measurement, and whether GLB_DIE_TEMP.worst holds one since it was read (R470) -/
  tempAt : Nat
  tempSeen : Bool
  /-- the 25 MHz reference is present (R19) -/
  refPresent : Bool
  /-- a clock fault has been reacted to and CLK_FAULT not yet raised (R20) -/
  clkFault : Bool
  /-- lane references A and B are present (R19) -/
  lrefA : Bool
  lrefB : Bool
  /-- the 100 MHz PCIe reference is present (R477) -/
  pcieRef : Bool
  /-- ESP_HOLD_N is low (R428) -/
  espLow : Bool
  /-- the mode that the reset in progress ended, reported by the next BOOT entry -/
  held : Mode
deriving DecidableEq, Repr

/-- What the boot engine is doing (R62 to R65). -/
inductive BootPhase where
  | idle | reading | checking | loading
deriving DecidableEq, Repr

/-- The boot engine: the image bytes of the source being tried, and the loads of an accepted image. -/
structure Boot where
  phase : BootPhase
  image : List Byte
  /-- a restart of the boot is due when the PLL locks again (R20) -/
  restart : Bool
  /-- the QSPI sources still to be tried, 1 primary and 2 secondary (R63) -/
  qspiLeft : List Nat
deriving DecidableEq, Repr

/-! ### The period sequencer (R23 to R31) -/

/-- The timebase (R407): whole nanoseconds since its epoch and the fraction of a nanosecond in 2^-32 ns. -/
structure Timebase where
  ns : Nat
  frac : Nat
deriving DecidableEq, Repr

/-- The period sequencer. -/
structure Seq where
  running : Bool
  /-- the sequencer starts, or stops, at the next boundary (R58, R103) -/
  startPend : Bool
  stopPend : Bool
  /-- number of the next boundary to come, and whether a boundary has been released since the start -/
  next : Nat
  started : Bool
  /-- GATHER_DONE of the period has come (R28) -/
  gatherDone : Bool
  /-- the cycle of the latest GATHER_DONE -/
  gatherCyc : Nat
  /-- GATHER_DONE and the completion of the plan in 5 ns steps from P_n; none while there is none (GLB_MS_GATHER, GLB_MS_PLAN) -/
  gatherAt : Option Nat
  planAt : Option Nat
  /-- the samples of the period before have been put aside; the availability of the period has been computed -/
  turned : Bool
  availDone : Bool
  /-- the GATHER deadline and the ORDER_OFFSET instant of the period have passed; its plan is complete (R27, R29) -/
  deadlinePassed : Bool
  ordered : Bool
  planComplete : Bool
  /-- the plan of the period was late (R29) -/
  planLate : Bool
  /-- the TIME sets, and the GATHER frames, of the period have left (R93, R26) -/
  timed : Bool
  launched : Bool
deriving DecidableEq, Repr

/-! ### Lanes (R67 to R140) -/

/-- A set that waits for its block boundary: its rank (R114), the cycle in which it fell due, and the set. -/
structure DueSet where
  rank : Nat
  since : Nat
  set : TxSet
deriving DecidableEq, Repr

/-- The transmitter of a lane; instants are CORE_CLK cycles, four to a block (R114 to R116). -/
structure LaneTx where
  /-- sets of rank 4 to 6 that wait -/
  due : List DueSet
  /-- the cycle from which nothing but IDLE leaves, and the IDLE blocks still owed before the next Start block -/
  free : Nat
  owed : Nat
  /-- runs of blocks other than IDLE among the last 2048: first cycle and number of blocks, oldest first -/
  runs : List (Nat × Nat)
  /-- the latest frame: its first cycle and its blocks -/
  frame : Option (Nat × Nat)
  /-- the first cycle of each ORDER frame of the latest launch (R324) -/
  orderAt : List Nat
  /-- the cycle of the latest marker (R120, R121) -/
  markAt : Nat
  /-- an injection: its bits (0 none), whether it is a burst, and the cycle of the word or block it inverts, none while no such block
  has been sent (R139) -/
  injBits : Nat
  injBurst : Bool
  injFrom : Option Nat
  /-- the pattern generator (R138): the bits before its first one, the latest first (of USER the word), and the cycle in which it began -/
  gen : List Bool
  genFrom : Nat
  /-- mirror lane: its share of the blocks of the latest frame (R121) -/
  share : List MirBlock
deriving DecidableEq, Repr

def LaneTx.reset : LaneTx :=
  { due := [], free := 0, owed := 0, runs := [], frame := none, orderAt := [], markAt := 0, injBits := 0, injBurst := false, injFrom := none,
    gen := [], genFrom := 0, share := [] }

/-- A pattern checker (R138): the bits it predicts from (the latest first; of USER the word as aligned, next bit first), the bits
compared since lock, and where among them the errors of the last 1024 stand. -/
structure Checker where
  bits : List Bool
  count : Nat
  errs : List Nat
deriving DecidableEq, Repr

/-- A lane beside its registers. -/
structure Lane where
  /-- its transmitter, and its pattern checker -/
  tx : LaneTx
  chk : Checker
  /-- a training attempt, or the wait before the next one, is in progress (R124, R126) -/
  attempt : Bool
  backoff : Bool
  /-- the cycle in which the attempt, or the wait, began, and that of the next HELLO set (R124, R126) -/
  attemptAt : Nat
  helloNext : Nat
  /-- the attempt in progress has seen a marker that fails R120 -/
  markerFail : Bool
  /-- mirror lane: a valid HELLO has been received (R125) -/
  helloSeen : Bool
  /-- the lane has been trained, for the restart of R127 -/
  trainedOnce : Bool
  /-- LANE_DEAD has been raised in this training (R126) -/
  deadSaid : Bool
  /-- count of the markers sent or expected (R119) -/
  mcount : Nat
  /-- fill of the elastic buffer (R117) -/
  fill : Nat
  /-- centre of the adaptation clamp (R131, R134) -/
  centreOff : Int
  centrePhase : Int
  /-- ECHO measurements so far: count, sums of D and of rsum, and the extremes of D − rsum (R98) -/
  echoN : Nat
  echoD : Nat
  echoR : Nat
  echoLo : Int
  echoHi : Int
  /-- a MEASURE set is under way; the cycle in which the latest left; the cycle of the last ASSIGN set (R98, R103) -/
  echoOut : Bool
  echoAt : Nat
  assignAt : Nat
  /-- the lane passed R37 in this MUSTER -/
  timingOk : Bool
  /-- periods since the first GATHER frame of the discovery (R103, step 3) -/
  discPeriods : Nat
  /-- this period: an on-time valid frame arrived, or its start block did; consecutive periods without a start block (R128) -/
  gatherOk : Bool
  gatherSeen : Bool
  /-- in split mode: the copy of the lane's own RX, and that of its partner's RX, has arrived (R95) -/
  gatherOwn : Bool
  gatherOther : Bool
  /-- the copy of the lane's own RX, and that of its partner's RX, has failed (R27, R95); a GATHER frame for the lane has left -/
  failOwn : Bool
  failOther : Bool
  gatherSent : Bool
  /-- the lane's ORDER frame of the present, and of the previous, period was marked ACTIVE (R110) -/
  active : Bool
  activePrev : Bool
  gatherLate : Bool
  missRun : Nat
  /-- the chain lane waits 5 µs to regain block lock, since this cycle (R129) -/
  relock : Bool
  relockAt : Nat
  /-- its cells are unreachable since a boundary after it went down (R130); the holder has yielded when it did (R365) -/
  unreach : Bool
  yielded : Bool
  /-- boundaries until a broken chain is operated in split mode (R96), and the position j -/
  splitIn : Nat
  splitPos : Nat
  /-- what the transmitter last sent: the GATHER and the ORDER frames of the latest launches, and the latest sets -/
  gather : List TxFrame
  order : List TxFrame
  sets : List TxSet
  /-- the cycle up to which block times without a signal have been counted (R112) -/
  noSigAt : Nat
  /-- the cycle in which the measurement of the eye monitor in progress began, and that of the latest resumption (R133, R135) -/
  fomAt : Nat
  resumeAt : Nat
  /-- the lane state that a diagnostic function replaces (log entry 96) -/
  preDiag : Nat
deriving DecidableEq, Repr

/-- A lane at reset. -/
def Lane.reset : Lane :=
  { tx := LaneTx.reset, chk := { bits := [], count := 0, errs := [] }, attempt := false, backoff := false, attemptAt := 0, helloNext := 0,
    markerFail := false, helloSeen := false, trainedOnce := false, deadSaid := false, mcount := 0, fill := 2,
    centreOff := 0, centrePhase := 0, echoN := 0, echoD := 0, echoR := 0, echoLo := 0, echoHi := 0, echoOut := false, echoAt := 0, assignAt := 0, timingOk := false, discPeriods := 0,
    gatherOk := false, gatherSeen := false, gatherOwn := false, gatherOther := false, failOwn := false, failOther := false, gatherSent := false,
    active := false, activePrev := false,
    gatherLate := false, missRun := 0, relock := false, relockAt := 0, unreach := false, yielded := false, splitIn := 0,
    splitPos := 0, gather := [], order := [], sets := [], noSigAt := 0, fomAt := 0,
    resumeAt := 0, preDiag := 0 }

/-! ### Cells, arms and winnow units (R141 to R187) -/

/-- The state a cell stands in (R143). -/
inductive Present where
  | bypassed | insPos | insNeg | blocked
deriving DecidableEq, Repr

/-- What a cell was commanded for one window: its state from the origin, whether a toggle was made there, and the later
toggles in 0.25 ns units (R179), with the polarity an insertion of the window has. -/
structure CellCmd where
  start : Present
  toggles : List Nat
  neg : Bool
deriving DecidableEq, Repr

/-- A cell's capability record (R84), as far as the device uses it. -/
structure CapRec where
  full : Bool
  chainCapable : Bool
  minInsert : Nat
  minBypass : Nat
  residence : Nat
  cNom : Nat
  echoDelta : Int
  compatible : Bool
deriving DecidableEq, Repr

/-- A cell beside its registers. -/
structure Cell where
  /-- the latest fresh sample: vcap, status, temp, and the one before it (R171) -/
  vcap : Nat
  status : Nat
  temp : Nat
  vcapPrev : Nat
  /-- the slot of this period arrived valid; the sample of this period, and of the previous one, is fresh (R142) -/
  fresh : Bool
  freshPrev : Bool
  /-- the sample of the previous period reported none of refused, holding, dual_active, and the previous code was 0 (R171) -/
  calmPrev : Bool
  codePrev : Nat
  /-- consecutive fresh samples (R148) -/
  freshRun : Nat
  /-- found by HELLO, its record, and unavailable until the next MUSTER (R104, R105) -/
  found : Bool
  record : Option CapRec
  unavail : Bool
  /-- an incompatible record was reported (R105) -/
  incompatSeen : Bool
  /-- the cell reports time_ok (R79, R103) -/
  timeOk : Bool
  /-- a release write, of this cycle, waits for GATHER_DONE (R152); the cycle in which retire was last written to another value, and the
  value before (R149); bypassed or faulted is in force until release (R148 codes 3 and 4) -/
  release : Bool
  releaseAt : Nat
  retireWas : Option (Nat × Bool)
  heldCode : Nat
  /-- a fresh sample has arrived since discovery; code 7 is in force until two consecutive fresh samples (R148) -/
  sampled : Bool
  lost : Bool
  /-- signed inserted time of [P_{n-1}, P_n) in ns (R171) -/
  tauP : Int
  /-- commands in force for the window of the previous period and the one before (R156, R171), and the planned one -/
  cmd1 : CellCmd
  cmd2 : CellCmd
  /-- the command in force for the window of the previous period, as fixed at GATHER_DONE (R156, R168) -/
  lead : CellCmd
  /-- time since the output last changed, at the origin of the coming window (R141) -/
  age : Nat
  /-- its age at the origin of the window of the period in progress, for a JOIN frame (R362) -/
  ageFrom : Nat
  /-- the cell has obeyed an ACTIVE slot (R143): a fresh sample has reported holding = 0, which reads 1 until then (R79) -/
  obeyed : Bool
  /-- the gain and the nominal capacitance from its record, and the tally of R171: accumulators and block count -/
  cgain0 : Nat
  cNom : Nat
  accA : Int
  accB : Nat
  m : Nat
  /-- TALLY_LIMIT, drift, dual_active and holding were reported once (R172 to R175) -/
  limitSeen : Bool
  driftSeen : Bool
  /-- the entry of WIN_CELL_TALLY holds a value written in CONFIGURE (R170) -/
  tallyKept : Bool
  /-- dual_active, and holding, of the cell were reported once (R109, R174) -/
  dualSeen : Bool
  holdSeen : Bool
deriving DecidableEq, Repr

def CellCmd.blocked : CellCmd := { start := .blocked, toggles := [], neg := false }

/-- A cell before any discovery. -/
def Cell.reset : Cell :=
  { vcap := 0, status := 0, temp := 0, vcapPrev := 0, fresh := false, freshPrev := false, calmPrev := false, codePrev := 1,
    freshRun := 0, found := false, record := none, unavail := false, incompatSeen := false, timeOk := false, release := false,
    releaseAt := 0, retireWas := none, heldCode := 0, sampled := false, lost := false, tauP := 0, cmd1 := CellCmd.blocked, cmd2 := CellCmd.blocked, lead := CellCmd.blocked,
    age := 0x3FFFFF, ageFrom := 0x3FFFFF, obeyed := false, cgain0 := 0, cNom := 0,
    accA := 0, accB := 0, m := 0, limitSeen := false, driftSeen := false, tallyKept := false, dualSeen := false,
    holdSeen := false }

/-- A cell as a new discovery begins: what discovery finds is open again, and no command of a window is left; exclusions that end on
release, tallies and what was reported once stay (R110, R148, R173, R174). -/
def Cell.undiscovered (x : Cell) : Cell :=
  { x with found := false, record := none, unavail := false, incompatSeen := false, timeOk := false, fresh := false, freshPrev := false
           calmPrev := false, cmd1 := CellCmd.blocked, cmd2 := CellCmd.blocked, lead := CellCmd.blocked
           age := 0x3FFFFF, ageFrom := 0x3FFFFF, tauP := 0 }

/-- An accepted arm request (R144). `changes` lists (time_j, level_j). -/
structure ArmReq where
  period : Nat
  pol : Bool
  trimEn : Bool
  level0 : Nat
  iPred : Int
  iPrev : Int
  trimDuty : Nat
  keyOffset : Nat
  changes : List (Nat × Nat)
deriving DecidableEq, Repr

/-- The selection handed to the edge planner (R162): global cell indices. `counts` lists m[0] to m[nlev]. -/
structure Selection where
  base : List Nat
  swing : List Nat
  trim : Option Nat
  cands : List Nat
  mLo : Nat
  mHi : Nat
  counts : List Nat
  q : Int
  clampSeen : Bool
  req : ArmReq
deriving DecidableEq, Repr

/-- The slot a planner made for a cell (R178, R179), before the masking of R186. -/
structure PlanSlot where
  state : Nat
  edges : List Nat
  cmd : CellCmd
  ageEdge : Option Int
deriving DecidableEq, Repr

/-- An arm beside its registers. -/
structure Arm where
  /-- the accepted request of the period in progress, and of the one whose window has opened before its boundary -/
  req : Option ArmReq
  /-- the request the unit started the arm with -/
  work : Option ArmReq
  /-- the unit has started the arm in this period, handed its selection over, and the planner has planned it (R166, R176) -/
  started : Bool
  handed : Bool
  planned : Bool
  /-- one more than the cycle in which the arm became ready in its unit (R166); 0 when it has not -/
  readyAt : Nat
  /-- the selection that waits for the planner (R163) -/
  selection : Option Selection
  /-- i_prev of the accepted request of the period, for the tally (R171) -/
  tallyI : Option Int
deriving DecidableEq, Repr

def Arm.reset : Arm :=
  { req := none, work := none, started := false, handed := false, planned := false, readyAt := 0, selection := none,
    tallyI := none }

/-- A winnow unit: the arm it works on, whether its ranking of the period runs, and the arms it ranks (R164, R166); the cycles it
has spent selecting in the period (WIN_UNIT_STAT). -/
structure WinUnit where
  /-- the arm in work, and the cycle in which it was started (R166) -/
  busy : Option Nat
  startCyc : Nat
  /-- the ranking is in progress, and its arms (R164) -/
  ranking : Bool
  rankArms : List Nat
  /-- the ranking was started, or its start let pass, in this period -/
  ranked : Bool
  /-- the arms of a ranking that GATHER_DONE has found running, with their selections, and the cycle of it (R164) -/
  past : List (Nat × Selection)
  pastAt : Nat
  /-- the tally of the period is due (R174) -/
  tallyDue : Bool
  /-- cycles of the period so far (R167) -/
  cycles : Nat
deriving DecidableEq, Repr

def WinUnit.reset : WinUnit :=
  { busy := none, startCyc := 0, ranking := false, rankArms := [], ranked := false, past := [], pastAt := 0, tallyDue := false, cycles := 0 }

/-- The plan of the period: the slots made so far by global cell index, the selections waiting for their planner in hand-over
order, and the digest of the latest complete plan (R176, R358). -/
structure Plan where
  slots : List (Nat × PlanSlot)
  queue : List Nat
  digest : Nat
deriving DecidableEq, Repr

/-! ### Local PWM (R188 to R203) -/

/-- The timing values of a channel (R194, R195). -/
structure PwmSet where
  per : Nat
  on : Nat
  off : Nat
  dead : Nat
  minPulse : Nat
  phase : Nat
deriving DecidableEq, Repr

/-- A PWM channel beside its registers. -/
structure Pwm where
  /-- working values, and the committed set taken at a hand-over that waits for the next reload (R195) -/
  work : PwmSet
  waiting : Option PwmSet
  /-- value the counter was last loaded with, or 0 where it returned there, and the cycle in which it was (R188) -/
  counter : Nat
  loadAt : Nat
  /-- the compare instants of the counter cycle below this one, in 50 ps units, have passed -/
  passed : Nat
  /-- how far the reload lies before the cycle of its load, in 50 ps units: the tick lag that sync_src 1 takes up (R188) -/
  lag : Nat
  /-- internal waveform, and the output level that dead time and minimum pulse have settled -/
  wave : Bool
  out : Bool
  /-- the output's edges that have still to come, by cycle, the first one first, and its level before them -/
  edges : List (Nat × Bool)
  outWas : Bool
  /-- instant of the output's last edge relative to the start of the counter cycle, 50 ps units -/
  lastEdge : Int
  /-- the force in effect: none, active, inactive (R196) -/
  force : Option Bool
  /-- the force ends at the next reload (R196) -/
  forceEnd : Bool
  /-- a CYCLE action, a LATCH action holds the output: the inputs that hold it (R199) -/
  fltCycle : Nat
  fltLatch : Nat
  /-- the channel drives its pin (R201) -/
  driving : Bool
  /-- code of the delay line after calibration (R190) -/
  tapCode : Nat
deriving DecidableEq, Repr

def PwmSet.reset : PwmSet := { per := 1, on := 0, off := 0, dead := 0, minPulse := 0, phase := 0 }

def Pwm.reset : Pwm :=
  { work := PwmSet.reset, waiting := none, counter := 0, loadAt := 0, passed := 0, lag := 0, wave := false, out := false, edges := [],
    outWas := false, lastEdge := -1099511627776,
    force := none, forceEnd := false, fltCycle := 0, fltLatch := 0, driving := false, tapCode := 0 }

/-- A fault input: since which cycle it is asserted, the cycle in which that assertion acted, of the latest PWM_FAULT, and of the latest clr
that ended its escalation (R198, R200). -/
structure FltIn where
  since : Option Nat
  acted : Option Nat
  told : Option Nat
  ended : Option Nat
deriving DecidableEq, Repr

def FltIn.reset : FltIn := { since := none, acted := none, told := none, ended := none }

/-- Output masks, fault inputs and synchronisation pins (R197 to R203). -/
structure PwmIo where
  /-- the mask sources ZC0, ZC1, BYP, TRIPB that are active: the cycle in which each ends -/
  masks : List (Option Nat)
  /-- when BYP is active: from the cycle of an activating edge to the end of its length (R197) -/
  byp : List (Nat × Nat)
  /-- sign of the last code of each zero-crossing detector: 0 none yet, 1 positive, 2 negative -/
  zcSign : List Nat
  /-- the fault inputs; those with an HIZ action in force, and those whose first action after a clear was reported -/
  flt : List (Nat × FltIn)
  hiz : Nat
  fltSeen : Nat
  /-- PWM pins are in high impedance by the safety path or by the mode (R201) -/
  safeHiZ : Bool
  /-- the level of SYNC_OUT, the instant of its rise in 50 ps units, and whether the pulse of the period is armed (R202) -/
  syncOut : Bool
  syncOutFrom : Nat
  syncOutArmed : Bool
  /-- the latest edge of SYNC_IN in 2^-32 ns, none once it is lost (R203) -/
  syncInAt : Option Nat
  /-- the cycle of the latest calibration of the delay line (R191) -/
  dlAt : Nat
  /-- registers that edge records have written in cycle `recAt` (R227) -/
  recs : List Nat
  recAt : Nat
  /-- the cycle of the latest hand-over of committed sets (R195) -/
  handAt : Option Nat
  /-- registers written in CORE_CLK cycle `wasAt`, as they stood at the start of that cycle, by offset (R194, R195, R235) -/
  was : List (Nat × Nat)
  wasAt : Nat
deriving DecidableEq, Repr

/-- Why a machine stops. No meaning of this model faults: every command has an effect or none (log entry 1). -/
inductive Fault where
  /-- never raised: kept so that the type is inhabited; safe -/
  | none
deriving DecidableEq, Repr

/-- Why a command is refused. -/
inductive Refusal where
  /-- raised by Dispatch for a command without a meaning; safe -/
  | notModelled (mnemonic : String)
deriving DecidableEq, Repr

/-! ### Field engines and tasks (R204 to R260) -/

/-- A zero-overhead loop LCn (R219): its remaining count, and the addresses of its first and last instruction. -/
structure Loop where
  active : Bool
  count : Nat
  start : BitVec 14
  stop : BitVec 14
deriving DecidableEq, Repr

def Loop.off : Loop := { active := false, count := 0, start := 0, stop := 0 }

/-- FLAGS (R204, R212, R217). -/
structure EngFlags where
  z : Bool
  n : Bool
  c : Bool
  v : Bool
  sat : Bool
  aov : Bool
deriving DecidableEq, Repr

/-- A task context: every item of R204 that belongs to the running task (R205). -/
structure EngCtx where
  d : Vector (BitVec 16) 16
  a : Vector (BitVec 40) 4
  x : Vector (BitVec 26) 8
  fl : EngFlags
  lc0 : Loop
  lc1 : Loop
  /-- LC1 was set up more recently than LC0 -/
  lc1Later : Bool
  /-- call stack, oldest entry first -/
  stack : List (BitVec 14)
  /-- circular descriptors of X6 and X7 (R204) -/
  cb6 : BitVec 15
  cl6 : BitVec 15
  cb7 : BitVec 15
  cl7 : BitVec 15
  /-- program counter (R204) -/
  pc : BitVec 14
deriving DecidableEq, Repr

/-- The context at instance start (R240). -/
def EngCtx.initial (entry : BitVec 14) (arg : BitVec 26) : EngCtx :=
  { d := Vector.replicate 16 0, a := Vector.replicate 4 0, x := (Vector.replicate 8 0).set 0 arg,
    fl := { z := false, n := false, c := false, v := false, sat := false, aov := false },
    lc0 := Loop.off, lc1 := Loop.off, lc1Later := false, stack := [], cb6 := 0, cl6 := 0, cb7 := 0, cl7 := 0, pc := entry }

/-- The register that a read of an engine writes. -/
inductive ReadDest where
  | d (r : Fin 16)
  | a (r : Fin 4)
deriving DecidableEq, Repr

/-- A local load at `addr`, or an MVS of GEN where it is none, in its cycle, with the context that it left (R222, R233). -/
structure CycRead where
  cyc : Nat
  eng : Nat
  addr : Option Nat
  dest : ReadDest
  ctx : EngCtx
deriving DecidableEq, Repr

/-- The injection generator (R235, R236): what it latched at its start, and its running values. -/
structure Inj where
  div : Nat
  kind : Nat
  node : Nat
  once : Bool
  hold : Nat
  poly : Nat
  f0 : Nat
  df : Nat
  len : Nat
  incr : List Nat
  /-- period ticks until the next update, shift register, updates the bit still holds, chirp phase, increment and count, tone phases -/
  tickLeft : Nat
  lfsr : Nat
  holdLeft : Nat
  ph : Nat
  inc : Nat
  c : Nat
  phs : List Nat
deriving DecidableEq, Repr

def Inj.reset : Inj :=
  { div := 1, kind := 0, node := 0, once := false, hold := 1, poly := 0, f0 := 0, df := 0, len := 1, incr := [], tickLeft := 0,
    lfsr := 0, holdLeft := 0, ph := 0, inc := 0, c := 0, phs := [] }

/-- A granary load under way (R223): destination register, address, and the address register with the value it is updated to. -/
structure LdgWait where
  dest : Fin 16
  addr : Nat
  xp : Fin 8
  xval : BitVec 26
deriving DecidableEq, Repr

/-- Writes to a coefficient window that was not open (R233): their cycle, the generation and the stray bit before them, and the numbers of
their events, the latest first. -/
structure Stray where
  cyc : Nat
  gen : Nat
  bit : Nat
  seqs : List Nat
deriving DecidableEq, Repr

/-- A field engine beside its registers. -/
structure Engine where
  ctx : EngCtx
  /-- posted stores, oldest first (R223) -/
  wbuf : List (Nat × List Byte)
  /-- an LDG that awaits its return (R222) -/
  ldg : Option LdgWait
  /-- the event of a SIG that waits for the write buffer (R243) -/
  sig : Option Nat
  /-- the same of instances that were aborted since, oldest first (R253) -/
  sigs : List Nat
  /-- records sent and not yet delivered: unit, cycle and bytes (R225) -/
  sends : List (Nat × Nat × List Byte)
  /-- the cycle in which the coefficient window was last closed, and the stray writes of the latest cycle that had one (R233) -/
  closedAt : Option Nat
  stray : Option Stray
  /-- the context the local slot holds, and since which cycle (R250) -/
  slot : Option Nat
  slotAt : Nat
  /-- the load of the slot in progress: the task and the cycle it began in (R250) -/
  load : Option (Nat × Nat)
  /-- the cycle from which the engine is free, and the cycle from which a task in DISPATCH was chosen (R249, R250) -/
  freeAt : Nat
  chosen : Nat
  /-- the injection generator (R235) -/
  inj : Inj
  /-- the capture ring has filled since cap_en was last written from 0 to 1 (R238) -/
  capStop : Bool
  /-- busy since this cycle, and busy CORE_CLK cycles of the period so far; largest READY count (R260) -/
  busyFrom : Option Nat
  busyAcc : Nat
  depthMax : Nat
  /-- trace records so far, and those that wait for the granary, oldest first (R259) -/
  traceSeq : Nat
  traceBuf : List (List Byte)
deriving DecidableEq, Repr

def Engine.reset : Engine :=
  { ctx := EngCtx.initial 0 0, wbuf := [], ldg := none, sig := none, sigs := [], sends := [], closedAt := none, stray := none, slot := none, slotAt := 0,
    load := none, freeAt := 0, chosen := 0, inj := Inj.reset, capStop := false, busyFrom := none, busyAcc := 0, depthMax := 0,
    traceSeq := 0, traceBuf := [] }

/-- A task context beside its registers (R239 to R251). -/
structure Task where
  /-- the image of its last save (R241) -/
  saved : Option EngCtx
  /-- the event it waits for (R251) -/
  waitEvt : Nat
  /-- the full number of the scheduler tick of its delayed release -/
  expiry : Nat
  /-- its release instant, a cycle, and its state before it became READY there (R248) -/
  relCyc : Nat
  before : Nat
deriving DecidableEq, Repr

def Task.reset : Task := { saved := none, waitEvt := 0, expiry := 0, relCyc := 0, before := 0 }

/-- The scheduler beside its registers. -/
structure Sched where
  /-- the cycle of the latest period tick (R259) -/
  tickCyc : Nat
  /-- the cycle of the FATAL task's dispatch (R257) -/
  fatalCyc : Nat
  /-- the latest cycle in which events occurred, and which (R251) -/
  evtCyc : Nat
  evts : List Nat
  /-- the latest cycle whose scheduling decisions have still to be made (R248, R249) -/
  planAt : Option Nat
  /-- the period in progress has had an overrun cause (R254) -/
  cause : Bool
  /-- the consecutive-overrun limit was reached in a mode that trips, and the trip is due (R254) -/
  limitHit : Bool
deriving DecidableEq, Repr

/-! ### Analog front end (R261 to R279) -/

/-- A conversion: its channel, the urgent slot that asked for it, its start (ns) and the unit that makes it (4 the gleaner). -/
structure Conv where
  ch : Nat
  urgent : Option Nat
  start : Nat
  unit : Nat
  /-- what steps of the timebase have added to `start` since the sample instant (ns): the stamp keeps the time before (R414) -/
  stepped : Int
deriving DecidableEq, Repr

/-- A read of bytes of ADC_RES_LO (R270). -/
structure AdcRead where
  cyc : Nat
  master : Master
  ch : Nat
  first : Nat
  count : Nat
  value : Nat
deriving DecidableEq, Repr

/-- A result as kept for the snapshot: the word of ADC_RES_LO and the sample instant in ns. -/
structure AdcRes where
  word : Nat
  sample : Nat
deriving DecidableEq, Repr

/-- An urgent request that has not started (R271): its slot, its channel, and the ADC_CLK edge it may start at (ns). -/
structure UrgReq where
  slot : Nat
  ch : Nat
  at_ : Nat
deriving DecidableEq, Repr

/-- The sequence of one working slice, whichever unit serves it. -/
structure AdcSlice where
  cur : Option Conv
  /-- conversions that have ended and whose results are not valid yet, oldest first -/
  ended : List Conv
  /-- the round goes on with the first channel of the list at or above this one -/
  next : Nat
  /-- a round is in progress -/
  round : Bool
  /-- urgent requests not started, in their order -/
  urgent : List UrgReq
  /-- end of the latest conversion, or the instant at which one was aborted (ns), for the start-up of ECONOMY -/
  lastEnd : Nat
deriving DecidableEq, Repr

def AdcSlice.reset : AdcSlice := { cur := none, ended := [], next := 0, round := false, urgent := [], lastEnd := 0 }

/-- The front end: off in BOOT and below, calibrating all units on CONFIGURE entry, then working (R263). -/
inductive AdcPhase where
  | off | initial | working
deriving DecidableEq, Repr

/-- The analog front end beside its registers. -/
structure Adc where
  phase : AdcPhase
  slices : List (Nat × AdcSlice)
  /-- conversions of each unit that still carry settle (R273) -/
  settle : List Nat
  /-- consecutive counts of the limits, key 2 × c + k (R276) -/
  limits : List (Nat × Nat)
  /-- latest sequence conversion of each channel since it was enabled -/
  latest : List (Nat × Option AdcRes)
  /-- latest conversion of each channel since it was enabled, sequence or urgent -/
  any : List (Nat × Option AdcRes)
  /-- next unit of the rotation, the unit that waits for a round start, the unit being calibrated (R266, R267) -/
  calNext : Nat
  calPend : Option Nat
  calRun : Option Nat
  /-- the cycles of the start of the calibration in progress, of the latest start of the rotation, and of the latest round trigger (R263,
  R264, R266) -/
  calAt : Nat
  calLast : Nat
  trigAt : Nat
  /-- sets of slots whose next tie the highest slot wins, each as its mask (R272) -/
  ties : List Nat
  /-- the urgent requests of the latest cycle that had one: the cycle, their slots, slices and ties as before them, the slices after (R272) -/
  urgCyc : Nat
  urgSlots : List Nat
  urgBefore : List (Nat × AdcSlice)
  urgTies : List Nat
  urgAfter : List (Nat × AdcSlice)
  /-- the latest read of an ADC_RES_LO: its cycle, master, channel, bytes and value (R270) -/
  lastRead : Option AdcRead
  /-- the period snapshot: entries, flags, its period, and whether its record is being written (R274) -/
  snap : List Nat
  snapFlags : Nat
  snapPeriod : Nat
  snapDue : Bool
deriving DecidableEq, Repr

def Adc.reset : Adc :=
  { phase := .off, slices := [], settle := [0, 0, 0, 0, 0], limits := [], latest := [], any := [], calNext := 0, calPend := none,
    calRun := none, calAt := 0, calLast := 0, trigAt := 0, ties := [], urgCyc := 0, urgSlots := [], urgBefore := [],
    urgTies := [], urgAfter := [], lastRead := none, snap := [], snapFlags := 0, snapPeriod := 0, snapDue := false }

/-! ### Fault recorder and trigger bus (R282 to R310) -/

/-- A silo beside its registers: the record in progress. -/
structure Silo where
  /-- pre and post in force, and entries written since arming -/
  pre : Nat
  post : Nat
  written : Nat
  /-- the cycle of arming, and the number of the first event raised after it (R285, R287) -/
  armedCyc : Nat
  armedSeq : Nat
  /-- the boundary, a cycle, of the latest CELL entry; the tick of the latest WAVE entry, none after a timebase step (R285, R286) -/
  lastTick : Option Nat
  lastWave : Option Nat
  /-- time of the entry at each ring index: P_m, the tick, or the event's instant (ns) -/
  times : List (Nat × Nat)
  /-- the trigger: ordinal of its entry, its instant, its sources, further triggers -/
  trigOrd : Nat
  trigTime : Nat
  sources : Nat
  extra : Nat
  /-- the cycle of its acceptance, the number of its REC_TRIG event, and whether it set the bus line of the silo pending; the cycle of the
  latest release or disarm (R293) -/
  trigCyc : Nat
  trigSeq : Nat
  trigLine : Bool
  leftCyc : Option Nat
  /-- a post count was clamped, a timebase step fell into the record, and entries were lost (R286, R294) -/
  clamped : Bool
  step : Bool
  drops : Nat
deriving DecidableEq, Repr

def Silo.reset : Silo :=
  { pre := 0, post := 1, written := 0, armedCyc := 0, armedSeq := 0, lastTick := none, lastWave := none, times := [], trigOrd := 0,
    trigTime := 0, sources := 0, extra := 0, trigCyc := 0, trigSeq := 0, trigLine := false, leftCyc := none,
    clamped := false, step := false, drops := 0 }

/-- The trigger bus beside its registers (R300 to R306). -/
structure TrigBus where
  /-- consecutive frames with a valid, and without a valid, slot-0 message; the cycle of the latest valid one -/
  good : Nat
  bad : Nat
  goodAt : Nat
  /-- the cycle of the device's latest slot (R301) -/
  slotAt : Nat
  /-- ECHO_REQ messages still to send, replies received, and the wait of 100 ms after a range error -/
  reqs : Nat
  replies : List Nat
  waiting : Bool
  waitAt : Nat
  /-- master: replies to send, as (tb_id, rt) -/
  toReply : List (Nat × Nat)
  /-- the message driven in the device's latest slot -/
  sent : Option Nat
deriving DecidableEq, Repr

def TrigBus.reset : TrigBus := { good := 0, bad := 0, goodAt := 0, slotAt := 0, reqs := 0, replies := [], waiting := false, waitAt := 0, toReply := [], sent := none }

/-- The recorder: its silos, the bus, and what a CELL entry reports of the period: the mode at P_m and a safety trigger. -/
structure Recorder where
  silos : List (Nat × Silo)
  bus : TrigBus
  modeAtP : Nat
  safeTrig : Bool
  /-- the cycles of the latest accepted edge of each TRIG_IN input (R298) -/
  trigInAt : List Nat
  /-- the latest cycle with a trigger, its sources, and the same with the instant of each (R293) -/
  trigCyc : Nat
  trigSrc : Nat
  trigNow : List (Nat × Nat)
deriving DecidableEq, Repr

def Recorder.reset : Recorder :=
  { silos := [], bus := TrigBus.reset, modeAtP := 0, safeTrig := false, trigInAt := [0, 0, 0, 0], trigCyc := 0, trigSrc := 0, trigNow := [] }

/-! ### Safety path and retention domain (R311 to R334) -/

/-- The latest trigger of the safety path (R315): its cycle, its place in R321 and its detail, its history entry, the number of its
SAFE_TRIP event and of the MODE_CHANGE event it led to, the mode it met, and whether its bit of the fault-history word was set before. -/
structure TrigNote where
  cyc : Nat
  order : Nat
  detail : Nat
  hist : Nat
  seq : Nat
  modeSeq : Option Nat
  mode : Mode
  was : Bool
deriving DecidableEq, Repr

/-- The safety path and the retention domain beside their registers. The fault-history word is SAF_FAULT_HIST, what follows is the
device's working copy of the rest, and `retBytes` the 256 bytes as last rewritten. -/
structure Saf where
  lockout : Bool
  confirmed : Option Nat
  histNext : Nat
  history : List (List Byte)
  retBytes : List Byte
  retDirty : Bool
  /-- the cycle of the latest readback of the retention domain (R333) -/
  readAt : Nat
  /-- channels in a test window, and those of them that read asserted at the end of the pulse (R318) -/
  window : Nat
  windowSeen : Nat
  /-- the next test pulse is one on SAFE_TP_B -/
  tpB : Bool
  /-- levels of SAFE_TP_A and SAFE_TP_B: true is the supply level -/
  tpLevelA : Bool
  tpLevelB : Bool
  /-- a pulse, or the recovery after it, is in progress (1, 2); the cycle of its start, and of the latest start on SAFE_TP_A (R318) -/
  tpPhase : Nat
  tpStart : Nat
  tpLastA : Option Nat
  /-- the cycle since which the channels of each pair disagree, test windows left out (R317) -/
  discFrom : List (Option Nat)
  /-- the press in progress: the cycle of its first falling edge, and of the rising edge that may end it (R326) -/
  press : Option Nat
  rise : Option Nat
  /-- the latest trigger (R315) -/
  trig : Option TrigNote
  /-- BLOCK class of the trigger that entered SAFE-BLOCK (R323) -/
  blockClass : Nat
deriving DecidableEq, Repr

/-! ### Host interface and DMA (R367 to R406) -/

/-- A device-produced ring, or the head of a command ring: the index (HIF_RING_STAT shows it, but for telemetry), the phase the next
element carries, and whether an element was dropped before it. -/
structure Ring where
  idx : Nat
  phase : Bool
  lost : Bool
  /-- the host's index, by its doorbell since the ring was enabled -/
  host : Nat
deriving DecidableEq, Repr

def Ring.reset : Ring := { idx := 0, phase := true, lost := false, host := 0 }

/-- A telemetry record that is being written (R393): port, arm, period, its bytes 0 to 62 but for flags, and its lane blocks. -/
structure TelRec where
  port : Nat
  arm : Nat
  period : Nat
  head : List Byte
  blocks : List (List Byte)
deriving DecidableEq, Repr

/-- A FENCE that has not completed (R387): the source (0, 1 a port's ring, 2 the mailbox), its master, tag, ring index and notify flag,
the fence instant, scope, the descriptors it waits for as (channel, number), and whether an earlier entry of its source waits. -/
structure Fence where
  source : Nat
  master : Nat
  tag : Nat
  index : Nat
  notify : Bool
  /-- the fence instant in 2^-32 ns, and its number among the entries captured -/
  instant : Nat
  ord : Nat
  scope : Nat
  descs : List (Nat × Nat)
deriving DecidableEq, Repr

/-- A DMA channel beside its registers: the descriptor in progress (its 32 bytes), the address of the next one to fetch, the
descriptors of the run so far, and the number of descriptors ever fetched. -/
structure DmaCh where
  desc : Option (List Byte)
  nextAddr : Nat
  hops : Nat
  fetched : Nat
deriving DecidableEq, Repr

def DmaCh.reset : DmaCh := { desc := none, nextAddr := 0, hops := 0, fetched := 0 }

/-- The claims of a CORE_CLK cycle that found no owner (R371, R372, R479): the cycle, the number of the OWN_CHANGE, the masters that
claimed, the tie memory and HIF_OWN_STAT before them, and the masters of their OWN_REQUEST events with the numbers of these. -/
structure FreeClaim where
  cyc : Nat
  seq : Nat
  masters : List Nat
  wins : List (Nat × Nat)
  shown : Nat
  asked : List (Nat × Nat)
deriving DecidableEq, Repr

/-- What a DMA channel has written in a CORE_CLK cycle (R406): the space, with the port for host memory, the address and the bytes. -/
structure DmaWrite where
  cyc : Nat
  ch : Nat
  space : Nat
  port : Nat
  addr : Nat
  bytes : List Byte
deriving DecidableEq, Repr

/-- The host interface beside its registers. -/
structure Hif where
  /-- last value written to each doorbell: key port × 2^16 + BAR4 offset (R378) -/
  db : List (Nat × Nat)
  /-- MSI-X messages raised: key port × 64 + vector (R380) -/
  msix : List (Nat × Nat)
  /-- rings: key port × 32 + r for r = 0, 1, 3, and port × 32 + 8 + a for telemetry of arm a -/
  rings : List (Nat × Ring)
  /-- event entries not yet signalled by vector 0, per port; the status block of a port is to be written -/
  unsignalled : List Nat
  /-- CORE_CLK cycle of the first of them, per port -/
  firstAt : List Nat
  statusDue : List Bool
  /-- telemetry overflows reported since the drop count was read: port × 32 + arm (R395) -/
  telSeen : List Nat
  /-- telemetry records under way (R393) -/
  tel : List TelRec
  /-- ordered pairs of masters (x, y): x wins the next tie against y (R372) -/
  tieWins : List (Nat × Nat)
  /-- the hand-over of R373 under way: its successor, 3 for a release -/
  handover : Option Nat
  /-- the latest of the instants of R374, a CORE_CLK cycle -/
  leaseFrom : Nat
  /-- the latest claims that found no owner (R371, R372) -/
  freeClaim : Option FreeClaim
  /-- command entries captured so far: their order (R387) -/
  capSeq : Nat
  /-- fences that wait, oldest first (R387) -/
  fences : List Fence
  /-- the DMA channels (R399) -/
  dma : List (Nat × DmaCh)
  /-- ordered pairs of channels (x, y): x comes first at the next tie; what channels wrote in the present cycle (R406) -/
  dmaWins : List (Nat × Nat)
  dmaWrote : List DmaWrite
  /-- DMAK 15 of the FATAL task waits for the copy (R397) -/
  dumpBusy : Bool
  /-- the staging area has still to be prepared after a fatal error (R396) -/
  stageDue : Bool
  /-- the faulting engine, its code and pc, the instant, period and mode of the fatal error (R396) -/
  fatalEng : Nat
  fatalCode : Nat
  fatalPc : Nat
  fatalAt : Nat
  fatalPeriod : Nat
  fatalMode : Nat
  /-- the last MSPI transaction was discarded (R375) -/
  mspiDiscard : Bool
  /-- HIF_MBOX_CTL.go has been written, by this master, and its entry is not captured yet (R386) -/
  mboxGo : Option Nat
deriving DecidableEq, Repr

def Hif.reset : Hif :=
  { db := [], msix := [], rings := [], unsignalled := [0, 0], firstAt := [0, 0], statusDue := [false, false], telSeen := [], tel := [], tieWins := [],
    handover := none, leaseFrom := 0, freeClaim := none, capSeq := 0, fences := [], dma := [], dmaWins := [], dmaWrote := [], dumpBusy := false, stageDue := false, fatalEng := 0xFF, fatalCode := 0, fatalPc := 0,
    fatalAt := 0, fatalPeriod := 0, fatalMode := 0, mspiDiscard := false, mboxGo := none }

/-! ### Timebase correction, Ethernet and Echo Status Port (R410 to R429) -/

/-- An Ethernet port beside its registers. -/
structure EthPort where
  /-- frames written to the RX ring (wrapping), its next entry, the next TX descriptor, the descriptor being sent -/
  rxCount : Nat
  rxNext : Nat
  txNext : Nat
  txBusy : Option Nat
  /-- the latest frame sent, without FCS -/
  txFrame : List Byte
  /-- an identity has been stored since gm_watch was set (R423) -/
  gmSeen : Bool
  /-- auto-negotiation was restarted and has not completed -/
  negotiating : Bool
  /-- the CORE_CLK cycle in which the next descriptor was last examined (R420) -/
  pollAt : Nat
deriving DecidableEq, Repr

def EthPort.reset : EthPort :=
  { rxCount := 0, rxNext := 0, txNext := 0, txBusy := none, txFrame := [], gmSeen := false, negotiating := false, pollAt := 0 }

/-- A request that waits for the period tick of its cycle (R414): its source, and an offset in 1/256 ns with force_slew, or an absolute
set where there is none. -/
structure TimReq where
  source : Nat
  ofs : Option (Int × Bool)
deriving DecidableEq, Repr

/-- The timebase's corrections, the Ethernet ports and the status port beside their registers. -/
structure Tim where
  /-- remaining offset of the slew in progress, 2^-32 ns -/
  rem : Int
  /-- s and q of R415 in 10^-4 ppm, and the adjustment of the following law in 2^-32 ns per tick (R357) -/
  rampS : Int
  rampQ : Int
  follow : Int
  /-- the CORE_CLK cycle of the latest update of s and q -/
  rampAt : Nat
  /-- requests that wait for the period tick of their cycle, and the cycle of the owner's latest request (R414) -/
  late : List TimReq
  ownAt : Option Nat
  /-- the cycle of the latest step and the timebase value before it, 2^-32 ns (R414) -/
  stepAt : Option Nat
  stepFrom : Nat
  /-- last seq seen in the engine request record (R416), and the record read at the latest tick that is not applied yet -/
  reqSeq : Option Nat
  reqPend : Option (List Byte)
  /-- the two Ethernet ports (R417) -/
  eth : List (Nat × EthPort)
  /-- stored counts of the sampled-value entries (R425) -/
  svCount : List (Nat × Nat)
  /-- the frozen bank while ESP_HOLD_N is low (R428) -/
  espHold : Option (List Byte)
  /-- the bank at the last CORE_CLK tick, while CORE_CLK stands; the arms below N_required at the last GATHER_DONE (R429) -/
  espOld : List Byte
  espArms : Nat
deriving DecidableEq, Repr

def Tim.reset : Tim :=
  { rem := 0, rampS := 0, rampQ := 0, follow := 0, rampAt := 0, late := [], ownAt := none, stepAt := none, stepFrom := 0, reqSeq := none,
    reqPend := none, eth := [], svCount := [], espHold := none, espOld := [], espArms := 0 }

/-! ### CAN FD controllers (R430 to R445) -/

/-- An entry of a transmit queue: its id word, control byte, data, and the feed-ring entry it came from (R434, R435). -/
structure CanEntry where
  idWord : Nat
  control : Nat
  data : List Byte
  feed : Option Nat
deriving DecidableEq, Repr

/-- A received frame matched to an object and not stored yet (R439, R440). -/
structure CanRx where
  obj : Nat
  idWord : Nat
  control : Nat
  data : List Byte
  sof : Nat
deriving DecidableEq, Repr

/-- A controller beside its registers. -/
structure Can where
  /-- the operation in effect: en and mode as last taken over at bus idle (R433) -/
  on : Bool
  mode : Nat
  /-- the transmit queue, oldest first (R434) -/
  queue : List CanEntry
  /-- consecutive acknowledge errors, and bit errors after arbitration, of the head entry (R437, R438) -/
  ackRun : Nat
  clashRun : Nat
  /-- abort_head, and flush, wait for the attempt in progress (R436) -/
  abortPend : Bool
  flushPend : Bool
  /-- next entry of the transmit feed (R434) -/
  feedNext : Nat
  /-- matched frames not yet written to their objects (R440) -/
  rx : List CanRx
  /-- objects whose loss has been reported since byte 9 was last cleared (R441) -/
  lostSeen : List Nat
  /-- the CORE_CLK cycle in which the feed was last examined (R434) -/
  pollAt : Nat
  /-- the PERIPH_CLK cycle of the latest push that entered the queue, and how many entered in it (R434) -/
  pushAt : Nat
  pushes : Nat
  /-- a push that found the queue full: its PERIPH_CLK cycle, its entry, and tx_full before it (R434) -/
  fullPush : Option (Nat × CanEntry × Nat)
deriving DecidableEq, Repr

def Can.reset : Can :=
  { on := false, mode := 0, queue := [], ackRun := 0, clashRun := 0, abortPend := false, flushPend := false, feedNext := 0, rx := [],
    lostSeen := [], pollAt := 0, pushAt := 0, pushes := 0, fullPush := none }

/-! ### The redundant pair (R335 to R366) -/

/-- An item of an INPUT frame (R349). `ns` is the capture instant in ns; of a received item it is the nanoseconds field alone. -/
structure MirItem where
  kind : Nat
  source : Nat
  ns : Nat
  payload : List Byte
  /-- for a command entry of this device: its ring index, and its number among the entries captured -/
  index : Option Nat
  ord : Nat
deriving DecidableEq, Repr

/-- The content of an INPUT frame (R347): its period, the snapshot words, the items, and the flags of the period block (R350). -/
structure MirInput where
  period : Nat
  snapshot : List Nat
  items : List MirItem
  flags : Nat
deriving DecidableEq, Repr

/-- The pair beside its registers. -/
structure Pair where
  /-- data blocks of the partner's latest STATUS frame, and the CORE_CLK cycle of its arrival -/
  status : List Nat
  statusCyc : Option Nat
  /-- the partner's STATUS frame of the period has arrived; consecutive periods without one; PARTNER_LOST has been raised -/
  statusSeen : Bool
  statusMiss : Nat
  lostSeen : Bool
  /-- launches of the own STATUS frames of the two latest periods, launch of the partner's latest, and arrivals of its two latest:
  (period, 1/256 ns) -/
  ownTx : List (Nat × Nat)
  partnerTx : Option (Nat × Nat)
  partnerRx : List (Nat × Nat)
  /-- side of the partner's latest frame -/
  partnerSide : Option Nat
  /-- consecutive measurements within 1 ns (R357) -/
  tfRun : Nat
  /-- a comparison was made in the period -/
  compared : Bool
  /-- items captured since the last boundary, those captured in the period before it, and those deferred (R347) -/
  capNow : List MirItem
  capLast : List MirItem
  deferred : List MirItem
  /-- the device was the holder at the latest boundary -/
  held : Bool
  /-- the content that is applied at Q_n, and whether an INPUT frame was discarded in the period (R352) -/
  input : Option MirInput
  inputBad : Bool
  /-- mode request of an INPUT frame to be evaluated at the next boundary, with its source (R350); one that a later one replaces is
  refused -/
  request : Option (Nat × Nat)
  /-- the join (R362): open, the arms adopted, the arm last asked for in a STATUS frame (15 none), records received for an arm with the
  low 16 bits of their period, the arm whose records were sent -/
  joinOpen : Bool
  adopted : List Nat
  wantSent : Nat
  joinData : Option (Nat × Nat × List (List Byte))
  joinSent : Option Nat
  /-- the arm of the latest JOIN frame and its period (R362) -/
  joinArm : Option (Nat × Nat)
  /-- a hand-over written on the holder, and one that is due at the next boundary (R364) -/
  handover : Bool
  handoverDue : Bool
  /-- the interlock (R339, R341, R344), in CORE_CLK cycles, which the monitor oscillator counts while CORE_CLK stands: when ILK_IN became
  OPEN, when it left OPEN, when the bond was lost, and when the first and the latest BLOCK set of class 0x4 came on a mirror lane since ILK_IN
  last left OPEN; whether OPEN followed HOLD, and whether the bond was up at that change -/
  openAt : Option Nat
  closedAt : Nat
  bondAt : Option Nat
  stepBefore : Bool
  openBonded : Bool
  blockAt : Option Nat
  blockLast : Option Nat
  /-- the frames last sent: tag and data blocks, STATUS, INPUT, JOIN -/
  sent : List (Nat × List Byte × List Nat)
  /-- entered RUN as holder at this boundary: local content for n + 1 (R351) -/
  localInput : Bool
  /-- the mirror point of the period has passed (R350) -/
  mirDone : Bool
  /-- the next block distributed to the mirror lanes goes to MIR1; the next one taken comes from MIR1 (R121, R122) -/
  txTurn : Bool
  rxTurn : Bool
  /-- `rxTurn` as it stood before the latest marker pair (R122) -/
  rxBefore : Bool
deriving DecidableEq, Repr

def Pair.reset : Pair :=
  { status := [], statusCyc := none, statusSeen := false, statusMiss := 0, lostSeen := false, ownTx := [], partnerTx := none,
    partnerRx := [], partnerSide := none, tfRun := 0, compared := false, capNow := [], capLast := [], deferred := [], held := false, input := none, inputBad := false,
    request := none, joinOpen := false, adopted := [], wantSent := 15, joinData := none, joinSent := none, joinArm := none, handover := false,
    handoverDue := false, openAt := none, closedAt := 0, bondAt := none, stepBefore := false, openBonded := false, blockAt := none, blockLast := none, sent := [],
    localInput := false, mirDone := false, txTurn := false, rxTurn := false, rxBefore := false }

/-- MODEL: what a mode request changed that was accepted in the present cycle, as it stood before (R49). -/
structure Undo where
  seq : Seq
  boot : Boot
  regs : List (Nat × BitVec 32)
  lanes : List (Nat × Lane)
  cells : List (Nat × Cell)
  arms : List (Nat × Arm)
  units : List (Nat × WinUnit)
  plan : Plan
  engines : List (Nat × Engine)
  tasks : List (Nat × Task)
  sched : Sched
  adc : Adc
  fr : Recorder
  saf : Saf
  can : List (Nat × Can)
  pair : Pair
deriving DecidableEq, Repr

/-! ### The whole state -/

/-- The block and the queue of its waiting commands. -/
structure State where
  /-- commands waiting, first in first out -/
  pending : List Instr
  now : Timebase
  /-- CORE_CLK cycles passed since the start of the model; while CORE_CLK stands, the monitor oscillator's time in the same unit of
  1.6 ns (log entry 7) -/
  cyc : Nat
  /-- W1C and RC bits that the device has set in CORE_CLK cycle `justAt`: masks by register offset (R11) -/
  just : List (Nat × Nat)
  justAt : Nat
  seq : Seq
  mode : Mode
  /-- GLB_MODE.origin (R50) -/
  origin : Mode
  ctl : ModeCtl
  pwr : Power
  boot : Boot
  /-- registers by unprivileged offset; an unlisted one holds its reset value (RegMap) -/
  regs : List (Nat × BitVec 32)
  /-- snapshot registers (R12): key master × 2^24 + offset of the high half -/
  snaps : List (Nat × BitVec 32)
  /-- bytes of the last read completion returned to a master, and whether it was poisoned -/
  rdata : List Byte
  poisoned : Bool
  /-- raised events not yet written to the rings and silos (R390), and the number raised (R388) -/
  events : List Event
  evSeq : Nat
  /-- granary bytes (unlisted bytes are 0, R453) and the words whose check fails uncorrectably (R452) -/
  grn : List Host.Cell
  grnBad : List Nat
  /-- corrected words whose write-back waits (R452); the instant of the last ECC_CORR; the next word of the patrol scrub (R453) -/
  eccWb : List Nat
  /-- stores through port B of the present cycle: the cycle, the address and the bytes (R451) -/
  portB : List (Nat × Nat × List Byte)
  /-- external writes to data memories and reads of engines in the present cycle, with their cycle, oldest first (R222, R233) -/
  dmExt : List (Nat × Nat × List Byte)
  engReads : List CycRead
  eccCorrAt : Option Nat
  scrubWord : Nat
  scrubCyc : Nat
  /-- host memory the device has written: key port × 2^64 + address -/
  hostMem : List Host.Cell
  lanes : List (Nat × Lane)
  cells : List (Nat × Cell)
  arms : List (Nat × Arm)
  units : List (Nat × WinUnit)
  plan : Plan
  pwm : List (Nat × Pwm)
  pwmIo : PwmIo
  engines : List (Nat × Engine)
  /-- program memories: key engine × 2^14 + instruction index; data memories: key engine × 2^15 + byte address (R204) -/
  pm : List (Nat × BitVec 32)
  dm : List Host.Cell
  tasks : List (Nat × Task)
  sched : Sched
  adc : Adc
  fr : Recorder
  saf : Saf
  hif : Hif
  tim : Tim
  can : List (Nat × Can)
  pair : Pair
  /-- MODEL: what the latest accepted mode request changed (R49) -/
  undo : Option Undo
  /-- MODEL: number of free values used so far (Config.freeValue) -/
  freeCtr : Nat
deriving DecidableEq, Repr

/-! ### Reset -/

/-- The machine in its reset: supplies and references present, PORST_N low, the PLL not locked, every register at its reset value
(the table `regs` lists nothing), nothing retained, every memory at zeros. Log entry 2 lists the values the specification does not
give. -/
def State.reset : State :=
  { pending := []
    now := { ns := 0, frac := 0 }
    cyc := 0
    just := []
    justAt := 0
    seq := { running := false, startPend := false, stopPend := false, next := 0, started := false, gatherDone := false, gatherCyc := 0,
             gatherAt := none, planAt := none, turned := false, availDone := false, deadlinePassed := false, ordered := false, planComplete := false, planLate := false, timed := false, launched := false }
    mode := .boot
    origin := .off
    ctl := { request := none, fatal := false, chargeOk := false, chargeRun := 0, musterDone := false, retValid := false,
             checkBusy := false, pendMatch := none, evald := none, blockedAt := none }
    pwr := { vbat := true, rails := true, porstLow := true, railReset := false, railOut := 0, pllLocked := false, pllOnce := false, upCyc := 0, tempAt := 0,
             tempSeen := false, refPresent := true, clkFault := false, lrefA := true, lrefB := true, pcieRef := true, espLow := false, held := .off }
    boot := { phase := .idle, image := [], restart := false, qspiLeft := [] }
    regs := []
    snaps := []
    rdata := []
    poisoned := false
    events := []
    evSeq := 0
    grn := []
    grnBad := []
    eccWb := []
    portB := []
    dmExt := []
    engReads := []
    eccCorrAt := none
    scrubWord := 0
    scrubCyc := 0
    hostMem := []
    lanes := []
    cells := []
    arms := []
    units := []
    plan := { slots := [], queue := [], digest := 0 }
    pwm := []
    pwmIo := { masks := [none, none, none, none], byp := [], recs := [], recAt := 0, handAt := none, zcSign := [0, 0], flt := [], hiz := 0, fltSeen := 0, safeHiZ := true, syncOut := false,
               syncOutFrom := 0, syncOutArmed := false, syncInAt := none, dlAt := 0, was := [], wasAt := 0 }
    engines := []
    pm := []
    dm := []
    tasks := []
    sched := { tickCyc := 0, fatalCyc := 0, evtCyc := 0, evts := [], planAt := none, cause := false, limitHit := false }
    adc := Adc.reset
    fr := Recorder.reset
    saf := { lockout := false, confirmed := none, histNext := 0, history := [], retBytes := [], retDirty := false, readAt := 0, window := 0,
             windowSeen := 0, tpB := false, tpLevelA := false, tpLevelB := false, tpPhase := 0, tpStart := 0, tpLastA := none,
             discFrom := [none, none, none, none], press := none, rise := none, trig := none, blockClass := 0 }
    hif := Hif.reset
    tim := Tim.reset
    can := []
    pair := Pair.reset
    undo := none
    freeCtr := 0 }

end Sys2Proof.Machine
end

