-- ==== Sys2Proof/Machine/Table.lean ====
section
/-! DEFINITION. Plain bit, byte and arithmetic helpers and the sparse tables State is made of: a table is a list of
(key, value) pairs in one canonical form (keys strictly rising, no entry equal to what an unlisted key reads as). -/

namespace Sys2Proof.Machine

/-! ### Bits and bytes (R5) -/

/-- Bits [hi:lo] of a natural number. -/
def bitsOf (v hi lo : Nat) : Nat := v / 2 ^ lo % 2 ^ (hi + 1 - lo)

/-- Bit `b` of a natural number, as a truth value. -/
def bitOf (v b : Nat) : Bool := v / 2 ^ b % 2 == 1

/-- `old` with bits [hi:lo] replaced by `v` (taken modulo the field's width). -/
def setBits (old hi lo v : Nat) : Nat :=
  old - bitsOf old hi lo * 2 ^ lo + v % 2 ^ (hi + 1 - lo) * 2 ^ lo

/-- 1 for true, 0 for false. -/
def b2n (b : Bool) : Nat := if b then 1 else 0

/-- The two's complement value of the low `w` bits of `v`. -/
def sx (w v : Nat) : Int :=
  let u := v % 2 ^ w
  if u ≥ 2 ^ (w - 1) then (u : Int) - (2 ^ w : Nat) else u

/-- The `w`-bit two's complement pattern of an integer (wrapping). -/
def twos (w : Nat) (x : Int) : Nat := (x % ((2 ^ w : Nat) : Int)).toNat

/-- An integer limited to a range. -/
def iclamp (x lo hi : Int) : Int := if x < lo then lo else if x > hi then hi else x

/-- A natural number limited to a range. -/
def nclamp (x lo hi : Nat) : Nat := if x < lo then lo else if x > hi then hi else x

/-- A saturating count: one more, never above `top`. -/
def satInc (x top : Nat) : Nat := if x ≥ top then top else x + 1

/-- A saturating sum. -/
def satAdd (x k top : Nat) : Nat := if x + k ≥ top then top else x + k

/-- Quotient rounded up. -/
def ceilDiv (a b : Nat) : Nat := (a + b - 1) / b

/-- x / 2^sh rounded to nearest, halves away from zero (round_half_away of R155, R171 and R172). -/
def roundHalfAway (x : Int) (sh : Nat) : Int :=
  let h : Nat := 2 ^ sh
  let a := (2 * x.natAbs + h) / (2 * h)
  if x < 0 then -(a : Int) else a

/-- a / b rounded to nearest, halves away from zero, for natural numbers. -/
def roundDiv (a b : Nat) : Nat := (2 * a + b) / (2 * b)

/-- The `n` low bytes of `v`, least significant first (R5). -/
def leBytes : (n v : Nat) → List Byte
  | 0, _ => []
  | n + 1, v => BitVec.ofNat 8 v :: leBytes n (v / 256)

/-- The number a little-endian byte string spells (R5). -/
def leNat : List Byte → Nat
  | [] => 0
  | b :: t => b.toNat + 256 * leNat t

/-- Bytes [a, a + n) of a byte string as a little-endian number; bytes past its end read 0. -/
def fieldAt (bs : List Byte) (a n : Nat) : Nat := leNat ((bs.drop a).take n)

/-! ### Sparse tables -/

/-- What the table reads at key `k`; `d` where it lists none. -/
def tget {α : Type} (d : α) : List (Nat × α) → Nat → α
  | [], _ => d
  | p :: t, k => if p.1 = k then p.2 else tget d t k

/-- The table with an entry put before the first larger key. -/
def tins {α : Type} (k : Nat) (v : α) : List (Nat × α) → List (Nat × α)
  | [] => [(k, v)]
  | p :: t => if k < p.1 then (k, v) :: p :: t else p :: tins k v t

/-- The table with no entry for `k`. -/
def tdel {α : Type} (k : Nat) : List (Nat × α) → List (Nat × α)
  | [] => []
  | p :: t => if p.1 = k then tdel k t else p :: tdel k t

/-- The table that reads `v` at `k` and is otherwise as before; writing the default removes the entry. -/
def tput {α : Type} [DecidableEq α] (d : α) (t : List (Nat × α)) (k : Nat) (v : α) : List (Nat × α) :=
  if v = d then tdel k t else tins k v (tdel k t)

/-- The canonical form: strictly rising keys above `lo`, and no entry equal to `d`. -/
def twf {α : Type} [DecidableEq α] (d : α) : Option Nat → List (Nat × α) → Bool
  | _, [] => true
  | none, p :: t => decide (p.2 ≠ d) && twf d (some p.1) t
  | some lo, p :: t => decide (lo < p.1) && decide (p.2 ≠ d) && twf d (some p.1) t

/-- A list with element `i` replaced (unchanged where the list is too short). -/
def lset {α : Type} : List α → Nat → α → List α
  | [], _, _ => []
  | _ :: t, 0, v => v :: t
  | a :: t, i + 1, v => a :: lset t i v

/-- The numbers below `n`, rising. -/
def upto (n : Nat) : List Nat := List.range n

/-! ### Redundancy checks (R70, R71) -/

/-- One bit step of the reflected CRC-32C (polynomial 0x1EDC_6F41, reflected 0x82F6_3B78). -/
def crc32cBit (c : Nat) : Nat := if c % 2 = 1 then (c / 2) ^^^ 0x82F63B78 else c / 2

def crc32cByte (c : Nat) (b : Byte) : Nat :=
  let c := c ^^^ b.toNat
  crc32cBit (crc32cBit (crc32cBit (crc32cBit (crc32cBit (crc32cBit (crc32cBit (crc32cBit c)))))))

/-- CRC-32C of a byte string (R70). -/
def crc32c (bs : List Byte) : Nat := (bs.foldl crc32cByte 0xFFFFFFFF) ^^^ 0xFFFFFFFF

def crc8Bit (c : Nat) : Nat := if c ≥ 128 then ((c * 2) % 256) ^^^ 0x2F else (c * 2) % 256

def crc8Byte (c : Nat) (b : Byte) : Nat :=
  let c := c ^^^ b.toNat
  crc8Bit (crc8Bit (crc8Bit (crc8Bit (crc8Bit (crc8Bit (crc8Bit (crc8Bit c)))))))

/-- The NCL CRC-8 of a byte string (R71). -/
def crc8 (bs : List Byte) : Nat := (bs.foldl crc8Byte 0xFF) ^^^ 0xFF

end Sys2Proof.Machine
end

