-- ==== Sys2Proof/Machine/Ops.lean ====
section
/-! DEFINITION. The named operations over registers, time, events, the granary and host memory on which every meaning rests. -/

namespace Sys2Proof.Machine

/-! ### Registers as stored -/

/-- The stored value of the register at an unprivileged offset. -/
def State.rd (s : State) (off : Nat) : Nat := (tget (BitVec.ofNat 32 (resetVal off)) s.regs off).toNat

/-- The register at an unprivileged offset holds `v` (modulo 2^32). -/
def State.wr (s : State) (off v : Nat) : State :=
  { s with regs := tput (BitVec.ofNat 32 (resetVal off)) s.regs off (BitVec.ofNat 32 v) }

/-- The value of a field. -/
def State.f (s : State) (x : Fld) : Nat := bitsOf (s.rd x.off) x.hi x.lo

/-- A one-bit field as a truth value. -/
def State.fb (s : State) (x : Fld) : Bool := s.f x != 0

/-- A field takes a value (modulo its width); the register's other bits keep theirs. -/
def State.setF (s : State) (x : Fld) (v : Nat) : State := s.wr x.off (setBits (s.rd x.off) x.hi x.lo v)

/-- The bits of a register that the device has set in the present CORE_CLK cycle (R11). -/
def State.justSet (s : State) (off : Nat) : Nat := if s.justAt = s.cyc then tget 0 s.just off else 0

/-- The device has set bits of a register in this cycle. -/
def State.note (s : State) (off mask : Nat) : State :=
  { s with just := tput 0 (if s.justAt = s.cyc then s.just else []) off (s.justSet off ||| mask), justAt := s.cyc }

/-- The device sets bits `m` of a W1C field; they are set in this cycle even where they read 1 before. -/
def State.orF (s : State) (x : Fld) (m : Nat) : State :=
  (s.setF x (s.f x ||| m)).note x.off (m % 2 ^ (x.hi + 1 - x.lo) * 2 ^ x.lo)

/-- The device sets a W1C bit. -/
def State.mark (s : State) (x : Fld) : State := s.orF x 1

/-- The device gives an RC field a value: the bits that turn from 0 to 1 are set in this cycle. -/
def State.putRc (s : State) (x : Fld) (v : Nat) : State :=
  let old := s.f x
  let t := s.setF x v
  t.note x.off ((t.f x - (t.f x &&& old)) * 2 ^ x.lo)

/-- The device gives a field that holds the largest value since its read a value of this cycle: where it is the largest, the device sets
the whole of it in this cycle. -/
def State.putWorst (s : State) (x : Fld) (v : Nat) : State :=
  if s.f x ≤ v then (s.setF x v).note x.off (v % 2 ^ (x.hi + 1 - x.lo) * 2 ^ x.lo) else s

/-- A count of an RC field saturates at all ones when counted up by `k`. -/
def State.bumpF (s : State) (x : Fld) (k : Nat) : State :=
  s.putRc x (satAdd (s.f x) k (2 ^ (x.hi + 1 - x.lo) - 1))

/-- A clearing write or read clears bits `m` of a field, but for those that the device has set in the same cycle (R11). -/
def State.clearBits (s : State) (off hi lo m : Nat) : State :=
  let cur := bitsOf (s.rd off) hi lo
  let gone := (cur &&& m) - (cur &&& m &&& bitsOf (s.justSet off) hi lo)
  s.wr off (setBits (s.rd off) hi lo (cur - gone))

/-! ### Typed tables -/

def State.lane (s : State) (l : Nat) : Lane := tget Lane.reset s.lanes l
def State.setLane (s : State) (l : Nat) (v : Lane) : State := { s with lanes := tput Lane.reset s.lanes l v }
def State.modLane (s : State) (l : Nat) (g : Lane → Lane) : State := s.setLane l (g (s.lane l))

def State.cell (s : State) (c : Nat) : Cell := tget Cell.reset s.cells c
def State.setCell (s : State) (c : Nat) (v : Cell) : State := { s with cells := tput Cell.reset s.cells c v }
def State.modCell (s : State) (c : Nat) (g : Cell → Cell) : State := s.setCell c (g (s.cell c))

def State.arm (s : State) (a : Nat) : Arm := tget Arm.reset s.arms a
def State.setArm (s : State) (a : Nat) (v : Arm) : State := { s with arms := tput Arm.reset s.arms a v }
def State.modArm (s : State) (a : Nat) (g : Arm → Arm) : State := s.setArm a (g (s.arm a))

def State.unit (s : State) (u : Nat) : WinUnit := tget WinUnit.reset s.units u
def State.modUnit (s : State) (u : Nat) (g : WinUnit → WinUnit) : State :=
  { s with units := tput WinUnit.reset s.units u (g (s.unit u)) }

def State.pwmCh (s : State) (c : Nat) : Pwm := tget Pwm.reset s.pwm c
def State.modPwm (s : State) (c : Nat) (g : Pwm → Pwm) : State :=
  { s with pwm := tput Pwm.reset s.pwm c (g (s.pwmCh c)) }

def State.canC (s : State) (k : Nat) : Can := tget Can.reset s.can k
def State.modCan (s : State) (k : Nat) (g : Can → Can) : State := { s with can := tput Can.reset s.can k (g (s.canC k)) }

def State.modPair (s : State) (g : Pair → Pair) : State := { s with pair := g s.pair }

/-! ### Free values -/

/-- A value the specification leaves open (log entry 3): the next free value, and the state that has used it. -/
def State.free (s : State) : Nat × State :=
  ((Config.freeValue s.freeCtr).toNat, { s with freeCtr := s.freeCtr + 1 })

/-! ### Power -/

/-- A powered mode: BOOT and above. -/
def Mode.powered : Mode → Bool
  | .off | .dormant => false
  | _ => true

/-- The device is supplied and not held in reset: what runs from the monitor oscillator works (R312). -/
def State.awake (s : State) : Bool := s.mode.powered && s.pwr.rails && !s.pwr.porstLow && !s.pwr.railReset

/-- The device is in a mode from BOOT upward: awake, and past the first lock of its PLL (R19, R45). -/
def State.up (s : State) : Bool := s.awake && s.pwr.pllOnce

/-- The internal clocks run (R17, R19). -/
def State.live (s : State) : Bool := s.up && s.pwr.pllLocked

/-! ### Time -/

/-- Nanoseconds in a second. -/
def nsPerSec : Nat := 1000000000

/-- The period in ns (R22). -/
def State.periodNs (s : State) : Nat := s.f F.GLB_PERIOD_period_steps * 5

/-- The origin in ns (R23). -/
def State.originNs (s : State) : Nat :=
  (s.f F.GLB_ORIGIN_SEC_LO_origin_sec_lo + s.f F.GLB_ORIGIN_SEC_HI_origin_sec_hi * 2 ^ 32) * nsPerSec
    + s.f F.GLB_ORIGIN_NS_origin_ns

/-- The boundary P_n (R23). -/
def State.boundary (s : State) (n : Nat) : Nat := s.originNs + n * s.periodNs

/-- The number of the first boundary at or after the present timebase value (R23); of a value before the origin the model takes n = 0
(log entry 133). -/
def State.firstBoundary (s : State) : Nat :=
  let t := s.now.ns + (if s.now.frac = 0 then 0 else 1)
  if t ≤ s.originNs then 0 else ceilDiv (t - s.originNs) s.periodNs

/-- The full number n of the period in progress (R23): that of the last boundary released, or of the last boundary instant while
the sequencer is stopped. -/
def State.periodFull (s : State) : Nat :=
  if s.seq.started then s.seq.next - 1
  else if s.now.ns < s.originNs then 0 else (s.now.ns - s.originNs) / s.periodNs

/-- The period number, modulo 2^32 (R23). -/
def State.periodNum (s : State) : Nat := s.periodFull % 2 ^ 32

/-- P_n of the period in progress. -/
def State.pN (s : State) : Nat := s.boundary s.periodFull

/-- pair_en is 1 (R335). -/
def State.paired (s : State) : Bool := s.fb F.RED_CFG_pair_en

/-- The holder drives HOLD on ILK_OUT (R335). -/
def State.holder (s : State) : Bool := s.paired && s.f F.RED_STAT_drive == 2

/-- The device is following (R412): paired, not the holder, with the period sequencer running. -/
def State.following (s : State) : Bool := s.paired && !s.holder && s.seq.running

/-- Bound of the adjustment, ±200 ppm of 1.6 ns in 2^-32 ns (R410), and ±100 ppm (R415). -/
def adjBound : Int := 1374389
def holdBound : Int := 687195

/-- Parts per million, given in units of 10^-4, in 2^-32 ns per tick of 1.6 ns. -/
def ppmLsb (x : Int) : Int := (x * 68719476736 + (if x < 0 then -50000000000 else 50000000000)).tdiv 100000000000

/-- The adjustment that does not come from a slew in progress; on a holder the slew term that is left when a slew has ended still counts
(R415). -/
def State.rateAdj (s : State) : Int :=
  if s.following then iclamp s.tim.follow (-adjBound) adjBound
  else if s.holder then
    iclamp (ppmLsb (if s.fb F.TIM_STAT_slewing then s.tim.rampQ else s.tim.rampQ + s.tim.rampS)) (-holdBound) holdBound
  else sx 24 (s.f F.TIM_RATE_rate)

/-- The contribution of the slew to one tick (R410, R415). -/
def State.slewAdj (s : State) : Int :=
  if s.fb F.TIM_STAT_slewing then
    if s.holder then iclamp (ppmLsb (s.tim.rampQ + s.tim.rampS)) (-holdBound) holdBound - s.rateAdj
    else iclamp (s.rateAdj + s.tim.rem.sign * ppmLsb (s.f F.TIM_SLEW_CFG_slew_ppm * 10000)) (-adjBound) adjBound - s.rateAdj
  else 0

/-- The increment of R407 without a slew, 2^-32 ns. -/
def State.increment (s : State) : Nat :=
  ((s.f F.TIM_INC_INT_int * 2 ^ 32 + s.f F.TIM_INC_FRAC_frac : Nat) + s.rateAdj).toNat

/-- A contribution of the slew that would take the remainder to 0 or past it (R410). -/
def slewPast (rem c : Int) : Bool := c.sign == rem.sign && decide (rem.natAbs ≤ c.natAbs)

/-- `k` ticks of a slew leave this remainder: the contribution is subtracted, and never past 0 (R410). -/
def State.slewAfter (s : State) (k : Nat) : State :=
  let c := s.slewAdj
  let total := c * k
  if c = 0 then s
  else if slewPast s.tim.rem total then
    { (s.setF F.TIM_STAT_slewing 0) with tim := { s.tim with rem := 0 } }
  else { s with tim := { s.tim with rem := s.tim.rem - total } }

/-- The timebase value in 2^-32 ns. -/
def State.nowUnits (s : State) : Nat := s.now.ns * 2 ^ 32 + s.now.frac

/-- Ticks until a slew in progress has ended; its last contribution is what is left (R410). -/
def State.slewTicks (s : State) : Nat := ceilDiv s.tim.rem.natAbs s.slewAdj.natAbs

/-- `k` CORE_CLK cycles pass: while the internal clocks run, the timebase counts each by its increment and the slew's contribution, and
after the end of a slew by the increment in force then (R407, R410, R415). -/
def State.cycles (s : State) (k : Nat) : State :=
  if s.live then
    let c := s.slewAdj * k
    let t := s.slewAfter k
    let v := if s.slewAdj = 0 then ((s.nowUnits + k * s.increment : Nat) : Int)
      else if slewPast s.tim.rem c then
        ((s.nowUnits + s.slewTicks * s.increment + (k - s.slewTicks) * t.increment : Nat) : Int) + s.tim.rem
      else ((s.nowUnits + k * s.increment : Nat) : Int) + c
    { t with now := { ns := v.toNat / 2 ^ 32, frac := v.toNat % 2 ^ 32 }, cyc := s.cyc + k }
  else { s with cyc := s.cyc + k }

/-- One CORE_CLK tick of the timebase. -/
def State.coreTick (s : State) : State := s.cycles 1

/-- CORE_CLK cycles until the timebase first stands at or after an instant (2^-32 ns). A slew in progress counts until its remainder is
absorbed, and from then on the increment after it. -/
def State.cyclesTo (s : State) (u : Nat) : Nat :=
  let d : Int := (u : Int) - (s.nowUnits : Int)
  let c := s.slewAdj
  let slewed := ceilDiv d.toNat (max 1 (s.increment + c).toNat)
  let n := s.slewTicks
  if c = 0 ∨ c.sign ≠ s.tim.rem.sign ∨ slewed < n then slewed
  else n + ceilDiv (d - s.tim.rem - (n * s.increment : Nat)).toNat (max 1 (s.slewAfter n).increment)

/-- The timebase moves on to the first CORE_CLK tick at or after an instant (2^-32 ns), if it has not reached it: a row whose instant
the specification fixes happens there (log entry 6). -/
def State.advanceToU (s : State) (u : Nat) : State :=
  if s.live && decide (s.nowUnits < u) then s.cycles (s.cyclesTo u) else s

/-- As `advanceToU`, for an instant in ns. -/
def State.advanceTo (s : State) (ns : Nat) : State := s.advanceToU (ns * 2 ^ 32)

/-- Time passes until a cycle of the count, if it has not come yet. -/
def State.advanceCyc (s : State) (c : Nat) : State := if s.cyc < c then s.cycles (c - s.cyc) else s

/-- CORE_CLK cycles (1.6 ns each) that cover a length in ns. -/
def cyclesOfNs (ns : Nat) : Nat := ceilDiv (ns * 5) 8

/-- Cycles in a microsecond, and in a millisecond. -/
def cycPerUs : Nat := 625
def cycPerMs : Nat := 625000

/-- The time word of an instant (R74). -/
def timeWord (ns : Nat) : Nat := ns / nsPerSec % 2 ^ 32 * 2 ^ 32 + ns % nsPerSec

/-! ### Events (R388 to R390) -/

/-- The instant, in 2^-32 ns, that a stamp made now carries: in the tick of a step, the time before it (R414). -/
def State.stampUnits (s : State) : Nat := if s.tim.stepAt = some s.cyc then s.tim.stepFrom else s.nowUnits

/-- The same in whole ns. -/
def State.stampNs (s : State) : Nat := s.stampUnits / 2 ^ 32

/-- The device raises an event with a payload of its own. -/
def State.raiseP (s : State) (code : EvCode) (source : Nat) (payload : List Byte) : State :=
  { s with
    events := s.events ++ [{ code := code, source := source, seq := s.evSeq % 2 ^ 32,
                             time := BitVec.ofNat 64 (timeWord (s.stampUnits / 2 ^ 32)), payload := payload }]
    evSeq := (s.evSeq + 1) % 2 ^ 32 }

/-- The payload of R389: unit, aux, value and the full period number. -/
def State.stdPayload (s : State) (unit aux value : Nat) : List Byte :=
  leBytes 2 unit ++ leBytes 2 aux ++ leBytes 8 value ++ leBytes 4 s.periodNum

/-- The device raises an event with unit, aux and value (R389), from device logic (source 0x00). -/
def State.raise (s : State) (code : EvCode) (unit aux value : Nat) : State :=
  s.raiseP code 0 (s.stdPayload unit aux value)

/-- As `raise`, with a source byte (R388). -/
def State.raiseFrom (s : State) (code : EvCode) (source unit aux value : Nat) : State :=
  s.raiseP code source (s.stdPayload unit aux value)

/-- A clamp is reported (R13, R391), with a source byte: register offset, lowest bit, origin, value asked for and value in force. -/
def State.raiseClampFrom (s : State) (source origin off lo req applied : Nat) : State :=
  s.raiseP .clamp source
    (leBytes 4 (off + lo * 2 ^ 24 + origin * 2 ^ 29) ++ leBytes 4 req ++ leBytes 4 applied ++ leBytes 4 s.periodNum)

/-- A clamp made by the device itself. -/
def State.raiseClamp (s : State) (origin off lo req applied : Nat) : State := s.raiseClampFrom 0 origin off lo req applied

/-- A sticky status bit is set, and its event raised on the change from 0 (an event raised once until its bit is cleared). -/
def State.raiseOnce (s : State) (bit : Fld) (code : EvCode) (unit aux value : Nat) : State :=
  if s.fb bit then s.mark bit else (s.mark bit).raise code unit aux value

/-! ### Masters -/

/-- Master numbers of events and status (R371). -/
def masterNum : Master → Nat
  | .port0 => 0
  | .port1 => 1
  | .mspi => 2

/-- The source byte of a master (R388). -/
def masterSource (m : Master) : Nat := 0x20 + masterNum m

/-! ### Granary (R446, R453) -/

/-- Bytes in the granary (R1). -/
def grnSize : Nat := 67108864

/-- One byte of the granary; unlisted bytes read 0 (R453). -/
def State.grnByte (s : State) (a : Nat) : Byte := tget 0 s.grn a

/-- `n` bytes of the granary from address `a`. -/
def State.grnRead (s : State) (a : Nat) : Nat → List Byte
  | 0 => []
  | n + 1 => s.grnByte a :: s.grnRead (a + 1) n

/-- A little-endian number read from the granary. -/
def State.grnNat (s : State) (a n : Nat) : Nat := leNat (s.grnRead a n)

/-- Bytes put into a byte memory from address `a` on. -/
def putBytes : List Host.Cell → Nat → List Byte → List Host.Cell
  | m, _, [] => m
  | m, a, b :: t => putBytes (tput 0 m a b) (a + 1) t

/-- The device stores bytes into the granary; addresses past its end store nothing. A word stored whole is good again, and a
waiting write-back of a word that a store reaches is dropped (R452). -/
def State.grnWrite (s : State) (a : Nat) (bs : List Byte) : State :=
  if a + bs.length ≤ grnSize then
    { s with grn := putBytes s.grn a bs
             eccWb := s.eccWb.filter (fun w => !(decide (w * 8 < a + bs.length) && decide (a < w * 8 + 8)))
             grnBad := s.grnBad.filter (fun w => !(decide (a ≤ w * 8) && decide (w * 8 + 8 ≤ a + bs.length))) }
  else s

/-! ### Host memory -/

/-- The key of a byte of host memory behind a PCIe port. -/
def hostKey (port addr : Nat) : Nat := port * 2 ^ 64 + addr

/-- The device stores bytes into host memory behind a port. -/
def State.hostWrite (s : State) (port addr : Nat) (bs : List Byte) : State :=
  { s with hostMem := putBytes s.hostMem (hostKey port addr) bs }

/-! ### Bounded repetition over indices -/

/-- A state transformer run once for each index of a list. -/
def State.forEach (s : State) (is : List Nat) (g : State → Nat → State) : State := is.foldl g s

end Sys2Proof.Machine
end

