-- ==== Sys2Proof/Machine/GrnOps.lean ====
section
/-! DEFINITION. Reads of the granary with their SECDED check (R446, R449, R452). -/

namespace Sys2Proof.Machine

/-! ### Requesters (R452, R454): the aux field of the two events -/

def reqEngine (e : Nat) : Nat := 6 + e
def reqRecorder : Nat := 3
def reqWinnow : Nat := 4
def reqTel : Nat := 5
def reqTrace : Nat := 18
def reqEth : Nat := 23
def reqScrub : Nat := 0xFF

/-- The loft (R449). -/
def inLoft (a : Nat) : Bool := decide (a < 0x100000)

/-- DMA, the ports and MSPI use port B for loft addresses (R449). -/
def reqDma (a : Nat) : Nat := if inLoft a then 0x81 else 19
def reqMaster (m : Master) (a : Nat) : Nat := if inLoft a then 0x82 + masterNum m else 20 + masterNum m

/-- The bank of a byte address (R446). -/
def grnBank (a : Nat) : Nat := bitsOf a 7 3 ^^^ bitsOf a 13 9

/-- A corrected single-bit error (R452): counted, reported at most once per millisecond, and its write-back queued. -/
def State.eccCorr (s : State) (aux a : Nat) : State :=
  let w := a / 8
  let s := { (s.bumpF F.GRN_ECC_CNT_corr 1) with eccWb := s.eccWb ++ [w] }
  let due := match s.eccCorrAt with
    | none => true
    | some t => decide (t + cycPerMs ≤ s.cyc)
  if due then { (s.raise .eccCorr (grnBank a) aux (w * 8)) with eccCorrAt := some s.cyc } else s

/-- A double-bit error (R452): counted, recorded and reported, every occurrence. -/
def State.eccUncorr (s : State) (aux a : Nat) : State :=
  let w := a / 8
  let s := s.bumpF F.GRN_ECC_CNT_uncorr 1
  let s := (s.setF F.GRN_ECC_LAST_req aux).setF F.GRN_ECC_LAST_word w
  s.raise .eccUncorr (grnBank a) aux (w * 8)

/-- The words of [a, a + n) that read as uncorrectable. -/
def State.badWords (s : State) (a n : Nat) : List Nat :=
  s.grnBad.filter (fun w => decide (w * 8 < a + n) && decide (a < w * 8 + 8))

/-- One bit of a word flips. -/
def flipBit (v i : Nat) : Nat := if bitOf v i then v - 2 ^ i else v + 2 ^ i

/-- A word suffers a double-bit error: bits i and j flip, and it reads as uncorrectable until it is written whole. -/
def State.grnSpoil (s : State) (a : Nat) (i j : Fin 64) : State :=
  let w := a / 8
  let v := flipBit (flipBit (s.grnNat (w * 8) 8) i) j
  let s := { s with grn := putBytes s.grn (w * 8) (leBytes 8 v), eccWb := s.eccWb.filter (· != w) }
  if s.grnBad.contains w then s else { s with grnBad := s.grnBad ++ [w] }

/-- The words of [a, a + n), in order. -/
def grnWords (a n : Nat) : List Nat := if n = 0 then [] else (upto ((a % 8 + n + 7) / 8)).map (fun k => a / 8 + k)

/-- A checked read of [a, a + n): whether any word read as uncorrectable, and the state after the reports; `req` numbers the requester and
port by which a word at an address is read (R449, R454). The outcomes of the checks of its words come from outside, in order, for a word
errs by itself; a word past the list has no new error. -/
def State.grnCheckBy (s : State) (req : Nat → Nat) (a n : Nat) (eccs : List Ecc) : Bool × State :=
  let checks := (grnWords a n).zip eccs
  let s := checks.foldl (fun s c => match c.2 with
    | .double i j => s.grnSpoil (c.1 * 8) i j
    | _ => s) s
  let bad := s.badWords a n
  let s := s.forEach bad (fun s w => s.eccUncorr (req (w * 8)) (w * 8))
  let s := checks.foldl (fun s c => if c.2.isSingle && !bad.contains c.1 then s.eccCorr (req (c.1 * 8)) (c.1 * 8) else s) s
  (!bad.isEmpty, s)

/-- A checked read by a requester of port A. -/
def State.grnCheck (s : State) (aux a n : Nat) (eccs : List Ecc) : Bool × State := s.grnCheckBy (fun _ => aux) a n eccs

/-- A read whose words err no more than they do already: the words that read as uncorrectable are counted and reported (R452). -/
def State.grnSee (s : State) (aux a n : Nat) : State := (s.grnCheck aux a n []).2

/-- An access that comes before the granary is initialised is held until it is (R453): the initialisation ends first. -/
def State.grnWait (s : State) : State := if s.fb F.GRN_STAT_init_done then s else s.setF F.GRN_STAT_init_done 1

/-! ### Ports A and B (R449, R451) -/

/-- The stores through port B of the present cycle. -/
def State.portBNow (s : State) : List (Nat × Nat × List Byte) := s.portB.filter (fun x => x.1 == s.cyc)

/-- A store through port B, which loft words take; the other words take it through port A. -/
def State.grnWriteB (s : State) (a : Nat) (bs : List Byte) : State :=
  let s := s.grnWrite a bs
  if inLoft a then { s with portB := s.portBNow ++ [(s.cyc, a, bs.take (0x100000 - a))] } else s

/-- A store through port A: where port B writes the same byte in the same cycle, its value stands. -/
def State.grnWriteA (s : State) (a : Nat) (bs : List Byte) : State :=
  let s := s.grnWrite a bs
  (s.portBNow.filter (fun x => decide (x.2.1 < a + bs.length) && decide (a < x.2.1 + x.2.2.length))).foldl
    (fun s x => s.grnWrite x.2.1 x.2.2) s

end Sys2Proof.Machine
end

