-- ==== Sys2Proof/Machine/MapOps.lean ====
section
/-! DEFINITION. The lane and arm map (R38 to R41), the configuration checks (R35), and who is entitled (R335, R336). -/

namespace Sys2Proof.Machine

/-! ### The map -/

def State.topology (s : State) (l : Nat) : Nat := s.f (F.GLB_LANE_MAP_topology l)

/-- A lane is in use unless its topology is 0b00. -/
def State.laneInUse (s : State) (l : Nat) : Bool := decide (l < 48) && s.topology l != 0

/-- Cells on a lane, at most its 64 slots; ignored (0) on an unused lane. -/
def State.laneCount (s : State) (l : Nat) : Nat := if s.laneInUse l then min 64 (s.f (F.GLB_LANE_MAP_count l)) else 0

def State.lanesInUse (s : State) : List Nat := (upto 48).filter s.laneInUse

/-- The other lane of the pair 2k, 2k + 1 (R39). -/
def partnerLane (l : Nat) : Nat := if l % 2 = 0 then l + 1 else l - 1

/-- The lane belongs to a dual-feed chain (R39). -/
def State.isChain (s : State) (l : Nat) : Bool :=
  decide (l < 48) && s.topology l == 2 && s.topology (partnerLane l) == 2

/-- Cells on the path of a lane: its own on a ring, those of both lanes on a chain. -/
def State.pathCells (s : State) (l : Nat) : Nat :=
  if s.isChain l then s.laneCount l + s.laneCount (partnerLane l) else s.laneCount l

/-- Chain position p of the chain of lane l as (lane, slot) (R39). -/
def chainCell (l p : Nat) : Nat := if p < 64 then l / 2 * 2 * 64 + p else (l / 2 * 2 + 1) * 64 + (p - 64)

/-- Global cell index of the i-th cell met from the TX of lane l (R94, R95). -/
def State.pathCell (s : State) (l i : Nat) : Nat :=
  if s.isChain l then chainCell l (if l % 2 = 0 then i else s.pathCells l - 1 - i) else l * 64 + i

/-- The arm that owns a slot of a lane (R38), for slots below count. -/
def State.armOfSlot (s : State) (l slot : Nat) : Nat :=
  if s.f (F.GLB_LANE_MAP_split l) ≥ s.laneCount l then s.f (F.GLB_LANE_MAP_arm_lo l)
  else if slot < s.f (F.GLB_LANE_MAP_split l) then s.f (F.GLB_LANE_MAP_arm_lo l)
  else s.f (F.GLB_LANE_MAP_arm_hi l)

/-- The arm of a cell, none where the map declares no such cell. -/
def State.armOfCell (s : State) (c : Nat) : Option Nat :=
  if c % 64 < s.laneCount (c / 64) then some (s.armOfSlot (c / 64) (c % 64)) else none

def State.armEnabled (s : State) (a : Nat) : Bool := s.fb (F.GLB_ARM_CFG_arm_enable a)

/-- The installed cells of a lane as global indices. -/
def State.laneCells (s : State) (l : Nat) : List Nat := (upto (s.laneCount l)).map (fun k => l * 64 + k)

/-- Every declared cell, ascending. -/
def State.allCells (s : State) : List Nat := (upto 48).flatMap s.laneCells

/-- The installed cells of an arm in ascending global cell index (R158: their list position is the arm position). -/
def State.armCells (s : State) (a : Nat) : List Nat := s.allCells.filter (fun c => s.armOfCell c == some a)

/-- Cells the map assigns to an arm (R40). -/
def State.nInstalled (s : State) (a : Nat) : Nat := (s.armCells a).length

def State.enabledArms (s : State) : List Nat := (upto 12).filter s.armEnabled

/-- The largest count in the lane map (R35). -/
def State.hMax (s : State) : Nat := (s.lanesInUse.map s.laneCount).foldl max 0

/-! ### Configuration checks (R35, R41): the first failure as (err_code, err_lane, err_arm) -/

/-- The timing relations of R35, in tenths of a nanosecond. Of several that fail, the lowest err_code is reported (log entry 93). -/
def State.timingFailure (s : State) : Option (Nat × Nat × Nat) :=
  let gd := s.f F.GLB_GATHER_DEADLINE_deadline_steps * 50
  let oo := s.f F.GLB_ORDER_OFFSET_order_offset_steps * 50
  let eo := s.f F.GLB_EDGE_OFFSET_edge_offset_steps * 50
  let t := s.f F.GLB_PERIOD_period_steps * 50
  if gd ≥ oo ∨ gd < 1000 + (s.hMax + 11) * 64 then some (1, 0, 0)
  else if oo ≥ eo ∨ eo > t then some (2, 0, 0)
  else if oo + (s.hMax + 3) * 64 > t + 1000 then some (3, 0, 0)
  else none

/-- The arms a lane is assigned to (R40). -/
def State.laneArms (s : State) (l : Nat) : List Nat :=
  let count := s.laneCount l
  let split := s.f (F.GLB_LANE_MAP_split l)
  (if count > 0 ∧ split > 0 then [s.f (F.GLB_LANE_MAP_arm_lo l)] else [])
    ++ (if split < count then [s.f (F.GLB_LANE_MAP_arm_hi l)] else [])

/-- The checks of one lane (R39, R40). -/
def State.laneFailure (s : State) (l : Nat) : Option (Nat × Nat × Nat) :=
  if s.topology l = 2 ∧ s.topology (partnerLane l) ≠ 2 then some (4, l, 0)
  else if s.isChain l ∧ l % 2 = 0 ∧ s.laneCount (l + 1) > 0 ∧ s.laneCount l < 64 then some (5, l, 0)
  else match (s.laneArms l).filter (fun a => !s.armEnabled a) with
    | a :: _ => some (6, l, a)
    | [] => none

/-- The checks of one arm (R40). -/
def State.armFailure (s : State) (a : Nat) : Option (Nat × Nat × Nat) :=
  if s.armEnabled a then
    let n := s.nInstalled a
    let req := s.f (F.GLB_ARM_CFG_n_required a)
    if n = 0 then some (7, 0, a)
    else if n > 512 then some (8, 0, a)
    else if req = 0 ∨ req > n then some (9, 0, a)
    else none
  else none

/-- The first failure in the order of R41. -/
def State.mapFailure (s : State) : Option (Nat × Nat × Nat) :=
  match s.timingFailure with
  | some x => some x
  | none =>
    match (upto 48).filterMap (fun l => if s.laneInUse l then s.laneFailure l else none) with
    | x :: _ => some x
    | [] =>
      if s.enabledArms.isEmpty then some (7, 0, 0)
      else ((upto 12).filterMap s.armFailure).head?

/-- The timing relations and the lane and arm map are evaluated again (R35); n_installed is shown per arm (R40). -/
def State.mapCheck (s : State) : State :=
  let s := s.forEach (upto 12) (fun s a => s.setF (F.GLB_ARM_STAT_n_installed a) (min (s.nInstalled a) 1023))
  match s.mapFailure with
  | none => s.wr R.GLB_MAP_STAT 0x80000000
  | some (code, lane, arm) => s.wr R.GLB_MAP_STAT (code * 0x10000 + lane * 0x100 + arm)

/-! ### Modes as numbers, entitlement -/

/-- The mode codes of R42. -/
def modeCode : Mode → Nat
  | .off => 0
  | .dormant => 1
  | .boot => 2
  | .configure => 3
  | .commission => 4
  | .muster => 5
  | .precharge => 6
  | .ready => 7
  | .run => 8
  | .shadow => 9
  | .safeBlock => 10
  | .diagnostic => 11

/-- PRECHARGE, READY, RUN and SHADOW: the modes in which the converter trips act (R321) and the planner runs (R186). -/
def Mode.controls : Mode → Bool
  | .precharge | .ready | .run | .shadow => true
  | _ => false

/-- MUSTER and above (R43). -/
def Mode.fromMuster : Mode → Bool
  | .muster | .precharge | .ready | .run | .shadow | .safeBlock | .diagnostic => true
  | _ => false

/-- CONFIGURE to DIAGNOSTIC. -/
def Mode.fromConfigure : Mode → Bool
  | .configure | .commission => true
  | m => m.fromMuster

/-- The device is entitled to mark ACTIVE (R335). -/
def State.entitled (s : State) : Bool :=
  if s.paired then s.f F.RED_STAT_drive == 2 && s.f F.RED_STAT_sense != 2 else s.mode.fromMuster

/-- The active bit of an ORDER frame that leaves now (R43, R336). -/
def State.marksActive (s : State) : Bool := s.entitled && s.mode != .shadow

end Sys2Proof.Machine
end

