-- ==== Sys2Proof/Machine/LaneOps.lean ====
section
/-! DEFINITION. Frames and sets on the lanes (R67 to R95, R114) and the lane states of R124 to R130. -/

namespace Sys2Proof.Machine

/-! ### Lane states (LPHY_STAT.state) -/

def laneOff : Nat := 0
def laneBeacon : Nat := 1
def laneTraining : Nat := 2
def laneUp : Nat := 3
def laneDown : Nat := 4
def laneDead : Nat := 5
def laneDiag : Nat := 6

def State.laneState (s : State) (l : Nat) : Nat := s.f (F.LPHY_STAT_state l)
def State.setLaneState (s : State) (l v : Nat) : State := s.setF (F.LPHY_STAT_state l) v

/-- All 50 lanes (R111). -/
def allLanes : List Nat := upto 50

/-- The reference of a lane is present (R21, R477): LREF_A serves L0 to L23 and MIR0, LREF_B the others. -/
def State.laneClock (s : State) (l : Nat) : Bool := if l < 24 ∨ l = 48 then s.pwr.lrefA else s.pwr.lrefB

/-- What the TX balls of a lane carry (R137): coded blocks, a raw pattern, the looped signal (its own coded blocks), or what its RX
receives. -/
inductive TxCarries where
  | coded | pattern | looped | received
deriving DecidableEq, Repr

def State.txCarries (s : State) (l : Nat) : TxCarries :=
  match s.f (F.LPHY_DIAG_diag_mode l) with
  | 1 => .pattern
  | 2 => .looped
  | 3 => .received
  | _ => .coded

/-- Sets and frames leave the lane: its reference is present (R477), and its TX carries them (R137). -/
def State.laneCoded (s : State) (l : Nat) : Bool :=
  s.laneClock l && (s.txCarries l == .coded || s.txCarries l == .looped)

/-- The lane's receiver delivers blocks from its balls: it holds block lock (R113), and decodes what it receives (R137). -/
def State.rxDelivers (s : State) (l : Nat) : Bool := s.fb (F.LPHY_STAT_block_lock l) && s.txCarries l == .coded

/-- The lane's receiver delivers the blocks that its own transmitter sends (R137). -/
def State.rxLooped (s : State) (l : Nat) : Bool := s.fb (F.LPHY_STAT_block_lock l) && s.txCarries l == .looped

/-! ### The transmitter (R114 to R116) -/

/-- The first cycle at or after `c` from which `k` blocks leave so that 16 of any 2048 blocks stay IDLE (R116), after the blocks other
than IDLE of `runs`. -/
def roomFor (k : Nat) : List (Nat × Nat) → Nat → Nat
  | [], c => c
  | r :: rest, c =>
    if r.2 + (rest.map Prod.snd).sum + k ≤ 2032 then c
    else roomFor k rest (max c (r.1 + 4 * r.2 + 8192 - 4 * k))

/-- The cycle in which `k` blocks due at `c` begin to leave; a frame waits for the IDLE blocks owed after an End block
(the phase of blocks: log entry 107). -/
def LaneTx.startAt (x : LaneTx) (c k : Nat) (frame : Bool) : Nat :=
  roomFor k x.runs (max c (x.free + if frame then 4 * x.owed else 0))

/-- The transmitter after `k` blocks due at `c`: two IDLE blocks are owed after a frame, and each IDLE block sent is one less. -/
def LaneTx.put (x : LaneTx) (c k : Nat) (frame : Bool) : LaneTx :=
  let a := x.startAt c k frame
  { x with free := a + 4 * k
           frame := if frame then some (a, k) else x.frame
           owed := if frame then 2 else x.owed - (a - x.free) / 4
           runs := x.runs.filter (fun r => decide (a < r.1 + 4 * r.2 + 8192)) ++ [(a, k)] }

/-- The transmitter after BLOCK sets at cycle `c`: they leave at once, inside a frame too, whose rest leaves after them (R114), but for the
IDLE blocks that R116 wants first. -/
def LaneTx.push (x : LaneTx) (c k : Nat) : LaneTx :=
  let a := roomFor k x.runs c
  { x with free := max x.free a + 4 * k
           owed := x.owed - (a - x.free) / 4
           runs := x.runs.filter (fun r => decide (a < r.1 + 4 * r.2 + 8192)) ++ [(a, k)] }

/-- BLOCK sets leave a lane (rank 1). -/
def State.sendNow (s : State) (l : Nat) (xs : List TxSet) : State :=
  if s.laneCoded l then s.modLane l (fun x => { x with sets := xs, tx := x.tx.push s.cyc xs.length }) else s

/-! ### Sets (R89, R90) -/

/-- The CRC-8 of a set: over the set code and the five payload bytes (R89). -/
def setCrc (code payload : Nat) : Nat := crc8 (leBytes 1 code ++ leBytes 5 payload)

def mkSet (code payload : Nat) : TxSet := { code := code, payload := payload, crc := setCrc code payload }

/-- A set of this code has arrived whole (R89). -/
def setWhole (code : Nat) (x : RxSet) : Bool := x.crc.toNat == setCrc code x.payload.toNat

/-- A receiver takes a set: one from its balls, or, looped, a set that its own lane has just sent (R137). -/
def State.setTaken (s : State) (l code : Nat) (x : RxSet) : Bool :=
  setWhole code x && (s.rxDelivers l || (s.rxLooped l && (s.lane l).sets.contains (mkSet code x.payload.toNat)))

/-- The ECHO MEASURE set as it leaves: no residence yet, no cell passed (R90). -/
def measureSet : TxSet := mkSet 2 0

/-- The payload of a BLOCK set of a class. -/
def blockPayload (cls : Nat) (auth : Bool) : Nat := cls + b2n auth * 16 + 0xB10CB10C * 256

def blockSet (cls : Nat) (auth : Bool) : TxSet := mkSet 3 (blockPayload cls auth)

/-- The HELLO payload of a lane (R90, R125). -/
def State.helloPayload (s : State) (l : Nat) : Nat :=
  let side := s.f F.NCL_GCFG_side * 2 ^ 25
  if l ≥ 48 then b2n (s.lane l).helloSeen + l * 256 + side
  else if s.isChain l then l * 256 + (l % 2) * 2 ^ 14 + 2 * 2 ^ 15 + s.pathCells l * 2 ^ 17 + side
  else l * 256 + 1 * 2 ^ 15 + side

/-- The ASSIGN payload (R90). -/
def assignPayload (delay pos dir : Nat) : Nat := delay + pos * 2 ^ 20 + dir * 2 ^ 27 + 1 * 2 ^ 38

/-- The TIME payload of an instant (R90, R93): whole ns modulo 2^24, and the remainder in 0.125 ns steps. -/
def timePayload (ns eighths : Nat) : Nat := ns % nsPerSec % 2 ^ 24 + eighths * 2 ^ 24

/-- The MARK payload (R119). -/
def markPayload (lane mcount : Nat) : Nat := lane + mcount % 2 ^ 24 * 256

/-- The safety path sends four consecutive BLOCK sets on each cell lane (R92, R322), and repeats them from then on. -/
def State.sendBlocks (s : State) (cls : Nat) : State :=
  s.forEach (upto 48) (fun s l => s.sendNow l (List.replicate 4 (blockSet cls s.entitled)))

/-! ### Frames -/

/-- The frame tag S1 to S7 (R73). -/
def State.frameTag (s : State) (ftype : Nat) (active split : Bool) (n lane count s7 : Nat) : List Byte :=
  [BitVec.ofNat 8 (ftype * 16 + 3),
   BitVec.ofNat 8 (b2n active + b2n (s.mode == .safeBlock) * 2 + b2n s.paired * 4 + s.f F.NCL_GCFG_side * 8 + b2n split * 16),
   BitVec.ofNat 8 n, BitVec.ofNat 8 (n / 256), BitVec.ofNat 8 lane, BitVec.ofNat 8 count, BitVec.ofNat 8 s7]

/-- The CRC-8 of a slot (R80) from its content bits [55:0]. -/
def slotCrc (tag : List Byte) (time content slot : Nat) : Nat :=
  crc8 (tag ++ leBytes 8 time ++ leBytes 7 content ++ [BitVec.ofNat 8 slot])

/-- A slot is valid when its CRC-8 matches (R80). -/
def slotValid (tag : List Byte) (time w slot : Nat) : Bool := bitsOf w 63 56 == slotCrc tag time (bitsOf w 55 0) slot

/-- The CRC-32C of a frame (R75). -/
def frameCrc (tag : List Byte) (time : Nat) (slots : List Nat) (bale : List Byte) : Nat :=
  crc32c (tag ++ leBytes 8 time ++ slots.flatMap (leBytes 8) ++ bale)

def mkFrame (tag : List Byte) (time : Nat) (slots : List Nat) (bale : List Byte) : TxFrame :=
  { tag := tag, time := BitVec.ofNat 64 time, slots := slots.map (BitVec.ofNat 64), bale := bale,
    crc := frameCrc tag time slots bale }

/-- The bale as the device sends it (R82): no record, and the complement of its CRC-32C. -/
def emptyBale : List Byte :=
  let b := List.replicate 60 (0 : Byte)
  b ++ leBytes 4 (0xFFFFFFFF - crc32c b)

/-- The GATHER frame of a lane for period n (R72 to R77). -/
def State.gatherFrame (s : State) (l : Nat) (split : Bool) (n baleSel : Nat) : TxFrame :=
  let h := s.laneCount l
  let tag := s.frameTag 1 false split (n % 65536) l h baleSel
  let time := timeWord (s.boundary n)
  mkFrame tag time ((upto h).map (fun k => (255 - slotCrc tag time 0 k) * 2 ^ 56)) emptyBale

/-- The content bits of an ORDER slot (R86). -/
def orderContent (state : Nat) (edges : List Nat) (n : Nat) : Nat :=
  state + edges.length * 16 + edges.getD 0 0 % 2 ^ 22 * 2 ^ 6 + edges.getD 1 0 % 2 ^ 22 * 2 ^ 28 + n % 64 * 2 ^ 50

/-- The slots of a lane in the order a frame carries them: decreasing delay along the path from the TX that sends it (R85, R95). -/
def State.orderSlots (s : State) (l tx : Nat) : List Nat :=
  if s.isChain l ∧ tx % 2 = 1 then upto (s.laneCount l) else (upto (s.laneCount l)).reverse

/-- The ORDER frame of lane l as TX `tx` sends it in period n, from what each cell is commanded (R72 to R75, R85, R86). -/
def State.orderFrame (s : State) (l tx : Nat) (split : Bool) (n : Nat) (cmd : Nat → Nat × List Nat) : TxFrame :=
  let tag := s.frameTag 2 s.marksActive split (n % 65536) l (s.laneCount l) (s.f F.NCL_GCFG_hold_periods)
  let time := timeWord (s.boundary n + s.f F.GLB_EDGE_OFFSET_edge_offset_steps * 5)
  mkFrame tag time
    ((s.orderSlots l tx).map (fun k =>
      let content := orderContent (cmd (l * 64 + k)).1 (cmd (l * 64 + k)).2 n
      content + slotCrc tag time content k * 2 ^ 56)) []

/-- The rest of an ORDER frame after a BLOCK set was inserted behind its first `sent` slots (R324). -/
def blockRest (slotNos : List Nat) (sent : Nat) (f : TxFrame) : TxFrame :=
  let words := (f.slots.zip slotNos).mapIdx (fun i p =>
    if i < sent then p.1.toNat
    else
      let content := bitsOf p.1.toNat 55 50 * 2 ^ 50
      content + slotCrc f.tag f.time.toNat content p.2 * 2 ^ 56)
  mkFrame f.tag f.time.toNat words f.bale

/-- Blocks of a frame that have begun to leave by cycle `c`, where it starts in cycle `a`. -/
def blocksOut (c a : Nat) : Nat := if c < a then 0 else (c - a) / 4 + 1

/-- A BLOCK set falls into the ORDER frames that are being sent or have not left yet (R31, R324), past the next boundary too: the slots that
have not left are sent as BLOCK. -/
def State.cutOrders (s : State) : State :=
  if s.seq.running then
    s.forEach s.lanesInUse (fun s l =>
      s.modLane l (fun x =>
        { x with order := (x.order.zip x.tx.orderAt).map (fun p =>
            let blocks := blocksOut s.cyc p.2
            if blocks < p.1.slots.length + 3 then blockRest (s.orderSlots (p.1.tag.getD 4 0).toNat l) (blocks - 2) p.1 else p.1) }))
  else s

/-! ### The join and the bond (R362) -/

/-- A join opens: no arm is adopted yet. -/
def State.openJoin (s : State) : State :=
  { (s.setF F.RED_STAT_join_done 0) with pair := { s.pair with joinOpen := true, adopted := [], joinData := none } }

/-- The bond is lost (R123, R362): the instant counts for the Lost path, and a non-holder opens a join. -/
def State.bondLost (s : State) : State :=
  let s := { s with pair := { s.pair with bondAt := some s.cyc } }
  if s.paired && !s.holder then s.openJoin else s

/-! ### Lanes in frames -/

/-- The lane is awaited in a period: in use, trained, neither down nor dead (R27). In MUSTER a trained lane joins with step 2 of its
discovery done (R103). -/
def State.laneAwaited (s : State) (l : Nat) : Bool :=
  s.laneInUse l && s.laneState l == laneUp && (s.mode != .muster || decide (s.f (F.NCL_LSTAT_disc_step l) ≥ 2))

/-- Frames leave on the lane: in use and neither in training nor in a diagnostic function that carries no coded blocks (R26, R58, R124,
R130, R137). -/
def State.laneSends (s : State) (l : Nat) : Bool :=
  s.laneInUse l && s.laneCoded l &&
    (s.laneState l == laneDown || s.laneState l == laneDead || s.laneState l == laneDiag || s.laneAwaited l)

/-- The bale type a lane's GATHER frame asks for (R103): 0x02 during discovery, then NCL_LCTL. -/
def State.baleSel (s : State) (l : Nat) : Nat :=
  if s.mode == .muster && decide (s.f (F.NCL_LSTAT_disc_step l) < 5) then 2 else s.f (F.NCL_LCTL_bale_sel l)

/-- The lane is in split mode (R95, R96). -/
def State.laneSplit (s : State) (l : Nat) : Bool := s.isChain l && s.f (F.NCL_LSTAT_path_mode l) == 3

/-- The GATHER frames a lane's TX sends in period n: its own, and in split mode its partner's after it (R95). -/
def State.gatherFrames (s : State) (l n : Nat) : List TxFrame :=
  if s.laneSplit l then
    [s.gatherFrame l true n (s.baleSel l), s.gatherFrame (partnerLane l) true n (s.baleSel (partnerLane l))]
  else [s.gatherFrame l false n (s.baleSel l)]

/-- The ORDER frames a lane's TX sends in period n. -/
def State.orderFrames (s : State) (l n : Nat) (cmd : Nat → Nat × List Nat) : List TxFrame :=
  if s.laneSplit l then
    [s.orderFrame l l true n cmd, s.orderFrame (partnerLane l) l true n cmd]
  else [s.orderFrame l l false n cmd]

/-! ### Frames and waiting sets on the transmitter -/

/-- Blocks of a frame (R72). -/
def TxFrame.blocks (f : TxFrame) : Nat := f.slots.length + 3 + f.bale.length / 8

/-- Frames of these lengths leave from cycle `c` on, with the IDLE blocks of R116 between them: the transmitter after them, and the cycle
in which each begins. -/
def LaneTx.putFrames (x : LaneTx) (c : Nat) : List Nat → LaneTx × List Nat
  | [] => (x, [])
  | k :: ks =>
    let r := (x.put c k true).putFrames c ks
    (r.1, x.startAt c k true :: r.2)

/-- An injection that waits for a data block takes the first one of a frame, which leaves in cycle `first` (R139). -/
def LaneTx.injectFrame (x : LaneTx) (first : Option Nat) : LaneTx :=
  if x.injBits ≠ 0 ∧ x.injFrom = none then { x with injFrom := first } else x

/-! ### Blocks on the mirror lanes (R121, R122) -/

/-- Blocks distributed alternately to MIR0 and MIR1, to MIR1 first where `turn` (R121). -/
def distribute : Bool → List MirBlock → List MirBlock × List MirBlock
  | _, [] => ([], [])
  | turn, b :: rest =>
    let r := distribute (!turn) rest
    if turn then (r.1, b :: r.2) else (b :: r.1, r.2)

/-- The blocks taken alternately from the two lanes, from the second first where `turn`; at most as many as asked for (R122). -/
def takeTurns : Nat → Bool → List MirBlock → List MirBlock → List MirBlock
  | k + 1, false, a :: as, bs => a :: takeTurns k true as bs
  | k + 1, true, as, b :: bs => b :: takeTurns k false as bs
  | _, _, _, _ => []

/-- The word of a data block. -/
def MirBlock.word : MirBlock → Option W64
  | .data w => some w
  | _ => none

/-- Where among the blocks of its latest frame a lane sends data blocks: on a mirror lane those of its share, on a cell lane all but the
first and the last (R72). -/
def Lane.dataBlocks (x : Lane) (l : Nat) : List Nat :=
  if 48 ≤ l then x.tx.share.zipIdx.filterMap (fun p => (MirBlock.word p.1).map (fun _ => p.2))
  else (upto (((x.tx.frame.map Prod.snd).getD 0) - 2)).map (· + 1)

/-- The next data block of a frame that is being sent or waits to leave, as its first cycle. -/
def Lane.nextData (x : Lane) (l c : Nat) : Option Nat :=
  match x.tx.frame with
  | some (a, _) => ((x.dataBlocks l).find? (fun i => decide (c < a + 4 * i))).map (fun i => a + 4 * i)
  | none => none

/-- Frames due now leave a lane: the cycles in which they begin, and the state after. -/
def State.putFrames (s : State) (l : Nat) (fs : List TxFrame) : List Nat × State :=
  let r := (s.lane l).tx.putFrames s.cyc (fs.map TxFrame.blocks)
  (r.2, s.modLane l (fun x => { x with tx := r.1.injectFrame (r.2.head?.map (· + 4)) }))

/-- The cycles in which the frame launches to come fall due on a lane (R26, R29, R115). -/
def State.launches (s : State) (l : Nat) : List Nat :=
  let due := fun ns => s.cyc + s.cyclesTo (ns * 2 ^ 32)
  if !s.laneSends l then []
  else if s.seq.running && s.seq.started then
    (if s.seq.launched then [] else [due (s.pN + 100)])
      ++ (if s.seq.ordered then [] else [due (s.pN + s.f F.GLB_ORDER_OFFSET_order_offset_steps * 5)])
      ++ [due (s.boundary s.seq.next + 100)]
  else if s.seq.running || s.seq.startPend then [due (s.boundary s.seq.next + 100)]
  else []

/-- Of the sets that wait, the one that leaves first: the best rank, and of one rank the oldest (R114). -/
def nextDue : List DueSet → Option DueSet
  | [] => none
  | d :: rest =>
    match nextDue rest with
    | none => some d
    | some e => if e.rank < d.rank then some e else some d

/-- A set may start in cycle `a` on a cell lane: no frame launch falls due in the next two block times (R115). -/
def State.mayStart (s : State) (l a : Nat) : Bool :=
  s.laneCoded l && decide (a ≤ s.cyc) && (s.launches l).all (fun f => decide (a + 8 ≤ f))

/-- The U word, or the W word, of an assigned delay is shown (R101). -/
def State.showU (s : State) (c u : Nat) : State := s.wr (R.NCL_ASSIGN (c / 64) (c % 64)) (2 ^ 31 + u % 2 ^ 20)
def State.showW (s : State) (c w : Nat) : State := s.wr (R.NCL_ASSIGN_W (c / 64) (c % 64)) (2 ^ 31 + w % 2 ^ 20)

/-- An ASSIGN set that leaves lane l is shown (R90, R101): `pos` is the slot on a ring, the chain position on a chain. -/
def State.showAssigned (s : State) (l : Nat) (d : TxSet) : State :=
  let pos := bitsOf d.payload 26 20
  let c := if s.isChain l then chainCell l pos else l * 64 + pos
  if bitOf d.payload 27 then s.showW c (bitsOf d.payload 19 0) else s.showU c (bitsOf d.payload 19 0)

/-- The lane and slot that an offset of NCL_ASSIGN belongs to, and whether it is the W word. -/
def assignWord (off : Nat) : Option (Nat × Nat × Bool) :=
  let rel := off - R.NCL_ASSIGN 0 0 + 0x200
  if R.NCL_ASSIGN 0 0 ≤ off ∧ rel / 0x400 < 48 ∧ 0x200 ≤ rel % 0x400 then
    some (rel / 0x400, (rel % 0x400 - 0x200) / 8, bitOf rel 2)
  else none

/-- Words of NCL_ASSIGN show no delay any more: those of the cells and the ends that `gone` names. -/
def State.hideAssigned (s : State) (gone : Nat → Bool → Bool) : State :=
  { s with regs := s.regs.filter (fun p =>
      match assignWord p.1 with
      | some (l, k, w) => !gone (l * 64 + k) w
      | none => true) }

/-- The delays that lane l has assigned are void: on a chain those from its end (R100, R101). -/
def State.hideLane (s : State) (l : Nat) : State :=
  let path := (upto (s.pathCells l)).map (s.pathCell l)
  s.hideAssigned (fun c w => (c / 64 == l && !s.isChain l) || (path.contains c && w == (s.isChain l && l % 2 == 1)))

/-- The last ASSIGN set of a lane has left in cycle `a`: step 4 of its discovery is complete (R103). -/
def State.assignSent (s : State) (l a : Nat) : State :=
  ((s.setF (F.NCL_LSTAT_delay_valid l) 1).setF (F.NCL_LSTAT_disc_step l) 4).modLane l (fun x => { x with assignAt := a })

/-- The next waiting set leaves, if a block boundary up to the present allows it. -/
def State.flushOne (s : State) (l : Nat) : State :=
  let x := (s.lane l).tx
  match nextDue x.due with
  | none => s
  | some d =>
    let a := x.startAt d.since 1 false
    if s.mayStart l a then
      let due := x.due.erase d
      let t := s.modLane l (fun y => { y with sets := [d.set], tx := { (x.put d.since 1 false) with
        due := due, markAt := if d.set.code = 5 then a else x.markAt } })
      let t := if d.set.code = 2 then t.showAssigned l d.set else t
      if d.set.code = 2 ∧ due.all (fun e => e.set.code != 2) then t.assignSent l a else t
    else s

/-- The waiting sets of a lane that may leave by now. -/
def State.flushLane (s : State) (l : Nat) : State := (s.lane l).tx.due.foldl (fun t _ => t.flushOne l) s

/-- The waiting sets of every lane. -/
def State.flushSets (s : State) : State := s.forEach ((s.lanes.map Prod.fst).filter (fun l => !(s.lane l).tx.due.isEmpty)) State.flushLane

/-- Outside MUSTER no position or delay is assigned, and no cell lane trains (R106): what waits of rank 6 is dropped. -/
def State.dropDiscovery (s : State) : State :=
  s.forEach ((s.lanes.map Prod.fst).filter (fun l => decide (l < 48))) (fun s l => s.modLane l (fun x =>
    { x with tx := { x.tx with due := x.tx.due.filter (fun d => d.rank != 6) } }))

/-- Sets of rank 4 to 6 fall due on a lane (R114). -/
def State.sendDue (s : State) (l rank : Nat) (xs : List TxSet) : State :=
  if s.laneCoded l then
    (s.modLane l (fun x => { x with tx := { x.tx with
      due := x.tx.due ++ xs.map (fun d => { rank := rank, since := s.cyc, set := d }) } })).flushLane l
  else s

/-! ### Diagnostic functions (R137, R140) -/

/-- A lane returns to NORMAL, and to the state it had before its diagnostic function (log entry 96). -/
def State.diagNormal (s : State) (l : Nat) : State :=
  if s.laneState l = laneDiag then (s.setF (F.LPHY_DIAG_diag_mode l) 0).setLaneState l (s.lane l).preDiag
  else s.setF (F.LPHY_DIAG_diag_mode l) 0

/-- On a trigger of the safety path every lane in a diagnostic function returns to NORMAL (R140). -/
def State.diagRestore (s : State) : State :=
  s.forEach allLanes (fun s l => if s.f (F.LPHY_DIAG_diag_mode l) = 0 then s else s.diagNormal l)

end Sys2Proof.Machine
end

