-- ==== Sys2Proof/Machine/Winnow.lean ====
section
/-! DEFINITION. The winnow engine: exclusion, availability, the sort key, selection and the capacitance tally (R141 to R175). -/

namespace Sys2Proof.Machine

/-! ### Commands in force (R143, R156) -/

/-- The opposite output of an insertion state under the polarity of a window. -/
def togglePresent (neg : Bool) : Present → Present
  | .bypassed => if neg then .insNeg else .insPos
  | .insPos => .bypassed
  | .insNeg => .bypassed
  | .blocked => if neg then .insNeg else .insPos

/-- Final state of a window's command. -/
def CellCmd.final (c : CellCmd) : Present := c.toggles.foldl (fun p _ => togglePresent c.neg p) c.start

/-- Sign of an insertion state. -/
def Present.sign : Present → Int
  | .insPos => 1
  | .insNeg => -1
  | _ => 0

def Present.code : Present → Nat
  | .bypassed => 0
  | .insPos => 1
  | .insNeg => 2
  | .blocked => 3

def Present.ofCode : Nat → Present
  | 0 => .bypassed
  | 1 => .insPos
  | 2 => .insNeg
  | _ => .blocked

/-- Length of the part of [x, y) that lies in [a, b). -/
def overlap (x y a b : Nat) : Nat := min y b - max x a

/-- Signed inserted time between a and b of a window, 0.25 ns units, from the origin's state and the toggles left. -/
def insertedFrom (neg : Bool) (a b stop : Nat) : Present → Nat → List Nat → Int
  | p, t, [] => p.sign * overlap t stop a b
  | p, t, x :: xs => p.sign * overlap t x a b + insertedFrom neg a b stop (togglePresent neg p) x xs

/-- Signed inserted time of a command between two instants of its window (R156, R171). -/
def CellCmd.inserted (c : CellCmd) (a b w : Nat) : Int := insertedFrom c.neg a b w c.start 0 c.toggles

/-- Whole nanoseconds, rounded to nearest, of a time in 0.25 ns units; of the two nearest, the one farther from 0 (log entry 97). -/
def quarterToNs (q : Int) : Int := roundHalfAway q 2

/-- The window length W in 0.25 ns units. -/
def State.windowLen (s : State) : Nat := s.periodNs * 4

/-- EDGE_OFFSET in 0.25 ns units. -/
def State.edgeOffsetQ (s : State) : Nat := s.f F.GLB_EDGE_OFFSET_edge_offset_steps * 20

/-! ### Cell status bits (R79) -/

def stEnergised (x : Cell) : Bool := bitOf x.status 11
def stFault (x : Cell) : Bool := bitOf x.status 10
def stBypassed (x : Cell) : Bool := bitOf x.status 9
def stInserted (x : Cell) : Bool := bitOf x.status 8
def stBlocked (x : Cell) : Bool := bitOf x.status 7
def stOcTrip (x : Cell) : Bool := bitOf x.status 6
def stDual (x : Cell) : Bool := bitOf x.status 5
def stHolding (x : Cell) : Bool := bitOf x.status 4
def stRefused (x : Cell) : Bool := bitOf x.status 3
def stTimeOk (x : Cell) : Bool := bitOf x.status 1
def stSampleMiss (x : Cell) : Bool := bitOf x.status 0

/-! ### Exclusion (R148 to R152) -/

def State.cellCode (s : State) (c : Nat) : Nat := s.f (F.WIN_CELL_STAT_code c)
def State.present (s : State) (c : Nat) : Present := Present.ofCode (s.f (F.WIN_CELL_STAT_present c))

/-- The lane reaches its cells (R128, R130, R148 code 1). -/
def State.laneReaches (s : State) (l : Nat) : Bool :=
  s.laneState l == laneUp || (s.laneState l == laneDown && !(s.lane l).unreach)

/-- retire as it counts at a GATHER_DONE now: a write of this cycle does not yet (R149). -/
def State.retired (s : State) (c : Nat) : Bool :=
  match (s.cell c).retireWas with
  | some (k, old) => if k = s.cyc then old else s.fb (F.WIN_CELL_STAT_retire c)
  | none => s.fb (F.WIN_CELL_STAT_retire c)

/-- The exclusion code of a cell (R148): the lowest non-zero code that applies. -/
def State.exclusion (s : State) (c : Nat) : Nat :=
  let x := s.cell c
  if !s.laneReaches (c / 64) || !x.found || x.unavail then 1
  else if s.retired c then 2
  else if bitOf x.heldCode 0 then 3
  else if bitOf x.heldCode 1 then 4
  else if x.sampled && !stTimeOk x then 5
  else if x.sampled && stDual x then 6
  else if x.lost then 7
  else if !x.fresh then 8
  else 0

/-- The present state of a cell at the origin of the window of the period (R143). Where a cell commanded BLOCK or CLOSE reports refused or
holding, the model lets the status bits of the report win over the command (log entry 134). -/
def State.presentOf (s : State) (c : Nat) : Present :=
  let x := s.cell c
  if !x.found || !x.obeyed then .blocked
  else if x.sampled && (stRefused x || stHolding x) then
    if stInserted x then (if x.cmd1.final == .insNeg then .insNeg else .insPos)
    else if stBypassed x then .bypassed
    else if stBlocked x then .blocked
    else .bypassed
  else x.cmd1.final

/-- One cell's sample, code, present state and inserted time are fixed for the period at GATHER_DONE (R142, R143, R149). -/
def State.fixCell (s : State) (c : Nat) : State :=
  let x := s.cell c
  let old := s.cellCode c
  let cnt := if x.fresh then 0 else satInc (s.f (F.WIN_CELL_STAT_stale_cnt c)) 15
  let run := if x.fresh then x.freshRun + 1 else 0
  let release := x.release && x.releaseAt != s.cyc
  let held := if release then 0 else x.heldCode
  let held := if x.fresh then
      (if bitOf held 0 || stBypassed x then 1 else 0) + (if bitOf held 1 || stFault x then 2 else 0) else held
  let lost := (decide (cnt ≥ s.f F.WIN_CFG_stale_limit)) || (x.lost && decide (run < 2))
  let w := s.windowLen
  let eo := s.edgeOffsetQ
  let tau := quarterToNs (x.cmd2.inserted (w - eo) w w + x.cmd1.inserted 0 (w - eo) w)
  let released := release && decide (x.heldCode ≠ 0)
  let s := s.modCell c (fun y => { y with freshRun := run, heldCode := held, lost := lost, release := x.release && !release,
                                          codePrev := old, tauP := tau, lead := y.cmd1 })
  let s := s.setF (F.WIN_CELL_STAT_stale_cnt c) cnt
  let code := s.exclusion c
  let s := (s.setF (F.WIN_CELL_STAT_code c) code).setF (F.WIN_CELL_STAT_present c) (s.presentOf c).code
  let again := released && (code == 3 || code == 4)
  if ((old = 0 ∨ old = 8) ∧ 1 ≤ code ∧ code ≤ 7) ∨ again then s.raise .cellExcluded c code 0 else s

/-- Every installed cell of an enabled arm has its code fixed at GATHER_DONE (R149); the pinned cells are counted. -/
def State.fixCodes (s : State) : State :=
  let s := s.forEach s.enabledArms (fun s a => s.forEach (s.armCells a) State.fixCell)
  s.forEach s.enabledArms (fun s a =>
    s.setF (F.WIN_ARM_STAT_n_pinned a) ((s.armCells a).filter (fun c => s.cellCode c == 8)).length)

/-! ### Availability (R153) -/

def State.countCodes (s : State) (a : Nat) (p : Nat → Bool) : Nat := ((s.armCells a).filter (fun c => p (s.cellCode c))).length
def State.nUnreachable (s : State) (a : Nat) : Nat := s.countCodes a (fun k => k == 1 || k == 7)
def State.nBypassed (s : State) (a : Nat) : Nat := s.countCodes a (fun k => k == 2 || k == 3)
def State.nFaulted (s : State) (a : Nat) : Nat := s.countCodes a (fun k => k == 4 || k == 5 || k == 6)
def State.nAvailable (s : State) (a : Nat) : Nat :=
  s.nInstalled a - s.nBypassed a - s.nUnreachable a - s.nFaulted a

/-- The availability is computed in this mode (R169). -/
def Mode.countsCells : Mode → Bool
  | .muster | .safeBlock => true
  | m => m.controls

/-- The counts of one arm are shown (R153). -/
def State.writeCounts (s : State) (a : Nat) : State :=
  let s' := s.setF (F.GLB_ARM_STAT_n_available a) (s.nAvailable a)
  ((s'.setF (F.WIN_ARM_CNT_n_unreachable a) (s.nUnreachable a)).setF (F.WIN_ARM_CNT_n_faulted a) (s.nFaulted a)).setF
    (F.WIN_ARM_CNT_n_bypassed a) (s.nBypassed a)

def State.armLow (s : State) (a : Nat) : Bool := decide (s.nAvailable a < s.f (F.GLB_ARM_CFG_n_required a))

/-- The value of ARM_LOW (R392). -/
def State.armLowValue (s : State) (a : Nat) : Nat :=
  s.nAvailable a + s.nBypassed a * 2 ^ 16 + s.nUnreachable a * 2 ^ 32 + s.nFaulted a * 2 ^ 48

/-! ### Arm requests (R144 to R147) -/

/-- Word k of a 48-byte record. -/
def word (ws : List Nat) (k : Nat) : Nat := ws.getD k 0

/-- The level changes of a request record. -/
def reqChanges (ws : List Nat) (nlev : Nat) : List (Nat × Nat) :=
  (upto nlev).map (fun j => (bitsOf (word ws (4 + j)) 21 0, bitsOf (word ws (4 + j)) 31 22))

/-- An arm is full-bridge (R145). -/
def State.fullBridge (s : State) (a : Nat) : Bool :=
  let ok := (s.armCells a).filterMap (fun c => match (s.cell c).record with
    | some r => if r.compatible then some r.full else none
    | none => none)
  !ok.isEmpty && ok.all (fun b => b)

/-- Times strictly rising from `t`, all below `w`. -/
def timesRise (w : Nat) : Nat → List (Nat × Nat) → Bool
  | _, [] => true
  | t, p :: ps => decide (t < p.1) && decide (p.1 < w) && timesRise w p.1 ps

/-- The lowest failing check of R145, 0 where every check passes. -/
def State.reqBadReason (s : State) (ws : List Nat) : Nat :=
  let a := bitsOf (word ws 0) 19 16
  let nlev := bitsOf (word ws 0) 23 20
  let pol := bitOf (word ws 0) 24
  let trim := bitOf (word ws 0) 25
  let ch := reqChanges ws nlev
  let levels := bitsOf (word ws 1) 9 0 :: ch.map Prod.snd
  let hi := levels.foldl max 0
  let lo := levels.foldl min 1023
  if a ≥ 12 ∨ s.armEnabled a = false then 1
  else if nlev > 8 ∨ hi > 512 then 2
  else if timesRise s.windowLen 0 ch = false then 3
  else if hi - lo > 24 - s.f (F.WIN_ARM_CFG_reserve a) then 4
  else if pol && !s.fullBridge a then 5
  else if bitsOf (word ws 3) 15 0 > s.f F.GLB_PERIOD_period_steps then 6
  else if trim = false ∧ bitsOf (word ws 2) 31 16 ≠ 0 then 7
  else if bitsOf (word ws 0) 31 26 ≠ 0 ∨ bitsOf (word ws 1) 15 10 ≠ 0 ∨ bitsOf (word ws 3) 31 16 ≠ 0
      ∨ (ws.drop (4 + nlev)).any (· != 0) then 8
  else 0

/-- The request a record spells for the period n. -/
def mkReq (ws : List Nat) (n : Nat) : ArmReq :=
  { period := n, pol := bitOf (word ws 0) 24, trimEn := bitOf (word ws 0) 25, level0 := bitsOf (word ws 1) 9 0,
    iPred := sx 16 (bitsOf (word ws 1) 31 16), iPrev := sx 16 (bitsOf (word ws 2) 15 0),
    trimDuty := bitsOf (word ws 2) 31 16, keyOffset := bitsOf (word ws 3) 15 0,
    changes := reqChanges ws (bitsOf (word ws 0) 23 20) }

/-- The period whose request window contains the present instant (R146). -/
def State.requestPeriod (s : State) : Nat :=
  if s.seq.started then (if s.seq.ordered then s.seq.next else s.seq.next - 1) else s.seq.next

def State.unitOf (s : State) (a : Nat) : Nat := s.f (F.WIN_ARM_FLAGS_unit_used a)

/-- The arms a unit serves, ascending. -/
def State.unitArms (s : State) (u : Nat) : List Nat := s.enabledArms.filter (fun a => s.unitOf a == u)

/-- The next arm of a unit: the one ready first, the lower-numbered of two ready together (R166). -/
def State.nextArm (s : State) (u : Nat) : Option Nat :=
  ((s.unitArms u).filter (fun a => decide ((s.arm a).readyAt > 0) && !(s.arm a).started)).foldl
    (fun (best : Option Nat) a => match best with
      | none => some a
      | some b => if (s.arm a).readyAt < (s.arm b).readyAt then some a else best) none

/-- An idle unit starts its next arm (R166). -/
def State.startUnit (s : State) (u : Nat) : State :=
  match (s.unit u).busy, s.nextArm u with
  | none, some a => (s.modUnit u (fun x => { x with busy := some a, startCyc := s.cyc })).modArm a
      (fun x => { x with started := true, work := if x.work.isSome then x.work else x.req })
  | _, _ => s

/-- An arm becomes ready in its unit, which starts it where it is idle. An arm that the unit has started in this cycle, ready at the same
instant, gives way to a lower-numbered one (R166). -/
def State.readyArm (s : State) (a : Nat) : State :=
  let u := s.unitOf a
  let s := s.modArm a (fun x => { x with readyAt := s.cyc + 1 })
  match (s.unit u).busy with
  | some b =>
    if (s.unit u).startCyc = s.cyc ∧ (s.arm b).readyAt = s.cyc + 1 ∧ a < b then
      ((s.modArm b (fun x => { x with started := false, work := none })).modUnit u (fun x => { x with busy := none })).startUnit u
    else s
  | none => s.startUnit u

/-- A request that arrives in the tick of GATHER_DONE counts as waiting at it (R146). -/
def State.atGather (s : State) : Bool := s.seq.gatherDone && s.seq.gatherCyc == s.cyc

/-- An arm request arrives (R145, R146, R169). -/
def State.armRequest (s : State) (ws : List Nat) : State :=
  if !s.mode.controls then s
  else
    let a := bitsOf (word ws 0) 19 16
    let bad := s.reqBadReason ws
    let n := s.requestPeriod
    if bad ≠ 0 then
      let s := if a < 12 then (s.mark (F.WIN_ARM_FLAGS_req_bad a)).setF (F.WIN_ARM_FLAGS_bad_reason a) bad else s
      s.raise .reqBad a bad 0
    else if bitsOf (word ws 0) 15 0 ≠ n % 65536 then (s.mark (F.WIN_ARM_FLAGS_req_stale a)).raise .reqStale a 0 0
    else if (s.arm a).started && ((s.arm a).work.map ArmReq.period) == some n && !s.atGather then (s.mark (F.WIN_ARM_FLAGS_req_dup a)).raise .reqDup a 0 0
    else
      let s := s.modArm a (fun x => { x with
        req := some (mkReq ws n), work := if x.started && s.atGather then some (mkReq ws n) else x.work })
      if s.seq.started && s.seq.gatherDone && !s.seq.ordered && (s.arm a).readyAt == 0 then s.readyArm a else s

/-- The arms with a waiting request become ready together at GATHER_DONE (R146, R166). -/
def State.winnowStart (s : State) : State :=
  if s.mode.controls then
    let s := s.forEach s.enabledArms (fun s a =>
      if (s.arm a).req.isSome then s.modArm a (fun x => { x with readyAt := s.cyc + 1 }) else s)
    s.forEach (upto 6) State.startUnit
  else s

/-! ### The sort key (R155 to R158) -/

/-- tau of R156 in ns. -/
def State.tau (s : State) (c keyOffset : Nat) : Int :=
  let x := s.cell c
  let w := s.windowLen
  let p := s.present c
  let before := if x.sampled && (stRefused x || stHolding x) then p.sign * s.edgeOffsetQ
    else x.lead.inserted (w - s.edgeOffsetQ) w w
  if p = .blocked then 0
  else quarterToNs (before + p.sign * (keyOffset * 20 : Nat))

/-- The predicted voltage (R155). -/
def vPred (vcap : Nat) (iPred tau : Int) (cgain : Nat) : Nat :=
  (iclamp ((vcap : Int) * 16 + roundHalfAway (iPred * tau * cgain) 32) 0 0xFFFFFF).toNat

/-- The state is inserted with the request's polarity. -/
def insertedWith (pol : Bool) (p : Present) : Bool := if pol then p == .insNeg else p == .insPos

/-- The key of R157 from the predicted voltage. -/
def sortKey (v : Nat) (iEff : Int) (pen : Nat) (ins : Bool) : Nat :=
  let kv := if iEff ≥ 0 then v else 0xFFFFFF - v
  if ins then kv - pen else min (kv + pen) 0xFFFFFF

/-- The penalty of R157. -/
def penalty (psw kth temp th : Nat) : Nat := min 0xFFFF (psw + kth * 16 * (temp - th))

/-- The composite key of a candidate (R158). -/
def State.compositeKey (s : State) (a c pos nInst : Nat) (r : ArmReq) : Nat :=
  let x := s.cell c
  let ins := insertedWith r.pol (s.present c)
  let v := vPred x.vcap r.iPred (s.tau c r.keyOffset) (s.f (F.WIN_CELL_TALLY_cgain c))
  let pen := penalty (s.f (F.WIN_ARM_PEN_p_sw a)) (s.f (F.WIN_ARM_PEN_k_th a)) x.temp (s.f (F.WIN_ARM_PEN_th_code a))
  let key := sortKey v (if r.pol then -r.iPred else r.iPred) pen ins
  let tie := (pos + nInst - r.period % 2 ^ 32 % nInst) % nInst
  key * 1024 + (if ins then 0 else 512) + tie

/-- Insertion into a list sorted by first component. -/
def sortIns (p : Nat × Nat) : List (Nat × Nat) → List (Nat × Nat)
  | [] => [p]
  | q :: t => if p.1 < q.1 then p :: q :: t else q :: sortIns p t

/-- A list of pairs sorted by first component. -/
def sortPairs (l : List (Nat × Nat)) : List (Nat × Nat) := l.foldl (fun acc p => sortIns p acc) []

/-! ### Selection (R159 to R163) -/

/-- The selection of an arm for its request. -/
def State.select (s : State) (a : Nat) (r : ArmReq) : Selection :=
  let cells := s.armCells a
  let n := cells.length
  let cands := (cells.zipIdx.filter (fun p => s.cellCode p.1 == 0)).map
    (fun p => (s.compositeKey a p.1 p.2 n r, p.1))
  let ranked := (sortPairs cands).map Prod.snd
  let pinned := cells.filter (fun c => s.cellCode c == 8)
  let q : Int := (pinned.filter (fun c => insertedWith r.pol (s.present c))).length
    - ((pinned.filter (fun c => insertedWith (!r.pol) (s.present c))).length : Int)
  let levels := r.level0 :: r.changes.map Prod.snd
  let nc := ranked.length
  let m := levels.map (fun (lv : Nat) => (iclamp ((lv : Int) - q) 0 nc).toNat)
  let clamped := (levels.zip m).any (fun p => decide (((p.1 : Int) - q) ≠ (p.2 : Int)))
  let lo := m.foldl min nc
  let hi := m.foldl max 0
  let sw := min (hi - lo + s.f (F.WIN_ARM_CFG_reserve a)) (nc - lo)
  { base := ranked.take lo, swing := (ranked.drop lo).take sw,
    trim := if r.trimEn then ranked[lo + sw]? else none,
    cands := ranked, mLo := lo, mHi := hi, counts := m, q := q, clampSeen := clamped, req := r }

/-- Arm position of a cell (R158). -/
def State.armPos (s : State) (a c : Nat) : Nat := (s.armCells a).idxOf c

/-- The 128-byte selection record (R163). -/
def State.selectionRecord (s : State) (a : Nat) (x : Selection) : List Byte :=
  let flags := a + b2n x.req.pol * 16 + b2n x.trim.isSome * 32 + b2n x.clampSeen * 64
  let pos := fun c => s.armPos a c
  let bits := (x.base.map pos).foldl (fun acc p => acc + 2 ^ p) 0
  leBytes 2 x.req.period ++ leBytes 1 flags ++ leBytes 1 x.swing.length ++ leBytes 2 x.mLo ++ leBytes 2 x.mHi
    ++ leBytes 2 x.cands.length ++ leBytes 2 (twos 16 x.q)
    ++ leBytes 2 (match x.trim with | some c => pos c | none => 0xFFFF) ++ leBytes 2 (s.nAvailable a)
    ++ leBytes 64 bits
    ++ (upto 24).flatMap (fun i => leBytes 2 (match x.swing[i]? with | some c => pos c | none => 0xFFFF))

/-- Bound on the cycles of a unit for an arm of N cells (R167). -/
def selectCycles (n : Nat) : Nat := 44 + ceilDiv n 32 + 9 * (ceilDiv n 64 + 4)

/-- The ranking of the period starts once every arm the unit serves is handed over; where an arm has no accepted request at the
ORDER_OFFSET instant, once every arm started by then is (R164). The tally work of the period becomes due with it (R174). -/
def State.tryRanking (s : State) (u : Nat) : State :=
  let arms := s.unitArms u
  let x := s.unit u
  let done := arms.all (fun a => (s.arm a).handed
    || (s.seq.ordered && !(s.arm a).started && (s.arm a).work.isNone))
  if done && !x.ranked && x.busy.isNone && !arms.isEmpty then
    let rk := arms.filter (fun a => (s.arm a).handed && s.fb (F.WIN_ARM_CFG_full_rank a))
    let s := if s.seq.ordered then s else s.forEach arms (fun s a =>
      s.modArm a (fun x => { x with tallyI := x.req.map ArmReq.iPrev }))
    s.modUnit u (fun x => { x with ranked := true, ranking := !rk.isEmpty, rankArms := rk, tallyDue := true })
  else s

/-- A unit hands the selection of its arm to the edge planner and starts its next arm (R162). -/
def execSelectionHandover (u : Fin 6) (s : State) : Host.Outcome State Fault Refusal :=
  match (s.unit u).busy with
  | none => .next s
  | some a =>
    match (s.arm a).work with
    | none => .next (s.modUnit u (fun x => { x with busy := none }))
    | some r =>
      let x := s.select a r
      let s := if x.clampSeen then s.raiseOnce (F.WIN_ARM_FLAGS_level_clamp a) .levelClamp a 0 0 else s
      let s := if r.trimEn && x.trim.isNone then s.mark (F.WIN_ARM_FLAGS_trim_drop a) else s
      let s := if s.fb F.WIN_SEL_BASE_sel_en then
          s.grnWriteA (s.f F.WIN_SEL_BASE_base * 4096 + a * 0x100 + r.period % 2 * 0x80) (s.selectionRecord a x) else s
      let bound := selectCycles (s.nInstalled a)
      let fv := s.free
      let s := fv.2.modUnit u (fun y => { y with busy := none, cycles := y.cycles + fv.1 % (bound + 1) })
      let s := s.modArm a (fun y => { y with handed := true, selection := some x })
      let s := { s with plan := { s.plan with queue := s.plan.queue ++ [a] } }
      .next ((s.startUnit u).tryRanking u)

/-- The rank table of an arm is complete (R164). -/
def State.writeRank (s : State) (a : Nat) (sel : Selection) : State :=
  let pos := sel.cands.map (s.armPos a)
  let s := s.grnWriteA (s.f F.WIN_RANK_BASE_base * 16384 + a * 0x400)
    ((upto 512).flatMap (fun i => leBytes 2 (pos.getD i 0xFFFF)))
  s.setF (F.WIN_ARM_STAT_rank_seq a) sel.req.period

/-- The arms that a unit ranks, with their selections. -/
def State.ranked (s : State) (u : Nat) : List (Nat × Selection) :=
  (s.unit u).rankArms.filterMap (fun a => (s.arm a).selection.map (fun x => (a, x)))

/-- The rank tables are complete (R164), in the cycle of the next GATHER_DONE at the latest. -/
def execRankComplete (u : Fin 6) (s : State) : Host.Outcome State Fault Refusal :=
  let x := s.unit u
  if x.ranking then
    let s := (s.ranked u).foldl (fun s p => s.writeRank p.1 p.2) s
    .next (s.modUnit u (fun x => { x with ranking := false, rankArms := [] }))
  else if x.pastAt = s.cyc then
    .next ((x.past.foldl (fun s p => s.writeRank p.1 p.2) s).modUnit u (fun x => { x with past := [] }))
  else .next s

/-- The selections, plans and rankings of the period before are over (R164). -/
def State.clearSelections (s : State) : State :=
  let s := s.forEach (upto 6) (fun s u =>
    let now := if (s.unit u).ranking then s.ranked u else []
    s.modUnit u (fun x => { x with busy := none, ranking := false, rankArms := [], ranked := false, past := now, pastAt := s.cyc }))
  let s := s.forEach (upto 12) (fun s a => s.modArm a (fun x => { x with
    work := none, started := false, handed := false, planned := false, readyAt := 0, selection := none }))
  { s with plan := { s.plan with slots := [], queue := [] } }

/-! ### Capacitance tally (R170 to R174) -/

/-- cgain from a nominal capacitance in µF (R170). -/
def cgainOf (cNom : Nat) : Nat := nclamp (roundDiv 549755813888 (1000 * max 1 cNom)) 1 0xFFFFFF

/-- CAP_DRIFT of R173: the difference from c_nom in percent is above `pct`. -/
def driftAbove (cgain cNom pct : Nat) : Bool :=
  let ref := cNom * cgain * 1000
  decide (((549755813888 : Int) - ref).natAbs * 100 > pct * ref)

/-- The difference has returned below `pct` percent (R173). -/
def driftBelow (cgain cNom pct : Nat) : Bool :=
  let ref := cNom * cgain * 1000
  decide (((549755813888 : Int) - ref).natAbs * 100 < pct * ref)

/-- CAP_DRIFT is raised once for a cell, and again only after the difference has returned below drift_pct - 2 percent (R173). -/
def State.driftCheck (s : State) (c : Nat) : State :=
  let x := s.cell c
  let g := s.f (F.WIN_CELL_TALLY_cgain c)
  let pct := s.f F.WIN_DRIFT_drift_pct
  if driftAbove g x.cNom pct then
    if x.driftSeen then s else (s.modCell c (fun x => { x with driftSeen := true })).raise .capDrift c 0 g
  else if driftBelow g x.cNom (pct - 2) then s.modCell c (fun x => { x with driftSeen := false })
  else s

/-- Discovery finds a compatible cell: its cgain is set, or the value written in CONFIGURE kept, and its accumulators are zeroed (R170). -/
def State.initTally (s : State) (c cNom : Nat) : State :=
  let s := s.modCell c (fun x => { x with cgain0 := cgainOf cNom, cNom := cNom, accA := 0, accB := 0, m := 0,
                                          limitSeen := false })
  let s := if s.fb F.WIN_CFG_tally_keep && (s.cell c).tallyKept then s
    else (s.setF (F.WIN_CELL_TALLY_cgain c) (cgainOf cNom)).modCell c (fun x => { x with tallyKept := false })
  (s.setF (F.WIN_CELL_TALLY_valid c) 1).driftCheck c

/-- The correction of R172: the new cgain and whether a bound stopped it. -/
def corrected (cgain cgain0 : Nat) (accA : Int) (accB shift : Nat) : Nat × Bool :=
  let q := nclamp ((iclamp accA 0 (2 ^ 40)).toNat * 65536 / max 1 accB) 0x8000 0x20000
  let want : Int := (cgain : Int) + roundHalfAway ((cgain : Int) * ((q : Int) - 0x10000)) (16 + shift)
  let lo := cgain0 / 2
  let hi := min (cgain0 * 2) 0xFFFFFF
  let got := (iclamp want lo hi).toNat
  (got, decide (want ≠ (got : Int)))

/-- tally_block qualifying periods are complete: cgain is corrected (R172, R173). -/
def State.correctTally (s : State) (c : Nat) : State :=
  let x := s.cell c
  let r := corrected (s.f (F.WIN_CELL_TALLY_cgain c)) x.cgain0 x.accA x.accB (s.f F.WIN_TALLY_CFG_tally_shift)
  let s := (s.setF (F.WIN_CELL_TALLY_cgain c) r.1).modCell c (fun x => { x with accA := 0, accB := 0, m := 0, tallyKept := false })
  let s := if r.2 && !x.limitSeen then
      (s.modCell c (fun x => { x with limitSeen := true })).raise .tallyLimit c 0 r.1 else s
  s.driftCheck c

/-- The tally update of one cell (R171). -/
def State.tallyCell (s : State) (c : Nat) (iPrev : Int) : State :=
  let x := s.cell c
  let calm := !(stRefused x || stHolding x || stDual x)
  if x.fresh && x.freshPrev && s.cellCode c == 0 && x.codePrev == 0 && calm && x.calmPrev then
    let dPred := roundHalfAway (iPrev * x.tauP * s.f (F.WIN_CELL_TALLY_cgain c)) 32
    let dMeas := ((x.vcap : Int) - x.vcapPrev) * 16
    if dPred.natAbs ≥ s.f F.WIN_TALLY_CFG_tally_min then
      let s := s.modCell c (fun x => { x with
        accA := iclamp (x.accA + (if dPred < 0 then -dMeas else dMeas)) (-2147483648) 2147483647
        accB := min (x.accB + dPred.natAbs) 0xFFFFFFFF
        m := x.m + 1 })
      if (s.cell c).m ≥ s.f F.WIN_TALLY_CFG_tally_block then s.correctTally c else s
    else s
  else s

/-- The tally work of a unit's arms for the period (R171, R174). -/
def execTallyUpdate (u : Fin 6) (s : State) : Host.Outcome State Fault Refusal :=
  if (s.unit u).tallyDue then
    let s := s.modUnit u (fun x => { x with tallyDue := false })
    if s.mode.controls && s.fb F.WIN_TALLY_CFG_tally_en then
      .next (s.forEach (s.unitArms u) (fun s a =>
        match (s.arm a).tallyI with
        | some i => s.forEach (s.armCells a) (fun s c => s.tallyCell c i)
        | none => s))
    else .next s
  else .next s

/-! ### Units (R165) -/

/-- The assignment of arms to units, fixed when the device leaves CONFIGURE (R165). A move is reported as a clamp of origin 4. -/
def State.assignUnits (s : State) (report : State → Nat → Nat → Nat → State) : State :=
  let load := fun (s : State) (done : List Nat) (u : Nat) => (done.filter (fun a => s.unitOf a == u)).length
  let en := s.enabledArms
  let first := en.filter (fun a =>
    decide ((en.filter (fun b => decide (b < a) && s.f (F.WIN_ARM_CFG_unit b) == s.f (F.WIN_ARM_CFG_unit a))).length < 2))
  let s := s.forEach (upto 12) (fun s a => s.setF (F.WIN_ARM_FLAGS_unit_used a) (s.f (F.WIN_ARM_CFG_unit a)))
  let rest := en.filter (fun a => !first.contains a)
  (rest.foldl (fun (acc : State × List Nat) a =>
    let free := (upto 6).filter (fun u => decide (load acc.1 acc.2 u < 2))
    match free with
    | u :: _ => (report (acc.1.setF (F.WIN_ARM_FLAGS_unit_used a) u) a (acc.1.f (F.WIN_ARM_CFG_unit a)) u, acc.2 ++ [a])
    | [] => (acc.1, acc.2 ++ [a])) (s, first)).1

end Sys2Proof.Machine
end

