-- ==== Sys2Proof/Machine/EdgePlan.lean ====
section
/-! DEFINITION. The edge planner: what each cell is commanded in a window (R176 to R186). Times are in 0.25 ns units from the
window origin. -/

namespace Sys2Proof.Machine

/-! ### ORDER slot states (R87) -/

def slotBlock : Nat := 0
def slotInsert : Nat := 1
def slotBypass : Nat := 2
def slotHold : Nat := 3
def slotTest : Nat := 4
def slotClose : Nat := 5

/-- A candidate while its window is planned: output now, instant of its last toggle (−age when none in this window), toggles after
the origin, each with the output it leads to, whether it toggled at the origin, its output from the origin on, and its minima in
0.25 ns (R180, R181). -/
structure PlanCell where
  cell : Nat
  out : Present
  last : Int
  edges : List (Nat × Present)
  origin : Bool
  start : Present
  minIns : Nat
  minByp : Nat
deriving DecidableEq, Repr

/-- The output is inserted, of either polarity. -/
def Present.inserted : Present → Bool
  | .insPos | .insNeg => true
  | _ => false

/-- The insertion state of a polarity. -/
def insertState (neg : Bool) : Present := if neg then .insNeg else .insPos

/-- A candidate before the origin: a blocked cell counts as bypassed (R180). -/
def State.planCell (s : State) (c : Nat) : PlanCell :=
  let p := match s.present c with
    | .blocked => .bypassed
    | q => q
  let r := (s.cell c).record
  { cell := c, out := p, last := -((s.cell c).age : Int), edges := [], origin := false, start := p,
    minIns := max 1 (match r with | some r => r.minInsert * 4 | none => 0),
    minByp := max 1 (match r with | some r => r.minBypass * 4 | none => 0) }

/-- The minimum interval that a toggle now would end (R181). -/
def PlanCell.min (k : PlanCell) : Nat := if k.out.inserted then k.minIns else k.minByp

/-- A toggle at time t is allowed (R181). -/
def PlanCell.allowed (k : PlanCell) (t : Nat) : Bool :=
  (t == 0 || decide (k.edges.length < 2)) && decide ((t : Int) - k.last ≥ k.min)

/-- The earliest allowed toggle time at or after t, none where the slot already holds two edges. -/
def PlanCell.earliest (k : PlanCell) (t : Nat) : Option Nat :=
  if k.edges.length ≥ 2 then none else some (iclamp (k.last + k.min) (max t 1) (2 ^ 40)).toNat

/-- The toggle to a state at time t. -/
def PlanCell.toggle (k : PlanCell) (t : Nat) (dest : Present) : PlanCell :=
  if t = 0 then { k with out := dest, last := 0, origin := true, start := dest }
  else { k with out := dest, last := t, edges := k.edges ++ [(t, dest)] }

/-- The output at time t. -/
def PlanCell.outAt (k : PlanCell) (t : Nat) : Present :=
  match (k.edges.filter (fun e => decide (e.1 ≤ t))).getLast? with
  | some e => e.2
  | none => k.start

/-- A toggle later than t is already placed. -/
def PlanCell.later (k : PlanCell) (t : Nat) : Bool := k.edges.any (fun e => decide (e.1 > t))

/-- A candidate brought to its target at the origin (R182): the cell, and whether the toggle came late. -/
def PlanCell.toTarget (k : PlanCell) (dest : Present) (w : Nat) : PlanCell × Nat :=
  if k.out = dest then (k, 0)
  else if k.allowed 0 then (k.toggle 0 dest, 0)
  else match k.earliest 1 with
    | some t => if t < w then (k.toggle t dest, 1) else (k, 1)
    | none => (k, 1)

/-- Result of planning level changes: the swing cells in list order, slips and misses counted. -/
structure SwingPlan where
  cells : List PlanCell
  slips : Nat
  misses : Nat
deriving DecidableEq, Repr

/-- Replace the element at a position by a function of it. -/
def lmod {α : Type} (f : α → α) : List α → Nat → List α
  | [], _ => []
  | a :: t, 0 => f a :: t
  | a :: t, i + 1 => a :: lmod f t i

/-- The position whose value is smallest; ties to the first, or to the last where `lastWins`. -/
def bestPos (lastWins : Bool) (xs : List (Nat × Nat)) : Option (Nat × Nat) :=
  xs.foldl (fun best p => match best with
    | none => some p
    | some b => if p.2 < b.2 ∨ (lastWins ∧ p.2 = b.2) then some p else best) none

/-- One level change of one cell at time t: a toggle, a slip or a miss (R183, R184). -/
def swingOnce (neg : Bool) (w t : Nat) (rising : Bool) (x : SwingPlan) : SwingPlan :=
  let want := fun (k : PlanCell) => (k.outAt t).inserted != rising && !k.later t
  let dest := if rising then insertState neg else Present.bypassed
  let idx := x.cells.zipIdx
  let ready := (idx.filter (fun p => want p.1 && p.1.allowed t)).map (fun p => (p.2, 0))
  match bestPos (!rising) ready with
  | some (i, _) => { x with cells := lmod (fun k => k.toggle t dest) x.cells i }
  | none =>
    let late := idx.filterMap (fun p => if want p.1 then (p.1.earliest t).map (fun e => (p.2, e)) else none)
    match bestPos (!rising) late with
    | some (i, e) =>
      if e < w then { x with cells := lmod (fun k => k.toggle e dest) x.cells i, slips := x.slips + 1 }
      else { x with misses := x.misses + 1 }
    | none => { x with misses := x.misses + 1 }

/-- `k` changes of one direction at one time. -/
def swingMany (neg : Bool) (w t : Nat) (rising : Bool) : Nat → SwingPlan → SwingPlan
  | 0, x => x
  | k + 1, x => swingMany neg w t rising k (swingOnce neg w t rising x)

/-- The level changes in order (R183). -/
def swingLevels (neg : Bool) (w lo : Nat) : List (Nat × Nat) → SwingPlan → SwingPlan
  | [], x => x
  | (t, m) :: rest, x =>
    let have_ := (x.cells.filter (fun k => (k.outAt t).inserted)).length
    let x := if have_ < m - lo then swingMany neg w t true (m - lo - have_) x
      else swingMany neg w t false (have_ - (m - lo)) x
    swingLevels neg w lo rest x

/-- The output from the origin on that a slot spells (R88): the named state with an even number of edges, else the other one; where that
is as the planner has it, with the polarity the cell keeps (log entry 98). -/
def PlanCell.slotStart (k : PlanCell) (neg : Bool) : Present :=
  let ins := k.out.inserted != (k.edges.length % 2 == 1)
  if k.start.inserted == ins then k.start else if ins then insertState neg else .bypassed

/-- What a planned candidate's slot carries (R179). -/
def PlanCell.slot (k : PlanCell) (neg : Bool) : PlanSlot :=
  { state := if k.out.inserted then slotInsert else slotBypass, edges := k.edges.map Prod.fst,
    cmd := { start := k.slotStart neg, toggles := k.edges.map Prod.fst, neg := neg },
    ageEdge := match k.edges.getLast? with
      | some e => some e.1
      | none => if k.origin then some 0 else none }

/-- The trim pulse (R185): the cell, and counts of dropped, stretched and slipped pulses. -/
def PlanCell.trim (k : PlanCell) (neg stretch : Bool) (duty w : Nat) : PlanCell × Nat × Nat × Nat :=
  let ins := insertState neg
  let other := k.out.inserted && k.out != ins
  let drop := if other then
      let r := k.toTarget .bypassed w
      (r.1, r.2)
    else (k, 0)
  let d0 := (roundHalfAway ((duty * w : Nat) : Int) 16).toNat
  if duty = 0 then (drop.1, 0, 0, drop.2)
  else
    let row2 := k.out == ins
    let shortIns := decide (d0 < k.minIns)
    let shortGap := row2 && decide (w - d0 < k.minByp)
    let short := shortIns || shortGap
    let d := if short && stretch then (if shortIns then k.minIns else w - k.minByp) else d0
    let e0 := if row2 then (d + 1) / 2 else (w - d) / 2
    let e1 := if row2 then e0 + (w - d) else e0 + d
    let k0 := if other then k.toggle 0 .bypassed else k
    let first := k0.toggle e0 (if row2 then .bypassed else ins)
    let good := (!short || stretch) && decide (d ≤ w) && (!other || k.allowed 0) && decide (0 < e0)
      && k0.allowed e0 && first.allowed e1 && decide (e1 < w) && decide (e0 < e1)
    if good then (first.toggle e1 (if row2 then ins else .bypassed), 0, b2n short, 0)
    else (drop.1, 1, 0, drop.2)

/-- The slots that do not take part in selection (R178). -/
def State.excludedSlot (s : State) (c code : Nat) (neg : Bool) : PlanSlot :=
  let p := s.present c
  if code = 2 ∨ code = 3 ∨ code = 4 then { state := slotClose, edges := [], cmd := CellCmd.blocked, ageEdge := some 0 }
  else if code = 5 ∨ code = 7 then
    { state := slotBypass, edges := [], cmd := { start := .bypassed, toggles := [], neg := neg },
      ageEdge := if p.inserted then some 0 else none }
  else if code = 8 then
    { state := slotHold, edges := [], cmd := { start := p, toggles := [], neg := (s.cell c).cmd1.neg }, ageEdge := none }
  else { state := slotBlock, edges := [], cmd := CellCmd.blocked, ageEdge := some 0 }

/-- The slots of one arm (R178 to R185), with the slips, misses, dropped and stretched pulses. -/
def State.planArm (s : State) (a : Nat) (x : Selection) : List (Nat × PlanSlot) × Nat × Nat × Nat × Nat :=
  let neg := x.req.pol
  let w := s.windowLen
  let ins := insertState neg
  let first := x.counts.getD 0 0 - x.mLo
  let base := x.base.map (fun c => (s.planCell c).toTarget ins w)
  let swing0 := x.swing.zipIdx.map (fun p => (s.planCell p.1).toTarget (if p.2 < first then ins else .bypassed) w)
  let rest := (x.cands.drop (x.base.length + x.swing.length)).filter (fun c => some c != x.trim)
  let others := rest.map (fun c => (s.planCell c).toTarget .bypassed w)
  let swing := swingLevels neg w x.mLo ((x.req.changes.map Prod.fst).zip (x.counts.drop 1))
    { cells := swing0.map Prod.fst, slips := 0, misses := 0 }
  let tr := match x.trim with
    | none => ([], 0, 0, 0)
    | some c =>
      let r := (s.planCell c).trim neg (s.fb F.EDG_CFG_trim_policy) x.req.trimDuty w
      ([r.1], r.2.1, r.2.2.1, r.2.2.2)
  let slips := ((base ++ swing0 ++ others).map Prod.snd).sum + swing.slips + tr.2.2.2
  let cells := base.map Prod.fst ++ swing.cells ++ others.map Prod.fst ++ tr.1
  let excl := (s.armCells a).filterMap (fun c =>
    if s.cellCode c = 0 then none else some (c, s.excludedSlot c (s.cellCode c) neg))
  (cells.map (fun k => (k.cell, k.slot neg)) ++ excl, slips, swing.misses, tr.2.1, tr.2.2.1)

/-- An empty slot of the plan: BLOCK. -/
def PlanSlot.blank : PlanSlot := { state := slotBlock, edges := [], cmd := CellCmd.blocked, ageEdge := some 0 }

/-- An arm planner completes the slots of its next arm (R176), in the modes in which it runs (R186). -/
def execArmPlanDone (u : Fin 6) (s : State) : Host.Outcome State Fault Refusal :=
  match if s.mode.controls then s.plan.queue.find? (fun a => s.unitOf a == u.val) else none with
  | none => .next s
  | some a =>
    let s := { s with plan := { s.plan with queue := s.plan.queue.erase a } }
    match (s.arm a).selection with
    | none => .next s
    | some x =>
      let r := s.planArm a x
      let slots := List.foldl (fun (t : List (Nat × PlanSlot)) (p : Nat × PlanSlot) => tput PlanSlot.blank t p.1 p.2)
        s.plan.slots r.1
      let s := { s with plan := { s.plan with slots := slots } }
      let s := s.modArm a (fun y => { y with planned := true })
      let s := (s.bumpF (F.EDG_ARM_STAT_slip_cnt a) r.2.1).bumpF (F.EDG_ARM_STAT_miss_cnt a) r.2.2.1
      let s := (s.bumpF (F.EDG_ARM_STAT_trim_pulse_drop a) r.2.2.2.1).bumpF (F.EDG_ARM_STAT_trim_stretch a) r.2.2.2.2
      let s := if r.2.1 > 0 then s.mark (F.EDG_ARM_FLAGS_slip a) else s
      .next (if r.2.2.1 > 0 then (s.mark (F.EDG_ARM_FLAGS_level_miss a)).raise .planMiss a 0 0 else s)

/-! ### What leaves in the frames (R43, R186) -/

/-- A slot as the mode lets it leave. -/
def maskSlot (m : Mode) (p : PlanSlot) : PlanSlot :=
  match m with
  | .precharge => if p.state = slotHold ∨ p.state = slotClose ∨ p.state = slotTest then PlanSlot.blank else p
  | .run | .shadow => p
  | _ => PlanSlot.blank

/-- The HOLD slot of a late plan for a cell (R29). -/
def State.holdSlot (s : State) (c : Nat) : PlanSlot :=
  { state := slotHold, edges := [], cmd := { start := s.present c, toggles := [], neg := (s.cell c).cmd1.neg }, ageEdge := none }

/-- The k-th of the slots that DIAGNOSTIC may send, without an edge: BLOCK, BYPASS, HOLD, TEST, CLOSE (R43, R57). -/
def State.diagSlot (s : State) (c k : Nat) : PlanSlot :=
  if k = 1 then { state := slotBypass, edges := [], cmd := { start := .bypassed, toggles := [], neg := (s.cell c).cmd1.neg },
                  ageEdge := if s.present c == .bypassed then none else some 0 }
  else if k = 2 then s.holdSlot c
  else if k = 3 then { PlanSlot.blank with state := slotTest }
  else if k = 4 then { PlanSlot.blank with state := slotClose }
  else PlanSlot.blank

/-- The slot a cell is sent in the ORDER frame of the period. -/
def State.slotFor (s : State) (c : Nat) : PlanSlot :=
  if s.mode == .diagnostic then tget PlanSlot.blank s.plan.slots c
  else if s.mode.controls then maskSlot s.mode (if s.seq.planComplete then tget PlanSlot.blank s.plan.slots c else s.holdSlot c)
  else PlanSlot.blank

/-- The cell's command and age follow the slot as sent (R143, R180, R186). -/
def State.commandCell (s : State) (c : Nat) (p : PlanSlot) : State :=
  let w := s.windowLen
  s.modCell c (fun x => { x with
    cmd2 := x.cmd1, cmd1 := p.cmd, ageFrom := x.age
    age := match p.ageEdge with
      | some e => min 0x3FFFFF ((w : Int) - e).toNat
      | none => min 0x3FFFFF (x.age + w) })

end Sys2Proof.Machine
end

