-- ==== Sys2Proof/Machine/Pwm.lean ====
section
/-! DEFINITION. Local PWM: timers, dead time, minimum pulse, shadows, masks, fault inputs and synchronisation pins
(R188 to R203). Compare instants are in 50 ps units within a counter cycle. -/

namespace Sys2Proof.Machine

def pwmChannels : List Nat := upto 16

/-! ### Working values -/

/-- A shadow register as it stood at the start of the present cycle (R194, R195). -/
def State.startRd (s : State) (off : Nat) : Nat :=
  match s.pwmIo.was.find? (fun p => p.1 == off) with
  | some p => if s.pwmIo.wasAt = s.cyc then p.2 else s.rd off
  | none => s.rd off

/-- A shadow register has been written: its value at the start of the cycle is kept. -/
def State.keepStart (s : State) (off old : Nat) : State :=
  let was := if s.pwmIo.wasAt = s.cyc then s.pwmIo.was else []
  { s with pwmIo := { s.pwmIo with was := if was.any (fun p => p.1 == off) then was else (off, old) :: was, wasAt := s.cyc } }

/-- Compare value of a shadow register (R189). -/
def State.shadowOn (s : State) (c : Nat) : Nat := bitsOf (s.startRd (R.EDG_PWM_ON c)) 28 0
def State.shadowOff (s : State) (c : Nat) : Nat := bitsOf (s.startRd (R.EDG_PWM_OFF c)) 28 0

/-- The committed set as its shadows stand (R195); a RELOAD channel keeps its own on and off. -/
def State.shadowSet (s : State) (c : Nat) : PwmSet :=
  let w := (s.pwmCh c).work
  let commit := s.fb (F.EDG_PWM_CTL_upd_mode c)
  let dt := s.startRd (R.EDG_PWM_DT c)
  { per := bitsOf (s.startRd (R.EDG_PWM_PER c)) 23 0, dead := bitsOf dt 15 0, minPulse := bitsOf dt 31 16,
    phase := bitsOf (s.startRd (R.EDG_PWM_PHASE c)) 23 0, on := if commit then s.shadowOn c else w.on,
    off := if commit then s.shadowOff c else w.off }

/-- The internal waveform at an instant of the counter cycle (R189). -/
def PwmSet.waveAt (w : PwmSet) (t : Nat) : Bool :=
  if w.on < w.off then decide (w.on ≤ t) && decide (t < w.off)
  else if w.off < w.on then decide (t < w.off) || decide (w.on ≤ t)
  else false

/-- Channel 2k + 1 follows 2k as its complement (R192). -/
def State.pairedTo (s : State) (c : Nat) : Bool := c % 2 == 1 && s.fb (F.EDG_PWM_CTL_pair_en (c - 1))

/-! ### Driving (R201) -/

/-- The device may drive its PWM_OUT pins. -/
def State.mayDrive (s : State) : Bool :=
  let modeOk := match s.mode with
    | .precharge | .ready | .run | .diagnostic => true
    | _ => false
  let pairOk := if !s.paired then true
    else if s.mode == .diagnostic then
      s.f F.RED_STAT_sense == 0 || (s.f F.RED_STAT_sense == 1 && s.f F.NCL_GCFG_side == s.f F.RED_CFG_first_side)
    else s.holder
  modeOk && pairOk && s.pwmIo.hiz == 0

/-- Pins stop driving at once where the device may no longer drive (R201); a forced channel starts at once where it may. -/
def State.updateDrive (s : State) : State :=
  if s.mayDrive then
    s.forEach pwmChannels (fun s c => if (s.pwmCh c).force.isSome then s.modPwm c (fun x => { x with driving := true }) else s)
  else s.forEach pwmChannels (fun s c => s.modPwm c (fun x => { x with driving := false }))

/-- Every PWM_OUT pin goes to high impedance (R322); driving begins again under R201. -/
def State.pwmHiZ (s : State) : State :=
  s.forEach pwmChannels (fun s c => s.modPwm c (fun x => { x with driving := false }))

/-! ### Masks (R197) -/

/-- Length of mask source 0 to 3 in CORE_CLK cycles. -/
def State.maskLen (s : State) (src : Nat) : Nat :=
  match src with
  | 0 => s.f (F.EDG_ZC_zc_len 0)
  | 1 => s.f (F.EDG_ZC_zc_len 1)
  | 2 => s.f F.EDG_MASK_LEN_byp_len
  | _ => s.f F.EDG_MASK_LEN_tripb_len

/-- The cycle in which an active mask source ends; BYP after the last activating edge still to come. -/
def State.maskEnd (s : State) (src : Nat) : Option Nat := s.pwmIo.masks.getD src none

/-- A mask source's event: its length starts, again where the source is active; one with length 0 is never active. -/
def State.startMask (s : State) (src : Nat) : State :=
  if s.maskLen src = 0 then s
  else { s with pwmIo := { s.pwmIo with masks := lset s.pwmIo.masks src (some (s.cyc + s.maskLen src)) } }

/-- An output of a channel with byp_src has its activating edge in cycle `e`: BYP is active from then on (R197). -/
def State.startBypass (s : State) (e : Nat) : State :=
  let n := s.maskLen 2
  if n = 0 then s
  else { s with pwmIo := { s.pwmIo with
    masks := lset s.pwmIo.masks 2 (some (max (e + n) ((s.maskEnd 2).getD 0)))
    byp := s.pwmIo.byp.filter (fun p => decide (s.cyc < p.2)) ++ [(e, e + n)] } }

/-- A mask source is active now. -/
def State.maskOn (s : State) (src : Nat) : Bool :=
  if src = 2 then s.pwmIo.byp.any (fun p => decide (p.1 ≤ s.cyc) && decide (s.cyc < p.2))
  else (s.maskEnd src).any (fun e => decide (s.cyc < e))

/-- The mask sources active now, one bit per source of R197. -/
def State.maskBits (s : State) : Nat :=
  (upto 4).foldl (fun acc i => acc + b2n (s.maskOn i) * 2 ^ i) 0 + s.f F.EDG_MASK_SW_sw * 16

/-- An enabled mask source holds the channel's output. -/
def State.maskedCh (s : State) (c : Nat) : Bool := (s.f (F.EDG_PWM_CTL_mask_en c) &&& s.maskBits) != 0

/-- A fault action holds the channel's output (R199). -/
def State.faultHeld (s : State) (c : Nat) : Bool :=
  (s.pwmCh c).fltCycle != 0 || (s.pwmCh c).fltLatch != 0 || s.pwmIo.hiz != 0

/-- The output level of a channel in a cycle, with the edges that have come (R192, R193). -/
def Pwm.outAt (x : Pwm) (c : Nat) : Bool :=
  match (x.edges.filter (fun e => decide (e.1 ≤ c))).getLast? with
  | some e => e.2
  | none => x.outWas

/-- The level at the ball of a channel: none in high impedance (R189, R196, R197, R199, R201). -/
def State.pinLevel (s : State) (c : Nat) : Option Bool :=
  let x := s.pwmCh c
  if !x.driving || !s.fb (F.EDG_PWM_CTL_out_en c) then none
  else
    let active := if s.maskedCh c || s.faultHeld c then false
      else match x.force with
        | some b => b
        | none => x.outAt s.cyc
    some (active != s.fb (F.EDG_PWM_CTL_pol c))

/-- The length of an active mask source runs out. -/
def execMaskExpire (src : Fin 4) (s : State) : Host.Outcome State Fault Refusal :=
  match s.maskEnd src with
  | none => .next s
  | some e =>
    let s := s.advanceCyc e
    .next { s with pwmIo := { s.pwmIo with masks := lset s.pwmIo.masks src none, byp := if src.val = 2 then [] else s.pwmIo.byp } }

/-! ### Fault inputs (R198 to R200) -/

/-- Channels an input acts on. -/
def State.fltChannels (s : State) (i : Nat) : Nat :=
  s.f (F.EDG_FLT_STAT_ch_mask_lo i) + s.f (F.EDG_FLT_CFG_ch_mask_hi i) * 256

def State.flt (s : State) (i : Nat) : FltIn := tget FltIn.reset s.pwmIo.flt i
def State.setFlt (s : State) (i : Nat) (x : FltIn) : State :=
  { s with pwmIo := { s.pwmIo with flt := tput FltIn.reset s.pwmIo.flt i x } }

/-- A fault input reads asserted, for `len` cycles where it did not before, or deasserted. -/
def State.fltPin (s : State) (i : Nat) (on : Bool) (len : Nat) : State :=
  let s := s.setF (F.EDG_FLT_STAT_pin i) (b2n on)
  match on, (s.flt i).since with
  | true, none => s.setFlt i { s.flt i with since := some (s.cyc - len), acted := none }
  | true, some _ => s
  | false, _ => s.setFlt i { s.flt i with since := none }

/-- The fault pins as they read. -/
def State.setFltPins (s : State) (pins : Nat) : State := s.forEach (upto 8) (fun s i => s.fltPin i (bitOf pins i) 0)

/-- The fault pins as they last read. -/
def State.fltPins (s : State) : Nat := (upto 8).foldl (fun acc i => acc + s.f (F.EDG_FLT_STAT_pin i) * 2 ^ i) 0

/-- The input acted in the present cycle: a release in the same cycle loses to it (R200). -/
def State.actsNow (s : State) (i : Nat) : Bool := (s.flt i).acted == some s.cyc

/-- The cycles for which the input is asserted. -/
def State.fltLen (s : State) (i : Nat) : Nat :=
  match (s.flt i).since with
  | some f => s.cyc - f
  | none => 0

/-- An input's assertion has been long enough for its mode (R198): 4 ns, or filt_len + 1 samples. -/
def State.fltLong (s : State) (i : Nat) : Bool :=
  if s.f (F.EDG_FLT_CFG_flt_mode i) = 2 then decide (s.fltLen i ≥ s.f (F.EDG_FLT_CFG_filt_len i) + 1)
  else decide (s.fltLen i * 16 ≥ 40)

/-- The input is blanked now: its mode is BLANKED and the waveform of its blanking channel is active. -/
def State.blanked (s : State) (i : Nat) : Bool :=
  s.f (F.EDG_FLT_CFG_flt_mode i) == 1 && (s.pwmCh (s.f (F.EDG_FLT_CFG_blank_ch i))).wave

/-- PWM_FAULT tells of an input's action. -/
def State.fltTell (s : State) (i tally : Nat) : State :=
  ({ s with pwmIo := { s.pwmIo with fltSeen := s.pwmIo.fltSeen ||| 2 ^ i } }.setFlt i { s.flt i with told := some s.cyc }).raise .pwmFault i
    (s.f (F.EDG_FLT_CFG_flt_action i)) tally

/-- A qualified assertion acts; a clr of the same cycle does not end an escalation (R200). -/
def State.fltAct (s : State) (i : Nat) : State :=
  let s := s.setFlt i { s.flt i with acted := some s.cyc }
  let tally := satInc (s.f (F.EDG_FLT_STAT_tally i)) 255
  let s := s.setF (F.EDG_FLT_STAT_tally i) tally
  let act := s.f (F.EDG_FLT_CFG_flt_action i)
  let esc := act == 0 && (s.fb (F.EDG_FLT_STAT_escalated i) || (s.flt i).ended == some s.cyc
    || decide (tally ≥ s.f (F.EDG_FLT_CFG_flt_limit i)))
  let s := if esc then s.setF (F.EDG_FLT_STAT_escalated i) 1 else s
  let mask := s.fltChannels i
  let s := (s.setF (F.EDG_FLT_STAT_held i) 1).startMask 3
  let s := if act = 2 then { s with pwmIo := { s.pwmIo with hiz := s.pwmIo.hiz ||| 2 ^ i } }.pwmHiZ
    else s.forEach (pwmChannels.filter (bitOf mask)) (fun s c => s.modPwm c (fun x =>
      if act = 1 ∨ esc then { x with fltLatch := x.fltLatch ||| 2 ^ i } else { x with fltCycle := x.fltCycle ||| 2 ^ i }))
  if bitOf s.pwmIo.fltSeen i then s else s.fltTell i tally

/-- An assertion acts once, as soon as it is long enough and not blanked (R198, R200). -/
def State.fltCheck (s : State) (i : Nat) : State :=
  if s.fb (F.EDG_FLT_STAT_pin i) && s.fltLong i && !s.blanked i && (s.flt i).acted.isNone then s.fltAct i else s

/-- A fault input has been asserted for a number of CORE_CLK cycles; for none, it is deasserted (log entry 99). -/
def execFaultInputAssert (i : Fin 8) (cycles : Nat) (s : State) : Host.Outcome State Fault Refusal :=
  if !s.live then .next s
  else if cycles = 0 then .next (s.fltPin i false 0)
  else
    let s := match (s.flt i).since with
      | some f => s.advanceCyc (f + cycles)
      | none => s
    .next ((s.fltPin i true cycles).fltCheck i)

/-- The bit of an input removed from a mask of inputs. -/
def clearBit (m i : Nat) : Nat := if bitOf m i then m - 2 ^ i else m

/-- A write of clr (R199, R200): the action is released while the input is deasserted, the tally is zeroed. An assertion that acts in this
cycle stands, counted and told after the clear, and the input stays latched; an escalated CYCLE input that is asserted for longer
holds on as CYCLE (log entry 18). -/
def State.fltClear (s : State) (i : Nat) : State :=
  let esc := s.fb (F.EDG_FLT_STAT_escalated i)
  if s.actsNow i then
    let s := s.setF (F.EDG_FLT_STAT_tally i) 1
    if (s.flt i).told = some s.cyc then s else s.fltTell i 1
  else
  let s := (s.setF (F.EDG_FLT_STAT_tally i) 0).setF (F.EDG_FLT_STAT_escalated i) 0
  let s := { s with pwmIo := { s.pwmIo with fltSeen := clearBit s.pwmIo.fltSeen i } }
  let s := if esc then s.setFlt i { s.flt i with ended := some s.cyc } else s
  if s.fb (F.EDG_FLT_STAT_pin i) then
    if esc then s.forEach pwmChannels (fun s c => s.modPwm c (fun x =>
      if bitOf x.fltLatch i then { x with fltLatch := clearBit x.fltLatch i, fltCycle := x.fltCycle ||| 2 ^ i } else x))
    else s
  else
    let s := (s.setF (F.EDG_FLT_STAT_held i) 0).forEach pwmChannels (fun s c => s.modPwm c (fun x =>
      { x with fltLatch := clearBit x.fltLatch i, fltCycle := clearBit x.fltCycle i }))
    { s with pwmIo := { s.pwmIo with hiz := clearBit s.pwmIo.hiz i } }.updateDrive

/-! ### Dead time and minimum pulse (R192, R193) -/

/-- A dropped interval is counted; the first after the field is read is reported (R193). Nothing is counted while masked (R197). -/
def State.pulseDrop (s : State) (c : Nat) : State :=
  if s.maskedCh c then s
  else
    let first := s.f (F.EDG_PWM_STAT_pulse_drop c) == 0
    let s := s.bumpF (F.EDG_PWM_STAT_pulse_drop c) 1
    if first then s.raise .pulseDrop c 0 0 else s

/-- The end of an interval from a to b: in the same counter cycle of length n, at its end where b is never reached, or in the next. -/
def nextInstant (a b n : Nat) : Nat := if a < b then min b n else n + b

/-- The cycle in which an instant of a channel's counter cycle falls, in 50 ps units (R188: without the tick lag taken up). -/
def State.edgeCyc (s : State) (c : Nat) (t : Int) : Nat :=
  let x := s.pwmCh c
  max s.cyc ((x.loadAt : Int) + (t - x.lag) / 32 - x.counter).toNat

/-- An edge of an output at an instant. The interval that it ends counts as a drop where a load has cut it short and it cannot be
stretched (log entry 100). -/
def State.edge (s : State) (c : Nat) (level : Bool) (t : Int) (minP : Nat) (stretch : Bool) : State :=
  let s := if !stretch && decide (t - (s.pwmCh c).lastEdge < minP) then s.pulseDrop c else s
  s.modPwm c (fun x => { x with out := level, lastEdge := t, outWas := x.outAt s.cyc
                                edges := x.edges.filter (fun e => decide (s.cyc < e.1)) ++ [(s.edgeCyc c t, level)] })

/-- The latest instant to which the edge that ends an interval from a to b may move: the next reload, or the next edge after b. -/
def stretchLimit (a b n : Nat) : Nat := if a < b then n else n + a

/-- An activating edge of an output: `on` and `off` are the instants of its own waveform. -/
def State.activate (s : State) (c onT offT n dead minP : Nat) (stretch : Bool) : State :=
  let x := s.pwmCh c
  let start : Int := if stretch then max (onT + dead : Nat) (x.lastEdge + minP) else (onT + dead : Nat)
  let length : Int := (nextInstant onT offT n : Nat) - start
  if x.out then s
  else if length ≤ 0 ∨ (length < minP ∧ (!stretch ∨ start + minP > stretchLimit onT offT n)) then s.pulseDrop c
  else
    let s := s.edge c true start minP stretch
    if s.fb (F.EDG_PWM_CTL_byp_src c) && !s.maskedCh c then s.startBypass (s.edgeCyc c start) else s

/-- A deactivating edge of an output. -/
def State.deactivate (s : State) (c onT offT n dead minP : Nat) (stretch : Bool) : State :=
  let x := s.pwmCh c
  let close : Int := if stretch then max (offT : Int) (x.lastEdge + minP) else offT
  let gap : Int := (nextInstant offT onT n + dead : Nat) - close
  if !x.out then s
  else if gap < minP ∧ (!stretch ∨ close + minP > stretchLimit offT onT n) then s.pulseDrop c
  else s.edge c false close minP stretch

/-- The instant from which the other output of a pair may activate: a stretched closing edge moves it (R193). -/
def State.afterClosing (s : State) (c t : Nat) : Nat :=
  if (s.pwmCh c).out then t else max t (s.pwmCh c).lastEdge.toNat

/-- An assertion of a BLANKED input that lasts beyond the end of its blanking window acts as the window ends (R198). -/
def State.blankEnd (s : State) (c : Nat) : State :=
  s.forEach (upto 8) (fun s i =>
    if s.f (F.EDG_FLT_CFG_flt_mode i) == 1 && s.f (F.EDG_FLT_CFG_blank_ch i) == c then s.fltCheck i else s)

/-! ### Reload (R188, R194 to R196) -/

/-- The inputs still asserted, or acting in this cycle, among those that hold a channel by CYCLE are kept, the others released (R199). -/
def State.releaseCycle (s : State) (c pins : Nat) : State :=
  let pins := pins ||| ((upto 8).map (fun i => b2n (s.actsNow i) * 2 ^ i)).sum
  let s := s.modPwm c (fun x => { x with fltCycle := x.fltCycle &&& pins })
  s.forEach (upto 8) (fun s i =>
    if s.f (F.EDG_FLT_CFG_flt_action i) == 0 && !s.fb (F.EDG_FLT_STAT_escalated i)
        && pwmChannels.all (fun c => !bitOf (s.pwmCh c).fltCycle i && !bitOf (s.pwmCh c).fltLatch i) then
      s.setF (F.EDG_FLT_STAT_held i) 0 else s)

/-- The waveform of an output as its counter is loaded with `start` (50 ps units): an edge that no compare instant makes is made
here. -/
def State.loadWave (s : State) (c : Nat) (k : PwmSet) (complement : Bool) (start : Nat) : State :=
  let was := (s.pwmCh c).wave
  let wave := k.waveAt start != complement
  let onT := if complement then k.off else k.on
  let offT := if complement then k.on else k.off
  let n := k.per * 32
  let minP := (s.pwmCh c).work.minPulse
  let stretch := s.fb (F.EDG_PWM_CTL_policy c)
  let s := s.modPwm c (fun x => { x with wave := wave })
  if wave && !was && (onT != start || k.on == k.off) then
    s.activate c start offT n k.dead minP stretch
  else if !wave && was && (offT != start || k.on == k.off) then
    (s.deactivate c onT start n k.dead minP stretch).blankEnd c
  else s

/-- One channel reloads in cycle `at_`: its counter takes `start`, its working values, tap code, force and drive follow. -/
def State.reloadOne (s : State) (c start pins at_ : Nat) : State :=
  let x := s.pwmCh c
  let w := match x.waiting with
    | some w => w
    | none => x.work
  let w := if s.fb (F.EDG_PWM_CTL_upd_mode c) then w else { w with on := s.shadowOn c, off := s.shadowOff c }
  let drive := x.driving || (s.mayDrive && s.fb (F.EDG_PWM_CTL_out_en c))
  let shift : Int := (start : Int) - (x.counter + (at_ - x.loadAt) : Nat)
  let s := s.modPwm c (fun x => { x with
    work := w, waiting := none, counter := start, loadAt := at_, passed := start * 32, tapCode := s.f F.EDG_DL_STAT_code
    force := if x.forceEnd then none else x.force, forceEnd := false, driving := drive
    lastEdge := max (-1099511627776) (x.lastEdge + shift * 32) })
  let s := if s.pairedTo c then s.loadWave c (s.pwmCh (c - 1)).work true (start * 32) else s.loadWave c w false (start * 32)
  s.releaseCycle c pins

/-- Channel c is the even one of a pair (R192). -/
def State.leadsPair (s : State) (c : Nat) : Bool := c % 2 == 0 && s.fb (F.EDG_PWM_CTL_pair_en c)

/-- A channel reloads, with the other output of its pair (R192). -/
def State.reloadPair (s : State) (c start pins at_ : Nat) : State :=
  let s := s.reloadOne c start pins at_
  if s.leadsPair c then s.reloadOne (c + 1) start pins at_ else s

/-- The phase that a channel's counter takes at its next load: that of the set which takes effect there (R195). -/
def State.nextPhase (s : State) (c : Nat) : Nat :=
  match (s.pwmCh c).waiting with
  | some w => w.phase
  | none => (s.pwmCh c).work.phase

/-- The channels that each reload of channel c, or of the other one of its pair, loads (R188, sync_src 3). -/
def State.reloadFollowers (s : State) (c : Nat) : List Nat :=
  pwmChannels.filter (fun d =>
    let r := s.f (F.EDG_PWM_CTL_ref_ch d)
    d != c && s.f (F.EDG_PWM_CTL_sync_src d) == 3 && (r == c || (s.leadsPair c && r == c + 1)) && s.fb (F.EDG_PWM_CTL_run d)
      && !s.pairedTo d)

/-- Channel c reloads in a cycle, and with it the channels that follow it, and their followers in turn. -/
def State.reloadFrom : Nat → State → Nat → Nat → Nat → Nat → State
  | 0, s, c, start, pins, at_ => s.reloadPair c start pins at_
  | k + 1, s, c, start, pins, at_ =>
    (s.reloadPair c start pins at_).forEach (s.reloadFollowers c)
      (fun s d => State.reloadFrom k s d (s.nextPhase d) pins at_)

/-- The channels that reload when channel c does: itself, the other one of its pair, and those that follow them by ref_ch. -/
def State.reloadChain (s : State) : Nat → Nat → List Nat
  | 0, c => [c]
  | k + 1, c => c :: (if s.leadsPair c then [c + 1] else []) ++ (s.reloadFollowers c).flatMap (s.reloadChain k)

/-- The channels that a sync event of a source loads (R188). -/
def State.syncChannels (s : State) (src : Nat) : List Nat :=
  pwmChannels.filter (fun c => s.f (F.EDG_PWM_CTL_sync_src c) == src && s.fb (F.EDG_PWM_CTL_run c) && !s.pairedTo c)

/-- The reload of channel c, and of those that reload with it, lies `lag` before the present cycle (R188). -/
def State.lagChain (s : State) (c lag : Nat) : State :=
  s.forEach (s.reloadChain 16 c) (fun s d => s.modPwm d (fun x =>
    { x with lag := lag, lastEdge := x.lastEdge + ((lag : Int) - x.lag) }))

/-- How far the period tick lies behind P_n, in 50 ps units (R24, R188). -/
def State.tickLag (s : State) : Nat := (s.nowUnits - s.pN * 2 ^ 32) * 20 / 2 ^ 32

/-- A sync event loads the channels of a sync_src with phase (R188); the reload of a period tick is placed at P_n. -/
def State.syncLoad (s : State) (src : Nat) : State :=
  s.forEach (s.syncChannels src) (fun s c =>
    (s.lagChain c (if src = 1 then s.tickLag else 0)).reloadFrom 16 c (s.nextPhase c) s.fltPins s.cyc)

/-- The cycle in which a channel's counter next returns to 0; one loaded at or above per returns in the next cycle (log entry 124). -/
def State.reloadAt (s : State) (c : Nat) : Nat := (s.pwmCh c).loadAt + max 1 ((s.pwmCh c).work.per - (s.pwmCh c).counter)

/-! ### Compares (R189, R192) -/

/-- A compare instant of a channel, 50 ps units of its counter cycle. -/
def PwmSet.instant (w : PwmSet) (isOn : Bool) : Nat := if isOn then w.on else w.off

/-- A compare instant lies ahead in the present counter cycle. -/
def State.compareDue (s : State) (c : Nat) (isOn : Bool) : Bool :=
  let x := s.pwmCh c
  let t := x.work.instant isOn
  s.fb (F.EDG_PWM_CTL_run c) && !s.pairedTo c && x.work.on != x.work.off && decide (t < x.work.per * 32) && decide (x.passed ≤ t)

/-- The cycle of a compare instant, which takes up the tick lag of its reload (R188). -/
def State.compareCyc (s : State) (c : Nat) (isOn : Bool) : Nat :=
  (s.pwmCh c).loadAt + (((s.pwmCh c).work.instant isOn - (s.pwmCh c).lag) / 32 - (s.pwmCh c).counter)

/-- A compare instant of a channel (and of its pair partner) is reached; the output that closes comes first. -/
def State.compareAt (s : State) (c : Nat) (isOn : Bool) : State :=
  let w := (s.pwmCh c).work
  let n := w.per * 32
  let s := s.modPwm c (fun x => { x with wave := isOn, passed := w.instant isOn + 1 })
  let d := c + 1
  let pair := s.leadsPair c
  let s := if pair then s.modPwm d (fun x => { x with wave := !isOn, passed := w.instant isOn + 1 }) else s
  let st := s.fb (F.EDG_PWM_CTL_policy c)
  let std := s.fb (F.EDG_PWM_CTL_policy d)
  let md := (s.pwmCh d).work.minPulse
  if isOn then
    let s := if pair then (s.deactivate d w.off w.on n w.dead md std).blankEnd d else s
    s.activate c (if pair then s.afterClosing d w.on else w.on) w.off n w.dead w.minPulse st
  else
    let s := (s.deactivate c w.on w.off n w.dead w.minPulse st).blankEnd c
    if pair then s.activate d (s.afterClosing c w.off) w.on n w.dead md std else s

/-! ### Commit and hand-over (R195) -/

/-- Every set that was committed at the start of the hand-over cycle transfers, and its commit bit clears; once in that cycle. -/
def State.commitTransfer (s : State) : State :=
  if s.pwmIo.handAt = some s.cyc then s
  else
  let s := { s with pwmIo := { s.pwmIo with handAt := some s.cyc } }
  let bits := bitsOf (s.startRd R.EDG_PWM_COMMIT) 15 0
  let now := s.f F.EDG_PWM_COMMIT_commit
  (s.setF F.EDG_PWM_COMMIT_commit (now - (now &&& bits))).forEach (pwmChannels.filter (bitOf bits))
    (fun s c => s.modPwm c (fun x => { x with waiting := some (s.shadowSet c) }))

/-- A force field was written (R196). -/
def State.forceWritten (s : State) (c : Nat) : State :=
  let v := s.f (F.EDG_PWM_CTL_force c)
  let s := s.modPwm c (fun x =>
    if v = 2 then { x with force := some true, forceEnd := false }
    else if v = 3 then { x with force := some false, forceEnd := false }
    else { x with forceEnd := x.force.isSome })
  s.updateDrive

/-! ### Delay line and synchronisation pins (R191, R202, R203) -/

/-- The replica of the delay line is measured, 1 ms after the last time: in range with a tap code, or not. -/
def execDlCalibrate (inRange : Bool) (code : Fin 128) (s : State) : Host.Outcome State Fault Refusal :=
  if s.live then
    let due := max s.pwmIo.dlAt s.pwr.upCyc + cycPerMs
    let s := s.advanceCyc due
    let s := { s with pwmIo := { s.pwmIo with dlAt := due } }
    let s := s.setF F.EDG_DL_STAT_cal_count (s.f F.EDG_DL_STAT_cal_count + 1)
    if inRange then .next ((s.setF F.EDG_DL_STAT_code code).setF F.EDG_DL_STAT_cal_age 0)
    else .next ((s.setF F.EDG_DL_STAT_cal_age (satInc (s.f F.EDG_DL_STAT_cal_age) 255)).mark F.EDG_DL_STAT_range_err |>.raise .dlRange 0 0 0)
  else .next s

/-- An instant given in 50 ps units, in 2^-32 ns, rounded up. -/
def unitsOf50ps (t : Nat) : Nat := ceilDiv (t * 2 ^ 32) 20

/-- SYNC_OUT rises at P_n + sync_out_dly, once in a period. -/
def execSyncOutPulse (s : State) : Host.Outcome State Fault Refusal :=
  if s.seq.running && s.seq.started && s.pwmIo.syncOutArmed then
    let t := s.pN * 20 + s.f F.EDG_SYNC_CFG_sync_out_dly
    let s := s.advanceToU (unitsOf50ps t)
    .next { s with pwmIo := { s.pwmIo with syncOut := true, syncOutFrom := t, syncOutArmed := false } }
  else .next s

/-- SYNC_OUT falls sync_width after its rise. -/
def execSyncOutEnd (s : State) : Host.Outcome State Fault Refusal :=
  if s.pwmIo.syncOut then
    let s := s.advanceToU (unitsOf50ps (s.pwmIo.syncOutFrom + s.f F.EDG_SYNC_CFG_sync_width * 32))
    .next { s with pwmIo := { s.pwmIo with syncOut := false } }
  else .next s

/-- Offset of the present instant from the nearest boundary, of two equally near the later, in 0.8 ns units, rounded down (R203; log
entry 124). -/
def State.syncOffset (s : State) : Int :=
  let t := s.periodNs
  let x : Int := (s.stampNs : Int) - s.originNs
  let n := (2 * x + t) / (2 * t : Nat)
  let tenths := (x - n * t) * 10 + (s.stampUnits % 2 ^ 32 * 10 / 2 ^ 32 : Nat)
  tenths / 8

/-- No SYNC_IN edge has come within 1.5 T of the previous one. -/
def execSyncInTimeout (s : State) : Host.Outcome State Fault Refusal :=
  match s.pwmIo.syncInAt with
  | some u =>
    if s.live && s.fb F.EDG_SYNC_CFG_sync_in_en then
      let s := s.advanceToU (u + s.periodNs * 3 * 2 ^ 31)
      .next ({ s with pwmIo := { s.pwmIo with syncInAt := none } }.raiseOnce F.EDG_SYNC_CAP_sync_lost .syncLost 0 0 0)
    else .next s
  | none => .next s

end Sys2Proof.Machine
end

