-- ==== Sys2Proof/Machine/AdcOps.lean ====
section
/-! DEFINITION. Sequencing of the analog front end (R261 to R274): rounds, urgent requests, the gleaner's transfers, and the period
snapshot. -/

namespace Sys2Proof.Machine

def State.slice (s : State) (k : Nat) : AdcSlice := tget AdcSlice.reset s.adc.slices k
def State.modSlice (s : State) (k : Nat) (g : AdcSlice → AdcSlice) : State :=
  { s with adc := { s.adc with slices := tput AdcSlice.reset s.adc.slices k (g (s.slice k)) } }

/-- The list of a slice (R262). -/
def State.sliceList (s : State) (k : Nat) : List Nat :=
  (upto 24).filter (fun c => s.fb (F.ADC_CH_CFG_en c) && s.f (F.ADC_CH_CFG_slice c) == k)

def State.economy (s : State) : Bool := s.fb F.ADC_CFG_seq_mode

/-- Rounds restart at each period tick (R265). -/
def State.aligned (s : State) : Bool := s.fb F.ADC_CFG_align && s.seq.running

/-- The unit that makes a slice's conversions (R267). -/
def State.sliceUnit (s : State) (k : Nat) : Nat := if s.f F.ADC_STAT_stand_in = k then 4 else k

/-- A calibration of a unit, or of all of them, starts. -/
def State.calBegin (s : State) (u : Option Nat) : State := { s with adc := { s.adc with calRun := u, calAt := s.cyc } }

/-- The transfers of R267 at a round start of a slice: the gleaner takes over its list, or the slice takes it back. -/
def State.transfer (s : State) (k : Nat) : State :=
  if s.adc.calPend = some k then
    (({ s with adc := { s.adc with calPend := none } }).calBegin (some k)).setF F.ADC_STAT_stand_in k
  else if s.f F.ADC_STAT_stand_in = k ∧ s.adc.calRun ≠ some k then s.setF F.ADC_STAT_stand_in 7
  else s

/-- The first ADC_CLK edge at or after the present instant, ns: its edges stand at the even nanoseconds (log entry 102). -/
def State.adcEdge (s : State) : Nat := ceilDiv s.nowUnits (2 ^ 33) * 2

/-- The instant a conversion starts from `t`: a slice that is powered down inserts its start-up (R264). -/
def State.convStart (s : State) (k t : Nat) : Nat :=
  if s.economy && decide ((s.slice k).lastEnd + 40 < t) then t + 40 else t

/-- A conversion starts. -/
def State.startConv (s : State) (k t ch : Nat) (u : Option Nat) : State :=
  let c : Conv := { ch := ch, urgent := u, start := s.convStart k t, unit := s.sliceUnit k, stepped := 0 }
  s.modSlice k (fun x => { x with cur := some c })

/-- The first ADC_CLK edge at or after the next internal period tick (R265). -/
def State.nextRound (s : State) : Nat := (s.advanceTo (s.boundary s.seq.next)).adcEdge

/-- The slice may start a sequence conversion at `t`: its 40 ns do not include the next round start (R265). -/
def State.fitsRound (s : State) (k t : Nat) : Bool := !s.aligned || decide (s.convStart k t + 40 ≤ s.nextRound)

/-- The next sequence conversion of a round in progress. -/
def State.startSeq (s : State) (k t : Nat) : State :=
  match (s.sliceList k).filter (fun c => (s.slice k).next ≤ c) with
  | c :: _ => if s.fitsRound k t then (s.startConv k t c none).modSlice k (fun x => { x with next := c + 1 }) else s
  | [] =>
    if s.economy then s.modSlice k (fun x => { x with round := false })
    else
      let s := if s.aligned then s else s.transfer k
      match s.sliceList k with
      | [] => s
      | c :: _ => if s.fitsRound k t then (s.startConv k t c none).modSlice k (fun x => { x with next := c + 1 })
        else s.modSlice k (fun x => { x with next := 0 })

/-- An idle slice starts what is due: the oldest urgent request first, then its round. -/
def State.startNext (s : State) (k t : Nat) : State :=
  if s.adc.phase ≠ .working ∨ (s.slice k).cur.isSome then s
  else match (s.slice k).urgent with
    | u :: rest => (s.modSlice k (fun x => { x with urgent := rest })).startConv k (max t u.at_) u.ch (some u.slot)
    | [] => if (s.slice k).round then s.startSeq k t else s

/-- Idle slices go on with what is due. -/
def State.adcResume (s : State) : State := s.forEach (upto 4) (fun s k => s.startNext k s.adcEdge)

/-- A round start of a slice (R265, R267): where a conversion still runs, the round starts when it ends. -/
def State.roundStart (s : State) (k : Nat) : State :=
  if s.adc.phase = .working then
    ((s.transfer k).modSlice k (fun x => { x with next := 0, round := true })).startNext k s.adcEdge
  else s

/-- A round trigger, or a period tick with align: each slice starts its round. -/
def State.roundsStart (s : State) : State :=
  { s with adc := { s.adc with trigAt := s.cyc } }.forEach (upto 4) State.roundStart

/-- The front end at a period tick (R264, R265): with align each slice restarts its round, and in ECONOMY the tick is the trigger. -/
def State.adcPeriod (s : State) : State := if s.fb F.ADC_CFG_align || s.economy then s.roundsStart else s

/-- Rounds follow one another in each slice, without a trigger (R264). -/
def State.roundsFollow (s : State) : State :=
  (s.forEach (upto 4) (fun s k => s.modSlice k (fun x => { x with round := true }))).adcResume

/-- Sequence conversions start (R263). -/
def State.adcBegin (s : State) : State :=
  let s := { s with adc := { s.adc with phase := .working, trigAt := s.cyc } }
  if s.economy then s else s.roundsFollow

/-- ADC_CFG is written (R264, R265): CONTINUOUS needs no trigger, and with align clear no slice waits for a tick. -/
def State.adcCfgWritten (s : State) : State := if s.economy then s.adcResume else s.roundsFollow

/-- The front end is off (R263): nothing runs and results read 0. -/
def State.adcOff (s : State) : State :=
  let s := { s.setF F.ADC_STAT_stand_in 7 with adc := Adc.reset }
  let s := s.forEach (upto 24) (fun s c => (s.wr (R.ADC_RES_LO c) 0).wr (R.ADC_RES_HI c) 0)
  s.forEach (upto 4) (fun s u => (s.wr (R.ADC_URG_RES_LO u) 0).wr (R.ADC_URG_RES_HI u) 0)

/-- All five units are calibrated together on CONFIGURE entry (R263). What was in progress is gone: conversions, requests, ties and the
limits' consecutive counts (log entry 127). -/
def State.adcInitialCal (s : State) : State :=
  { s.setF F.ADC_STAT_stand_in 7 with adc := { Adc.reset with phase := .initial, calAt := s.cyc, calLast := s.cyc } }

/-! ### Urgent requests (R271, R272) -/

/-- The latest request of a slot has not started. -/
def State.urgentWaits (s : State) (u : Nat) : Bool :=
  (upto 4).any (fun k => (s.slice k).urgent.any (fun p => p.slot == u)
    || (s.slice k).cur.any (fun c => c.urgent == some u && decide (s.nowUnits < c.start * 2 ^ 32)))

/-- A request of a slot is lost (R272). -/
def State.urgentLost (s : State) (u : Nat) : State :=
  let first := s.f (F.ADC_URG_CNT_lost u) == 0
  let s := s.bumpF (F.ADC_URG_CNT_lost u) 1
  if first then s.raise .adcUrgLost u 0 0 else s

/-- The slice that a slot's requests address. -/
def State.urgentSliceOf (s : State) (u : Nat) : Nat := s.f (F.ADC_CH_CFG_slice (s.f (F.ADC_URG_CFG_ain u)))

/-- The first ADC_CLK edge at least two ADC_CLK cycles after the present instant (R271). -/
def State.urgentAt (s : State) : Nat := s.adcEdge + 4

/-- A slice with a new urgent request: a running sequence conversion that does not end in this cycle is aborted, and its channel
starts again afterwards (R271). A start-up in progress is shared. -/
def State.urgentSlice (s : State) (k : Nat) : State :=
  let x := s.slice k
  if x.urgent.isEmpty then s
  else match x.cur with
    | none => s.startNext k s.urgentAt
    | some c =>
      if c.urgent.isNone ∧ s.nowUnits + s.increment ≤ (c.start + 40) * 2 ^ 32 then
        let t := max c.start s.urgentAt
        (s.modSlice k (fun x => { x with cur := none, next := c.ch, lastEnd := max s.now.ns c.start })).startNext k t
      else s

/-- Requests for one slice made in one CORE_CLK cycle: in ascending order of their slots, or, where the last tie of the same slots was
so, in descending order (R272). -/
def State.urgentTie (s : State) (us : List Nat) (k : Nat) : State :=
  let mine := us.filter (fun u => s.urgentSliceOf u == k)
  let mask := (mine.map (fun u => 2 ^ u)).sum
  let turned := s.adc.ties.contains mask
  let s := (s.forEach (if turned then mine.reverse else mine) (fun s u => s.modSlice k (fun x =>
    { x with urgent := x.urgent ++ [{ slot := u, ch := s.f (F.ADC_URG_CFG_ain u), at_ := s.urgentAt }] })))
  let s := if mine.length < 2 then s
    else { s with adc := { s.adc with ties := if turned then s.adc.ties.erase mask else mask :: s.adc.ties } }
  s.urgentSlice k

/-- Requests of slots, with those that the present cycle has brought already, go to their slices as one tie (R272). -/
def State.urgentTogether (s : State) (us : List Nat) : State :=
  let again := s.adc.urgCyc == s.cyc && !s.adc.urgSlots.isEmpty && s.adc.urgAfter == s.adc.slices
  let all := if again then (upto 4).filter (fun u => us.contains u || s.adc.urgSlots.contains u) else us
  let s := if again then { s with adc := { s.adc with slices := s.adc.urgBefore, ties := s.adc.urgTies } } else s
  let t := s.forEach (upto 4) (fun t k => t.urgentTie all k)
  { t with adc := { t.adc with urgCyc := s.cyc, urgSlots := all, urgBefore := s.adc.slices, urgTies := s.adc.ties
                               urgAfter := t.adc.slices } }

/-- Requests of enabled slots made in one CORE_CLK cycle (R271, R272). One made before sequence conversions begin is ignored (log entry
127). -/
def State.urgentRequests (s : State) (slots : List Nat) : State :=
  if s.adc.phase ≠ .working then s
  else
    let us := (upto 4).filter (fun u => slots.contains u && s.fb (F.ADC_URG_CFG_en u))
    let t := s.forEach (us.filter s.urgentWaits) State.urgentLost
    let new := us.filter (fun u => !s.urgentWaits u)
    if new.isEmpty then t else t.urgentTogether new

/-- A PWM event requests the slots configured for it: src 1 reload, src 2 on-compare (R271). -/
def State.urgentPwm (s : State) (src ch : Nat) : State :=
  s.urgentRequests ((upto 4).filter (fun u => s.f (F.ADC_URG_CFG_src u) == src && s.f (F.ADC_URG_CFG_pwm_ch u) == ch))

/-- The urgent slots configured for a reload of one of the channels. -/
def State.urgentReload (s : State) (chs : List Nat) : State :=
  s.urgentRequests ((upto 4).filter (fun u => s.f (F.ADC_URG_CFG_src u) == 1 && chs.contains (s.f (F.ADC_URG_CFG_pwm_ch u))))

/-- A sync event of a source loads its channels, which counts as a reload of each. -/
def State.syncEvent (s : State) (src : Nat) : State :=
  (s.syncLoad src).urgentReload ((s.syncChannels src).flatMap (s.reloadChain 16))

/-- The counter of a channel starts to run from 0 with the write that sets run (R188), which is a reload. With run written 0 the counter
stops, and waveform and output stay as they are (log entry 124). -/
def State.runWritten (s : State) (c old : Nat) : State :=
  if s.fb (F.EDG_PWM_CTL_run c) && !bitOf old 0 && !s.pairedTo c then
    ((s.lagChain c 0).reloadFrom 16 c 0 s.fltPins s.cyc).urgentReload (s.reloadChain 16 c)
  else s

/-! ### Results (R269, R273, R276, R197) -/

/-- Flags and code of a result word (ADC_RES_LO). -/
def resWord (code : Nat) (ovr settle urgent : Bool) (unit : Nat) : Nat :=
  code + b2n ovr * 2 ^ 16 + b2n settle * 2 ^ 17 + b2n urgent * 2 ^ 18 + unit * 2 ^ 20

/-- A limit's test of one code (R276): its next active state and consecutive count. -/
def limitStep (active below : Bool) (thr hyst : Int) (count run : Nat) (code : Int) : Bool × Nat :=
  let beyond := if below then decide (code < thr) else decide (code > thr)
  let within := if below then decide (code ≥ thr + hyst * 16) else decide (code ≤ thr - hyst * 16)
  let toward := if active then within else beyond
  let away := if active then beyond else within
  let run := if toward then run + 1 else if away then 0 else run
  if toward ∧ run ≥ count then (!active, 0) else (active, run)

/-- The field of ADC_LIM_ACT and of ADC_LIM_HIT of limit k. -/
def limAct (k : Nat) : Fld := if k = 0 then F.ADC_LIM_ACT0_act else F.ADC_LIM_ACT1_act
def limHit (k : Nat) : Fld := if k = 0 then F.ADC_LIM_HIT0_hit else F.ADC_LIM_HIT1_hit

/-- One limit sees a conversion of its channel (R276, R277): the state, and whether the limit became active. -/
def State.limitSees (s : State) (c k : Nat) (code : Int) : State × Bool :=
  if !s.fb (F.ADC_LIM_en c k) then (s, false)
  else
    let act := s.f (limAct k)
    let active := bitOf act c
    let r := limitStep active (s.fb (F.ADC_LIM_dir c k)) (sx 16 (s.f (F.ADC_LIM_thr c k))) (s.f (F.ADC_LIM_hyst c k))
      (s.f (F.ADC_LIM_count c k)) (tget 0 s.adc.limits (2 * c + k)) code
    let s := { s with adc := { s.adc with limits := tput 0 s.adc.limits (2 * c + k) r.2 } }
    if r.1 == active then (s, false)
    else
      let s := s.setF (limAct k) (setBits act c c (b2n r.1))
      if r.1 then
        ((s.orF (limHit k) (2 ^ c)).raise .adcLimit (2 * c + k) 0 (twos 16 code), true)
      else (s, false)

/-- A zero-crossing detector sees a code of its channel (R197). -/
def State.zeroSees (s : State) (z c : Nat) (code : Int) : State :=
  if s.f (F.EDG_ZC_ain z) ≠ c then s
  else
    let h : Int := s.f (F.EDG_ZC_zc_hyst z) * 16
    let sign := if code > h then 1 else if code < -h then 2 else 0
    let last := s.pwmIo.zcSign.getD z 0
    if sign = 0 ∨ sign = last then s
    else
      let s := { s with pwmIo := { s.pwmIo with zcSign := lset s.pwmIo.zcSign z sign } }
      if last = 0 then s else s.startMask z

/-- The over-range bit of a channel is set, and reported once until it is cleared (R273). -/
def State.overRange (s : State) (c : Nat) : State :=
  let v := s.f F.ADC_OVR_ovr
  if bitOf v c then s.orF F.ADC_OVR_ovr (2 ^ c) else (s.orF F.ADC_OVR_ovr (2 ^ c)).raise .adcOvr c 0 0

/-! ### Period snapshot (R274, R275) -/

/-- The entry of a channel for P_n. -/
def State.snapEntry (s : State) (c pn : Nat) : Nat :=
  match tget none s.adc.latest c with
  | none => 2 ^ 19
  | some r =>
    if !s.fb (F.ADC_CH_CFG_en c) then 2 ^ 19
    else
      let prior := decide (r.sample < pn)
      let ts := (if prior then pn - r.sample else r.sample - pn) / 2
      r.word % 2 ^ 18 + b2n prior * 2 ^ 18 + bitsOf r.word 22 20 * 2 ^ 20 + min 255 ts * 2 ^ 24

/-- The snapshot is taken. -/
def State.takeSnapshot (s : State) : State :=
  let es := (upto 24).map (fun c => s.snapEntry c s.pN)
  let flags := b2n (es.any (fun e => bitOf e 18)) + b2n (es.any (fun e => bitOf e 16)) * 2
    + b2n (decide (s.f F.ADC_STAT_stand_in < 4)) * 4
  { s with adc := { s.adc with snap := es, snapFlags := flags, snapPeriod := s.periodFull,
                               snapDue := true } }

/-- The 128 bytes of a snapshot record. -/
def State.snapRecord (s : State) : List Byte :=
  leBytes 2 s.adc.snapPeriod ++ leBytes 1 s.adc.snapFlags ++ leBytes 5 0 ++ leBytes 8 (timeWord (s.boundary s.adc.snapPeriod))
    ++ ((upto 24).flatMap (fun c => leBytes 4 (s.adc.snap.getD c (2 ^ 19)))) ++ leBytes 16 0

/-- Where the record of period n lies (R274). -/
def State.snapAddr (s : State) (n : Nat) : Nat := s.f F.ADC_SNAP_BASE_base * 2 ^ 8 + n % 2 * 0x80

end Sys2Proof.Machine
end

