-- ==== Sys2Proof/Machine/Operands.lean ====
section
/-! DEFINITION. The operand forms of the engine instructions: the 32-bit words of R213 to R217 as instructions, and the legality
rules of R213. Fields that a format names and an instruction does not use are ignored (log entry 20). -/

namespace Sys2Proof.Machine

/-- The operand of a format M instruction (R214, R215): address register, mode, signed offset in bytes. -/
structure MemArg where
  xp : Fin 8
  mode : Nat
  off : Int
deriving DecidableEq, Repr

/-- A field engine's instruction (R215). -/
inductive EngInstr where
  | nop
  | mul (a : Fin 4) (ds dt : Fin 16) (s : Bool)
  | mac (a : Fin 4) (ds dt : Fin 16) (s : Bool)
  | msu (a : Fin 4) (ds dt : Fin 16) (s : Bool)
  | mac2 (a : Fin 4) (ds dt : Fin 16) (b : Fin 4) (du dv : Fin 16) (s : Bool)
  | macd (ap : Bool) (xp xq : Fin 8) (s : Bool)
  | adda (a b : Fin 4) (s : Bool)
  | suba (a b : Fin 4) (s : Bool)
  | sha (a : Fin 4) (sh : Int) (s : Bool)
  | absa (a : Fin 4) (s : Bool)
  | nega (a : Fin 4) (s : Bool)
  | lda (a : Fin 4) (ds : Fin 16)
  | rnd (dd : Fin 16) (a : Fin 4)
  | ext (dd : Fin 16) (a : Fin 4) (sh : Nat)
  | clampa (a : Fin 4) (dlo dhi : Fin 16)
  | clamp (dd ds dlo dhi : Fin 16)
  | add (dd ds dt : Fin 16) (s : Bool)
  | sub (dd ds dt : Fin 16) (s : Bool)
  | band (dd ds dt : Fin 16)
  | bor (dd ds dt : Fin 16)
  | bxor (dd ds dt : Fin 16)
  | bandn (dd ds dt : Fin 16)
  | shl (dd ds : Fin 16) (sh : Nat)
  | shr (dd ds : Fin 16) (sh : Nat)
  | sar (dd ds : Fin 16) (sh : Nat)
  | cmp (ds dt : Fin 16) (u : Bool)
  | mov (dd ds : Fin 16)
  | movi (dd : Fin 16) (imm : Nat)
  | sincos (dd ds dt : Fin 16)
  | tbl (dd ds : Fin 16) (t : Nat)
  | xli (x : Fin 8) (imm : Nat)
  | xlh (x : Fin 8) (imm : Nat)
  | xadd (x : Fin 8) (imm : Int)
  | xaddd (x : Fin 8) (ds : Fin 16) (sc : Nat)
  | ld (d : Fin 16) (m : MemArg)
  | st (d : Fin 16) (m : MemArg)
  | ldac (a : Fin 4) (m : MemArg)
  | stac (a : Fin 4) (m : MemArg)
  | ldg (d : Fin 16) (m : MemArg)
  | stg (d : Fin 16) (m : MemArg)
  | br (cond : Nat) (off : Int)
  | jmp (target : BitVec 14)
  | call (target : BitVec 14)
  | ret
  | loop (n : Bool) (r : Bool) (ds : Fin 16) (count len : Nat)
  | yield
  | wait (evt : Nat)
  | sig (evt : Nat)
  | send (unit : Nat) (xp : Fin 8)
  | dmak (ch : Nat)
  | mvs (d : Fin 16) (spec : Nat)
  | msv (d : Fin 16) (spec : Nat)
  | inj (dd : Fin 16) (node : Nat)
  | cap (ds : Fin 16) (ch : Nat)
  | trap (code : Nat)
  | trapFault (code : Nat)
deriving DecidableEq, Repr

/-! ### Fields (R214) -/

/-- A 4-bit field that names a data register. -/
def dField (w lo : Nat) : Fin 16 := Fin.ofNat 16 (w / 2 ^ lo)

/-- A 3-bit field that names an address register. -/
def xField (w lo : Nat) : Fin 8 := Fin.ofNat 8 (w / 2 ^ lo)

/-- A 2-bit field that names an accumulator. -/
def aField (w lo : Nat) : Fin 4 := Fin.ofNat 4 (w / 2 ^ lo)

/-- An instruction that is legal under a condition. -/
def legal (c : Bool) (i : EngInstr) : Option EngInstr := if c then some i else none

/-- Bits [hi:lo] are 0. -/
def zeros (w hi lo : Nat) : Bool := bitsOf w hi lo == 0

/-- The operand of format M: bit 16 is 0, mode 0b11 is illegal, and mode 0b10 takes X6 or X7 only (R215). -/
def memArg (w : Nat) : Option MemArg :=
  let mode := bitsOf w 18 17
  let xp := xField w 19
  if zeros w 16 16 && mode != 3 && (mode != 2 || decide (6 ≤ xp.val)) then
    some { xp := xp, mode := mode, off := sx 16 w }
  else none

/-- Format A. -/
def fmtA (w : Nat) (k : Fin 4 → Fin 16 → Fin 16 → Bool → EngInstr) : Option EngInstr :=
  legal (zeros w 14 0) (k (aField w 24) (dField w 20) (dField w 16) (bitOf w 15))

/-- Format AA. -/
def fmtAA (w : Nat) (k : Fin 4 → Fin 4 → Int → Bool → EngInstr) : Option EngInstr :=
  legal (zeros w 14 0) (k (aField w 24) (aField w 22) (sx 6 (w / 2 ^ 16)) (bitOf w 15))

/-- Format AX. -/
def fmtAX (w : Nat) (k : Fin 4 → Fin 16 → Fin 16 → Nat → EngInstr) : Option EngInstr :=
  legal (zeros w 15 5) (k (aField w 24) (dField w 20) (dField w 16) (bitsOf w 4 0))

/-- Format D. -/
def fmtD (w : Nat) (k : Fin 16 → Fin 16 → Fin 16 → Fin 16 → Bool → EngInstr) : Option EngInstr :=
  legal (zeros w 7 4) (k (dField w 22) (dField w 18) (dField w 14) (dField w 10) (bitOf w 9))

/-- Format I with a data register. -/
def fmtID (w : Nat) (k : Fin 16 → Nat → EngInstr) : Option EngInstr :=
  legal (zeros w 21 16) (k (dField w 22) (bitsOf w 15 0))

/-- Format I with an address register. -/
def fmtIX (w : Nat) (k : Fin 8 → Nat → EngInstr) : Option EngInstr :=
  legal (zeros w 22 16) (k (xField w 23) (bitsOf w 15 0))

/-- Format M with a data register. -/
def fmtMD (w : Nat) (k : Fin 16 → MemArg → EngInstr) : Option EngInstr := (memArg w).map (k (dField w 22))

/-- Format M with an accumulator. -/
def fmtMA (w : Nat) (k : Fin 4 → MemArg → EngInstr) : Option EngInstr :=
  if zeros w 23 22 then (memArg w).map (k (aField w 24)) else none

/-- The special registers MVS may read and MSV may write (R217). -/
def specReadable (spec : Nat) : Bool := decide (spec ≤ 0x1D)
def specWritable (spec : Nat) : Bool := spec == 0 || (decide (8 ≤ spec) && decide (spec ≤ 0x1B))

/-- Opcodes 0x00 to 0x0E. -/
def decodeAcc (op w : Nat) : Option EngInstr :=
  if op = 0x00 then legal (zeros w 25 0) .nop
  else if op = 0x01 then fmtA w .mul
  else if op = 0x02 then fmtA w .mac
  else if op = 0x03 then fmtA w .msu
  else if op = 0x04 then
    legal (zeros w 4 0 && aField w 24 != aField w 13)
      (.mac2 (aField w 24) (dField w 20) (dField w 16) (aField w 13) (dField w 9) (dField w 5) (bitOf w 15))
  else if op = 0x05 then
    legal (zeros w 24 24 && zeros w 17 16 && zeros w 14 0 && xField w 21 != xField w 18)
      (.macd (bitOf w 25) (xField w 21) (xField w 18) (bitOf w 15))
  else if op = 0x06 then fmtAA w (fun a b _ s => .adda a b s)
  else if op = 0x07 then fmtAA w (fun a b _ s => .suba a b s)
  else if op = 0x08 then fmtAA w (fun a _ sh s => .sha a sh s)
  else if op = 0x09 then fmtAA w (fun a _ _ s => .absa a s)
  else if op = 0x0A then fmtAA w (fun a _ _ s => .nega a s)
  else if op = 0x0B then fmtAX w (fun a d _ _ => .lda a d)
  else if op = 0x0C then fmtAX w (fun a d _ _ => .rnd d a)
  else if op = 0x0D then if bitsOf w 4 0 ≤ 24 then fmtAX w (fun a d _ sh => .ext d a sh) else none
  else fmtAX w (fun a d dhi _ => .clampa a d dhi)

/-- Opcodes 0x0F to 0x1C. -/
def decodeData (op w : Nat) : Option EngInstr :=
  let fn := bitsOf w 3 0
  let sh := bitsOf w 17 14
  if op = 0x0F then fmtD w (fun dd ds lo hi _ => .clamp dd ds lo hi)
  else if op = 0x10 then fmtD w (fun dd ds dt _ s => .add dd ds dt s)
  else if op = 0x11 then fmtD w (fun dd ds dt _ s => .sub dd ds dt s)
  else if op = 0x12 then
    if fn = 0 then fmtD w (fun dd ds dt _ _ => .band dd ds dt)
    else if fn = 1 then fmtD w (fun dd ds dt _ _ => .bor dd ds dt)
    else if fn = 2 then fmtD w (fun dd ds dt _ _ => .bxor dd ds dt)
    else if fn = 3 then fmtD w (fun dd ds dt _ _ => .bandn dd ds dt)
    else none
  else if op = 0x13 then
    if fn = 0 then fmtD w (fun dd ds _ _ _ => .shl dd ds sh)
    else if fn = 1 then fmtD w (fun dd ds _ _ _ => .shr dd ds sh)
    else if fn = 2 then fmtD w (fun dd ds _ _ _ => .sar dd ds sh)
    else none
  else if op = 0x14 then fmtD w (fun _ ds dt _ _ => .cmp ds dt (bitOf w 8))
  else if op = 0x15 then fmtD w (fun dd ds _ _ _ => .mov dd ds)
  else if op = 0x16 then fmtID w .movi
  else if op = 0x17 then
    if dField w 22 = dField w 18 then none else fmtD w (fun dd ds dt _ _ => .sincos dd ds dt)
  else if op = 0x18 then if fn ≤ 3 then fmtD w (fun dd ds _ _ _ => .tbl dd ds fn) else none
  else if op = 0x19 then fmtIX w .xli
  else if op = 0x1A then if zeros w 15 10 then fmtIX w .xlh else none
  else if op = 0x1B then fmtIX w (fun x imm => .xadd x (sx 16 imm))
  else legal (zeros w 22 22 && zeros w 15 0) (.xaddd (xField w 23) (dField w 18) (bitsOf w 17 16))

/-- Opcodes 0x1D to 0x26. -/
def decodeFlow (op w : Nat) : Option EngInstr :=
  if op = 0x1D then fmtMD w .ld
  else if op = 0x1E then fmtMD w .st
  else if op = 0x1F then fmtMA w .ldac
  else if op = 0x20 then fmtMA w .stac
  else if op = 0x21 then fmtMD w .ldg
  else if op = 0x22 then fmtMD w .stg
  else if op = 0x23 then legal (zeros w 21 16 && decide (bitsOf w 25 22 ≤ 11)) (.br (bitsOf w 25 22) (sx 16 w))
  else if op = 0x24 then
    legal (zeros w 24 14) (if bitOf w 25 then .call (BitVec.ofNat 14 w) else .jmp (BitVec.ofNat 14 w))
  else if op = 0x25 then legal (zeros w 25 0) .ret
  else legal (!zeros w 7 0) (.loop (bitOf w 25) (bitOf w 24) (dField w 20) (bitsOf w 19 8) (bitsOf w 7 0))

/-- Opcodes 0x27 to 0x2F. -/
def decodeSystem (op w : Nat) : Option EngInstr :=
  let fn := bitsOf w 3 0
  if op = 0x27 then legal (zeros w 25 0) .yield
  else if op = 0x28 then legal (zeros w 25 8) (.wait (bitsOf w 7 0))
  else if op = 0x29 then legal (zeros w 25 8 && decide (0x20 ≤ bitsOf w 7 0)) (.sig (bitsOf w 7 0))
  else if op = 0x2A then legal (zeros w 20 0 && decide (bitsOf w 25 24 ≤ 1)) (.send (bitsOf w 25 24) (xField w 21))
  else if op = 0x2B then legal (zeros w 25 4) (.dmak fn)
  else if op = 0x2C then
    let spec := bitsOf w 5 0
    if bitOf w 25 then legal (zeros w 24 24 && zeros w 19 6 && specWritable spec) (.msv (dField w 20) spec)
    else legal (zeros w 24 24 && zeros w 19 6 && specReadable spec) (.mvs (dField w 20) spec)
  else if op = 0x2D then fmtD w (fun dd _ _ _ _ => .inj dd fn)
  else if op = 0x2E then if fn ≤ 3 then fmtD w (fun _ ds _ _ _ => .cap ds fn) else none
  else legal (zeros w 24 16) (if bitOf w 25 then .trapFault (bitsOf w 15 0) else .trap (bitsOf w 15 0))

/-- The instruction a program-memory word spells; none where it is illegal by R213, R215, R216, R217 or R243. -/
def engDecode (w : Nat) : Option EngInstr :=
  let op := bitsOf w 31 26
  if op ≤ 0x0E then decodeAcc op w
  else if op ≤ 0x1C then decodeData op w
  else if op ≤ 0x26 then decodeFlow op w
  else if op ≤ 0x2F then decodeSystem op w
  else none

end Sys2Proof.Machine
end

