-- ==== Sys2Proof/Machine/Flags.lean ====
section
/-! DEFINITION. The arithmetic of the engines on a task context: registers, the two accumulator limits of R210, the saturation of
R211, every flag of R212, addressing (R215), conditions (R216), special registers (R217), the call stack and the loops
(R218, R219). -/

namespace Sys2Proof.Machine

/-- A context after an instruction, and whether the instruction set SAT or AOV (ENG_ARITH). -/
structure Alu where
  ctx : EngCtx
  sat : Bool
  aov : Bool
deriving DecidableEq, Repr

def EngCtx.alu (c : EngCtx) : Alu := { ctx := c, sat := false, aov := false }

/-! ### Registers -/

def EngCtx.dU (c : EngCtx) (r : Fin 16) : Nat := (c.d.get r).toNat
def EngCtx.dS (c : EngCtx) (r : Fin 16) : Int := (c.d.get r).toInt
def EngCtx.aS (c : EngCtx) (r : Fin 4) : Int := (c.a.get r).toInt
def EngCtx.xU (c : EngCtx) (r : Fin 8) : Nat := (c.x.get r).toNat

/-- A data register takes an integer, wrapping. -/
def EngCtx.setD (c : EngCtx) (r : Fin 16) (v : Int) : EngCtx := { c with d := c.d.set r (BitVec.ofInt 16 v) }
def EngCtx.setX (c : EngCtx) (r : Fin 8) (v : Int) : EngCtx := { c with x := c.x.set r (BitVec.ofInt 26 v) }
def EngCtx.putA (c : EngCtx) (r : Fin 4) (v : Int) : EngCtx := { c with a := c.a.set r (BitVec.ofInt 40 v) }

/-- Z and N from an integer (R212). -/
def EngCtx.zn (c : EngCtx) (v : Int) : EngCtx := { c with fl := { c.fl with z := decide (v = 0), n := decide (v < 0) } }

/-- A data register takes an integer, wrapping, and Z and N follow the written value. -/
def EngCtx.setDzn (c : EngCtx) (r : Fin 16) (v : Int) : EngCtx :=
  let c := c.setD r v
  c.zn (c.dS r)

/-- SAT is set where it is due; it is sticky (R210). -/
def EngCtx.stickSat (c : EngCtx) (b : Bool) : EngCtx := { c with fl := { c.fl with sat := c.fl.sat || b } }
def EngCtx.stickAov (c : EngCtx) (b : Bool) : EngCtx := { c with fl := { c.fl with aov := c.fl.aov || b } }

/-! ### Accumulators (R209, R210) -/

/-- p(x, y) (R209). -/
def prod (x y : Int) : Int := x * y * 2

/-- An accumulator takes an exact result through the two limits of R210. -/
def Alu.setAcc (u : Alu) (r : Fin 4) (v : Int) (s : Bool) : Alu :=
  let v1 := iclamp v (-(2 ^ 39)) (2 ^ 39 - 1)
  let v2 := if s then iclamp v1 (-(2 ^ 31)) (2 ^ 31 - 1) else v1
  let aov := decide (v ≠ v1)
  let sat := decide (v1 ≠ v2)
  { ctx := ((u.ctx.putA r v2).stickSat sat).stickAov aov, sat := u.sat || sat, aov := u.aov || aov }

/-- As `setAcc`, and Z and N follow the 40-bit result (R212). -/
def Alu.setAccZn (u : Alu) (r : Fin 4) (v : Int) (s : Bool) : Alu :=
  let u := u.setAcc r v s
  { u with ctx := u.ctx.zn (u.ctx.aS r) }

/-- sat16 (R211): the limited value, and whether it was limited. -/
def sat16 (v : Int) : Int × Bool :=
  let r := iclamp v (-32768) 32767
  (r, decide (r ≠ v))

/-- A data register takes sat16 of a value; SAT when it was limited. -/
def EngCtx.setSat16 (c : EngCtx) (r : Fin 16) (v : Int) : Alu :=
  let p := sat16 v
  { ctx := (c.setD r p.1).stickSat p.2, sat := p.2, aov := false }

/-- As `setSat16`, and Z and N follow the written register. -/
def EngCtx.setSat16Zn (c : EngCtx) (r : Fin 16) (v : Int) : Alu :=
  let u := c.setSat16 r v
  { u with ctx := u.ctx.zn (u.ctx.dS r) }

/-- x × 2^sh, floor for a negative sh (R211). -/
def shiftInt (x sh : Int) : Int := if 0 ≤ sh then x * 2 ^ sh.toNat else x / 2 ^ (-sh).toNat

/-! ### 16-bit arithmetic (R212) -/

def EngCtx.setCV (c : EngCtx) (cy v : Bool) : EngCtx := { c with fl := { c.fl with c := cy, v := v } }

/-- ADD and SUB: the exact result, its carry, saturation by s (R212). -/
def EngCtx.addSub (c : EngCtx) (dd : Fin 16) (exact : Int) (cy s : Bool) : Alu :=
  let ovr := decide (exact < -32768) || decide (exact > 32767)
  let v := if s then (sat16 exact).1 else exact
  { ctx := ((c.setDzn dd v).setCV cy ovr).stickSat (s && ovr), sat := s && ovr, aov := false }

/-- CMP: flags from Ds − Dt; u selects the unsigned reading for C (log entry 21). -/
def EngCtx.compare (c : EngCtx) (ds dt : Fin 16) (u : Bool) : EngCtx :=
  let exact := c.dS ds - c.dS dt
  let ovr := decide (exact < -32768) || decide (exact > 32767)
  let cy := if u then decide (c.dU dt ≤ c.dU ds) else decide (c.dS dt ≤ c.dS ds)
  (c.zn (BitVec.ofInt 16 exact).toInt).setCV cy ovr

/-! ### Addressing (R215) -/

/-- Base and length of the circular buffer of X6 or X7. -/
def EngCtx.circ (c : EngCtx) (x : Fin 8) : Nat × Nat :=
  if x.val = 6 then (c.cb6.toNat, c.cl6.toNat) else (c.cb7.toNat, c.cl7.toNat)

/-- The address a format M instruction uses and the value its address register takes; none where CL = 0 makes it illegal. -/
def EngCtx.memAddr (c : EngCtx) (m : MemArg) : Option (Nat × BitVec 26) :=
  let x := c.xU m.xp
  if m.mode = 0 then some ((BitVec.ofInt 26 ((x : Int) + m.off)).toNat, c.x.get m.xp)
  else if m.mode = 1 then some (x, BitVec.ofInt 26 ((x : Int) + m.off))
  else
    let cb := c.circ m.xp
    if cb.2 = 0 then none
    else some (x, BitVec.ofInt 26 ((cb.1 : Int) + ((x : Int) - (cb.1 : Int) + m.off) % (cb.2 : Int)))

/-! ### Conditions (R216) -/

def EngFlags.cond (f : EngFlags) (k : Nat) : Bool :=
  if k = 0 then true
  else if k = 1 then f.z
  else if k = 2 then !f.z
  else if k = 3 then f.n != f.v
  else if k = 4 then f.n == f.v
  else if k = 5 then f.z || f.n != f.v
  else if k = 6 then !f.z && f.n == f.v
  else if k = 7 then !f.c
  else if k = 8 then f.c
  else if k = 9 then f.n
  else if k = 10 then !f.n
  else f.sat

/-! ### FLAGS as a word (R217) -/

def EngFlags.word (f : EngFlags) : Nat :=
  b2n f.z + b2n f.n * 2 + b2n f.c * 4 + b2n f.v * 8 + b2n f.sat * 16 + b2n f.aov * 32

def flagsOf (w : Nat) : EngFlags :=
  { z := bitOf w 0, n := bitOf w 1, c := bitOf w 2, v := bitOf w 3, sat := bitOf w 4, aov := bitOf w 5 }

/-- MSV (R217): the special register `spec` takes D. -/
def EngCtx.setSpec (c : EngCtx) (spec v : Nat) : EngCtx :=
  if spec = 0 then { c with fl := flagsOf v }
  else if spec = 0x18 then { c with cb6 := BitVec.ofNat 15 v }
  else if spec = 0x19 then { c with cl6 := BitVec.ofNat 15 v }
  else if spec = 0x1A then { c with cb7 := BitVec.ofNat 15 v }
  else if spec = 0x1B then { c with cl7 := BitVec.ofNat 15 v }
  else
    let r := Fin.ofNat 8 spec
    let x := c.xU r
    c.setX r (if spec < 0x10 then (x / 2 ^ 16 * 2 ^ 16 + v : Nat) else (x % 2 ^ 16 + v % 2 ^ 10 * 2 ^ 16 : Nat))

/-! ### Loops (R219) -/

/-- The address lies in the body of a loop. -/
def Loop.holds (l : Loop) (t : BitVec 14) : Bool := decide ((t - l.start).toNat ≤ (l.stop - l.start).toNat)

/-- The loop test at its end: the loop after it, and whether execution returns to its start. -/
def Loop.test (l : Loop) : Loop × Bool :=
  if l.count ≤ 1 then (Loop.off, false) else ({ l with count := l.count - 1 }, true)

/-- Loop LCn of a context, and the context with another. -/
def EngCtx.lc (c : EngCtx) (n : Bool) : Loop := if n then c.lc1 else c.lc0
def EngCtx.setLc (c : EngCtx) (n : Bool) (l : Loop) : EngCtx := if n then { c with lc1 := l } else { c with lc0 := l }

/-- The next pc after an instruction at which no branch is taken: the loop set up more recently is tested first, the other at the
same instruction when the first ends (R219); `next` follows where no loop returns. -/
def EngCtx.advance (c : EngCtx) (next : BitVec 14) : EngCtx :=
  let one (c : EngCtx) (n : Bool) : EngCtx × Option (BitVec 14) :=
    let l := c.lc n
    if l.active && l.stop == c.pc then
      let r := l.test
      (c.setLc n r.1, if r.2 then some l.start else none)
    else (c, none)
  let r1 := one c c.lc1Later
  match r1.2 with
  | some t => { r1.1 with pc := t }
  | none =>
    let r2 := one r1.1 (!c.lc1Later)
    { r2.1 with pc := r2.2.getD next }

/-- The context after an instruction that falls through. -/
def EngCtx.fall (c : EngCtx) : EngCtx := c.advance (c.pc + 1)

/-- A taken BR or JMP ends every active loop whose body does not hold the target (R219). -/
def EngCtx.branch (c : EngCtx) (t : BitVec 14) : EngCtx :=
  let leave (l : Loop) : Loop := if l.active && !l.holds t then Loop.off else l
  { c with lc0 := leave c.lc0, lc1 := leave c.lc1, pc := t }

/-- LOOP on a counter that is not active (R219). -/
def EngCtx.loopSet (c : EngCtx) (n : Bool) (count len : Nat) : EngCtx :=
  let start := c.pc + 1
  let stop := c.pc + BitVec.ofNat 14 len
  if count = 0 then c.advance (stop + 1)
  else
    let c1 := c.fall
    { c1.setLc n { active := true, count := count, start := start, stop := stop } with lc1Later := n }

end Sys2Proof.Machine
end

