-- ==== Sys2Proof/Machine/Sched.lean ====
section
/-! DEFINITION. The engines' memories and the Hardware Task Scheduler (R204 to R260): releases, ready lists, slots, overruns, saved
contexts, traces and statistics. The state of a task is SCH_TC_STAT.state, that of an engine ENG_STAT.state. -/

namespace Sys2Proof.Machine

/-! ### Typed access -/

def State.eng (s : State) (e : Nat) : Engine := tget Engine.reset s.engines e
def State.modEng (s : State) (e : Nat) (g : Engine → Engine) : State :=
  { s with engines := tput Engine.reset s.engines e (g (s.eng e)) }

def State.task (s : State) (tc : Nat) : Task := tget Task.reset s.tasks tc
def State.modTask (s : State) (tc : Nat) (g : Task → Task) : State :=
  { s with tasks := tput Task.reset s.tasks tc (g (s.task tc)) }

/-! ### Engine states (ENG_STAT.state) and task states (SCH_TC_STAT.state) -/

def engHalted : Nat := 0
def engIdle : Nat := 1
def engDispatch : Nat := 2
def engRunning : Nat := 3
def engFaulted : Nat := 4

def tcDisabled : Nat := 0
def tcDormant : Nat := 1
def tcDelayed : Nat := 2
def tcReady : Nat := 3
def tcRunning : Nat := 4
def tcWaiting : Nat := 5
def tcStopped : Nat := 6

def State.engState (s : State) (e : Nat) : Nat := s.f (F.ENG_STAT_state e)
def State.tcState (s : State) (tc : Nat) : Nat := s.f (F.SCH_TC_STAT_state tc)
def State.setTcState (s : State) (tc v : Nat) : State := s.setF (F.SCH_TC_STAT_state tc) v

/-- The engine of a context (R239), and its contexts. -/
def engOf (tc : Nat) : Nat := tc / 16
def tcsOf (e : Nat) : List Nat := (upto 16).map (fun i => e * 16 + i)
def allEngines : List Nat := upto 12
def allTasks : List Nat := upto 192

/-- An engine takes a state from cycle `c` on, and its busy time follows (R260). -/
def State.setEngState (s : State) (e v c : Nat) : State :=
  let busy := v == engDispatch || v == engRunning
  let s := s.modEng e (fun x =>
    match x.busyFrom, busy with
    | none, true => { x with busyFrom := some c }
    | some t, false => { x with busyFrom := none, busyAcc := x.busyAcc + (c - t) }
    | _, _ => x)
  s.setF (F.ENG_STAT_state e) v

/-- The task context on an engine; none where none is dispatched. -/
def State.engTc (s : State) (e : Nat) : Option Nat :=
  let t := s.f (F.ENG_TASK_tc e)
  if t = 0xFF then none else some t

/-! ### Engine memories (R204, R206, R231) -/

/-- Bytes of data memory per engine. -/
def dmSize : Nat := 32768

def State.pmWord (s : State) (e pc : Nat) : Nat := (tget 0 s.pm (e * 16384 + pc % 16384)).toNat
def State.pmPut (s : State) (e pc v : Nat) : State :=
  { s with pm := tput 0 s.pm (e * 16384 + pc % 16384) (BitVec.ofNat 32 v) }

def State.dmBytes (s : State) (e a : Nat) : Nat → List Byte
  | 0 => []
  | n + 1 => tget 0 s.dm (e * dmSize + a % dmSize) :: s.dmBytes e (a + 1) n

def State.dmRead (s : State) (e a n : Nat) : Nat := leNat (s.dmBytes e a n)

/-- Corrected errors of a read of data memory are counted (R224). -/
def State.dmCorrected (s : State) (e : Nat) (eccs : List Ecc) : State :=
  let n := eccs.countP Ecc.isSingle
  if n = 0 then s else s.bumpF (F.ENG_ECC_dm_corr e) n

/-- Bytes go into an engine's data memory. -/
def State.dmPut (s : State) (e a : Nat) (bs : List Byte) : State := { s with dm := putBytes s.dm (e * dmSize + a) bs }

/-- The external writes of the present cycle to the data memories. -/
def State.dmExtNow (s : State) : List (Nat × Nat × List Byte) := s.dmExt.filter (fun x => x.1 == s.cyc)

/-- An engine's store to data memory; the external writes of the same cycle stand over it (R222). -/
def State.dmStore (s : State) (e a : Nat) (bs : List Byte) : State :=
  s.dmExtNow.foldl (fun s x => s.dmPut 0 x.2.1 x.2.2) (s.dmPut e a bs)

/-- An engine has read what another write of this cycle may still change. -/
def State.noteRead (s : State) (e : Nat) (addr : Option Nat) (dest : ReadDest) : State :=
  let x : CycRead := { cyc := s.cyc, eng := e, addr := addr, dest := dest, ctx := (s.eng e).ctx }
  { s with engReads := s.engReads.filter (fun y => y.cyc == s.cyc) ++ [x] }

/-- The bytes of data memory that a read took. -/
def CycRead.span (x : CycRead) : Nat :=
  match x.dest with
  | .d _ => 2
  | .a _ => 8

/-- The context after a read that returns what stands now. -/
def State.ctxAgain (s : State) (x : CycRead) : EngCtx :=
  let v := match x.addr with
    | some a => s.dmRead x.eng a x.span
    | none => s.f (F.ENG_COEF_GEN_gen x.eng)
  match x.dest with
  | .d r => x.ctx.setD r (v : Int)
  | .a r => x.ctx.putA r (v : Int)

/-- A write of the present cycle reaches the reads of an engine that `hit` picks: they return the new value (R222, R233). -/
def State.reread (s : State) (e : Nat) (hit : CycRead → Bool) : State :=
  let go := fun (x : CycRead) => x.cyc == s.cyc && x.eng == e && hit x && x.ctx == (s.eng e).ctx
  match s.engReads.find? go with
  | none => s
  | some x =>
    let c := s.ctxAgain x
    { s with engReads := s.engReads.map (fun y => if go y then { y with ctx := c } else y) }.modEng e (fun y => { y with ctx := c })

/-- MVS of GEN in this cycle returns the new generation (R233). -/
def State.rereadGen (s : State) (e : Nat) : State := s.reread e (fun x => x.addr.isNone)

/-- An external write to data memory, with the coefficient window of R233: one in the cycle of close counts as made before it. -/
def State.dmExtern (s : State) (e a : Nat) (bs : List Byte) : State :=
  let s := { s.dmPut e a bs with dmExt := s.dmExtNow ++ [(s.cyc, e * dmSize + a, bs)] }
  let s := s.reread e (fun x => x.addr.any (fun b => decide (b < a + bs.length) && decide (a < b + x.span)))
  let base := s.f (F.ENG_COEF_WIN_base e) * 4
  let limit := s.f (F.ENG_COEF_WIN_limit e)
  if base < a + bs.length ∧ a < limit ∧ !s.fb (F.ENG_COEF_GEN_is_open e) ∧ (s.eng e).closedAt ≠ some s.cyc then
    let was := match (s.eng e).stray with
      | some x => if x.cyc = s.cyc then x else { cyc := s.cyc, gen := s.f (F.ENG_COEF_GEN_gen e), bit := s.f (F.ENG_COEF_GEN_stray e), seqs := [] }
      | none => { cyc := s.cyc, gen := s.f (F.ENG_COEF_GEN_gen e), bit := s.f (F.ENG_COEF_GEN_stray e), seqs := [] }
    let s := s.modEng e (fun x => { x with stray := some { was with seqs := s.evSeq :: was.seqs } })
    let s := s.setF (F.ENG_COEF_GEN_gen e) (s.f (F.ENG_COEF_GEN_gen e) + 2)
    ((s.mark (F.ENG_COEF_GEN_stray e)).raise .coefStray e 0 a).rereadGen e
  else s

/-! ### Saved contexts (R240, R241) -/

/-- The context of a new instance (R240). -/
def State.initialCtx (s : State) (tc : Nat) : EngCtx :=
  EngCtx.initial (BitVec.ofNat 14 (s.f (F.SCH_TC_ENTRY_entry tc))) (BitVec.ofNat 26 (s.f (F.SCH_TC_ARG_arg tc)))

/-- The context a dispatch of the task restores; of a task without an instance the initial one (log entry 126). -/
def State.taskCtx (s : State) (tc : Nat) : EngCtx := (s.task tc).saved.getD (s.initialCtx tc)

/-- Word i of the 64-word window of a saved context (R241). -/
def EngCtx.imageWord (c : EngCtx) (i : Nat) : Nat :=
  let half (k : Nat) : Nat := (c.stack.getD k 0).toNat
  if i < 8 then c.dU (Fin.ofNat 16 (2 * i)) + c.dU (Fin.ofNat 16 (2 * i + 1)) * 2 ^ 16
  else if i < 16 then
    let a := c.aS (Fin.ofNat 4 ((i - 8) / 2))
    if i % 2 = 0 then twos 32 a else twos 32 (a / 2 ^ 32)
  else if i < 24 then c.xU (Fin.ofNat 8 (i - 16))
  else if i = 24 then
    c.pc.toNat + c.fl.word * 2 ^ 16 + c.stack.length * 2 ^ 24 + b2n c.lc0.active * 2 ^ 28 + b2n c.lc1.active * 2 ^ 29
      + b2n c.lc1Later * 2 ^ 30
  else if i = 25 then c.lc0.count + c.lc0.start.toNat * 2 ^ 16
  else if i = 26 then c.lc1.count + c.lc1.start.toNat * 2 ^ 16
  else if i = 27 then c.lc0.stop.toNat + c.lc1.stop.toNat * 2 ^ 16
  else if i = 28 then c.cb6.toNat + c.cl6.toNat * 2 ^ 16
  else if i = 29 then c.cb7.toNat + c.cl7.toNat * 2 ^ 16
  else if i < 34 then half (2 * (i - 30)) + half (2 * (i - 30) + 1) * 2 ^ 16
  else 0

/-! ### Ready lists (R248) -/

/-- The READY tasks of an engine. -/
def State.readyTasks (s : State) (e : Nat) : List Nat := (tcsOf e).filter (fun tc => s.tcState tc == tcReady)

/-- One READY task stands before another: priority, then release instant, then number. -/
def State.before (s : State) (x y : Nat) : Bool :=
  let px := s.f (F.SCH_TC_CFG_prio x)
  let py := s.f (F.SCH_TC_CFG_prio y)
  px < py || (px == py && ((s.task x).relCyc < (s.task y).relCyc || ((s.task x).relCyc == (s.task y).relCyc && x < y)))

/-- The task at the head of the most urgent non-empty list. -/
def State.headTask (s : State) (e : Nat) : Option Nat :=
  (s.readyTasks e).foldl (fun h tc => match h with
    | none => some tc
    | some k => if s.before tc k then some tc else some k) none

/-- The depth of the ready lists is observed (R260). -/
def State.noteDepth (s : State) (e : Nat) : State :=
  s.modEng e (fun x => { x with depthMax := max x.depthMax (s.readyTasks e).length })

/-! ### Traces (R258, R259) -/

/-- Records in the trace buffer of an engine (R259). -/
def traceBufSize : Nat := 16

/-- A scheduling decision of cycle `p` is traced where the engine's obs_mode asks for it. -/
def State.traceAt (s : State) (p kind tc arg wait : Nat) : State :=
  let e := engOf tc
  if s.f (F.SCH_ENG_CFG_obs_mode e) = 1 then
    let rec16 := leBytes 2 s.periodNum ++ leBytes 2 (min 0xFFFF (p - s.sched.tickCyc))
      ++ leBytes 1 kind ++ leBytes 1 tc ++ leBytes 1 (e + s.f (F.SCH_TC_CFG_prio tc) * 16) ++ leBytes 1 (s.readyTasks e).length
      ++ leBytes 2 arg ++ leBytes 2 wait ++ leBytes 4 (s.eng e).traceSeq
    let s := s.modEng e (fun x => { x with traceSeq := (x.traceSeq + 1) % 2 ^ 32 })
    if (s.eng e).traceBuf.length < traceBufSize then s.modEng e (fun x => { x with traceBuf := x.traceBuf ++ [rec16] })
    else s.bumpF (F.SCH_TRACE_IDX_drop e) 1
  else s

/-- A decision of the present cycle is traced. -/
def State.trace (s : State) (kind tc arg wait : Nat) : State := s.traceAt s.cyc kind tc arg wait

/-- The oldest trace record of an engine reaches its ring, which wraps (R259). -/
def State.traceDrain (s : State) (e : Nat) : State :=
  match (s.eng e).traceBuf with
  | [] => s
  | r :: rest =>
    let idx := s.f (F.SCH_TRACE_IDX_idx e)
    let len := 2 ^ s.f (F.SCH_ENG_CFG_log2_len e)
    let s := (s.modEng e (fun x => { x with traceBuf := rest })).grnWriteA (s.f (F.SCH_TRACE_BASE_base e) * 16 + idx % len * 16) r
    s.setF (F.SCH_TRACE_IDX_idx e) ((idx + 1) % len)

/-! ### Dispatch (R249, R250) -/

/-- The FATAL task waits for its dispatch on FE0, and the PLL is locked (R256). -/
def State.fatalWaits (s : State) : Bool :=
  s.ctl.fatal && !s.pwr.clkFault && s.pwr.pllLocked && s.tcState 0 == tcReady && decide (s.f F.SCH_FATAL_fatal_state ≤ 1)

/-- What an engine's slot loads: the head of its ready lists, else idle_tc where it is DORMANT or DELAYED. -/
def State.slotTask (s : State) (e : Nat) : Option Nat :=
  match s.headTask e with
  | some tc => if s.ctl.fatal && !s.fatalWaits then none else some tc
  | none =>
    let t := s.f (F.SCH_ENG_CFG_idle_tc e)
    if t < 192 ∧ (s.tcState t = tcDormant ∨ s.tcState t = tcDelayed) then some t else none

/-- The slot begins to load what it shall hold, from the cycle after `p` on; the load takes the place of what the slot held, and a change of
head abandons a load in progress. -/
def State.slotPlan (s : State) (p e : Nat) : State :=
  let x := s.eng e
  let t := s.slotTask e
  if s.engState e = engDispatch then s
  else if t.isNone ∨ t = x.slot then s.modEng e (fun x => { x with load := none })
  else if x.load.map Prod.fst = t then s
  else s.modEng e (fun x => { x with slot := none, load := t.map (fun tc => (tc, p + 1)) })

/-- A free engine, as it stands at the end of cycle `p`, takes the task at the head of its lists once the slot holds it: the engine is in
DISPATCH, and the task shown RUNNING (log entry 126), from the latest of the cycles in which the engine is free, the task is READY and the
slot holds it. FE0 leaves HALTED or FAULTED for the FATAL task (R256). -/
def State.choose (p : Nat) (s : State) (e : Nat) : State :=
  match s.headTask e with
  | none => s.slotPlan p e
  | some tc =>
    let x := s.eng e
    if (s.engState e = engIdle ∨ (e = 0 ∧ s.fatalWaits = true)) ∧ x.slot = some tc then
      let c := max x.freeAt (max x.slotAt ((s.task tc).relCyc + 1))
      let s := s.modEng e (fun x => { x with chosen := c, load := none })
      ((s.setEngState e engDispatch c).setF (F.ENG_TASK_tc e) tc).setTcState tc tcRunning
    else s.slotPlan p e

/-- What the scheduler decides in a cycle is decided once all of the cycle's events are known (R248, R249, R252). -/
def State.plans (s : State) : State := { s with sched := { s.sched with planAt := some s.cyc } }

/-- The engine is free of its task: nothing runs on it. -/
def State.freeEngine (s : State) (e v : Nat) : State :=
  (((s.setEngState e v (s.cyc + 1)).setF (F.ENG_TASK_tc e) 0xFF)).modEng e (fun x =>
    { x with ldg := none, sig := none, freeAt := s.cyc + 1 })

/-! ### Overruns (R252 to R254) -/

/-- An overrun cause of the period in progress: the first of a period counts (R254). -/
def State.overrunCause (s : State) : State :=
  if s.sched.cause then s
  else
    let run := satInc (s.f F.SCH_STAT_ovr_run) 31
    let s := { s with sched := { s.sched with cause := true } }
    let s := (s.setF F.SCH_STAT_ovr_run run).bumpF F.SCH_OVR_CNT_ovr_periods 1
    if run > s.f F.SCH_CFG_n_overrun then
      let s := s.mark F.SCH_STAT_ovr_limit
      if s.mode.controls then { s with sched := { s.sched with limitHit := true } } else s
    else s

/-- An instance is dropped: its context is discarded, and a slot that holds it or loads it is void (R253). -/
def State.dropInstance (s : State) (tc st : Nat) : State :=
  let s := s.setTcState tc st
  let s := s.modTask tc (fun t => { t with saved := none })
  s.modEng (engOf tc) (fun x => 
    { x with slot := if x.slot = some tc then none else x.slot, load := if x.load.map Prod.fst = some tc then none else x.load })

/-- A trigger finds an instance that has not ended (R252). A SIG it has issued still raises its event (R253). -/
def State.abortTask (s : State) (tc : Nat) : State :=
  let e := engOf tc
  let running := s.engTc e == some tc
  let pc := if !running then 0xFFFF
    else (if s.engState e = engRunning then (s.eng e).ctx.pc else (s.taskCtx tc).pc).toNat
  let s := if running then (s.modEng e (fun x => { x with sigs := x.sigs ++ x.sig.toList })).freeEngine e engIdle else s
  let s := s.dropInstance tc tcDormant
  let s := (s.mark (F.SCH_TC_STAT_overrun tc)).bumpF (F.SCH_TC_STAT_ovr_cnt tc) 1
  let s := (s.raise .taskOverrun tc 0 pc).trace 6 tc pc 0
  if s.fb (F.SCH_TC_CFG_crit tc) then s.overrunCause else s

/-! ### Release and resumption (R245 to R251) -/

/-- The full number of the latest scheduler tick (R246). -/
def State.tickFull (s : State) : Nat := s.periodFull * 64 + s.f F.SCH_STAT_tick

/-- A task becomes READY in the cycle after its release instant `p` (R248). -/
def State.makeReadyAt (s : State) (p tc : Nat) : State :=
  let was := s.tcState tc
  let s := s.setTcState tc tcReady
  let s := s.modTask tc (fun t => { t with relCyc := p, before := was })
  s.noteDepth (engOf tc)

/-- A task is released in the present cycle. -/
def State.makeReady (s : State) (tc : Nat) : State := s.makeReadyAt s.cyc tc

/-- A trigger of R245 reaches an enabled task. -/
def State.trigger (s : State) (tc evt : Nat) : State :=
  let st := s.tcState tc
  if st = tcDisabled ∨ st = tcStopped then s
  else
    let s := if st = tcDormant then s else s.abortTask tc
    let s := s.modTask tc (fun t => { t with saved := none })
    let d := s.f (F.SCH_TC_REL_delay tc)
    if d = 0 then (s.makeReady tc).trace 1 tc evt 0
    else ((s.setTcState tc tcDelayed).modTask tc (fun t => { t with expiry := s.tickFull + d })).trace 7 tc d 0

/-- Releases are made: from MUSTER upward with the sequencer running, and no fatal error (R255, R256). -/
def State.releases (s : State) : Bool := s.mode.fromMuster && s.seq.running && !s.ctl.fatal

/-- The tasks an event triggers. -/
def State.eventTasks (s : State) (evt : Nat) : List Nat :=
  allTasks.filter (fun tc => tc != 0 && s.fb (F.SCH_TC_CFG_en tc) && s.f (F.SCH_TC_CFG_kind tc) == 1
    && s.f (F.SCH_TC_CFG_evt tc) == evt)

/-- An awaited event of cycle `p` makes a task READY that is WAITING still when the cycle's triggers have acted (R251, R252). -/
def State.resume (p : Nat) (evts : List Nat) (s : State) (tc : Nat) : State :=
  let evt := (s.task tc).waitEvt
  if s.tcState tc = tcWaiting ∧ evts.contains evt = true then (s.makeReadyAt p tc).traceAt p 5 tc evt 0 else s

/-- The scheduler's decisions of the latest cycle that had an event for it: tasks resume, and free engines choose. -/
def State.decided (s : State) : State :=
  match s.sched.planAt with
  | none => s
  | some p =>
    let evts := if s.sched.evtCyc = p then s.sched.evts else []
    let s := { s with sched := { s.sched with planAt := none } }
    (s.forEach allTasks (State.resume p evts)).forEach allEngines (State.choose p)

/-- The decisions of an earlier cycle are made. -/
def State.catchUp (s : State) : State := if s.sched.planAt.any (fun p => decide (p < s.cyc)) then s.decided else s

/-- An event occurs in the present cycle (R242). -/
def State.noteEvent (s : State) (evt : Nat) : State :=
  { s with sched := { s.sched with evts := (if s.sched.evtCyc = s.cyc then s.sched.evts else []) ++ [evt], evtCyc := s.cyc } }

/-- A scheduler event occurs (R242): its tasks are triggered; the tasks that wait on it resume as the cycle ends. -/
def State.schedEvent (s : State) (evt : Nat) : State :=
  let s := s.catchUp.noteEvent evt
  (if s.releases then s.forEach (s.eventTasks evt) (fun s tc => s.trigger tc evt) else s).plans

/-- An event of the present cycle turns out not to have occurred: the tasks it released or began to delay are DORMANT again (log entry 128). -/
def State.withdrawSched (s : State) (evt : Nat) : State :=
  if s.sched.evtCyc = s.cyc ∧ s.sched.evts.contains evt = true ∧ s.releases = true then
    let s := { s with sched := { s.sched with evts := s.sched.evts.filter (fun e => e != evt) } }
    s.forEach (s.eventTasks evt) (fun s tc =>
      let x := s.task tc
      if (s.tcState tc = tcReady ∧ x.relCyc = s.cyc) ∨ (s.tcState tc = tcDelayed ∧ x.expiry = s.tickFull + s.f (F.SCH_TC_REL_delay tc)) then
        s.dropInstance tc tcDormant
      else s)
  else s

/-- Delayed tasks whose expiry has come are released (R247). -/
def State.expire (s : State) : State :=
  let due := allTasks.filter (fun tc => s.tcState tc == tcDelayed && decide ((s.task tc).expiry ≤ s.tickFull))
  s.forEach due (fun s tc => (s.makeReady tc).trace 1 tc (0x100 + s.f F.SCH_STAT_tick) 0)

/-- The PERIOD triggers of a period tick (R245). -/
def State.periodTasks (s : State) : List Nat :=
  allTasks.filter (fun tc => tc != 0 && s.fb (F.SCH_TC_CFG_en tc) && s.f (F.SCH_TC_CFG_kind tc) == 0
    && ((s.periodFull : Int) - (s.f (F.SCH_TC_REL_phase tc) : Int)) % (s.f (F.SCH_TC_REL_div tc) : Int) == 0)

/-- Load and depth of the period just ended are stored (R260). -/
def State.storeStats (s : State) : State :=
  s.forEach allEngines (fun s e =>
    let x := s.eng e
    let now := match x.busyFrom with
      | none => 0
      | some t => s.cyc - t
    let load := min 0xFFFF (x.busyAcc + now)
    let s := s.modEng e (fun x => { x with busyAcc := 0, busyFrom := x.busyFrom.map (max s.cyc),
                                           depthMax := (s.readyTasks e).length })
    if s.f (F.SCH_ENG_CFG_obs_mode e) = 2 then
      let s := (s.setF (F.SCH_LOAD_last e) load).putWorst (F.SCH_LOAD_worst e) load
      (s.setF (F.SCH_DEPTH_last e) x.depthMax).putWorst (F.SCH_DEPTH_worst e) x.depthMax
    else s)

/-- The scheduler at the period tick of period n (R245 to R247, R254, R260). -/
def State.schedPeriod (s : State) : State :=
  let s := s.catchUp
  let s := if s.sched.cause then s else s.setF F.SCH_STAT_ovr_run 0
  let s := { s with sched := { s.sched with cause := false, tickCyc := s.cyc } }
  let s := ((s.setF F.SCH_STAT_tick 0).storeStats).noteEvent 0
  let s := if s.releases then
      let trig := allTasks.filter (fun tc => s.periodTasks.contains tc || (s.eventTasks 0).contains tc)
      s.expire.forEach trig (fun s tc => s.trigger tc 0)
    else s
  s.plans

/-- Every instance is dropped without an overrun and the delay lists are emptied (R58, R255): each task reads DISABLED or DORMANT. -/
def State.dropAll (s : State) : State :=
  let s := s.catchUp
  let s := s.forEach allTasks (fun s tc => s.dropInstance tc (if s.fb (F.SCH_TC_CFG_en tc) then tcDormant else tcDisabled))
  s.forEach allEngines (fun s e => s.freeEngine e (if s.engState e = engFaulted then engFaulted else if s.engState e = engHalted then engHalted else engIdle))

/-- The delay lists are emptied (R247). -/
def State.emptyDelays (s : State) : State :=
  s.forEach allTasks (fun s tc => if s.tcState tc = tcDelayed then s.dropInstance tc tcDormant else s)

/-- A fatal error reaches the scheduler (R256): every engine and every instance is stopped, and the FATAL task is dispatched when it
can be; until then it reads READY (log entry 126). -/
def State.stopForFatal (s : State) : State :=
  let s := s.catchUp
  let s := s.forEach allTasks (fun s tc => s.dropInstance tc (if tc = 0 then s.tcState 0 else tcStopped))
  let s := s.forEach allEngines (fun s e => s.freeEngine e (if s.engState e = engFaulted then engFaulted else engHalted))
  if !s.fb (F.SCH_TC_CFG_en 0) then (s.setTcState 0 tcDisabled).setF F.SCH_FATAL_fatal_state 6
  else
    let s := ((s.makeReady 0).modTask 0 (fun t => { t with saved := none })).plans
    s.setF F.SCH_FATAL_fatal_state (if s.pwr.pllLocked && !s.pwr.clkFault then 0 else 1)

end Sys2Proof.Machine
end

