-- ==== Sys2Proof/Machine/Recorder.lean ====
section
/-! DEFINITION. The fault recorder (R282 to R310): silos, entries, triggers, the trigger bus, measurements and the record header. -/

namespace Sys2Proof.Machine

def State.silo (s : State) (k : Nat) : Silo := tget Silo.reset s.fr.silos k
def State.modSilo (s : State) (k : Nat) (g : Silo → Silo) : State :=
  { s with fr := { s.fr with silos := tput Silo.reset s.fr.silos k (g (s.silo k)) } }

/-! ### Silo states (REC_SILO_STAT.state) -/

def siloIdle : Nat := 0
def siloArmed : Nat := 1
def siloTriggered : Nat := 2
def siloMeasure : Nat := 3
def siloDone : Nat := 4

def allSilos : List Nat := upto 4
def State.siloState (s : State) (k : Nat) : Nat := s.f (F.REC_SILO_STAT_state k)

/-! ### Events taken back or amended in their cycle -/

/-- An event that is raised and not yet written is withdrawn; those raised after it take the numbers before theirs. -/
def State.withdrawEvent (s : State) (seq : Nat) : State :=
  if s.events.any (fun e => e.seq == seq) then
    let i := s.events.findIdx (fun e => e.seq == seq)
    let fix := fun (k : Nat) => if (k + 2 ^ 32 - seq) % 2 ^ 32 < 2 ^ 31 then (k + 2 ^ 32 - 1) % 2 ^ 32 else k
    { s with events := s.events.take i ++ (s.events.drop (i + 1)).map (fun e => { e with seq := (e.seq + 2 ^ 32 - 1) % 2 ^ 32 })
             evSeq := (s.evSeq + 2 ^ 32 - 1) % 2 ^ 32
             fr := { s.fr with silos := s.fr.silos.map (fun p => (p.1, { p.2 with armedSeq := fix p.2.armedSeq, trigSeq := fix p.2.trigSeq })) } }
  else s

/-- The payload of an event that is raised and not yet written. -/
def State.amendEvent (s : State) (seq : Nat) (payload : List Byte) : State :=
  { s with events := s.events.map (fun e => if e.seq = seq then { e with payload := payload } else e) }

/-! ### Geometry (R282 to R284) -/

def State.siloBase (s : State) (k : Nat) : Nat := s.f (F.REC_SILO_BASE_base k) * 65536
def State.siloBytes (s : State) (k : Nat) : Nat := s.f (F.REC_SILO_BASE_size k) * 65536
def State.siloKind (s : State) (k : Nat) : Nat := s.f (F.REC_SILO_CFG_kind k)

/-- E of a silo's kind. -/
def State.entryBytes (s : State) (k : Nat) : Nat :=
  if s.siloKind k = 0 then 128 + 512 * s.f (F.REC_SILO_CFG_lane_count k) else 32

/-- C of a silo. -/
def State.siloCap (s : State) (k : Nat) : Nat := (s.siloBytes k - 256) / s.entryBytes k

/-- The first reason to refuse an arm (R282); 0 for none. -/
def State.armRefusal (s : State) (k : Nat) : Nat :=
  let b := s.siloBase k
  let n := s.siloBytes k
  let others := allSilos.filter (fun j => j != k && s.siloState j != siloIdle)
  if b + n > grnSize then 1
  else if others.any (fun j => decide (b < s.siloBase j + s.siloBytes j) && decide (s.siloBase j < b + n)) then 2
  else if b < 0x100000 then 3
  else if n + (others.map s.siloBytes).sum > 48 * 1048576 then 4
  else if !s.mode.fromConfigure then 5
  else 0

/-- An event was raised after the arming of a silo. -/
def State.raisedSince (s : State) (k : Nat) (e : Event) : Bool := decide ((e.seq + 2 ^ 32 - (s.silo k).armedSeq) % 2 ^ 32 < 2 ^ 31)

/-! ### Triggers (R292, R293, R297, R305) -/

/-- The entry with time `x` may be the trigger entry of a trigger at `t` (R292): its period contains or follows t, or it is at or
after t. -/
def State.entryFrom (s : State) (k x t : Nat) : Bool :=
  if s.siloKind k = 0 then decide (t < x + s.periodNs) else decide (t ≤ x)

/-- The instant of a time word in ns. -/
def instantOf (t : Nat) : Nat := t / 2 ^ 32 * nsPerSec + t % 2 ^ 32

/-- Entries still to come before the one of the first event at or after `t`: of an EVENT silo, the earlier events that wait to be
written. -/
def State.entriesBefore (s : State) (k t : Nat) : Nat :=
  if s.siloKind k = 2 then (s.events.filter (s.raisedSince k)).findIdx (fun e => decide (t ≤ instantOf e.time.toNat)) else 0

/-- Ordinal of the trigger entry of a trigger at `t`: the first entry still in the ring that qualifies, else the first one to come. -/
def State.trigOrdinal (s : State) (k t : Nat) : Nat :=
  let x := s.silo k
  let c := max 1 (s.f (F.REC_SILO_CAP_capacity k))
  let oldest := x.written - c
  match (List.range' oldest (x.written - oldest)).find? (fun j => s.entryFrom k (tget 0 x.times (j % c)) t) with
  | some j => j
  | none => x.written + s.entriesBefore k t

/-- The record's last entry has been written (R294). -/
def State.siloFull (s : State) (k : Nat) : State :=
  let x := s.silo k
  if s.siloState k = siloTriggered ∧ x.trigOrd + x.post ≤ x.written then s.setF (F.REC_SILO_STAT_state k) siloMeasure else s

/-- A silo accepted its trigger in the present cycle. -/
def State.acceptsNow (s : State) (k : Nat) : Bool :=
  (s.siloState k == siloTriggered || s.siloState k == siloMeasure) && (s.silo k).trigCyc == s.cyc

/-- Another silo asked for the same bus line in the present cycle. -/
def State.lineShared (s : State) (k : Nat) : Bool :=
  allSilos.any (fun j => j != k && s.acceptsNow j && (s.silo j).trigLine
    && s.f (F.REC_SILO_CFG_tb_line j) == s.f (F.REC_SILO_CFG_tb_line k))

/-- A silo with tb_out asks for a TRIGGER on its line, for sources other than the bus (R305): it or another silo of the cycle set the line,
or the line waits already. -/
def State.siloLine (s : State) (k hit : Nat) : State :=
  let line := s.f (F.REC_SILO_CFG_tb_line k)
  let pend := s.f F.REC_TB_STAT_pending
  if s.fb (F.REC_SILO_CFG_tb_out k) && (hit &&& 0xF00F) != 0 && s.fb F.REC_TB_STAT_tb_up && (!bitOf pend line || s.lineShared k) then
    (s.setF F.REC_TB_STAT_pending (setBits pend line line 1)).modSilo k (fun x => { x with trigLine := true })
  else s

/-- An ARMED silo accepts a trigger whose trigger entry has the ordinal `ord`. -/
def State.siloAccept (s : State) (k hit t ord : Nat) : State :=
  let s := s.setF (F.REC_SILO_STAT_state k) siloTriggered
  let s := s.modSilo k (fun x => { x with
    trigOrd := ord, trigTime := t, sources := hit, trigCyc := s.cyc, trigSeq := s.evSeq, trigLine := false })
  (((s.raise .recTrig k 0 hit).siloLine k hit).siloFull k)

/-- A further source in the cycle in which a silo accepted its trigger: one trigger, with every source and the earliest instant (R293). -/
def State.siloMerge (s : State) (k hit t : Nat) : State :=
  let x := s.silo k
  let t := min t x.trigTime
  let all := x.sources ||| hit
  let ord := if t < x.trigTime then min x.trigOrd (s.trigOrdinal k t) else x.trigOrd
  let s := s.modSilo k (fun x => { x with sources := all, trigTime := t, trigOrd := ord })
  ((s.amendEvent x.trigSeq (s.stdPayload k 0 all)).siloLine k hit).siloFull k

/-- One silo sees the trigger sources of one CORE_CLK cycle: the state, and whether it accepted a trigger. On an event match the
matching event, written next, is an EVENT silo's trigger entry (R292). -/
def State.siloTrigger (s : State) (k src t : Nat) : State × Bool :=
  let hit := src &&& s.f (F.REC_SILO_TRIG_trig_mask k)
  let x := s.silo k
  if hit = 0 ∨ x.leftCyc = some s.cyc then (s, false)
  else if s.siloState k = siloArmed then
    (s.siloAccept k hit t (if src = 2 ^ 14 ∧ s.siloKind k = 2 then x.written else s.trigOrdinal k t), true)
  else if s.acceptsNow k then (s.siloMerge k hit t, false)
  else if s.siloState k = siloTriggered then (s.modSilo k (fun x => { x with extra := satInc x.extra 0xFFFF }), false)
  else (s, false)

/-- Trigger sources occur in one cycle, with instant `t` (R293), in the silos `ks`; the scheduler event REC_TRIG follows an
acceptance. -/
def State.recTriggerIn (s : State) (ks : List Nat) (src t : Nat) : State :=
  let old := s.fr
  let same := old.trigCyc = s.cyc ∧ old.trigSrc ≠ 0
  let s := { s with fr := { s.fr with trigCyc := s.cyc, trigSrc := if same then old.trigSrc ||| src else src
                                      trigNow := (if same then old.trigNow else []) ++ [(src, t)] } }
  let r := ks.foldl (fun (p : State × Bool) k =>
    let q := p.1.siloTrigger k src t
    (q.1, p.2 || q.2)) (s, false)
  if r.2 then r.1.schedEvent 0x09 else r.1

def State.recTrigger (s : State) (src t : Nat) : State := s.recTriggerIn allSilos src t

/-- Trigger sources that reach one silo. -/
def State.siloTriggerOne (s : State) (k src t : Nat) : State :=
  let r := s.siloTrigger k src t
  if r.2 then r.1.schedEvent 0x09 else r.1

/-! ### Arming (R282, R290, R291) -/

/-- An arm is checked, and accepted or refused (R282, R290, R291). -/
def State.siloArm (s : State) (k : Nat) : State :=
  let err := s.armRefusal k
  if err ≠ 0 then ((s.setF (F.REC_SILO_STAT_state k) siloIdle).setF (F.REC_SILO_STAT_err_code k) err).raise .recArmRefused k err 0
  else
    let c := s.siloCap k
    let pre0 := s.f (F.REC_SILO_PRE_pre k)
    let post0 := s.f (F.REC_SILO_POST_post k)
    let pre := min pre0 (c - 1)
    let post := if pre + post0 > c then c - pre else post0
    let s := if pre ≠ pre0 then s.raiseClamp 4 (R.REC_SILO_PRE k) 0 pre0 pre else s
    let s := if post ≠ post0 then s.raiseClamp 4 (R.REC_SILO_POST k) 0 post0 post else s
    let cl := pre ≠ pre0 ∨ post ≠ post0
    let s := if cl then s.mark (F.REC_SILO_STAT_clamped k) else s
    let s := (s.setF (F.REC_SILO_CAP_capacity k) c).setF (F.REC_SILO_IDX_idx k) 0
    let s := (s.setF (F.REC_SILO_STAT_state k) siloArmed).grnWrite (s.siloBase k) (List.replicate 256 0)
    s.modSilo k (fun x => { Silo.reset with
      pre := pre, post := post, armedCyc := s.cyc, armedSeq := s.evSeq, clamped := decide cl, leftCyc := x.leftCyc })

/-- Host software arms a silo: the triggers of the same cycle reach it, the arm being made first (R293). -/
def State.siloArmFirst (s : State) (k : Nat) : State :=
  let s := s.siloArm k
  if s.siloState k = siloArmed ∧ s.fr.trigCyc = s.cyc ∧ s.fr.trigSrc ≠ 0 then
    s.fr.trigNow.foldl (fun s p => s.siloTriggerOne k p.1 p.2) s
  else s

/-- Source bits of R297. -/
def trigIn (i : Nat) : Nat := 2 ^ i
def trigBus (line : Nat) : Nat := 2 ^ (4 + line)
def trigSafety : Nat := 2 ^ 12
def trigLimit : Nat := 2 ^ 13
def trigMatch : Nat := 2 ^ 14
def trigSw : Nat := 2 ^ 15

/-! ### Entries (R283, R285 to R289) -/

/-- An entry of time `t` goes into a silo's ring, or is lost to arbitration (R289). -/
def State.putEntry (s : State) (k t : Nat) (bs : List Byte) (lost : Bool) : State :=
  let st := s.siloState k
  if st ≠ siloArmed ∧ st ≠ siloTriggered then s
  else
    let c := max 1 (s.f (F.REC_SILO_CAP_capacity k))
    let i := s.f (F.REC_SILO_IDX_idx k)
    let first := (s.silo k).drops == 0
    let s := if lost then
        let s := (s.bumpF (F.REC_SILO_STAT_drop k) 1).modSilo k (fun x => { x with drops := x.drops + 1 })
        if first then s.raise .recDrop k 0 0 else s
      else s.grnWrite (s.siloBase k + 256 + i * s.entryBytes k) bs
    let s := s.setF (F.REC_SILO_IDX_idx k) ((i + 1) % c)
    let s := s.modSilo k (fun x => { x with written := x.written + 1, times := tput 0 x.times i t })
    s.siloFull k

/-- The slots of a lane in a CELL entry: as the lane receiver wrote them into the gather area; zeros beyond the count, for a lane
that is down, and for a late frame. -/
def State.cellSlots (s : State) (l : Nat) : List Byte :=
  let ok := decide (l < 48) && (s.lane l).gatherOk
  (upto 64).flatMap (fun k =>
    if ok && decide (k < s.laneCount l) then
      s.grnRead (s.f F.GRN_GATHER_base * 65536 + s.periodFull % 2 * 0x6000 + l * 0x200 + k * 8) 8
    else List.replicate 8 0)

/-- The CELL entry of the period (R285). -/
def State.cellEntry (s : State) (k : Nat) : List Byte :=
  let first := s.f (F.REC_SILO_CFG_lane_first k)
  let lanes := (upto (s.f (F.REC_SILO_CFG_lane_count k))).map (fun i => first + i)
  let onTime := (lanes.zipIdx.map (fun p => b2n (s.lane p.1).gatherOk * 2 ^ p.2)).sum
  leBytes 2 s.periodNum ++ leBytes 1 onTime
    ++ leBytes 1 (s.fr.modeAtP + b2n s.seq.planLate * 16 + b2n s.fr.safeTrig * 32) ++ leBytes 4 0
    ++ ((upto 24).flatMap (fun c => leBytes 4 (s.adc.snap.getD c (2 ^ 19))))
    ++ ((upto 12).flatMap (fun a => leBytes 2 (if s.armEnabled a then s.f (F.GLB_ARM_STAT_n_available a) else 0)))
    ++ lanes.flatMap s.cellSlots

/-- A CELL silo has been armed since before the period in progress began, and has no entry of it yet. -/
def State.cellDue (s : State) (k : Nat) : Bool :=
  s.siloKind k == 0 && decide ((s.silo k).armedCyc ≤ s.sched.tickCyc) && (s.silo k).lastTick != some s.sched.tickCyc

/-- The slots a CELL entry copies are read from the gather area; words that read as uncorrectable are reported, and used as read (R452). -/
def State.cellSee (s : State) (k : Nat) : State :=
  let first := s.f (F.REC_SILO_CFG_lane_first k)
  let lanes := ((upto (s.f (F.REC_SILO_CFG_lane_count k))).map (fun i => first + i)).filter (fun l => decide (l < 48) && (s.lane l).gatherOk)
  s.forEach lanes (fun s l =>
    s.grnSee reqRecorder (s.f F.GRN_GATHER_base * 65536 + s.periodFull % 2 * 0x6000 + l * 0x200) (8 * s.laneCount l))

/-- The CELL entry of the period is completed, once, in each CELL silo armed before the period began; `lost` names the silos whose
entry is lost to arbitration (R289). -/
def execCellEntryWrite (lost : BitVec 4) (s : State) : Host.Outcome State Fault Refusal :=
  if s.mode.fromConfigure && s.seq.running && s.seq.started then
    .next (s.forEach (allSilos.filter s.cellDue) (fun s k =>
      let s := s.cellSee k
      (s.putEntry k s.pN (s.cellEntry k) (bitOf lost.toNat k)).modSilo k (fun x => { x with lastTick := some s.sched.tickCyc })))
  else .next s

/-- Item i of a WAVE entry at a tick (R286, R288). -/
def State.waveItem (s : State) (i tick : Nat) : Nat :=
  if !s.fb (F.REC_CH_en i) then 2 ^ 19
  else if !s.fb (F.ADC_CH_CFG_en (s.f (F.REC_CH_ain i))) then 2 ^ 19
  else match tget none s.adc.any (s.f (F.REC_CH_ain i)) with
    | none => 2 ^ 19
    | some r => r.word % 2 ^ 19 + bitsOf r.word 22 20 * 2 ^ 20 + min 255 ((tick - r.sample) / 2) * 2 ^ 24

/-- The next wave tick of a silo: the first multiple of wave_int × 20 ns from the origin at or after the present instant that it has
not written. -/
def State.nextWave (s : State) (k : Nat) : Nat :=
  let w := max 2 (s.f (F.REC_SILO_CFG_wave_int k)) * 20
  let o := s.originNs % w
  let t := (s.now.ns + (w - 1) - o) / w * w + o
  if (s.silo k).lastWave == some t then t + w else t

/-- A wave tick of a WAVE silo. -/
def execWaveTick (k : Fin 4) (lost : Bool) (s : State) : Host.Outcome State Fault Refusal :=
  if s.mode.fromConfigure ∧ s.siloKind k = 1 ∧ (s.siloState k = siloArmed ∨ s.siloState k = siloTriggered) then
    let t := s.nextWave k
    let s := s.advanceTo t
    .next ((s.putEntry k t ((upto 8).flatMap (fun i => leBytes 4 (s.waveItem i t))) lost).modSilo k (fun x => { x with lastWave := some t }))
  else .next s

/-! ### Measurements (R307, R308) -/

/-- The integer square root, by digits of base 2 from bit `n - 1` down. -/
def isqrtFrom (v : Nat) : Nat → Nat → Nat
  | 0, r => r
  | n + 1, r => if (r + 2 ^ n) * (r + 2 ^ n) ≤ v then isqrtFrom v n (r + 2 ^ n) else isqrtFrom v n r

def isqrt (v : Nat) : Nat := isqrtFrom v 40 0

/-- One sample of a measured channel: code, time in 1/16 ns, ovr and settle. -/
structure Sample where
  x : Int
  t : Int
  ovr : Bool
  settle : Bool
deriving DecidableEq, Repr

/-- The measurement in progress (the variables of R307). -/
structure Meas where
  prev : Option Sample
  armed : Bool
  k : Nat
  peak : Int
  vmin : Int
  sq : Nat
  cnt : Nat
  tFirst : Int
  tLast : Int
  ovr : Bool
  settle : Bool
deriving DecidableEq, Repr

def Meas.start : Meas :=
  { prev := none, armed := false, k := 0, peak := -32768, vmin := 32767, sq := 0, cnt := 0, tFirst := 0, tLast := 0,
    ovr := false, settle := false }

/-- One sample of R307. -/
def Meas.step (hyst : Int) (m : Meas) (x : Sample) : Meas :=
  let armed := m.armed || decide (x.x ≤ -hyst * 16)
  let cross : Option Int := match m.prev with
    | none => none
    | some p => if armed ∧ p.x < 0 ∧ 0 ≤ x.x then some (p.t + (x.t - p.t) * (-p.x) / (x.x - p.x)) else none
  let m := match cross with
    | none => { m with armed := armed }
    | some tz => { m with armed := false, k := m.k + 1, tLast := tz, tFirst := if m.k = 0 then tz else m.tFirst }
  { m with prev := some x, peak := max m.peak x.x, vmin := min m.vmin x.x, sq := m.sq + x.x.natAbs * x.x.natAbs,
           cnt := m.cnt + 1, ovr := m.ovr || x.ovr, settle := m.settle || x.settle }

/-- The 16 bytes of a measurement (R308). -/
def Meas.bytes (m : Meas) : List Byte :=
  let period := if m.k ≥ 2 then ((m.tLast - m.tFirst) / ((m.k : Int) - 1)).toNat else 0xFFFFFFFF
  let rms := if m.cnt > 0 then (isqrt (4 * m.sq / m.cnt) + 1) / 2 else 0
  leBytes 4 period ++ leBytes 2 (twos 16 m.peak) ++ leBytes 2 (twos 16 m.vmin) ++ leBytes 2 rms ++ leBytes 2 (min m.k 0xFFFF)
    ++ leBytes 2 (1 + b2n m.ovr * 2 + b2n m.settle * 4) ++ leBytes 2 0

/-- The sample of recorder channel i in the entry at ring index j; none where it is not set, and in an EVENT entry. -/
def State.sampleAt (s : State) (k i j : Nat) : Option Sample :=
  let addr := s.siloBase k + 256 + j * s.entryBytes k
  let cell := s.siloKind k == 0
  let w := s.grnNat (if cell then addr + 8 + s.f (F.REC_CH_ain i) * 4 else addr + i * 4) 4
  if bitOf w 19 || s.siloKind k == 2 then none
  else
    let t0 : Int := ((tget 0 (s.silo k).times j : Nat) : Int)
    let ts : Int := bitsOf w 31 24 * 2
    let t := if cell && !bitOf w 18 then t0 + ts else t0 - ts
    some { x := sx 16 w, t := t * 16, ovr := bitOf w 16, settle := bitOf w 17 }

/-- Ordinals of the record's entries are pre_valid before the trigger entry to post − 1 after it (R292). -/
def Silo.preValid (x : Silo) : Nat := min x.pre x.trigOrd
def Silo.firstOrd (x : Silo) : Nat := x.trigOrd - x.preValid

/-- The measurement of recorder channel i over a record. -/
def State.measure (s : State) (k i : Nat) : List Byte :=
  if !s.fb (F.REC_CH_meas_en i) then List.replicate 16 0
  else
    let x := s.silo k
    let c := max 1 (s.f (F.REC_SILO_CAP_capacity k))
    let js := (List.range' x.firstOrd (x.preValid + x.post)).map (fun o => o % c)
    ((js.filterMap (s.sampleAt k i)).foldl (Meas.step (s.f (F.REC_CH_hyst i))) Meas.start).bytes

/-! ### The record header (R309) -/

/-- Bytes 0 to 251. -/
def State.headerBody (s : State) (k : Nat) : List Byte :=
  let x := s.silo k
  let c := max 1 (s.f (F.REC_SILO_CAP_capacity k))
  let pv := x.preValid
  let firstIdx := x.firstOrd % c
  let tp := if x.trigTime < s.originNs then 0 else (x.trigTime - s.originNs) / s.periodNs
  leBytes 4 0x31434552 ++ leBytes 1 k ++ leBytes 1 (s.siloKind k)
    ++ leBytes 2 (b2n x.clamped + b2n (decide (pv < x.pre)) * 2 + b2n (x.sources &&& 0xFF0 != 0) * 4 + b2n x.step * 8
        + b2n (decide (x.drops > 0)) * 16)
    ++ leBytes 4 (s.entryBytes k) ++ leBytes 4 c ++ leBytes 4 pv ++ leBytes 4 x.post ++ leBytes 4 firstIdx
    ++ leBytes 4 ((firstIdx + pv) % c) ++ leBytes 8 (timeWord x.trigTime) ++ leBytes 8 (timeWord (tget 0 x.times firstIdx))
    ++ leBytes 4 tp ++ leBytes 2 x.sources ++ leBytes 2 x.extra ++ leBytes 4 x.drops
    ++ leBytes 2 (s.f (F.REC_SILO_CFG_wave_int k)) ++ leBytes 1 (s.f (F.REC_SILO_CFG_lane_first k))
    ++ leBytes 1 (s.f (F.REC_SILO_CFG_lane_count k)) ++ (upto 8).flatMap (s.measure k) ++ leBytes 60 0

/-- The measurements are done, the header is written and the record is DONE. -/
def execRecordDone (k : Fin 4) (s : State) : Host.Outcome State Fault Refusal :=
  if s.siloState k = siloMeasure then
    let b := s.headerBody k
    let s := s.grnWrite (s.siloBase k) (b ++ leBytes 4 (crc32c b))
    .next ((s.setF (F.REC_SILO_STAT_state k) siloDone).raise .recDone k 0 0)
  else .next s

/-- A release or a disarm is made in this cycle: a trigger of the cycle is ignored (R293). -/
def State.siloLeaves (s : State) (k : Nat) : State := s.modSilo k (fun x => { x with leftCyc := some s.cyc })

/-- A release of a DONE silo (R294). -/
def State.siloRelease (s : State) (k : Nat) : State :=
  if s.siloState k = siloDone then
    let s := s.siloLeaves k
    if s.fb (F.REC_SILO_CTL_auto_rearm k) then s.siloArm k else s.setF (F.REC_SILO_STAT_state k) siloIdle
  else s

/-- A disarm of an ARMED silo, also of one that accepted a trigger in this cycle: that trigger is ignored, its REC_TRIG event and the bus
line it asked for with it (R293). -/
def State.siloDisarm (s : State) (k : Nat) : State :=
  let x := s.silo k
  let st := s.siloState k
  if st = siloArmed then (s.siloLeaves k).setF (F.REC_SILO_STAT_state k) siloIdle
  else if s.acceptsNow k then
    let s := if x.trigLine && !s.lineShared k then
        let line := s.f (F.REC_SILO_CFG_tb_line k)
        s.setF F.REC_TB_STAT_pending (setBits (s.f F.REC_TB_STAT_pending) line line 0)
      else s
    let s := if allSilos.any (fun j => j != k && s.acceptsNow j) then s else s.withdrawSched 0x09
    ((s.siloLeaves k).withdrawEvent x.trigSeq).setF (F.REC_SILO_STAT_state k) siloIdle
  else s

/-- The W1S bits of REC_SILO_CTL act: arm first, then a release or disarm, which a trigger of the same write does not survive
(R290, R293). -/
def State.siloCtl (s : State) (k : Nat) (arm release sw disarm : Bool) : State :=
  let s := if arm && s.siloState k == siloIdle then s.siloArmFirst k else s
  let s := if release then s.siloRelease k else s
  let s := if disarm then s.siloDisarm k else s
  if sw then s.siloTriggerOne k trigSw s.stampNs else s

/-- Every silo returns to IDLE (R296). -/
def State.silosIdle (s : State) : State := s.forEach allSilos (fun s k => s.setF (F.REC_SILO_STAT_state k) siloIdle)

/-- A timebase step falls into the record of every silo that is not IDLE (R286). -/
def State.recStep (s : State) : State :=
  s.forEach allSilos (fun s k => if s.siloState k = siloIdle then s else s.modSilo k (fun x => { x with step := true, lastWave := none }))

/-! ### Event entries and event match (R287, R299) -/

/-- The device's own 32 bytes of an event as a ring entry with its flags byte (R388). -/
def Event.bytes (e : Event) (flags : Nat) : List Byte :=
  leBytes 2 e.code.code ++ leBytes 1 e.source ++ leBytes 1 flags ++ leBytes 4 e.seq ++ leBytes 8 e.time.toNat ++ e.payload

/-- The event is one the recorder raises. -/
def Event.ofRecorder (e : Event) : Bool := e.code.code / 256 == 0x0D

/-- An event is copied into every EVENT silo armed before it was raised, and may trigger (R287, R292, R299). A match triggers before the
entry is written, so that it is the trigger entry. -/
def State.recEvent (s : State) (e : Event) (lost : Nat) : State :=
  let t := instantOf e.time.toNat
  let since := allSilos.filter (fun k => s.raisedSince k e)
  let s := if s.fb F.REC_EVT_MATCH_en && e.code.code == s.f F.REC_EVT_MATCH_match_code && !e.ofRecorder then
    s.recTriggerIn since trigMatch t else s
  s.forEach since (fun s k => if s.siloKind k = 2 then s.putEntry k t (e.bytes 0) (bitOf lost k) else s)

/-! ### The trigger bus -/

def State.modBus (s : State) (g : TrigBus → TrigBus) : State := { s with fr := { s.fr with bus := g s.fr.bus } }

/-- REC_TB_CFG was written: a change of the device's part starts the link again; the master has no delay. -/
def State.tbConfigured (s : State) : State :=
  let s := if s.fb F.REC_TB_CFG_tb_master then s.setF F.REC_TB_CFG_tb_id 0 else s
  let s := s.modBus (fun _ => TrigBus.reset)
  ((s.setF F.REC_TB_STAT_tb_up 0).setF F.REC_TB_STAT_pending 0).setF F.REC_TB_STAT_tb_delay 0

end Sys2Proof.Machine
end

