-- ==== Sys2Proof/Machine/SafetyPath.lean ====
section
/-! DEFINITION. The safety path (R311 to R334): causes, the trigger and its reactions, the basic mode change, SAFE-BLOCK entry, and
the retention domain. -/

namespace Sys2Proof.Machine

/-! ### Causes (R319, R320, R330) -/

/-- Pair of a channel numbered as in in_now (0 to 3 channel A, 4 to 7 channel B). -/
def pairOf (ch : Nat) : Nat := ch % 4

def allChannels : List Nat := upto 8

/-- A channel counts as asserted by a failed test (R319). -/
def State.channelFailed (s : State) (ch : Nat) : Bool :=
  bitOf (s.f F.SAF_TEST_STAT_test_fail) ch && s.fb F.SAF_TEST_CFG_test_fail_trip

/-- A channel of an enabled pair reads asserted, or counts as asserted (R319). A test window masks a channel from R314 alone (R318). -/
def State.channelAsserted (s : State) (ch : Nat) : Bool :=
  s.fb (F.SAF_IN_CFG_en (pairOf ch)) && (bitOf (s.f F.SAF_STAT_in_now) ch || s.channelFailed ch)

/-- A channel acts as a trigger: asserted outside a test window of its own (R314, R318), or by a failed test. -/
def State.channelActs (s : State) (ch : Nat) : Bool :=
  s.fb (F.SAF_IN_CFG_en (pairOf ch)) && ((bitOf (s.f F.SAF_STAT_in_now) ch && !bitOf s.saf.window ch) || s.channelFailed ch)

def State.inputAsserted (s : State) : Bool := allChannels.any s.channelAsserted

/-- A masked limit is active (R320). -/
def State.tmActive (s : State) : Bool :=
  (s.f F.ADC_LIM_ACT0_act &&& s.f F.SAF_TM_MASK0_mask) != 0 || (s.f F.ADC_LIM_ACT1_act &&& s.f F.SAF_TM_MASK1_mask) != 0

/-- A cause is active (R330). -/
def State.causeActive (s : State) : Bool :=
  s.inputAsserted || s.tmActive || s.fb F.SAF_STAT_arm_low || s.f F.SAF_LATCH_in_latch != 0

/-- The modes in which the limits feed the trip matrix (R278): MUSTER upward, without DIAGNOSTIC. -/
def Mode.feedsMatrix (m : Mode) : Bool := m.fromMuster && m != .diagnostic

/-- The SAFE_STATE pin (R43, R325): high impedance (none) in OFF and DORMANT and in reset, else driven high when asserted. -/
def State.safePin (s : State) : Option Bool :=
  if !s.awake then none
  else some (match s.mode with
    | .muster | .precharge | .ready | .run | .shadow => s.causeActive
    | _ => true)

/-- SAFE_STATE is driven to its asserted level. -/
def State.safeState (s : State) : Bool := s.safePin == some true

/-- Periodic BLOCK sets are being sent (R92, R323). -/
def State.blockTx (s : State) : Bool :=
  s.mode == .safeBlock || (s.mode == .muster && (s.f F.SAF_LATCH_in_latch != 0 || s.tmActive))

/-- The lockout as the device takes it: the latch, or set while a readback has failed (R51, R52, R333). -/
def State.lockedOut (s : State) : Bool := s.saf.lockout || s.fb F.SAF_STAT_ret_err

/-- The retained confirmed value as the device takes it. -/
def State.retConfirmed (s : State) : Option Nat := if s.fb F.SAF_STAT_ret_err then none else s.saf.confirmed

/-! ### The retention domain (R333) -/

/-- The 256 bytes of the domain, crc last. -/
def State.retImage (s : State) : List Byte :=
  let body := leBytes 4 0x314E5452 ++ leBytes 1 (b2n s.saf.lockout + b2n s.saf.confirmed.isSome * 2) ++ leBytes 1 s.saf.histNext
    ++ leBytes 2 0 ++ leBytes 4 (s.saf.confirmed.getD 0) ++ leBytes 4 (s.rd R.SAF_FAULT_HIST)
    ++ ((upto 8).flatMap (fun h => s.saf.history.getD h (List.replicate 16 0))) ++ List.replicate 108 0
  body ++ leBytes 4 (crc32c body)

/-- The domain passes its check (R52, R333). -/
def retOk (bs : List Byte) : Bool :=
  bs.length == 256 && fieldAt bs 0 4 == 0x314E5452 && fieldAt bs 252 4 == crc32c (bs.take 252)

/-- What the domain holds has changed; it is rewritten within 2 µs (RETENTION_WRITE). -/
def State.retChanged (s : State) : State := { s with saf := { s.saf with retDirty := true } }

/-- A bit of the fault-history word is set (R334). -/
def State.faultHist (s : State) (x : Fld) : State := (s.mark x).retChanged

/-- The rewrite of the domain that a change asks for is made (R333). -/
def State.retFlush (s : State) : State :=
  if s.saf.retDirty then { s with saf := { s.saf with retBytes := s.retImage, retDirty := false } } else s

/-- The retention domain is checked at BOOT entry, and the working copy taken from it (R52); a rewrite that waits is made first. -/
def State.retentionCheck (s0 : State) : State :=
  let s := s0.retFlush
  let bs := s.saf.retBytes
  let s := s.setF F.SAF_STAT_ret_err 0
  if retOk bs then
    let flags := fieldAt bs 4 1
    let s := { s with ctl := { s.ctl with retValid := true }
                      saf := { s.saf with lockout := bitOf flags 0
                                          confirmed := if bitOf flags 1 then some (fieldAt bs 8 4) else none
                                          histNext := fieldAt bs 5 1 % 8
                                          history := (upto 8).map (fun h => (bs.drop (16 + 16 * h)).take 16)
                                          retDirty := false } }
    s.wr R.SAF_FAULT_HIST (fieldAt bs 12 4)
  else
    let s := { s with ctl := { s.ctl with retValid := false }
                      saf := { s.saf with lockout := true, confirmed := none, histNext := 0,
                                          history := List.replicate 8 (List.replicate 16 0), retDirty := false } }
    s.wr R.SAF_FAULT_HIST 0

def execRetentionWrite (s : State) : Host.Outcome State Fault Refusal := .next s.retFlush

/-- The readback of every 1 ms, counted from the one before: `bytes` is what the storage holds, which comes from outside (R333). -/
def execRetentionReadback (bytes : List Byte) (s : State) : Host.Outcome State Fault Refusal :=
  if s.awake then
    let s := s.advanceCyc (s.saf.readAt + cycPerMs)
    let s := { s with saf := { s.saf with retBytes := bytes, readAt := s.cyc } }
    .next (if retOk bytes then s else if s.fb F.SAF_STAT_ret_err then s else (s.setF F.SAF_STAT_ret_err 1).raise .retErr 0 0 0)
  else .next s

/-! ### Requests (R48, R49) -/

/-- A request is refused (R48). -/
def State.refuseMode (s : State) (target reason : Nat) : State :=
  ((s.setF F.GLB_MODE_LOG_refuse_reason reason).setF F.GLB_MODE_LOG_refused_target target).raise .modeRefused target reason 0

/-! ### muster_done (R55) -/

/-- The conditions of muster_done (R55). -/
def State.musterOk (s : State) : Bool :=
  let up := s.lanesInUse.filter (fun l => s.laneState l == laneUp)
  s.lanesInUse.all (fun l => s.laneState l == laneUp || s.laneState l == laneDead)
    && up.all (fun l => (s.lane l).timingOk && s.f (F.NCL_LSTAT_disc_step l) == 5)
    && up.all (fun l => (s.laneCells l).all (fun c => !(s.cell c).found || (s.cell c).record.any CapRec.compatible))
    && s.enabledArms.all (fun a => decide (s.f (F.GLB_ARM_CFG_n_required a) ≤ s.nAvailable a))
    && !s.inputAsserted

/-- muster_done, which falls in MUSTER with any of its conditions (R55). -/
def State.musterDone (s : State) : Bool := s.ctl.musterDone && (s.mode != .muster || s.musterOk)

/-- muster_done returns to 0 in MUSTER with a condition that has ceased to hold (R55). -/
def State.musterLapse (s : State) : State :=
  if s.ctl.musterDone && !s.musterDone then { s with ctl := { s.ctl with musterDone := false } } else s

/-! ### Mode changes (R50) -/

/-- The mode changes from `old`: log, event, scheduler event MODE, and the pins that follow the mode. A change to another mode than
SAFE-BLOCK ends the safety path's hold on the PWM pins (R43). -/
def State.setModeFrom (s : State) (old dest : Mode) (cause : Nat) : State :=
  let s := s.wr R.GLB_MODE_LOG
    (setBits (s.rd R.GLB_MODE_LOG) 15 0 (modeCode old + modeCode dest * 16 + cause * 256))
  let s := if old == .muster then { s.dropDiscovery with ctl := { s.ctl with musterDone := s.musterDone } } else s
  let s := { s with mode := dest, pwmIo := { s.pwmIo with safeHiZ := s.pwmIo.safeHiZ && dest == Mode.safeBlock } }
  let s := s.raise .modeChange (modeCode dest) cause (modeCode old)
  s.updateDrive.schedEvent 0x08

/-- The mode changes. -/
def State.setMode (s : State) (dest : Mode) (cause : Nat) : State := s.setModeFrom s.mode dest cause

/-- The interlock output takes a level: 0 off, 1 IDLE, 2 HOLD (R335, R201). -/
def State.setDrive (s : State) (v : Nat) : State := (s.setF F.RED_STAT_drive v).updateDrive

/-- The injection generator of an engine stops: its sample is 0 (R235). -/
def State.injStop (s : State) (e : Nat) : State :=
  (s.setF (F.ENG_INJ_STAT_running e) 0).setF (F.ENG_INJ_STAT_sample e) 0

def canNormal : Nat := 0
def canRestricted : Nat := 1
def canLoopback : Nat := 2

/-- On leaving DIAGNOSTIC every LOOPBACK becomes NORMAL (R433). -/
def State.canLeaveDiag (s : State) : State :=
  s.forEach [0, 1] (fun s k =>
    if s.f (F.CAN_CFG_mode k) = canLoopback then
      let s := s.setF (F.CAN_CFG_mode k) canNormal
      if s.f (F.CAN_STAT_state k) ≥ 2 then s.modCan k (fun c => { c with mode := canNormal }) else s
    else s)

/-! ### The pair signature and the check value (R331, R360) -/

/-- The 144 words of the safety parameter block (R331). -/
def State.safetyBlock (s : State) : List Nat :=
  [0x31464153, s.rd R.GLB_PERIOD] ++ (upto 12).map (fun a => s.rd (R.GLB_ARM_CFG a))
    ++ (upto 48).map (fun l => s.rd (R.GLB_LANE_MAP l)) ++ [s.rd R.NCL_GCFG, s.rd R.SCH_CFG]
    ++ (upto 24).map (fun c => s.rd (R.ADC_CH_CFG c))
    ++ (upto 24).flatMap (fun c => [s.rd (R.ADC_LIM c 0), s.rd (R.ADC_LIM c 1)])
    ++ (upto 4).map (fun i => s.rd (R.SAF_IN_CFG i))
    ++ [s.rd R.SAF_TEST_CFG, s.rd R.SAF_TM_MASK0, s.rd R.SAF_TM_MASK1, s.rd R.WIN_CFG]

/-- The check value (R331). -/
def State.checkValue (s : State) : Nat := crc32c (s.safetyBlock.flatMap (leBytes 4))

/-- The pair signature (R360): side counts as 0. -/
def State.pairSignature (s : State) : Nat :=
  let words := (s.setF F.NCL_GCFG_side 0).safetyBlock
    ++ [s.rd R.GLB_GATHER_DEADLINE, s.rd R.GLB_ORDER_OFFSET, s.rd R.GLB_EDGE_OFFSET,
        s.rd R.GLB_ORIGIN_NS, s.rd R.GLB_ORIGIN_SEC_LO, s.rd R.GLB_ORIGIN_SEC_HI,
        s.rd R.GLB_PRECHARGE_CFG, s.rd R.NCL_CELL_LIMIT, s.rd R.WIN_TALLY_CFG, s.rd R.WIN_DRIFT]
    ++ (upto 12).map (fun a => s.rd (R.WIN_ARM_CFG a)) ++ (upto 12).map (fun a => s.rd (R.WIN_ARM_PEN a))
    ++ [s.rd R.EDG_CFG, s.rd R.EDG_OC_CFG, s.rd R.RED_CFG, s.rd R.RED_TIMING, s.rd R.RED_ASYM, s.rd R.GLB_IMAGE_VER]
  crc32c (words.flatMap (leBytes 4))

/-- The device leaves CONFIGURE: its signature is computed (R360). -/
def State.showSignature (s : State) : State := s.wr R.RED_SIG s.pairSignature

/-- The device leaves CONFIGURE (R165, R360): units are assigned, and a move is reported as a clamp of origin 4. -/
def State.leaveConfigure (s : State) : State :=
  (s.assignUnits (fun s a asked used => s.raiseClamp 4 (R.WIN_ARM_CFG a) (F.WIN_ARM_CFG_unit a).lo asked used)).showSignature

/-- Every engine takes a state in which it runs nothing. -/
def State.enginesTo (s : State) (v : Nat) : State := s.forEach allEngines (fun s e => s.freeEngine e v)

/-- The period sequencer runs in SAFE-BLOCK, and the engines with it (R43): both start where they were stopped. -/
def State.runInSafeBlock (s : State) : State :=
  let s := if s.seq.running || s.seq.startPend then { s with seq := { s.seq with stopPend := false } }
    else { s with seq := { s.seq with startPend := true, next := s.firstBoundary } }
  s.forEach allEngines (fun s e => if s.engState e = engHalted then s.freeEngine e engIdle else s)

/-- The device enters SAFE-BLOCK (R50, R169, R235): origin, lockout latch, units at rest, injection off. What ends with CONFIGURE or DIAGNOSTIC ends here
too (R165, R360, R433). -/
def State.enterSafeBlock (s : State) (cause cls : Nat) (fatal : Bool) : State :=
  let s := if s.mode == .diagnostic then s.canLeaveDiag else s
  let s := if s.mode == .configure then s.leaveConfigure else s
  let s := s.runInSafeBlock
  let s := { s with origin := s.mode
                    ctl := { s.ctl with fatal := fatal, pendMatch := none, checkBusy := false, blockedAt := some s.cyc }
                    saf := { s.saf with lockout := true, blockClass := cls } }
  let s := s.clearSelections.retChanged.setF F.GLB_DIAG_CTL_seq_run 0
  let s := s.forEach allEngines (fun s e => (s.setF (F.ENG_INJ_CTL_inj_en e) 0).injStop e)
  let s := (s.setMode .safeBlock cause).recTrigger trigSafety s.stampNs
  s.schedEvent 0x07

/-! ### Triggers and reactions (R321 to R324) -/

/-- BLOCK class, cause code and fault-history bit of a trigger by its order in R321. -/
def trigClass (order : Nat) : Nat := if order = 1 then 1 else if order ≤ 4 then 2 else 3

def trigCause (order : Nat) : Nat :=
  if order = 1 then 0x07 else if order = 2 then 0x11 else if order = 3 then 0x08 else if order = 4 then 0x09
  else if order = 5 then 0x0A else 0x0B

def trigHist (order : Nat) : Fld :=
  if order = 1 then F.SAF_FAULT_HIST_safety_input else if order = 2 then F.SAF_FAULT_HIST_trip_matrix
  else if order = 3 then F.SAF_FAULT_HIST_arm_low else if order = 4 then F.SAF_FAULT_HIST_overrun
  else if order = 5 then F.SAF_FAULT_HIST_clock_fault else F.SAF_FAULT_HIST_fatal

/-- The trigger made in the present cycle, none where there is none. -/
def State.trigNow (s : State) : Option TrigNote := s.saf.trig.filter (fun g => g.cyc == s.cyc)

/-- A trigger of an order enters SAFE-BLOCK from a mode (R321). -/
def tripEnters (order : Nat) (m : Mode) : Bool :=
  if order = 1 then m.controls || m == .diagnostic
  else if order ≤ 4 then m.controls
  else m.fromConfigure && m != .safeBlock

/-- The history entry of a trigger (R333). -/
def State.tripEntry (s : State) (order detail : Nat) (m : Mode) : List Byte :=
  leBytes 8 (timeWord s.stampNs) ++ leBytes 1 (trigCause order) ++ leBytes 1 (modeCode m) ++ leBytes 1 (trigClass order)
    ++ leBytes 1 detail ++ leBytes 4 s.periodNum

/-- SAF_TRIP_INFO of a trigger. -/
def tripInfo (order detail : Nat) (m : Mode) : Nat := modeCode m + trigClass order * 16 + trigCause order * 256 + detail * 2 ^ 16

/-- The trigger is recorded: stamp, information, event, fault-history word and history entry (R322, R333, R334). -/
def State.recordTrip (s : State) (order detail : Nat) : State :=
  let t := timeWord s.stampNs
  let note : TrigNote := { cyc := s.cyc, order := order, detail := detail, hist := s.saf.histNext, seq := s.evSeq % 2 ^ 32,
                           modeSeq := none, mode := s.mode, was := s.fb (trigHist order) }
  let s := (s.wr R.SAF_TRIP_TS_LO (t % 2 ^ 32)).wr R.SAF_TRIP_TS_HI (t / 2 ^ 32)
  let s := s.wr R.SAF_TRIP_INFO (tripInfo order detail s.mode)
  let s := s.raise .safeTrip detail (trigCause order) (trigClass order)
  let s := { s with saf := { s.saf with history := lset s.saf.history s.saf.histNext (s.tripEntry order detail s.mode)
                                        histNext := (s.saf.histNext + 1) % 8, trig := some note } }
  (s.bumpF F.SAF_FAULT_HIST_trip_count 1).faultHist (trigHist order)

/-- A source that comes first in R321 joins the trigger of its cycle: the record names it (R315). -/
def State.amendTrip (s : State) (g : TrigNote) (order detail : Nat) : State :=
  let s := s.wr R.SAF_TRIP_INFO (tripInfo order detail g.mode)
  let s := s.amendEvent g.seq (s.stdPayload detail (trigCause order) (trigClass order))
  let s := if g.was || trigHist order == trigHist g.order then s else s.setF (trigHist g.order) 0
  let was := s.fb (trigHist order)
  let s := { s with saf := { s.saf with history := lset s.saf.history g.hist (s.tripEntry order detail g.mode)
                                        trig := some { g with order := order, detail := detail, was := was } } }
  let s := s.faultHist (trigHist order)
  match g.modeSeq with
  | none => s
  | some k =>
    if tripEnters order g.mode then
      let s := (s.setF F.GLB_MODE_LOG_cause (trigCause order)).amendEvent k
        (s.stdPayload (modeCode .safeBlock) (trigCause order) (modeCode g.mode))
      { s with saf := { s.saf with blockClass := trigClass order } }
    else s

/-- The hardware reaction: PWM pins, BLOCK sets and the ORDER frame in progress (R322, R324, R140). -/
def State.blockReaction (s : State) (cls : Nat) : State :=
  let s := s.pwmHiZ
  let s := { s with pwmIo := { s.pwmIo with safeHiZ := true } }
  (s.diagRestore.sendBlocks cls).cutOrders

/-- The reaction to a trigger, after the holder's release at a class 0x3 trigger (R342). -/
def State.reaction (s : State) (cls : Nat) : State :=
  (if cls = 3 ∧ s.holder ∧ s.fb F.RED_STAT_partner_in_step then s.setDrive 1 else s).blockReaction cls

/-- What a mode entry may change, as it stands (R49). -/
def State.undoOf (s : State) : Undo :=
  { seq := s.seq, boot := s.boot, regs := s.regs, lanes := s.lanes, cells := s.cells, arms := s.arms, units := s.units, plan := s.plan
    engines := s.engines, tasks := s.tasks, sched := s.sched, adc := s.adc, fr := s.fr, saf := s.saf, can := s.can, pair := s.pair }

/-- Entry to the mode stops work, or begins with more than its number (R43, R45). -/
def Mode.restarts : Mode → Bool
  | .boot | .configure | .commission | .diagnostic => true
  | _ => false

/-- The effects of a mode entry are taken back: all that an entry which stops work has changed, and a join that SHADOW has opened. -/
def State.undoEntry (s : State) (new : Mode) : State :=
  match s.undo with
  | none => s
  | some u =>
    if new.restarts then
      { s with seq := u.seq, boot := u.boot, regs := u.regs, lanes := u.lanes, cells := u.cells, arms := u.arms, units := u.units
               plan := u.plan, engines := u.engines, tasks := u.tasks, sched := u.sched, adc := u.adc, fr := u.fr, saf := u.saf
               can := u.can, pair := u.pair, undo := none }
    else if new == .shadow then
      { s with pair := { s.pair with joinOpen := u.pair.joinOpen, adopted := u.pair.adopted, joinData := u.pair.joinData }
               undo := none }
    else { s with undo := none }

/-- A request that was accepted in the cycle of a trigger is refused after all, where the trigger enters SAFE-BLOCK from the mode before
it or from the one it led to (R49): the mode change is taken back, with what the entry did (log entry 72). -/
def State.withdrawEval (s : State) (enters : Mode → Bool) : State :=
  match s.ctl.evald with
  | none => s
  | some g =>
    if g.cyc = s.cyc ∧ s.mode = g.new ∧ (enters g.old || enters g.new) = true then
      let s := s.undoEntry g.new
      let s := ({ s with mode := g.old, ctl := { s.ctl with evald := none } }).withdrawEvent g.seq
      (s.wr R.GLB_MODE_LOG g.log).refuseMode g.target 8
    else s

/-- The device enters SAFE-BLOCK from a mode for a cause that is no trigger of R321 (R51, R57): the class of its BLOCK sets is a free
value. -/
def State.blockWith (s0 : State) (from_ : Mode) (cause : Nat) : State :=
  let s := s0.withdrawEval (· == from_)
  if s0.mode == from_ || s.mode == from_ then
    let fv := s.free
    let cls := 1 + fv.1 % 3
    (fv.2.blockReaction cls).enterSafeBlock cause cls false
  else s

/-- SAFE-BLOCK is entered by a trigger of an order. -/
def State.tripBlock (s : State) (order : Nat) : State :=
  let k := s.evSeq % 2 ^ 32
  let s := s.enterSafeBlock (trigCause order) (trigClass order) (order ≥ 5)
  let s := { s with saf := { s.saf with trig := s.saf.trig.map (fun g => { g with modeSeq := some k }) } }
  if order ≥ 5 then s.stopForFatal else s

/-- A trigger of the safety path (R321 to R323): the reactions, the record, and SAFE-BLOCK where its order enters it. A source that
comes in the cycle of another joins its trigger (R315): the record names the first in the order of R321. -/
def State.trip (s0 : State) (order detail : Nat) : State :=
  let s := s0.withdrawEval (tripEnters order)
  let enters := tripEnters order s0.mode || tripEnters order s.mode
  match s.trigNow with
  | none =>
    let s := { s with fr := { s.fr with safeTrig := true } }
    let s := (s.reaction (trigClass order)).recordTrip order detail
    if enters then s.tripBlock order else s.recTrigger trigSafety s.stampNs
  | some g =>
    let first := decide (order < g.order) || (order == g.order && decide (detail < g.detail))
    let s := if trigClass order = 3 then s.reaction 3 else s
    let s := if first then (s.sendBlocks (trigClass order)).amendTrip g order detail else s
    if enters then s.tripBlock order else s

/-- A fatal error (R229, R256), of an engine or none (0xFF), its code and pc, which the dump record names (R398). In SAFE-BLOCK already, the
reactions are made, the flag is set and the engines are stopped; in BOOT the device stays there with the reactions made (R45,
R323). -/
def State.fatalError (s : State) (order eng code pc : Nat) : State :=
  if s.mode == .safeBlock && s.ctl.fatal then s.trip order 0
  else
    let s := { s with hif := { s.hif with fatalEng := eng, fatalCode := code, fatalPc := pc, fatalAt := s.stampNs, fatalPeriod := s.periodNum,
                                          stageDue := true, fatalMode := modeCode s.mode } }
    if s.mode == .safeBlock then
      let s := s.trip order 0
      ({ s with ctl := { s.ctl with fatal := true } }).stopForFatal
    else s.trip order 0

/-- The consecutive-overrun limit was reached (R254): the trip is made in that cycle. -/
def State.overrunTrip (s : State) : State :=
  if s.sched.limitHit then
    let s := { s with sched := { s.sched with limitHit := false } }
    if s.mode.controls then s.trip 4 0 else s
  else s

/-- A scheduler event occurs, with the trip that an overrun limit it reaches makes. -/
def State.occur (s : State) (evt : Nat) : State := (s.schedEvent evt).overrunTrip

/-! ### Safety inputs (R314, R315) -/

/-- The SAFE_TRIP pins read as given, bit layout of in_now. A pair that begins to disagree, or agrees again, is noted but in its test
window (R317). -/
def State.setPins (s : State) (pins : Nat) : State :=
  let s := s.setF F.SAF_STAT_in_now pins
  { s with saf := { s.saf with discFrom := (upto 4).map (fun i =>
      let from_ := s.saf.discFrom.getD i none
      if bitOf s.saf.window i || bitOf s.saf.window (i + 4) then from_
      else if bitOf pins i == bitOf pins (i + 4) then none
      else if from_.isSome then from_ else some s.cyc) } }

/-- Channels qualify together: latches set, one trigger, recorded with the lowest bit (R315). -/
def State.latchChannels (s : State) (chs : List Nat) : State :=
  let new := chs.filter (fun ch => !bitOf (s.f F.SAF_LATCH_in_latch) ch)
  match new with
  | [] => s
  | ch :: _ =>
    let mask := (new.map (fun c => 2 ^ c)).sum
    (s.orF F.SAF_LATCH_in_latch mask).trip 1 ch

end Sys2Proof.Machine
end

