-- ==== Sys2Proof/Machine/HostOps.lean ====
section
/-! DEFINITION. The host interface (R367 to R395): doorbells, MSI-X, ownership, rings, events and telemetry. -/

namespace Sys2Proof.Machine

def State.modHif (s : State) (g : Hif → Hif) : State := { s with hif := g s.hif }

/-! ### Doorbells and vectors (R378, R380) -/

def State.doorbell (s : State) (p off : Nat) : Nat := tget 0 s.hif.db (p * 65536 + off)
def State.setDoorbell (s : State) (p off v : Nat) : State :=
  s.modHif (fun h => { h with db := tput 0 h.db (p * 65536 + off) (v % 2 ^ 32) })

/-- The 32-bit word a read of BAR4 returns at an offset (R378): the last value written to a doorbell. -/
def State.bar4Word (s : State) (p off : Nat) : Nat := s.doorbell p off

/-- PCI configuration values of the device (R367): device ID, class code, and the places of the MSI-X table and pending-bit array in BAR4. -/
def pciDeviceId : Nat := 0x4860
def pciClassCode : Nat := 0x118000
def msixTableAt : Nat := 0xE000
def msixPendingAt : Nat := 0xE800

/-- The link of a port is up. -/
def State.linkUp (s : State) (p : Nat) : Bool := s.fb (F.HIF_PORT_STAT_link_up p)

/-- A port raises an MSI-X vector; a port whose link is down sends nothing. -/
def State.msix (s : State) (p v : Nat) : State :=
  if s.linkUp p then s.modHif (fun h => { h with msix := tput 0 h.msix (p * 64 + v) (tget 0 h.msix (p * 64 + v) + 1) }) else s

/-! ### Ownership (R371 to R374, R479) -/

def noOwner : Nat := 3
/-- The owner by which accesses are judged and that HIF_OWN_STAT shows: a claim that found no owner makes its master the owner from the
cycle after it (R371). -/
def State.owner (s : State) : Nat :=
  if s.hif.freeClaim.any (fun x => x.cyc == s.cyc) then noOwner else s.f F.HIF_OWN_STAT_owner
def State.isOwner (s : State) (m : Master) : Bool := s.owner == masterNum m

/-- The owner changes (R479): counted, reported, and vector 32 on every port. -/
def State.ownChange (s : State) (new cause : Nat) : State :=
  let old := s.f F.HIF_OWN_STAT_owner
  let s := (s.setF F.HIF_OWN_STAT_owner new).setF F.HIF_OWN_STAT_last_cause cause
  let s := s.setF F.HIF_OWN_STAT_changes (s.f F.HIF_OWN_STAT_changes + 1)
  let s := s.modHif (fun h => { h with leaseFrom := s.cyc, freeClaim := none })
  let s := s.raise .ownChange new old cause
  (s.msix 0 32).msix 1 32

/-- x wins a tie against y (R372, R406): the lower number, but for the one that lost their last tie. -/
def tieBeats (wins : List (Nat × Nat)) (x y : Nat) : Bool := wins.contains (x, y) || (decide (x < y) && !wins.contains (y, x))

/-- m has won a tie: each loser wins the next tie against it (R372, R406). -/
def tieMemory (wins : List (Nat × Nat)) (m : Nat) (losers : List Nat) : List (Nat × Nat) :=
  losers.map (fun k => (k, m)) ++ wins.filter (fun p => !((losers.contains p.1 && p.2 == m) || (losers.contains p.2 && p.1 == m)))

/-- The winner of claims that tie: the one that beats every other; where none does, the lowest-numbered (R372). -/
def tieWinner (wins : List (Nat × Nat)) (ms : List Nat) : Option Nat :=
  match ms.find? (fun m => ms.all (fun k => k == m || tieBeats wins m k)) with
  | some m => some m
  | none => ms.head?

/-- The winner of the pending claims. -/
def State.claimWinner (s : State) : Option Nat := tieWinner s.hif.tieWins ((upto 3).filter (bitOf (s.f F.HIF_OWN_STAT_claim_pend)))

/-- Master m has won a tie against other claims. -/
def State.tieWon (s : State) (m : Nat) (losers : List Nat) : State :=
  s.modHif (fun h => { h with tieWins := tieMemory h.tieWins m losers })

/-- Ownership is free: a pending claim wins (R372, R479). -/
def State.resolveClaims (s : State) : State :=
  match s.claimWinner with
  | none => s
  | some m =>
    let pend := s.f F.HIF_OWN_STAT_claim_pend
    let s := s.tieWon m ((upto 3).filter (fun k => k != m && bitOf pend k))
    (s.setF F.HIF_OWN_STAT_claim_pend (setBits pend m m 0)).ownChange m 0

/-- A claim that waits (R371). -/
def State.claimPend (s : State) (m : Nat) : State :=
  let pend := s.f F.HIF_OWN_STAT_claim_pend
  if bitOf pend m then s else (s.setF F.HIF_OWN_STAT_claim_pend (setBits pend m m 1)).raiseFrom .ownRequest (0x20 + m) m 0 0

/-- A claim that finds no owner makes its master the owner from the next cycle on, and the change is that cycle's (R371, R479): OWN_CHANGE
carries its instant, and the lease runs from it (R374). -/
def State.claimFree (s : State) (m : Nat) : State :=
  let time := BitVec.ofNat 64 (timeWord s.coreTick.stampNs)
  let t := s.ownChange m 0
  { t with events := t.events.map (fun e => if e.seq = s.evSeq % 2 ^ 32 then { e with time := time } else e)
           hif := { t.hif with
             leaseFrom := s.cyc + 1
             freeClaim := some { cyc := s.cyc, seq := s.evSeq % 2 ^ 32, masters := [m], wins := s.hif.tieWins,
                                 shown := s.rd R.HIF_OWN_STAT, asked := [] } } }

/-- A pending claim is taken back, its OWN_REQUEST of number `k` with it. -/
def State.claimBack (s : State) (m k : Nat) : State :=
  (s.setF F.HIF_OWN_STAT_claim_pend (setBits (s.f F.HIF_OWN_STAT_claim_pend) m m 0)).withdrawEvent k

/-- Master m claims in the cycle in which others' claims found no owner: all of them tie by the tie memory of before, whatever their
order, and the losers' claims wait (R371, R372). -/
def State.claimTie (s : State) (m : Nat) (x : FreeClaim) : State :=
  let ms := (upto 3).filter (fun k => k == m || x.masters.contains k)
  match tieWinner x.wins ms with
  | none => s
  | some w =>
    let losers := ms.filter (· != w)
    let back := x.asked.filter (fun p => p.1 == w)
    let s := (s.setF F.HIF_OWN_STAT_owner w).amendEvent x.seq (s.stdPayload w noOwner 0)
    let s := back.foldl (fun s p => s.claimBack p.1 p.2) s
    let asked := x.asked.filter (fun p => p.1 != w)
    let new := losers.filter (fun k => !asked.any (fun p => p.1 == k))
    let first := s.evSeq
    let s := s.forEach new State.claimPend
    s.modHif (fun h => { h with
      tieWins := tieMemory x.wins w losers
      freeClaim := some { x with masters := ms, asked := asked ++ new.mapIdx (fun i k => (k, (first + i) % 2 ^ 32)) } })

/-- A master claims ownership (R371). -/
def State.claim (s : State) (m : Nat) : State :=
  let o := s.f F.HIF_OWN_STAT_owner
  if o = noOwner then s.claimFree m
  else match s.hif.freeClaim with
    | some x => if x.cyc = s.cyc then (if x.masters.contains m then s else s.claimTie m x) else if o = m then s else s.claimPend m
    | none => if o = m then s else s.claimPend m

/-- Ownership lapses (R374): OWN_LOST, then the change, then the pending claims. -/
def State.ownLapse (s : State) (why : Nat) : State :=
  let o := s.f F.HIF_OWN_STAT_owner
  if o = noOwner then s
  else
    let s := s.raise .ownLost o why 0
    let s := s.modHif (fun h => { h with handover := none })
    (s.ownChange noOwner 3).resolveClaims

/-- A keepalive of the owner (R374). -/
def State.keepalive (s : State) (m : Nat) : State :=
  if s.owner = m then s.modHif (fun h => { h with leaseFrom := s.cyc }) else s

/-- HIF_OWN_CTL.go is written by the owner (R373). -/
def State.ownGo (s : State) : State :=
  let dest := s.f F.HIF_OWN_CTL_to
  if s.hif.handover.isSome then s
  else if dest ≠ 3 ∧ !bitOf (s.f F.HIF_OWN_STAT_claim_pend) dest then s.mark F.HIF_OWN_STAT_own_refused
  else s.modHif (fun h => { h with handover := some dest })

/-! ### Rings (R376, R377) -/

def ringCmd : Nat := 0
def ringEvent : Nat := 1
def ringTel : Nat := 2
def ringDump : Nat := 3
def ringStatus : Nat := 4

/-- The key of ring r of a port, and of the telemetry ring of an arm. -/
def ringKey (p r : Nat) : Nat := p * 32 + r
def telKey (p a : Nat) : Nat := p * 32 + 8 + a

def State.ring (s : State) (k : Nat) : Ring := tget Ring.reset s.hif.rings k
def State.setRing (s : State) (k : Nat) (v : Ring) : State :=
  s.modHif (fun h => { h with rings := tput Ring.reset h.rings k v })

def State.ringOn (s : State) (p r : Nat) : Bool := s.fb (F.HIF_RING_CFG_en p r) && s.linkUp p
def State.ringEntries (s : State) (p r : Nat) : Nat := 2 ^ s.f (F.HIF_RING_CFG_log2_len p r)
def State.ringBase (s : State) (p r : Nat) : Nat :=
  s.f (F.HIF_RING_BASE_LO_base p r) * 4096 + s.f (F.HIF_RING_BASE_HI_base p r) * 2 ^ 32

/-- The BAR4 offset of a ring's doorbell (R378). -/
def ringDoorbell (r a : Nat) : Nat := if r = ringCmd then 0 else if r = ringEvent then 0x8 else if r = ringTel then 0x10 + a * 8 else 0x80

/-- The range of log2_len of R376 for ring r. -/
def ringLen (r : Nat) : Nat × Nat :=
  if r = 0 then (4, 12) else if r = 1 then (6, 16) else if r = 2 then (2, 10) else if r = 3 then (0, 4) else (0, 0)

/-- The range of elem of R376 for ring r. -/
def ringElem (r : Nat) : Nat × Nat := if r = 2 then (1, 32) else if r = 3 then (1, 1024) else (0, 0)

/-- An index of a port has changed: its status block is due (R379). -/
def State.statusDue (s : State) (p : Nat) : State :=
  if s.ringOn p ringStatus then s.modHif (fun h => { h with statusDue := lset h.statusDue p true }) else s

/-- A device-produced ring moves on past an element (R377). -/
def State.ringAdvance (s : State) (p r key : Nat) : State :=
  let x := s.ring key
  let i := (x.idx + 1) % s.ringEntries p r
  let s := s.setRing key { x with idx := i, phase := if i = 0 then !x.phase else x.phase, lost := false }
  (if r = ringTel then s else s.setF (F.HIF_RING_STAT_dev_idx p r) i).statusDue p

/-- A ring is full (R377). -/
def State.ringFull (s : State) (p r key : Nat) : Bool := (((s.ring key).idx + 1) % s.ringEntries p r) == (s.ring key).host

/-- en of a ring changes from 0 to 1: its own index is 0, its phase 1, and the host's index is taken as 0 (R377). -/
def State.ringEnabled (s : State) (p r : Nat) : State :=
  let s := s.setF (F.HIF_RING_STAT_dev_idx p r) 0
  if r = ringTel then (s.forEach (upto 12) (fun s a => s.setRing (telKey p a) Ring.reset)).statusDue p
  else if r = ringStatus then s
  else (s.setRing (ringKey p r) Ring.reset).statusDue p

/-! ### Events (R388 to R390) -/

/-- An event goes to the event ring of a port, or is dropped there (R390). -/
def State.eventToRing (s : State) (p : Nat) (e : Event) : State :=
  if !s.ringOn p ringEvent then s
  else
    let k := ringKey p ringEvent
    let x := s.ring k
    if s.ringFull p ringEvent k then
      (s.bumpF (F.HIF_RING_STAT_drop p ringEvent) 1).setRing k { x with lost := true }
    else
      let s := s.hostWrite p (s.ringBase p ringEvent + x.idx * 32) (e.bytes (b2n x.lost + b2n x.phase * 128))
      let s := s.ringAdvance p ringEvent k
      let n := s.hif.unsignalled.getD p 0 + 1
      if n ≥ s.f F.HIF_CFG_ev_count then (s.modHif (fun h => { h with unsignalled := lset h.unsignalled p 0 })).msix p 0
      else s.modHif (fun h => { h with unsignalled := lset h.unsignalled p n
                                       firstAt := if n = 1 then lset h.firstAt p s.cyc else h.firstAt })

/-- The oldest raised event is written to every enabled event ring and to every EVENT silo; `lost` names the silos whose entry
granary arbitration loses (R289). -/
def execEventWrite (lost : BitVec 4) (s : State) : Host.Outcome State Fault Refusal :=
  match s.events with
  | [] => .next s
  | e :: rest =>
    let s := { s with events := rest }
    .next (((s.eventToRing 0 e).eventToRing 1 e).recEvent e lost.toNat).overrunTrip

/-- ev_time has passed since the first unsignalled entry of a port (R380). -/
def execEventVectorTimeout (p : Fin 2) (s : State) : Host.Outcome State Fault Refusal :=
  .next (if s.hif.unsignalled.getD p 0 > 0 then
    let s := s.advanceCyc (s.hif.firstAt.getD p 0 + s.f F.HIF_CFG_ev_time * cycPerUs)
    (s.modHif (fun h => { h with unsignalled := lset h.unsignalled p 0 })).msix p 0 else s)

/-- The status block of a port (R379). -/
def State.statusBlock (s : State) (p : Nat) : List Byte :=
  leBytes 2 (s.ring (ringKey p ringCmd)).idx ++ leBytes 2 (s.ring (ringKey p ringEvent)).idx
    ++ leBytes 2 (s.ring (ringKey p ringDump)).idx ++ leBytes 2 0
    ++ ((upto 12).flatMap (fun a => leBytes 2 (s.ring (telKey p a)).idx)) ++ leBytes 8 (timeWord s.now.ns) ++ leBytes 24 0

def execStatusBlockWrite (p : Fin 2) (s : State) : Host.Outcome State Fault Refusal :=
  .next (if s.hif.statusDue.getD p false ∧ s.ringOn p ringStatus then
    (s.hostWrite p (s.ringBase p ringStatus) (s.statusBlock p)).modHif (fun h => { h with statusDue := lset h.statusDue p false })
    else s)

/-- A doorbell value at or above entries is discarded (R377). -/
def State.dbRefused (s : State) (p off : Nat) : State := s.raise .dbRefused p 0 off

/-- A doorbell of a ring: the host's index. -/
def State.headDoorbell (s : State) (p r a v : Nat) : State :=
  let off := ringDoorbell r a
  let k := if r = ringTel then telKey p a else ringKey p r
  if !s.live then s
  else
    let s := s.setDoorbell p off v
    if v ≥ s.ringEntries p r then s.dbRefused p off else s.setRing k { s.ring k with host := v }

def execEventHeadDoorbell (p : Fin 2) (v : W32) (s : State) : Host.Outcome State Fault Refusal :=
  .next (s.headDoorbell p ringEvent 0 v.toNat)

def execTelHeadDoorbell (p : Fin 2) (a : Fin 12) (v : W32) (s : State) : Host.Outcome State Fault Refusal :=
  .next (s.headDoorbell p ringTel a v.toNat)

def execDumpHeadDoorbell (p : Fin 2) (v : W32) (s : State) : Host.Outcome State Fault Refusal :=
  .next (s.headDoorbell p ringDump 0 v.toNat)

/-- A command ring tail (R377). Fetching then proceeds: each fetched entry is a command row of its kind. -/
def execCmdDoorbell (p : Fin 2) (v : W32) (s : State) : Host.Outcome State Fault Refusal :=
  .next (s.headDoorbell p ringCmd 0 v.toNat)

/-! ### Telemetry (R393 to R395) -/

/-- Arm a has a cell on lane l. -/
def State.laneHasArm (s : State) (l a : Nat) : Bool := (s.laneCells l).any (fun c => s.armOfCell c == some a)

/-- The lane block of a lane: what its frame of period n delivered (R393). -/
def State.laneBlock (s : State) (l : Nat) : List Byte :=
  let half := s.periodFull % 2
  let g := s.f F.GRN_GATHER_base * 65536
  let ok := (s.lane l).gatherOk
  let kept := bitOf (s.grnNat (g + 0xD800 + half * 0x200 + 16) 8) l
  leBytes 1 l ++ leBytes 1 (s.laneCount l) ++ leBytes 1 (b2n ok + b2n kept * 2) ++ leBytes 5 0
    ++ ((upto 64).flatMap (fun k =>
        if ok && decide (k < s.laneCount l) then s.grnRead (g + half * 0x6000 + l * 0x200 + k * 8) 8 else leBytes 8 0))
    ++ (if kept then s.grnRead (g + 0xC000 + half * 0xC00 + l * 0x40) 64 else leBytes 64 0)

/-- The words of a lane that a record copies are read; those that read as uncorrectable are reported, and used as read (R452). -/
def State.laneSee (s : State) (l : Nat) : State :=
  let half := s.periodFull % 2
  let g := s.f F.GRN_GATHER_base * 65536
  let s := if (s.lane l).gatherOk then s.grnSee reqTel (g + half * 0x6000 + l * 0x200) (8 * s.laneCount l) else s
  if bitOf (s.grnNat (g + 0xD800 + half * 0x200 + 16) 8) l then s.grnSee reqTel (g + 0xC000 + half * 0xC00 + l * 0x40) 64 else s

/-- Records of the present period go to a port (R393). -/
def State.telDue (s : State) (p : Nat) : Bool :=
  s.ringOn p ringTel && s.periodFull % max 1 (s.f (F.HIF_RING_CFG_div p ringTel)) == 0

/-- n_available of the period, whose codes are fixed (R153). -/
def State.availableNow (s : State) (a : Nat) : Nat :=
  if s.mode.countsCells && s.armEnabled a then s.nAvailable a else s.f (F.GLB_ARM_STAT_n_available a)

/-- Writing of the period's records begins (R394). -/
def State.telStart (s : State) : State :=
  s.forEach [0, 1] (fun s p =>
    if s.telDue p then
      s.forEach ((upto 12).filter (bitOf (s.f (F.HIF_TEL_ARMS_arms p)))) (fun s a =>
        let lanes := (upto 48).filter (fun l => s.laneInUse l && s.laneHasArm l a)
        let s := s.forEach lanes State.laneSee
        let head := leBytes 8 (timeWord s.pN) ++ leBytes 2 (s.availableNow a) ++ leBytes 2 (s.nInstalled a)
        let r : TelRec := { port := p, arm := a, period := s.periodFull, head := head, blocks := lanes.map s.laneBlock }
        s.modHif (fun h => { h with tel := h.tel ++ [r] }))
    else s)

/-- A telemetry record is dropped (R394, R395). -/
def State.telDrop (s : State) (r : TelRec) : State :=
  let s := s.bumpF (F.HIF_RING_STAT_drop r.port ringTel) 1
  let s := s.setRing (telKey r.port r.arm) { s.ring (telKey r.port r.arm) with lost := true }
  let k := r.port * 32 + r.arm
  if s.hif.telSeen.contains k then s
  else (s.modHif (fun h => { h with telSeen := k :: h.telSeen })).raise .telOverflow r.arm r.port
    (s.f (F.HIF_RING_STAT_drop r.port ringTel))

/-- Records of an earlier period than the one before the present one are late (R394). -/
def State.telLate (s : State) : State :=
  let late := s.hif.tel.filter (fun r => r.period < s.periodFull)
  let s := s.modHif (fun h => { h with tel := h.tel.filter (fun r => !(r.period < s.periodFull)) })
  late.foldl State.telDrop s

/-- The record of an arm on a port is written, or dropped after its last instant (R394). -/
def execTelRecordWritten (p : Fin 2) (a : Fin 12) (s : State) : Host.Outcome State Fault Refusal :=
  match s.hif.tel.find? (fun r => r.port == p.val && r.arm == a.val) with
  | none => .next s
  | some r =>
    let s := s.modHif (fun h => { h with tel := h.tel.erase r })
    let k := telKey p a
    let late := (s.boundary (r.period + 1) + s.f F.GLB_GATHER_DEADLINE_deadline_steps * 5) * 2 ^ 32 < s.nowUnits
    if !s.ringOn p ringTel then .next s
    else if late || s.ringFull p ringTel k then .next (s.telDrop r)
    else
      let x := s.ring k
      let elem := s.f (F.HIF_RING_CFG_elem p ringTel) * 1024
      let fit := min r.blocks.length ((elem - 64) / 584)
      let bytes := 64 + fit * 584
      let hdr := leBytes 4 r.period ++ leBytes 1 a ++ leBytes 1 fit
        ++ leBytes 1 (b2n x.lost + b2n (decide (fit < r.blocks.length)) * 2) ++ leBytes 1 0 ++ r.head ++ leBytes 4 bytes
        ++ leBytes 39 0 ++ leBytes 1 (b2n x.phase)
      let addr := s.ringBase p ringTel + (a.val * s.ringEntries p ringTel + x.idx) * elem
      let s := s.hostWrite p addr (hdr ++ (r.blocks.take fit).flatten)
      .next ((s.ringAdvance p ringTel k).msix p (2 + a.val))

/-! ### Ports (R367, R370) -/

/-- Every ring of a port stops: it must be enabled again. -/
def State.stopRings (s : State) (p : Nat) : State :=
  let s := s.forEach (upto 5) (fun s r => s.setF (F.HIF_RING_CFG_en p r) 0)
  s.modHif (fun h => { h with tel := h.tel.filter (fun r => r.port != p), unsignalled := lset h.unsignalled p 0,
                              statusDue := lset h.statusDue p false })

/-- Lanes of a port's link that trained `w` wide: 1, 2, 4 or 8, and no more than the port has (R367). -/
def State.portLanes (s : State) (w : Nat) : Nat :=
  let most := if s.fb F.HIF_CFG_bif then 4 else 8
  if 8 ≤ min w most then 8 else if 4 ≤ min w most then 4 else if 2 ≤ min w most then 2 else 1

/-- A port's link has trained (R3, R367). -/
def execPortLinkUp (p : Fin 2) (speed : Fin 4) (width : Fin 9) (s : State) : Host.Outcome State Fault Refusal :=
  if p.val = 1 ∧ !s.fb F.HIF_CFG_bif then .next s
  else
    .next (((s.setF (F.HIF_PORT_STAT_link_up p) 1).setF (F.HIF_PORT_STAT_speed p) (speed.val + 1)).setF
      (F.HIF_PORT_STAT_width p) (s.portLanes width))

/-! ### DMA channels (R399 to R405) -/

def State.dmaCh (s : State) (c : Nat) : DmaCh := tget DmaCh.reset s.hif.dma c
def State.modDma (s : State) (c : Nat) (g : DmaCh → DmaCh) : State :=
  s.modHif (fun h => { h with dma := tput DmaCh.reset h.dma c (g (s.dmaCh c)) })

def dmaIdle : Nat := 0
def dmaRunning : Nat := 1
def dmaHalted : Nat := 2
def dmaDisabling : Nat := 3

def State.dmaState (s : State) (c : Nat) : Nat := s.f (F.HIF_DMA_STAT_state c)

/-- DC15 is the dump channel (R396). -/
def State.dumpChannel (s : State) (c : Nat) : Bool := c == 15 && s.fb F.HIF_DUMP_CFG_dump_en

def State.dmaHead (s : State) (c : Nat) : Nat :=
  s.f (F.HIF_DMA_HEAD_LO_head c) * 32 + s.f (F.HIF_DMA_HEAD_HI_head c) * 2 ^ 32

/-- A run of a channel begins at HEAD. -/
def State.dmaRun (s : State) (c : Nat) : State :=
  let s := s.setF (F.HIF_DMA_STAT_state c) dmaRunning
  s.modDma c (fun x => { x with desc := none, nextAddr := s.dmaHead c, hops := 0 })

/-- A start on the right path (R399). A channel that is not enabled takes none. -/
def State.dmaStart (s : State) (c : Nat) : State :=
  if !s.fb (F.HIF_DMA_CTL_en c) then s
  else
    let st := s.dmaState c
    if st = dmaRunning then s.setF (F.HIF_DMA_STAT_pending c) 1
    else if st = dmaDisabling then s
    else s.dmaRun c

/-- The doorbell of a channel on a port; on a wrong path it is refused (R399). -/
def execDmaDoorbell (p : Fin 2) (c : Fin 16) (v : W32) (s : State) : Host.Outcome State Fault Refusal :=
  let off := 0x100 + c.val * 8
  if !s.live then .next s
  else
    let s := s.setDoorbell p off v.toNat
    if s.dumpChannel c || s.fb (F.HIF_DMA_CTL_eng_owned c) || s.f (F.HIF_DMA_CTL_port c) != p.val then .next (s.dbRefused p off)
    else .next (s.dmaStart c)

/-- DMAK from an engine (R228, R397): a channel assigned to it starts; DC15 as dump channel takes the kick of the FATAL task only. -/
def State.dmak (s : State) (e c : Nat) : State :=
  if s.dumpChannel c then
    if e = 0 ∧ s.f F.SCH_FATAL_fatal_state = 2 then s.modHif (fun h => { h with dumpBusy := true })
    else s.raiseFrom .dmakRefused (0x10 + e) e c 0
  else if s.fb (F.HIF_DMA_CTL_eng_owned c) ∧ s.f (F.HIF_DMA_CTL_own_eng c) = e then s.dmaStart c
  else s.raiseFrom .dmakRefused (0x10 + e) e c 0

/-- A channel halts on a descriptor that cannot be fetched (R403). -/
def State.dmaHalt (s : State) (c addr : Nat) : State :=
  let s := (s.setF (F.HIF_DMA_STAT_state c) dmaHalted).setF (F.HIF_DMA_STAT_pending c) 0
  (s.mark (F.HIF_DMA_STAT_halt c)).raise .dmaHalt c 0 addr

/-- The address shown in HIF_DMA_CUR. -/
def State.dmaCur (s : State) (c addr : Nat) : State := (s.wr (R.HIF_DMA_CUR_LO c) addr).wr (R.HIF_DMA_CUR_HI c) (addr / 2 ^ 32)

/-- A descriptor is fetched: from host memory `bytes` arrive, or the read fails (`ok` false: an error completion or a timeout); from
the granary the device reads it itself, with the outcomes `eccs` of its check (R400, R403). -/
def execDmaDescriptorFetch (c : Fin 16) (bytes : List Byte) (ok : Bool) (eccs : List Ecc) (s : State) :
    Host.Outcome State Fault Refusal :=
  let x := s.dmaCh c
  if s.dmaState c ≠ dmaRunning ∨ x.desc.isSome then .next s
  else
    let a := x.nextAddr
    let s := s.dmaCur c a
    if s.fb (F.HIF_DMA_CTL_chain_space c) then
      let r := s.grnWait.grnCheckBy reqDma a 32 eccs
      if r.1 ∨ a + 32 > grnSize then .next (r.2.dmaHalt c a)
      else .next (r.2.modDma c (fun x => { x with desc := some (r.2.grnRead a 32), hops := x.hops + 1, fetched := x.fetched + 1 }))
    else if !ok || !s.linkUp (s.f (F.HIF_DMA_CTL_port c)) then .next (s.dmaHalt c a)
    else .next (s.modDma c (fun x => { x with desc := some ((bytes ++ List.replicate 32 0).take 32), hops := x.hops + 1,
                                              fetched := x.fetched + 1 }))

/-- Why a descriptor ends without transfer (R401); none where it may run. -/
def descRefused (d : List Byte) : Option Nat :=
  let src := fieldAt d 0 8
  let dst := fieldAt d 8 8
  let len := fieldAt d 16 4
  let flags := fieldAt d 20 1
  let widths := fieldAt d 21 1
  let sw := bitsOf widths 2 0
  let dw := bitsOf widths 6 4
  let ss := bitsOf flags 1 0
  let ds := bitsOf flags 3 2
  let fits (space a : Nat) : Bool :=
    if space = 0 then decide (a + len ≤ 2 ^ 64)
    else if space = 1 then decide (a + len ≤ grnSize)
    else if space = 2 then decide (a / 2 ^ 36 = 0) && decide (bitsOf a 35 32 < 12) && decide (a % 2 ^ 32 + len ≤ dmSize)
    else false
  if !fits ss src || !fits ds dst then some 5
  else if sw > 6 ∨ dw > 6 ∨ (ss = 2 ∧ sw ≠ 2) ∨ (ds = 2 ∧ dw ≠ 2) ∨ len = 0 ∨ len > 16777216
      ∨ src % 2 ^ sw ≠ 0 ∨ len % 2 ^ sw ≠ 0 ∨ dst % 2 ^ dw ≠ 0 ∨ len % 2 ^ dw ≠ 0 then some 4
  else none

/-- `n` words that a DMA channel reads from data memory, with the outcomes of their checks. Of an uncorrectable error there the
specification gives DMA no result: the word is a free value (log entry 3). -/
def State.dmDma (s : State) (e a : Nat) : Nat → List Ecc → List Byte × State
  | 0, _ => ([], s)
  | n + 1, eccs =>
    let w := if (eccs.headD .ok).isDouble then s.free else (s.dmRead e a 4, s)
    let r := w.2.dmDma e (a + 4) n eccs.tail
    (leBytes 4 w.1 ++ r.1, r.2)

/-- The bytes a descriptor reads, at its source width, before it is stopped, and the outcome: 1 DONE, 2 BAD_BUS, 3 BAD_ECC (R402). `data` is what a host read
returned before its end or its error. -/
def State.descData (s : State) (c : Nat) (d data : List Byte) (err : Bool) (eccs : List Ecc) : List Byte × Nat × State :=
  let src := fieldAt d 0 8
  let len := fieldAt d 16 4
  let ss := bitsOf (fieldAt d 20 1) 1 0
  let sw := 2 ^ bitsOf (fieldAt d 21 1) 2 0
  if ss = 0 then
    if err ∨ data.length < len ∨ !s.linkUp (s.f (F.HIF_DMA_CTL_port c)) then (data.take (min len data.length / sw * sw), 2, s)
    else (data.take len, 1, s)
  else if ss = 1 then
    let r := s.grnWait.grnCheckBy reqDma src len eccs
    if r.1 then
      let first := (r.2.badWords src len).foldl min (src / 8 + len)
      (r.2.grnRead src (min len (first * 8 - src) / sw * sw), 3, r.2)
    else (r.2.grnRead src len, 1, r.2)
  else
    let r := (s.dmCorrected (bitsOf src 35 32) (eccs.take (len / 4))).dmDma (bitsOf src 35 32) (src % 2 ^ 32) (len / 4) eccs
    (r.1, 1, r.2)

/-- Words of four bytes written to data memory one by one, each atomic (R231). -/
def State.dmWords (s : State) (e a : Nat) : Nat → List Byte → State
  | 0, _ => s
  | n + 1, bs => if bs.isEmpty then s else (s.dmExtern e a (bs.take 4)).dmWords e (a + 4) n (bs.drop 4)

/-- Data written to a space. -/
def State.spaceWrite (s : State) (p space a : Nat) (bs : List Byte) : State :=
  if space = 0 then s.hostWrite p a bs
  else if space = 1 then s.grnWait.grnWriteB a bs
  else s.dmWords (bitsOf a 35 32) (a % 2 ^ 32) (bs.length / 4) bs

/-- What a channel writes in a cycle in which other channels wrote to the same space: the lower-numbered channel wins the tie, but for the
loser of their last one; a loser's data come after the winner's, and it is first at the next tie (R406, log entry 130). -/
def State.dmaDeliver (s : State) (c p space a : Nat) (bs : List Byte) : State :=
  let now := s.hif.dmaWrote.filter (fun x => x.cyc == s.cyc)
  let rivals := now.filter (fun x => x.ch != c && x.space == space && (space != 0 || x.port == p))
  let after := rivals.filter (fun x => tieBeats s.hif.dmaWins c x.ch && decide (x.addr < a + bs.length) && decide (a < x.addr + x.bytes.length))
  let wins := rivals.foldl (fun w x => if tieBeats s.hif.dmaWins c x.ch then tieMemory w c [x.ch] else tieMemory w x.ch [c]) s.hif.dmaWins
  let s := s.spaceWrite p space a bs
  let s := after.foldl (fun s x => s.spaceWrite x.port x.space x.addr x.bytes) s
  s.modHif (fun h => { h with dmaWins := wins
                              dmaWrote := now ++ [{ cyc := s.cyc, ch := c, space := space, port := p, addr := a, bytes := bs }] })

/-- Bytes of a 64-byte piece of a copy within one space, before it is stopped, whether it is, the state and the outcomes not used (R401,
R402). A word that the piece before it read already is not checked again. -/
def State.dmaPiece (s : State) (space src off n : Nat) (eccs : List Ecc) : List Byte × Bool × State × List Ecc :=
  let a := src + off
  if space = 1 then
    let lo := if off = 0 then a else (a + 7) / 8 * 8
    let r := s.grnCheckBy reqDma lo (a + n - lo) eccs
    let rest := eccs.drop (grnWords lo (a + n - lo)).length
    if r.1 then
      let first := (r.2.badWords lo (a + n - lo)).foldl min (a + n)
      (r.2.grnRead a (first * 8 - a), true, r.2, rest)
    else (r.2.grnRead a n, false, r.2, rest)
  else
    let e := bitsOf src 35 32
    let r := (s.dmCorrected e (eccs.take (n / 4))).dmDma e (a % 2 ^ 32) (n / 4) eccs
    (r.1, false, r.2, eccs.drop (n / 4))

/-- A copy within one space goes through the 64-byte holding register piece by piece: the device reads at most 64 bytes ahead of what it
writes (R401, log entry 129). The outcome is 1 DONE or 3 BAD_ECC. -/
def State.dmaCopy (s : State) (c p space src dst sw dw len : Nat) : Nat → Nat → List Ecc → Nat × State
  | 0, _, _ => (1, s)
  | k + 1, off, eccs =>
    let r := s.dmaPiece space src off (min 64 (len - off)) eccs
    if r.2.1 then
      let got := r.1.length / sw * sw
      (3, r.2.2.1.dmaDeliver c p space (dst + off) (r.1.take (got / dw * dw)))
    else (r.2.2.1.dmaDeliver c p space (dst + off) r.1).dmaCopy c p space src dst sw dw len k (off + 64) r.2.2.2

/-- A run ends; a pending start begins another (R399). -/
def State.dmaEndRun (s : State) (c : Nat) : State :=
  if s.fb (F.HIF_DMA_STAT_pending c) then (s.setF (F.HIF_DMA_STAT_pending c) 0).dmaRun c
  else s.setF (F.HIF_DMA_STAT_state c) dmaIdle

/-- The descriptor in progress ends (R400 to R404). -/
def State.dmaEnd (s : State) (c : Nat) (data : List Byte) (err : Bool) (eccs : List Ecc) : State :=
  let x := s.dmaCh c
  match x.desc with
  | none => s
  | some d =>
    let p := s.f (F.HIF_DMA_CTL_port c)
    let flags := fieldAt d 20 1
    let addr := x.nextAddr
    let r : Nat × State := match descRefused d with
      | some k => (k, s)
      | none =>
        let dw := 2 ^ bitsOf (fieldAt d 21 1) 6 4
        let ds := bitsOf flags 3 2
        if bitsOf flags 1 0 = ds ∧ ds ≠ 0 then
          s.grnWait.dmaCopy c p ds (fieldAt d 0 8) (fieldAt d 8 8) (2 ^ bitsOf (fieldAt d 21 1) 2 0) dw (fieldAt d 16 4)
            (ceilDiv (fieldAt d 16 4) 64) 0 eccs
        else
          let q := s.descData c d data err eccs
          let bs := if q.2.1 = 1 then q.1 else q.1.take (q.1.length / dw * dw)
          (q.2.1, q.2.2.dmaDeliver c p ds (fieldAt d 8 8) bs)
    let s := r.2
    let s := if s.fb (F.HIF_DMA_CTL_chain_space c) then s.grnWriteB (addr + 23) (leBytes 1 r.1)
      else s.hostWrite p (addr + 23) (leBytes 1 r.1)
    let s := if r.1 = 1 then s.bumpF (F.HIF_DMA_STAT_done_cnt c) 1 else s.bumpF (F.HIF_DMA_STAT_bad_cnt c) 1
    let s := if r.1 = 2 ∨ r.1 = 3 then s.raise .dmaBad c r.1 addr else s
    let s := if bitOf flags 4 then
        let s := s.raise .dmaDone c 0 addr
        if s.fb (F.HIF_DMA_CTL_eng_owned c) then s.schedEvent 0x0D else s.msix p (16 + c)
      else s
    let s := s.modDma c (fun x => { x with desc := none })
    if bitOf flags 5 then s.dmaEndRun c
    else if x.hops ≥ s.f (F.HIF_DMA_HOPS_max_hops c) then
      ((s.mark (F.HIF_DMA_STAT_loop c)).raise .dmaLoop c 0 addr).dmaEndRun c
    else s.modDma c (fun x => { x with nextAddr := fieldAt d 24 8 / 32 * 32 })

def execDmaDescriptorEnd (c : Fin 16) (data : List Byte) (err : Bool) (eccs : List Ecc) (s : State) :
    Host.Outcome State Fault Refusal :=
  .next (if s.dmaState c = dmaRunning then (s.dmaEnd c data err eccs).overrunTrip else s)

/-- The channel's work is dropped at once (R405), a copy of the dump channel with it. -/
def State.dmaDisable (s : State) (c : Nat) : State :=
  let s := if s.dumpChannel c then s.modHif (fun h => { h with dumpBusy := false }) else s
  (s.setF (F.HIF_DMA_STAT_state c) dmaDisabling).modDma c (fun x => { x with desc := none, hops := 0 })

/-- The channel reads IDLE; its counts are undefined until they are next read: two free values (R405, log entry 3). -/
def execDmaDisableDone (c : Fin 16) (s : State) : Host.Outcome State Fault Refusal :=
  if s.dmaState c = dmaDisabling then
    let a := s.free
    let b := a.2.free
    let s := ((b.2.setF (F.HIF_DMA_STAT_state c) dmaIdle).setF (F.HIF_DMA_STAT_pending c) 0)
    .next ((s.putRc (F.HIF_DMA_STAT_done_cnt c) a.1).putRc (F.HIF_DMA_STAT_bad_cnt c) b.1)
  else .next s

/-- A channel that accepts starts is bound to a port, and does not stand already (R370, log entry 131). -/
def State.dmaBound (s : State) (p c : Nat) : Bool :=
  s.fb (F.HIF_DMA_CTL_en c) && s.f (F.HIF_DMA_CTL_port c) == p && (s.dmaState c == dmaRunning || s.dmaState c == dmaIdle)

/-- A port's link goes down (R370): its claim, its rings and its channels. A channel bound to it halts as if its next fetch had failed, an
idle one at the head of its chain. -/
def State.portDown (s : State) (p : Nat) : State :=
  let s := (s.bumpF (F.HIF_PORT_STAT_down_cnt p) 1).setF (F.HIF_PORT_STAT_link_up p) 0
  let s := (s.setF (F.HIF_PORT_STAT_speed p) 0).setF (F.HIF_PORT_STAT_width p) 0
  let s := s.raise .portDown p 0 0
  let pend := s.f F.HIF_OWN_STAT_claim_pend
  let s := s.setF F.HIF_OWN_STAT_claim_pend (setBits pend p p 0)
  let s := s.stopRings p
  let s := s.forEach (upto 16) (fun s c =>
    if s.dmaBound p c then
      let a := if s.dmaState c = dmaRunning then (s.dmaCh c).nextAddr else s.dmaHead c
      ((s.dmaCur c a).modDma c (fun x => { x with desc := none })).dmaHalt c a
    else s)
  if s.f F.HIF_OWN_STAT_owner = p then s.ownLapse 0 else s

def execPortDown (p : Fin 2) (s : State) : Host.Outcome State Fault Refusal :=
  .next (if s.linkUp p then s.portDown p else s)

/-! ### Claims and leases (R371 to R374) -/

/-- The master of a port. -/
def portMaster (p : Nat) : Master := if p = 0 then .port0 else .port1

def execClaim (p : Fin 2) (v : W32) (s : State) : Host.Outcome State Fault Refusal :=
  if !s.live then .next s
  else
    let s := s.setDoorbell p 0xF000 v.toNat
    .next (if bitOf v.toNat 0 then s.claim p else s)

def execKeepalive (p : Fin 2) (v : W32) (s : State) : Host.Outcome State Fault Refusal :=
  if !s.live then .next s
  else
    let s := s.setDoorbell p 0xF004 v.toNat
    .next (if bitOf v.toNat 0 then s.keepalive p else s)

/-- A transaction of the maintenance SPI ends: whether it was discarded shows in STATUS (R375). -/
def State.mspiEnd (s : State) (discarded : Bool) : State := s.modHif (fun h => { h with mspiDiscard := discarded })

def execMspiClaim (s : State) : Host.Outcome State Fault Refusal := .next (if s.live then (s.claim 2).mspiEnd false else s)

def execMspiKeepalive (s : State) : Host.Outcome State Fault Refusal := .next (if s.live then (s.keepalive 2).mspiEnd false else s)

/-- The lease runs out (R374). -/
def execLeaseExpire (s : State) : Host.Outcome State Fault Refusal :=
  let lease := s.f F.HIF_OWN_CFG_lease_ms
  if s.f F.HIF_OWN_STAT_owner = noOwner ∨ lease = 0 then .next s
  else .next ((s.advanceCyc (s.hif.leaseFrom + lease * cycPerMs)).ownLapse 1)

end Sys2Proof.Machine
end

