-- ==== Sys2Proof/Machine/TimOps.lean ====
section
/-! DEFINITION. Correcting the timebase (R407 to R416) and the Echo Status Port (R427 to R429). -/

namespace Sys2Proof.Machine

def State.modTim (s : State) (g : Tim → Tim) : State := { s with tim := g s.tim }

/-! ### Requests (R410 to R413) -/

/-- A request is refused (R412): source, reason, and the offset in whole ns. -/
def State.timRefuse (s : State) (source reason : Nat) (ofs : Int) : State :=
  let s := (s.setF F.TIM_STAT_refuse_reason reason).mark F.TIM_STAT_step_refused
  (s.bumpF F.TIM_STEP_CNT_refused 1).raise .stepRefused source reason (twos 64 ofs)

/-- Conversions go on through a step by `d` ns: their instants are those of the new time, but for the stamp of a sample taken before
it (R414). -/
def State.adcStep (s : State) (d : Int) : State :=
  let move := fun (t : Nat) => ((t : Int) + d).toNat
  let conv := fun (c : Conv) =>
    { c with start := move c.start, stepped := if (c.start + 8) * 2 ^ 32 ≤ s.nowUnits then c.stepped + d else c.stepped }
  s.forEach (upto 4) (fun s k => s.modSlice k (fun x =>
    { x with cur := x.cur.map conv, ended := x.ended.map conv, lastEnd := move x.lastEnd
             urgent := x.urgent.map (fun u => { u with at_ := move u.at_ }) }))

/-- A step to a time in 2^-32 ns (R413), with the consequences of R23, R247, R265 and R286; it ends any slew. -/
def State.stepTo (s : State) (v : Nat) : State :=
  let d := Int.fdiv ((v : Int) - (s.nowUnits : Int)) (2 ^ 32)
  let s := (s.adcStep d).modTim (fun t => { t with stepAt := some s.cyc, stepFrom := s.stampUnits })
  let s := { s with now := { ns := v / 2 ^ 32, frac := v % 2 ^ 32 } }
  let s := ((s.modTim (fun t => { t with rem := 0 })).setF F.TIM_STAT_slewing 0).mark F.TIM_STAT_stepped
  let s := (s.bumpF F.TIM_STEP_CNT_steps 1).emptyDelays.recStep
  (if s.seq.running || s.seq.startPend then { s with seq := { s.seq with next := s.firstBoundary } } else s).adcResume

/-- A step by an offset in 2^-32 ns; below time 0 it is refused (R412). -/
def State.stepBy (s : State) (source : Nat) (d : Int) : State :=
  let v := (s.nowUnits : Int) + d
  if v < 0 then s.timRefuse source 5 (Int.fdiv d (2 ^ 32)) else s.stepTo v.toNat

/-- A slew of an offset begins in place of any slew in progress (R410, R411). -/
def State.slewBy (s : State) (d : Int) : State :=
  (s.modTim (fun t => { t with rem := d })).setF F.TIM_STAT_slewing (b2n (d != 0))

/-- Modes by their treatment of an offset (R411). -/
def Mode.timEarly : Mode → Bool
  | .off | .dormant | .boot | .configure | .commission => true
  | _ => false
def Mode.timMiddle : Mode → Bool
  | .muster | .precharge | .ready => true
  | _ => false

/-- An offset request of Δ = d / 256 ns (R411, R412). Where several reasons hold, the first of their table is reported (log entry 22). -/
def State.offsetRequest (s : State) (source : Nat) (d : Int) (force : Bool) : State :=
  let full := d * 2 ^ 24
  let whole := Int.fdiv d 256
  let big := decide (d.natAbs > s.f F.TIM_STEP_THR_step_thr * 256)
  let stepping := big && !force && (s.mode.timEarly || s.mode.timMiddle)
  if !s.mode.timEarly && !s.mode.timMiddle && big then s.timRefuse source 1 whole
  else if stepping && s.mode.timMiddle && decide (d.natAbs > 4000000 * 256) then s.timRefuse source 2 whole
  else if s.following then s.timRefuse source 4 whole
  else if stepping then s.stepBy source full
  else s.slewBy full

/-- Δ of TIM_OFS_NS and TIM_OFS_CTL in 1/256 ns. -/
def State.ofsWritten (s : State) : Int := sx 32 (s.f F.TIM_OFS_NS_ofs_ns) * 256 + s.f F.TIM_OFS_CTL_frac

/-- An absolute set (R411): a step to TIM_SET in BOOT, CONFIGURE and COMMISSION. -/
def State.absoluteSet (s : State) (source : Nat) : State :=
  let t := (s.f F.TIM_SET_SEC_LO_sec_lo + s.f F.TIM_SET_SEC_HI_sec_hi * 2 ^ 32) * nsPerSec + s.f F.TIM_SET_NS_ns
  let d := Int.fdiv (((t * 2 ^ 32 : Nat) : Int) - s.nowUnits) (2 ^ 32)
  if !s.mode.timEarly then s.timRefuse source 3 d
  else if s.following then s.timRefuse source 4 d
  else s.stepTo (t * 2 ^ 32)

/-- The period tick of this cycle has still to be released. -/
def State.tickDue (s : State) : Bool :=
  s.live && (s.seq.running || s.seq.startPend) && decide (s.boundary s.seq.next * 2 ^ 32 ≤ s.nowUnits)

/-- A request takes effect. -/
def State.timRequest (s : State) (r : TimReq) : State :=
  match r.ofs with
  | some (d, force) => s.offsetRequest r.source d force
  | none => s.absoluteSet r.source

/-- The owner asks for a step or a slew: in the cycle of a period tick, after that tick (R414). -/
def State.ownerRequest (s : State) (r : TimReq) : State :=
  let s := s.modTim (fun t => { t with ownAt := some s.cyc })
  if s.tickDue then s.modTim (fun t => { t with late := t.late ++ [r] }) else s.timRequest r

/-- The requests that a period tick held back take effect (R414). -/
def State.lateRequests (s : State) : State := s.tim.late.foldl State.timRequest (s.modTim (fun t => { t with late := [] }))

/-- go is written (R411). -/
def State.offsetGo (s : State) (source : Nat) : State :=
  s.ownerRequest { source := source, ofs := some (s.ofsWritten, s.fb F.TIM_OFS_CTL_force_slew) }

/-- set_go is written (R411). -/
def State.setGo (s : State) (source : Nat) : State := s.ownerRequest { source := source, ofs := none }

/-- The remainder reaches 0 (R410): the ticks that this takes have passed, and added the whole remainder. A slew that the adjustment
in force does not bring towards 0 does not end. -/
def execSlewEnd (s : State) : Host.Outcome State Fault Refusal :=
  let c := s.slewAdj
  if s.live && s.fb F.TIM_STAT_slewing && s.tim.rem != 0 && c.sign == s.tim.rem.sign then
    .next (s.cycles (ceilDiv s.tim.rem.natAbs c.natAbs))
  else .next s

/-! ### The gradual adjustment of a paired holder (R415) -/

/-- TIM_RATE in 10^-4 ppm, rounded to nearest. -/
def rateUnits (rate : Int) : Int :=
  (rate * 100000000000 + (if rate < 0 then -34359738368 else 34359738368)).tdiv 68719476736

/-- x moved towards y by at most k. -/
def towards (x y k : Int) : Int := if y > x then min y (x + k) else max y (x - k)

/-- Every 1 ms, counted from the claim: the slew term and the rate term of a holder move by at most the ramp (R415). -/
def execRampUpdate (s : State) : Host.Outcome State Fault Refusal :=
  if s.live && s.holder then
    let s := s.advanceCyc (s.tim.rampAt + cycPerMs)
    let ramp := s.f F.TIM_SLEW_CFG_ramp
    let sv := s.tim.rampS
    let tgt : Int := if s.tim.rem.natAbs * 20000 * ramp ≤ sv.natAbs * sv.natAbs * 2 ^ 32 then 0
      else s.tim.rem.sign * (s.f F.TIM_SLEW_CFG_slew_ppm * 10000 : Nat)
    .next (s.modTim (fun t => { t with
      rampAt := s.cyc
      rampS := towards t.rampS tgt ramp
      rampQ := towards t.rampQ (rateUnits (sx 24 (s.f F.TIM_RATE_rate))) ramp }))
  else .next s

/-! ### The engine request record (R416) -/

/-- The record is read at a period tick; the first read after en is set only records seq, and a following device applies nothing. -/
def State.timRecord (s : State) : State :=
  if s.fb F.TIM_ENG_REQ_en then
    let a := s.f F.TIM_ENG_REQ_base * 16
    let s := (s.grnCheck reqEth a 16 []).2
    let bs := s.grnRead a 16
    let sq := fieldAt bs 0 4
    let old := s.tim.reqSeq
    let s := s.modTim (fun t => { t with reqSeq := some sq })
    match old with
    | none => s
    | some o => if o = sq || s.following then s else s.modTim (fun t => { t with reqPend := some bs })
  else s

/-- TIM_RATE takes a value, clamped (R410); the clamp is reported with an origin. -/
def State.rateWrite (s : State) (origin v : Nat) : State :=
  let r := sx 24 v
  let c := iclamp r (-adjBound) adjBound
  let s := s.setF F.TIM_RATE_rate (twos 24 c)
  if c = r then s else s.raiseClamp origin R.TIM_RATE 0 (v % 2 ^ 24) (twos 24 c)

/-- The valid parts of a new record are applied as owner writes; where the owner has written a request in this cycle, in the next one
(R414, R416). -/
def execTimRequestApply (s : State) : Host.Outcome State Fault Refusal :=
  match s.tim.reqPend with
  | none => .next s
  | some bs =>
    let s := s.modTim (fun t => { t with reqPend := none })
    if s.following then .next s
    else
    let s := if s.tim.ownAt = some s.cyc then s.coreTick else s
    let flags := fieldAt bs 13 1
    let s := if bitOf flags 0 then s.rateWrite 0 (fieldAt bs 4 4) else s
    .next (if bitOf flags 1 then
      s.offsetRequest 3 (sx 32 (fieldAt bs 8 4) * 256 + (fieldAt bs 12 1 : Nat)) (bitOf flags 2) else s)

/-! ### Status words (R325, R330) -/

/-- SAF_STAT as it reads. -/
def State.safStat (s : State) : Nat :=
  let same := s.fb F.SAF_STAT_check_valid && s.retConfirmed == some (s.rd R.SAF_CHECK)
  bitsOf (s.rd R.SAF_STAT) 7 0 + b2n s.tmActive * 2 ^ 8 + s.f F.SAF_STAT_arm_low * 2 ^ 9 + b2n s.causeActive * 2 ^ 10
    + b2n s.safeState * 2 ^ 11 + b2n s.pwmIo.safeHiZ * 2 ^ 12 + b2n s.blockTx * 2 ^ 13 + b2n same * 2 ^ 14
    + s.f F.SAF_STAT_ret_err * 2 ^ 15 + s.f F.SAF_STAT_check_valid * 2 ^ 16 + b2n s.retConfirmed.isSome * 2 ^ 17

/-- GLB_MODE as it reads. -/
def State.glbMode (s : State) : Nat :=
  modeCode s.mode + b2n s.ctl.fatal * 16 + b2n s.lockedOut * 32 + b2n s.musterDone * 64 + b2n s.ctl.chargeOk * 128
    + modeCode s.origin * 256 + (match s.ctl.request with | some r => r.target * 4096 + 2 ^ 16 | none => 0)
    + b2n s.ctl.retValid * 2 ^ 18

/-- RED_STAT as it reads. -/
def State.redStat (s : State) : Nat :=
  let late := decide (s.f F.RED_TIMING_mirror_dly > s.f F.GLB_GATHER_DEADLINE_deadline_steps)
  setBits (setBits (setBits (s.rd R.RED_STAT) 23 23 (b2n s.entitled)) 22 22 (s.f F.LPHY_MIR_STAT_bonded)) 14 14 (b2n late)

/-! ### Echo Status Port (R428, R429) -/

/-- The sixteen bytes of the bank as they are due. -/
def State.espLive (s : State) : List Byte :=
  let saf := s.safStat
  let low := s.tim.espArms
  let down := ((upto 48).filter (fun l => s.laneState l == laneDown || s.laneState l == laneDead)).length
  [BitVec.ofNat 8 (modeCode s.mode + b2n s.ctl.fatal * 16 + b2n s.lockedOut * 32 + b2n s.ctl.chargeOk * 64 + b2n s.musterDone * 128),
   BitVec.ofNat 8 (s.f F.SAF_LATCH_in_latch), BitVec.ofNat 8 (s.f F.SAF_STAT_in_now),
   BitVec.ofNat 8 (bitsOf saf 11 11 + bitsOf saf 12 12 * 2 + bitsOf saf 13 13 * 4 + bitsOf saf 10 10 * 8 + bitsOf saf 9 9 * 16
     + bitsOf saf 8 8 * 32 + bitsOf saf 15 15 * 64 + bitsOf saf 14 14 * 128),
   BitVec.ofNat 8 (b2n s.entitled + s.f F.RED_STAT_in_step * 2 + s.f F.LPHY_MIR_STAT_bonded * 4 + s.f F.RED_STAT_frozen * 8
     + s.f F.RED_STAT_tf_locked * 16 + s.f F.RED_STAT_partner_in_step * 32 + s.f F.RED_STAT_sense * 64),
   BitVec.ofNat 8 low, BitVec.ofNat 8 (low / 256),
   BitVec.ofNat 8 down,
   BitVec.ofNat 8 s.periodNum, BitVec.ofNat 8 (s.f F.GLB_MODE_LOG_cause),
   BitVec.ofNat 8 (s.f F.TIM_STAT_slewing + s.f F.TIM_STAT_gm_change * 2 + s.f F.TIM_STAT_step_refused * 4
     + s.f (F.TIM_ETH_STAT_link 0) * 8 + s.f (F.TIM_ETH_STAT_link 1) * 16 + s.f F.EDG_SYNC_CAP_sync_lost * 32)]
    ++ leBytes 4 (s.f F.TIM_ESP_USER_user) ++ [0x5A]

/-- The bank but for ESP_HOLD_N: while CORE_CLK stands only bytes 0x1 to 0x3 are updated (R429). -/
def State.espDue (s : State) : List Byte :=
  if s.live || s.tim.espOld.isEmpty then s.espLive
  else s.tim.espOld.take 1 ++ (s.espLive.drop 1).take 3 ++ s.tim.espOld.drop 4

/-- The bank as ESP_D shows it: frozen while ESP_HOLD_N is low. -/
def State.espBank (s : State) : List Byte := s.tim.espHold.getD s.espDue

/-- What ESP_D shows for an address on ESP_A: the bank's byte; none while the outputs are high impedance, in OFF, in DORMANT and in reset
(R427). -/
def State.espD (s : State) (a : Fin 16) : Option Byte := if s.up then s.espBank[a.val]? else none

/-- While ESP_HOLD_N is low the bank of a device that is up is frozen (R428). -/
def State.espFreeze (s : State) : State :=
  if s.up && s.pwr.espLow && s.tim.espHold.isNone then s.modTim (fun t => { t with espHold := some s.espDue }) else s

/-- ESP_HOLD_N falls: no byte changes from here on (R428). -/
def execEspHold (s : State) : Host.Outcome State Fault Refusal :=
  .next ({ s with pwr := { s.pwr with espLow := true } }).espFreeze

/-- ESP_HOLD_N rises: the updates due are applied. -/
def execEspHoldRelease (s : State) : Host.Outcome State Fault Refusal :=
  .next ({ s with pwr := { s.pwr with espLow := false } }.modTim (fun t => { t with espHold := none }))

end Sys2Proof.Machine
end

