-- ==== Sys2Proof/Machine/PairOps.lean ====
section
/-! DEFINITION. The redundant pair (R335 to R365): the interlock loop, mirror frames, forwarded inputs, the plan digest, timebase
following, joining and claims. -/

namespace Sys2Proof.Machine


def ilkOpen : Nat := 0
def ilkIdle : Nat := 1
def ilkHold : Nat := 2

def State.sense (s : State) : Nat := s.f F.RED_STAT_sense
def State.drive (s : State) : Nat := s.f F.RED_STAT_drive
def State.side (s : State) : Nat := s.f F.NCL_GCFG_side
def State.frozen (s : State) : Bool := s.fb F.RED_STAT_frozen
def State.bonded (s : State) : Bool := s.fb F.LPHY_MIR_STAT_bonded

/-! ### The pair signature (R355, R360) -/

/-- The partner's signature is compared with the own one (R360). -/
def State.checkSignature (s : State) : State :=
  if s.pair.status.isEmpty then s
  else if s.rd R.RED_PSIG = s.rd R.RED_SIG then s.setF F.RED_STAT_sig_match 1
  else (s.setF F.RED_STAT_sig_match 0).raiseOnce F.RED_FLAGS_sig_mismatch .sigMismatch 0 0 (s.rd R.RED_PSIG)

/-- mirror_dly exceeds GATHER_DEADLINE (R355). -/
def State.mirrorTooLate (s : State) : Bool :=
  decide (s.f F.RED_TIMING_mirror_dly > s.f F.GLB_GATHER_DEADLINE_deadline_steps)

/-- The pair's configuration keeps the device from READY to SHADOW (R355, R360). -/
def State.pairRefuses (s : State) : Bool :=
  !s.fb F.RED_STAT_sig_match || s.fb F.RED_FLAGS_side_clash || s.mirrorTooLate

/-! ### Claims and releases (R340 to R343) -/

/-- The interlock output as R340 leaves it when no rule makes the device drive HOLD. -/
def State.ilkRest (s : State) : State :=
  s.setDrive (if s.paired && s.up then ilkIdle else 0)

/-- The device drives HOLD; its gradual adjustment starts from the one in effect (R415). -/
def State.claimToken (s : State) : State :=
  let now := s.rateAdj
  let s := (s.setDrive ilkHold).wr R.RED_TF 0
  s.modTim (fun t => { t with rampQ := rateUnits now, rampS := 0, rampAt := s.cyc })

/-- A claim under the Release (2) or the Lost path (3) is reported (R392). -/
def State.takeover (s : State) (path : Nat) : State :=
  let s := s.claimToken
  ((s.mark F.RED_FLAGS_takeover).bumpF F.RED_CNT2_takeovers 1).raise .takeover path 0 0

/-- The First path (R341), on entry to MUSTER. -/
def State.claimFirst (s : State) : State :=
  if s.paired && s.side == s.f F.RED_CFG_first_side && s.sense != ilkHold && s.drive != ilkHold then s.claimToken else s

/-- The holder drives IDLE on entry to a mode below MUSTER or to DIAGNOSTIC (R342). -/
def State.releaseOnEntry (s : State) : State :=
  match s.mode with
  | .boot | .configure | .commission | .diagnostic => if s.drive = ilkHold then s.setDrive ilkIdle else s
  | _ => s

/-- Both devices drive HOLD (R343). -/
def State.ilkClash (s : State) : State :=
  if s.paired && s.drive == ilkHold && s.sense == ilkHold then
    let s := s.mark F.RED_FLAGS_ilk_clash
    if s.side != s.f F.RED_CFG_first_side || s.pair.partnerSide == some s.side then
      (s.setDrive ilkIdle).raise .ilkClash 0 0 0
    else s
  else s

/-- A new reading of ILK_IN is recognised (R339): the Release path, a clash, the start of the Lost path's first condition. -/
def execIlkInChange (reading : Fin 3) (s : State) : Host.Outcome State Fault Refusal :=
  let old := s.sense
  if old = reading.val then .next s else
  let s := s.setF F.RED_STAT_sense reading
  let s := s.modPair (fun p => { p with openAt := if reading.val = ilkOpen then some s.cyc else none,
                                        closedAt := if old = ilkOpen then s.cyc else p.closedAt,
                                        stepBefore := reading.val == ilkOpen && old == ilkHold,
                                        openBonded := reading.val == ilkOpen && s.bonded,
                                        blockAt := if reading.val = ilkOpen then p.blockAt else none,
                                        blockLast := if reading.val = ilkOpen then p.blockLast else none })
  let s := s.updateDrive
  if s.paired && old == ilkHold && reading.val == ilkIdle && s.mode == .shadow && s.fb F.RED_STAT_in_step && !s.frozen
      && s.drive != ilkHold then .next (s.takeover 2)
  else .next s.ilkClash

/-- The Absent path (R341): no valid STATUS frame for absent_wait since the latest one, or since the device came up where none has come
(log entry 33). -/
def execAbsentClaim (s : State) : Host.Outcome State Fault Refusal :=
  let modeOk := s.mode == .muster || s.mode == .precharge || s.mode == .ready
  if s.paired && modeOk && !s.frozen && s.sense != ilkHold && s.drive != ilkHold then
    .next (s.advanceCyc (s.pair.statusCyc.getD s.pwr.upCyc + s.f F.RED_CFG_absent_wait * (10 * cycPerMs))).claimToken
  else .next s

/-- The instant at which the second condition of the Lost path arose: the bond went down, or a BLOCK set of class 0x4 arrived. -/
def State.lostSecond (s : State) : Option Nat :=
  match (if s.bonded then none else s.pair.bondAt), s.pair.blockAt with
  | some a, some b => some (min a b)
  | some a, none => some a
  | none, x => x

/-- The Lost path (R341): both conditions held for 2 µs. -/
def execLostClaim (s : State) : Host.Outcome State Fault Refusal :=
  match s.pair.openAt, s.lostSecond with
  | some a, some b =>
    if s.paired && s.mode == .shadow && s.fb F.RED_STAT_eligible && !s.frozen && s.pair.stepBefore && s.sense == ilkOpen
        && s.drive != ilkHold then
      .next ((s.advanceCyc (max a b + 2 * cycPerUs)).takeover 3)
    else .next s
  | _, _ => .next s

/-- ILK_IN changed to OPEN with the bond up; the bond has stayed up for 2 µs, and no beacon of the partner has come since the change
(R344; log entry 103). -/
def execIlkOpen (s : State) : Host.Outcome State Fault Refusal :=
  match s.pair.openAt with
  | some a =>
    if s.paired && s.sense == ilkOpen && s.pair.openBonded && s.bonded && !s.pair.blockLast.any (fun b => decide (a ≤ b)) && !s.frozen then
      let s := s.advanceCyc (a + 2 * cycPerUs)
      .next (((s.setF F.RED_STAT_frozen 1).mark F.RED_FLAGS_ilk_open).raise .ilkOpen 0 0 0)
    else .next s
  | none => .next s

/-- ILK_IN has read IDLE or HOLD for 1 ms since it left OPEN (R344). -/
def execFrozenClear (s : State) : Host.Outcome State Fault Refusal :=
  .next (if s.sense = ilkOpen ∨ !s.frozen then s else (s.advanceCyc (s.pair.closedAt + cycPerMs)).setF F.RED_STAT_frozen 0)

/-! ### Mirror frames (R345, R346) -/

def mirStatus : Nat := 4
def mirInput : Nat := 5
def mirJoin : Nat := 6

/-- The tag S1 to S7 of a mirror frame. -/
def State.mirTag (s : State) (kind blocks : Nat) : List Byte :=
  [BitVec.ofNat 8 (kind * 16 + 1), BitVec.ofNat 8 (b2n s.holder + s.side * 8)] ++ leBytes 2 s.periodFull ++ leBytes 2 blocks
    ++ [0]

/-- The blocks of a mirror frame (R67, R345). -/
def MirFrame.asBlocks (f : MirFrame) : List MirBlock := .start f.tag :: f.blocks.map .data ++ [.stop f.crc]

/-- The frame that blocks spell: a start block, data blocks and an end block. -/
def mirFrameOf (bs : List MirBlock) : Option MirFrame :=
  match bs, bs.getLast? with
  | .start tag :: rest, some (.stop crc) =>
    let ws := rest.filterMap MirBlock.word
    if ws.length + 1 = rest.length then some { tag := tag, blocks := ws, crc := crc } else none
  | _, _ => none

/-- What a mirror lane's transmitter sends of a frame. -/
def State.sendShare (s : State) (l : Nat) (bs : List MirBlock) : State :=
  if s.laneCoded l then
    s.modLane l (fun x =>
      let y : Lane := { x with tx := { (x.tx.put s.cyc bs.length true) with share := bs } }
      { y with tx := y.tx.injectFrame (y.nextData l 0) })
  else s

/-- A frame leaves, distributed to both mirror lanes; nothing leaves a lane whose reference is absent (R477), so the frame is whole where
both lanes send. -/
def State.sendMirror (s : State) (kind : Nat) (blocks : List Nat) : State :=
  let tag := s.mirTag kind blocks.length
  let crc := crc32c (tag ++ blocks.flatMap (leBytes 8))
  let bs := MirFrame.asBlocks { tag := tag, blocks := blocks.map (BitVec.ofNat 64), crc := BitVec.ofNat 32 crc }
  let r := distribute s.pair.txTurn bs
  let whole := s.laneCoded 48 && s.laneCoded 49
  ((s.sendShare 48 r.1).sendShare 49 r.2).modPair (fun p => { p with
    txTurn := p.txTurn != (bs.length % 2 == 1)
    sent := if whole then p.sent.filter (fun x => x.1 != kind) ++ [(kind, tag, blocks)] else p.sent })

/-- The cycle in which a mirror frame due now begins: no other frame of the device is in progress (R345), and the two IDLE blocks after
it have left each lane (R116). `k` blocks of it leave each lane. -/
def State.mirrorFree (s : State) (k : Nat) : Nat :=
  max ((s.lane 48).tx.startAt s.cyc k true) ((s.lane 49).tx.startAt s.cyc k true)

/-- The blocks that the receiver of a mirror lane takes: those at its balls, or, looped, its lane's own (R137). -/
def State.mirrorTaken (s : State) (l : Nat) (bs : List MirBlock) : List MirBlock := if s.rxLooped l then (s.lane l).tx.share else bs

/-- The frame that the blocks received on the two mirror lanes spell, and the state after taking them (R122), from a marker pair inside the
frame on from MIR0 again; exchanged fibres exchange the roles of the receivers. -/
def State.takeMirror (s : State) (x : MirRx) : Option MirFrame × State :=
  let a := s.mirrorTaken 48 x.mir0
  let b := s.mirrorTaken 49 x.mir1
  let n := a.length + b.length
  let swapped := s.fb F.LPHY_MIR_STAT_swapped
  let as := if swapped then b else a
  let bs := if swapped then a else b
  match x.pair with
  | none =>
    let all := takeTurns n s.pair.rxTurn as bs
    (if all.length = n then mirFrameOf all else none, s.modPair (fun p => { p with rxTurn := p.rxTurn != (n % 2 == 1) }))
  | some (i, j) =>
    let k := min a.length i + min b.length j
    let before := takeTurns k s.pair.rxBefore (as.take (if swapped then j else i)) (bs.take (if swapped then i else j))
    let after := takeTurns (n - k) false (as.drop (if swapped then j else i)) (bs.drop (if swapped then i else j))
    (if before.length = k ∧ after.length = n - k then mirFrameOf (before ++ after) else none,
      s.modPair (fun p => { p with rxTurn := (n - k) % 2 == 1 }))

/-- A frame as received is whole: its type, its number of blocks and its CRC-32C (R345). -/
def mirValid (kind : Nat) (f : MirFrame) : Bool :=
  f.tag.length == 7 && fieldAt f.tag 0 1 == kind * 16 + 1 && fieldAt f.tag 4 2 == f.blocks.length
    && f.crc.toNat == crc32c (f.tag ++ f.blocks.flatMap (fun b => leBytes 8 b.toNat))

/-- The arm named in join_want (R362). -/
def State.joinWant (s : State) : Nat :=
  if s.paired && !s.holder && s.mode == .shadow && s.bonded && s.pair.joinOpen then
    (s.enabledArms.find? (fun a => !s.pair.adopted.contains a)).getD 15
  else 15

/-- The digest of the period is invalid (R346): no plan completed, or the planner does not run. -/
def State.digestInvalid (s : State) : Bool := !s.mode.controls || !s.seq.planComplete

/-- The STATUS frame of the period leaves, once the next distributed block goes to MIR0 (R345, log entry 104). Its launch falls on the
first block boundary, less than one block time on, whose phase the specification does not give: a free value (log entry 3). -/
def execStatusFrameLaunch (s : State) : Host.Outcome State Fault Refusal :=
  if s.paired && s.seq.running && !s.pair.txTurn && !s.pair.ownTx.any (fun x => x.1 == s.periodFull) then
    let s := s.advanceTo (s.pN + s.f F.GLB_ORDER_OFFSET_order_offset_steps * 5)
    let s := s.advanceCyc (s.mirrorFree 4)
    let fv := s.free
    let s := fv.2
    let n := s.periodFull
    let tx := s.now.ns * 256 + s.now.frac / 2 ^ 24 + fv.1 % 1638
    let rx := match s.pair.partnerRx.find? (fun x => x.1 + 1 == n) with
      | some x => x.2
      | none => 0
    let up := ((upto 48).filter (fun l => s.laneState l == laneUp)).foldl (fun acc l => acc + 2 ^ l) 0
    let b0 := s.periodNum + modeCode s.mode * 2 ^ 32 + b2n s.holder * 2 ^ 36 + b2n s.entitled * 2 ^ 37
      + s.f F.RED_STAT_in_step * 2 ^ 38 + s.f F.RED_STAT_frozen * 2 ^ 39 + b2n s.digestInvalid * 2 ^ 40 + s.sense * 2 ^ 41
      + s.joinWant * 2 ^ 44
    let b4 := tx % 256 + rx % 256 * 256 + s.rd R.RED_SIG * 2 ^ 32
    let s := s.sendMirror mirStatus [b0, s.plan.digest, timeWord (tx / 256), if rx = 0 then 0 else timeWord (rx / 256), b4, up]
    .next (s.modPair (fun p => { p with ownTx := (n, tx) :: p.ownTx.take 1, wantSent := s.joinWant }))
  else .next s

/-! ### Timebase following (R356, R357) -/

/-- asym as it enters R356. -/
def State.asymTerm (s : State) : Int :=
  let a := sx 16 (s.f F.RED_ASYM_asym)
  if s.side = 1 then a else -a

/-- d and θ of R356 in 1/512 ns, from four instants in 1/256 ns. -/
def tfMeasure (t1 t2 t3 t4 asym : Int) : Int × Int := ((t2 - t1) + (t4 - t3), (t2 - t1) - (t4 - t3) - asym * 32)

/-- The correction of the following law after a measurement: its gains are not given, so the adjustment is a free value within ±200 ppm
(log entry 3). -/
def State.followLaw (s : State) : State :=
  let fv := s.free
  fv.2.modTim (fun t => { t with follow := iclamp (sx 32 fv.1) (-adjBound) adjBound })

/-- One measurement of a non-holder, d and θ in 1/512 ns (R356, R357); RED_TF and RED_MIR_DELAY show them to the nearest 0.125 ns, halves
away from zero (log entry 23). -/
def State.tfStep (s : State) (d theta : Int) : State :=
  let shown := roundHalfAway theta 6
  let s := (s.wr R.RED_TF (twos 32 (iclamp shown (-2147483648) 2147483647))).setF F.RED_MIR_DELAY_d (twos 20 (roundHalfAway d 6))
  let s :=
    if s.mode.timMiddle ∧ theta.natAbs > 1000 * 512 then
      if theta.natAbs > 4000000 * 512 then s.timRefuse 4 2 (Int.fdiv (-theta) 512) else s.stepBy 4 (-theta * 2 ^ 23)
    else s.followLaw
  let run := if theta.natAbs ≤ 512 then s.pair.tfRun + 1 else 0
  let s := s.modPair (fun p => { p with tfRun := min run 16 })
  if theta.natAbs > 5 * 512 then
    if s.fb F.RED_STAT_tf_locked then
      ((s.setF F.RED_STAT_tf_locked 0).mark F.RED_FLAGS_tf_unlock).raise .tfUnlock 0 0 (twos 64 shown)
    else s
  else if run ≥ 16 then s.setF F.RED_STAT_tf_locked 1 else s

/-- The measurement that the holder's STATUS frame of period n + 1 completes (R356). -/
def State.tfFollow (s : State) (n t4 : Nat) : State :=
  if s.following then
    match s.pair.partnerTx, s.pair.partnerRx.find? (fun x => x.1 + 1 == n), s.pair.ownTx.find? (fun x => x.1 + 1 == n) with
    | some (a, t1), some (_, t2), some (_, t3) =>
      if a + 1 = n ∧ t4 ≠ 0 then
        let m := tfMeasure t1 t2 t3 t4 s.asymTerm
        s.tfStep m.1 m.2
      else s
    | _, _, _ => s
  else s

/-! ### The plan digest (R358, R359) -/

def crc64Bit (c : Nat) : Nat := if c % 2 = 1 then (c / 2) ^^^ 0xC96C5795D7870F42 else c / 2
def crc64Byte (c : Nat) (b : Byte) : Nat :=
  let c := c ^^^ b.toNat
  crc64Bit (crc64Bit (crc64Bit (crc64Bit (crc64Bit (crc64Bit (crc64Bit (crc64Bit c)))))))

/-- CRC-64 of R358. -/
def crc64 (bs : List Byte) : Nat := (bs.foldl crc64Byte 0xFFFFFFFFFFFFFFFF) ^^^ 0xFFFFFFFFFFFFFFFF

/-- The planner gives a slot no slot (R178). -/
def State.noSlot (s : State) (c : Nat) : Bool := s.cellCode c == 1 && s.laneState (c / 64) == laneDown

/-- Bits [55:0] of a slot as the planner produced them. -/
def State.plannedBits (s : State) (c : Nat) : Nat :=
  let p := tget PlanSlot.blank s.plan.slots c
  orderContent p.state p.edges s.periodFull

/-- The digest of the plan of the period (R358). -/
def State.planDigest (s : State) : Nat :=
  crc64 (leBytes 4 s.periodFull ++ leBytes 8 (timeWord (s.pN + s.f F.GLB_EDGE_OFFSET_edge_offset_steps * 5))
    ++ s.allCells.flatMap (fun c => if s.noSlot c then List.replicate 7 0xFF else leBytes 7 (s.plannedBits c)))

/-- The digests of a period are compared (R359). -/
def State.compareDigest (s : State) (theirs : Nat) : State :=
  let own := s.plan.digest
  let s := (s.wr R.RED_DIGEST_LO (own % 2 ^ 32)).wr R.RED_DIGEST_HI (own / 2 ^ 32)
  let s := (s.wr R.RED_PDIGEST_LO (theirs % 2 ^ 32)).wr R.RED_PDIGEST_HI (theirs / 2 ^ 32)
  let s := (s.wr R.RED_DIG_PERIOD s.periodNum).modPair (fun p => { p with compared := true })
  if own = theirs then s.bumpF F.RED_STAT_match_run 1
  else
    let s := ((s.setF F.RED_STAT_match_run 0).mark F.RED_FLAGS_mismatch).bumpF F.RED_CNT_mismatch_cnt 1
    let s := s.raise .digestMismatch 0 0 own
    if s.holder then s else (s.setF F.RED_STAT_in_step 0).openJoin

/-- The full period number whose low 32 bits a partner's frame carries: the one nearest the present period at or below the next. -/
def State.partnerPeriod (s : State) (low : Nat) : Nat :=
  let ahead := (low + 2 ^ 32 - s.periodNum) % 2 ^ 32
  if ahead = 1 then s.periodFull + 1 else s.periodFull - (2 ^ 32 - ahead) % 2 ^ 32

/-- The partner's STATUS frame arrives; `t` is its arrival at the RX balls of MIR0 in 1/256 ns (R346). -/
def State.statusArrived (s : State) (f : MirFrame) (t : Nat) : State :=
  if !mirValid mirStatus f || f.blocks.length != 6 then s
  else
    let ws := f.blocks.map BitVec.toNat
    let b0 := word ws 0
    let b4 := word ws 4
    let side := bitsOf (fieldAt f.tag 1 1) 3 3
    let n := s.partnerPeriod (b0 % 2 ^ 32)
    let s := s.modPair (fun p => { p with status := ws, statusCyc := some s.cyc, statusSeen := true, lostSeen := false,
                                          partnerSide := some side })
    let s := (s.setF F.RED_STAT_partner_mode (bitsOf b0 35 32)).setF F.RED_STAT_partner_in_step (bitsOf b0 38 38)
    let s := s.wr R.RED_PSIG (bitsOf b4 63 32)
    let s := if side = s.side then s.mark F.RED_FLAGS_side_clash else s
    let s := s.ilkClash.checkSignature
    let s := if b0 % 2 ^ 32 = s.periodNum ∧ !bitOf b0 40 ∧ !s.digestInvalid then s.compareDigest (word ws 1) else s
    let t4 := if word ws 3 = 0 then 0 else instantOf (word ws 3) * 256 + bitsOf b4 15 8
    let s := s.tfFollow n t4
    s.modPair (fun p => { p with partnerTx := some (n, instantOf (word ws 2) * 256 + b4 % 256)
                                 partnerRx := (n, t) :: p.partnerRx.take 1 })

/-- A STATUS frame arrives over the bonded link. -/
def execStatusFrame (x : MirRx) (t : Nat) (s : State) : Host.Outcome State Fault Refusal :=
  if !s.paired || !s.bonded then .next s
  else
    let r := s.takeMirror x
    match r.1 with
    | some f => .next (r.2.statusArrived f t)
    | none => .next r.2

/-! ### Forwarded inputs (R347 to R351) -/

/-- An input is captured: on a holder, on an unpaired device that writes period blocks, and for its own later use on a non-holder (R350,
R351). Without the sequencer there is no period to forward it in. -/
def State.captures (s : State) (kind : Nat) : Bool :=
  s.seq.running && (s.paired || s.fb F.RED_MIR_BASE_en || kind == 4)

def State.capture (s : State) (it : MirItem) : State :=
  if s.captures it.kind then s.modPair (fun p => { p with capNow := p.capNow ++ [it] }) else s

/-- An item captured now. -/
def State.item (s : State) (kind source : Nat) (payload : List Byte) (index : Option Nat) : MirItem :=
  { kind := kind, source := source, ns := s.stampNs, payload := payload, index := index, ord := s.hif.capSeq }

/-- An item's bytes (R349). -/
def MirItem.bytes (x : MirItem) : List Byte :=
  let pad := (8 - x.payload.length % 8) % 8
  leBytes 1 x.kind ++ leBytes 1 x.source ++ leBytes 2 x.payload.length ++ leBytes 4 (x.ns % nsPerSec) ++ x.payload
    ++ List.replicate pad 0

/-- Data blocks of items that an INPUT frame has room for (R347, R348). -/
def State.itemRoom (s : State) : Nat :=
  let skew := (sx 8 (s.f F.LPHY_MIR_STAT_skew)).natAbs
  let t := (s.f F.RED_TIMING_mirror_dly * 5 * 40 - 600 * 40 - s.f F.RED_MIR_DELAY_d * 5 - skew * 256) / 128
  min (t - 17) 2040

/-- The items that fit in `room` blocks, in order, and the rest. -/
def splitItems : Nat → List MirItem → List MirItem × List MirItem
  | _, [] => ([], [])
  | room, x :: xs =>
    let k := x.bytes.length / 8
    if k ≤ room then
      let r := splitItems (room - k) xs
      (x :: r.1, r.2)
    else ([], x :: xs)

/-- The content of period n from the own captures (R347, R351). -/
def State.formInput (s : State) : State :=
  let all := s.pair.deferred ++ s.pair.capLast
  let r := splitItems s.itemRoom all
  let flags := b2n s.pair.localInput + b2n (!r.2.isEmpty) * 2
  let c : MirInput := { period := s.periodFull, snapshot := (upto 16).map (fun i => fieldAt s.snapRecord (8 * i) 8),
                        items := r.1, flags := flags }
  let s := s.bumpF F.RED_CNT2_deferred r.2.length
  s.modPair (fun p => { p with input := some c, deferred := r.2, capLast := [] })

/-- The holder's INPUT frame of the period leaves at P_n + 400 ns (R345, R347). -/
def execInputFrameLaunch (s : State) : Host.Outcome State Fault Refusal :=
  if s.holder && s.seq.running && s.pair.input.isNone && !s.pair.mirDone then
    let s := (s.advanceTo (s.pN + 400)).formInput
    match s.pair.input with
    | none => .next s
    | some c =>
      let bytes := c.items.flatMap MirItem.bytes
      let words := (upto (bytes.length / 8)).map (fun i => fieldAt bytes (8 * i) 8)
      let s := s.advanceCyc (s.mirrorFree ((words.length + 20) / 2))
      .next (s.sendMirror mirInput ([s.periodNum + c.items.length * 2 ^ 32] ++ c.snapshot ++ words))
  else .next s

/-- Items as an INPUT frame's bytes spell them. -/
def readItems : Nat → List Byte → List MirItem
  | 0, _ => []
  | k + 1, bs =>
    let len := fieldAt bs 2 2
    let pad := (8 - len % 8) % 8
    { kind := fieldAt bs 0 1, source := fieldAt bs 1 1, ns := fieldAt bs 4 4 % 2 ^ 30, payload := (bs.drop 8).take len,
      index := none, ord := 0 } :: readItems k (bs.drop (8 + len + pad))

/-- The mirror point Q_n of the period (R350). -/
def State.mirrorPoint (s : State) : Nat := s.pN + s.f F.RED_TIMING_mirror_dly * 5

/-- An INPUT frame is discarded (R352). -/
def State.mirLate (s : State) : State :=
  let s := s.modPair (fun p => { p with inputBad := true })
  ((s.mark F.RED_FLAGS_mir_late).bumpF F.RED_CNT2_mir_late_cnt 1).raise .mirLate 0 0 0

/-- The holder's INPUT frame as reassembled (R350, R352). -/
def State.inputArrived (s : State) (f : MirFrame) : State :=
  let ws := f.blocks.map BitVec.toNat
  if !mirValid mirInput f ∨ f.blocks.length < 17 ∨ fieldAt f.tag 2 2 ≠ s.periodFull % 65536 ∨ s.mirrorPoint * 2 ^ 32 < s.nowUnits
      ∨ s.pair.mirDone then s.mirLate
  else
    let items := readItems (bitsOf (word ws 0) 47 32) ((ws.drop 17).flatMap (leBytes 8))
    s.modPair (fun p => { p with input := some { period := s.periodFull, snapshot := (ws.drop 1).take 16, items := items, flags := 0 } })

/-- The last data of the holder's INPUT frame have arrived. -/
def execInputFrame (x : MirRx) (s : State) : Host.Outcome State Fault Refusal :=
  if !s.paired || s.holder || !s.bonded || !s.seq.running || s.pair.input.isSome then .next s
  else
    let r := s.takeMirror x
    match r.1 with
    | some f => .next (r.2.inputArrived f)
    | none => .next r.2.mirLate

/-- The period block of R350. -/
def MirInput.block (c : MirInput) : List Byte :=
  let bytes := c.items.flatMap MirItem.bytes
  leBytes 4 c.period ++ leBytes 2 c.items.length ++ leBytes 2 c.flags ++ leBytes 4 bytes.length ++ List.replicate 52 0 ++ bytes

/-! ### Joining (R362) -/

/-- The 16-byte record of a cell: as it enters the work of the next period. -/
def State.joinRecord (s : State) (c : Nat) : List Byte :=
  let x := s.cell c
  leBytes 7 (s.plannedBits c)
    ++ leBytes 1 (s.f (F.WIN_CELL_STAT_present c) + s.f (F.WIN_CELL_STAT_retire c) * 4 + s.f (F.WIN_CELL_STAT_stale_cnt c) * 8)
    ++ leBytes 3 x.ageFrom ++ leBytes 3 (s.f (F.WIN_CELL_TALLY_cgain c)) ++ leBytes 1 (s.f (F.EDG_CELL_OC_tally c))
    ++ leBytes 1 (s.cellCode c)

/-- The JOIN frame of the period leaves at P_n + ORDER_OFFSET + 1.5 µs, when its end comes early enough (R345, R362). -/
def execJoinFrameLaunch (s : State) : Host.Outcome State Fault Refusal :=
  let want := bitsOf (word s.pair.status 0) 47 44
  if s.holder && s.seq.running && !s.pair.status.isEmpty && decide (want < 12) && s.armEnabled want then
    let cells := s.armCells want
    let t := s.advanceTo (s.pN + s.f F.GLB_ORDER_OFFSET_order_offset_steps * 5 + 1500)
    let t := t.advanceCyc (t.mirrorFree (cells.length + 1))
    if (t.nowUnits * 5 + (2 * cells.length + 2) * (16 * 2 ^ 32)) < (s.pN + s.periodNs + 400) * (5 * 2 ^ 32) then
      let s := t
      let bytes := cells.flatMap s.joinRecord
      let words := (upto (bytes.length / 8)).map (fun i => fieldAt bytes (8 * i) 8)
      .next ((s.sendMirror mirJoin words).modPair (fun p => { p with joinSent := some want }))
    else .next s
  else .next s

/-- A JOIN frame has arrived complete: kept for the adoption at the next GATHER_DONE. -/
def State.joinArrived (s : State) (f : MirFrame) : State :=
  let a := s.pair.wantSent
  let bytes := f.blocks.flatMap (fun b => leBytes 8 b.toNat)
  if !mirValid mirJoin f || a ≥ 12 || !s.pair.joinOpen || f.blocks.length != 2 * s.nInstalled a then s
  else s.modPair (fun p => { p with joinData := some (a, fieldAt f.tag 2 2, (upto (s.nInstalled a)).map (fun i => (bytes.drop (16 * i)).take 16)) })

def execJoinFrame (x : MirRx) (s : State) : Host.Outcome State Fault Refusal :=
  if !s.paired || s.holder || !s.bonded then .next s
  else
    let r := s.takeMirror x
    match r.1 with
    | some f => .next (r.2.joinArrived f)
    | none => .next r.2

/-- The command of a window that a slot's bits spell, given the output before its edges and the polarity of insertions. -/
def slotCmd (bits : Nat) (from_ : Present) (neg : Bool) : CellCmd :=
  let st := bits % 16
  let k := bitsOf bits 5 4
  let edges := [bitsOf bits 27 6, bitsOf bits 49 28].take k
  if st = slotInsert ∨ st = slotBypass then
    let last : Present := if st = slotInsert then insertState neg else .bypassed
    { start := if k % 2 = 0 then last else togglePresent neg last, toggles := edges, neg := neg }
  else if st = slotHold then { start := from_, toggles := [], neg := neg }
  else CellCmd.blocked

/-- A cell takes over its record (R362). -/
def State.adoptCell (s : State) (c : Nat) (r : List Byte) : State :=
  let bits := fieldAt r 0 7
  let b7 := fieldAt r 7 1
  let k := bitsOf bits 5 4
  let w : Int := s.windowLen
  let cmd := slotCmd bits (Present.ofCode (b7 % 4)) (s.cell c).cmd1.neg
  let age0 := fieldAt r 8 3
  let st := bits % 16
  let code := fieldAt r 15 1 % 16
  let last : Option Int := if st = slotInsert ∨ st = slotBypass then
      (if k > 0 then some (cmd.toggles.getLastD 0 : Nat) else if cmd.start = Present.ofCode (b7 % 4) then none else some 0)
    else if st = slotHold then none else some 0
  let age := match last with
    | some e => min 0x3FFFFF (w - e).toNat
    | none => min 0x3FFFFF (age0 + w.toNat)
  let s := s.modCell c (fun x => { x with cmd1 := cmd, age := age, ageFrom := age0, codePrev := code,
                                          heldCode := if code = 3 then 1 else if code = 4 then 2 else 0, lost := code == 7
                                          freshRun := if code = 7 then 0 else max 2 x.freshRun
                                          accA := 0, accB := 0, m := 0, tallyKept := false
                                          obeyed := x.obeyed || Present.ofCode (b7 % 4) != .blocked })
  let s := (s.setF (F.WIN_CELL_STAT_retire c) (bitsOf b7 2 2)).setF (F.WIN_CELL_STAT_stale_cnt c) (bitsOf b7 6 3)
  let s := s.setF (F.WIN_CELL_STAT_code c) code
  ((s.setF (F.WIN_CELL_TALLY_cgain c) (fieldAt r 11 3)).driftCheck c).setF (F.EDG_CELL_OC_tally c) (fieldAt r 14 1)

/-- Adoption at GATHER_DONE of the period after the records', before its codes are fixed; the holder zeroes the accumulators of the arm it sent. -/
def State.joinAdopt (s : State) : State :=
  let s := match s.pair.joinArm with
    | some (a, _) => s.forEach (s.armCells a) (fun s c => s.modCell c (fun x => { x with accA := 0, accB := 0, m := 0 }))
    | none => s
  let s := s.modPair (fun p => { p with joinArm := none })
  match s.pair.joinData with
  | none => s
  | some (a, n, rs) =>
    let s := s.modPair (fun p => { p with joinData := none })
    if s.holder || (n + 1) % 65536 != s.periodFull % 65536 then s
    else
    let s := ((s.armCells a).zip rs).foldl (fun s p => s.adoptCell p.1 p.2) s
    let s := s.modPair (fun p => { p with adopted := p.adopted ++ [a] })
    if s.enabledArms.all (fun a => s.pair.adopted.contains a) then
      (s.setF F.RED_STAT_join_done 1).modPair (fun p => { p with joinOpen := false })
    else s

/-! ### The boundary (R357 to R364) -/

/-- STATUS frames of the period just ended (R359, PARTNER_LOST). -/
def State.pairStatus (s : State) : State :=
  let s := if s.pair.compared then s else s.setF F.RED_STAT_match_run 0
  if s.pair.statusSeen then s.modPair (fun p => { p with statusMiss := 0 })
  else
    let s := (s.bumpF F.RED_CNT_status_miss 1).modPair (fun p => { p with statusMiss := min 2 (p.statusMiss + 1) })
    if s.pair.statusMiss ≥ 2 ∧ !s.pair.lostSeen then
      ((s.mark F.RED_FLAGS_partner_lost).raise .partnerLost 0 0 0).modPair (fun p => { p with lostSeen := true })
    else s

/-- In step or not at the boundary (R361), and eligible (R341). -/
def State.pairStep (s : State) : State :=
  let ok := s.mode == .shadow && s.bonded && s.fb F.RED_STAT_tf_locked && !s.holder
  let enter := ok && s.fb F.RED_STAT_sig_match && s.fb F.RED_STAT_join_done
    && decide (s.f F.RED_STAT_match_run ≥ s.f F.RED_CFG_match_need)
  let stay := s.fb F.RED_STAT_in_step && ok && !s.pair.inputBad && decide (s.pair.statusMiss < 2)
  let v := (enter && !s.pair.inputBad) || stay
  let s := s.setF F.RED_STAT_in_step (b2n v)
  if s.pair.openAt.isSome || s.lostSecond.isSome then s else s.setF F.RED_STAT_eligible (b2n v)

/-- A hand-over written two boundaries ago takes effect (R364). -/
def State.pairHandover (s : State) : State :=
  let s := if s.pair.handoverDue && s.holder then
      (if s.fb F.RED_STAT_partner_in_step then s.setDrive ilkIdle
       else (s.mark F.RED_FLAGS_handover_refused).raise .handoverRefused 0 0 0)
    else s
  s.modPair (fun p => { p with handoverDue := p.handover, handover := false })

/-- The pair at a period boundary; `wasRunning` says that a period has just ended. -/
def State.pairPeriod (s : State) (wasRunning : Bool) : State :=
  let s := s.modPair (fun p => { p with
    capLast := if s.paired && !(s.holder && p.held) then p.capNow else p.capLast ++ p.capNow
    capNow := [], held := s.holder, input := none, mirDone := false })
  if s.paired then
    let s := if wasRunning then s.pairStatus else s
    let s := s.pairStep.pairHandover
    s.modPair (fun p => { p with
      statusSeen := false, compared := false, inputBad := false, localInput := false,
      joinArm := p.joinSent.map (fun a => (a, s.periodFull)), joinSent := none,
      deferred := if s.holder then p.deferred else [] })
  else s

end Sys2Proof.Machine
end

