-- ==== Sys2Proof/Machine/CanOps.lean ====
section
/-! DEFINITION. The CAN FD controllers (R430 to R445). -/

namespace Sys2Proof.Machine

def canActive : Nat := 0
def canPassive : Nat := 1
def canBusOff : Nat := 2
def canRecovering : Nat := 3

/-- The controllers' clock runs, from CONFIGURE upward (R431, R433). -/
def State.canClocked (s : State) : Bool := s.live && s.mode.fromConfigure

/-- The controller works (R431, R433): taken over as in use, with its clock, from CONFIGURE upward. -/
def State.canWorks (s : State) (k : Nat) : Bool := (s.canC k).on && s.canClocked

def State.canState (s : State) (k : Nat) : Nat := s.f (F.CAN_STAT_state k)

/-- No data or remote frame is sent (R442). -/
def State.canMuted (s : State) (k : Nat) : Bool := s.paired && !s.holder && s.fb (F.CAN_CFG_tx_mute k)

/-- The queue changes; its fill shows. -/
def State.setQueue (s : State) (k : Nat) (q : List CanEntry) : State :=
  (s.modCan k (fun c => { c with queue := q })).setF (F.CAN_STAT_fill k) q.length

/-- Entries the queue accepts; the reset value 0 stands for 32, as a written 0 does (R434, log entry 24). -/
def State.fifoLimit (s : State) (k : Nat) : Nat :=
  let n := s.f (F.CAN_CFG_fifo_limit k)
  if n = 0 then 32 else n

/-- The PERIPH_CLK cycle in progress: 8 ns, five CORE_CLK cycles (R431). -/
def State.periphCyc (s : State) : Nat := s.cyc / 5

/-! ### Bit timing (R431) -/

/-- The bit timing lets the controller be enabled. -/
def State.canTimingOk (s : State) (k : Nat) : Bool :=
  let nq := 1 + s.f (F.CAN_NBT_tseg1 k) + s.f (F.CAN_NBT_tseg2 k)
  let dq := 1 + s.f (F.CAN_DBT_tseg1 k) + s.f (F.CAN_DBT_tseg2 k)
  decide (s.f (F.CAN_DBT_brp k) * dq * 8 ≥ 200) && decide (s.f (F.CAN_NBT_sjw k) ≤ s.f (F.CAN_NBT_tseg2 k))
    && decide (s.f (F.CAN_DBT_sjw k) ≤ s.f (F.CAN_DBT_tseg2 k)) && decide (nq ≥ 8) && decide (dq ≥ 5)

/-! ### Entries (R435) -/

/-- Data bytes of a DLC. -/
def dlcBytes (fd : Bool) (dlc : Nat) : Nat :=
  if dlc ≤ 8 then dlc
  else if !fd then 8
  else [12, 16, 20, 24, 32, 48, 64].getD (dlc - 9) 64

/-- Data bytes of a frame; a remote frame carries none. -/
def canLen (idWord control : Nat) : Nat := if bitOf idWord 30 then 0 else dlcBytes (bitOf idWord 31) (control % 16)

/-- The entry is bad. -/
def canBad (idWord control : Nat) (reserved : Bool) : Bool :=
  (!bitOf idWord 29 && decide (idWord % 2 ^ 29 > 0x7FF)) || (bitOf idWord 30 && bitOf idWord 31)
    || (bitOf control 4 && !bitOf idWord 31) || decide (control / 32 ≠ 0) || reserved

/-- A feed entry is written back with a state, after its start-of-frame stamp where one is given. -/
def State.feedBack (s : State) (e : CanEntry) (st : Nat) (sof : Option Nat) : State :=
  match e.feed with
  | none => s
  | some a =>
    let s := match sof with
      | some t => s.grnWriteA (a + 8) (leBytes 8 (timeWord t))
      | none => s
    s.grnWriteA (a + 7) (leBytes 1 st)

/-- A push enters the queue, or finds it full (R434). -/
def State.pushEntry (s : State) (k : Nat) (e : CanEntry) : State :=
  let t := s.periphCyc
  if (s.canC k).queue.length ≥ s.fifoLimit k then
    let n := s.f (F.CAN_CNT3_tx_full k)
    (s.bumpF (F.CAN_CNT3_tx_full k) 1).modCan k (fun c => { c with fullPush := some (t, e, n) })
  else (s.setQueue k ((s.canC k).queue ++ [e])).modCan k (fun c =>
    { c with pushAt := t, pushes := if c.pushAt = t then c.pushes + 1 else 1 })

/-- A push that found the queue full in the cycle in which the head leaves it is accepted after all (R434). -/
def State.pushAgain (s : State) (k : Nat) : State :=
  match (s.canC k).fullPush with
  | none => s
  | some (t, e, n) =>
    let s := s.modCan k (fun c => { c with fullPush := none })
    if t = s.periphCyc then (s.putRc (F.CAN_CNT3_tx_full k) n).pushEntry k e else s

/-- Entries pushed in the PERIPH_CLK cycle in progress: they enter behind what leaves the queue in it (R434). -/
def State.pushedNow (s : State) (k : Nat) : Nat :=
  if (s.canC k).pushAt = s.periphCyc then min (s.canC k).pushes (s.canC k).queue.length else 0

/-- A feed entry enters the queue, before the pushes of its PERIPH_CLK cycle (R434). -/
def State.feedEntry (s : State) (k : Nat) (e : CanEntry) : State :=
  let c := s.canC k
  let m := s.pushedNow k
  let front := c.queue.take (c.queue.length - m) ++ [e]
  let back := c.queue.drop (c.queue.length - m)
  if c.queue.length < s.fifoLimit k then s.setQueue k (front ++ back)
  else (s.setQueue k (front ++ back.dropLast)).bumpF (F.CAN_CNT3_tx_full k) 1

/-- Whether a feed entry finds room: pushes of its PERIPH_CLK cycle come after it (R434). -/
def State.feedFits (s : State) (k : Nat) : Bool :=
  let c := s.canC k
  decide (c.queue.length < s.fifoLimit k)
    || (decide (0 < s.pushedNow k) && decide (c.queue.length ≤ s.fifoLimit k))

/-- push (R434, R442). -/
def State.canPush (s : State) (k : Nat) : State :=
  if s.canMuted k then s.bumpF (F.CAN_CNT4_tx_muted k) 1
  else
    let idw := s.rd (R.CAN_TXBUF k 0)
    let w1 := s.rd (R.CAN_TXBUF k 1)
    let data := (upto 16).flatMap (fun w => leBytes 4 (s.rd (R.CAN_TXBUF k (w + 2))))
    if canBad idw (w1 % 256) (bitsOf w1 23 8 != 0) then s.bumpF (F.CAN_CNT3_tx_bad k) 1
    else s.pushEntry k { idWord := idw, control := w1 % 256, data := data.take (canLen idw w1), feed := none }

/-- Every 1 µs, counted from the examination before it, the next feed entry is examined (R434). -/
def execCanFeedPoll (k : Fin 2) (eccs : List Ecc) (s : State) : Host.Outcome State Fault Refusal :=
  if !s.canWorks k || !s.fb (F.CAN_TXFEED_en k) then .next s
  else
    let n := 2 ^ s.f (F.CAN_TXFEED_log2_len k)
    let i := (s.canC k).feedNext % n
    let a := s.f (F.CAN_TXFEED_base k) * 128 + i * 128
    let s := s.advanceCyc ((s.canC k).pollAt + cycPerUs)
    let s := s.modCan k (fun c => { c with pollAt := s.cyc })
    let s := (s.grnWait.grnCheck reqEth a 128 eccs).2
    let d := s.grnRead a 128
    if fieldAt d 7 1 ≠ 1 then .next s
    else
      let idw := fieldAt d 0 4
      let ctl := fieldAt d 4 1
      let e : CanEntry := { idWord := idw, control := ctl, data := (d.drop 32).take (canLen idw ctl), feed := some a }
      let on := s.modCan k (fun c => { c with feedNext := (i + 1) % n })
      if s.canMuted k then .next (on.feedBack e 3 none)
      else if canBad idw ctl (fieldAt d 5 2 != 0 || fieldAt d 16 16 != 0 || fieldAt d 96 32 != 0) then .next (on.feedBack e 5 none)
      else .next (if s.feedFits k then on.feedEntry k e else s)

/-! ### Removing entries (R436) -/

/-- The head leaves the queue; what was pending for it is satisfied. -/
def State.dropHead (s : State) (k : Nat) : State :=
  ((s.setQueue k ((s.canC k).queue.drop 1)).modCan k (fun c => { c with ackRun := 0, clashRun := 0, abortPend := false })).pushAgain k

/-- Every entry is written back with state 4 and removed; a push of the same cycle is judged after the removal (R434). -/
def State.emptyQueue (s : State) (k : Nat) (count : Bool) : State :=
  let n := (s.canC k).queue.length - s.pushedNow k
  let q := (s.canC k).queue.take n
  let s := q.foldl (fun s e => s.feedBack e 4 none) s
  let s := if count then s.bumpF (F.CAN_CNT4_tx_abort k) q.length else s
  ((s.setQueue k ((s.canC k).queue.drop n)).modCan k (fun c =>
    { c with ackRun := 0, clashRun := 0, abortPend := false, flushPend := false })).pushAgain k

/-- The head is aborted. -/
def State.abortHead (s : State) (k : Nat) : State :=
  match (s.canC k).queue with
  | [] => s.modCan k (fun c => { c with abortPend := false })
  | e :: _ => ((s.feedBack e 4 none).bumpF (F.CAN_CNT4_tx_abort k) 1).dropHead k

/-- An attempt of the head may be in progress: the controller offers it. -/
def State.canOffers (s : State) (k : Nat) : Bool :=
  s.canWorks k && (s.canC k).mode != canRestricted && decide (s.canState k < canBusOff) && !(s.canC k).queue.isEmpty
    && !s.canMuted k

/-- abort_head is written; `busy` says that an attempt is in progress. -/
def State.canAbort (s : State) (k : Nat) (busy : Bool) : State :=
  if (s.canC k).queue.length ≤ s.pushedNow k then s
  else if busy && s.canOffers k then s.modCan k (fun c => { c with abortPend := true })
  else s.abortHead k

/-- flush is written. -/
def State.canFlush (s : State) (k : Nat) (busy : Bool) : State :=
  if busy && s.canOffers k then s.modCan k (fun c => { c with flushPend := true })
  else s.emptyQueue k true

/-! ### Error states (R443) -/

def State.canCounts (s : State) (k : Nat) : Nat := s.f (F.CAN_STAT_tec k) + s.f (F.CAN_STAT_rec k) * 2 ^ 16

/-- A change of mode or en takes effect at bus idle, or at once where the controller is bus-off (R433). -/
def State.canTakeOver (s : State) (k : Nat) : State :=
  s.modCan k (fun c => { c with on := s.fb (F.CAN_CFG_en k), mode := s.f (F.CAN_CFG_mode k) })

/-- Bus-off is entered. -/
def State.busOff (s : State) (k : Nat) : State :=
  let s := s.mark (F.CAN_STAT_busoff_seen k)
  let s := s.raise .busOff k (s.f (F.CAN_STAT_lec k)) (s.canCounts k)
  let s := if s.fb (F.CAN_CFG_flush_busoff k) then s.emptyQueue k false else s
  (s.setF (F.CAN_STAT_state k) (if s.fb (F.CAN_CFG_auto_rec k) then canRecovering else canBusOff)).canTakeOver k

/-- The error state follows the counters. -/
def State.canErrState (s : State) (k through : Nat) : State :=
  let tec := s.f (F.CAN_STAT_tec k)
  let rec_ := s.f (F.CAN_STAT_rec k)
  let st := s.canState k
  if st ≥ canBusOff then s
  else if tec ≥ 256 then s.busOff k
  else if tec ≥ 128 ∨ rec_ ≥ 128 then
    (if st = canActive then (s.setF (F.CAN_STAT_state k) canPassive).raise .errPassive k through (s.canCounts k) else s)
  else s.setF (F.CAN_STAT_state k) canActive

/-- A transmit error: the counter rises by 8 for its error flag, but where `free` holds, and by 8 for each of `more` (R437, R443, ISO 11898-1,
log entry 25). -/
def State.txError (s : State) (k code : Nat) (free : Bool) (more : Nat) : State :=
  let s := s.setF (F.CAN_STAT_lec k) code
  let n := 8 * (b2n (!free) + more)
  if n = 0 then s else (s.setF (F.CAN_STAT_tec k) (min 511 (s.f (F.CAN_STAT_tec k) + n))).canErrState k 0

/-- An acknowledge error of an error-passive transmitter that meets no dominant bit during its error flag adds nothing (R437). -/
def State.ackFree (s : State) (k : Nat) (dominant : Bool) : Bool := s.canState k == canPassive && !dominant

/-! ### Reception (R439 to R441) -/

/-- The receive object a frame goes to. -/
def State.rxObject (s : State) (k idWord : Nat) : Option Nat :=
  (upto 128).find? (fun o => s.fb (F.CAN_RXOBJ_en k o) && s.f (F.CAN_RXOBJ_ide k o) == bitsOf idWord 29 29
    && s.f (F.CAN_RXOBJ_id k o) == bitsOf idWord 28 0)

/-- A frame received without error is matched. -/
def State.canReceive (s : State) (k idWord control : Nat) (data : List Byte) (sof : Nat) : State :=
  match s.rxObject k idWord with
  | none => s.bumpF (F.CAN_CNT2_no_match k) 1
  | some o => s.modCan k (fun c => { c with rx := c.rx ++
      [{ obj := o, idWord := idWord, control := control % 64, data := data.take (canLen idWord control), sof := sof }] })

/-- A successful reception lowers the receive error counter (ISO 11898-1): above 127 to a value from 119 to 127, a free value (log entry 3). -/
def State.rxGood (s : State) (k : Nat) : State :=
  let r := s.f (F.CAN_STAT_rec k)
  if r = 0 then s
  else if r ≤ 127 then (s.setF (F.CAN_STAT_rec k) (r - 1)).canErrState k 1
  else
    let fv := s.free
    (fv.2.setF (F.CAN_STAT_rec k) (119 + fv.1 % 9)).canErrState k 1

/-- A frame arrives, or fails with an error code of CAN_STAT.lec; `sof` is the stamp of its start-of-frame edge (ns). -/
def execCanFrameReceived (k : Fin 2) (f : CanFrame) (sof : Nat) (err : Option CanRxErr) (s : State) :
    Host.Outcome State Fault Refusal :=
  if !s.canWorks k || (s.canC k).mode == canLoopback || decide (s.canState k ≥ canBusOff) then .next s
  else
    let restricted := (s.canC k).mode == canRestricted
    match err with
    | some e =>
      let s := s.setF (F.CAN_STAT_lec k) e.code
      .next (if restricted then s else (s.bumpF (F.CAN_STAT_rec k) (1 + 8 * e.more)).canErrState k 1)
    | none =>
      let s := if restricted then s else s.rxGood k
      .next (s.canReceive k f.idWord.toNat f.control.toNat f.data sof)

/-- A matched frame is written to its object (R440, R441), forwarded (R442), and CANk_RX occurs. -/
def execCanObjectWrite (k : Fin 2) (s : State) : Host.Outcome State Fault Refusal :=
  match (s.canC k).rx with
  | [] => .next s
  | x :: rest =>
    if !s.canClocked then .next s
    else
    let a := s.f (F.CAN_RX_BASE_base k) * 16384 + x.obj * 128
    let s := s.grnWait.grnSee reqEth a 16
    let old := s.grnRead a 16
    let seq := (fieldAt old 0 4 % 2 ^ 31 + 1) % 2 ^ 31
    let unread := bitOf (fieldAt old 9 1) 0
    let seen := (s.canC k).lostSeen.contains x.obj
    let tail := leBytes 4 x.idWord ++ leBytes 1 x.control ++ leBytes 1 (1 + b2n unread * 2) ++ leBytes 6 0
      ++ leBytes 8 (timeWord x.sof) ++ leBytes 8 0 ++ (x.data ++ List.replicate 64 0).take 64
    let s := s.modCan k (fun c => { c with
      rx := rest
      lostSeen := if unread then (if seen then c.lostSeen else x.obj :: c.lostSeen) else c.lostSeen.filter (· != x.obj) })
    let s := s.grnWriteA a (leBytes 4 seq ++ tail)
    let s := s.bumpF (F.CAN_CNT_rx_stored k) 1
    let s := if unread then
        let s := s.bumpF (F.CAN_CNT2_lost_cnt k) 1
        if seen then s else s.raise .canLost k x.obj seq
      else s
    let it : MirItem := { kind := 1, source := k, ns := x.sof, payload := leBytes 4 seq ++ tail, index := none, ord := 0 }
    .next ((s.capture it).occur (0x0A + k))

/-! ### Attempts (R436 to R438, R443) -/

/-- The head leaves in an ending of its own. -/
def State.endHead (s : State) (k : Nat) (e : CanEntry) (st : Nat) (sof : Option Nat) : State := (s.feedBack e st sof).dropHead k

/-- The head entry is sent; an FD frame carries ESI, which LOOPBACK receives, by the error state (R430). -/
def State.canSent (s : State) (k : Nat) (e : CanEntry) (sof : Nat) : State :=
  let t := s.f (F.CAN_STAT_tec k)
  let esi := if bitOf e.idWord 31 && s.canState k == canPassive then 32 else 0
  let s := (s.endHead k e 2 (some sof)).bumpF (F.CAN_CNT_tx_done k) 1
  let s := if (s.canC k).mode = canLoopback then s.canReceive k e.idWord (e.control + esi) e.data sof else s
  if t = 0 then s else (s.setF (F.CAN_STAT_tec k) (t - 1)).canErrState k 0

/-- An acknowledge error of the head entry (R437). -/
def State.canAckErr (s : State) (k : Nat) (e : CanEntry) (dominant : Bool) (more : Nat) : State :=
  let s := s.txError k 3 (s.ackFree k dominant) more
  let s := if (s.canC k).queue.isEmpty then s else s.modCan k (fun c => { c with ackRun := c.ackRun + 1, clashRun := 0 })
  let lim := s.f (F.CAN_CFG_retry_lim k)
  if lim ≠ 0 ∧ (s.canC k).ackRun ≥ lim then
    ((s.endHead k e 6 none).mark (F.CAN_STAT_alone k)).raise .alone k lim e.idWord
  else s

/-- A bit error after arbitration (R438). -/
def State.canClash (s : State) (k : Nat) (e : CanEntry) (code more : Nat) : State :=
  let s := s.txError k code false more
  let s := if (s.canC k).queue.isEmpty then s else s.modCan k (fun c => { c with clashRun := c.clashRun + 1, ackRun := 0 })
  if (s.canC k).clashRun ≥ 3 then
    ((s.endHead k e 7 none).mark (F.CAN_STAT_idclash k)).raise .idclash k 3 e.idWord
  else s

/-- Any other error ending. -/
def State.canOther (s : State) (k code : Nat) (free : Bool) (more : Nat) : State :=
  (s.txError k code free more).modCan k (fun c => { c with ackRun := 0, clashRun := 0 })

/-- A delay is measured in an FD frame with BRS whose FDF-to-res edge was sent, which is after arbitration; in LOOPBACK no edge reaches
CANk_TX (R432, R433). -/
def State.tdcTaken (s : State) (k : Nat) (e : CanEntry) (how : CanEnd) (seen : CanSeen) : State :=
  let before := how == .lostArb || how == .stuffErr true || how == .bitErr false false || how == .bitErr false true
  match seen.tdc with
  | some d =>
    if !before && (s.canC k).mode != canLoopback && s.fb (F.CAN_DBT_tdc_en k) && bitOf e.idWord 31 && bitOf e.control 4 then
      s.setF (F.CAN_TDC_tdc_meas k) d.toNat else s
  | none => s

/-- An attempt of the head entry ends; `sof` is the stamp of its start-of-frame edge (ns). -/
def execCanTxAttemptEnd (k : Fin 2) (how : CanEnd) (sof : Nat) (seen : CanSeen) (s : State) :
    Host.Outcome State Fault Refusal :=
  match (s.canC k).queue with
  | [] => .next s
  | e :: _ =>
    if !s.canOffers k then .next s
    else
      let s := s.tdcTaken k e how seen
      let s := match how with
        | .sent => s.canSent k e sof
        | .lostArb => s
        | .ackErr dominant => s.canAckErr k e dominant seen.more
        | .stuffErr arb => s.canOther k 1 arb seen.more
        | .formErr => s.canOther k 2 false seen.more
        | .crcErr => s.canOther k 6 false seen.more
        | .bitErr true b => s.canClash k e (if b then 4 else 5) seen.more
        | .bitErr false b => s.canOther k (if b then 4 else 5) false seen.more
      let s := if (s.canC k).abortPend then s.abortHead k else s
      .next (if (s.canC k).flushPend then s.emptyQueue k true else s)

/-! ### Mode, recovery, BOOT (R433, R443) -/

/-- The bus is idle: a change of mode or en takes effect. -/
def execCanModeApply (k : Fin 2) (s : State) : Host.Outcome State Fault Refusal := .next (if s.canClocked then s.canTakeOver k else s)

/-- CAN_CFG was written: a controller that is bus-off takes the change at once. -/
def State.canCfgWritten (s : State) (k : Nat) : State := if s.canState k ≥ canBusOff then s.canTakeOver k else s

/-- recover is written. -/
def State.canRecover (s : State) (k : Nat) : State :=
  if s.canState k = canBusOff then s.setF (F.CAN_STAT_state k) canRecovering else s

/-- Recovery ends: error-active, both counters 0. -/
def execCanRecoveryDone (k : Fin 2) (s : State) : Host.Outcome State Fault Refusal :=
  .next (if s.canClocked = true ∧ s.canState k = canRecovering then
    ((s.setF (F.CAN_STAT_state k) canActive).setF (F.CAN_STAT_tec k) 0).setF (F.CAN_STAT_rec k) 0 else s)

/-- Entry to BOOT clears en, empties both queues and resets the error counters (R433). -/
def State.canBoot (s : State) : State :=
  s.forEach [0, 1] (fun s k =>
    let s := (s.setF (F.CAN_CFG_en k) 0).setQueue k []
    let s := ((s.setF (F.CAN_STAT_state k) 0).setF (F.CAN_STAT_tec k) 0).setF (F.CAN_STAT_rec k) 0
    s.modCan k (fun c => { c with on := false, ackRun := 0, clashRun := 0, abortPend := false, flushPend := false, rx := [] }))

end Sys2Proof.Machine
end

