-- ==== Sys2Proof/Machine/EthOps.lean ====
section
/-! DEFINITION. The Ethernet ports: reception, stamps, rings and sampled values (R417 to R426). Instants are in 1/256 ns. -/

namespace Sys2Proof.Machine

def State.eth (s : State) (p : Nat) : EthPort := tget EthPort.reset s.tim.eth p
def State.modEth (s : State) (p : Nat) (g : EthPort → EthPort) : State :=
  s.modTim (fun t => { t with eth := tput EthPort.reset t.eth p (g (s.eth p)) })

/-- The port works: in use, and its clocks run (R417). -/
def State.ethOn (s : State) (p : Nat) : Bool := s.fb (F.TIM_ETH_CFG_en p) && s.live

/-! ### Reading a frame -/

/-- A big-endian number of `n` bytes from offset `a`. -/
def beAt (bs : List Byte) (a n : Nat) : Nat := ((bs.drop a).take n).foldl (fun acc b => acc * 256 + b.toNat) 0

/-- One VLAN tag stands in the frame. -/
def vlanTag (f : List Byte) : Bool := beAt f 12 2 == 0x8100

/-- Offset of the Ethertype, behind a VLAN tag where there is one. -/
def typeAt (f : List Byte) : Nat := if vlanTag f then 16 else 12

/-- Offset of the PTP header (R421): behind Ethertype 0x88F7, or behind IPv4 with IHL 5 and UDP to port 319. -/
def ptpAt (f : List Byte) : Option Nat :=
  let o := typeAt f
  if beAt f o 2 = 0x88F7 then some (o + 2)
  else if beAt f o 2 = 0x0800 ∧ beAt f (o + 2) 1 = 0x45 ∧ beAt f (o + 11) 1 = 17 ∧ beAt f (o + 24) 2 = 319 then some (o + 30)
  else none

/-- The messageType of a PTP frame. -/
def ptpType (f : List Byte) : Option Nat := (ptpAt f).map (fun o => beAt f o 1 % 16)

/-- A PTP event message (R421). -/
def ptpEvent (f : List Byte) : Bool := match ptpType f with | some k => decide (k ≤ 3) | none => false

/-- The filter accepts a destination address (R417). -/
def State.ethAccepts (s : State) (p : Nat) (f : List Byte) : Bool :=
  let d := beAt f 0 6
  let own := s.f (F.TIM_ETH_MAC_LO_mac p) + s.f (F.TIM_ETH_MAC_HI_mac p) * 2 ^ 32
  s.fb (F.TIM_ETH_CFG_promisc p) || d == own || d == 0xFFFFFFFFFFFF
    || (upto 8).any (fun k =>
      let a := s.f (F.TIM_ETH_MC_LO_addr_lo p k) + s.f (F.TIM_ETH_MC_HI_addr_hi p k) * 2 ^ 32
      s.fb (F.TIM_ETH_MC_HI_en p k) && (if s.fb (F.TIM_ETH_MC_HI_mask16 p k) then d / 2 ^ 16 == a / 2 ^ 16 else d == a))

/-! ### Stamps (R421) -/

/-- A stamp of `t` units of 0.8 ns, the resolution of the stamp point's instant, in 1/256 ns. -/
def stampAt (t : Nat) : Nat := t * 1024 / 5

/-- A frame whose stamp point was stamped `t` (0.8 ns) has passed the balls, with `n` bytes and its FCS at 1 Gb/s, no earlier than its length
after it (R417, R421). -/
def State.frameEnd (s : State) (t n : Nat) : State := s.advanceTo (t * 4 / 5 + (n + 4) * 8)

/-! ### Reception (R418 to R425) -/

/-- A stamp as written: time word and fraction. -/
def stampBytes (t : Nat) : List Byte := leBytes 8 (timeWord (t / 256)) ++ leBytes 1 t

/-- An Announce message with a new grandmaster identity (R423). -/
def State.gmWatch (s : State) (p : Nat) (f : List Byte) : State :=
  match ptpAt f with
  | none => s
  | some o =>
    if s.fb (F.TIM_ETH_CFG_gm_watch p) && beAt f o 1 % 16 == 0xB && beAt f (o + 4) 1 == s.f (F.TIM_ETH_CFG_domain p) then
      let id := beAt f (o + 53) 8
      let old := s.rd (R.TIM_GM_LO p) + s.rd (R.TIM_GM_HI p) * 2 ^ 32
      let store := fun (s : State) => ((s.wr (R.TIM_GM_LO p) id).wr (R.TIM_GM_HI p) (id / 2 ^ 32)).modEth p
        (fun x => { x with gmSeen := true })
      if !(s.eth p).gmSeen then store s
      else if id = old then s
      else ((store s).mark F.TIM_STAT_gm_change).raise .gmChange p 0 id
    else s

/-- The sampled-value entry a frame goes to (R425). -/
def State.svEntry (s : State) (p : Nat) (f : List Byte) : Option Nat :=
  let o := typeAt f
  if beAt f o 2 == 0x88BA then
    (upto 16).find? (fun k => s.fb (F.TIM_SV_CFG_en k) && bitOf (s.f (F.TIM_SV_CFG_ports k)) p
      && s.f (F.TIM_SV_CFG_appid k) == beAt f (o + 2) 2)
  else none

/-- A frame is stored as a sampled value (R425), and forwarded (R424). -/
def State.svStore (s : State) (p k : Nat) (f : List Byte) (t : Nat) : State :=
  let body := f.drop (typeAt f)
  let n := (tget 0 s.tim.svCount k + 1) % 2 ^ 32
  let slot := (n + 2 ^ 32 - 1) % 2 ^ s.f (F.TIM_SV_CFG_log2_depth k)
  let size := s.f (F.TIM_SV_CFG_slot_units k) * 256
  let addr := s.f (F.TIM_SV_BASE_base k) * 256 + slot * size
  let cut := decide (body.length > size - 32)
  let s := s.modTim (fun x => { x with svCount := tput 0 x.svCount k n })
  let s := s.grnWriteA addr (leBytes 4 n ++ leBytes 2 body.length ++ leBytes 1 p ++ leBytes 1 (b2n cut + b2n (vlanTag f) * 2)
    ++ stampBytes t ++ leBytes 15 0 ++ body.take (size - 32))
  let s := s.setF (F.TIM_SV_STAT_stored k) n
  let s := if cut then s.bumpF (F.TIM_SV_STAT_trunc k) 1 else s
  (s.capture (s.item 2 p body none)).occur 0x0C

/-- A frame goes to the RX ring (R418, R419), and is forwarded (R424). -/
def State.rxRing (s : State) (p : Nat) (f : List Byte) (t : Nat) : State :=
  if !s.fb (F.TIM_ETH_RXRING_en p) then s
  else
    let x := s.eth p
    let n := 2 ^ s.f (F.TIM_ETH_RXRING_log2_len p)
    let addr := s.f (F.TIM_ETH_RXRING_base p) * 2048 + x.rxNext % n * 2048
    let s := s.grnSee reqEth (addr + 3) 1
    if s.grnByte (addr + 3) ≠ 0 then s.bumpF (F.TIM_ETH_CNT_rx_drop p) 1
    else
      let count := (x.rxCount + 1) % 2 ^ 32
      let head := leBytes 2 f.length ++ leBytes 1 (b2n (ptpEvent f) + b2n (vlanTag f) * 2 + p * 4) ++ leBytes 1 1
        ++ leBytes 4 count ++ stampBytes t ++ leBytes 15 0
      let s := (s.grnWriteA addr (head ++ f)).modEth p (fun x => { x with rxCount := count, rxNext := (x.rxNext + 1) % n })
      let fwd := s.f (F.TIM_ETH_CFG_fwd p)
      if fwd = 2 ∨ (fwd = 1 ∧ (ptpAt f).isSome) then s.capture (s.item 3 p (head ++ f.take 128) none) else s

/-- A frame is received; `t` is the instant of the stamp point at the balls as the device measures it, within ±2 ns of the timebase, in units of
0.8 ns (R418, R421). Sampled values are stored from CONFIGURE upward (R426). -/
def execEthFrameReceived (p : Fin 2) (frame : List Byte) (fcsOk : Bool) (t : Nat) (s : State) :
    Host.Outcome State Fault Refusal :=
  if !s.ethOn p then .next s
  else
  let s := s.frameEnd t frame.length
  if !fcsOk ∨ frame.length < 60 ∨ frame.length > 1996 then .next (s.bumpF (F.TIM_ETH_CNT_fcs_err p) 1)
  else if !s.ethAccepts p frame then .next s
  else if beAt frame (typeAt frame) 4 = 0x88080001 then .next s
  else
    let stamp := ((stampAt t : Int) - sx 16 (s.f (F.TIM_ETH_LAT_rx_lat p)) * 32).toNat
    let s := s.grnWait.gmWatch p frame
    match s.svEntry p frame with
    | some k => .next (if s.mode.fromConfigure then s.svStore p k frame stamp else s)
    | none => .next (s.rxRing p frame stamp)

/-! ### Transmission (R420 to R422, R424) -/

def State.txAddr (s : State) (p i : Nat) : Nat := s.f (F.TIM_ETH_TXRING_base p) * 32 + i * 32

/-- A descriptor is returned with a state. -/
def State.txReturn (s : State) (p i st : Nat) : State := s.grnWriteA (s.txAddr p i + 7) (leBytes 1 st)

/-- The frame of a descriptor, padded to 60 bytes. -/
def State.txBytes (s : State) (d : List Byte) : List Byte :=
  let f := s.grnRead (fieldAt d 0 4) (fieldAt d 4 2)
  f ++ List.replicate (60 - f.length) 0

/-- A one-step message the device can modify: Sync or Pdelay_Resp (R422). -/
def oneStepOk (f : List Byte) : Bool := match ptpType f with | some k => k == 0 || k == 3 | none => false

/-- Every 1 µs, counted from the examination before it, the next descriptor is examined (R420); on a muted non-holder it is returned at once (R424). -/
def execTxDescriptorPoll (p : Fin 2) (eccs : List Ecc) (s : State) : Host.Outcome State Fault Refusal :=
  let x := s.eth p
  if !s.ethOn p || !s.fb (F.TIM_ETH_TXRING_en p) || x.txBusy.isSome then .next s
  else
    let n := 2 ^ s.f (F.TIM_ETH_TXRING_log2_len p)
    let i := x.txNext % n
    let s := s.advanceCyc (x.pollAt + cycPerUs)
    let s := s.modEth p (fun y => { y with pollAt := s.cyc })
    let s := (s.grnWait.grnCheck reqEth (s.txAddr p i) 32 eccs).2
    let d := s.grnRead (s.txAddr p i) 32
    if fieldAt d 7 1 ≠ 1 then .next s
    else
      let s := s.modEth p (fun y => { y with txNext := (i + 1) % n })
      let len := fieldAt d 4 2
      if s.paired && !s.holder && s.fb (F.TIM_ETH_CFG_tx_mute p) then
        .next ((s.txReturn p i 3).bumpF (F.TIM_ETH_CNT2_tx_muted p) 1)
      else if len < 14 ∨ len > 1996 ∨ fieldAt d 0 4 + len > grnSize then
        .next ((s.txReturn p i 5).bumpF (F.TIM_ETH_CNT2_tx_err p) 1)
      else if bitOf (fieldAt d 6 1) 1 && !oneStepOk (s.txBytes d) then
        .next ((s.txReturn p i 4).bumpF (F.TIM_ETH_CNT2_tx_err p) 1)
      else .next (s.modEth p (fun y => { y with txBusy := some i }))

/-- Big-endian bytes. -/
def beBytes (n v : Nat) : List Byte := (leBytes n v).reverse

/-- Bytes put into a frame at an offset. -/
def patch (f : List Byte) (a : Nat) (bs : List Byte) : List Byte := f.take a ++ bs ++ f.drop (a + bs.length)

/-- A message modified in flight with its egress stamp (R422). -/
def oneStep (f d : List Byte) (egress : Nat) : List Byte :=
  match ptpAt f with
  | none => f
  | some o =>
    let corr := beAt f (o + 8) 8
    let ns := egress / 256
    let g := if beAt f o 1 % 16 = 0 then
        patch (patch f (o + 34) (beBytes 6 (ns / nsPerSec) ++ beBytes 4 (ns % nsPerSec))) (o + 8) (beBytes 8 (corr + egress % 256 * 256))
      else
        let resid : Int := ((egress : Int) - (instantOf (fieldAt d 8 8) * 256 : Nat)) * 256
        patch f (o + 8) (beBytes 8 (twos 64 ((corr : Int) + resid)))
    if beAt f (typeAt f) 2 = 0x0800 then patch g (o - 2) [0, 0] else g

/-- The words of a frame that is sent are read; those that read as uncorrectable are reported, and used as read (R452). -/
def State.txSee (s : State) (p i : Nat) : State :=
  let s := s.grnSee reqEth (s.txAddr p i) 32
  let d := s.grnRead (s.txAddr p i) 32
  s.grnSee reqEth (fieldAt d 0 4) (fieldAt d 4 2)

/-- The frame has left; `t` is the instant of the stamp point at the balls as the device measures it, in units of 0.8 ns (R421). A frame in
progress as the clocks stop leaves when they run again (R417, log entry 132). -/
def execEthFrameSent (p : Fin 2) (t : Nat) (s : State) : Host.Outcome State Fault Refusal :=
  match (s.eth p).txBusy with
  | none => .next s
  | some i =>
    if !s.ethOn p then .next s
    else
    let s := s.txSee p i
    let d := s.grnRead (s.txAddr p i) 32
    let flags := fieldAt d 6 1
    let egress := ((stampAt t : Int) + sx 16 (s.f (F.TIM_ETH_LAT_tx_lat p)) * 32).toNat
    let f := s.txBytes d
    let s := s.frameEnd t f.length
    let f := if bitOf flags 1 then oneStep f d egress else f
    let s := s.modEth p (fun x => { x with txBusy := none, txFrame := f })
    let s := if bitOf flags 0 || bitOf flags 1 then s.grnWriteA (s.txAddr p i + 16) (stampBytes egress) else s
    .next (s.txReturn p i 2)

/-! ### The link (R417) -/

/-- The link state of a port changes. -/
def execEthLinkChange (p : Fin 2) (up : Bool) (ability : BitVec 16) (s : State) : Host.Outcome State Fault Refusal :=
  if !s.ethOn p then .next s
  else
    let old := s.fb (F.TIM_ETH_STAT_link p)
    let an := s.f (F.TIM_ETH_CFG_pcs p) != 1
    let s := (s.setF (F.TIM_ETH_STAT_partner p) ability.toNat).setF (F.TIM_ETH_STAT_an_done p) (b2n (up && an))
    let s := (s.setF (F.TIM_ETH_STAT_link p) (b2n up)).modEth p (fun x => { x with negotiating := !up && x.negotiating })
    let s := if old && !up then s.mark (F.TIM_ETH_STAT_link_down p) else s
    .next (if old != up then s.raise .ethLink p (b2n up) ability.toNat else s)

/-- an_restart is written. -/
def State.anRestart (s : State) (p : Nat) : State :=
  (s.setF (F.TIM_ETH_STAT_an_done p) 0).modEth p (fun x => { x with negotiating := true })

end Sys2Proof.Machine
end

