-- ==== Sys2Proof/Machine/Lanes.lean ====
section
/-! DEFINITION. Lane training, ECHO, discovery, markers, the mirror bond, adaptation and the pattern checker
(R96 to R106, R112 to R139). -/

namespace Sys2Proof.Machine

/-! ### Training (R124 to R127) -/

/-- Training of a lane begins at attempt 1; its discovery starts again. -/
def State.startTraining (s : State) (l : Nat) : State :=
  let s := (s.setLaneState l laneTraining).setF (F.LPHY_STAT_attempts l) 1
  let s := s.modLane l (fun x => { x with
    attempt := true, backoff := false, attemptAt := s.cyc, helloNext := s.cyc, markerFail := false, helloSeen := false
    trainedOnce := false, deadSaid := false, echoN := 0, echoD := 0, echoR := 0, echoOut := false, timingOk := false, discPeriods := 0
    missRun := 0, relock := false, unreach := false, yielded := false, splitIn := 0, tx := { x.tx with due := [] } })
  if l < 48 then
    ((((s.setF (F.NCL_LSTAT_disc_step l) 0).setF (F.NCL_LSTAT_path_mode l) 0).setF (F.NCL_LSTAT_break_pos l) 0).setF
      (F.NCL_LSTAT_delay_valid l) 0).hideLane l
  else s

/-- A lane trains: a cell lane only in MUSTER, since positions and delays are assigned there alone (R103, R106). -/
def State.trains (s : State) (l : Nat) : Bool := decide (48 ≤ l) || s.mode == .muster

/-- A marker leaves a mirror lane at once, inside a frame too (R121); every other set takes its rank (R114). -/
def State.sendSet (s : State) (l rank : Nat) (x : TxSet) : State :=
  if l ≥ 48 ∧ rank = 5 then s.sendNow l [x] else s.sendDue l rank [x]

/-- HELLO sets leave: during a training attempt, and on a mirror lane that has trained to the end of the attempt's 2 ms (log entry 94). -/
def State.helloDue (s : State) (l : Nat) : Bool :=
  let x := s.lane l
  s.trains l && (x.attempt || (decide (48 ≤ l) && s.laneState l == laneUp)) && decide (x.helloNext < x.attemptAt + 2 * cycPerMs)

/-- A HELLO set leaves, 20 µs after the one before it (R124). -/
def execHelloSend (l : Fin 50) (s : State) : Host.Outcome State Fault Refusal :=
  let at_ := (s.lane l).helloNext
  if s.helloDue l then
    let s := (s.advanceCyc at_).modLane l (fun x => { x with helloNext := at_ + 20 * cycPerUs })
    .next (s.sendSet l 6 (mkSet 4 (s.helloPayload l)))
  else .next s

/-- The period sequencer starts at step 3 of discovery (R103): once every trained lane has its path delays (log entry 13). -/
def State.musterSequencer (s : State) : State :=
  let up := s.lanesInUse.filter (fun l => s.laneState l == laneUp)
  if s.mode == .muster && !s.seq.running && !s.seq.startPend && !up.isEmpty
      && up.all (fun l => decide (s.f (F.NCL_LSTAT_disc_step l) ≥ 2)) then
    { s with seq := { s.seq with startPend := true, next := s.firstBoundary } }
  else s

/-- The lane that sent a HELLO and the RX it may arrive on (R94, R95): a ring's own RX, either RX of a chain. -/
def State.helloSender (s : State) (rx lane : Nat) : Bool :=
  s.laneInUse lane && (lane == rx || (s.isChain lane && partnerLane lane == rx))

/-- The receiver a lane's own frames come back on: a through chain's at the other end (R95). -/
def State.rxLane (s : State) (l : Nat) : Nat := if s.isChain l && !s.laneSplit l then partnerLane l else l

/-- The lane is up, at step 1 of its discovery, with measurements still to make (R98, R103). -/
def State.measures (s : State) (l : Nat) : Bool :=
  s.laneState l == laneUp && s.f (F.NCL_LSTAT_disc_step l) == 1 && decide ((s.lane l).echoN < 16)

/-- The lanes of which MEASURE sets leave together with lane l's: both of a through chain that has both to measure (R100); a lane that has
trained again measures alone where its partner has done. -/
def State.measured (s : State) (l : Nat) : List Nat :=
  if s.isChain l && !s.laneSplit l && s.measures (partnerLane l) then [l / 2 * 2, l / 2 * 2 + 1] else [l]

/-- The next MEASURE set of a lane may leave (R98): step 1 of its discovery is complete, the set before it has returned and left at least
1 µs ago, no set that waits goes before it (R114), and the partner lane of a through chain is no longer in training. -/
def State.measureReady (s : State) (l : Nat) : Bool :=
  let x := s.lane l
  s.measures l && !x.echoOut && x.tx.due.isEmpty
    && (x.echoN == 0 || decide (x.echoAt + cycPerUs ≤ s.cyc)) && decide (x.tx.free ≤ s.cyc) && s.mayStart l s.cyc
    && !(s.isChain l && !s.laneSplit l && s.laneState (partnerLane l) == laneTraining)

/-- MEASURE sets leave, on both lanes of a through chain in one cycle. -/
def State.launchMeasure (s : State) (l : Nat) : State :=
  let ls := s.measured l
  if ls.all s.measureReady then
    s.forEach ls (fun s l => s.modLane l (fun x =>
      { x with sets := [measureSet], tx := x.tx.put s.cyc 1 false, echoOut := true, echoAt := s.cyc }))
  else s

/-- The HELLO of cell lane `x` comes back with its hop count: the lane is trained, its cells are found (R103 step 1, R105), and the first
MEASURE set leaves; cells that only the other lane of a chain has found stay found. -/
def State.cellLaneTrained (s : State) (x rx hops : Nat) : State :=
  let s := (s.setLaneState x laneUp).modLane x (fun y => { y with attempt := false, trainedOnce := true, missRun := 0 })
  let chain := s.isChain x
  let broken := chain && x == rx
  let s := s.setF (F.NCL_LSTAT_path_mode x) (if broken then 3 else if chain then 2 else 1)
  let s := if broken then s.setF (F.NCL_LSTAT_break_pos x) (if x % 2 = 0 then hops - 1 else s.pathCells x - 1 - hops) else s
  let s := ((s.setF (F.NCL_LSTAT_cells_found x) hops).setF (F.NCL_LSTAT_disc_step x) 1)
  let shared := chain && s.laneState (partnerLane x) == laneUp
  let s := if shared then s
    else s.forEach (upto (s.pathCells x)) (fun s i => s.modCell (s.pathCell x i) (fun c => { c with found := false, record := none }))
  let s := s.forEach (upto (min hops (s.pathCells x))) (fun s i =>
    s.modCell (s.pathCell x i) (fun c => { c with found := true, record := none, timeOk := false, age := 0x3FFFFF }))
  let s := if hops ≠ s.pathCells x then s.raise .cellCount x 0 hops else s
  s.launchMeasure x

/-- A HELLO set arrives on a mirror lane in training (R125): it may name either lane; hops 1 trains the lane (log entry 94). -/
def State.mirrorHello (s : State) (l hops lane dirTopo : Nat) : State :=
  if (lane = 48 ∨ lane = 49) ∧ dirTopo = 0 ∧ hops ≤ 1 ∧ s.laneState l = laneTraining then
    let s := s.modLane l (fun x => { x with helloSeen := true })
    if hops = 1 then
      (s.setLaneState l laneUp).modLane l (fun x => { x with attempt := false, backoff := false, trainedOnce := true })
    else s
  else s

/-- A HELLO set arrives on a receiver (R124, R125): lane, dir, topo and side are those sent. -/
def execHelloReceived (l : Fin 50) (h : RxSet) (s : State) : Host.Outcome State Fault Refusal :=
  let p := h.payload.toNat
  let hops := bitsOf p 7 0
  let lane := bitsOf p 13 8
  if !setWhole 4 h || !s.rxDelivers l then .next s
  else if l.val ≥ 48 then .next (s.mirrorHello l hops lane (bitsOf p 16 14))
  else if s.trains l && s.helloSender l lane && (s.lane lane).attempt && !(s.lane lane).markerFail
      && bitsOf p 16 14 == bitsOf (s.helloPayload lane) 16 14 && bitsOf p 25 25 == s.f F.NCL_GCFG_side then
    .next (s.cellLaneTrained lane l hops).musterSequencer
  else .next s

/-- A training attempt ends after 2 ms without success (R126, R127). -/
def execTrainingTimeout (l : Fin 50) (s : State) : Host.Outcome State Fault Refusal :=
  if !(s.lane l).attempt || !s.trains l then .next s
  else
    let s := s.advanceCyc ((s.lane l).attemptAt + 2 * cycPerMs)
    let s := s.modLane l (fun x => { x with attempt := false, attemptAt := s.cyc })
    let k := s.f (F.LPHY_STAT_attempts l)
    let last := decide (k = s.f F.LPHY_TRAIN_CFG_hello_attempts)
    let s := if last && !(s.lane l).deadSaid then
        ((s.modLane l (fun x => { x with deadSaid := true })).mark (F.LPHY_STAT_dead l)).raise .laneDead l 0 0 else s
    if last && decide (l.val < 48) then .next ((s.setLaneState l laneDead).launchMeasure (partnerLane l)).musterSequencer
    else .next (s.modLane l (fun x => { x with backoff := true }))

/-- The wait after attempt k: min(2^k, 100) ms, in cycles. -/
def backoffCycles (k : Nat) : Nat := (if k ≥ 7 then 100 else 2 ^ k) * cycPerMs

/-- The back-off wait ends and the next attempt starts. -/
def execTrainingRetry (l : Fin 50) (s : State) : Host.Outcome State Fault Refusal :=
  if (s.lane l).backoff && s.trains l then
    let s := s.advanceCyc ((s.lane l).attemptAt + backoffCycles (s.f (F.LPHY_STAT_attempts l)))
    .next ((s.modLane l (fun x => { x with
      backoff := false, attempt := true, markerFail := false, attemptAt := s.cyc, helloNext := s.cyc })).setF
        (F.LPHY_STAT_attempts l) (satInc (s.f (F.LPHY_STAT_attempts l)) 255))
  else .next s

/-! ### Path delays and discovery (R98 to R106) -/

/-- Residence r_k of a found cell in 0.125 ns: advertised, else the mean measured residence of the path (R99). -/
def State.residence (s : State) (l c : Nat) : Nat :=
  match (s.cell c).record with
  | some r => r.residence
  | none => roundDiv (s.f (F.NCL_PATH_R_rsum l)) (max 1 (s.f (F.NCL_LSTAT_cells_found l)))

/-- Index in NCL_SEG of the segment that enters the i-th cell of a lane's path (R94, R100). -/
def State.segIndex (s : State) (l i : Nat) : Nat :=
  if s.isChain l && l % 2 == 1 then s.pathCells l - i else i

/-- Declared delay of the i-th segment of a path; a chain uses lane 2k's table (R100). The table ends at segment 64: one beyond it counts as
not declared (log entry 95). -/
def State.segDelay (s : State) (l i : Nat) : Nat :=
  if s.segIndex l i ≤ 64 then s.f (F.NCL_SEG_seg_delay (if s.isChain l then l / 2 * 2 else l) (s.segIndex l i)) else 0

/-- Cells whose delays a path measured as a ring divides: the declared count on a ring, the cells found on a broken chain. -/
def State.ringCells (s : State) (l : Nat) : Nat :=
  if s.isChain l then s.f (F.NCL_LSTAT_cells_found l) else s.laneCount l

/-- The declared segment delays of a path measured as a ring, segments 0 to count; all 1 where one is not declared (R99). -/
def State.segments (s : State) (l : Nat) : List Nat :=
  let xs := (upto (s.ringCells l + 1)).map (s.segDelay l)
  if xs.any (· == 0) then xs.map (fun _ => 1) else xs

/-- U of the i-th cell of a path measured as a ring (R99, R101): 0.125 ns, ties rounded up. -/
def State.ringDelay (s : State) (l i : Nat) : Nat :=
  let x := s.lane l
  let segs := s.segments l
  let total := segs.sum
  let cum := (segs.take (i + 1)).sum
  let rs := ((upto i).map (fun k => s.residence l (s.pathCell l k))).sum
  let n := max 1 x.echoN
  let num : Int := ((rs * n * total : Nat) : Int) + ((x.echoD : Int) - (x.echoR : Int)) * (cum : Int)
  let den : Nat := n * total
  ((2 * num + den) / (2 * den : Nat)).toNat

/-- Units of the path sums of R37 in a nanosecond: delays count 0.125 ns, block times 0.1 ns. -/
def pathUnit : Nat := 80

/-- D_last of a lane (R34): the delay to the input of the last cell on its path, by R99 on a ring. On a through chain it is the largest
delay that R100 has assigned from the lane's end. -/
def State.lastDelay (s : State) (l : Nat) : Nat :=
  if s.isChain l && !s.laneSplit l then
    ((upto (s.pathCells l)).map (fun i =>
      let c := s.pathCell l i
      bitsOf (s.rd (if l % 2 = 0 then R.NCL_ASSIGN (c / 64) (c % 64) else R.NCL_ASSIGN_W (c / 64) (c % 64))) 19 0)).foldl max 0
  else s.ringDelay l (s.pathCells l - 1)

/-- The terms of R37 for one lane, in units of 1/80 ns: the predicted GATHER completion and ORDER slot end; h counts the cells on the
lane's path (R34). -/
def State.predicted (s : State) (l : Nat) : Nat × Nat :=
  let d := s.f (F.NCL_PATH_D_d l) * 10
  let h := s.pathCells l
  let dLast := s.lastDelay l * 10
  (d + (100 + 32 + 48 + 64) * pathUnit + (h + 11) * 512,
   dLast + (s.f F.GLB_ORDER_OFFSET_order_offset_steps * 5 + 32 + 100) * pathUnit + 3 * 512)

/-- The timing check of R37 for a lane: LANE_TIMING, or the lane passes. -/
def State.laneTimingCheck (s : State) (l : Nat) : State :=
  let p := s.predicted l
  if p.1 > s.f F.GLB_GATHER_DEADLINE_deadline_steps * 5 * pathUnit then
    (s.modLane l (fun x => { x with timingOk := false })).raise .laneTiming l 0 (ceilDiv p.1 pathUnit)
  else if p.2 > s.f F.GLB_EDGE_OFFSET_edge_offset_steps * 5 * pathUnit then
    (s.modLane l (fun x => { x with timingOk := false })).raise .laneTiming l 0 (ceilDiv p.2 pathUnit)
  else s.modLane l (fun x => { x with timingOk := true })

/-- F differs from the sum of the declared segments by more than 2 % of it and 5 ns (R99), from the sums over n measurements. -/
def segGap (f : Int) (total n : Nat) : Bool := decide ((f - (total * n : Nat)).natAbs * 50 > total * n + 2000 * n)

/-- Step 2 of discovery ends on a lane whose path delays sum to `d` over `n` measurements (R98, R99). NCL_PATH_D and NCL_PATH_R
show the means to the nearest 0.125 ns step, halves up (log entry 95). -/
def State.echoDone (s : State) (l d n : Nat) : State :=
  let x := s.lane l
  let s := (s.setF (F.NCL_PATH_D_d l) (roundDiv d n)).setF (F.NCL_PATH_R_rsum l) (roundDiv x.echoR (max 1 x.echoN))
  let s := if x.echoHi - x.echoLo > 16 then
      (s.mark (F.NCL_LSTAT_echo_spread l)).raise .echoSpread l 0 (x.echoHi - x.echoLo).toNat else s
  let f : Int := (x.echoD : Int) - x.echoR
  let s := if (!s.isChain l || s.laneSplit l)
        && segGap f ((upto (s.ringCells l + 1)).map (s.segDelay l)).sum (max 1 x.echoN) then
      (s.mark (F.NCL_LSTAT_seg_mismatch l)).raise .segMismatch l 0 (twos 64 (f / ((max 1 x.echoN : Nat) : Int))) else s
  s.setF (F.NCL_LSTAT_disc_step l) 2

/-- The cycle in which the next MEASURE set of a lane may leave at the earliest. -/
def State.measureFrom (s : State) (l : Nat) : Nat :=
  (s.measured l).foldl (fun c x =>
    max c (max (s.lane x).tx.free (if (s.lane x).echoN = 0 then 0 else (s.lane x).echoAt + cycPerUs))) s.cyc

/-- One measurement of a lane is recorded (R98). -/
def State.echoRecord (s : State) (l d rsum : Nat) : State :=
  let v : Int := (d : Int) - rsum
  s.modLane l (fun x => { x with
    echoOut := false
    echoLo := if x.echoN = 0 ∨ v < x.echoLo then v else x.echoLo
    echoHi := if x.echoN = 0 ∨ v > x.echoHi then v else x.echoHi
    echoN := x.echoN + 1, echoD := x.echoD + d, echoR := x.echoR + rsum })

/-- The 16 measurements of a path are complete. -/
def State.echoCheck (s : State) (l : Nat) : State :=
  if (s.lane l).echoN < 16 then s.launchMeasure l
  else
    let p := partnerLane l
    if s.isChain l && !s.laneSplit l && s.laneState p == laneUp then
      if (s.lane p).echoN < 16 then s
      else
        let d := (s.lane l).echoD + (s.lane p).echoD
        ((s.echoDone l d 32).echoDone p d 32).musterSequencer
    else (s.echoDone l (s.lane l).echoD 16).musterSequencer

/-- An ECHO MEASURE set, which has left at the latest by now, returns after its delay with its residence sum (R98, R100); after 16 the
delays are computed. -/
def execEchoMeasureReturn (l : Fin 48) (d rsum : Fin 1048576) (s : State) : Host.Outcome State Fault Refusal :=
  if s.laneState l = laneUp ∧ s.f (F.NCL_LSTAT_disc_step l) = 1 ∧ (s.lane l).echoN < 16 ∧ s.rxDelivers (s.rxLane l) = true then
    let s := if (s.lane l).echoOut then s else ((s.advanceCyc (s.measureFrom l)).flushSets.advanceCyc (s.measureFrom l)).launchMeasure l
    if (s.lane l).echoOut then
      let s := s.advanceCyc ((s.lane l).echoAt + ceilDiv (d.val * 10) 128)
      .next ((s.echoRecord l d rsum).echoCheck l)
    else .next s
  else .next s

/-- ASSIGN sets fall due on a lane; where there is none to send, step 4 is complete. -/
def State.sendAssign (s : State) (l : Nat) (xs : List TxSet) : State :=
  if xs.isEmpty then s.assignSent l s.cyc else s.sendDue l 6 xs

/-- ASSIGN to every cell found on a path measured as a ring (R99): on a broken chain each end assigns the cells it has found, U from lane
2k and W from lane 2k + 1. -/
def State.assignRing (s : State) (l : Nat) : State :=
  let found := (upto (min (s.f (F.NCL_LSTAT_cells_found l)) (s.pathCells l))).filter (fun i => (s.cell (s.pathCell l i)).found)
  let fromTop := s.isChain l && l % 2 == 1
  s.sendAssign l (found.map (fun i =>
    mkSet 2 (assignPayload (s.ringDelay l i % 2 ^ 20) (if fromTop then s.pathCells l - 1 - i else i) (b2n fromTop))))

/-- δ of a chain cell: as reported in its record; of one without a record it is open, a free value (log entry 3). -/
def State.echoDelta (s : State) (c : Nat) : Int × State :=
  match (s.cell c).record with
  | some r => (r.echoDelta, s)
  | none => (sx 16 s.free.1, s.free.2)

/-- (D_c ± δ − r) / 2 to the nearest step, ties up (R100, R101), from the sum `d` of 32 measurements. -/
def chainDelay (d : Nat) (r : Nat) (delta : Int) : Nat := twos 20 (((d : Int) - 32 * r + 32 * delta + 32) / 64)

/-- ASSIGN to every found cell of a through chain from both ends, from the mean of the two through-path delays (R100). -/
def State.assignChain (s : State) (k : Nat) : State :=
  let ls := [2 * k, 2 * k + 1].filter (fun l => s.laneState l == laneUp && s.f (F.NCL_LSTAT_disc_step l) == 3)
  let a := s.lane (2 * k)
  let b := s.lane (2 * k + 1)
  let d := if a.echoN = 16 ∧ b.echoN = 16 then a.echoD + b.echoD else 2 * (if a.echoN = 16 then a.echoD else b.echoD)
  let m := if s.laneState (2 * k) = laneUp then 2 * k else 2 * k + 1
  let found := (upto (s.pathCells (2 * k))).filter (fun i => (s.cell (s.pathCell (2 * k) i)).found)
  let r := found.foldl (fun (acc : State × List TxSet × List TxSet) i =>
    let c := s.pathCell (2 * k) i
    let q := acc.1.echoDelta c
    let u := chainDelay d (s.residence m c) q.1
    let w := chainDelay d (s.residence m c) (-q.1)
    (q.2, acc.2.1 ++ [mkSet 2 (assignPayload u i 0)], acc.2.2 ++ [mkSet 2 (assignPayload w i 1)])) (s, [], [])
  r.1.forEach ls (fun t l => t.sendAssign l (if l % 2 = 0 then r.2.1 else r.2.2))

/-- Step 4 of discovery: the delays are assigned, on a through chain once both its lanes have done step 3. -/
def State.assignLane (s : State) (l : Nat) : State :=
  if s.isChain l && !s.laneSplit l then
    if s.laneState (partnerLane l) == laneUp && decide (s.f (F.NCL_LSTAT_disc_step (partnerLane l)) < 3) then s
    else s.assignChain (l / 2)
  else s.assignRing l

/-- Steps 3 and 4 of discovery as a period's GATHER passes (R103): once every slot has delivered its record, or count periods have
passed in which a GATHER frame left for the lane, step 3 is complete and the delays are assigned; a chain lane that has waited for its
partner asks again. -/
def State.discoveryPeriod (s : State) (l : Nat) : State :=
  let step := s.f (F.NCL_LSTAT_disc_step l)
  if s.mode == .muster && s.laneState l == laneUp && step == 3 && (s.lane l).tx.due.all (fun d => d.set.code != 2) then s.assignLane l
  else if s.mode == .muster && s.laneState l == laneUp && step == 2 then
    let s := s.modLane l (fun x => { x with discPeriods := x.discPeriods + b2n x.gatherSent })
    if (s.laneCells l).all (fun c => (s.cell c).record.isSome) || decide ((s.lane l).discPeriods ≥ s.laneCount l) then
      (s.setF (F.NCL_LSTAT_disc_step l) 3).assignLane l
    else s
  else s

/-- Step 5 ends: discovery has finished on the lane (R103 to R105), and its timing is checked (R37). -/
def State.finishDiscovery (s : State) (l : Nat) : State :=
  let s := s.forEach (s.laneCells l) (fun s c =>
    let x := s.cell c
    if !x.found then s.modCell c (fun x => { x with unavail := true })
    else
      let bad := match x.record with
        | none => some 1
        | some r => if !r.compatible then some 0 else if !x.timeOk then some 2 else none
      match bad with
      | none => s
      | some aux =>
        let s := s.modCell c (fun x => { x with unavail := true, incompatSeen := true })
        if x.incompatSeen then s else s.raise .cellIncompat c aux 0)
  let n := ((s.laneCells l).filter (fun c => (s.cell c).found && (match (s.cell c).record with
    | some r => r.compatible
    | none => false))).length
  ((s.setF (F.NCL_LSTAT_cells_compat l) n).setF (F.NCL_LSTAT_disc_step l) 5).laneTimingCheck l

/-- The wait for time_ok ends, 2 ms after step 4. -/
def execDiscoveryTimeout (l : Fin 48) (s : State) : Host.Outcome State Fault Refusal :=
  if s.mode == .muster && s.f (F.NCL_LSTAT_disc_step l) == 4 then
    .next ((s.advanceCyc ((s.lane l).assignAt + 2 * cycPerMs)).finishDiscovery l)
  else .next s

/-- The lane's frame can come back on the lane's own receiver: a chain lane in through mode whose receiver delivers (R96, R113). -/
def State.mayReturn (s : State) (l : Nat) : Bool :=
  s.isChain l && s.f (F.NCL_LSTAT_path_mode l) == 2 && (s.lane l).splitIn == 0 && s.rxDelivers l

/-- A frame of a chain's lane, either one, arrives back on its own RX (R96). -/
def execChainSplit (k : Fin 24) (j : Fin 128) (s : State) : Host.Outcome State Fault Refusal :=
  let l := 2 * k.val
  if s.mayReturn l || s.mayReturn (l + 1) then
    let s := s.modLane l (fun x => { x with splitIn := 2, splitPos := j.val })
    let s := s.modLane (l + 1) (fun x => { x with splitIn := 2, splitPos := j.val })
    .next (s.raise .chainSplit l j.val 0)
  else .next s

/-! ### Losing a lane (R112, R113, R127 to R130) -/

/-- The modes in which a trained cell lane goes down (R128). -/
def Mode.laneDownMode : Mode → Bool
  | .precharge | .ready | .run | .shadow | .safeBlock => true
  | _ => false

/-- A trained cell lane is taken down (R128); with yield_lane a holder in RUN drives IDLE where the partner is in step and has the lane UP
(R365). -/
def State.takeDown (s : State) (l cause : Nat) : State :=
  let s := ((s.setLaneState l laneDown).raise .laneDown l cause 0).modLane l (fun x => { x with relock := false })
  let s := if cause = 0 then s.mark (F.LPHY_STAT_lock_lost l) else s
  if s.holder && s.fb F.RED_CFG_yield_lane && s.mode == .run && s.fb F.RED_STAT_partner_in_step
      && bitOf (s.pair.status.getD 5 0) l then
    ((s.setF F.RED_STAT_drive 1).updateDrive).modLane l (fun x => { x with yielded := true }) else s

/-- A GATHER frame of a lane is late or failed (R27). -/
def State.gatherLate (s : State) (l : Nat) : State :=
  let s := (s.mark F.GLB_TIMING_STAT_gather_late).setF F.GLB_TIMING_STAT_late_lane l
  let s := (s.bumpF F.GLB_LATE_CNT_gather_late_cnt 1).modLane l (fun x => { x with gatherLate := true })
  s.raise .gatherLate l 0 0

/-- The bond of the mirror link is lost (R123). -/
def State.unbond (s : State) : State :=
  if s.fb F.LPHY_MIR_STAT_bonded then
    (((s.setF F.LPHY_MIR_STAT_bonded 0).mark F.LPHY_MIR_STAT_bond_lost).raise .mirUnbond 0 0 0).bondLost
  else s

/-- Block times without a signal since they were last counted (R112). -/
def State.noSigCount (s : State) (l : Nat) : Nat :=
  if s.up && !s.fb (F.LPHY_STAT_rx_signal l) then (s.cyc - max (s.lane l).noSigAt s.pwr.upCyc) / 4 else 0

/-- They are counted in bad_sync: counts of the cycles past. -/
def State.noSigTake (s : State) (l : Nat) : State :=
  (s.setF (F.LPHY_ERRCNT_bad_sync l) (satAdd (s.f (F.LPHY_ERRCNT_bad_sync l)) (s.noSigCount l) 65535)).modLane l (fun x => { x with noSigAt := s.cyc })

/-- The receiver detects a signal, which has been there for `blocks` block times, or none (R112). -/
def State.signalIs (s : State) (l : Nat) (signal : Bool) (blocks : Nat) : State :=
  if s.fb (F.LPHY_STAT_rx_signal l) == signal then s
  else
    let n := if signal then s.noSigCount l - blocks else 0
    ((s.setF (F.LPHY_ERRCNT_bad_sync l) (satAdd (s.f (F.LPHY_ERRCNT_bad_sync l)) n 65535)).modLane l
      (fun x => { x with noSigAt := s.cyc })).setF (F.LPHY_STAT_rx_signal l) (b2n signal)

/-- A receiver has taken consecutive blocks with a valid sync header: after 64 it acquires block lock. -/
def execBlockLockAcquired (valid : BlockRun) (s : State) : Host.Outcome State Fault Refusal :=
  let l := valid.lane
  if s.laneClock l && !s.fb (F.LPHY_STAT_block_lock l) && decide (64 ≤ valid.blocks) then
    .next ((((s.signalIs l true valid.blocks).setF (F.LPHY_STAT_block_lock l) 1).setF (F.LPHY_STAT_rx_signal l) 1).modLane l
      (fun x => { x with relock := false, fomAt := s.cyc }))
  else .next s

/-- What the loss of block lock does to the lane (R123, R127, R128, R129). -/
def State.lockLost (s : State) (l : Nat) : State :=
  let trained := s.laneState l == laneUp
  let s := if trained then s.mark (F.LPHY_STAT_lock_lost l) else s
  if l ≥ 48 then
    let s := s.unbond
    if (s.lane l).trainedOnce then s.startTraining l else s
  else if !trained then s
  else if s.mode == .muster then s.startTraining l
  else if s.mode.laneDownMode then
    if s.isChain l then s.modLane l (fun x => { x with relock := true, relockAt := s.cyc }) else s.takeDown l 0
  else s

/-! ### Elastic buffer (R117) -/

/-- Drift has brought the elastic buffer to a fill; from 3 on an IDLE block outside a frame is deleted. -/
def execIdleDelete (x : ElasticFill) (s : State) : Host.Outcome State Fault Refusal :=
  let l := x.lane
  let fill := x.fill
  if s.fb (F.LPHY_STAT_block_lock l) then
    if 3 ≤ fill.val ∧ x.inFrame = false then
      .next ((s.bumpF (F.LPHY_RMCNT_idle_del l) 1).modLane l (fun x => { x with fill := fill.val - 1 }))
    else .next (s.modLane l (fun x => { x with fill := fill }))
  else .next s

/-- Drift has brought the elastic buffer to a fill; at 1 an IDLE block is inserted between frames. -/
def execIdleInsert (x : ElasticFill) (s : State) : Host.Outcome State Fault Refusal :=
  let l := x.lane
  let fill := x.fill
  if s.fb (F.LPHY_STAT_block_lock l) then
    if fill.val ≤ 1 ∧ x.inFrame = false then
      .next ((s.bumpF (F.LPHY_RMCNT_idle_ins l) 1).modLane l (fun x => { x with fill := fill.val + 1 }))
    else .next (s.modLane l (fun x => { x with fill := fill }))
  else .next s

/-! ### Markers (R119 to R123) -/

/-- Cycles of 16 384 blocks (R120, R121). -/
def markCycles : Nat := 65536

/-- 16 384 blocks after the marker before it left, a MARK set falls due on a cell lane that trains, is up, down or dead. -/
def execMarkerSend (l : Fin 48) (s : State) : Host.Outcome State Fault Refusal :=
  let st := s.laneState l
  if s.laneInUse l ∧ laneTraining ≤ st ∧ st ≤ laneDead ∧ (s.lane l).tx.due.all (fun d => d.set.code != 5) = true then
    let s := (s.advanceCyc ((s.lane l).tx.markAt + markCycles)).flushLane l
    let n := (s.lane l).mcount
    .next ((s.modLane l (fun x => { x with mcount := (n + 1) % 2 ^ 24 })).sendSet l 5 (mkSet 5 (markPayload l n)))
  else .next s

/-- The block that begins a mirror frame. -/
def MirBlock.isStart : MirBlock → Bool
  | .start _ => true
  | _ => false

/-- A lane's share of the blocks of a mirror frame in progress is another from now on. -/
def LaneTx.reshare (x : LaneTx) (bs : List MirBlock) : LaneTx :=
  { x with share := bs
           frame := x.frame.map (fun p => (p.1, bs.length))
           free := x.free + 4 * bs.length - 4 * x.share.length
           runs := x.runs.map (fun r => if x.frame = some r then (r.1, bs.length) else r) }

/-- Blocks of its share that have begun to leave a mirror lane. -/
def LaneTx.shareOut (x : LaneTx) (c : Nat) : Nat :=
  match x.frame with
  | some p => min x.share.length (blocksOut c p.1)
  | none => x.share.length

/-- A marker pair restarts the distribution with MIR0 (R121): what has not left of a frame in progress is distributed anew. -/
def State.restartShares (s : State) : State :=
  let x := (s.lane 48).tx
  let y := (s.lane 49).tx
  let m := x.shareOut s.cyc
  let n := y.shareOut s.cyc
  let turn := !x.share.head?.any MirBlock.isStart
  let rest := takeTurns (x.share.length + y.share.length - m - n) (turn != decide (m ≠ n)) (x.share.drop m) (y.share.drop n)
  if rest.isEmpty ∨ !(s.laneCoded 48 && s.laneCoded 49) then s.modPair (fun p => { p with txTurn := false })
  else
    let r := distribute false rest
    ((s.modLane 48 (fun z => { z with tx := x.reshare (x.share.take m ++ r.1) })).modLane 49
      (fun z => { z with tx := y.reshare (y.share.take n ++ r.2) })).modPair (fun p => { p with txTurn := rest.length % 2 == 1 })

/-- 16 384 blocks of MIR0 after the pair before it, a marker pair leaves with one count; the distribution starts again with MIR0 (R121). -/
def execMirrorMarkerPair (s : State) : Host.Outcome State Fault Refusal :=
  if s.paired then
    let s := (s.advanceCyc ((s.lane 48).tx.markAt + markCycles)).restartShares
    let n := (s.lane 48).mcount
    let s := (s.sendSet 48 5 (mkSet 5 (markPayload 48 n))).sendSet 49 5 (mkSet 5 (markPayload 49 n))
    .next (s.modLane 48 (fun x => { x with mcount := (n + 1) % 2 ^ 24, tx := { x.tx with markAt := s.cyc } }))
  else .next s

/-- The lane fields of a marker pair are neither straight nor exchanged: each lane whose field is not its own is miswired (R122). -/
def State.miswired (s : State) (l lane : Nat) : State :=
  if lane = l then s else (s.mark (F.LPHY_STAT_miswire l)).raise .laneMiswire l 0 lane

/-- The bond forms on a marker pair within 64 blocks of skew (R122). -/
def State.bond (s : State) (crossed : Bool) (skew : Int) : State :=
  let s := (s.setF F.LPHY_MIR_STAT_swapped (b2n crossed)).setF F.LPHY_MIR_STAT_skew (twos 8 skew)
  let s := { s with pair := { s.pair with bondAt := none } }
  (s.setF F.LPHY_MIR_STAT_bonded 1).raise .mirBond 0 0 (twos 64 skew)

/-- The receiver takes the blocks after a marker pair from MIR0 first (R122). -/
def State.alignPair (s : State) : State := { s with pair := { s.pair with rxBefore := s.pair.rxTurn, rxTurn := false } }

/-- Markers of equal count arrive on the mirror lanes (R122, R123). -/
def execMirrorMarkerReceived (m0 m1 : RxSet) (skew : Int) (s : State) : Host.Outcome State Fault Refusal :=
  let lane0 := bitsOf m0.payload.toNat 5 0
  let lane1 := bitsOf m1.payload.toNat 5 0
  let straight := lane0 == 48 && lane1 == 49
  let crossed := lane0 == 49 && lane1 == 48
  if !s.setTaken 48 5 m0 || !s.setTaken 49 5 m1 || bitsOf m0.payload.toNat 31 8 != bitsOf m1.payload.toNat 31 8 then .next s
  else if !straight && !crossed then .next ((s.miswired 48 lane0).miswired 49 lane1)
  else
    let wide := decide (skew.natAbs > 64)
    let s := if wide then (s.mark F.LPHY_MIR_STAT_skew_err).raise .mirSkew 0 0 (twos 64 skew) else s
    if s.fb F.LPHY_MIR_STAT_bonded then
      .next (if (skew - sx 8 (s.f F.LPHY_MIR_STAT_skew)).natAbs > 4 then s.unbond else s.alignPair)
    else if wide then .next s
    else .next (s.alignPair.bond crossed skew)

/-- A marker has no partner of equal count within 64 blocks (R123). -/
def execMirrorMarkerTimeout (s : State) : Host.Outcome State Fault Refusal := .next s.unbond

/-! ### Eye monitor and adaptation (R133 to R136) -/

/-- One step of an adapted value towards its centre, limited to the clamp: the new value and whether the clamp stopped the step. -/
def adaptStep (now centre table : Int) : Int × Bool :=
  let want := if centre > now then now + 1 else if centre < now then now - 1 else now
  let got := iclamp (iclamp want (table - 8) (table + 8)) (-32) 31
  (got, got != want)

/-- The eye monitor completes a measurement, 4096 blocks after the one before it or after block lock (R133); one that began before the
adaptation resumed adjusts nothing (R135). -/
def execFomMeasure (l : Fin 50) (eyeV eyeH : Nat) (centreV centreH : Int) (s : State) : Host.Outcome State Fault Refusal :=
  if !s.fb (F.LPHY_STAT_block_lock l) then .next s
  else
    let from_ := (s.lane l).fomAt
    let s := s.advanceCyc (from_ + 4 * 4096)
    let s := s.modLane l (fun x => { x with fomAt := s.cyc })
    let s := (s.setF (F.LPHY_FOM_eye_v l) (min eyeV 255)).setF (F.LPHY_FOM_eye_h l) (min eyeH 64)
    if s.fb (F.LPHY_STAT_frozen l) || decide (from_ < (s.lane l).resumeAt) then .next s
    else
      let o := adaptStep (sx 6 (s.f (F.LPHY_FOM_off_now l))) centreV (s.lane l).centreOff
      let p := adaptStep (sx 6 (s.f (F.LPHY_FOM_phase_now l))) centreH (s.lane l).centrePhase
      let s := (s.setF (F.LPHY_FOM_off_now l) (twos 6 o.1)).setF (F.LPHY_FOM_phase_now l) (twos 6 p.1)
      .next (if o.2 || p.2 then s.raiseOnce (F.LPHY_STAT_fom_limit l) .fomLimit l 0 0 else s)

/-- Consecutive IDLE blocks have been received: from 8192 on the adaptation is frozen (R135). -/
def execAdaptFreeze (idles : BlockRun) (s : State) : Host.Outcome State Fault Refusal :=
  let l := idles.lane
  .next (if s.fb (F.LPHY_STAT_block_lock l) && decide (8192 ≤ idles.blocks) then s.setF (F.LPHY_STAT_frozen l) 1 else s)

/-- Blocks other than IDLE have been received since the freeze: after 256 the adaptation resumes (R135). -/
def execAdaptResume (others : BlockRun) (s : State) : Host.Outcome State Fault Refusal :=
  let l := others.lane
  .next (if s.fb (F.LPHY_STAT_block_lock l) && s.fb (F.LPHY_STAT_frozen l) && decide (256 ≤ others.blocks) then
    (s.setF (F.LPHY_STAT_frozen l) 0).modLane l (fun x => { x with resumeAt := s.cyc }) else s)

/-- A write of the receiver equalisation took effect (R131): the adapted values and the clamp centre are those written. -/
def State.eqRxWritten (s : State) (l : Nat) : State :=
  let o := s.f (F.LPHY_EQ_RX_rx_offset l)
  let p := s.f (F.LPHY_EQ_RX_rx_phase l)
  ((s.setF (F.LPHY_FOM_off_now l) o).setF (F.LPHY_FOM_phase_now l) p).modLane l
    (fun x => { x with centreOff := sx 6 o, centrePhase := sx 6 p })

/-! ### Diagnostics (R137 to R139) -/

/-- An injection is in progress (R139): a word holds at most 64 inverted bits, and lasts four cycles. -/
def LaneTx.injecting (x : LaneTx) (c : Nat) : Bool :=
  x.injBits != 0 && (match x.injFrom with
    | none => true
    | some a => decide (c < a + 4))

/-- Bits of a raw pattern that have left since it began: 66 bits in four cycles. -/
def LaneTx.patternPlace (x : LaneTx) (c : Nat) : Nat := (c - x.genFrom) * 33 / 2

/-- An injection of `bits` inverted bits is asked for, in DIAGNOSTIC (R139): into the pattern from its next 64-bit word boundary, into the
looped signal from a boundary whose place is open (log entry 3), with inj_coded into the next data block. One in progress goes on. -/
def State.inject (s : State) (l bits : Nat) (burst : Bool) : State :=
  let x := (s.lane l).tx
  if s.mode != .diagnostic || x.injecting s.cyc then s
  else match s.txCarries l with
    | .coded =>
      if s.fb (F.LPHY_DIAG_inj_coded l) then
        s.modLane l (fun y => { y with tx := { y.tx with injBits := bits, injBurst := burst, injFrom := (s.lane l).nextData l s.cyc } })
      else s
    | .received => s
    | .pattern =>
      let word := x.patternPlace s.cyc / 64 + 1
      s.modLane l (fun y => { y with tx := { y.tx with
        injBits := bits, injBurst := burst, injFrom := some (x.genFrom + ceilDiv (128 * word) 33) } })
    | .looped =>
      let fv := s.free
      fv.2.modLane l (fun y => { y with tx := { y.tx with injBits := bits, injBurst := burst, injFrom := some (s.cyc + 1 + fv.1 % 4) } })

/-- The checker is enabled and its lane in a function that feeds it (R137, R138). -/
def State.checkerOn (s : State) (l : Nat) : Bool :=
  s.mode == .diagnostic && s.laneClock l && s.fb (F.LPHY_DIAG_chk_en l)
    && (s.txCarries l == .pattern || s.txCarries l == .looped)

/-- The lags of a PRBS x^n + x^m + 1, (n, m) (R138). -/
def prbsLags : Nat → Nat × Nat
  | 0 => (7, 6)
  | 1 => (15, 14)
  | _ => (31, 28)

/-- The USER word, bit 0 first. -/
def State.userWord (s : State) (l : Nat) : List Bool :=
  (upto 64).map (fun i => bitOf (s.rd (R.LPHY_PAT_USER_LO l) + s.rd (R.LPHY_PAT_USER_HI l) * 2 ^ 32) i)

/-- The bit a checker predicts, and the checker's bits after it; USER repeats its word, a PRBS bit is the sum of two earlier ones. -/
def predictBit (pat : Nat) (bits : List Bool) : Bool × List Bool :=
  if pat = 3 then (bits.headD false, bits.drop 1 ++ bits.take 1)
  else
    let n := (prbsLags pat).1
    let b := bits.getD (n - 1) false != bits.getD ((prbsLags pat).2 - 1) false
    (b, b :: bits.take (n - 1))

/-- Bits that the specification leaves open (log entry 3). -/
def State.freeBits (n : Nat) (s : State) : List Bool × State :=
  (upto (ceilDiv n 64)).foldl (fun acc _ =>
    let fv := acc.2.free
    (acc.1 ++ (upto (min 64 (n - acc.1.length))).map (bitOf fv.1), fv.2)) ([], s)

/-- A lane's pattern generator starts (R138): USER with bit 0 of its word; where in its sequence a PRBS starts is open, but no generator
stands at zeros. -/
def State.startPattern (s : State) (l : Nat) : State :=
  let pat := s.f (F.LPHY_DIAG_pat_sel l)
  let r := if pat = 3 then (s.userWord l, s) else s.freeBits (prbsLags pat).1
  let bits := if pat ≠ 3 ∧ r.1.all (fun b => !b) = true then r.1.map (fun _ => true) else r.1
  r.2.modLane l (fun x => { x with tx := { x.tx with gen := bits, genFrom := s.cyc } })

/-- The first `n` bits of a pattern that goes on from `bits`. -/
def patternBits (pat : Nat) : Nat → List Bool → List Bool
  | 0, _ => []
  | n + 1, bits => (predictBit pat bits).1 :: patternBits pat n (predictBit pat bits).2

/-- The bit at place `i` of the stream that a lane in PATTERN sends is one that an injection inverts (R139). -/
def LaneTx.inverts (x : LaneTx) (i : Nat) : Bool :=
  match x.injFrom with
  | some c => decide ((c - x.genFrom) * 33 / 128 * 64 ≤ i ∧ i < (c - x.genFrom) * 33 / 128 * 64 + x.injBits)
  | none => false

/-- The first `n` bits that the TX balls of a lane in PATTERN carry, since the pattern began (R138, R139). -/
def State.sentPattern (s : State) (l n : Nat) : List Bool :=
  let x := (s.lane l).tx
  (patternBits (s.f (F.LPHY_DIAG_pat_sel l)) n x.gen).mapIdx (fun i b => b != x.inverts i)

/-- The bits that a checker receives (R137): those at the lane's balls, or, looped, the coded stream of its own transmitter, whose
scrambled bits are open (log entry 3). -/
def State.checkedBits (s : State) (l : Nat) (bits : List Bool) : List Bool × State :=
  if s.txCarries l = .looped then s.freeBits bits.length else (bits, s)

/-- Received bits all agree with the prediction: the checker's bits after them. -/
def agrees (pat : Nat) : List Bool → List Bool → Option (List Bool)
  | bits, [] => some bits
  | bits, b :: rest =>
    let p := predictBit pat bits
    if p.1 = b then agrees pat p.2 rest else none

/-- The bits with which a checker locks on received bits: seeded from them, or aligned to the USER word, and 64 bits free of errors. -/
def State.checkerSeed (s : State) (l : Nat) (bits : List Bool) : Option (List Bool) :=
  let pat := s.f (F.LPHY_DIAG_pat_sel l)
  if pat = 3 then
    let w := s.userWord l
    if bits.length = 64 then (upto 64).findSome? (fun k => agrees 3 (w.drop k ++ w.take k) bits) else none
  else
    let n := (prbsLags pat).1
    if bits.length = n + 64 then agrees pat (bits.take n).reverse (bits.drop n) else none

/-- The checker locks on 64 consecutive bits free of errors. -/
def execCheckerLock (x : RxBits) (s : State) : Host.Outcome State Fault Refusal :=
  let l := x.lane
  if s.checkerOn l && !s.fb (F.LPHY_STAT_chk_lock l) then
    let r := s.checkedBits l x.bits
    let s := r.2
    match s.checkerSeed l r.1 with
    | some b => .next ((s.setF (F.LPHY_STAT_chk_lock l) 1).modLane l (fun y => { y with chk := { bits := b, count := 0, errs := [] } }))
    | none => .next s
  else .next s

/-- Bits compared and errors seen while locked are counted; both saturate (R138). -/
def State.countChecked (s : State) (l errs nbits : Nat) : State :=
  let s := s.bumpF (F.LPHY_CHK_ERR_chk_err l) errs
  let now := s.rd (R.LPHY_CHK_BITS_LO l) + s.rd (R.LPHY_CHK_BITS_HI l) * 2 ^ 32
  let v := satAdd now nbits (2 ^ 64 - 1)
  (s.wr (R.LPHY_CHK_BITS_LO l) v).wr (R.LPHY_CHK_BITS_HI l) (v / 2 ^ 32)

/-- 64 errors stand within 1024 bits. -/
def Checker.lost (x : Checker) : Bool := decide (64 ≤ x.errs.length)

/-- One received bit is compared: the checker after it, and whether it was wrong. A checker that has lost lock compares nothing. -/
def Checker.step (pat : Nat) (x : Checker) (b : Bool) : Checker × Bool :=
  let p := predictBit pat x.bits
  let errs := x.errs.filter (fun e => decide (x.count < e + 1024))
  ({ bits := p.2, count := x.count + 1, errs := if p.1 = b then errs else errs ++ [x.count] }, p.1 != b)

/-- Received bits are compared while the checker holds lock: the checker, bits compared and errors. -/
def Checker.run (pat : Nat) (x : Checker) : List Bool → Checker × Nat × Nat
  | [] => (x, 0, 0)
  | b :: rest =>
    if x.lost then (x, 0, 0)
    else
      let r := x.step pat b
      let t := r.1.run pat rest
      (t.1, t.2.1 + 1, t.2.2 + b2n r.2)

/-- Bits arrive at a checker that holds lock: they are compared and counted, and 64 errors within 1024 bits lose the lock. -/
def execCheckerLoss (l : Fin 50) (bit : Bool) (more : List Bool) (s : State) : Host.Outcome State Fault Refusal :=
  if s.checkerOn l && s.fb (F.LPHY_STAT_chk_lock l) then
    let q := s.checkedBits l (bit :: more)
    let s := q.2
    let r := (s.lane l).chk.run (s.f (F.LPHY_DIAG_pat_sel l)) q.1
    let s := (s.countChecked l r.2.2 r.2.1).modLane l (fun x => { x with chk := r.1 })
    .next (if r.1.lost then s.setF (F.LPHY_STAT_chk_lock l) 0 else s)
  else .next s

/-! ### Safety-path sets that repeat (R44, R92, R323) -/

/-- The lanes are supplied, and no rail stands before another that R457 wants first: VDD_CORE, VDD_SRAM and VDD_SERDES are in, VDDA_SERDES,
VDD_IO18 and VDDA_ADC too. -/
def Power.lanesPowered (p : Power) : Bool := [0, 1, 2, 3, 4, 6].all (fun r => !bitOf p.railOut r)

/-- The block beacon: a class 0x4 set on every untrained lane; auth is 1 only while ILK_IN reads OPEN (R44, R336). -/
def execBlockBeacon (s : State) : Host.Outcome State Fault Refusal :=
  if s.pwr.rails && s.pwr.lanesPowered then
    .next ((s.forEach allLanes (fun s l =>
      if s.laneClock l && decide (s.laneState l ≤ laneBeacon) then
        (s.sendNow l [blockSet 4 (s.f F.RED_STAT_sense == 0)]).setLaneState l laneBeacon
      else s)))
  else .next s

end Sys2Proof.Machine
end

