-- ==== Sys2Proof/Machine/Modes.lean ====
section
/-! DEFINITION. Mode changes with what starts and stops at each (R42 to R58), requests and their evaluation, the boot sources
(R59 to R65), reset and supplies (R19, R45, R458), and clock faults (R20). -/

namespace Sys2Proof.Machine

/-! ### What stops and starts -/

/-- The period sequencer stops: no arm, unit or plan of its period is left. -/
def State.stopSequencer (s : State) : State :=
  let s := s.forEach (s.lanes.map Prod.fst) (fun s l => s.modLane l (fun x => { x with active := false, activePrev := false }))
  { s with seq := State.reset.seq, arms := [], units := [], plan := { State.reset.plan with digest := s.plan.digest }
           ctl := { s.ctl with chargeRun := 0 } }.adcResume

/-- A mode in which the sequencer and the engines are stopped begins (R43, R58, R255). -/
def State.stopWork (s : State) : State := (s.stopSequencer.dropAll).enginesTo engHalted

/-- The lanes fall back on the block beacon (R43, R44); a bond ends with them. -/
def State.lanesToBeacon (s : State) : State :=
  let s := s.forEach allLanes (fun s l =>
    (s.setLaneState l laneBeacon).modLane l (fun x =>
      { Lane.reset with
          mcount := x.mcount, fill := x.fill, centreOff := x.centreOff, centrePhase := x.centrePhase, sets := x.sets
          noSigAt := x.noSigAt, fomAt := x.fomAt, resumeAt := x.resumeAt, tx := { x.tx with due := [], injBits := 0 } }))
  if s.bonded then (s.setF F.LPHY_MIR_STAT_bonded 0).bondLost else s

/-- The device leaves DIAGNOSTIC (R58, R140, R433): no lane is in a diagnostic function and seq_run reads 0. -/
def State.leaveDiagnostic (s : State) : State := (s.diagRestore.canLeaveDiag).setF F.GLB_DIAG_CTL_seq_run 0

/-- MUSTER begins (R55, R103, R124, R341): every lane in use trains, a paired device's mirror lanes too, and discovery starts anew. -/
def State.musterBegin (s : State) : State :=
  let s := s.enginesTo engIdle
  let s := (s.forEach s.allCells (fun s c => s.modCell c Cell.undiscovered)).hideAssigned (fun _ _ => true)
  let s := s.forEach s.lanesInUse (fun s l => (s.startTraining l).setF (F.NCL_LSTAT_cells_found l) 0)
  let s := if s.paired then s.forEach [48, 49] (fun s l => if s.laneState l = laneUp then s else s.startTraining l) else s
  s.claimFirst

/-! ### Boot sources (R59, R63, R64) -/

def State.bootSel (s : State) : Nat := s.f F.GLB_BOOT_STAT_boot_sel

/-- BOOT_SEL allows host download (R59). -/
def State.hostDownload (s : State) : Bool := s.bootSel != 2

/-- A read or a check of a source begins. -/
def State.bootBegin (s : State) (source : Nat) (p : BootPhase) : State :=
  let s := (s.setF F.GLB_BOOT_STAT_source source).setF F.GLB_BOOT_STAT_busy 1
  { s with boot := { s.boot with phase := p, image := [] } }

/-- The next source that BOOT_SEL allows: the next QSPI copy, else a held go (R63, R64). -/
def State.bootNext (s : State) : State :=
  match s.boot.qspiLeft with
  | src :: rest => { s with boot := { s.boot with qspiLeft := rest } }.bootBegin src .reading
  | [] =>
    let s := { (s.setF F.GLB_BOOT_STAT_busy 0) with boot := { s.boot with phase := .idle, image := [] } }
    if s.fb F.GLB_BOOT_CTL_go && s.hostDownload then s.bootBegin 3 .checking else s

/-- The boot starts with the first source that BOOT_SEL allows. -/
def State.bootStart (s : State) : State :=
  { s with boot := { phase := .idle, image := [], restart := false,
                     qspiLeft := if s.bootSel % 2 = 0 then [1, 2] else [] } }.bootNext

/-- go is written with 1 (R64). -/
def State.bootGo (s : State) : State :=
  if s.mode != .boot || !s.hostDownload then s.setF F.GLB_BOOT_CTL_go 0
  else match s.boot.phase with
    | .idle => if s.boot.restart then s.setF F.GLB_BOOT_CTL_go 0 else (s.setF F.GLB_BOOT_CTL_go 1).bootBegin 3 .checking
    | .loading => s.setF F.GLB_BOOT_CTL_go 0
    | _ => s.setF F.GLB_BOOT_CTL_go 1

/-! ### Entering a mode -/

/-- Entry to BOOT (R43, R52, R59, R201, R255, R263, R296, R342, R433). -/
def State.enterBoot (s : State) (old : Mode) (cause : Nat) : State :=
  let s := s.stopWork.lanesToBeacon
  let s := s.setModeFrom old .boot cause
  let s := { s with ctl := { s.ctl with fatal := false, musterDone := false, checkBusy := false, pendMatch := none } }
  (((s.retentionCheck.canBoot).adcOff).silosIdle.releaseOnEntry).bootStart

/-- What a mode begins with, once it is entered (R54, R55, R56, R58, R263, R342, R362). -/
def State.modeBegin (s : State) : State :=
  match s.mode with
  | .configure =>
    let s := { s with ctl := { s.ctl with fatal := false, musterDone := false, checkBusy := false, pendMatch := none } }
    s.adcInitialCal.releaseOnEntry
  | .commission => { s with ctl := { s.ctl with checkBusy := true, pendMatch := none } }.releaseOnEntry
  | .muster => { s with ctl := { s.ctl with musterDone := false, checkBusy := false, pendMatch := none } }.musterBegin
  | .shadow => s.openJoin
  | .diagnostic => (s.setF F.GLB_DIAG_CTL_seq_run 0).releaseOnEntry
  | _ => s

/-- The device changes to a mode, with what that starts and stops (R43, R45). -/
def State.enterMode (s : State) (dest : Mode) (cause : Nat) : State :=
  let old := s.mode
  let s := if old == .configure then s.leaveConfigure else s
  let s := if old == .diagnostic then s.leaveDiagnostic else s
  match dest with
  | .boot => s.enterBoot old cause
  | .configure => ((s.stopWork.lanesToBeacon).setMode dest cause).modeBegin
  | .diagnostic => (s.stopWork.setMode dest cause).modeBegin
  | _ => (s.setMode dest cause).modeBegin

/-! ### Requests (R45 to R48) -/

/-- A discovered cell reports energised (R45, R57). -/
def State.energisedAny (s : State) : Bool := s.allCells.any (fun c => (s.cell c).found && (s.cell c).sampled && stEnergised (s.cell c))

/-- An enabled arm is below N_required at the last GATHER_DONE. -/
def State.anyArmLow (s : State) : Bool := s.enabledArms.any s.armLow

/-- The mode codes as modes (R42). -/
def modeOf : Nat → Mode
  | 1 => .dormant | 2 => .boot | 3 => .configure | 4 => .commission | 5 => .muster | 6 => .precharge | 7 => .ready
  | 8 => .run | 9 => .shadow | 10 => .safeBlock | 11 => .diagnostic | _ => .off

/-- The change a request asks for in the present mode: the mode it leads to, or the reason it is refused for (R45, R48). -/
def State.requestResult (s : State) (target : Nat) (forwarded : Bool) : Except Nat Mode :=
  let cond (ok : Bool) (dest : Mode) (reason : Nat) : Except Nat Mode := if ok then .ok dest else .error reason
  match s.mode, target with
  | .configure, 2 => .ok .boot
  | .configure, 4 => cond (s.fb F.GLB_MAP_STAT_map_valid) .commission 2
  | .configure, 11 => cond s.lanesInUse.isEmpty .diagnostic 7
  | .commission, 3 | .muster, 3 | .precharge, 3 | .ready, 3 | .diagnostic, 3 => .ok .configure
  | .muster, 6 => if !s.musterDone then .error 4 else cond (!s.lockedOut) .precharge 11
  | .muster, 11 => if !s.musterDone then .error 4 else cond (!s.energisedAny) .diagnostic 6
  | .precharge, 7 => cond s.ctl.chargeOk .ready 5
  | .ready, 6 => .ok .precharge
  | .ready, 8 =>
    if s.entitled then cond (!s.causeActive && !s.anyArmLow) .run 11
    else cond (s.paired && forwarded && !s.pairRefuses) .shadow 9
  | .run, 7 => .ok .ready
  | .shadow, 7 => cond forwarded .ready 9
  | _, _ => .error 1

/-- SAFE-BLOCK was entered by a trigger of this very cycle. -/
def State.trippedNow (s : State) : Bool := s.mode == .safeBlock && s.ctl.blockedAt == some s.cyc

/-- A request is evaluated (R45, R46, R48); `cause` is 0x03, or 0x10 for one forwarded from the partner. One that meets a trigger to
SAFE-BLOCK in its cycle is refused (R49). -/
def State.evalRequest (s : State) (target cause : Nat) (forwarded : Bool) : State :=
  if s.trippedNow then s.refuseMode target 8
  else match s.requestResult target forwarded with
  | .ok m =>
    let note : EvalNote := { cyc := s.cyc, target := target, old := s.mode, new := m, log := s.rd R.GLB_MODE_LOG, seq := s.evSeq % 2 ^ 32 }
    let t := s.enterMode m cause
    let k := ((t.events.drop s.events.length).find? (fun e => e.code == .modeChange)).map Event.seq
    { t with ctl := { t.ctl with evald := some { note with seq := k.getD note.seq } }, undo := some s.undoOf }
  | .error r =>
    let s := s.refuseMode target r
    if r = 2 then s.raise .mapInvalid (s.f F.GLB_MAP_STAT_err_lane) (s.f F.GLB_MAP_STAT_err_code) (s.f F.GLB_MAP_STAT_err_arm) else s

/-- A write to GLB_MODE_REQ (R46 to R48, R353): it replaces a pending request; a holder forwards 0x6 to 0x8, a standby refuses
them. The write's master and source byte stand in the event. -/
def State.requestWritten (s : State) (master source target : Nat) : State :=
  let s := match s.ctl.request with
    | some r => s.refuseMode r.target 10
    | none => s
  let shared := s.paired && decide (6 ≤ target) && decide (target ≤ 8)
  if shared && !s.holder then
    (({ s with ctl := { s.ctl with request := none } }).refuseMode target 9).raiseFrom .fwdRefused source master 0 target
  else
    let s := { s with ctl := { s.ctl with request := some { target := target, forwarded := shared && s.seq.running, at_ := s.cyc } } }
    if shared then s.capture (s.item 5 0 (leBytes 4 target) none) else s

/-- The pending request is evaluated where the sequencer is stopped (R46). -/
def State.evalNow (s : State) : State :=
  match s.ctl.request with
  | none => s
  | some r =>
    if s.seq.running || (s.mode == .diagnostic && s.fb F.GLB_DIAG_CTL_seq_run) then s
    else ({ s with ctl := { s.ctl with request := none } }).evalRequest r.target 0x03 false

/-- Requests at a period boundary: those of the pair's INPUT frame (R350), then the own pending one, unless it was forwarded and
comes back with an INPUT frame (R46, R353), or was written in the cycle of this tick (R46). -/
def State.evalBoundary (s : State) : State :=
  let s : State := match s.pair.request with
    | none => s
    | some (target, source) =>
      let s := s.modPair (fun p => { p with request := none })
      let own := s.ctl.request.any (fun r => r.forwarded && r.target == target)
      let s : State := if own then { s with ctl := { s.ctl with request := none } } else s
      if source = 0 then s.evalRequest target (if s.holder then 0x03 else 0x10) (!s.holder)
      else if s.holder then s else s.evalRequest target 0x10 true
  match s.ctl.request with
  | some r => if r.forwarded || r.at_ == s.cyc then s else ({ s with ctl := { s.ctl with request := none } }).evalRequest r.target 0x03 false
  | none => s

/-! ### COMMISSION (R54, R332) -/

/-- The check value matches: MUSTER is entered, or the match waits while a safety input is asserted (R54). -/
def State.checkMatched (s : State) (cause : Nat) : State :=
  if s.inputAsserted then ({ s with ctl := { s.ctl with pendMatch := some cause } }).refuseMode 5 3
  else s.enterMode .muster cause

/-- A write to SAF_CONFIRM (R332). -/
def State.confirmWritten (s : State) (v : Nat) : State :=
  if s.mode == .commission && s.fb F.SAF_STAT_check_valid && !s.ctl.checkBusy && v == s.rd R.SAF_CHECK then
    let s := ({ s with saf := { s.saf with confirmed := some v } }).retChanged
    if s.ctl.pendMatch.isSome then s else s.checkMatched 0x05
  else (s.bumpF F.SAF_CONF_CNT_conf_fail 1).raise .checkMismatch 0 0 v

/-! ### Reset and supplies (R45, R334, R408, R453, R458) -/

/-- A bit of the fault-history word as retained, set by the rail monitor in the retention domain; a domain that fails its check goes on
failing it. -/
def retMark (bs : List Byte) (bit : Nat) : List Byte :=
  let body := bs.take 12 ++ leBytes 4 (setBits (fieldAt bs 12 4) bit bit 1) ++ (bs.drop 16).take 236
  if retOk bs then body ++ leBytes 4 (crc32c body)
  else if bs.length = 256 then body ++ bs.drop 252
  else bs

/-- The device falls into reset: every register and memory at its reset value but the retention domain, whose pending rewrite
completes. The queue, host memory and the supplies are outside. -/
def State.coldReset (s : State) : State :=
  { State.reset with
    pending := s.pending
    cyc := s.cyc
    hostMem := s.hostMem
    freeCtr := s.freeCtr
    pwr := { s.pwr with pllLocked := false, pllOnce := false, clkFault := false
                        held := if s.up || !s.mode.powered then s.mode else s.pwr.held }
    tim := { State.reset.tim with espHold := if s.pwr.espLow then s.tim.espHold else none }
    saf := { State.reset.saf with retBytes := if s.saf.retDirty then s.retImage else s.saf.retBytes } }

/-- The retained word takes a bit. -/
def State.retMarkBit (s : State) (x : Fld) : State := { s with saf := { s.saf with retBytes := retMark s.saf.retBytes x.lo } }

/-- The main rails leave their window, or go (R334, R458): a device that works records it, and in reset the rail monitor marks the
retained word. -/
def State.railsFall (s : State) : State :=
  if s.awake then
    let s := if s.up && s.mode.controls then s.faultHist F.SAF_FAULT_HIST_rails_lost else s
    (if s.pwr.vbat then s.faultHist F.SAF_FAULT_HIST_dormant else s).coldReset
  else if s.pwr.vbat then s.coldReset.retMarkBit F.SAF_FAULT_HIST_dormant
  else s.coldReset

/-- Reset ends with BOOT_SEL and PCIE_BIF as sampled (R45, R59, R367). The configuration checks are evaluated (R35), the
retention domain is taken over for the safety path (R52), and the test-pulse outputs hold their supply level. -/
def State.resetEnd (s : State) (sel : Nat) (pcieBif : Bool) : State :=
  let s := (s.coldReset.setF F.GLB_BOOT_STAT_boot_sel sel).setF F.GLB_BOOT_STAT_sel_reserved (b2n (decide (sel = 3)))
  let s := (s.setF F.HIF_CFG_bif (b2n pcieBif)).mapCheck.retentionCheck
  { s with saf := { s.saf with tpLevelA := true, tpLevelB := true } }

/-! ### Clock faults (R20, R256) -/

/-- The reaction to a clock fault: that of the safety path, SAFE-BLOCK with the fatal flag from CONFIGURE upward, and in BOOT the end of
the boot until the PLL has locked again. -/
def State.clockFault (s : State) : State :=
  if s.pwr.clkFault then s
  else
    let s := ({ s with pwr := { s.pwr with clkFault := true } }).fatalError 5 0xFF 0 0
    if s.mode == .boot then
      let s := ((s.setF F.GLB_BOOT_STAT_boot_err 0x0A).setF F.GLB_BOOT_STAT_busy 0).setF F.GLB_BOOT_CTL_go 0
      { s with boot := { phase := .idle, image := [], restart := true, qspiLeft := [] } }
    else s

/-- CLK_PLL_STAT as it reads (R20, R477): presence is shown once the clocks run. -/
def State.clkStat (s : State) : Nat :=
  let w := s.rd R.CLK_PLL_STAT
  if s.up then
    let w := setBits (setBits w 0 0 (b2n s.pwr.pllLocked)) 4 4 (b2n s.pwr.refPresent)
    setBits (setBits (setBits w 8 8 (b2n s.pwr.lrefA)) 9 9 (b2n s.pwr.lrefB)) 12 12 (b2n s.pwr.pcieRef)
  else w

/-- One CORE_CLK tick with no command waiting, and the sets that leave by it; without CORE_CLK the monitor oscillator's time moves on as
far. -/
def State.idleTick (s : State) : State :=
  if s.awake then
    let t := s.coreTick.catchUp.flushSets
    t.forEach (t.lanesInUse.filter t.measureReady) State.launchMeasure
  else s

end Sys2Proof.Machine
end

