-- ==== Sys2Proof/Machine/RegWrite.lean ====
section
/-! DEFINITION. Writing and reading the registers (R6 to R13, R16): ownership, locks, clamps, and what a write or a read of a
register does beside storing or answering its value. -/

namespace Sys2Proof.Machine

/-! ### Who writes -/

/-- The sender of a write: the origin of its clamps (R391), the master named in events, and the source byte (R388). -/
structure WSrc where
  origin : Nat
  master : Nat
  source : Nat
deriving DecidableEq, Repr

/-- A master's own register write. -/
def WSrc.ofMaster (m : Master) : WSrc := { origin := 0, master := masterNum m, source := masterSource m }

/-- A register-set pair of a boot image (R65). -/
def WSrc.boot : WSrc := { origin := 2, master := 0, source := 0 }

/-- An edge record of an engine (R227). -/
def WSrc.edge (e : Nat) : WSrc := { origin := 3, master := 0, source := 0x10 + e }

/-! ### Clamps that depend on more than their field (R13) -/

/-- The ±0.1 % range of the increment (TIM_INC_INT), in 2^-32 ns. -/
def incLow : Nat := 6865075726
def incHigh : Nat := 6878819621

/-- tx_main in force, where tx_main, tx_post and tx_pre of a written word would exceed 63 together (R132). -/
def eqTxMain (v main : Nat) : Nat := min main (63 - bitsOf v 20 16 - bitsOf v 3 0)

/-- The value in force for a value `x` of the field at bit `lo`, in a write of `v` to register `reg` with indices i and j. -/
def State.clampSpecial (s : State) (reg : Reg) (i j lo v x : Nat) : Nat :=
  match reg with
  | .NCL_LCTL => if x = 1 ∨ x = 2 then x else 1
  | .LPHY_EQ_TX => eqTxMain v x
  | .LPHY_DIAG => if x > 3 ∨ s.mode ≠ .diagnostic then 0 else x
  | .EDG_PWM_CTL => if x = 1 then 0 else x
  | .EDG_PWM_PHASE => min x (s.f (F.EDG_PWM_PER_per i) - 1)
  | .ENG_COEF_WIN => min x 0x8000
  | .SCH_ENG_CFG => if x / 16 = i then x else 0xFF
  | .SCH_TC_CFG => if i ≠ 0 ∧ x ≥ 2 then 0 else x
  | .SCH_TC_REL => min x (max 1 (bitsOf v 31 24) - 1)
  | .REC_SILO_CFG => min (min x 8) (48 - min 47 (bitsOf v 15 10))
  | .HIF_RING_CFG =>
    if lo = 24 then nclamp x (ringLen j).1 (ringLen j).2
    else if lo = 16 then (if j = ringTel then max 1 x else x)
    else nclamp x (ringElem j).1 (ringElem j).2
  | .TIM_RATE => twos 24 (iclamp (sx 24 x) (-adjBound) adjBound)
  | .CAN_CFG =>
    if lo = 29 then (if x = 3 ∨ (x = 2 ∧ s.mode ≠ .diagnostic) then 0 else x)
    else if x = 0 ∨ x > 32 then 32 else x
  | .CAN_RXOBJ => if bitOf v 29 then x else x % 2 ^ 11
  | .GRN_GATHER => max 0x10 x
  | _ => x

/-- The value in force for a value of a field (R13). -/
def State.clampField (s : State) (reg : Reg) (i j v : Nat) (fd : FieldDef) (x : Nat) : Nat :=
  match fd.clamp with
  | .none => x
  | .range lo hi => nclamp x lo hi
  | .els top d => if x ≤ top then x else d
  | .special => s.clampSpecial reg i j fd.lo v x

/-- The clamp of R132 is the device's own check. -/
def ownCheck (reg : Reg) (lo : Nat) : Bool := reg == .LPHY_EQ_TX && lo == 8

/-! ### Bits that a write cannot set, without report -/

/-- Fields of a word replaced by those that stand in the register. -/
def State.keep (s : State) (off hi lo v : Nat) : Nat := setBits v hi lo (bitsOf (s.rd off) hi lo)

/-- Channels whose latch a W1C write may clear (R316). -/
def State.clearable (s : State) : Nat :=
  match s.mode with
  | .boot | .configure | .commission | .muster => 255 - s.f F.SAF_STAT_in_now
  | _ => 0

/-- A written word with the bits replaced that hardware keeps. -/
def State.premask (s : State) (reg : Reg) (i off v : Nat) : Nat :=
  match reg with
  | .ENG_COEF_WIN => setBits (setBits v 17 16 0) 1 0 0
  | .ENG_TBL => setBits v 0 0 0
  | .SCH_TRACE_BASE => v / 2 ^ (s.f (F.SCH_ENG_CFG_log2_len i) + 4) * 2 ^ (s.f (F.SCH_ENG_CFG_log2_len i) + 4)
  | .SCH_TC_CFG => if i = 0 then setBits v 21 20 3 else v
  | .EDG_PWM_CTL => if i % 2 = 1 then setBits v 3 3 0 else v
  | .REC_TB_CFG => if bitOf v 30 then setBits v 2 0 0 else v
  | .HIF_DMA_CTL => if s.dumpChannel i then setBits v 23 23 1 else v
  | .TIM_ETH_RXRING => setBits v 10 5 0
  | .GLB_BOOT_LEN => if s.mode = .boot then v else s.keep off 23 0 v
  | .GLB_DIAG_CTL => if s.mode = .diagnostic then v else s.keep off 0 0 v
  | .TIM_RATE => if s.following then s.keep off 23 0 v else v
  | .SAF_LATCH => setBits v 7 0 (bitsOf v 7 0 &&& s.clearable)
  | _ => v

/-! ### Writes that do not reach the register's fields in the plain way -/

/-- A register of a silo that is fixed while the silo is not IDLE (R295). -/
def siloFixed : Reg → Bool
  | .REC_SILO_BASE | .REC_SILO_CFG | .REC_SILO_PRE | .REC_SILO_POST | .REC_SILO_TRIG => true
  | _ => false

/-- The increment pair is written (R410): the sum is clamped, and each changed field reported. -/
def State.incWrite (s : State) (w : WSrc) (off v : Nat) : State :=
  let frac := if off = R.TIM_INC_FRAC then v % 2 ^ 32 else s.rd R.TIM_INC_FRAC
  let int := if off = R.TIM_INC_INT then v % 256 else s.rd R.TIM_INC_INT
  let x := nclamp (int * 2 ^ 32 + frac) incLow incHigh
  let s := (s.wr R.TIM_INC_FRAC (x % 2 ^ 32)).wr R.TIM_INC_INT (x / 2 ^ 32)
  let s := if x % 2 ^ 32 ≠ frac then s.raiseClampFrom w.source w.origin R.TIM_INC_FRAC 0 frac (x % 2 ^ 32) else s
  if x / 2 ^ 32 ≠ int then s.raiseClampFrom w.source w.origin R.TIM_INC_INT 0 int (x / 2 ^ 32) else s

/-- ENG_PM_DATA and ENG_DM_DATA after an access: their address moves on. -/
def State.pmNext (s : State) (e : Nat) : State := s.setF (F.ENG_PM_ADDR_addr e) (s.f (F.ENG_PM_ADDR_addr e) + 1)
def State.dmNext (s : State) (e : Nat) : State :=
  if s.fb (F.ENG_DM_ADDR_auto_inc e) then s.setF (F.ENG_DM_ADDR_addr e) (s.f (F.ENG_DM_ADDR_addr e) + 1) else s

/-- The data-memory address of ENG_DM_ADDR. -/
def State.dmAt (s : State) (e : Nat) : Nat := s.f (F.ENG_DM_ADDR_addr e) * 4

/-- A write that differs from the present value of a locked field (R10). -/
def State.lockedOutWrite (s : State) (w : WSrc) (off : Nat) : State :=
  (s.bumpF F.HIF_ACC_CNT_locked 1).raiseFrom .writeLocked w.source w.master 0 off

/-- A write to ENG_PM_DATA (R232). -/
def State.pmWrite (s : State) (w : WSrc) (e off v : Nat) : State :=
  let a := s.f (F.ENG_PM_ADDR_addr e)
  if s.mode = .configure then (s.pmPut e a v).pmNext e
  else (if v ≠ s.pmWord e a then s.lockedOutWrite w off else s).pmNext e

/-- A register write that ends elsewhere than in the fields of its register; none where it takes the plain way. -/
def State.writeAside (s : State) (w : WSrc) (reg : Reg) (i off v : Nat) : Option State :=
  match reg with
  | .ENG_PM_DATA => some (s.pmWrite w i off v)
  | .ENG_DM_DATA => some ((s.dmExtern i (s.dmAt i) (leBytes 4 v)).dmNext i)
  | .TIM_INC_FRAC | .TIM_INC_INT =>
    if s.mode = .configure then some (s.incWrite w off v)
    else if v % (if reg = .TIM_INC_INT then 256 else 2 ^ 32) ≠ s.rd off then some (s.lockedOutWrite w off) else some s
  | .CAN_CFG =>
    if bitOf v 31 && !s.fb (F.CAN_CFG_en i) && !s.canTimingOk i then some (s.mark (F.CAN_STAT_cfg_err i)) else none
  | _ =>
    if siloFixed reg && s.siloState i != siloIdle then some (s.raiseFrom .recBusy w.source i 0 off) else none

/-! ### The fields -/

/-- One field takes its part of a written word (R9, R10, R13). -/
def State.writeField (w : WSrc) (reg : Reg) (i j off v : Nat) (s : State) (fd : FieldDef) : State :=
  let x := bitsOf v fd.hi fd.lo
  let store (s : State) : State :=
    let y := s.clampField reg i j v fd x
    let s := s.wr off (setBits (s.rd off) fd.hi fd.lo y)
    if y = x then s
    else if ownCheck reg fd.lo then s.raiseClamp 4 off fd.lo x y
    else s.raiseClampFrom w.source w.origin off fd.lo x y
  match fd.acc with
  | .rw => store s
  | .rwl => if s.mode = .configure then store s else s
  | .w1c => s.clearBits off fd.hi fd.lo x
  | _ => s

/-- A locked field of the register would change (R10). -/
def State.lockDiffers (s : State) (d : RegDef) (off v : Nat) : Bool :=
  s.mode != .configure
    && d.fields.any (fun fd => fd.acc == .rwl && bitsOf v fd.hi fd.lo != bitsOf (s.rd off) fd.hi fd.lo)

/-! ### What a write starts -/

/-- SCH_EVT_RAISE is written (R243, R349, R353). -/
def State.evtRaised (s : State) (w : WSrc) (code : Nat) : State :=
  if code < 0x20 then s.raiseClampFrom w.source w.origin R.SCH_EVT_RAISE 0 code 0
  else if s.paired && !s.holder then s.raiseFrom .fwdRefused w.source w.master 0 code
  else
    let it := s.item 6 w.master (leBytes 4 code) none
    if s.paired && s.seq.running then s.capture it else (s.capture it).occur code

/-- The external writes of the present cycle count as made after open (R233): they are stray no more. -/
def State.strayBack (s : State) (e : Nat) : State :=
  match (s.eng e).stray with
  | some x =>
    if x.cyc = s.cyc then
      let s := x.seqs.foldl State.withdrawEvent (s.modEng e (fun y => { y with stray := none }))
      (s.setF (F.ENG_COEF_GEN_gen e) x.gen).setF (F.ENG_COEF_GEN_stray e) x.bit
    else s
  | none => s

/-- The coefficient window is opened or closed (R233). -/
def State.coefGen (s : State) (e : Nat) (open_ close : Bool) : State :=
  let bump (s : State) (o : Nat) : State :=
    ((s.setF (F.ENG_COEF_GEN_gen e) (s.f (F.ENG_COEF_GEN_gen e) + 1)).setF (F.ENG_COEF_GEN_is_open e) o).rereadGen e
  if s.fb (F.ENG_COEF_GEN_is_open e) then
    if close then (bump s 0).modEng e (fun x => { x with closedAt := some s.cyc }) else s
  else if open_ then bump (s.strayBack e) 1 else s

/-- LPHY_DIAG is written (R137 to R139); both injections in one word: log entry 106. -/
def State.diagWritten (s : State) (l old v : Nat) : State :=
  let s := if bitOf v 12 then s.inject l 1 false else s
  let s := if bitOf v 13 then s.inject l (s.f (F.LPHY_DIAG_burst_len l)) true else s
  let s := if s.fb (F.LPHY_DIAG_chk_en l) && !bitOf old 8 then
      (s.wr (R.LPHY_CHK_BITS_LO l) 0).wr (R.LPHY_CHK_BITS_HI l) 0 else s
  let s := if s.checkerOn l then s else s.setF (F.LPHY_STAT_chk_lock l) 0
  let m := s.f (F.LPHY_DIAG_diag_mode l)
  let s := if m = 1 ∧ (bitsOf old 2 0 ≠ 1 ∨ s.f (F.LPHY_DIAG_pat_sel l) ≠ bitsOf old 6 4) then s.startPattern l else s
  if m = bitsOf old 2 0 then s
  else if m = 0 then s.diagNormal l
  else if s.laneState l = laneDiag then s
  else
    let st := s.laneState l
    (s.modLane l (fun x => { x with preDiag := st })).setLaneState l laneDiag

/-- GLB_DIAG_CTL.seq_run is written in DIAGNOSTIC (R58): the engines run as the sequencer does (R43). -/
def State.seqRunWritten (s : State) (old : Nat) : State :=
  let now := s.fb F.GLB_DIAG_CTL_seq_run
  if s.mode ≠ .diagnostic ∨ now = bitOf old 0 then s
  else if now then
    if s.seq.running then { s with seq := { s.seq with stopPend := false } }
    else { s.enginesTo engIdle with seq := { s.seq with startPend := true, next := s.firstBoundary } }
  else if s.seq.running then { s with seq := { s.seq with stopPend := true } }
  else { s.enginesTo engHalted with seq := { s.seq with startPend := false } }

/-- SAF_IN_CFG is written: a pair that becomes enabled with a channel asserted qualifies at once (R314, R319). -/
def State.inCfgWritten (s : State) (i old : Nat) : State :=
  if s.fb (F.SAF_IN_CFG_en i) && !bitOf old (F.SAF_IN_CFG_en i).lo then
    s.latchChannels ([i, i + 4].filter s.channelActs) else s

/-- SAF_TEST_CFG is written: with test_fail_trip, a channel whose test has failed counts as asserted from now on (R319). -/
def State.testCfgWritten (s : State) (old : Nat) : State :=
  if s.fb F.SAF_TEST_CFG_test_fail_trip && !bitOf old F.SAF_TEST_CFG_test_fail_trip.lo then
    s.latchChannels (allChannels.filter (fun ch => s.fb (F.SAF_IN_CFG_en (pairOf ch)) && s.channelFailed ch)) else s

/-- Latches were cleared (R316): the PWM pins are released when no cause is left. -/
def State.latchesCleared (s : State) : State :=
  if s.causeActive || s.mode == .safeBlock then s else { s with pwmIo := { s.pwmIo with safeHiZ := false } }

/-- The consecutive counts of a channel's limits are cleared (R278). -/
def State.limitsCleared (s : State) (c : Nat) : State :=
  { s with adc := { s.adc with limits := tput 0 (tput 0 s.adc.limits (2 * c) 0) (2 * c + 1) 0 } }

/-- ADC_CH_CFG is written: a channel that is enabled has no conversion yet, and a slice whose list was empty goes on. -/
def State.chCfgWritten (s : State) (c old : Nat) : State :=
  let s := s.limitsCleared c
  let s := if s.fb (F.ADC_CH_CFG_en c) && !bitOf old 0 then
      { s with adc := { s.adc with latest := tput none s.adc.latest c none, any := tput none s.adc.any c none } } else s
  s.adcResume

/-- A task is enabled or disabled. -/
def State.tcCfgWritten (s : State) (tc old : Nat) : State :=
  let en := s.fb (F.SCH_TC_CFG_en tc)
  if en = bitOf old 31 then s else s.setTcState tc (if en then tcDormant else tcDisabled)

/-- RED_FWD_REQ is written (R353). -/
def State.fwdWritten (s : State) (w : WSrc) (target : Nat) : State :=
  if s.holder ∧ 6 ≤ target ∧ target ≤ 8 then s.capture (s.item 5 1 (leBytes 4 target) none)
  else s.raiseFrom .fwdRefused w.source w.master 0 target

/-- CAN_CMD is written; `busy` says whether an attempt of the head is in progress. -/
def State.canCmd (s : State) (k v : Nat) (busy : Bool) : State :=
  let s := if bitOf v 0 then s.canPush k else s
  let s := if bitOf v 1 then s.canAbort k busy else s
  let s := if bitOf v 2 then s.canFlush k busy else s
  if bitOf v 3 then s.canRecover k else s

/-- CAN_CMD by a plain register write: whether an attempt is in progress is not known to the model, a free value (log entry 3). -/
def State.canCmdFree (s : State) (k v : Nat) : State :=
  if s.canOffers k then
    let fv := s.free
    fv.2.canCmd k v (fv.1 % 2 == 1)
  else s.canCmd k v false

/-- What a write of `v` to a register starts, once its fields hold their values; `old` is the word before. -/
def State.postWrite (s : State) (w : WSrc) (reg : Reg) (i j off old v : Nat) : State :=
  match reg with
  | .GLB_PERIOD | .GLB_GATHER_DEADLINE | .GLB_ORDER_OFFSET | .GLB_EDGE_OFFSET | .GLB_LANE_MAP | .GLB_ARM_CFG =>
    if s.mode = .configure then s.mapCheck else s
  | .GLB_MODE_REQ => s.requestWritten w.master w.source (bitsOf v 3 0)
  | .GLB_BOOT_CTL => if bitOf v 0 then s.bootGo else s
  | .GLB_DIAG_CTL => s.seqRunWritten old
  | .LPHY_EQ_RX => if s.mode = .configure then s.eqRxWritten i else s
  | .LPHY_DIAG => s.diagWritten i old v
  | .WIN_CELL_TALLY => if s.mode = .configure then s.modCell i (fun x => { x with tallyKept := true }) else s
  | .WIN_CELL_STAT =>
    let s := if bitOf v 9 then s.modCell i (fun x => { x with release := true, releaseAt := s.cyc }) else s
    let now := s.fb (F.WIN_CELL_STAT_retire i)
    let before := bitOf old (F.WIN_CELL_STAT_retire i).lo
    let s := if now == before || (s.cell i).retireWas.any (fun p => p.1 == s.cyc) then s
      else s.modCell i (fun x => { x with retireWas := some (s.cyc, before) })
    if s.fb (F.WIN_CELL_STAT_retire i) then s else s.setF (F.EDG_CELL_OC_latched i) 0
  | .EDG_CELL_OC => if bitOf v 31 then s.setF (F.EDG_CELL_OC_tally i) 0 else s
  | .EDG_PWM_CTL => (s.forceWritten i).runWritten i old
  | .EDG_PWM_PER | .EDG_PWM_ON | .EDG_PWM_OFF | .EDG_PWM_DT | .EDG_PWM_PHASE => s.keepStart off old
  | .EDG_PWM_COMMIT => (s.setF F.EDG_PWM_COMMIT_commit (s.f F.EDG_PWM_COMMIT_commit ||| v % 65536)).keepStart off old
  | .EDG_FLT_STAT => if bitOf v 31 then s.fltClear i else s
  | .ENG_INJ_CTL => s.keepStart off old
  | .ENG_COEF_GEN => s.coefGen i (bitOf v 31) (bitOf v 30)
  | .ENG_CAP_CTL =>
    if s.fb (F.ENG_CAP_CTL_cap_en i) && !bitOf old 0 then
      (s.setF (F.ENG_CAP_IDX_idx i) 0).modEng i (fun x => { x with capStop := false }) else s
  | .SCH_EVT_RAISE => s.evtRaised w (v % 256)
  | .SCH_ENG_CFG => s.wr (R.SCH_TRACE_BASE i) (s.premask .SCH_TRACE_BASE i (R.SCH_TRACE_BASE i) (s.rd (R.SCH_TRACE_BASE i)))
  | .SCH_TC_CFG => s.tcCfgWritten i old
  | .ADC_CFG => if s.mode = .configure then s.adcCfgWritten else s
  | .ADC_URG_REQ => s.urgentRequests ((upto 4).filter (fun u => bitOf v u && s.f (F.ADC_URG_CFG_src u) == 0))
  | .ADC_CH_CFG => if s.mode = .configure then s.chCfgWritten i old else s
  | .ADC_LIM => if s.mode = .configure then s.limitsCleared i else s
  | .REC_TB_CFG => s.tbConfigured
  | .REC_SILO_CTL => s.siloCtl i (bitOf v 0) (bitOf v 1) (bitOf v 2) (bitOf v 3)
  | .SAF_LATCH => if bitsOf v 7 0 = 0 then s else s.latchesCleared
  | .SAF_IN_CFG => if s.mode = .configure then s.inCfgWritten i old else s
  | .SAF_TEST_CFG => if s.mode = .configure then s.testCfgWritten old else s
  | .SAF_CONFIRM => s.confirmWritten (v % 2 ^ 32)
  | .SAF_FAULT_HIST =>
    let s := if bitOf v 15 then s.setF F.SAF_FAULT_HIST_trip_count 0 else s
    if s.rd off = old then s else s.retChanged
  | .RED_CFG => if s.mode = .configure then s.ilkRest else s
  | .RED_CTL =>
    let s := if bitOf v 1 && s.paired && !s.holder then s.openJoin else s
    if bitOf v 0 && s.holder then s.modPair (fun p => { p with handover := true }) else s
  | .RED_FWD_REQ => s.fwdWritten w (bitsOf v 3 0)
  | .HIF_OWN_CTL => if bitOf v 31 then s.ownGo else s
  | .HIF_OWN_CFG => s.modHif (fun h => { h with leaseFrom := s.cyc })
  | .HIF_RING_BASE_LO => if v % 4096 = 0 then s else s.raiseClamp 4 off 0 v (v - v % 4096)
  | .HIF_RING_CFG => if s.fb (F.HIF_RING_CFG_en i j) && !bitOf old 31 then s.ringEnabled i j else s
  | .HIF_DUMP_CFG => if s.fb F.HIF_DUMP_CFG_dump_en then s.setF (F.HIF_DMA_CTL_eng_owned 15) 1 else s
  | .HIF_DMA_CTL => if bitOf v 30 then s.dmaDisable i else s
  | .HIF_MBOX_CTL =>
    if bitOf v 31 && !s.fb F.HIF_MBOX_CTL_busy then (s.setF F.HIF_MBOX_CTL_busy 1).modHif (fun h => { h with mboxGo := some w.master }) else s
  | .TIM_RATE => if w.origin ≤ 1 then s.modTim (fun t => { t with ownAt := some s.cyc }) else s
  | .TIM_OFS_CTL =>
    let s := if bitOf v 31 then s.offsetGo w.master else s
    if bitOf v 30 then s.setGo w.master else s
  | .TIM_ETH_CFG =>
    let s := if bitOf v 27 then s.anRestart i else s
    if s.fb (F.TIM_ETH_CFG_gm_watch i) && !bitOf old 23 then s.modEth i (fun x => { x with gmSeen := false }) else s
  | .TIM_ENG_REQ =>
    if s.fb F.TIM_ENG_REQ_en && !bitOf old 0 then s.modTim (fun t => { t with reqSeq := none, reqPend := none }) else s
  | .GRN_CFG => if bitsOf old 7 0 = 0 then { s with scrubCyc := s.cyc } else s
  | .CAN_CFG => s.canCfgWritten i
  | .CAN_CMD => s.canCmdFree i v
  | _ => s

/-- A write is overruled by an edge record of this cycle (R227). -/
def State.recordStands (s : State) (w : WSrc) (off : Nat) : Bool :=
  w.origin != 3 && s.pwmIo.recAt == s.cyc && s.pwmIo.recs.contains off

/-- A write to the register at an unprivileged offset takes effect (R9, R10, R13, R16). -/
def State.writeReg (s : State) (w : WSrc) (off v0 : Nat) : State :=
  if s.recordStands w off then s
  else match lookup off with
  | none => s
  | some (d, i, j) =>
    match s.writeAside w d.reg i off (v0 % 2 ^ 32) with
    | some t => t
    | none =>
      let v := s.premask d.reg i off (v0 % 2 ^ 32)
      let old := s.rd off
      let s := if s.lockDiffers d off v then s.lockedOutWrite w off else s
      (d.fields.foldl (State.writeField w d.reg i j off v) s).postWrite w d.reg i j off old v

/-! ### Writes by a master (R6 to R8) -/

/-- Where the privileged view begins. -/
def privBase : Nat := 0x800000

/-- A 32-bit aligned write by a master: nothing through the unprivileged view, denied to any master but the owner. -/
def State.masterWrite32 (s : State) (m : Master) (addr v : Nat) : State :=
  if addr < privBase then s
  else if !s.isOwner m then
    (s.bumpF F.HIF_ACC_CNT_denied 1).raiseFrom .writeDenied (masterSource m) (masterNum m) 0 addr
  else s.writeReg (WSrc.ofMaster m) (addr - privBase) v

/-- A narrow or misaligned write is discarded (R8). -/
def State.narrowWrite (s : State) (m : Master) (addr : Nat) : State :=
  (s.bumpF F.HIF_ACC_CNT_narrow 1).raiseFrom .writeNarrow (masterSource m) (masterNum m) 0 addr

/-- A write access of `size` bytes to BAR0. The registers cannot be reached while the device is in reset or has no clock. -/
def State.masterWrite (s : State) (m : Master) (addr size v : Nat) : State :=
  if !s.live then s
  else if size = 8 ∧ addr % 8 = 0 then (s.masterWrite32 m addr (v % 2 ^ 32)).masterWrite32 m (addr + 4) (v / 2 ^ 32)
  else if size = 4 ∧ addr % 4 = 0 then s.masterWrite32 m addr (v % 2 ^ 32)
  else s.narrowWrite m addr

/-- A master writes a word to a register through the privileged view. -/
def State.ownerWrite (s : State) (m : Master) (off v : Nat) : State := s.masterWrite m (privBase + off) 4 v

/-! ### Reads (R8, R9, R12) -/

/-- Low halves of SNAP values and the offsets of what their read snapshots. -/
def snapHighs (reg : Reg) (off : Nat) : List Nat :=
  match reg with
  | .GLB_PERIOD_POS_LO | .LPHY_CHK_BITS_LO | .ADC_RES_LO | .ADC_URG_RES_LO | .SAF_TRIP_TS_LO | .RED_DIGEST_LO | .RED_PDIGEST_LO
  | .HIF_DMA_CUR_LO | .TIM_GM_LO => [off + 4]
  | .TIM_NOW_NS => [off + 4, off + 8]
  | _ => []

/-- High halves: a read returns the master's snapshot. -/
def isSnapHigh : Reg → Bool
  | .GLB_PERIOD_POS_HI | .LPHY_CHK_BITS_HI | .ADC_RES_HI | .ADC_URG_RES_HI | .SAF_TRIP_TS_HI | .RED_DIGEST_HI | .RED_PDIGEST_HI
  | .HIF_DMA_CUR_HI | .TIM_GM_HI | .TIM_NOW_SEC_LO | .TIM_NOW_SEC_HI => true
  | _ => false

/-- A register as it reads now: its stored word, or what the device shows in its place. -/
def State.visible (s : State) (reg : Reg) (i j off : Nat) : Nat :=
  match reg with
  | .CLK_PLL_STAT => s.clkStat
  | .GLB_MODE => s.glbMode
  | .GLB_PERIOD_POS_LO => min 0x1FFFF (s.now.ns - s.pN)
  | .GLB_PERIOD_POS_HI => s.periodNum
  | .LPHY_ERRCNT => setBits (s.rd off) 15 0 (satAdd (s.f (F.LPHY_ERRCNT_bad_sync i)) (s.noSigCount i) 65535)
  | .LPHY_DIAG =>
    let x := (s.lane i).tx
    let on := x.injecting s.cyc
    setBits (setBits (s.rd off) 12 12 (b2n (on && !x.injBurst))) 13 13 (b2n (on && x.injBurst))
  | .EDG_PWM_STAT =>
    setBits (s.rd off) 3 0 (b2n (s.pwmCh i).wave + bitsOf (s.f F.EDG_PWM_COMMIT_commit) i i * 2
      + b2n (s.faultHeld i) * 4 + b2n (s.maskedCh i) * 8)
  | .ENG_TASK => if s.engTc i = none then s.rd off else setBits (s.rd off) 29 16 (s.eng i).ctx.pc.toNat
  | .ENG_PM_DATA => s.pmWord i (s.f (F.ENG_PM_ADDR_addr i))
  | .ENG_DM_DATA => s.dmRead i (s.dmAt i) 4
  | .SCH_CTX => (s.taskCtx i).imageWord j
  | .SCH_TC_STAT =>
    if s.tcState i = tcReady ∧ (s.task i).relCyc = s.cyc then
      setBits (s.rd off) (F.SCH_TC_STAT_state i).hi (F.SCH_TC_STAT_state i).lo (s.task i).before else s.rd off
  | .HIF_OWN_STAT =>
    match s.hif.freeClaim with
    | some x => if x.cyc = s.cyc then setBits (setBits (setBits (s.rd off) 31 16 (bitsOf x.shown 31 16)) 9 8 (bitsOf x.shown 9 8)) 1 0 s.owner
      else s.rd off
    | none => s.rd off
  | .SAF_STAT => s.safStat
  | .SAF_RET_CHECK => s.retConfirmed.getD 0
  | .SAF_RET_DATA => fieldAt s.saf.retBytes (4 * i) 4
  | .RED_STAT => s.redStat
  | .TIM_NOW_NS => s.now.ns % nsPerSec
  | .TIM_NOW_SEC_LO => s.now.ns / nsPerSec % 2 ^ 32
  | .TIM_NOW_SEC_HI => s.now.ns / nsPerSec / 2 ^ 32 % 2 ^ 16 + s.now.frac / 2 ^ 24 * 2 ^ 16
  | .TIM_SLEW_REM => twos 32 (iclamp (s.tim.rem / 2 ^ 32) (-2147483648) 2147483647)
  | .TIM_STAT => setBits (s.rd off) 5 5 (b2n s.following)
  | _ => s.rd off

/-- The key of a master's snapshot. -/
def snapKey (m : Master) (off : Nat) : Nat := masterNum m * 2 ^ 24 + off

/-- A field has a bit among the bytes that an access touches. -/
def FieldDef.touched (fd : FieldDef) (first count : Nat) : Bool :=
  decide (fd.lo / 8 < first + count) && decide (first ≤ fd.hi / 8)

/-- What a read of bytes of a register does: snapshots (any byte of a SNAP low half takes that of the whole value), cleared RC
fields, window addresses. -/
def State.readEffects (s : State) (m : Master) (d : RegDef) (i j off first count : Nat) : State :=
  let s := s.forEach (snapHighs d.reg off) (fun s h =>
    match lookup h with
    | some (dh, ih, jh) => { s with snaps := tput 0 s.snaps (snapKey m h) (BitVec.ofNat 32 (s.visible dh.reg ih jh h)) }
    | none => s)
  let s := if d.reg = .LPHY_ERRCNT then s.noSigTake i else s
  let s := d.fields.foldl (fun s fd =>
    if fd.acc == .rc && fd.touched first count then s.clearBits off fd.hi fd.lo (2 ^ (fd.hi + 1 - fd.lo) - 1) else s) s
  match d.reg with
  | .ENG_PM_DATA => s.pmNext i
  | .ENG_DM_DATA => s.dmNext i
  | .ADC_RES_LO =>
    { s with adc := { s.adc with lastRead := some { cyc := s.cyc, master := m, ch := i, first := first, count := count, value := s.rd off } } }
  | .GLB_DIE_TEMP =>
    if 2 ≤ first + count - 1 ∧ s.justSet off = 0 then { s with pwr := { s.pwr with tempSeen := false } } else s
  | .HIF_RING_STAT =>
    if j = ringTel ∧ 2 < first + count then s.modHif (fun h => { h with telSeen := h.telSeen.filter (fun k => k / 32 != i) }) else s
  | _ => s

/-- A read of bytes of one 32-bit register: the word, and the state after the read's effects (R8, R9, R12, R16). -/
def State.readWord (s : State) (m : Master) (addr first count : Nat) : Nat × State :=
  let off := addr % privBase
  match lookup off with
  | none => (0, s)
  | some (d, i, j) =>
    if d.priv && decide (addr < privBase) then (0, s)
    else if isSnapHigh d.reg then ((tget 0 s.snaps (snapKey m off)).toNat, s)
    else (s.visible d.reg i j off, s.readEffects m d i j off first count)

/-- A read access of `size` bytes to BAR0: the bytes returned, and the state after it. An access of a size that is no power of two
has no natural alignment and is taken as misaligned (log entry 90). -/
def State.masterRead (s : State) (m : Master) (addr size : Nat) : List Byte × State :=
  if !s.live || decide (addr ≥ 2 * privBase) then (leBytes size 0, s)
  else if size = 8 ∧ addr % 8 = 0 then
    let a := s.readWord m addr 0 4
    let b := a.2.readWord m (addr + 4) 0 4
    (leBytes 4 a.1 ++ leBytes 4 b.1, b.2)
  else if (size = 1 ∨ size = 2 ∨ size = 4) ∧ addr % size = 0 then
    let first := addr % 4
    let r := s.readWord m (addr - first) first size
    (((leBytes 4 r.1).drop first).take size, r.2)
  else (leBytes size 0, s)

/-- The bytes of a completed read are returned to the master. -/
def State.answer (r : List Byte × State) : State := { r.2 with rdata := r.1, poisoned := false }

end Sys2Proof.Machine
end

