-- ==== Sys2Proof/Machine/HostCmd.lean ====
section
/-! DEFINITION. Command entries (R381 to R387): their checks, their application, the mailbox, fences, and the mirror point at which
forwarded entries take effect (R350). -/

namespace Sys2Proof.Machine

/-! ### Checks (R382, R383) -/

def cmdKindNop : Nat := 0
def cmdKindWrite : Nat := 1
def cmdKindWriteDm : Nat := 2
def cmdKindWriteGrn : Nat := 3
def cmdKindEvent : Nat := 4
def cmdKindFence : Nat := 5

/-- A kind that is forwarded to the partner. -/
def cmdForwarded (kind : Nat) : Bool := decide (1 ≤ kind) && decide (kind ≤ 4)

/-- An entry's 64 bytes. -/
def entry64 (e : List Byte) : List Byte := (e ++ List.replicate 64 0).take 64

/-- Bytes [a, b) are 0. -/
def zeroBytes (e : List Byte) (a b : Nat) : Bool := ((e.drop a).take (b - a)).all (· == 0)

/-- Every field of an entry of a known kind is in range, and unused fields are 0. -/
def cmdFieldsOk (e : List Byte) : Bool :=
  let kind := fieldAt e 0 1
  let count := fieldAt e 2 2
  decide (fieldAt e 1 1 < 2) &&
  (if kind = cmdKindWrite then
    decide (1 ≤ count) && decide (count ≤ 6) && zeroBytes e 8 16 && zeroBytes e (16 + 8 * count) 64
      && (upto count).all (fun k => decide (fieldAt e (16 + 8 * k) 4 < 2 ^ 24) && fieldAt e (16 + 8 * k) 4 % 4 == 0)
  else if kind = cmdKindWriteDm then
    let a := fieldAt e 10 2
    decide (1 ≤ count) && decide (count ≤ 12) && decide (fieldAt e 8 1 ≤ 11) && zeroBytes e 9 10 && a % 4 == 0
      && decide (a + 4 * count ≤ dmSize) && zeroBytes e 12 16 && zeroBytes e (16 + 4 * count) 64
  else if kind = cmdKindWriteGrn then
    let a := fieldAt e 8 4
    decide (4 ≤ count) && decide (count ≤ 48) && count % 4 == 0 && a % 4 == 0 && decide (a + count ≤ grnSize)
      && zeroBytes e 12 16 && zeroBytes e (16 + count) 64
  else if kind = cmdKindEvent then
    count == 0 && decide (0x20 ≤ fieldAt e 8 1) && zeroBytes e 9 64
  else if kind = cmdKindFence then
    count == 0 && decide (fieldAt e 10 1 < 8) && zeroBytes e 11 64
  else count == 0 && zeroBytes e 8 64)

/-- The status of an entry as it is fetched; 0 where it passes (R383, in its order). -/
def State.cmdStatus (s : State) (master : Nat) (e : List Byte) : Nat :=
  let kind := fieldAt e 0 1
  if kind > 5 then 1
  else if cmdForwarded kind && s.owner != master then 3
  else if cmdForwarded kind && s.paired && !s.holder then 4
  else if !cmdFieldsOk e then 2
  else 0

/-! ### Completion (R384, R386, R391) -/

/-- The ring index of a mailbox entry. -/
def mboxIndex : Nat := 0xFFFF

/-- CMD_DONE of an entry, with an instant of its own (2^-32 ns) where it is a FENCE's. -/
def State.cmdDone (s : State) (master : Nat) (e : List Byte) (status index : Nat) (at_ : Option Nat) : State :=
  if fieldAt e 1 1 % 2 = 1 ∨ status ≠ 0 then
    let t := s.raiseP .cmdDone (0x20 + master)
      (leBytes 4 (fieldAt e 4 4) ++ leBytes 1 (fieldAt e 0 1) ++ leBytes 1 status ++ leBytes 2 index
        ++ leBytes 4 s.periodNum ++ leBytes 4 0)
    match at_ with
    | none => t
    | some u => let ns := u / 2 ^ 32
                { t with events := t.events.mapIdx (fun i v =>
        if i + 1 = t.events.length then { v with time := BitVec.ofNat 64 (timeWord ns) } else v) }
  else s

/-- An entry completes: its event, and for a mailbox entry busy and status. -/
def State.cmdComplete (s : State) (master : Nat) (e : List Byte) (status index : Nat) (at_ : Option Nat) : State :=
  let s := s.cmdDone master e status index at_
  if index = mboxIndex then (s.setF F.HIF_MBOX_CTL_busy 0).setF F.HIF_MBOX_CTL_status status else s

/-! ### Application (R382, R385) -/

/-- Register writes of a WRITE entry, pair by pair. -/
def State.cmdWrites (s : State) (w : WSrc) (e : List Byte) : Nat → Nat → State
  | _, 0 => s
  | k, n + 1 =>
    (s.writeReg w (fieldAt e (16 + 8 * k) 4 % privBase) (fieldAt e (20 + 8 * k) 4)).cmdWrites w e (k + 1) n

/-- An accepted entry of a forwarded kind takes effect. -/
def State.cmdApply (s : State) (w : WSrc) (e : List Byte) : State :=
  let kind := fieldAt e 0 1
  let count := fieldAt e 2 2
  if kind = cmdKindWrite then (s.cmdWrites w e 0 count).occur 0x06
  else if kind = cmdKindWriteDm then
    (s.dmWords (fieldAt e 8 1) (fieldAt e 10 2) count ((e.drop 16).take (4 * count))).occur 0x06
  else if kind = cmdKindWriteGrn then (s.grnWait.grnWrite (fieldAt e 8 4) ((e.drop 16).take count)).occur 0x06
  else if kind = cmdKindEvent then s.occur (fieldAt e 8 1)
  else s

/-- A clamp or a lock was reported since `before`. -/
def State.reportedSince (s before : State) : Bool :=
  (s.events.drop before.events.length).any (fun v => v.code == .clamp || v.code == .writeLocked)

/-- An entry of this device's own ring or mailbox is applied and completes. -/
def State.cmdRun (s : State) (master : Nat) (e : List Byte) (index : Nat) : State :=
  let t := s.cmdApply { origin := 1, master := master, source := 0x20 + master } e
  t.cmdComplete master e (if t.reportedSince s then 5 else 0) index none

/-- Descriptors of the masked channels that are in progress (R387). -/
def State.fenceDescs (s : State) (mask : Nat) : List (Nat × Nat) :=
  ((upto 16).filter (fun c => bitOf mask c && (s.dmaCh c).desc.isSome)).map (fun c => (c, (s.dmaCh c).fetched))

/-- An entry has been fetched from a ring, or from the mailbox (R383, R385, R387). `source` numbers the ring or the mailbox. -/
def State.cmdCapture (s : State) (source master : Nat) (e : List Byte) (index : Nat) : State :=
  let s := s.modHif (fun h => { h with capSeq := h.capSeq + 1 })
  let kind := fieldAt e 0 1
  let st := s.cmdStatus master e
  if st = 4 then (s.raiseFrom .fwdRefused (0x20 + master) master 0 0).cmdComplete master e st index none
  else if st ≠ 0 then s.cmdComplete master e st index none
  else if cmdForwarded kind then
    if s.seq.running then s.capture (s.item 4 master e (some index)) else s.cmdRun master e index
  else if kind = cmdKindFence then
    let f : Fence := { source := source, master := master, tag := fieldAt e 4 4, index := index, notify := fieldAt e 1 1 % 2 == 1,
                       instant := s.nowUnits, ord := s.hif.capSeq, scope := fieldAt e 10 1, descs := s.fenceDescs (fieldAt e 8 2) }
    s.modHif (fun h => { h with fences := h.fences ++ [f] })
  else s.cmdComplete master e 0 index none

/-! ### The mailbox (R386) -/

/-- The 64 bytes of HIF_MBOX. -/
def State.mboxEntry (s : State) : List Byte := (upto 16).flatMap (fun w => leBytes 4 (s.rd (R.HIF_MBOX w)))

/-- A written go captures the mailbox entry, unless a hand-over has stopped fetching (R373). -/
def State.mboxRun (s : State) : State :=
  match s.hif.mboxGo with
  | none => s
  | some m =>
    if s.hif.handover.isSome then s
    else (s.modHif (fun h => { h with mboxGo := none })).cmdCapture 2 m s.mboxEntry mboxIndex

/-! ### Inputs that wait for a mirror point -/

/-- One item of a period's content takes effect (R349, R350). -/
def State.itemApply (s : State) (it : MirItem) : State :=
  if it.kind = 4 then
    match it.index with
    | some i => s.cmdRun it.source it.payload i
    | none => s.cmdApply { origin := 1, master := it.source, source := 0x30 } it.payload
  else if it.kind = 5 ∧ s.paired then
    let target := fieldAt it.payload 0 1 % 16
    if it.source = 0 ∨ !s.holder then
      let s := match s.pair.request with
        | some r => if s.holder then s else s.refuseMode r.1 10
        | none => s
      s.modPair (fun p => { p with request := some (target, it.source) })
    else s
  else if it.kind = 6 ∧ s.paired then s.occur (fieldAt it.payload 0 1)
  else s

/-- Where the sequencer has stopped, entries captured for a later mirror point are applied in their order (R385). -/
def State.flushCaptured (s : State) : State :=
  if s.seq.running then s
  else
    let all := s.pair.deferred ++ s.pair.capLast ++ s.pair.capNow
    let s := s.modPair (fun p => { p with deferred := [], capLast := [], capNow := [] })
    (all.filter (fun it => it.kind == 4 || it.kind == 6)).foldl State.itemApply s

/-- What follows a command: the scheduler decisions of an earlier cycle, the trip of an overrun limit that it has reached (R254), entries that no mirror point awaits,
and the mailbox; muster_done falls where a condition of it has. -/
def State.settle (s : State) : State := s.catchUp.overrunTrip.flushCaptured.mboxRun.overrunTrip.musterLapse

/-- The content of the period is applied at Q_n. -/
def State.applyInput (s : State) (c : MirInput) : State :=
  let s := if s.paired && s.fb F.ADC_SNAP_BASE_snap_en then
      (s.grnWriteB (s.snapAddr c.period) (c.snapshot.flatMap (leBytes 8))).occur 0x04 else s
  let s := if s.fb F.RED_MIR_BASE_en then
      s.grnWriteB (s.f F.RED_MIR_BASE_base * 65536 + c.period % 4 * 0x4000) c.block else s
  let s := c.items.foldl State.itemApply s
  if s.paired || s.fb F.RED_MIR_BASE_en then s.occur 0x05 else s

/-- The mirror point Q_n (R350, R385). -/
def execMirrorPoint (s : State) : Host.Outcome State Fault Refusal :=
  if s.seq.running && s.seq.started && !s.pair.mirDone then
    let s := s.advanceTo s.mirrorPoint
    let s := if (!s.paired || s.holder) && s.pair.input.isNone then s.formInput else s
    let s := s.modPair (fun p => { p with mirDone := true })
    match s.pair.input with
    | none => .next s
    | some c => .next (s.applyInput c).settle
  else .next s

/-! ### Command rows -/

/-- The entry at the head of a port's command ring is fetched (R377, R385), the head moves on and vector 1 is raised (R380). An entry of another known kind is that kind's row. While a
hand-over runs the old owner's ring is not fetched (R373). -/
def State.cmdFetch (s : State) (p kind : Nat) (bytes : List Byte) : State :=
  let e := entry64 bytes
  let k := fieldAt e 0 1
  let x := s.ring (ringKey p ringCmd)
  if !s.live || !s.ringOn p ringCmd || (k != kind && decide (k ≤ 5)) || x.idx == x.host
      || (s.hif.handover.isSome && s.owner == p) then s
  else
    let i := (x.idx + 1) % s.ringEntries p ringCmd
    let s := s.setRing (ringKey p ringCmd) { x with idx := i }
    let s := ((s.setF (F.HIF_RING_STAT_dev_idx p ringCmd) i).statusDue p).msix p 1
    (s.cmdCapture p p e x.idx).settle

def execCmdNop (p : Fin 2) (entry : List Byte) (s : State) : Host.Outcome State Fault Refusal :=
  .next (s.cmdFetch p cmdKindNop entry)

def execCmdWrite (p : Fin 2) (entry : List Byte) (s : State) : Host.Outcome State Fault Refusal :=
  .next (s.cmdFetch p cmdKindWrite entry)

def execCmdWriteDm (p : Fin 2) (entry : List Byte) (s : State) : Host.Outcome State Fault Refusal :=
  .next (s.cmdFetch p cmdKindWriteDm entry)

def execCmdWriteGrn (p : Fin 2) (entry : List Byte) (s : State) : Host.Outcome State Fault Refusal :=
  .next (s.cmdFetch p cmdKindWriteGrn entry)

def execCmdEvent (p : Fin 2) (entry : List Byte) (s : State) : Host.Outcome State Fault Refusal :=
  .next (s.cmdFetch p cmdKindEvent entry)

def execCmdFence (p : Fin 2) (entry : List Byte) (s : State) : Host.Outcome State Fault Refusal :=
  .next (s.cmdFetch p cmdKindFence entry)

/-! ### Fences (R387) -/

/-- An entry of a fence's source that was captured before it waits for a mirror point. -/
def State.sourceWaits (s : State) (f : Fence) : Bool :=
  let waiting := s.pair.deferred ++ s.pair.capLast ++ s.pair.capNow
    ++ (match s.pair.input with | some c => if s.pair.mirDone then [] else c.items | none => [])
  waiting.any (fun it => it.kind == 4 && (match it.index with
    | some i => (if f.source = 2 then i == mboxIndex else it.source == f.source && i != mboxIndex)
        && decide (it.ord < f.ord)
    | none => false))

/-- Telemetry records of the present period, which began before `instant`, are still to come (R393, R394). -/
def State.telComes (s : State) (instant : Nat) : Bool :=
  s.seq.running && s.seq.started && !s.seq.gatherDone && decide (s.pN * 2 ^ 32 < instant)
    && (upto 2).any (fun p => s.telDue p && s.f (F.HIF_TEL_ARMS_arms p) != 0)

/-- A fence's conditions hold; `earlier` are the fences captured before it. -/
def State.fenceOk (s : State) (earlier : List Fence) (f : Fence) : Bool :=
  !earlier.any (fun g => g.source == f.source) && !s.sourceWaits f
    && !(bitOf f.scope 0 && s.events.any (fun v => decide (instantOf v.time.toNat ≤ f.instant / 2 ^ 32)))
    && !(bitOf f.scope 1 && (s.telComes f.instant || s.hif.tel.any (fun r => decide (s.boundary r.period * 2 ^ 32 < f.instant))))
    && !(bitOf f.scope 2 && s.hif.dumpBusy)
    && f.descs.all (fun d => (s.dmaCh d.1).desc.isNone || (s.dmaCh d.1).fetched != d.2)

/-- The first fence whose conditions hold, with the others. -/
def State.fenceReady (s : State) : List Fence → List Fence → Option (Fence × List Fence)
  | _, [] => none
  | earlier, f :: rest => if s.fenceOk earlier f then some (f, earlier ++ rest) else s.fenceReady (earlier ++ [f]) rest

/-- A fence completes: its CMD_DONE carries the fence instant. -/
def execFenceComplete (s : State) : Host.Outcome State Fault Refusal :=
  match s.fenceReady [] s.hif.fences with
  | none => .next s
  | some (f, rest) =>
    let s := s.modHif (fun h => { h with fences := rest })
    let e := leBytes 1 cmdKindFence ++ leBytes 1 (b2n f.notify) ++ leBytes 2 0 ++ leBytes 4 f.tag
    .next (s.cmdComplete f.master e 0 f.index (some f.instant))

/-! ### Hand-over of ownership (R373) -/

/-- The last entry fetched before the hand-over has been applied: the successor is owner, or ownership is free. -/
def execHandoverComplete (s : State) : Host.Outcome State Fault Refusal :=
  match s.hif.handover with
  | none => .next s
  | some dest =>
    let old := s.f F.HIF_OWN_STAT_owner
    let waits := s.pair.deferred ++ s.pair.capLast ++ s.pair.capNow
      ++ (match s.pair.input with | some c => if s.pair.mirDone then [] else c.items | none => [])
    if waits.any (fun it => it.kind == 4 && it.source == old && it.index.isSome) then .next s
    else
      let s := s.modHif (fun h => { h with handover := none })
      if dest = 3 then .next ((s.ownChange noOwner 2).resolveClaims).settle
      else if bitOf (s.f F.HIF_OWN_STAT_claim_pend) dest then
        let pend := s.f F.HIF_OWN_STAT_claim_pend
        .next ((s.setF F.HIF_OWN_STAT_claim_pend (setBits pend dest dest 0)).ownChange dest 1).settle
      else .next s.settle

end Sys2Proof.Machine
end

