-- ==== Sys2Proof/Machine/AnalogRows.lean ====
section
/-! DEFINITION. Rows of the analog front end (R261 to R278): conversions, results, calibration, round triggers, the period snapshot. -/

namespace Sys2Proof.Machine

/-- The front end converts (R263). -/
def State.adcWorks (s : State) : Bool := s.live && s.adc.phase == .working

/-! ### Conversions (R261, R264) -/

/-- The slice whose running conversion a unit makes. -/
def State.unitSlice (s : State) (k : Nat) : Option Nat :=
  (upto 4).find? (fun i => (s.slice i).cur.any (fun c => c.unit == k))

/-- A unit's conversion ends 40 ns after its start; the next one of its slice starts. -/
def execAdcConversionEnd (k : Fin 5) (s : State) : Host.Outcome State Fault Refusal :=
  if s.adcWorks then
    match s.unitSlice k with
    | none => .next s
    | some i =>
      match (s.slice i).cur with
      | none => .next s
      | some c =>
        let s := s.advanceTo (c.start + 40)
        let s := s.modSlice i (fun x => { x with cur := none, ended := x.ended ++ [c], lastEnd := c.start + 40 })
        .next (s.startNext i (c.start + 40))
  else .next s

/-! ### Results (R269 to R278) -/

/-- The code as delivered: clamped, at full scale where the input is beyond it (R273). -/
def fullScale (code : Int) (ovr : Bool) : Int := if ovr then (if code < 0 then -32768 else 32767) else iclamp code (-32768) 32767

/-- The limits that a code of a channel activates, as 2 × c + k, and the state after (R276). -/
def State.limitsSee (s : State) (c : Nat) (code : Int) : List Nat × State :=
  let r0 := s.limitSees c 0 code
  let r1 := r0.1.limitSees c 1 code
  ((if r0.2 then [2 * c] else []) ++ (if r1.2 then [2 * c + 1] else []), r1.1)

/-- A limit is in the trip matrix (R320). -/
def State.limitMasked (s : State) (n : Nat) : Bool :=
  bitOf (s.f (if n % 2 = 0 then F.SAF_TM_MASK0_mask else F.SAF_TM_MASK1_mask)) (n / 2)

/-- Activated limits reach the recorder and the trip matrix (R278, R297, R320); together they make one trigger (R315). -/
def State.limitsAct (s : State) (acts : List Nat) : State :=
  let s := if acts.isEmpty then s else s.recTrigger trigLimit s.stampNs
  match acts.filter s.limitMasked with
  | [] => s
  | n :: _ => if s.mode.feedsMatrix then s.trip 2 n else s

/-- The settle count of a unit before a result and after it (R273). -/
def State.settleStep (s : State) (unit : Nat) (ovr : Bool) : Bool × State :=
  let n := s.adc.settle.getD unit 0
  (decide (0 < n), { s with adc := { s.adc with settle := lset s.adc.settle unit (if ovr then 2 else n - 1) } })

/-- A result is stored (R270, R271). -/
def State.storeResult (s : State) (c : Conv) (word : Nat) : State :=
  let sample := ((c.start + 8 : Nat) - c.stepped : Int).toNat
  let hi := sample % nsPerSec / 2 * 2
  let s := (s.wr (R.ADC_RES_LO c.ch) word).wr (R.ADC_RES_HI c.ch) hi
  let r : AdcRes := { word := word, sample := sample }
  let s := { s with adc := { s.adc with any := tput none s.adc.any c.ch (some r) } }
  match c.urgent with
  | some u => ((s.wr (R.ADC_URG_RES_LO u) word).wr (R.ADC_URG_RES_HI u) hi).bumpF (F.ADC_URG_CNT_done u) 1
  | none => { s with adc := { s.adc with latest := tput none s.adc.latest c.ch (some r) } }

/-- A read of the channel's ADC_RES_LO in the cycle in which a result becomes valid returns the new result (R270). -/
def State.readAgain (s : State) (ch : Nat) : State :=
  match s.adc.lastRead with
  | none => s
  | some x =>
    let old := ((leBytes 4 x.value).drop x.first).take x.count
    if x.cyc = s.cyc ∧ x.ch = ch ∧ s.rdata.take x.count = old then
      let r := s.readWord x.master (privBase + R.ADC_RES_LO ch) x.first x.count
      let hi := if s.rdata.length = 8 then leBytes 4 (tget 0 r.2.snaps (snapKey x.master (R.ADC_RES_HI ch))).toNat else []
      { r.2 with rdata := ((leBytes 4 r.1).drop x.first).take x.count ++ hi }
    else s

/-- The oldest ended conversion of a unit becomes valid 44 ns after its start. -/
def execAdcResult (k : Fin 5) (code : Int) (ovr : Bool) (s : State) : Host.Outcome State Fault Refusal :=
  if s.adcWorks then
    match (upto 4).find? (fun i => (s.slice i).ended.any (fun c => c.unit == k.val)) with
    | none => .next s
    | some i =>
      match (s.slice i).ended.find? (fun c => c.unit == k.val) with
      | none => .next s
      | some c =>
        let s := (s.modSlice i (fun x => { x with ended := x.ended.erase c })).advanceTo (c.start + 44)
        let v := fullScale code ovr
        let st := s.settleStep k ovr
        let s := (st.2.storeResult c (resWord (twos 16 v) ovr st.1 c.urgent.isSome k)).readAgain c.ch
        let s := if ovr then s.overRange c.ch else s
        let s := s.forEach [0, 1] (fun s z => s.zeroSees z c.ch v)
        let r := s.limitsSee c.ch v
        .next (r.2.limitsAct r.1).settle
  else .next s

/-! ### Rounds and calibration (R264 to R267) -/

/-- A round trigger of ECONOMY while the sequencer is stopped, every T from the trigger or the start of sequences before it (R264; log entry
113). -/
def execAdcRoundTrigger (s : State) : Host.Outcome State Fault Refusal :=
  if s.adcWorks && s.economy && !s.seq.running then .next (s.advanceCyc (s.adc.trigAt + cyclesOfNs s.periodNs)).roundsStart
  else .next s

/-- A slice without channels has no round to wait for: its transfer is made at once. -/
def State.transferIdle (s : State) (k : Nat) : State := if (s.sliceList k).isEmpty then s.transfer k else s

/-- The next unit of the rotation starts, cal_interval after the one before: a slice once the gleaner has its list, the gleaner while
it stands in for none (R266; the first start: log entry 112). -/
def execAdcCalStart (s : State) : Host.Outcome State Fault Refusal :=
  if s.adcWorks && s.fb F.ADC_CAL_cal_en && s.adc.calRun.isNone && s.adc.calPend.isNone && s.f F.ADC_STAT_stand_in == 7 then
    let u := s.adc.calNext
    let s := s.advanceCyc (s.adc.calLast + s.f F.ADC_CAL_cal_interval * cycPerMs)
    let s := { s with adc := { s.adc with calNext := (u + 1) % 5, calLast := s.cyc } }
    if u = 4 then .next ((s.calBegin (some 4)).setF F.ADC_STAT_stand_in 4)
    else .next (({ s with adc := { s.adc with calPend := some u } }).transferIdle u)
  else .next s

/-- A unit's calibration has ended, in its range or not (R266). -/
def State.calEnd (ok : Nat) (s : State) (u : Nat) : State :=
  let s := s.setF F.ADC_STAT_cal_count (s.f F.ADC_STAT_cal_count + 1)
  if bitOf ok u then s else (s.mark F.ADC_STAT_cal_err).raise .adcCalErr u 0 0

/-- The calibration in progress has taken its 120 µs. -/
def State.calWait (s : State) : State := s.advanceCyc (s.adc.calAt + 120 * cycPerUs)

/-- A 120 µs calibration ends; bit u of `ok` tells whether unit u passed its range check. -/
def execAdcCalDone (ok : BitVec 5) (s : State) : Host.Outcome State Fault Refusal :=
  if s.live && s.adc.phase == .initial then .next (s.calWait.forEach (upto 5) (State.calEnd ok.toNat)).adcBegin
  else if s.adcWorks then
    match s.adc.calRun with
    | none => .next s
    | some u =>
      let s := { s.calWait with adc := { s.adc with calRun := none } }.calEnd ok.toNat u
      .next (if u = 4 then s.setF F.ADC_STAT_stand_in 7 else s.transferIdle u)
  else .next s

/-! ### The period snapshot (R274) -/

/-- The snapshot of the period is taken at P_n + 300 ns. -/
def execAdcSnapshot (s : State) : Host.Outcome State Fault Refusal :=
  if s.live && s.seq.started && (s.adc.snap.isEmpty || s.adc.snapPeriod != s.periodFull) then
    .next (s.advanceTo (s.pN + 300)).takeSnapshot
  else .next s

/-- The record is complete by P_n + 400 ns; of a paired device it is written at the mirror point. -/
def execSnapshotRecordDone (s : State) : Host.Outcome State Fault Refusal :=
  if s.live && s.adc.snapDue then
    let s := s.advanceTo (s.boundary s.adc.snapPeriod + 400)
    let s := { s with adc := { s.adc with snapDue := false } }
    if s.fb F.ADC_SNAP_BASE_snap_en && !s.paired then
      .next ((s.grnWriteA (s.snapAddr s.adc.snapPeriod) s.snapRecord).occur 0x04).settle
    else .next s
  else .next s

end Sys2Proof.Machine
end

