-- ==== Sys2Proof/Machine/Engines.lean ====
section
/-! DEFINITION. The instructions of the field engines (R204 to R238): issue, faults, every operation, the granary path. -/

namespace Sys2Proof.Machine

/-! ### Faults (R229) -/

/-- The source byte of an engine's events (R388). -/
def engSource (e : Nat) : Nat := 0x10 + e

/-- An engine stops before its instruction has any effect. A fault of the FATAL task ends it (R257); any other is a fatal error. -/
def State.engFault (s : State) (e code : Nat) : State :=
  let s := s.catchUp
  let pc := (s.eng e).ctx.pc.toNat
  let tc := s.engTc e
  let s := (s.setF (F.ENG_STAT_fault_code e) code).setF (F.ENG_STAT_fault_pc e) pc
  let s := (s.raiseFrom .engFault (engSource e) e code pc).freeEngine e engFaulted
  if s.ctl.fatal then (s.dropInstance 0 tcStopped).setF F.SCH_FATAL_fatal_state 5
  else
    let s := match tc with
      | some t => s.dropInstance t tcStopped
      | none => s
    s.fatalError 6 e code pc

/-! ### Issue and completion -/

/-- The engine can issue: it runs a task and waits neither for a load nor for a SIG. -/
def State.canIssue (s : State) (e : Nat) : Bool :=
  s.live && s.engState e == engRunning && (s.eng e).ldg.isNone && (s.eng e).sig.isNone

/-- The word at an engine's pc is fetched and issued. `k` is the meaning of the instructions of one row; a word of another row leaves
the state alone. -/
def State.issue (s : State) (e : Nat) (fetch : Ecc) (k : EngInstr → Option (State → State)) : State :=
  if !s.canIssue e then s
  else
    let i := engDecode (s.pmWord e (s.eng e).ctx.pc.toNat)
    match fetch with
    | .double _ _ => s.engFault e 5
    | .single =>
      let t := s.bumpF (F.ENG_ECC_pm_corr e) 1
      match i with
      | none => t.engFault e 1
      | some i => match k i with
        | none => s
        | some g => g t
    | .ok =>
      match i with
      | none => s.engFault e 1
      | some i => match k i with
        | none => s
        | some g => g s

/-- An instruction completes with a context, counted where it set SAT or AOV, and execution falls through. -/
def State.retire (s : State) (e : Nat) (u : Alu) : State :=
  let s := if u.sat then s.bumpF (F.ENG_ARITH_sat_cnt e) 1 else s
  let s := if u.aov then s.bumpF (F.ENG_ARITH_aov_cnt e) 1 else s
  s.modEng e (fun x => { x with ctx := u.ctx.fall })

/-- An arithmetic instruction: its result from the context. -/
def State.arith (s : State) (e : Nat) (g : EngCtx → Alu) : State := s.retire e (g (s.eng e).ctx)

/-- An instruction that sets neither SAT nor AOV. -/
def State.plain (s : State) (e : Nat) (g : EngCtx → EngCtx) : State := s.arith e (fun c => (g c).alu)

/-- An instruction that names the next pc itself. -/
def State.jump (s : State) (e : Nat) (g : EngCtx → EngCtx) : State := s.modEng e (fun x => { x with ctx := g x.ctx })

/-! ### Data memory (R206, R207, R224) -/

/-- The words of data memory that a load reads have been checked, one outcome for each: corrected errors are counted, an uncorrectable
one is a fault (R224). -/
def State.dmChecked (s : State) (e : Nat) (eccs : List Ecc) (k : State → State) : State :=
  if eccs.any Ecc.isDouble then s.engFault e 4 else k (s.dmCorrected e eccs)

/-- An access of `n` bytes at `a`, or the fault it makes. -/
def State.dmUse (s : State) (e a n align : Nat) (eccs : List Ecc) (k : State → State) : State :=
  if a + n > dmSize then s.engFault e 2
  else if a % align ≠ 0 then s.engFault e 3
  else s.dmChecked e eccs k

/-- A format M operand: its address, and the context with the address register updated (R215). -/
def State.memUse (s : State) (e : Nat) (m : MemArg) (k : Nat → EngCtx → State) : State :=
  let c := (s.eng e).ctx
  match c.memAddr m with
  | none => s.engFault e 1
  | some (a, xv) => k a { c with x := c.x.set m.xp xv }

/-- A 16-bit value of data memory, signed. -/
def State.dm16 (s : State) (e a : Nat) : Int := sx 16 (s.dmRead e a 2)

/-! ### Arithmetic rows (R209 to R215) -/

def execNop (e : Fin 12) (fetch : Ecc) (s : State) : Host.Outcome State Fault Refusal :=
  .next (s.issue e fetch fun i => match i with
    | .nop => some (fun s => s.plain e id)
    | _ => none)

def execMul (e : Fin 12) (fetch : Ecc) (s : State) : Host.Outcome State Fault Refusal :=
  .next (s.issue e fetch fun i => match i with
    | .mul a ds dt sat => some (fun s => s.arith e (fun c => c.alu.setAccZn a (prod (c.dS ds) (c.dS dt)) sat))
    | _ => none)

def execMac (e : Fin 12) (fetch : Ecc) (s : State) : Host.Outcome State Fault Refusal :=
  .next (s.issue e fetch fun i => match i with
    | .mac a ds dt sat => some (fun s => s.arith e (fun c => c.alu.setAccZn a (c.aS a + prod (c.dS ds) (c.dS dt)) sat))
    | _ => none)

def execMsu (e : Fin 12) (fetch : Ecc) (s : State) : Host.Outcome State Fault Refusal :=
  .next (s.issue e fetch fun i => match i with
    | .msu a ds dt sat => some (fun s => s.arith e (fun c => c.alu.setAccZn a (c.aS a - prod (c.dS ds) (c.dS dt)) sat))
    | _ => none)

/-- Two accumulators at once; Z and N follow the first. -/
def execMac2 (e : Fin 12) (fetch : Ecc) (s : State) : Host.Outcome State Fault Refusal :=
  .next (s.issue e fetch fun i => match i with
    | .mac2 a ds dt b du dv sat => some (fun s => s.arith e (fun c =>
        (c.alu.setAccZn a (c.aS a + prod (c.dS ds) (c.dS dt)) sat).setAcc b (c.aS b + prod (c.dS du) (c.dS dv)) sat))
    | _ => none)

/-- MACD reads two pairs of values from data memory. -/
def State.macd (s : State) (e : Nat) (ap : Bool) (xp xq : Fin 8) (sat : Bool) (data : List Ecc) : State :=
  let c := (s.eng e).ctx
  let p := c.xU xp
  let q := c.xU xq
  if p + 4 > dmSize ∨ q + 4 > dmSize then s.engFault e 2
  else if p % 4 ≠ 0 ∨ q % 4 ≠ 0 then s.engFault e 3
  else s.dmUse e p 4 4 data (fun s =>
    let a : Fin 4 := Fin.ofNat 4 (2 * b2n ap)
    let b : Fin 4 := Fin.ofNat 4 (2 * b2n ap + 1)
    let c1 := (c.setX xp (p + 4 : Nat)).setX xq (q + 4 : Nat)
    s.retire e ((c1.alu.setAccZn a (c.aS a + prod (s.dm16 e p) (s.dm16 e q)) sat).setAcc b
      (c.aS b + prod (s.dm16 e (p + 2)) (s.dm16 e (q + 2))) sat))

def execMacd (e : Fin 12) (fetch : Ecc) (data : List Ecc) (s : State) : Host.Outcome State Fault Refusal :=
  .next (s.issue e fetch fun i => match i with
    | .macd ap xp xq sat => some (fun s => s.macd e ap xp xq sat data)
    | _ => none)

def execAdda (e : Fin 12) (fetch : Ecc) (s : State) : Host.Outcome State Fault Refusal :=
  .next (s.issue e fetch fun i => match i with
    | .adda a b sat => some (fun s => s.arith e (fun c => c.alu.setAccZn a (c.aS a + c.aS b) sat))
    | _ => none)

def execSuba (e : Fin 12) (fetch : Ecc) (s : State) : Host.Outcome State Fault Refusal :=
  .next (s.issue e fetch fun i => match i with
    | .suba a b sat => some (fun s => s.arith e (fun c => c.alu.setAccZn a (c.aS a - c.aS b) sat))
    | _ => none)

def execSha (e : Fin 12) (fetch : Ecc) (s : State) : Host.Outcome State Fault Refusal :=
  .next (s.issue e fetch fun i => match i with
    | .sha a sh sat => some (fun s => s.arith e (fun c => c.alu.setAccZn a (shiftInt (c.aS a) sh) sat))
    | _ => none)

def execAbsa (e : Fin 12) (fetch : Ecc) (s : State) : Host.Outcome State Fault Refusal :=
  .next (s.issue e fetch fun i => match i with
    | .absa a sat => some (fun s => s.arith e (fun c => c.alu.setAccZn a ((c.aS a).natAbs : Int) sat))
    | _ => none)

def execNega (e : Fin 12) (fetch : Ecc) (s : State) : Host.Outcome State Fault Refusal :=
  .next (s.issue e fetch fun i => match i with
    | .nega a sat => some (fun s => s.arith e (fun c => c.alu.setAccZn a (-(c.aS a)) sat))
    | _ => none)

def execLda (e : Fin 12) (fetch : Ecc) (s : State) : Host.Outcome State Fault Refusal :=
  .next (s.issue e fetch fun i => match i with
    | .lda a ds => some (fun s => s.arith e (fun c => c.alu.setAccZn a (c.dS ds * 2 ^ 16) false))
    | _ => none)

def execRnd (e : Fin 12) (fetch : Ecc) (s : State) : Host.Outcome State Fault Refusal :=
  .next (s.issue e fetch fun i => match i with
    | .rnd dd a => some (fun s => s.arith e (fun c => c.setSat16Zn dd ((c.aS a + 2 ^ 15) / 2 ^ 16)))
    | _ => none)

def execExt (e : Fin 12) (fetch : Ecc) (s : State) : Host.Outcome State Fault Refusal :=
  .next (s.issue e fetch fun i => match i with
    | .ext dd a sh => some (fun s => s.arith e (fun c => c.setSat16Zn dd (c.aS a / 2 ^ sh)))
    | _ => none)

/-- CLAMPA (opcode 0x0E), and CLAMP (opcode 0x0F), which has no row of its own (log entry 8). -/
def execClampa (e : Fin 12) (fetch : Ecc) (s : State) : Host.Outcome State Fault Refusal :=
  .next (s.issue e fetch fun i => match i with
    | .clampa a dlo dhi => some (fun s => s.arith e (fun c =>
        c.alu.setAccZn a (min (max (c.aS a) (c.dS dlo * 2 ^ 16)) (c.dS dhi * 2 ^ 16 + 0xFFFF)) false))
    | .clamp dd ds dlo dhi => some (fun s => s.plain e (fun c => c.setDzn dd (min (max (c.dS ds) (c.dS dlo)) (c.dS dhi))))
    | _ => none)

def execAdd (e : Fin 12) (fetch : Ecc) (s : State) : Host.Outcome State Fault Refusal :=
  .next (s.issue e fetch fun i => match i with
    | .add dd ds dt sat => some (fun s => s.arith e (fun c =>
        c.addSub dd (c.dS ds + c.dS dt) (decide (c.dU ds + c.dU dt ≥ 2 ^ 16)) sat))
    | _ => none)

def execSub (e : Fin 12) (fetch : Ecc) (s : State) : Host.Outcome State Fault Refusal :=
  .next (s.issue e fetch fun i => match i with
    | .sub dd ds dt sat => some (fun s => s.arith e (fun c =>
        c.addSub dd (c.dS ds - c.dS dt) (decide (c.dU dt ≤ c.dU ds)) sat))
    | _ => none)

def execAnd (e : Fin 12) (fetch : Ecc) (s : State) : Host.Outcome State Fault Refusal :=
  .next (s.issue e fetch fun i => match i with
    | .band dd ds dt => some (fun s => s.plain e (fun c => c.setDzn dd ((c.dU ds &&& c.dU dt : Nat) : Int)))
    | _ => none)

def execOr (e : Fin 12) (fetch : Ecc) (s : State) : Host.Outcome State Fault Refusal :=
  .next (s.issue e fetch fun i => match i with
    | .bor dd ds dt => some (fun s => s.plain e (fun c => c.setDzn dd ((c.dU ds ||| c.dU dt : Nat) : Int)))
    | _ => none)

def execXor (e : Fin 12) (fetch : Ecc) (s : State) : Host.Outcome State Fault Refusal :=
  .next (s.issue e fetch fun i => match i with
    | .bxor dd ds dt => some (fun s => s.plain e (fun c => c.setDzn dd ((c.dU ds ^^^ c.dU dt : Nat) : Int)))
    | _ => none)

def execAndn (e : Fin 12) (fetch : Ecc) (s : State) : Host.Outcome State Fault Refusal :=
  .next (s.issue e fetch fun i => match i with
    | .bandn dd ds dt => some (fun s => s.plain e (fun c => c.setDzn dd ((c.dU ds &&& (0xFFFF - c.dU dt) : Nat) : Int)))
    | _ => none)

def execShl (e : Fin 12) (fetch : Ecc) (s : State) : Host.Outcome State Fault Refusal :=
  .next (s.issue e fetch fun i => match i with
    | .shl dd ds sh => some (fun s => s.plain e (fun c => c.setDzn dd ((c.dU ds * 2 ^ sh : Nat) : Int)))
    | _ => none)

def execShr (e : Fin 12) (fetch : Ecc) (s : State) : Host.Outcome State Fault Refusal :=
  .next (s.issue e fetch fun i => match i with
    | .shr dd ds sh => some (fun s => s.plain e (fun c => c.setDzn dd ((c.dU ds / 2 ^ sh : Nat) : Int)))
    | _ => none)

def execSar (e : Fin 12) (fetch : Ecc) (s : State) : Host.Outcome State Fault Refusal :=
  .next (s.issue e fetch fun i => match i with
    | .sar dd ds sh => some (fun s => s.plain e (fun c => c.setDzn dd (c.dS ds / 2 ^ sh)))
    | _ => none)

def execCmp (e : Fin 12) (fetch : Ecc) (s : State) : Host.Outcome State Fault Refusal :=
  .next (s.issue e fetch fun i => match i with
    | .cmp ds dt u => some (fun s => s.plain e (fun c => c.compare ds dt u))
    | _ => none)

def execMov (e : Fin 12) (fetch : Ecc) (s : State) : Host.Outcome State Fault Refusal :=
  .next (s.issue e fetch fun i => match i with
    | .mov dd ds => some (fun s => s.plain e (fun c => c.setDzn dd (c.dS ds)))
    | _ => none)

def execMovi (e : Fin 12) (fetch : Ecc) (s : State) : Host.Outcome State Fault Refusal :=
  .next (s.issue e fetch fun i => match i with
    | .movi dd imm => some (fun s => s.plain e (fun c => c.setDzn dd (imm : Int)))
    | _ => none)

def execSincos (e : Fin 12) (fetch : Ecc) (s : State) : Host.Outcome State Fault Refusal :=
  .next (s.issue e fetch fun i => match i with
    | .sincos dd ds dt => some (fun s => s.plain e (fun c => (c.setD dd (cosQ (c.dU dt))).setD ds (sinQ (c.dU dt))))
    | _ => none)

/-- TBL reads user table t (R221). -/
def State.tbl (s : State) (e : Nat) (dd ds : Fin 16) (t : Nat) (data : List Ecc) : State :=
  let base := s.f (F.ENG_TBL_base e t) * 2
  let k := s.f (F.ENG_TBL_k e t)
  let u := if s.fb (F.ENG_TBL_uns e t) then (s.eng e).ctx.dU ds else (s.eng e).ctx.dU ds ^^^ 0x8000
  let i := u / 2 ^ (16 - k)
  let f : Nat := u % 2 ^ (16 - k)
  if base + 2 * (2 ^ k + 1) > dmSize then s.engFault e 2
  else s.dmUse e (base + 2 * i) 4 2 data (fun s =>
    let y0 := s.dm16 e (base + 2 * i)
    let y1 := s.dm16 e (base + 2 * i + 2)
    s.plain e (fun c => c.setD dd (y0 + ((y1 - y0) * (f : Int) + 2 ^ (15 - k)) / 2 ^ (16 - k))))

def execTbl (e : Fin 12) (fetch : Ecc) (data : List Ecc) (s : State) : Host.Outcome State Fault Refusal :=
  .next (s.issue e fetch fun i => match i with
    | .tbl dd ds t => some (fun s => s.tbl e dd ds t data)
    | _ => none)

/-! ### Address registers -/

def execXli (e : Fin 12) (fetch : Ecc) (s : State) : Host.Outcome State Fault Refusal :=
  .next (s.issue e fetch fun i => match i with
    | .xli x imm => some (fun s => s.plain e (fun c => c.setX x (imm : Int)))
    | _ => none)

def execXlh (e : Fin 12) (fetch : Ecc) (s : State) : Host.Outcome State Fault Refusal :=
  .next (s.issue e fetch fun i => match i with
    | .xlh x imm => some (fun s => s.plain e (fun c => c.setX x ((c.xU x % 2 ^ 16 + imm % 2 ^ 10 * 2 ^ 16 : Nat) : Int)))
    | _ => none)

def execXadd (e : Fin 12) (fetch : Ecc) (s : State) : Host.Outcome State Fault Refusal :=
  .next (s.issue e fetch fun i => match i with
    | .xadd x imm => some (fun s => s.plain e (fun c => c.setX x ((c.xU x : Int) + imm)))
    | _ => none)

def execXaddd (e : Fin 12) (fetch : Ecc) (s : State) : Host.Outcome State Fault Refusal :=
  .next (s.issue e fetch fun i => match i with
    | .xaddd x ds sc => some (fun s => s.plain e (fun c => c.setX x ((c.xU x : Int) + c.dS ds * 2 ^ sc)))
    | _ => none)

/-! ### Loads and stores (R206, R223) -/

def execLd (e : Fin 12) (fetch : Ecc) (data : List Ecc) (s : State) : Host.Outcome State Fault Refusal :=
  .next (s.issue e fetch fun i => match i with
    | .ld d m => some (fun s => s.memUse e m (fun a c => s.dmUse e a 2 2 data (fun s =>
        (s.retire e (c.setD d (s.dm16 e a)).alu).noteRead e (some a) (.d d))))
    | _ => none)

def execSt (e : Fin 12) (fetch : Ecc) (s : State) : Host.Outcome State Fault Refusal :=
  .next (s.issue e fetch fun i => match i with
    | .st d m => some (fun s => s.memUse e m (fun a c => s.dmUse e a 2 2 [] (fun s =>
        (s.dmStore e a (leBytes 2 (c.dU d))).retire e c.alu)))
    | _ => none)

def execLdac (e : Fin 12) (fetch : Ecc) (data : List Ecc) (s : State) : Host.Outcome State Fault Refusal :=
  .next (s.issue e fetch fun i => match i with
    | .ldac r m => some (fun s => s.memUse e m (fun a c => s.dmUse e a 8 8 data (fun s =>
        (s.retire e (c.putA r (s.dmRead e a 8 : Nat)).alu).noteRead e (some a) (.a r))))
    | _ => none)

def execStac (e : Fin 12) (fetch : Ecc) (s : State) : Host.Outcome State Fault Refusal :=
  .next (s.issue e fetch fun i => match i with
    | .stac r m => some (fun s => s.memUse e m (fun a c => s.dmUse e a 8 8 [] (fun s =>
        (s.dmStore e a (leBytes 8 (twos 64 (c.aS r)))).retire e c.alu)))
    | _ => none)

/-- A granary load is issued: the engine waits for LDG_RETURN. -/
def execLdg (e : Fin 12) (fetch : Ecc) (s : State) : Host.Outcome State Fault Refusal :=
  .next (s.issue e fetch fun i => match i with
    | .ldg d m => some (fun s => s.memUse e m (fun a c =>
        if a % 2 ≠ 0 then s.engFault e 3
        else s.modEng e (fun x => { x with ldg := some { dest := d, addr := a, xp := m.xp, xval := c.x.get m.xp } })))
    | _ => none)

/-- Granary bytes as an engine sees them: its own posted stores first (R223, own order). -/
def State.engGrnByte (s : State) (e a : Nat) : Byte :=
  (s.eng e).wbuf.foldl (fun b w => if w.1 ≤ a ∧ a < w.1 + w.2.length then w.2.getD (a - w.1) b else b) (s.grnByte a)

/-- The data of a granary load returns. -/
def execLdgReturn (e : Fin 12) (ecc : Ecc) (s : State) : Host.Outcome State Fault Refusal :=
  if s.live && s.engState e == engRunning then
    match (s.eng e).ldg with
    | none => .next s
    | some w =>
      let r := s.grnWait.grnCheck (reqEngine e) w.addr 2 [ecc]
      let s := r.2.modEng e (fun x => { x with ldg := none })
      if r.1 then .next (s.engFault e 4)
      else
        let v := (s.engGrnByte e w.addr).toNat + (s.engGrnByte e (w.addr + 1)).toNat * 256
        let c := (s.eng e).ctx
        .next (s.retire e (({ c with x := c.x.set w.xp w.xval }).setD w.dest (v : Int)).alu)
  else .next s

/-- Entries of the posted write buffer (R223). -/
def wbufSize : Nat := 8

/-- A store is posted: the engine stalls while the buffer is full. -/
def State.post (s : State) (e a : Nat) (bs : List Byte) (k : State → State) : State :=
  if (s.eng e).wbuf.length ≥ wbufSize then s
  else k (s.modEng e (fun x => { x with wbuf := x.wbuf ++ [(a, bs)] }))

def execStg (e : Fin 12) (fetch : Ecc) (s : State) : Host.Outcome State Fault Refusal :=
  .next (s.issue e fetch fun i => match i with
    | .stg d m => some (fun s => s.memUse e m (fun a c =>
        if a % 2 ≠ 0 then s.engFault e 3 else s.post e a (leBytes 2 (c.dU d)) (fun s => s.retire e c.alu)))
    | _ => none)

/-- The oldest posted store reaches the granary; with none, the oldest trace record of the engine does (R259). -/
def execWriteBufferDrain (e : Fin 12) (s : State) : Host.Outcome State Fault Refusal :=
  match (s.eng e).wbuf with
  | [] => .next (if s.live then s.traceDrain e else s)
  | w :: rest => .next (if s.live then (s.modEng e (fun x => { x with wbuf := rest })).grnWait.grnWriteA w.1 w.2 else s)

/-! ### Control flow (R216, R218, R219) -/

def execBr (e : Fin 12) (fetch : Ecc) (s : State) : Host.Outcome State Fault Refusal :=
  .next (s.issue e fetch fun i => match i with
    | .br cond off => some (fun s => s.jump e (fun c =>
        if c.fl.cond cond then c.branch (c.pc + BitVec.ofInt 14 off) else c.fall))
    | _ => none)

def execJmp (e : Fin 12) (fetch : Ecc) (s : State) : Host.Outcome State Fault Refusal :=
  .next (s.issue e fetch fun i => match i with
    | .jmp t => some (fun s => s.jump e (fun c => c.branch t))
    | _ => none)

/-- Entries of the call stack (R204). -/
def stackSize : Nat := 8

/-- CALL and RET are taken branches as JMP is: at the end of a loop's body the loop test is left out and the count stays (log entry 125). -/
def execCall (e : Fin 12) (fetch : Ecc) (s : State) : Host.Outcome State Fault Refusal :=
  .next (s.issue e fetch fun i => match i with
    | .call t => some (fun s =>
        if (s.eng e).ctx.stack.length ≥ stackSize then s.engFault e 6
        else s.jump e (fun c => { c with stack := c.stack ++ [c.pc + 1], pc := t }))
    | _ => none)

def execRet (e : Fin 12) (fetch : Ecc) (s : State) : Host.Outcome State Fault Refusal :=
  .next (s.issue e fetch fun i => match i with
    | .ret => some (fun s => match (s.eng e).ctx.stack.getLast? with
        | none => s.engFault e 6
        | some t => s.jump e (fun c => { c with stack := c.stack.dropLast, pc := t }))
    | _ => none)

def execLoop (e : Fin 12) (fetch : Ecc) (s : State) : Host.Outcome State Fault Refusal :=
  .next (s.issue e fetch fun i => match i with
    | .loop n r ds count len => some (fun s =>
        if ((s.eng e).ctx.lc n).active then s.engFault e 7
        else s.jump e (fun c => c.loopSet n (if r then c.dU ds else count) len))
    | _ => none)

/-! ### Scheduler instructions (R249, R251, R243) -/

/-- A running instance ends (R249); the FATAL task's end is reported (R257). -/
def State.yieldTask (s : State) (e : Nat) : State :=
  let s := s.catchUp
  match s.engTc e with
  | none => s
  | some tc =>
    let pc := (s.eng e).ctx.pc.toNat
    if s.ctl.fatal && tc == 0 then
      let s := (s.freeEngine e engHalted).dropInstance tc tcStopped
      ((s.trace 3 tc pc 0).setF F.SCH_FATAL_fatal_state 3).raise .fatalDone 0 0 0
    else
      let s := (s.freeEngine e engIdle).dropInstance tc (if s.fb (F.SCH_TC_CFG_en tc) then tcDormant else tcDisabled)
      (s.trace 3 tc pc 0).plans

/-- YIELD waits until the write buffer is empty (R223). -/
def execYield (e : Fin 12) (fetch : Ecc) (s : State) : Host.Outcome State Fault Refusal :=
  .next (s.issue e fetch fun i => match i with
    | .yield => some (fun s => if (s.eng e).wbuf.isEmpty then s.yieldTask e else s)
    | _ => none)

/-- A running instance waits for an event, its context saved past the WAIT; an event of this very cycle ends the wait (R251). -/
def State.waitTask (s : State) (e evt : Nat) : State :=
  let s := s.catchUp
  match s.engTc e with
  | none => s
  | some tc =>
    let c := (s.eng e).ctx.fall
    let s := (s.freeEngine e engIdle).setTcState tc tcWaiting
    let s := s.modTask tc (fun t => { t with saved := some c, waitEvt := evt })
    (s.trace 4 tc evt 0).plans

def execWait (e : Fin 12) (fetch : Ecc) (s : State) : Host.Outcome State Fault Refusal :=
  .next (s.issue e fetch fun i => match i with
    | .wait evt => some (fun s => s.waitTask e evt)
    | _ => none)

/-- SIG waits for the write buffer; its event is SIG_EVENT. -/
def execSig (e : Fin 12) (fetch : Ecc) (s : State) : Host.Outcome State Fault Refusal :=
  .next (s.issue e fetch fun i => match i with
    | .sig evt => some (fun s => s.modEng e (fun x => { x with sig := some evt }))
    | _ => none)

/-- The write buffer of an engine with a SIG issued is empty: the event occurs. SIGs of aborted instances come first (R253). -/
def execSigEvent (e : Fin 12) (s : State) : Host.Outcome State Fault Refusal :=
  if s.live && (s.eng e).wbuf.isEmpty then
    match (s.eng e).sigs with
    | evt :: rest => .next ((s.modEng e (fun x => { x with sigs := rest })).occur evt).settle
    | [] =>
      match (s.eng e).sig with
      | none => .next s
      | some evt =>
        if s.engState e == engRunning then
          .next ((s.modEng e (fun x => { x with sig := none, ctx := x.ctx.fall })).occur evt).settle
        else .next s
  else .next s

/-! ### SEND, DMAK and the special registers (R217, R225, R228) -/

/-- Bytes of a record sent to a unit: an arm request, an edge record. -/
def sendBytes (unit : Nat) : Nat := if unit = 0 then 48 else 32

/-- SEND reads a record once the write buffer is empty; ARM_REQUEST or EDGE_RECORD delivers it. -/
def State.send (s : State) (e unit : Nat) (xp : Fin 8) (data : List Ecc) : State :=
  if !(s.eng e).wbuf.isEmpty then s
  else
    let a := (s.eng e).ctx.xU xp
    s.dmUse e a (sendBytes unit) 8 data (fun s =>
      let bs := s.dmBytes e a (sendBytes unit)
      (s.modEng e (fun x => { x with sends := x.sends ++ [(unit, s.cyc, bs)] })).plain e id)

def execSendWinnow (e : Fin 12) (fetch : Ecc) (data : List Ecc) (s : State) : Host.Outcome State Fault Refusal :=
  .next (s.issue e fetch fun i => match i with
    | .send unit xp => if unit = 0 then some (fun s => s.send e 0 xp data) else none
    | _ => none)

def execSendEdgePlanner (e : Fin 12) (fetch : Ecc) (data : List Ecc) (s : State) : Host.Outcome State Fault Refusal :=
  .next (s.issue e fetch fun i => match i with
    | .send unit xp => if unit = 1 then some (fun s => s.send e 1 xp data) else none
    | _ => none)

def execDmak (e : Fin 12) (fetch : Ecc) (s : State) : Host.Outcome State Fault Refusal :=
  .next (s.issue e fetch fun i => match i with
    | .dmak ch => some (fun s => (s.dmak e ch).plain e id)
    | _ => none)

/-- What MVS reads from a special register (R217). -/
def State.specRead (s : State) (e spec : Nat) : Nat :=
  let c := (s.eng e).ctx
  if spec = 0 then c.fl.word
  else if spec = 1 then c.lc0.count
  else if spec = 2 then c.lc1.count
  else if spec = 3 then s.periodNum % 2 ^ 16
  else if spec = 4 then s.periodNum / 2 ^ 16
  else if spec = 5 then s.f (F.ENG_COEF_GEN_gen e)
  else if spec = 6 then s.f (F.ENG_TASK_tc e)
  else if spec = 7 then min 0xFFFF ((s.now.ns - s.pN) / 5)
  else if spec < 0x10 then c.xU (Fin.ofNat 8 spec) % 2 ^ 16
  else if spec < 0x18 then c.xU (Fin.ofNat 8 spec) / 2 ^ 16
  else if spec = 0x18 then c.cb6.toNat
  else if spec = 0x19 then c.cl6.toNat
  else if spec = 0x1A then c.cb7.toNat
  else if spec = 0x1B then c.cl7.toNat
  else if spec = 0x1C then s.f (F.ENG_INJ_STAT_sample e)
  else e

def execMvs (e : Fin 12) (fetch : Ecc) (s : State) : Host.Outcome State Fault Refusal :=
  .next (s.issue e fetch fun i => match i with
    | .mvs d spec => some (fun s =>
        let t := s.plain e (fun c => c.setD d (s.specRead e spec : Int))
        if spec = 5 then t.noteRead e none (.d d) else t)
    | _ => none)

def execMsv (e : Fin 12) (fetch : Ecc) (s : State) : Host.Outcome State Fault Refusal :=
  .next (s.issue e fetch fun i => match i with
    | .msv d spec => some (fun s => s.plain e (fun c => c.setSpec spec (c.dU d)))
    | _ => none)

/-! ### Injection, capture and traps (R229, R237, R238) -/

def execInj (e : Fin 12) (fetch : Ecc) (s : State) : Host.Outcome State Fault Refusal :=
  .next (s.issue e fetch fun i => match i with
    | .inj dd node => some (fun s =>
        if s.fb (F.ENG_INJ_STAT_running e) ∧ (s.eng e).inj.node = node then
          s.arith e (fun c => c.setSat16 dd (c.dS dd + sx 16 (s.f (F.ENG_INJ_STAT_sample e))))
        else s.plain e id)
    | _ => none)

/-- CAP stores an entry and moves the index on; a full ring without wrap takes no more (R238). -/
def State.capture8 (s : State) (e ch : Nat) (v : Nat) : State :=
  if !s.fb (F.ENG_CAP_CTL_cap_en e) || (s.eng e).capStop then s.plain e id
  else
    let idx := s.f (F.ENG_CAP_IDX_idx e)
    let entry := leBytes 2 s.periodNum ++ leBytes 1 ch ++ leBytes 1 e ++ leBytes 2 v ++ leBytes 2 (s.f (F.ENG_INJ_STAT_sample e))
    s.post e (s.f (F.ENG_CAP_BASE_base e) * 8 + idx * 8) entry (fun s =>
      let s :=
        if idx + 1 < 2 ^ s.f (F.ENG_CAP_CTL_log2_len e) then s.setF (F.ENG_CAP_IDX_idx e) (idx + 1)
        else if s.fb (F.ENG_CAP_CTL_wrap e) then s.setF (F.ENG_CAP_IDX_idx e) 0
        else
          ((s.setF (F.ENG_CAP_IDX_idx e) (idx + 1)).mark (F.ENG_CAP_IDX_full e)).modEng e
            (fun x => { x with capStop := true })
      s.plain e id)

def execCap (e : Fin 12) (fetch : Ecc) (s : State) : Host.Outcome State Fault Refusal :=
  .next (s.issue e fetch fun i => match i with
    | .cap ds ch => some (fun s => s.capture8 e ch ((s.eng e).ctx.dU ds))
    | _ => none)

def execTrap (e : Fin 12) (fetch : Ecc) (s : State) : Host.Outcome State Fault Refusal :=
  .next (s.issue e fetch fun i => match i with
    | .trap code => some (fun s =>
        (s.raiseFrom .engTrap (engSource e) e code (s.eng e).ctx.pc.toNat).plain e id)
    | _ => none)

def execTrapFault (e : Fin 12) (fetch : Ecc) (s : State) : Host.Outcome State Fault Refusal :=
  .next (s.issue e fetch fun i => match i with
    | .trapFault _ => some (fun s => s.engFault e 8)
    | _ => none)

end Sys2Proof.Machine
end

