-- ==== Sys2Proof/Machine/GatherRows.lean ====
section
/-! DEFINITION. The first part of a period: GATHER and TIME launches, the frames that come back, GATHER_DONE, availability and
charge (R26 to R28, R56, R57, R82, R93, R103, R109, R110, R141, R142, R153, R154, R187, R447, R448); and the rows of a receiver that
may take a lane down (R112, R113, R120, R128, R129). -/

namespace Sys2Proof.Machine

/-! ### Launches (R26, R93) -/

/-- The period sequencer runs and a boundary has been released. -/
def State.inPeriod (s : State) : Bool := s.live && s.seq.running && s.seq.started

/-- The GATHER frames leave at P_n + 100 ns. -/
def execGatherLaunch (s : State) : Host.Outcome State Fault Refusal :=
  if s.inPeriod && !s.seq.launched then
    let s := s.advanceTo (s.pN + 100)
    let s := s.flushSets
    let s := s.forEach (s.lanesInUse.filter s.laneSends) (fun s l =>
      let fs := s.gatherFrames l s.periodFull
      let t := (s.putFrames l fs).2.modLane l (fun x => { x with gather := fs, gatherSent := true })
      if s.laneSplit l then t.modLane (partnerLane l) (fun x => { x with gatherSent := true }) else t)
    .next { s with seq := { s.seq with launched := true } }
  else .next s

/-- The instant at which the lane's transmitter is free of what it sends, in eighths of a nanosecond (1.6 ns to a cycle). -/
def State.txFree8 (s : State) (l : Nat) : Nat :=
  s.now.ns * 8 + s.now.frac / 2 ^ 29 + ceilDiv (((s.lane l).tx.free - s.cyc) * 128) 10

/-- The TIME set of a lane (R93): at the first block boundary at or after P_n + 20 ns at which no frame is being sent, and with two block
times to go before the GATHER launch (R115). Where the block boundaries lie is not given, so the wait for one is a free value below
6.4 ns (log entry 3); the set carries the boundary itself, the fixed transmit latency t_tx left out (log entry 95). -/
def State.timeSet (s : State) (l : Nat) : State :=
  let fv := s.free
  let s := fv.2
  let at8 := max ((s.pN + 20) * 8) (s.txFree8 l) + fv.1 % 52
  if at8 * 10 + 1024 > (s.pN + 100) * 80 then s
  else
    let d := mkSet 1 (timePayload (at8 / 8) (at8 % 8))
    s.modLane l (fun x => { x with sets := [d], tx := x.tx.put s.cyc 1 false })

/-- The TIME sets leave on every lane in use, one in training too, once in a period. -/
def execTimeSetLaunch (s : State) : Host.Outcome State Fault Refusal :=
  if s.inPeriod && !s.seq.timed then
    let s := (s.advanceTo (s.pN + 20)).flushSets
    let s := s.forEach (s.lanesInUse.filter s.laneCoded) State.timeSet
    .next { s with seq := { s.seq with timed := true } }
  else .next s

/-! ### The gather area (R447, R448) -/

def State.gatherBase (s : State) : Nat := s.f F.GRN_GATHER_base * 65536
def State.headerAddr (s : State) (n : Nat) : Nat := s.gatherBase + 0xD800 + n % 2 * 0x200

/-- The period header begins with its number and no lane. -/
def State.headerBegin (s : State) (n : Nat) : State := s.grnWrite (s.headerAddr n) (leBytes 4 n ++ List.replicate 508 0)

/-- Slots and bale of a lane as received. -/
def State.storeGather (s : State) (l : Nat) (slots : List Nat) (bale : List Byte) : State :=
  let half := s.periodFull % 2
  (s.grnWrite (s.gatherBase + half * 0x6000 + l * 0x200) ((slots.take 64).flatMap (leBytes 8))).grnWrite
    (s.gatherBase + 0xC000 + half * 0xC00 + l * 0x40) bale

/-- The valid slots of a second copy are stored in their places. -/
def State.storeSlots (s : State) (l : Nat) (slots : List (Nat × Nat)) : State :=
  slots.foldl (fun s p => s.grnWrite (s.gatherBase + s.periodFull % 2 * 0x6000 + l * 0x200 + p.1 * 8) (leBytes 8 p.2)) s

/-- A bit of a 64-bit mask of the header is set. -/
def State.headerBit (s : State) (off l : Nat) : State :=
  let a := s.headerAddr s.periodFull + off
  s.grnWrite a (leBytes 8 (setBits (s.grnNat a 8) l l 1))

/-! ### A frame as received (R68, R73, R75, R82) -/

/-- The frame passes its CRC-32C and holds no invalid block. -/
def gatherWhole (f : RxFrame) (h : Nat) : Bool :=
  f.badBlocks == 0 && f.slots.length == h && f.bale.length == 64
    && f.crc.toNat == frameCrc f.tag f.time.toNat (f.slots.map BitVec.toNat) f.bale

/-- The tag is that of the lane's GATHER frame of the period. -/
def State.gatherMine (s : State) (l : Nat) (f : RxFrame) : Bool :=
  fieldAt f.tag 0 1 == 0x13 && fieldAt f.tag 2 2 == s.periodFull % 65536 && fieldAt f.tag 4 1 == l
    && fieldAt f.tag 5 1 == s.laneCount l

/-- The slot that writes the bale of period n on a lane of h cells. -/
def baleWriter (n h : Nat) : Nat := n % 65536 % h

/-- The bale is kept. -/
def baleKept (n h : Nat) (b : List Byte) : Bool :=
  decide (0 < h) && crc32c (b.take 60) == fieldAt b 60 4 && fieldAt b 1 1 == baleWriter n h

/-! ### Capability records (R84, R104, R170) -/

/-- A found cell's record is compatible (R104). -/
def State.recordOk (s : State) (l : Nat) (b : List Byte) : Bool :=
  let ports := fieldAt b 14 1
  fieldAt b 12 1 == 3 && bitOf ports s.side && (!s.paired || (bitOf ports 0 && bitOf ports 1))
    && (!s.isChain l || bitOf ports 2) && decide (fieldAt b 24 2 ≤ 192) && decide (fieldAt b 26 2 ≤ 100)
    && decide (fieldAt b 20 2 ≤ s.f F.NCL_CELL_LIMIT_max_min_insert)
    && decide (fieldAt b 22 2 ≤ s.f F.NCL_CELL_LIMIT_max_min_bypass) && decide (1 ≤ fieldAt b 28 4)

/-- The first capability record that a cell delivers in a discovery. -/
def State.takeRecord (s : State) (l c : Nat) (b : List Byte) : State :=
  let step := s.f (F.NCL_LSTAT_disc_step l)
  if s.mode == .muster && fieldAt b 0 1 == 2 && decide (2 ≤ step) && decide (step < 5) && (s.cell c).found
      && (s.cell c).record.isNone then
    let ok := s.recordOk l b
    let s := s.modCell c (fun x => { x with record := some {
      full := fieldAt b 13 1 == 2, chainCapable := bitOf (fieldAt b 14 1) 2, minInsert := fieldAt b 20 2,
      minBypass := fieldAt b 22 2, residence := fieldAt b 24 2, cNom := fieldAt b 28 4, echoDelta := sx 32 (fieldAt b 34 4),
      compatible := ok } })
    if ok then s.initTally c (fieldAt b 28 4) else s
  else s

/-! ### Slots (R79, R109, R110, R141, R142) -/

/-- The samples of the period before are put aside as the first ones of this period come. -/
def State.turnSamples (s : State) : State :=
  if s.seq.turned then s
  else
    { s.forEach s.allCells (fun s c => s.modCell c (fun x => { x with
        vcapPrev := x.vcap, freshPrev := x.fresh, calmPrev := !(stRefused x || stHolding x || stDual x), fresh := false }))
      with seq := { s.seq with turned := true } }

/-- A status bit that is reported once, until it has read 0 (R110). -/
def State.onceCell (s : State) (c : Nat) (now seen : Bool) (code : EvCode) (mark : Bool → Cell → Cell) : State :=
  let s := if now && !seen then s.raise code c 0 0 else s
  s.modCell c (mark (now || seen))

/-- A valid slot is evaluated. -/
def State.takeSlot (s : State) (l c w : Nat) : State :=
  let st := bitsOf w 27 16
  let s := if bitsOf w 55 50 ≠ (s.periodFull + 63) % 64 then s.mark (F.NCL_LSTAT_seq_err l) else s
  let s := s.onceCell c (bitOf st 5) ((s.cell c).dualSeen && bitOf st 5) .dualActive (fun b x => { x with dualSeen := b })
  let s := s.onceCell c (bitOf st 4 && (s.lane l).activePrev) ((s.cell c).holdSeen && bitOf st 4) .cellHolding
    (fun b x => { x with holdSeen := b })
  let s := if s.f (F.NCL_LSTAT_disc_step l) = 4 then s.modCell c (fun x => { x with timeOk := bitOf st 1 }) else s
  if bitOf st 0 then s
  else s.modCell c (fun x => { x with
    vcap := bitsOf w 15 0, status := st, temp := bitsOf w 35 28, sampled := true, fresh := true, obeyed := x.obeyed || !bitOf st 4 })

/-- The valid slots of a frame, as (slot, word). -/
def validSlots (f : RxFrame) : List (Nat × Nat) :=
  (f.slots.zipIdx.map (fun p => (p.2, p.1.toNat))).filter (fun p => slotValid f.tag f.time.toNat p.2 p.1)

/-- The mask of slots. -/
def slotMask (xs : List (Nat × Nat)) : Nat := (xs.map (fun p => 2 ^ p.1)).sum

/-- The valid slots that an on-time copy brings are evaluated. -/
def State.takeSlots (s : State) (l : Nat) (xs : List (Nat × Nat)) : State :=
  xs.foldl (fun s p => s.takeSlot l (l * 64 + p.1) p.2) s

/-- A valid slot of the frame reports energised (R57). -/
def frameEnergised (f : RxFrame) : Bool :=
  f.slots.zipIdx.any (fun p => slotValid f.tag f.time.toNat p.1.toNat p.2 && bitOf p.1.toNat 27)

/-! ### GATHER_DONE (R28) -/

/-- The over-current tally of a cell whose fresh sample reports oc_trip (R187), after the codes of the period are fixed: retire takes
effect at the next GATHER_DONE. -/
def State.ocTally (s : State) (c : Nat) : State :=
  if (s.cell c).fresh && stOcTrip (s.cell c) then
    let old := s.f (F.EDG_CELL_OC_tally c)
    let s := s.setF (F.EDG_CELL_OC_tally c) (satInc old 255)
    let k := s.f (F.EDG_CELL_OC_tally c)
    let limit := s.f F.EDG_OC_CFG_oc_limit
    if k ≥ limit ∧ (old < limit ∨ !s.fb (F.EDG_CELL_OC_latched c)) then
      ((s.setF (F.WIN_CELL_STAT_retire c) 1).setF (F.EDG_CELL_OC_latched c) 1).raise .ocLatch c 0 k
    else s
  else s

/-- Every found cell of a lane has time_ok: its discovery ends without the rest of the wait (R103, step 5). -/
def State.timeOkAll (s : State) (l : Nat) : Bool :=
  s.mode == .muster && s.laneState l == laneUp && s.f (F.NCL_LSTAT_disc_step l) == 4
    && (s.laneCells l).all (fun c => !(s.cell c).found || (s.cell c).timeOk)

/-- Time since P_n in 5 ns steps, rounded up. -/
def State.stepsNow (s : State) : Nat := min 0xFFFF (ceilDiv (s.nowUnits - s.pN * 2 ^ 32) (5 * 2 ^ 32))

/-- The enabled arms below N_required at this GATHER_DONE, as the status port shows them until the next (R429). -/
def State.espArmsTake (s : State) : State :=
  { s with tim := { s.tim with
      espArms := ((upto 12).filter (fun a => s.armEnabled a && s.armLow a)).foldl (fun acc a => acc + 2 ^ a) 0 } }

/-- GATHER_DONE: codes are fixed, units start, telemetry begins, and the control-law tasks are released. -/
def State.gatherDone (s : State) : State :=
  let s := s.turnSamples
  let s := { s with seq := { s.seq with gatherDone := true, gatherCyc := s.cyc, gatherAt := some s.stepsNow } }
  let s := s.joinAdopt.fixCodes.espArmsTake
  let s := s.forEach s.allCells State.ocTally
  let s := s.forEach s.lanesInUse (fun s l => if s.timeOkAll l then s.finishDiscovery l else s.discoveryPeriod l)
  let s := s.clearSelections.winnowStart.telStart
  s.occur 0x01

/-- GATHER_DONE comes once every awaited lane has delivered an on-time frame. -/
def State.gatherCheck (s : State) : State :=
  let awaited := s.lanesInUse.filter s.laneAwaited
  if s.inPeriod && !s.seq.gatherDone && !awaited.isEmpty && awaited.all (fun l => (s.lane l).gatherOk) then s.gatherDone else s

/-! ### Frames (R27) -/

/-- A frame of the lane is late or failed, and is reported once in a period. -/
def State.gatherMissed (s : State) (l : Nat) : State :=
  if (s.lane l).gatherOk || (s.lane l).gatherLate then s else s.gatherLate l

/-- The mask of valid slots in the header of the period. -/
def State.gatherMask (s : State) (l : Nat) : Nat := s.grnNat (s.headerAddr s.periodFull + 64 + l * 8) 8

/-- The slots of a lane's frame that no on-time copy brought valid are counted (R109; split mode: log entry 109). -/
def State.countInvalid (s : State) (l : Nat) : State :=
  let m := s.gatherMask l
  s.bumpF (F.NCL_ERRCNT_slot_crc_err l) ((upto (s.laneCount l)).filter (fun k => !bitOf m k)).length

/-- An on-time copy of the lane's frame has come whole. -/
def Lane.copyGood (x : Lane) : Bool := x.gatherOwn || x.gatherOther

/-- Every copy of a lane's frame that the period awaits has come, whole or failed: one, or in split mode one from either end (R95). -/
def State.copiesIn (s : State) (l : Nat) : Bool :=
  let x := s.lane l
  let own := x.gatherOwn || x.failOwn
  let other := x.gatherOther || x.failOther
  if s.laneSplit l && s.laneAwaited (partnerLane l) then own && other else own || other

/-- What no on-time copy of a lane's frame brought is counted, a bale that none brought too (R82, R109). -/
def State.gatherTally (s : State) (l : Nat) : State :=
  let s := s.countInvalid l
  if s.laneCount l = 0 ∨ bitOf (s.grnNat (s.headerAddr s.periodFull + 16) 8) l then s else s.mark (F.NCL_LSTAT_bale_err l)

/-- The copies of a lane's frame are complete. -/
def State.gatherComplete (s : State) (l : Nat) : State :=
  ((s.modLane l (fun x => { x with gatherOk := true })).headerBit 8 l).gatherTally l

/-- A copy of a lane's frame on RX `rx` has failed: with no copy to come, the lane is complete where another was whole, and else its
frame has failed (R27). -/
def State.copyFailed (s : State) (l rx : Nat) : State :=
  let s := s.modLane l (fun x => { x with failOwn := x.failOwn || rx == l, failOther := x.failOther || rx != l })
  if !s.copiesIn l then s
  else if (s.lane l).copyGood then (s.gatherComplete l).gatherCheck
  else s.gatherMissed l

/-- An on-time valid copy, received on RX `rx`: the first is stored whole, of a second one the slots that the first did not bring. -/
def State.gatherGood (s : State) (l rx : Nat) (f : RxFrame) : State :=
  let n := s.periodFull
  let h := s.laneCount l
  let first := !(s.lane l).copyGood
  let had := if first then 0 else s.gatherMask l
  let new := (validSlots f).filter (fun p => !bitOf had p.1)
  let s := if first then s.storeGather l (f.slots.map BitVec.toNat) f.bale else s.storeSlots l new
  let s := s.turnSamples.modLane l (fun x => { x with gatherOwn := x.gatherOwn || rx == l, gatherOther := x.gatherOther || rx != l })
  let s := if baleKept n h f.bale then
      ((if first then s else s.grnWrite (s.gatherBase + 0xC000 + n % 2 * 0xC00 + l * 0x40) f.bale).headerBit 16 l).takeRecord l
        (l * 64 + baleWriter n h) f.bale
    else s
  let s := s.takeSlots l new
  let s := s.grnWrite (s.headerAddr n + 64 + l * 8) (leBytes 8 (had + slotMask new))
  let s := if s.copiesIn l then s.gatherComplete l else s
  let s := if frameEnergised f then s.blockWith .diagnostic 0x0C else s
  s.gatherCheck

/-- A frame of lane l may come back on RX `rx`: a ring's own, either RX of a chain (R94 to R96). -/
def State.gatherRx (s : State) (l rx : Nat) : Bool := rx == l || (s.isChain l && rx == partnerLane l)

/-- This copy of the lane's frame has come already, or the lane's frames are complete. -/
def State.gatherHad (s : State) (l rx : Nat) : Bool :=
  let x := s.lane l
  x.gatherOk || (if rx = l then x.gatherOwn || x.failOwn else x.gatherOther || x.failOther)

/-- Slots and bale as decoded stand in the gather area (R447): of a frame that is discarded too, unless a copy on time stands there. -/
def State.storeDiscarded (s : State) (l : Nat) (f : RxFrame) : State :=
  if (s.lane l).copyGood then s else s.storeGather l (f.slots.map BitVec.toNat) (f.bale.take 64)

/-- The last block of a copy of lane l's GATHER frame is decoded on the receiver `f.rx` at `t` ns. -/
def execGatherFrame (l : Fin 48) (f : RxFrame) (t : Nat) (s : State) : Host.Outcome State Fault Refusal :=
  let rx := f.rx
  if s.inPeriod && s.laneAwaited l && s.gatherRx l rx && s.rxDelivers rx then
    let s := s.advanceTo t
    let s := s.bumpF (F.LPHY_ERRCNT_bad_block rx) f.badBlocks
    let deadline := s.pN + s.f F.GLB_GATHER_DEADLINE_deadline_steps * 5
    if !gatherWhole f (s.laneCount l) then
      let s := (s.bumpF (F.NCL_ERRCNT_frame_crc_err l) 1).modLane l (fun x => { x with gatherSeen := true })
      .next (if s.gatherHad l rx then s else (s.storeDiscarded l f).copyFailed l rx).settle
    else if !s.gatherMine l f || s.gatherHad l rx then .next s
    else if deadline < t ∨ (s.lane l).gatherLate = true then .next ((s.storeDiscarded l f).gatherMissed l)
    else .next (s.gatherGood l rx f).settle
  else .next s

/-- P_n + GATHER_DEADLINE passes; bit l of `started` tells whether a start block of lane l's frame has been received (R27, R128). -/
def execGatherDeadline (started : BitVec 48) (s : State) : Host.Outcome State Fault Refusal :=
  if s.inPeriod && !s.seq.deadlinePassed then
    let s := s.advanceTo (s.pN + s.f F.GLB_GATHER_DEADLINE_deadline_steps * 5)
    let s := { s with seq := { s.seq with deadlinePassed := true } }
    let awaited := s.lanesInUse.filter s.laneAwaited
    let s := s.forEach (awaited.filter (fun l => !(s.lane l).gatherOk && (s.lane l).copyGood)) State.gatherTally
    let s := s.forEach awaited State.gatherMissed
    let s := s.forEach awaited (fun s l =>
      let seen := (s.lane l).gatherOk || (s.lane l).copyGood || (s.lane l).gatherSeen
        || (bitOf started.toNat l && (upto 48).any (fun rx => s.gatherRx l rx && s.rxDelivers rx))
      let s := s.modLane l (fun x => { x with missRun := if seen then 0 else min 2 (x.missRun + 1) })
      if (s.lane l).missRun ≥ 2 ∧ s.mode.laneDownMode then s.takeDown l 1 else s)
    let s := s.telLate
    .next (if s.seq.gatherDone then s else s.gatherDone)
  else .next s

/-! ### Receivers (R112, R113, R120, R128, R129) -/

/-- The mirror frame that is being received fails with its lane's block lock (R113): an INPUT frame is discarded (R352). -/
def State.mirrorBroken (s : State) : State :=
  if s.paired && !s.holder && s.bonded && s.seq.running && !s.pair.inputBad && s.pair.input.isNone then s.mirLate else s

/-- The slots of a frame cut short that have been decoded stand in the gather area (R447). -/
def State.storeCut (s : State) (l : Nat) (slots : List W64) : State :=
  if (s.lane l).copyGood then s
  else s.grnWrite (s.gatherBase + s.periodFull % 2 * 0x6000 + l * 0x200) ((slots.take 64).flatMap (fun w => leBytes 8 w.toNat))

/-- A receiver without block lock: what it held is gone, and a frame in progress, with its decoded slots `cut`, fails (R113). -/
def State.dropLock (s : State) (l : Nat) (signal : Bool) (cut : Option (List W64)) : State :=
  let s := ((s.noSigTake l).setF (F.LPHY_STAT_block_lock l) 0).setF (F.LPHY_STAT_rx_signal l) (b2n signal)
  let x := s.rxLane l
  match cut with
  | none => s.lockLost l
  | some slots =>
    if 48 ≤ l then s.mirrorBroken.lockLost l
    else
      let s := (s.bumpF (F.NCL_ERRCNT_frame_crc_err x) 1).modLane x (fun x => { x with gatherSeen := true })
      let s := if s.inPeriod && s.laneAwaited x then s.storeCut x slots else s
      let s := s.lockLost l
      if s.inPeriod && s.laneAwaited x && !s.gatherHad x l then s.copyFailed x l else s

/-- Of 64 consecutive blocks, or of the last block times without a signal, `badSync` have an invalid sync header: from 16 on the receiver
loses block lock; one without block lock sees its signal come or go. `inFrame` tells of a GATHER frame, on a mirror lane of an INPUT frame,
in progress, with the slots decoded so far. -/
def execBlockLockLost (l : Fin 50) (badSync : Nat) (signal : Bool) (inFrame : Option (List W64)) (s : State) :
    Host.Outcome State Fault Refusal :=
  let s := s.bumpF (F.LPHY_ERRCNT_bad_sync l) badSync
  if !s.fb (F.LPHY_STAT_block_lock l) then .next (if s.up then s.signalIs l signal 0 else s)
  else if 16 ≤ badSync then .next ((s.dropLock l signal inFrame).gatherCheck).settle
  else .next s

/-- A chain lane has not regained block lock within 5 µs. -/
def execChainRelockTimeout (l : Fin 48) (s : State) : Host.Outcome State Fault Refusal :=
  if (s.lane l).relock && !s.fb (F.LPHY_STAT_block_lock l) && s.laneState l == laneUp then
    .next ((s.advanceCyc ((s.lane l).relockAt + 5 * cycPerUs)).takeDown l 0).gatherCheck.settle
  else .next s

/-- A marker returns; a wrong lane field is a miswire. -/
def execMarkerReceived (l : Fin 48) (x : RxSet) (s : State) : Host.Outcome State Fault Refusal :=
  let lane := bitsOf x.payload.toNat 5 0
  if !setWhole 5 x || !s.rxDelivers l || !s.laneInUse l || lane == l.val || (s.isChain l && lane == partnerLane l) then .next s
  else
    let s := (s.mark (F.LPHY_STAT_miswire l)).raise .laneMiswire l 0 lane
    let s := if (s.lane l).attempt then s.modLane l (fun x => { x with markerFail := true }) else s
    if s.mode.laneDownMode && s.laneState l == laneUp then .next (s.takeDown l 2).gatherCheck.settle else .next s

/-! ### Availability and charge (R56, R153, R154) -/

/-- Every enabled arm has at least N_required available cells, sampled in this period, at or above vc_ready (R56). -/
def State.charged (s : State) : Bool :=
  s.enabledArms.all (fun a =>
    let good := (s.armCells a).filter (fun c => s.cellCode c == 0
      && decide (s.f F.GLB_PRECHARGE_CFG_vc_ready ≤ (s.cell c).vcap))
    decide (s.f (F.GLB_ARM_CFG_n_required a) ≤ good.length))

/-- The precharge condition of one period, in every mode in which the availability is computed (R56). -/
def State.chargePeriod (s : State) : State :=
  if s.charged then { s with ctl := { s.ctl with chargeRun := min 65535 (s.ctl.chargeRun + 1) } }
  else { s with ctl := { s.ctl with chargeRun := 0, chargeOk := false } }

/-- The counts of one arm, and ARM_MARGIN (R153). -/
def State.countArm (s : State) (a : Nat) : State :=
  let s := s.writeCounts a
  if !s.armLow a && decide (s.nAvailable a < s.f (F.GLB_ARM_CFG_n_required a) + s.f (F.WIN_ARM_CFG_warn_margin a)) then
    s.raiseOnce (F.WIN_ARM_FLAGS_margin a) .armMargin a 0 (s.nAvailable a)
  else s

/-- Cells of an arm that are lost with a lane which the holder has yielded: the partner commands them, and they make no trip (R365). -/
def State.yieldedCells (s : State) (a : Nat) : Nat :=
  ((s.armCells a).filter (fun c => s.cellCode c == 1 && (s.lane (c / 64)).yielded)).length

/-- An arm is below N_required for another reason than a yielded lane. -/
def State.armShort (s : State) (a : Nat) : Bool :=
  decide (s.nAvailable a + s.yieldedCells a < s.f (F.GLB_ARM_CFG_n_required a))

/-- The cells of every enabled arm are counted against N_required. -/
def execAvailabilityCheck (s : State) : Host.Outcome State Fault Refusal :=
  if s.inPeriod && s.seq.gatherDone && !s.seq.availDone && s.mode.countsCells then
    let s := { s with seq := { s.seq with availDone := true } }
    let s := s.forEach s.enabledArms State.countArm
    let low := s.enabledArms.filter s.armShort
    let s := (s.setF F.SAF_STAT_arm_low (b2n (!low.isEmpty))).chargePeriod
    match low with
    | a :: _ =>
      if s.mode.controls then
        .next ((s.trip 3 a).forEach low (fun s a => s.raise .armLow a 0 (s.armLowValue a)))
      else .next s
    | [] => .next s
  else .next s

/-- charge_ok is set after vc_hold consecutive periods. -/
def execChargeOk (s : State) : Host.Outcome State Fault Refusal :=
  if s.inPeriod && s.mode.countsCells && decide (s.f F.GLB_PRECHARGE_CFG_vc_hold ≤ s.ctl.chargeRun) then
    .next { s with ctl := { s.ctl with chargeOk := true } }
  else .next s

end Sys2Proof.Machine
end

