-- ==== Sys2Proof/Machine/GrnRows.lean ====
section
/-! DEFINITION. Rows of the granary itself: write-back, initialisation and the patrol scrub (R452, R453). -/

namespace Sys2Proof.Machine

/-- The oldest corrected word of a bank that waits for its write-back is written; its correct content stands already. -/
def execEccWriteback (bank : Fin 32) (s : State) : Host.Outcome State Fault Refusal :=
  match s.eccWb.find? (fun w => grnBank (w * 8) == bank.val) with
  | none => .next s
  | some w => .next { s with eccWb := s.eccWb.erase w }

/-- The granary holds zeros with valid check bits. -/
def execGranaryInitDone (s : State) : Host.Outcome State Fault Refusal :=
  .next (if s.live then s.setF F.GRN_STAT_init_done 1 else s)

/-- The patrol scrub reads its next word, scrub_int microseconds after the one before. -/
def execPatrolScrub (ecc : Ecc) (s : State) : Host.Outcome State Fault Refusal :=
  if s.live && s.fb F.GRN_STAT_init_done && s.f F.GRN_CFG_scrub_int != 0 then
    let s := s.advanceCyc (s.scrubCyc + s.f F.GRN_CFG_scrub_int * cycPerUs)
    let w := s.scrubWord
    .next { (s.grnCheck reqScrub (w * 8) 8 [ecc]).2 with scrubWord := (w + 1) % (grnSize / 8), scrubCyc := s.cyc }
  else .next s

end Sys2Proof.Machine
end

