-- ==== Sys2Proof/Machine/ModeRows.lean ====
section
/-! DEFINITION. Rows of supplies, resets and clocks (R19, R20, R45, R458, R470, R477), of mode requests (R45 to R58), of the boot
(R59 to R65) and of COMMISSION and MUSTER (R51, R54, R55, R332). -/

namespace Sys2Proof.Machine

/-! ### Clocks (R19, R20, R477) -/

/-- The system PLL locks: the first lock since reset enters BOOT; a lock after a clock fault reports it, and in BOOT restarts the
boot. The reference is then present. -/
def execPllLock (s : State) : Host.Outcome State Fault Refusal :=
  if !s.pwr.rails || s.pwr.porstLow || s.pwr.railReset || (s.pwr.pllLocked && !s.pwr.clkFault && s.pwr.refPresent) then .next s
  else
    let first := !s.pwr.pllOnce
    let fault := s.pwr.clkFault
    let s := { s with pwr := { s.pwr with
      refPresent := true, pllLocked := true, pllOnce := true, clkFault := false, upCyc := if s.pwr.pllOnce then s.pwr.upCyc else s.cyc } }
    let s := if first then (s.enterBoot s.pwr.held 0x01).espFreeze else s
    let s := if fault then s.raise .clkFault 0 0 0 else s
    .next (if s.mode == .boot && s.boot.restart then s.bootStart else s).settle

/-- The 25 MHz reference has been absent for 400 ns. -/
def execRefLost (s : State) : Host.Outcome State Fault Refusal :=
  if s.up then
    let s := { s with pwr := { s.pwr with refPresent := false } }
    .next (s.mark F.CLK_PLL_STAT_ref_lost).clockFault
  else .next { s with pwr := { s.pwr with refPresent := false } }

/-- The PLL has lost lock for 400 ns after first locking. -/
def execLockLost (s : State) : Host.Outcome State Fault Refusal :=
  if s.live then
    let s := s.modTim (fun t => { t with espOld := s.espLive })
    let s := { s with pwr := { s.pwr with pllLocked := false } }
    .next (s.mark F.CLK_PLL_STAT_lock_lost).clockFault
  else .next s

/-- A lane reference has been absent for 400 ns: LREF_A, or LREF_B where `x.b` holds. The receivers it serves lose block lock. -/
def execLrefLost (x : RefLoss) (s : State) : Host.Outcome State Fault Refusal :=
  let b := x.b
  let s := { s with pwr := if b then { s.pwr with lrefB := false } else { s.pwr with lrefA := false } }
  if s.up then
    let s := (s.mark (if b then F.CLK_PLL_STAT_lref_b_lost else F.CLK_PLL_STAT_lref_a_lost)).raise .lrefLost (b2n b) 0 0
    .next ((s.forEach (allLanes.filter (fun l => !s.laneClock l && s.fb (F.LPHY_STAT_block_lock l)))
      (fun s l => s.dropLock l true ((x.inFrame.find? (fun p => p.1.val == l)).map Prod.snd))).gatherCheck).settle
  else .next s

/-- A lane reference is back. -/
def execLrefReturn (b : Bool) (s : State) : Host.Outcome State Fault Refusal :=
  .next { s with pwr := if b then { s.pwr with lrefB := true } else { s.pwr with lrefA := true } }

/-! ### Supplies and the reset pin (R45, R59, R458) -/

/-- PORST_N falls: the device is in reset. -/
def execPorstAssert (s : State) : Host.Outcome State Fault Refusal :=
  if s.mode.powered then
    let s := s.coldReset
    .next { s with pwr := { s.pwr with porstLow := true } }
  else .next { s with pwr := { s.pwr with porstLow := true } }

/-- PORST_N rises, with the rails valid, and samples its straps; the PLL has still to lock (R19). -/
def execPorstRelease (bootSel : Fin 4) (pcieBif : Bool) (s : State) : Host.Outcome State Fault Refusal :=
  if s.pwr.porstLow then
    let s := { s with pwr := { s.pwr with porstLow := false, rails := true } }
    .next (s.resetEnd bootSel pcieBif)
  else .next s

/-- A main rail has left its window for 200 ns: as PORST_N asserted, until RAIL_RECOVER. The straps keep their sampled values. -/
def execRailFault (rail : Fin 7) (s : State) : Host.Outcome State Fault Refusal :=
  if s.pwr.rails then
    let sel := s.bootSel
    let pcieBif := s.fb F.HIF_CFG_bif
    let s := s.railsFall
    let s := { s with pwr := { s.pwr with railReset := true, railOut := s.pwr.railOut ||| 2 ^ rail.val } }
    .next (s.resetEnd sel pcieBif)
  else .next s

/-- Every rail has been back for 1 ms: the internal reset ends; a low PORST_N keeps the device in reset. Rails that come back to a DORMANT
device end its reset too, with the straps as last sampled. -/
def execRailRecover (s : State) : Host.Outcome State Fault Refusal :=
  let back := !s.pwr.rails
  let s := { s with pwr := { s.pwr with rails := true, railReset := false, railOut := 0 } }
  .next (if back && s.pwr.vbat then s.resetEnd s.bootSel (s.fb F.HIF_CFG_bif) else s)

/-- A rail leaves its recommended range within the monitor window, or comes back into it. -/
def execRailWarn (x : RailRange) (s : State) : Host.Outcome State Fault Refusal :=
  let bit := 2 ^ x.rail.val
  if !s.up then .next s
  else if x.within then .next (s.setF F.GLB_RAIL_STAT_ok (s.f F.GLB_RAIL_STAT_ok ||| bit))
  else .next ((s.orF F.GLB_RAIL_STAT_warn bit).setF F.GLB_RAIL_STAT_ok (s.f F.GLB_RAIL_STAT_ok &&& (127 - bit)))

/-- The main rails are gone: DORMANT with VBAT, which marks the fault-history word (R334), else OFF with nothing retained. -/
def execMainRailsRemoved (s : State) : Host.Outcome State Fault Refusal :=
  if s.pwr.rails then
    let sel := s.bootSel
    let pcieBif := s.fb F.HIF_CFG_bif
    let s := (s.railsFall.setF F.GLB_BOOT_STAT_boot_sel sel).setF F.HIF_CFG_bif (b2n pcieBif)
    let s := { s with pwr := { s.pwr with rails := false, railReset := false, railOut := 0 }, tim := { s.tim with espHold := none } }
    if s.pwr.vbat then .next { s with mode := .dormant }
    else .next { s with mode := .off, saf := { s.saf with retBytes := [] } }
  else .next s

/-- Rails and VBAT are gone. -/
def execAllPowerRemoved (s : State) : Host.Outcome State Fault Refusal :=
  let s := s.coldReset
  .next { s with mode := .off
                 pwr := { s.pwr with vbat := false, rails := false, porstLow := true, railReset := false, railOut := 0 }
                 tim := { s.tim with espHold := none }
                 saf := { s.saf with retBytes := [] } }

/-- VBAT is applied. -/
def execVbatApplied (s : State) : Host.Outcome State Fault Refusal :=
  let s := { s with pwr := { s.pwr with vbat := true } }
  .next (if s.mode == .off then { s with mode := .dormant } else s)

/-- The junction temperature is measured, 100 µs after the measurement before (R470): `code` in 0.25 °C. -/
def execDieTempMeasure (code : Int) (s : State) : Host.Outcome State Fault Refusal :=
  if s.live then
    let s := s.advanceCyc (s.pwr.tempAt + 100 * cycPerUs)
    let s := { s with pwr := { s.pwr with tempAt := s.cyc } }
    let t := iclamp code (-2048) 2047
    let s := s.setF F.GLB_DIE_TEMP_now (twos 12 t)
    let s := if s.pwr.tempSeen && decide (t < sx 12 (s.f F.GLB_DIE_TEMP_worst)) then s
      else { ((s.setF F.GLB_DIE_TEMP_worst 0).putWorst F.GLB_DIE_TEMP_worst (twos 12 t)) with pwr := { s.pwr with tempSeen := true } }
    let s := if t ≥ 420 then s.mark F.GLB_DIE_TEMP_hot_seen else s
    .next (if t ≥ 460 then s.mark F.GLB_DIE_TEMP_over_seen else s)
  else .next s

/-! ### Requests (R45, R46, R58) -/

/-- A master writes a target code to GLB_MODE_REQ. -/
def State.askMode (s : State) (m : Master) (target : Nat) : State := (s.ownerWrite m R.GLB_MODE_REQ target).settle

def execRequestBoot (m : Master) (s : State) : Host.Outcome State Fault Refusal := .next (s.askMode m 0x2)
def execRequestConfigure (m : Master) (s : State) : Host.Outcome State Fault Refusal := .next (s.askMode m 0x3)
def execRequestCommission (m : Master) (s : State) : Host.Outcome State Fault Refusal := .next (s.askMode m 0x4)
def execRequestPrecharge (m : Master) (s : State) : Host.Outcome State Fault Refusal := .next (s.askMode m 0x6)
def execRequestReady (m : Master) (s : State) : Host.Outcome State Fault Refusal := .next (s.askMode m 0x7)
def execRequestRun (m : Master) (s : State) : Host.Outcome State Fault Refusal := .next (s.askMode m 0x8)
def execRequestDiagnostic (m : Master) (s : State) : Host.Outcome State Fault Refusal := .next (s.askMode m 0xB)

/-- The pending request is evaluated within 1 µs, where the sequencer is stopped (R46). -/
def execModeRequestEval (s : State) : Host.Outcome State Fault Refusal :=
  .next (if s.live then s.evalNow.settle else s)

def execSeqRunStart (m : Master) (s : State) : Host.Outcome State Fault Refusal :=
  .next (s.ownerWrite m R.GLB_DIAG_CTL 1).settle

def execSeqRunStop (m : Master) (s : State) : Host.Outcome State Fault Refusal :=
  .next (s.ownerWrite m R.GLB_DIAG_CTL 0).settle

/-! ### The boot image (R60 to R62) -/

/-- A 32-bit word of an image; bytes past its end read 0. -/
def imgWord (im : List Byte) (a : Nat) : Nat := fieldAt im a 4

def imgLen (im : List Byte) : Nat := imgWord im 0x08
def imgSigned (im : List Byte) : Bool := bitOf (imgWord im 0x0C) 0
def imgSections (im : List Byte) : Nat := bitsOf (imgWord im 0x18) 7 0

/-- The CRC offset (R61). -/
def imgCrcAt (im : List Byte) : Nat := imgLen im - (if imgSigned im then 196 else 4)

/-- A section descriptor. -/
structure Section where
  kind : Nat
  target : Nat
  upper : Nat
  src : Nat
  length : Nat
  dest : Nat
deriving DecidableEq, Repr

/-- The section descriptors of an image (R60). -/
def imgTable (im : List Byte) : List Section :=
  (upto (imgSections im)).map (fun k =>
    let a := 0x100 + 16 * k
    let w := imgWord im a
    { kind := bitsOf w 7 0, target := bitsOf w 15 8, upper := bitsOf w 31 16, src := imgWord im (a + 4),
      length := imgWord im (a + 8), dest := imgWord im (a + 12) })

/-- Check 2 of R62. -/
def imgHeaderOk (im : List Byte) : Bool :=
  let w := imgWord im 0x0C
  imgWord im 0 == 0x3036384A && fieldAt im 4 2 == 3 && fieldAt im 6 2 == 0x100
    && bitsOf w 5 4 != 3 && decide (2 ≤ bitsOf w 11 8) && decide (bitsOf w 11 8 ≤ 10)
    && bitsOf w 3 1 == 0 && !bitOf w 7 && bitsOf w 31 12 == 0
    && ((im.drop 0x1C).take 0xE4).all (· == 0)
    && decide (1 ≤ imgSections im) && decide (imgSections im ≤ 64)

/-- Check 3 of R62; `given` is the length written for a host download. image_len is in range where it is a multiple of 4 from 1024 to
8 388 608, as R60 gives it (log entry 66). -/
def imgLengthsOk (im : List Byte) (given : Option Nat) : Bool :=
  let n := imgLen im
  let table := 0x100 + 16 * imgSections im
  decide (1024 ≤ n) && decide (n ≤ 8388608) && n % 4 == 0
    && (match given with | none => true | some g => g == n)
    && decide (table ≤ imgCrcAt im)
    && (imgTable im).all (fun x => decide (table ≤ x.src) && decide (x.src + x.length ≤ imgCrcAt im))

/-- One section's type, target and destination are valid (check 9). -/
def sectionOk (x : Section) : Bool :=
  x.upper == 0 &&
  (if x.kind = 1 then decide (x.target ≤ 11) && decide (x.dest + x.length ≤ 65536)
  else if x.kind = 2 then decide (x.target ≤ 11) && decide (x.dest + x.length ≤ dmSize)
  else if x.kind = 3 then x.target == 0 && decide (0x800000 ≤ x.dest) && decide (x.dest + x.length ≤ grnSize)
  else x.kind == 4 && x.target == 0 && x.dest == 0 && x.length % 8 == 0)

/-- Two sections share bytes of one memory. -/
def sectionsMeet (x y : Section) : Bool :=
  x.kind == y.kind && x.target == y.target && x.kind != 4 && x.length != 0 && y.length != 0
    && decide (x.dest < y.dest + y.length) && decide (y.dest < x.dest + x.length)

/-- No two sections overlap (check 9). -/
def sectionsApart : List Section → Bool
  | [] => true
  | x :: t => t.all (fun y => !sectionsMeet x y) && sectionsApart t

/-- The key of an image hashes to the fused hash; true where none is fused (check 7). -/
def imgKeyOk (im : List Byte) : Bool :=
  match Config.fusedKeyHash with
  | none => true
  | some h => Config.sha384 ((im.drop (imgCrcAt im + 4)).take 96) == h

/-- The signature of an image verifies (check 8). -/
def imgSignatureOk (im : List Byte) : Bool :=
  match Config.fusedKeyHash with
  | none => true
  | some _ =>
    let sig := im.drop (imgCrcAt im + 4)
    Config.ecdsaP384 (sig.take 48) ((sig.drop 48).take 48) ((sig.drop 96).take 48) ((sig.drop 144).take 48)
      (Config.sha384 (im.take (imgCrcAt im + 4)))

/-- The stepping as GLB_DEVICE_ID[7:0] gives it. -/
def State.stepping (s : State) : Nat := bitsOf (s.rd R.GLB_DEVICE_ID) 7 0

/-- boot_err of the first check of R62 that an image fails, checks 2 to 9; 0 where it passes all. -/
def State.imgCheck (s : State) (im : List Byte) (given : Option Nat) : Nat :=
  if !imgHeaderOk im then 0x01
  else if !imgLengthsOk im given then 0x02
  else if bitsOf (imgWord im 0x10) 31 16 ≠ 0x4860 ∨ bitsOf (imgWord im 0x10) 7 0 > s.stepping then 0x03
  else if crc32c (im.take (imgCrcAt im)) ≠ imgWord im (imgCrcAt im) then 0x04
  else if !imgSigned im && Config.sigRequired then 0x07
  else if imgSigned im && !imgKeyOk im then 0x05
  else if imgSigned im && !imgSignatureOk im then 0x06
  else if !((imgTable im).all sectionOk && sectionsApart (imgTable im)) then 0x08
  else 0

/-! ### Boot rows (R62 to R65) -/

/-- A QSPI copy has been read: the bytes read, or no answer (check 1). -/
def execBootReadDone (answered : Bool) (image : List Byte) (s : State) : Host.Outcome State Fault Refusal :=
  if s.live && s.boot.phase == .reading then
    if answered && decide (256 ≤ image.length) then
      .next { s with boot := { s.boot with phase := .checking, image := image } }
    else .next (s.setF F.GLB_BOOT_STAT_boot_err 0x09).bootNext
  else .next s

def execBootGo (m : Master) (s : State) : Host.Outcome State Fault Refusal :=
  .next (s.ownerWrite m R.GLB_BOOT_CTL 1).settle

/-- Bytes that hold any header and section table (R60). -/
def headBytes : Nat := 0x500

/-- The image of a host download, as the granary holds it from address 0 (R64): as long as its header says, within the range of R60, and
with the whole table. -/
def State.stagedImage (s : State) : List Byte := s.grnRead 0 (max headBytes (min 8388608 (s.grnNat 8 4)))

/-- The check of an image ends. -/
def execBootCheckDone (s : State) : Host.Outcome State Fault Refusal :=
  if s.live && s.boot.phase == .checking then
    let host := s.f F.GLB_BOOT_STAT_source == 3
    let given := s.f F.GLB_BOOT_LEN_len
    let s := if host then s.grnWait else s
    let im := if host then s.stagedImage else s.boot.image
    let err := s.imgCheck im (if host then some given else none)
    if err = 0 then
      let s := (s.setF F.GLB_BOOT_CTL_go 0).setF F.GLB_BOOT_STAT_verified
        (b2n (imgSigned im && Config.fusedKeyHash.isSome))
      .next { s with boot := { s.boot with phase := .loading, image := im } }
    else
      let s := s.setF F.GLB_BOOT_STAT_boot_err err
      .next (if host then
          let s := (s.setF F.GLB_BOOT_STAT_busy 0).setF F.GLB_BOOT_CTL_go 0
          { s with boot := { s.boot with phase := .idle, image := [] } }
        else s.bootNext)
  else .next s

/-- Bytes put into a program memory, at byte offset `a`. -/
def State.pmLoad (s : State) (e a : Nat) : List Byte → State
  | [] => s
  | b :: t =>
    let w := s.pmWord e (a / 4)
    (s.pmPut e (a / 4) (setBits w (a % 4 * 8 + 7) (a % 4 * 8) b.toNat)).pmLoad e (a + 1) t

/-- One memory section is loaded; what goes to data memory is an external write (R232, R233). -/
def State.loadSection (im : List Byte) (s : State) (x : Section) : State :=
  let bs := (im.drop x.src).take x.length
  if x.kind = 1 then s.pmLoad x.target x.dest bs
  else if x.kind = 2 then s.dmWords x.target x.dest ((x.length + 3) / 4) bs
  else if x.kind = 3 then s.grnWait.grnWrite x.dest bs
  else s

/-- Where the blocks of R15 end in a view. -/
def blocksEnd : Nat := 0x100000

/-- A register-set pair is written as by the owner through the privileged view, or skipped (R65). An offset lies outside any block where
its place in a view is at or past the end of the blocks of R15, or it lies in neither view; an offset in a gap between blocks is not
skipped, for it is a reserved offset of the area (log entry 91). -/
def State.bootPair (s : State) (off v : Nat) : State :=
  if off % 4 ≠ 0 ∨ off % privBase ≥ blocksEnd ∨ off ≥ 2 * privBase then s.raise .bootPairSkip 0 0 off
  else s.writeReg WSrc.boot (off % privBase) v

/-- The pairs of a payload, in order. -/
def State.bootPairs (s : State) (bs : List Byte) : Nat → State
  | 0 => s
  | n + 1 => (s.bootPair (fieldAt bs 0 4) (fieldAt bs 4 4)).bootPairs (bs.drop 8) n

/-- The sections of the accepted image are loaded, CONFIGURE is entered, and the register-set pairs are applied. -/
def execBootLoadDone (s : State) : Host.Outcome State Fault Refusal :=
  if s.live && s.boot.phase == .loading then
    let im := s.boot.image
    let table := imgTable im
    let s := table.foldl (State.loadSection im) s
    let s := (s.wr R.GLB_IMAGE_VER (imgWord im 0x14)).setF F.GLB_BOOT_STAT_done 1
    let s := s.setF F.GLB_BOOT_STAT_busy 0
    let s := { s with boot := { phase := .idle, image := [], restart := false, qspiLeft := [] } }
    let s := s.enterMode .configure 0x02
    let s := (table.filter (fun x => x.kind == 4)).foldl
      (fun s x => s.bootPairs ((im.drop x.src).take x.length) (x.length / 8)) s
    .next s.settle
  else .next s

/-! ### COMMISSION and MUSTER (R51, R54, R55, R332) -/

/-- The check value has been computed over the safety parameter block. -/
def execCheckValueDone (s : State) : Host.Outcome State Fault Refusal :=
  if s.live && s.mode == .commission && s.ctl.checkBusy then
    let v := s.checkValue
    let s := (s.wr R.SAF_CHECK v).setF F.SAF_STAT_check_valid 1
    let s := { s with ctl := { s.ctl with checkBusy := false } }
    .next (if s.retConfirmed == some v then s.checkMatched 0x04 else s).settle
  else .next s

def execSafConfirm (m : Master) (value : W32) (s : State) : Host.Outcome State Fault Refusal :=
  .next (s.ownerWrite m R.SAF_CONFIRM value.toNat).settle

/-- A pending match enters MUSTER once no channel reads asserted. -/
def execPendingMusterEntry (s : State) : Host.Outcome State Fault Refusal :=
  match s.ctl.pendMatch with
  | none => .next s
  | some cause =>
    .next (if s.live && s.mode == .commission && !s.inputAsserted then (s.enterMode .muster cause).settle else s)

/-- Muster completes (R55); with the lockout latch set the device blocks instead (R51). -/
def execMusterDone (s : State) : Host.Outcome State Fault Refusal :=
  if s.live && s.mode == .muster && s.musterOk then
    let s := { s with ctl := { s.ctl with musterDone := true } }
    .next (if s.lockedOut then (s.blockWith .muster 0x06).settle else s)
  else .next s

end Sys2Proof.Machine
end

