-- ==== Sys2Proof/Machine/PeriodRows.lean ====
section
/-! DEFINITION. The period tick and what happens in it, the plan, the ORDER launch, arm requests, injection updates (R23, R24, R29,
R46, R49, R58, R96, R110, R130, R146, R147, R164, R176, R188, R195, R202, R225, R235, R236, R265, R337, R416). -/

namespace Sys2Proof.Machine

/-! ### Injection generators (R235, R236) -/

/-- A generator starts: it latches every generator register and clears done. -/
def State.injStart (s : State) (e : Nat) : State :=
  let s := (s.setF (F.ENG_INJ_STAT_running e) 1).setF (F.ENG_INJ_STAT_done e) 0
  let f0 := s.f (F.ENG_INJ_F0_f0 e)
  let poly := s.f (F.ENG_INJ_PRBS_poly e)
  s.modEng e (fun x => { x with inj := {
    div := s.f (F.ENG_INJ_CTL_div e), kind := s.f (F.ENG_INJ_CTL_kind e), node := s.f (F.ENG_INJ_CTL_node e)
    once := s.fb (F.ENG_INJ_CTL_once e), hold := s.f (F.ENG_INJ_PRBS_hold e), poly := poly
    f0 := f0, df := s.f (F.ENG_INJ_DF_df e), len := s.f (F.ENG_INJ_LEN_len e)
    incr := (upto 32).map (fun k => s.f (F.ENG_TONE_F_incr e k))
    tickLeft := 0, lfsr := 2 ^ (if poly = 0 then 7 else if poly = 1 then 15 else 31) - 1, holdLeft := 0
    ph := 0, inc := f0, c := 0, phs := (upto 32).map (fun k => s.f (F.ENG_TONE_A_phase0 e k) * 2 ^ 16) } })

/-- A generator at a period tick: it stops, starts, or counts the tick towards its next update. A write of inj_en in the cycle of the tick
acts at the following one. -/
def State.injTick (s : State) (e : Nat) : State :=
  let en := bitOf (s.startRd (R.ENG_INJ_CTL e)) (F.ENG_INJ_CTL_inj_en e).lo
  let run := s.fb (F.ENG_INJ_STAT_running e)
  if run && !en then s.injStop e
  else if run then s.modEng e (fun x => { x with inj := { x.inj with tickLeft := x.inj.tickLeft - 1 } })
  else if en then s.injStart e
  else s

/-- The sample in force. -/
def State.injSample (s : State) (e : Nat) (g : Int) : State := s.setF (F.ENG_INJ_STAT_sample e) (twos 16 g)

/-- amp × sin_q, rounded (R236). -/
def injScale (amp : Nat) (angle : Nat) : Int := ((amp : Int) * sinQ angle + 2 ^ 14) / 2 ^ 15

/-- One bit of a PRBS: the shift register after it. -/
def prbsStep (poly s : Nat) : Nat :=
  let nm := if poly = 0 then (7, 6) else if poly = 1 then (15, 14) else (31, 28)
  (s * 2 + (bitsOf s (nm.1 - 1) (nm.1 - 1) + bitsOf s (nm.2 - 1) (nm.2 - 1)) % 2) % 2 ^ nm.1

/-- One update of a PRBS. -/
def State.injPrbs (s : State) (e : Nat) : State :=
  let j := (s.eng e).inj
  let j := if j.holdLeft = 0 then { j with lfsr := prbsStep j.poly j.lfsr, holdLeft := j.hold - 1 }
    else { j with holdLeft := j.holdLeft - 1 }
  let amp : Int := s.f (F.ENG_INJ_AMP_amp e)
  (s.modEng e (fun x => { x with inj := j })).injSample e (if bitOf j.lfsr 0 then amp else -amp)

/-- One update of a chirp; a once sweep ends the generator. -/
def State.injChirp (s : State) (e : Nat) : State :=
  let j := (s.eng e).inj
  let s := s.injSample e (injScale (s.f (F.ENG_INJ_AMP_amp e)) (j.ph / 2 ^ 16))
  let j := { j with ph := (j.ph + j.inc) % 2 ^ 32, inc := (j.inc + j.df) % 2 ^ 32, c := j.c + 1 }
  if j.c = j.len then
    if j.once then
      let s := ((s.modEng e (fun x => { x with inj := j })).injStop e).setF (F.ENG_INJ_CTL_inj_en e) 0
      ((s.setF (F.ENG_INJ_STAT_done e) 1).raise .injDone e 0 0).occur 0x0F
    else s.modEng e (fun x => { x with inj := { j with ph := 0, inc := j.f0, c := 0 } })
  else s.modEng e (fun x => { x with inj := j })

/-- One update of the tones. -/
def State.injTones (s : State) (e : Nat) : State :=
  let j := (s.eng e).inj
  let sum := (upto 32).foldl (fun (acc : Int) k =>
    acc + injScale (s.f (F.ENG_TONE_A_amp e k)) (j.phs.getD k 0 / 2 ^ 16)) 0
  let g := sat16 sum
  let phs := (upto 32).map (fun k => (j.phs.getD k 0 + j.incr.getD k 0) % 2 ^ 32)
  let s := (s.modEng e (fun x => { x with inj := { j with phs := phs } })).injSample e g.1
  if g.2 then s.mark (F.ENG_INJ_STAT_inj_sat e) else s

/-- The sample is updated at the start tick and then at every div-th one. -/
def execInjUpdate (e : Fin 12) (s : State) : Host.Outcome State Fault Refusal :=
  let j := (s.eng e).inj
  if s.live && s.fb (F.ENG_INJ_STAT_running e) && j.tickLeft == 0 then
    let s := s.modEng e (fun x => { x with inj := { x.inj with tickLeft := j.div } })
    .next (if j.kind = 0 then s.injPrbs e else if j.kind = 1 then s.injChirp e else s.injTones e)
  else .next s

/-! ### The period tick (R24) -/

/-- Statistics of the period just ended (GLB_MS_GATHER, GLB_MS_PLAN, WIN_UNIT_STAT). -/
def State.periodStats (s : State) : State :=
  let s := match s.seq.gatherAt with
    | none => s
    | some v => (s.setF F.GLB_MS_GATHER_last v).putWorst F.GLB_MS_GATHER_worst v
  let s := match s.seq.planAt with
    | none => s
    | some v => (s.setF F.GLB_MS_PLAN_last v).putWorst F.GLB_MS_PLAN_worst v
  s.forEach (upto 6) (fun s u =>
    let v := min 0xFFFF (s.unit u).cycles
    let s := (s.setF (F.WIN_UNIT_STAT_last u) v).putWorst (F.WIN_UNIT_STAT_worst u) v
    s.modUnit u (fun x => { x with cycles := 0 }))

/-- Period n begins. -/
def State.periodBegin (s : State) (n : Nat) : State :=
  let s := { s with seq := { s.seq with
      running := true, startPend := false, next := n + 1, started := true, gatherDone := false, gatherAt := none, planAt := none
      turned := false, availDone := false, deadlinePassed := false, ordered := false, planComplete := false, planLate := false
      timed := false, launched := false } }
  let s := { s with fr := { s.fr with safeTrig := false } }
  let s := s.forEach s.lanesInUse (fun s l =>
    s.modLane l (fun x => { x with gatherOk := false, gatherSeen := false, gatherOwn := false, gatherOther := false, gatherLate := false
                                   failOwn := false, failOther := false, gatherSent := false
                                   activePrev := x.active, active := false }))
  s.headerBegin n

/-- The lanes at a boundary: a lane that has gone down is unreachable from here on (R130), and a broken chain becomes split at the
second boundary after the break was detected (R96). -/
def State.laneBoundary (s : State) : State :=
  s.forEach s.lanesInUse (fun s l =>
    let x := s.lane l
    let s := if s.laneState l = laneDown then s.modLane l (fun y => { y with unreach := true }) else s
    if x.splitIn = 0 then s
    else if x.splitIn = 1 then
      ((s.modLane l (fun y => { y with splitIn := 0 })).setF (F.NCL_LSTAT_path_mode l) 3).setF (F.NCL_LSTAT_break_pos l) x.splitPos
    else s.modLane l (fun y => { y with splitIn := y.splitIn - 1 }))

/-- A change of entitlement during the period before moves a device between RUN and SHADOW (R337). -/
def State.entitlementMode (s : State) (entitled : Bool) : State :=
  match s.mode with
  | .run => if entitled then s else s.enterMode .shadow 0x0E
  | .shadow => if entitled then (s.enterMode .run 0x0D).modPair (fun p => { p with localInput := true }) else s
  | _ => s

/-- What else the tick of a running sequencer does, once the mode of the period is settled. -/
def State.periodWork (s : State) : State :=
  let s := { s.laneBoundary with fr := { s.fr with modeAtP := modeCode s.mode } }
  let s := s.timRecord
  let s := s.forEach allEngines State.injTick
  let s := s.adcPeriod
  let s := s.commitTransfer.syncEvent 1
  { s with pwmIo := { s.pwmIo with syncOutArmed := s.fb F.EDG_SYNC_CFG_sync_out_en } }

/-- The sequencer stops at the boundary, after seq_run was written 0, and the engines with it (R43, R58). -/
def State.stopTick (s : State) : State :=
  let s := s.evalBoundary
  if s.seq.running then s.stopSequencer.dropAll.enginesTo engHalted else s

/-- The period tick of boundary n, with the entitlement of the period before it. -/
def State.tick (s : State) (n : Nat) : State :=
  let ent := s.entitled
  let was := s.seq.started
  let s := if was then s.periodStats else s
  let s := ((s.periodBegin n).pairPeriod was)
  let s := (s.schedPeriod.overrunTrip.entitlementMode ent).evalBoundary.overrunTrip
  if s.seq.running then s.periodWork else s

/-- The timebase reaches the next boundary. -/
def execPeriodTick (s : State) : Host.Outcome State Fault Refusal :=
  if s.live && (s.seq.running || s.seq.startPend) then
    let n := s.seq.next
    let s := (s.advanceTo (s.boundary n)).flushSets.catchUp
    if s.seq.stopPend then .next ((if s.seq.started then s.periodStats else s).stopTick).lateRequests.settle
    else .next (s.tick n).lateRequests.settle
  else .next s

/-! ### Arm requests (R146, R225) -/

/-- The oldest record an engine has sent to a unit and that is not delivered, and the state without it. -/
def State.takeSend (s : State) (e unit : Nat) : Option (List Byte) × State :=
  match (s.eng e).sends.find? (fun r => r.1 == unit) with
  | none => (none, s)
  | some r => (some r.2.2, s.modEng e (fun x => { x with sends := x.sends.erase r }))

/-- The cycle in which an engine sent its oldest record to a unit that is not delivered. -/
def State.sendCyc (s : State) (e unit : Nat) : Option Nat := ((s.eng e).sends.find? (fun r => r.1 == unit)).map (fun r => r.2.1)

/-- The engines whose record to a unit is delivered before engine e's: lower ones that sent it in the same cycle (R225). -/
def State.sendsFirst (s : State) (e unit : Nat) : List Nat :=
  (upto e).filter (fun k => (s.sendCyc k unit).isSome && s.sendCyc k unit == s.sendCyc e unit)

/-- The words of a record. -/
def recordWords (bs : List Byte) : List Nat := (upto (bs.length / 4)).map (fun k => fieldAt bs (4 * k) 4)

/-- An engine's oldest arm request arrives at the winnow units; in SAFE-BLOCK it is discarded (R43). -/
def State.deliverArm (s : State) (e : Nat) : State :=
  let r := s.takeSend e 0
  match r.1 with
  | none => s
  | some bs => r.2.armRequest (recordWords bs)

/-- An arm request of an engine is delivered, after those that lower engines sent in its cycle. -/
def execArmRequest (e : Fin 12) (s : State) : Host.Outcome State Fault Refusal :=
  .next (((s.sendsFirst e 0).foldl State.deliverArm s).deliverArm e)

/-! ### The plan and the ORDER frames (R29, R147, R176, R186) -/

/-- Every enabled arm has been planned in time. -/
def State.planReady (s : State) : Bool :=
  s.inPeriod && s.mode.controls && s.seq.gatherDone && !s.seq.ordered && !s.seq.planComplete
    && s.enabledArms.all (fun a => (s.arm a).planned)

/-- The plan is complete; one that comes after ORDER_OFFSET has been discarded. -/
def execPlanComplete (s : State) : Host.Outcome State Fault Refusal :=
  if s.planReady then
    let s := { s with seq := { s.seq with planComplete := true, planAt := some s.stepsNow } }
    .next ({ s with plan := { s.plan with digest := s.planDigest } }.occur 0x02).settle
  else .next s

/-- Every enabled arm without an accepted request is flagged (R147). -/
def State.flagMissing (s : State) : State :=
  s.forEach s.enabledArms (fun s a => if (s.arm a).req.isNone then s.mark (F.WIN_ARM_FLAGS_req_missing a) else s)

/-- The requests of the period are used up; i_prev stays for the tally (R171), and an arm that waits for its unit keeps the request it will
be started with (R166). -/
def State.closeRequests (s : State) : State :=
  s.forEach (upto 12) (fun s a => s.modArm a (fun x =>
    { x with tallyI := x.req.map ArmReq.iPrev, work := if x.started then x.work else x.req, req := none }))

/-- The plan is late (R29): an overrun cause, in whatever mode the sequencer runs. -/
def State.latePlan (s : State) : State :=
  let s := (s.mark F.GLB_TIMING_STAT_plan_late).bumpF F.GLB_LATE_CNT_plan_late_cnt 1
  ({ s with seq := { s.seq with planLate := true, planAt := some 0xFFFF } }).overrunCause

/-- An ORDER frame leaves on the lane: not from the first boundary after it went down (R130). -/
def State.laneOrders (s : State) (l : Nat) : Bool := s.laneSends l && !(s.laneState l == laneDown && (s.lane l).unreach)

/-- The ORDER frames leave, and every cell's command follows: the slot sent to it, or none, on which it holds. -/
def State.launchOrders (s : State) : State :=
  let out := s.lanesInUse.filter s.laneOrders
  let cmd := fun c => ((s.slotFor c).state, (s.slotFor c).edges)
  let t := s.forEach out (fun t l =>
    let fs := s.orderFrames l s.periodFull cmd
    let r := t.putFrames l fs
    r.2.modLane l (fun x => { x with order := fs, active := s.marksActive, tx := { x.tx with orderAt := r.1 } }))
  let t := t.forEach (s.lanesInUse.filter (fun l => !out.contains l)) (fun t l => t.modLane l (fun x => { x with order := [] }))
  t.forEach s.lanesInUse (fun t l =>
    if out.contains l then t.forEach (s.laneCells l) (fun t c => t.commandCell c (s.slotFor c))
    else t.forEach (s.laneCells l) (fun t c => t.commandCell c (s.holdSlot c)))

/-- What test firmware commands in DIAGNOSTIC is open: each slot takes a state that is a free value, never INSERT (R43, R57). -/
def State.diagSlots (s : State) : State :=
  s.forEach s.allCells (fun s c =>
    let fv := s.free
    let t := fv.2
    { t with plan := { t.plan with slots := tput PlanSlot.blank t.plan.slots c (t.diagSlot c (fv.1 % 5)) } })

/-- P_n + ORDER_OFFSET. -/
def execOrderLaunch (s : State) : Host.Outcome State Fault Refusal :=
  if s.inPeriod && !s.seq.ordered then
    let s := (s.advanceTo (s.pN + s.f F.GLB_ORDER_OFFSET_order_offset_steps * 5)).flushSets
    let plans := s.mode.controls
    let s := s.flagMissing
    let s := { s.closeRequests with seq := { s.seq with ordered := true } }
    let s := if s.seq.planComplete then s else s.latePlan.overrunTrip
    let s := if s.mode == .diagnostic then s.diagSlots else s
    let s := s.launchOrders
    let s := if plans then s.forEach (upto 6) State.tryRanking else s
    .next (s.occur 0x03).settle
  else .next s

end Sys2Proof.Machine
end

