-- ==== Sys2Proof/Machine/PwmRows.lean ====
section
/-! DEFINITION. Rows of the local PWM that reach other blocks: reloads, compares, SYNC_IN and edge records (R188, R189, R203,
R226, R227, R271). -/

namespace Sys2Proof.Machine

/-- A counter returns to 0, with the fault pins as they read in that cycle; a reload in the cycle of a hand-over takes what that hand-over
transfers (R195). -/
def execPwmReload (c : Fin 16) (fltPins : BitVec 8) (s : State) : Host.Outcome State Fault Refusal :=
  if s.live && s.fb (F.EDG_PWM_CTL_run c) && !s.pairedTo c then
    let at_ := s.reloadAt c
    let s := (s.advanceCyc at_).setFltPins fltPins.toNat
    let s := if s.tickDue && !s.seq.stopPend then s.commitTransfer else s
    let s := s.lagChain c (s.pwmCh c).lag
    .next ((s.reloadFrom 16 c 0 fltPins.toNat at_).urgentReload (s.reloadChain 16 c)).settle
  else .next s

/-- A compare instant is reached; an on-compare may request an urgent conversion. -/
def execPwmCompare (c : Fin 16) (isOn : Bool) (s : State) : Host.Outcome State Fault Refusal :=
  if s.live && s.compareDue c isOn then
    let s := (s.advanceCyc (s.compareCyc c isOn)).compareAt c isOn
    .next (if isOn then s.urgentPwm 2 c else s)
  else .next s

/-- A rising edge of SYNC_IN: stamped where sync_in_en is set, and a load of the channels with sync_src 2 three cycles later. -/
def execSyncInEdge (s : State) : Host.Outcome State Fault Refusal :=
  if s.live then
    let s := if s.fb F.EDG_SYNC_CFG_sync_in_en then
        ({ s.setF F.EDG_SYNC_CAP_offset (twos 31 s.syncOffset) with pwmIo := { s.pwmIo with syncInAt := some s.stampUnits } }).occur 0x0E
      else s
    .next ((s.cycles 3).syncEvent 2).settle
  else .next s

/-! ### Edge records (R226, R227) -/

/-- The writes an edge record asks for, in word order: register, value, and the bits its layout reserves. -/
def edgeWrites (ws : List Nat) : List (Nat × Nat × Nat) :=
  let w0 := word ws 0
  let c := bitsOf w0 3 0
  (if bitOf w0 8 then [(R.EDG_PWM_ON c, word ws 1, bitsOf (word ws 1) 31 29), (R.EDG_PWM_OFF c, word ws 2, bitsOf (word ws 2) 31 29)]
    else [])
    ++ (if bitOf w0 9 then [(R.EDG_PWM_PER c, word ws 3, bitsOf (word ws 3) 31 24)] else [])
    ++ (if bitOf w0 10 then [(R.EDG_PWM_PHASE c, word ws 4, bitsOf (word ws 4) 31 24)] else [])
    ++ (if bitOf w0 11 then [(R.EDG_PWM_DT c, word ws 5, 0)] else [])
    ++ (if bitOf w0 12 then [(R.EDG_MASK_SW, word ws 6, bitsOf (word ws 6) 31 4)] else [])
    ++ (if bitOf w0 13 then [(R.EDG_PWM_COMMIT, 2 ^ c, 0)] else [])

/-- No reserved bit is set in word 0 or in a word the record writes. -/
def edgeRecordOk (ws : List Nat) : Bool :=
  bitsOf (word ws 0) 7 4 == 0 && bitsOf (word ws 0) 31 14 == 0 && (edgeWrites ws).all (fun w => w.2.2 == 0)

/-- An edge record is applied as writes by the owner; its values stand against those of host writes to the same registers in this cycle
(R227). -/
def State.applyRecord (s : State) (e : Nat) (ws : List Nat) : State :=
  let s := (edgeWrites ws).foldl (fun s w => s.writeReg (WSrc.edge e) w.1 w.2.1) s
  let held := if s.pwmIo.recAt = s.cyc then s.pwmIo.recs else []
  { s with pwmIo := { s.pwmIo with recs := held ++ ((edgeWrites ws).map Prod.fst).filter (· ≠ R.EDG_PWM_COMMIT), recAt := s.cyc } }

/-- An engine's oldest edge record arrives: discarded, or applied. -/
def State.deliverEdges (s : State) (e : Nat) : State :=
  let r := s.takeSend e 1
  match r.1 with
  | none => s
  | some bs =>
    let ws := recordWords bs
    if s.mode == .safeBlock then r.2
    else if edgeRecordOk ws then r.2.applyRecord e ws
    else r.2.raise .sendBad e 0 0

/-- An edge record of an engine is delivered, after those that lower engines sent in its cycle. -/
def execEdgeRecord (e : Fin 12) (s : State) : Host.Outcome State Fault Refusal :=
  .next (((s.sendsFirst e 1).foldl State.deliverEdges s).deliverEdges e)

end Sys2Proof.Machine
end

