-- ==== Sys2Proof/Machine/RecRows.lean ====
section
/-! DEFINITION. Rows of the recorder that trigger from outside: TRIG_IN and the trigger bus (R298, R300 to R306). -/

namespace Sys2Proof.Machine

/-! ### TRIG_IN (R298) -/

/-- The cycle in which the re-arm time after an input's latest accepted edge ends. -/
def State.rearmEnd (s : State) (i : Nat) : Nat := s.fr.trigInAt.getD i 0 + s.f (F.REC_TRIGIN_rearm_us i) * cycPerUs

/-- An edge at the ball of a TRIG_IN input, held for 10 ns or longer. -/
def execTrigInEdge (i : Fin 4) (rising : Bool) (s : State) : Host.Outcome State Fault Refusal :=
  let s := s.setF (F.REC_TRIGIN_STAT_pin i) (b2n rising)
  if !s.fb (F.REC_TRIGIN_en i) || s.fb (F.REC_TRIGIN_pol i) == rising || !s.mode.fromConfigure then .next s
  else if s.fb (F.REC_TRIGIN_STAT_rearming i) && decide (s.cyc < s.rearmEnd i) then .next (s.bumpF (F.REC_TRIGIN_STAT_ignored i) 1)
  else
    let s := { s with fr := { s.fr with trigInAt := lset s.fr.trigInAt i s.cyc } }
    .next ((s.setF (F.REC_TRIGIN_STAT_rearming i) 1).recTrigger (trigIn i) s.stampNs).settle

/-- The re-arm time of an input ends. -/
def execTrigInRearm (i : Fin 4) (s : State) : Host.Outcome State Fault Refusal :=
  if s.fb (F.REC_TRIGIN_STAT_rearming i) then .next ((s.advanceCyc (s.rearmEnd i)).setF (F.REC_TRIGIN_STAT_rearming i) 0)
  else .next s

/-! ### The trigger bus (R300 to R306) -/

/-- The device's slot; the master's is 0. -/
def State.tbId (s : State) : Nat := if s.fb F.REC_TB_CFG_tb_master then 0 else s.f F.REC_TB_CFG_tb_id

/-- A message of R302. -/
def tbMessage (kind sel payload : Nat) : Nat :=
  let body := kind * 2 + sel * 8 + payload * 64
  let ones := ((upto 14).map (fun i => bitsOf body i i)).sum
  1 + body + ones % 2 * 2 ^ 14

/-- The parity of bits 1 to 14 is even. -/
def tbParity (m : Nat) : Bool := ((upto 14).map (fun i => bitsOf m (i + 1) (i + 1))).sum % 2 == 0

/-- A message of a slot is valid (R302). -/
def tbValid (slot m : Nat) : Bool :=
  let kind := bitsOf m 2 1
  bitOf m 0 && tbParity m && !bitOf m 15 && (slot == 0 || !(kind == 0 || kind == 3)) && !(slot == 0 && kind == 2)

/-- CORE_CLK cycles of a frame of 12.8 µs (R301). -/
def tbFrame : Nat := 8000

/-- The device's own slot comes, once in a frame: it sends what is pending (R301, R302, R305; its instant: log entry 111). -/
def execTbSlotSend (s : State) : Host.Outcome State Fault Refusal :=
  let master := s.fb F.REC_TB_CFG_tb_master
  let pend := s.f F.REC_TB_STAT_pending
  if !s.fb F.REC_TB_CFG_tb_en then .next s
  else
    let s := if s.fr.bus.slotAt = 0 then s else s.advanceCyc (s.fr.bus.slotAt + tbFrame)
    let s := s.modBus (fun b => { b with slotAt := s.cyc })
    let s := if master then s.setF F.REC_TB_STAT_tb_up 1 else s
    if pend ≠ 0 ∧ s.fb F.REC_TB_STAT_tb_up then
      let line := ((upto 8).find? (bitOf pend)).getD 0
      let s := (s.setF F.REC_TB_STAT_pending (pend - 2 ^ line)).bumpF F.REC_TB_CNT_tx_trig 1
      .next (s.modBus (fun b => { b with sent := some (tbMessage 1 line 0) }))
    else if master then
      match s.fr.bus.toReply with
      | r :: rest => .next (s.modBus (fun b => { b with toReply := rest, sent := some (tbMessage 3 r.1 r.2) }))
      | [] => .next (s.modBus (fun b => { b with sent := some (tbMessage 0 0 0) }))
    else if s.fr.bus.reqs > 0 then
      .next (s.modBus (fun b => { b with reqs := b.reqs - 1, sent := some (tbMessage 2 0 0) }))
    else .next (s.modBus (fun b => { b with sent := none }))

/-- Four replies have come (R303). -/
def State.tbLink (s : State) (rs : List Nat) : State :=
  let hi := rs.foldl max 0
  let lo := rs.foldl min 255
  let s := s.modBus (fun b => { b with replies := [] })
  let d := (rs.sum + 4) / 8
  let s := if hi > 63 then s else ((s.setF F.REC_TB_STAT_tb_delay d).setF F.REC_TB_STAT_tb_up 1).raise .tbUp 0 0 d
  let s := if hi - lo > 4 then (s.mark F.REC_TB_STAT_spread).raise .tbSpread 0 0 0 else s
  if hi > 63 then
    ((s.mark F.REC_TB_STAT_range_err).raise .tbRange 0 0 hi).modBus (fun b => { b with waiting := true, waitAt := s.cyc, good := 0 })
  else s

/-- The bus is lost (R306). -/
def State.tbLost (s : State) : State :=
  let s := s.modBus (fun _ => TrigBus.reset)
  let s := (s.setF F.REC_TB_STAT_pending 0).setF F.REC_TB_STAT_tb_up 0
  (s.mark F.REC_TB_STAT_tb_down).raise .tbDown 0 0 0

/-- The latest valid slot-0 message came in the frame before this one. -/
def State.tbFollows (s : State) : Bool := decide (s.cyc < s.fr.bus.goodAt + tbFrame * 3 / 2)

/-- A valid slot-0 message: the device links up after two consecutive frames with one (R303). -/
def State.tbSlot0 (s : State) : State :=
  let follows := s.tbFollows
  let s := s.modBus (fun b => { b with good := if follows then b.good + 1 else 1, bad := 0, goodAt := s.cyc })
  let b := s.fr.bus
  if !s.fb F.REC_TB_STAT_tb_up && b.good == 2 && b.reqs == 0 && !b.waiting then s.modBus (fun b => { b with reqs := 4 }) else s

/-- The start of the message whose stop bit has just been received: 16 cycles of 100 ns earlier; the bus instant of a TRIGGER is
that edge less tb_delay (R304). -/
def State.busInstant (s : State) : Nat := s.stampNs - 1600 - s.f F.REC_TB_STAT_tb_delay * 4 / 5

/-- A message has been received in a slot; `rt` is the round trip the master measures for an ECHO_REQ, in 0.8 ns (R303). -/
def execTbMessageReceived (slot : Fin 8) (msg : BitVec 16) (rt : Nat) (s : State) : Host.Outcome State Fault Refusal :=
  let m := msg.toNat
  let master := s.fb F.REC_TB_CFG_tb_master
  if !s.fb F.REC_TB_CFG_tb_en || slot.val == s.tbId then .next s
  else if !tbValid slot m then
    let s := s.bumpF F.REC_TB_CNT_rx_bad 1
    if slot.val = 0 ∧ !master then
      let s := s.modBus (fun b => { b with good := 0, bad := b.bad + 1 })
      .next (if (s.fr.bus.bad ≥ 2 ∨ !s.tbFollows) ∧ s.fb F.REC_TB_STAT_tb_up then s.tbLost else s)
    else .next s
  else
    let s := if slot.val = 0 ∧ !master then s.tbSlot0 else s
    let kind := bitsOf m 2 1
    let sel := bitsOf m 5 3
    if kind = 1 then
      .next (if s.fb F.REC_TB_STAT_tb_up then (s.recTrigger (trigBus sel) s.busInstant).settle else s)
    else if kind = 2 then
      .next (if master then s.modBus (fun b => { b with toReply := b.toReply ++ [(slot.val, min 255 rt)] }) else s)
    else if kind = 3 ∧ !master ∧ sel = s.tbId ∧ !s.fb F.REC_TB_STAT_tb_up then
      let p := bitsOf m 13 6
      let s := (s.setF F.REC_TB_STAT_rt_last p).modBus (fun b => { b with replies := b.replies ++ [p] })
      .next (if s.fr.bus.replies.length = 4 then s.tbLink s.fr.bus.replies else s)
    else .next s

/-- 100 ms after a range error the device tries to link up again (R303). -/
def execTbRelink (s : State) : Host.Outcome State Fault Refusal :=
  if s.fr.bus.waiting then
    .next ((s.advanceCyc (s.fr.bus.waitAt + 100 * cycPerMs)).modBus (fun b =>
      { b with waiting := false, good := 0, bad := 0, reqs := 0, replies := [] }))
  else .next s

/-- TB_CLK is absent for 1 µs, or slot 0 carries no valid message in two consecutive frames (R306). -/
def execTbClkLoss (s : State) : Host.Outcome State Fault Refusal :=
  if s.fb F.REC_TB_CFG_tb_en && !s.fb F.REC_TB_CFG_tb_master then
    .next (if s.fb F.REC_TB_STAT_tb_up then s.tbLost else s.modBus (fun b => { TrigBus.reset with waiting := b.waiting, waitAt := b.waitAt }))
  else .next s

end Sys2Proof.Machine
end

