-- ==== Sys2Proof/Machine/RegRows.lean ====
section
/-! DEFINITION. Rows that are accesses of a master: the plain register accesses (R6 to R13), the rows that are one register's write,
the maintenance SPI (R375), and BAR2 (R368). -/

namespace Sys2Proof.Machine

/-! ### Plain register accesses -/

def execRegisterWrite (m : Master) (addr size : Nat) (value : BitVec 64) (s : State) : Host.Outcome State Fault Refusal :=
  .next (s.masterWrite m addr size value.toNat).settle

def execReadClear (m : Master) (addr size : Nat) (s : State) : Host.Outcome State Fault Refusal :=
  .next (State.answer (s.masterRead m addr size))

def execSnapshotRead (m : Master) (addr size : Nat) (s : State) : Host.Outcome State Fault Refusal :=
  .next (State.answer (s.masterRead m addr size))

/-! ### One register's write -/

/-- The word that leaves a register as it is: its RW and RWL fields at their present values, every other bit 0. -/
def State.keepWord (s : State) (off : Nat) : Nat :=
  match lookup off with
  | none => 0
  | some (d, _, _) =>
    d.fields.foldl (fun v fd =>
      if fd.acc == .rw || fd.acc == .rwl then setBits v fd.hi fd.lo (bitsOf (s.rd off) fd.hi fd.lo) else v) 0

/-- A master's write that gives one field a value and leaves the register's other fields. -/
def State.fieldWrite (s : State) (m : Master) (x : Fld) (v : Nat) : State :=
  (s.ownerWrite m x.off (setBits (s.keepWord x.off) x.hi x.lo v)).settle

/-- A master's write of a whole word. -/
def State.wordWrite (s : State) (m : Master) (off v : Nat) : State := (s.ownerWrite m off v).settle

def execEqRxWrite (m : Master) (l : Fin 50) (value : W32) (s : State) : Host.Outcome State Fault Refusal :=
  .next (s.wordWrite m (R.LPHY_EQ_RX l) value.toNat)

def execInjectSingle (m : Master) (l : Fin 50) (s : State) : Host.Outcome State Fault Refusal :=
  .next (s.fieldWrite m (F.LPHY_DIAG_inj_single l) 1)

def execInjectBurst (m : Master) (l : Fin 50) (s : State) : Host.Outcome State Fault Refusal :=
  .next (s.fieldWrite m (F.LPHY_DIAG_inj_burst l) 1)

def execCellRetire (m : Master) (c : Fin 3072) (retire : Bool) (s : State) : Host.Outcome State Fault Refusal :=
  .next (s.fieldWrite m (F.WIN_CELL_STAT_retire c) (b2n retire))

def execCellRelease (m : Master) (c : Fin 3072) (s : State) : Host.Outcome State Fault Refusal :=
  .next (s.fieldWrite m (F.WIN_CELL_STAT_release c) 1)

def execOcTallyClear (m : Master) (c : Fin 3072) (s : State) : Host.Outcome State Fault Refusal :=
  .next (s.fieldWrite m (F.EDG_CELL_OC_clr c) 1)

def execPwmCommit (m : Master) (channels : BitVec 16) (s : State) : Host.Outcome State Fault Refusal :=
  .next (s.wordWrite m R.EDG_PWM_COMMIT channels.toNat)

def execPwmForceActive (m : Master) (c : Fin 16) (s : State) : Host.Outcome State Fault Refusal :=
  .next (s.fieldWrite m (F.EDG_PWM_CTL_force c) 2)

def execPwmForceInactive (m : Master) (c : Fin 16) (s : State) : Host.Outcome State Fault Refusal :=
  .next (s.fieldWrite m (F.EDG_PWM_CTL_force c) 3)

def execPwmForceRelease (m : Master) (c : Fin 16) (s : State) : Host.Outcome State Fault Refusal :=
  .next (s.fieldWrite m (F.EDG_PWM_CTL_force c) 0)

/-- A fault input is cleared; `pin` is what its pin reads at the clear. -/
def execFaultInputClear (m : Master) (i : Fin 8) (pin : Bool) (s : State) : Host.Outcome State Fault Refusal :=
  let s := if s.live then s.fltPin i pin 0 else s
  .next (s.fieldWrite m (F.EDG_FLT_STAT_clr i) 1)

def execPmDataWrite (m : Master) (e : Fin 12) (value : W32) (s : State) : Host.Outcome State Fault Refusal :=
  .next (s.wordWrite m (R.ENG_PM_DATA e) value.toNat)

/-- A master reads a window of an engine memory, with the outcome of its SECDED check: a corrected error is counted (R224). Of an
uncorrectable one at a master's read the specification gives no result: the word is a free value (log entry 3). -/
def State.windowRead (s : State) (m : Master) (off : Nat) (corr : Fld) (ecc : Ecc) : State :=
  if !s.live then State.answer (s.masterRead m (privBase + off) 4)
  else match ecc with
    | .ok => State.answer (s.masterRead m (privBase + off) 4)
    | .single => State.answer ((s.bumpF corr 1).masterRead m (privBase + off) 4)
    | .double _ _ =>
      let fv := s.free
      State.answer (leBytes 4 fv.1, (fv.2.masterRead m (privBase + off) 4).2)

def execPmDataRead (m : Master) (e : EngRead) (s : State) : Host.Outcome State Fault Refusal :=
  .next (s.windowRead m (R.ENG_PM_DATA e.engine) (F.ENG_ECC_pm_corr e.engine) e.ecc)

def execDmDataWrite (m : Master) (e : Fin 12) (value : W32) (s : State) : Host.Outcome State Fault Refusal :=
  .next (s.wordWrite m (R.ENG_DM_DATA e) value.toNat)

def execDmDataRead (m : Master) (e : EngRead) (s : State) : Host.Outcome State Fault Refusal :=
  .next (s.windowRead m (R.ENG_DM_DATA e.engine) (F.ENG_ECC_dm_corr e.engine) e.ecc)

def execCoefOpen (m : Master) (e : Fin 12) (s : State) : Host.Outcome State Fault Refusal :=
  .next (s.wordWrite m (R.ENG_COEF_GEN e) (2 ^ 31))

def execCoefClose (m : Master) (e : Fin 12) (s : State) : Host.Outcome State Fault Refusal :=
  .next (s.wordWrite m (R.ENG_COEF_GEN e) (2 ^ 30))

def execInjEnable (m : Master) (e : Fin 12) (s : State) : Host.Outcome State Fault Refusal :=
  .next (s.fieldWrite m (F.ENG_INJ_CTL_inj_en e) 1)

/-- inj_en is written 0: the generator stops at the next tick (R235). -/
def execInjDisable (m : Master) (e : Fin 12) (s : State) : Host.Outcome State Fault Refusal :=
  .next (s.fieldWrite m (F.ENG_INJ_CTL_inj_en e) 0)

def execEvtRaise (m : Master) (code : BitVec 8) (s : State) : Host.Outcome State Fault Refusal :=
  .next (s.wordWrite m R.SCH_EVT_RAISE code.toNat)

def execUrgentRequest (m : Master) (slots : BitVec 4) (s : State) : Host.Outcome State Fault Refusal :=
  .next (s.wordWrite m R.ADC_URG_REQ slots.toNat)

def execSiloArm (m : Master) (k : Fin 4) (s : State) : Host.Outcome State Fault Refusal :=
  .next (s.fieldWrite m (F.REC_SILO_CTL_arm k) 1)

def execSiloDisarm (m : Master) (k : Fin 4) (s : State) : Host.Outcome State Fault Refusal :=
  .next (s.fieldWrite m (F.REC_SILO_CTL_disarm k) 1)

def execSwTrig (m : Master) (k : Fin 4) (s : State) : Host.Outcome State Fault Refusal :=
  .next (s.fieldWrite m (F.REC_SILO_CTL_sw_trig k) 1)

def execSiloRelease (m : Master) (k : Fin 4) (s : State) : Host.Outcome State Fault Refusal :=
  .next (s.fieldWrite m (F.REC_SILO_CTL_release k) 1)

/-- Input latches are cleared (R316); `pins` is what the SAFE_TRIP pins read. -/
def execSafeLatchClear (m : Master) (mask pins : BitVec 8) (s : State) : Host.Outcome State Fault Refusal :=
  let s := if s.live then s.setPins pins.toNat else s
  .next (s.wordWrite m R.SAF_LATCH mask.toNat)

/-- Bits [10:0] of the fault-history word are cleared (R334). -/
def execFaultHistClear (m : Master) (mask : W32) (s : State) : Host.Outcome State Fault Refusal :=
  .next (s.wordWrite m R.SAF_FAULT_HIST (mask.toNat % 2 ^ 11))

def execTripCountClear (m : Master) (s : State) : Host.Outcome State Fault Refusal :=
  .next (s.wordWrite m R.SAF_FAULT_HIST (2 ^ 15))

def execHandover (m : Master) (s : State) : Host.Outcome State Fault Refusal := .next (s.wordWrite m R.RED_CTL 1)

def execRejoin (m : Master) (s : State) : Host.Outcome State Fault Refusal := .next (s.wordWrite m R.RED_CTL 2)

def execFwdRequest (m : Master) (target : Fin 16) (s : State) : Host.Outcome State Fault Refusal :=
  .next (s.wordWrite m R.RED_FWD_REQ target)

/-- The owner names its successor, 0 to 2 (R373). -/
def execOwnerHandover (m : Master) (dest : Fin 3) (s : State) : Host.Outcome State Fault Refusal :=
  .next (s.wordWrite m R.HIF_OWN_CTL (2 ^ 31 + dest))

def execOwnerRelease (m : Master) (s : State) : Host.Outcome State Fault Refusal :=
  .next (s.wordWrite m R.HIF_OWN_CTL (2 ^ 31 + 3))

def execRingEnable (m : Master) (p : Fin 2) (r : Fin 5) (value : W32) (s : State) : Host.Outcome State Fault Refusal :=
  .next (s.wordWrite m (R.HIF_RING_CFG p r) value.toNat)

def execMailboxGo (m : Master) (s : State) : Host.Outcome State Fault Refusal := .next (s.wordWrite m R.HIF_MBOX_CTL (2 ^ 31))

def execDmaDisable (m : Master) (c : Fin 16) (s : State) : Host.Outcome State Fault Refusal :=
  .next (s.fieldWrite m (F.HIF_DMA_CTL_disable c) 1)

/-- TIM_OFS_CTL is written with go (R411): `value` gives force_slew and frac. -/
def execOffsetRequest (m : Master) (value : W32) (s : State) : Host.Outcome State Fault Refusal :=
  .next (s.wordWrite m R.TIM_OFS_CTL (setBits value.toNat 31 30 2))

def execAbsoluteSet (m : Master) (s : State) : Host.Outcome State Fault Refusal :=
  .next (s.fieldWrite m F.TIM_OFS_CTL_set_go 1)

def execAnRestart (m : Master) (p : Fin 2) (s : State) : Host.Outcome State Fault Refusal :=
  .next (s.fieldWrite m (F.TIM_ETH_CFG_an_restart p) 1)

def execCanEnable (m : Master) (k : Fin 2) (value : W32) (s : State) : Host.Outcome State Fault Refusal :=
  .next (s.wordWrite m (R.CAN_CFG k) value.toNat)

def execCanPush (m : Master) (k : Fin 2) (s : State) : Host.Outcome State Fault Refusal :=
  .next (s.wordWrite m (R.CAN_CMD k) 1)

/-- A CAN_CMD write of which the row tells whether an attempt of the head is in progress (R436). -/
def State.canCmdWrite (s : State) (m : Master) (k v : Nat) (busy : Bool) : State :=
  if s.live && s.isOwner m then (s.canCmd k v busy).settle else s.wordWrite m (R.CAN_CMD k) v

def execCanAbortHead (m : Master) (k : Fin 2) (busy : Bool) (s : State) : Host.Outcome State Fault Refusal :=
  .next (s.canCmdWrite m k 2 busy)

def execCanFlush (m : Master) (k : Fin 2) (busy : Bool) (s : State) : Host.Outcome State Fault Refusal :=
  .next (s.canCmdWrite m k 4 busy)

def execCanRecover (m : Master) (k : Fin 2) (s : State) : Host.Outcome State Fault Refusal :=
  .next (s.wordWrite m (R.CAN_CMD k) 8)

/-! ### The granary windows (R368, R375, R449) -/

/-- A master reads the granary: the bytes, whether a word read as uncorrectable, and the state after. -/
def State.grnMasterRead (s0 : State) (m : Master) (a n : Nat) (eccs : List Ecc) : List Byte × Bool × State :=
  let s := s0.grnWait
  let r := s.grnCheckBy (reqMaster m) a n eccs
  (r.2.grnRead a n, r.1, r.2)

/-- A master writes the granary; only the owner's write is carried out. -/
def State.grnMasterWrite (s : State) (m : Master) (a : Nat) (bs : List Byte) : State :=
  if s.isOwner m then s.grnWait.grnWriteB a bs
  else (s.bumpF F.HIF_ACC_CNT_denied 1).raiseFrom .writeDenied (masterSource m) (masterNum m) 0 a

/-- A read through BAR2: `eccs` are the outcomes of its words' checks; an uncorrectable word poisons the completion. -/
def execBar2Read (m : Master) (addr n : Nat) (eccs : List Ecc) (s : State) : Host.Outcome State Fault Refusal :=
  if s.live && m != .mspi && decide (addr + n ≤ grnSize) then
    let r := s.grnMasterRead m addr n eccs
    .next { r.2.2 with rdata := r.1, poisoned := r.2.1 }
  else .next s

def execBar2Write (m : Master) (addr : Nat) (data : List Byte) (s : State) : Host.Outcome State Fault Refusal :=
  if s.live && m != .mspi && decide (addr + data.length ≤ grnSize) then .next (s.grnMasterWrite m addr data)
  else .next s

/-! ### The maintenance SPI (R375) -/

/-- Words read from ascending offsets. -/
def State.mspiReads (s : State) (addr : Nat) : Nat → List Byte × State
  | 0 => ([], s)
  | n + 1 =>
    let r := s.masterRead .mspi (addr % 2 ^ 24) 4
    let t := r.2.mspiReads (addr + 4) n
    (r.1 ++ t.1, t.2)

def execMspiRead (addr : BitVec 24) (words : Nat) (s : State) : Host.Outcome State Fault Refusal :=
  .next ((State.answer (s.mspiReads addr.toNat words)).mspiEnd false)

/-- Words written to ascending offsets. -/
def State.mspiWrites (s : State) (addr : Nat) : List W32 → State
  | [] => s
  | w :: t => (s.masterWrite .mspi (addr % 2 ^ 24) 4 w.toNat).mspiWrites (addr + 4) t

/-- Writes of a transaction that began at `before` were discarded (R7, R8, R368, R375). -/
def State.discardedSince (s before : State) : Bool :=
  (s.events.drop before.events.length).any (fun v => v.code == .writeDenied || v.code == .writeNarrow)

/-- A write transaction ends, whose last `bits` bits make no word. -/
def State.mspiPartial (s before : State) (addr bits : Nat) : State :=
  let s := if bits % 32 = 0 then s else s.narrowWrite .mspi addr
  s.mspiEnd (s.discardedSince before)

/-- Whole words, and `bits` further bits that make no word. -/
def execMspiWrite (addr : BitVec 24) (data : List W32) (bits : Nat) (s : State) : Host.Outcome State Fault Refusal :=
  if s.live then
    .next ((s.mspiWrites addr.toNat data).mspiPartial s ((addr.toNat + 4 * data.length) % 2 ^ 24) bits).settle
  else .next s

/-- READ_GRN returns `n` bytes, for as long as clocks continue. -/
def execMspiReadGrn (addr : BitVec 32) (n : Nat) (eccs : List Ecc) (s : State) : Host.Outcome State Fault Refusal :=
  if s.live then
    let r := s.grnMasterRead .mspi addr.toNat n eccs
    .next ({ r.2.2 with rdata := r.1, poisoned := false }.mspiEnd false)
  else .next s

/-- Words written to the granary, one write each. -/
def State.mspiGrnWrites (s : State) (a : Nat) : List W32 → State
  | [] => s
  | w :: t => (s.grnMasterWrite .mspi a (leBytes 4 w.toNat)).mspiGrnWrites (a + 4) t

def execMspiWriteGrn (addr : BitVec 32) (data : List W32) (bits : Nat) (s : State) : Host.Outcome State Fault Refusal :=
  if s.live then .next ((s.mspiGrnWrites addr.toNat data).mspiPartial s (addr.toNat + 4 * data.length) bits)
  else .next s

/-- STATUS answers one byte. -/
def execMspiStatus (s : State) : Host.Outcome State Fault Refusal :=
  let b := s.owner + b2n (bitOf (s.f F.HIF_OWN_STAT_claim_pend) 2) * 4 + b2n s.hif.mspiDiscard * 8 + modeCode s.mode * 16
  .next (if s.live then { s with rdata := leBytes 1 b, poisoned := false }.mspiEnd false else s)

end Sys2Proof.Machine
end

