-- ==== Sys2Proof/Machine/SafetyRows.lean ====
section
/-! DEFINITION. Rows of the safety path: inputs, discrepancies, test pulses, the edge reset (R314 to R329, R476), and the BLOCK sets
that repeat (R92, R323) or arrive on a mirror lane (R354). -/

namespace Sys2Proof.Machine

/-! ### Inputs (R314, R317) -/

/-- A channel reads asserted for `dur` ns: 20 ns or longer acts, below 5 ns does not, and between the two it is open (log entry 3). -/
def State.qualifies (s : State) (dur : Nat) : Bool × State :=
  if dur ≥ 20 then (true, s)
  else if dur < 5 then (false, s)
  else
    let fv := s.free
    (fv.1 % 2 == 1, fv.2)

/-- An assertion on a channel of an enabled pair, outside its test window; `pins` is what the SAFE_TRIP pins read. -/
def execSafetyInputAssert (ch : Fin 8) (dur : Nat) (pins : BitVec 8) (s : State) : Host.Outcome State Fault Refusal :=
  if s.awake then
    let s := s.setPins pins.toNat
    if s.fb (F.SAF_IN_CFG_en (pairOf ch)) && !bitOf s.saf.window ch then
      let r := s.qualifies dur
      .next (if r.1 then (r.2.latchChannels [ch.val]).settle else r.2)
    else .next s
  else .next s

/-- The two channels of an enabled pair have disagreed for more than 2 ms, test windows left out; a disagreement not seen before begins
with this row. -/
def execSafeDiscrep (pair : Fin 4) (pins : BitVec 8) (s : State) : Host.Outcome State Fault Refusal :=
  if s.awake then
    let s := s.setPins pins.toNat
    match s.saf.discFrom.getD pair none with
    | some t =>
      if s.fb (F.SAF_IN_CFG_en pair) && !bitOf s.saf.window pair && !bitOf s.saf.window (pair + 4) then
        let s := (s.advanceCyc (t + 2 * cycPerMs + 1)).orF F.SAF_LATCH_disc (2 ^ pair.val)
        .next ((s.raise .safeDiscrep pair 0 0).faultHist F.SAF_FAULT_HIST_disc)
      else .next s
    | none => .next s
  else .next s

/-! ### Test pulses (R318, R319) -/

/-- The channels that the next pulse tests: side A, or side B, of every enabled pair with test_en. -/
def State.testedMask (s : State) : Nat :=
  ((allChannels.filter (fun ch => decide (4 ≤ ch) == s.saf.tpB && s.fb (F.SAF_IN_CFG_en (pairOf ch))
    && s.fb (F.SAF_IN_CFG_test_en (pairOf ch)))).map (fun ch => 2 ^ ch)).sum

/-- Cycles of a pulse, and of the recovery after it. -/
def State.tpCycles (s : State) : Nat := cyclesOfNs (s.f F.SAF_TEST_CFG_tp_width * 100)

/-- The cycle at which the next pulse starts: on SAFE_TP_A an interval after the pulse before it, on SAFE_TP_B half an interval after the
one on SAFE_TP_A. The first one starts when its row comes (log entry 73). -/
def State.tpDue (s : State) : Nat :=
  match s.saf.tpLastA with
  | none => s.cyc
  | some a => a + s.f F.SAF_TEST_CFG_tp_interval * cycPerMs / (if s.saf.tpB then 2 else 1)

/-- A pulse starts on SAFE_TP_A, and half an interval later on SAFE_TP_B. -/
def execTestPulseStart (s : State) : Host.Outcome State Fault Refusal :=
  if s.awake && s.mode.fromConfigure && s.f F.SAF_TEST_CFG_tp_interval != 0 && s.saf.tpPhase == 0 then
    let s := s.advanceCyc s.tpDue
    .next { s with saf := { s.saf with
      window := s.testedMask, windowSeen := 0, tpPhase := 1, tpStart := s.cyc, tpB := !s.saf.tpB
      tpLastA := if s.saf.tpB then s.saf.tpLastA else some s.cyc
      tpLevelA := s.saf.tpB && s.saf.tpLevelA, tpLevelB := !s.saf.tpB && s.saf.tpLevelB } }
  else .next s

/-- The pulse ends after tp_width × 100 ns: each tested channel is sampled. -/
def execTestPulseEnd (pins : BitVec 8) (s : State) : Host.Outcome State Fault Refusal :=
  if s.awake && s.saf.tpPhase == 1 then
    let s := (s.advanceCyc (s.saf.tpStart + s.tpCycles)).setPins pins.toNat
    .next { s with saf := { s.saf with
      windowSeen := s.saf.window &&& pins.toNat, tpPhase := 2, tpLevelA := true, tpLevelB := true } }
  else .next s

/-- One tested channel passes, or fails. -/
def State.testResult (pins : Nat) (s : State) (ch : Nat) : State :=
  let t := s.f F.SAF_TEST_STAT_test_fail
  if bitOf s.saf.windowSeen ch && !bitOf pins ch then s.setF F.SAF_TEST_STAT_test_fail (setBits t ch ch 0)
  else
    let s := (s.setF F.SAF_TEST_STAT_test_fail (setBits t ch ch 1)).bumpF F.SAF_TEST_STAT_fail_cnt 1
    (s.raise .safeTestFail ch 0 (s.f F.SAF_TEST_STAT_fail_cnt)).faultHist F.SAF_FAULT_HIST_test_fail

/-- The time of a test window counts for no disagreement (R317). -/
def State.windowOver (s : State) : State :=
  let len := s.cyc - s.saf.tpStart
  { s with saf := { s.saf with
      window := 0, windowSeen := 0, tpPhase := 0
      discFrom := (upto 4).map (fun i =>
        let from_ := s.saf.discFrom.getD i none
        if bitOf s.saf.window i || bitOf s.saf.window (i + 4) then from_.map (· + len) else from_) } }

/-- The test window ends after a recovery as long as the pulse: results, then assertions that are still present and failed channels that
count as asserted act. -/
def execTestRecoveryEnd (pins : BitVec 8) (s : State) : Host.Outcome State Fault Refusal :=
  if s.awake && s.saf.tpPhase == 2 then
    let s := s.advanceCyc (s.saf.tpStart + 2 * s.tpCycles)
    let chs := allChannels.filter (fun ch => bitOf s.saf.window ch)
    let s := s.forEach chs (State.testResult pins.toNat)
    let s := s.windowOver.setPins pins.toNat
    .next (s.latchChannels (chs.filter s.channelActs)).settle
  else .next s

/-! ### The edge reset (R326 to R329, R476) -/

/-- 5 s, and the 1 ms and 20 ms of R326, in cycles of 1.6 ns: the detector runs from the monitor oscillator. -/
def pressMax : Nat := 5000 * cycPerMs
def pressMin : Nat := 20 * cycPerMs
def releaseWait : Nat := cycPerMs

/-- The press in progress reaches 5 s. -/
def State.pressStuck (s : State) : State :=
  let s := (s.setF F.SAF_RESET_STAT_stuck 1).mark F.SAF_RESET_STAT_stuck_seen
  (s.raise .resetStuck 0 0 0).faultHist F.SAF_FAULT_HIST_reset_stuck

/-- 5 s have passed since the fall that began the press, and the pin is low. -/
def execResetStuck (s : State) : Host.Outcome State Fault Refusal :=
  match s.saf.press with
  | none => .next s
  | some t =>
    .next (if s.awake && s.saf.rise.isNone && !s.fb F.SAF_RESET_STAT_stuck then (s.advanceCyc (t + pressMax)).pressStuck else s)

/-- The reason a reset is refused for at the release instant, 0 for none (R328); `trig` tells of a trigger in the same cycle. -/
def State.resetReason (s : State) (trig : Bool) : Nat :=
  let blocked := s.mode == .safeBlock
  if !(blocked || s.mode == .boot || s.mode == .configure || s.mode == .commission || s.mode == .muster) then 1
  else if s.inputAsserted then 2
  else if s.tmActive && s.mode.feedsMatrix then 3
  else if blocked && s.fb F.SAF_STAT_arm_low then 4
  else if blocked && s.retConfirmed != some (s.rd R.SAF_CHECK) then 5
  else if s.fb F.SAF_STAT_ret_err then 6
  else if trig || s.trigNow.isSome then 7
  else 0

/-- An accepted reset (R329, R476). -/
def State.resetAccepted (s : State) : State :=
  let s := (s.bumpF F.SAF_RESET_STAT_accepted_cnt 1).setF F.SAF_LATCH_in_latch 0
  if s.mode == .safeBlock then
    let s := ({ s with saf := { s.saf with lockout := false } }).retChanged
    s.enterMode (if s.ctl.fatal then .boot else if s.origin == .diagnostic then .configure else .ready) 0x0F
  else s.latchesCleared

/-- A press from cycle f to cycle r has ended; an eligible one is evaluated. -/
def State.pressEnd (s : State) (f r : Nat) (trig : Bool) : State :=
  let stuck := s.fb F.SAF_RESET_STAT_stuck
  let s := { s with saf := { s.saf with press := none, rise := none } }
  let s := (s.setF F.SAF_RESET_STAT_stuck 0).setF F.SAF_RESET_STAT_pressed 0
  if stuck || decide (r - f < pressMin) || decide (r - f > pressMax) then s
  else
    let why := s.resetReason trig
    if why = 0 then s.resetAccepted.settle
    else ((s.setF F.SAF_RESET_STAT_reason why).bumpF F.SAF_RESET_STAT_refused_cnt 1).raise .resetRefused 0 why 0

/-- 1 ms of high has ended a press. -/
def execResetRelease (pins : BitVec 8) (trig : Bool) (s : State) : Host.Outcome State Fault Refusal :=
  match s.saf.press, s.saf.rise with
  | some f, some r =>
    if s.awake then .next (((s.advanceCyc (r + releaseWait)).setPins pins.toNat).pressEnd f r trig) else .next s
  | _, _ => .next s

/-- SAFE_RST_N falls: a press begins, or goes on through bounce; the 5 s may have passed in the bounce (R327). A fall after 1 ms of high
begins a new press, and the one before has ended with the pins as they last read (log entry 73). -/
def execResetPinFall (s : State) : Host.Outcome State Fault Refusal :=
  if s.awake then
    let s := match s.saf.press, s.saf.rise with
      | some f, some r => if r + releaseWait ≤ s.cyc then s.pressEnd f r false else s
      | _, _ => s
    let s := s.setF F.SAF_RESET_STAT_pressed 1
    match s.saf.press with
    | none => .next { s with saf := { s.saf with press := some s.cyc, rise := none } }
    | some t =>
      let s := { s with saf := { s.saf with rise := none } }
      .next (if s.cyc ≥ t + pressMax ∧ !s.fb F.SAF_RESET_STAT_stuck then s.pressStuck else s)
  else .next s

/-- SAFE_RST_N rises within a press. -/
def execResetPinRise (s : State) : Host.Outcome State Fault Refusal :=
  if s.awake then
    let s := s.setF F.SAF_RESET_STAT_pressed 0
    .next (if s.saf.press.isSome then { s with saf := { s.saf with rise := some s.cyc } } else s)
  else .next s

/-! ### BLOCK sets (R92, R323, R354) -/

/-- The class of the sets that repeat: 0x1 while an input latch is set, else that of the trigger that entered SAFE-BLOCK; in MUSTER
0x1 or 0x2 (R323). -/
def State.repeatClass (s : State) : Nat :=
  if s.f F.SAF_LATCH_in_latch ≠ 0 then 1 else if s.mode == .safeBlock then s.saf.blockClass else 2

/-- One more BLOCK set on each cell lane. -/
def execBlockSetRepeat (s : State) : Host.Outcome State Fault Refusal :=
  .next (if s.awake && s.blockTx then s.forEach (upto 48) (fun s l => s.sendNow l [blockSet s.repeatClass s.entitled]) else s)

/-- A BLOCK set arrives on a mirror lane: only class 0x4 is noted, as the partner's beacon. -/
def execMirrorBlockSet (x : LaneSet) (s : State) : Host.Outcome State Fault Refusal :=
  .next (if s.live && decide (48 ≤ x.lane.val) && setWhole 3 x.set && s.rxDelivers x.lane && x.set.payload.toNat % 16 == 4 then s.modPair (fun p => { p with blockAt := some (p.blockAt.getD s.cyc), blockLast := some s.cyc }) else s)

end Sys2Proof.Machine
end

