-- ==== Sys2Proof/Machine/SchedRows.lean ====
section
/-! DEFINITION. Rows of the Hardware Task Scheduler (R246, R250, R256, R257) and of the dump record (R396 to R398). -/

namespace Sys2Proof.Machine

/-! ### Ticks, slots, dispatch (R246, R250) -/

/-- The next scheduler tick of the period: delayed tasks that are due are released. -/
def execSchedulerTick (s : State) : Host.Outcome State Fault Refusal :=
  let k := s.f F.SCH_STAT_tick + 1
  if s.live && s.seq.running && s.seq.started && decide (k ≤ 63) then
    let s := s.advanceToU (s.pN * 2 ^ 32 + k * s.periodNs * 2 ^ 26)
    .next ((s.catchUp.setF F.SCH_STAT_tick k).expire).plans
  else .next s

/-- CORE_CLK cycles of a load of the slot, and from the choice of a task to its first instruction. -/
def slotCycles : Nat := 40
def dispatchCycles : Nat := 12

/-- The load of an engine's slot that is in progress finishes. -/
def State.slotLoaded (s : State) (e : Nat) : State :=
  match (s.eng e).load with
  | none => s
  | some (tc, from_) =>
    let s := (s.advanceCyc (from_ + slotCycles)).catchUp
    (s.modEng e (fun x => { x with slot := some tc, slotAt := s.cyc, load := none })).plans

/-- The slot has finished loading. -/
def execSlotLoad (e : Fin 12) (s : State) : Host.Outcome State Fault Refusal :=
  if s.live then .next (s.decided.slotLoaded e) else .next s

/-- The histogram bin of a wait in cycles (R260). -/
def histBin (w : Nat) : Nat := if w < 16 then 0 else min 15 (w.log2 - 3)

/-- The first instruction of a task issues: trace or histogram, context, RUNNING. The image of its last save stays in the window of
SCH_CTX (R241). -/
def State.runTask (s : State) (e tc kind : Nat) : State :=
  let c := s.taskCtx tc
  let wait := s.cyc - (s.task tc).relCyc
  let s := s.setTcState tc tcRunning
  let s := (s.setEngState e engRunning s.cyc).setF (F.ENG_TASK_tc e) tc
  let s := (s.modEng e (fun x => { x with ctx := c, slot := none, ldg := none, sig := none })).slotPlan s.cyc e
  let s := if s.f (F.SCH_ENG_CFG_obs_mode e) = 2 then s.bumpF (F.SCH_HIST_count e (histBin wait)) 1 else s
  s.trace kind tc c.pc.toNat (if kind = 2 then min 0xFFFF wait else 0)

/-- The FATAL task has been chosen and has not issued yet: FATAL_DISPATCH, and no DISPATCH, is its row. -/
def State.fatalChosen (s : State) (e : Nat) : Bool := s.ctl.fatal && e == 0 && decide (s.f F.SCH_FATAL_fatal_state ≤ 1)

def execDispatch (e : Fin 12) (s : State) : Host.Outcome State Fault Refusal :=
  let s := s.decided
  match s.engTc e with
  | none => .next s
  | some tc =>
    if s.live && s.engState e == engDispatch && !s.fatalChosen e then
      .next ((s.advanceCyc ((s.eng e).chosen + dispatchCycles)).runTask e tc 2)
    else .next s

/-! ### The dump record (R396 to R398) -/

/-- Where the staging area lies. -/
def State.stageAt (s : State) : Nat := s.f F.HIF_DUMP_CFG_stage * 32768

/-- The blocks of R15, FE0's ENG registers standing for theirs, then those of FE1 to FE11. -/
def dumpChunks : List Nat :=
  [0x00000, 0x10000, 0x20000, 0x30000, 0x40000, 0x50000, 0x60000, 0x80000, 0x90000, 0xA0000, 0xC0000, 0xE0000, 0xE8000, 0xF0000,
   0xF8000, 0xFC000] ++ (upto 11).map (fun i => 0x61000 + i * 0x1000)

/-- A register word as it reads, without the effects of a read. -/
def State.peek (s : State) (off : Nat) : Nat :=
  match lookup off with
  | none => 0
  | some (d, i, j) => s.visible d.reg i j off

/-- The register section, the task section and the note section are laid out in the staging area (R396). -/
def State.stageDump (s : State) : State :=
  if s.fb F.HIF_DUMP_CFG_dump_en then
    let a := s.stageAt
    let s := s.grnWriteA (a + 28672) (List.replicate 4096 0)
    let s := s.grnWriteA (a + 256) (dumpChunks.flatMap (fun b => (upto 256).flatMap (fun k => leBytes 4 (s.peek (b + 4 * k)))))
    s.grnWriteA (a + 27904) (allTasks.flatMap (fun n => leBytes 4 (s.rd (R.SCH_TC_STAT n))))
  else s

/-- The regions of the record as (index, length, granary address). -/
def State.dumpRegions (s : State) : List (Nat × Nat × Nat) :=
  (upto 8).filterMap (fun i =>
    let n := s.f (F.HIF_DUMP_RGN_len i) * 4096
    if n = 0 then none else some (i, n, s.f (F.HIF_DUMP_RGN_addr i) * 4096))

/-- Regions cut to `room` bytes, from the last one backwards. -/
def cutRegions : List (Nat × Nat × Nat) → Nat → List (Nat × Nat × Nat)
  | [], _ => []
  | (i, n, a) :: t, room => (i, min n room, a) :: cutRegions t (room - min n room)

/-- The section table: registers, tasks, note, then the regions one after another. -/
def dumpTable (stage : Nat) (regions : List (Nat × Nat × Nat)) : List Byte :=
  let entry (kind idx off len src : Nat) : List Byte :=
    leBytes 1 kind ++ leBytes 1 idx ++ leBytes 2 0 ++ leBytes 4 off ++ leBytes 4 len ++ leBytes 4 src
  let rec go : List (Nat × Nat × Nat) → Nat → List Byte
    | [], _ => []
    | (i, n, a) :: t, off => entry 4 i off n a ++ go t (off + n)
  let t := entry 1 0 256 27648 (stage + 256) ++ entry 2 0 27904 768 (stage + 27904) ++ entry 3 0 28672 4096 (stage + 28672)
    ++ go regions 32768
  t ++ List.replicate (192 - t.length) 0

/-- The 256 header bytes, for the bytes of the record after them; `b7` is byte 7. -/
def State.dumpHeader (s : State) (regions : List (Nat × Nat × Nat)) (b7 : Nat) (body : List Byte) : List Byte :=
  leBytes 4 0x504D5544 ++ leBytes 2 1 ++ leBytes 1 (3 + regions.length) ++ leBytes 1 b7 ++ leBytes 4 (256 + body.length)
    ++ leBytes 1 (s.f F.GLB_MODE_LOG_cause) ++ leBytes 1 s.hif.fatalMode ++ leBytes 1 s.hif.fatalEng ++ leBytes 1 s.hif.fatalCode
    ++ leBytes 8 (timeWord s.hif.fatalAt) ++ leBytes 4 s.hif.fatalPeriod ++ leBytes 2 s.hif.fatalPc ++ leBytes 2 0
    ++ leBytes 4 (s.rd R.GLB_DEVICE_ID) ++ leBytes 4 (s.rd R.GLB_IMAGE_VER) ++ leBytes 4 (s.rd R.RED_SIG) ++ leBytes 4 (crc32c body)
    ++ dumpTable s.stageAt regions ++ List.replicate 16 0

/-- The bytes of the record after its header. -/
def State.dumpBody (s : State) (regions : List (Nat × Nat × Nat)) : List Byte :=
  s.grnRead (s.stageAt + 256) 32512 ++ regions.flatMap (fun r => s.grnRead r.2.2 r.2.1)

/-- The record goes into the next element of a port's dump ring, and DUMP_DONE is raised. -/
def State.dumpTo (s : State) (p : Nat) : State :=
  if !s.ringOn p ringDump then s
  else
    let x := s.ring (ringKey p ringDump)
    let size := s.f (F.HIF_RING_CFG_elem p ringDump) * 65536
    let all := s.dumpRegions
    let regions := cutRegions all (size - 32768)
    let b7 := b2n (decide (regions ≠ all)) + b2n x.phase * 128
    let body := s.dumpBody regions
    let bytes := s.dumpHeader regions b7 body ++ body
    let s := s.hostWrite p (s.ringBase p ringDump + x.idx * size) bytes
    ((s.ringAdvance p ringDump (ringKey p ringDump)).msix p 14).raise .dumpDone p b7 bytes.length

/-- The outcome of a word's check that a free value stands for; every outcome is that of some value. -/
def freeEcc (v : BitVec 64) : Ecc :=
  if v.getLsbD 0 then (if v.getLsbD 1 then .double (Fin.ofNat 64 (bitsOf v.toNat 7 2)) (Fin.ofNat 64 (bitsOf v.toNat 13 8)) else .single)
  else .ok

/-- The outcomes of the checks of `n` words for which the row has no operand, as free values (log entry 3). -/
def State.freeEccs (s : State) (n : Nat) : List Ecc × State :=
  ((upto n).map (fun i => freeEcc (Config.freeValue (s.freeCtr + i))), { s with freeCtr := s.freeCtr + n })

/-- The header is completed and the record copied into every enabled dump ring (R397). The words read are checked, those of the
staging area and then those of the regions. -/
def execDumpCopyDone (s : State) : Host.Outcome State Fault Refusal :=
  if s.live && s.hif.dumpBusy then
    let regions := s.dumpRegions
    let free := s.freeEccs (4096 + (regions.map (fun r => r.2.1 / 8)).sum)
    let eccs := free.1
    let s := free.2
    let s := (s.grnCheck reqTel s.stageAt 32768 eccs).2
    let s := (regions.foldl (fun (acc : State × List Ecc) r =>
      ((acc.1.grnCheck reqTel r.2.2 r.2.1 acc.2).2, acc.2.drop (r.2.1 / 8))) (s, eccs.drop 4096)).1
    let s := s.grnWriteA s.stageAt (s.dumpHeader regions 0 (s.dumpBody regions))
    let s := s.forEach [0, 1] State.dumpTo
    .next (s.modHif (fun h => { h with dumpBusy := false }))
  else .next s

/-! ### The FATAL task (R256, R257) -/

/-- The staging area is prepared after a fatal error, whether TC0 is enabled or not (R396). -/
def State.stageOnce (s : State) : State :=
  if s.ctl.fatal && s.hif.stageDue then (s.stageDump).modHif (fun h => { h with stageDue := false }) else s

/-- The slot of FE0 has loaded the FATAL task and FE0 is in DISPATCH (R250, R256). -/
def State.fatalChoose (s : State) : State :=
  let s := s.decided
  if s.engState 0 = engDispatch then s else ((s.slotPlan s.cyc 0).slotLoaded 0).decided

/-- The staging area is prepared, and TC0 is dispatched on FE0 once the PLL is locked: its first instruction issues 12 cycles after the slot
holds it. -/
def execFatalDispatch (s : State) : Host.Outcome State Fault Refusal :=
  if s.live && s.ctl.fatal then
    let s := s.stageOnce
    let t := s.fatalChoose
    if s.fatalChosen 0 && (s.fatalWaits || s.engState 0 == engDispatch) && t.engState 0 == engDispatch then
      let t := (t.advanceCyc ((t.eng 0).chosen + dispatchCycles)).setF F.SCH_FATAL_fatal_state 2
      .next ({ t with sched := { t.sched with fatalCyc := t.cyc } }.runTask 0 0 8)
    else .next s
  else .next s

/-- The FATAL task has not yielded within fatal_limit milliseconds of its dispatch. -/
def execFatalTimeout (s : State) : Host.Outcome State Fault Refusal :=
  if s.live && s.ctl.fatal && s.f F.SCH_FATAL_fatal_state == 2 then
    let s := (s.advanceCyc (s.sched.fatalCyc + s.f F.SCH_FATAL_fatal_limit * cycPerMs)).catchUp
    let s := if s.engTc 0 == some 0 then s.freeEngine 0 engHalted else s.setEngState 0 engHalted s.cyc
    let s := (s.dropInstance 0 tcStopped).setF F.SCH_FATAL_fatal_state 4
    .next (s.raise .fatalTimeout 0 0 0)
  else .next s

end Sys2Proof.Machine
end

