-- ==== Sys2Proof/Machine/Dispatch.lean ====
section
/-! DEFINITION. The dispatch: one arm for each command, one direct call of its meaning. -/

namespace Sys2Proof.Machine

/-- The effect of a command on the state (all but the queue, which `step` has already taken it from). -/
def exec (i : Instr) (s : State) : Host.Outcome State Fault Refusal :=
  match i with
  | .registerWrite m addr size value => Sys2Proof.Machine.execRegisterWrite m addr size value s
  | .readClear m addr size => Sys2Proof.Machine.execReadClear m addr size s
  | .snapshotRead m addr size => Sys2Proof.Machine.execSnapshotRead m addr size s
  | .pllLock => Sys2Proof.Machine.execPllLock s
  | .refLost => Sys2Proof.Machine.execRefLost s
  | .lockLost => Sys2Proof.Machine.execLockLost s
  | .lrefLost x => Sys2Proof.Machine.execLrefLost x s
  | .periodTick => Sys2Proof.Machine.execPeriodTick s
  | .gatherLaunch => Sys2Proof.Machine.execGatherLaunch s
  | .timeSetLaunch => Sys2Proof.Machine.execTimeSetLaunch s
  | .gatherFrame l f t => Sys2Proof.Machine.execGatherFrame l f t s
  | .gatherDeadline started => Sys2Proof.Machine.execGatherDeadline started s
  | .availabilityCheck => Sys2Proof.Machine.execAvailabilityCheck s
  | .chargeOk => Sys2Proof.Machine.execChargeOk s
  | .orderLaunch => Sys2Proof.Machine.execOrderLaunch s
  | .requestBoot m => Sys2Proof.Machine.execRequestBoot m s
  | .requestConfigure m => Sys2Proof.Machine.execRequestConfigure m s
  | .requestCommission m => Sys2Proof.Machine.execRequestCommission m s
  | .requestPrecharge m => Sys2Proof.Machine.execRequestPrecharge m s
  | .requestReady m => Sys2Proof.Machine.execRequestReady m s
  | .requestRun m => Sys2Proof.Machine.execRequestRun m s
  | .requestDiagnostic m => Sys2Proof.Machine.execRequestDiagnostic m s
  | .modeRequestEval => Sys2Proof.Machine.execModeRequestEval s
  | .seqRunStart m => Sys2Proof.Machine.execSeqRunStart m s
  | .seqRunStop m => Sys2Proof.Machine.execSeqRunStop m s
  | .allPowerRemoved => Sys2Proof.Machine.execAllPowerRemoved s
  | .vbatApplied => Sys2Proof.Machine.execVbatApplied s
  | .mainRailsRemoved => Sys2Proof.Machine.execMainRailsRemoved s
  | .porstAssert => Sys2Proof.Machine.execPorstAssert s
  | .porstRelease bootSel pcieBif => Sys2Proof.Machine.execPorstRelease bootSel pcieBif s
  | .railFault rail => Sys2Proof.Machine.execRailFault rail s
  | .railRecover => Sys2Proof.Machine.execRailRecover s
  | .railWarn rail => Sys2Proof.Machine.execRailWarn rail s
  | .blockBeacon => Sys2Proof.Machine.execBlockBeacon s
  | .bootReadDone answered image => Sys2Proof.Machine.execBootReadDone answered image s
  | .bootGo m => Sys2Proof.Machine.execBootGo m s
  | .bootCheckDone => Sys2Proof.Machine.execBootCheckDone s
  | .bootLoadDone => Sys2Proof.Machine.execBootLoadDone s
  | .checkValueDone => Sys2Proof.Machine.execCheckValueDone s
  | .safConfirm m value => Sys2Proof.Machine.execSafConfirm m value s
  | .pendingMusterEntry => Sys2Proof.Machine.execPendingMusterEntry s
  | .musterDone => Sys2Proof.Machine.execMusterDone s
  | .helloSend l => Sys2Proof.Machine.execHelloSend l s
  | .helloReceived l h => Sys2Proof.Machine.execHelloReceived l h s
  | .trainingTimeout l => Sys2Proof.Machine.execTrainingTimeout l s
  | .trainingRetry l => Sys2Proof.Machine.execTrainingRetry l s
  | .echoMeasureReturn l d rsum => Sys2Proof.Machine.execEchoMeasureReturn l d rsum s
  | .discoveryTimeout l => Sys2Proof.Machine.execDiscoveryTimeout l s
  | .chainSplit k j => Sys2Proof.Machine.execChainSplit k j s
  | .blockSetRepeat => Sys2Proof.Machine.execBlockSetRepeat s
  | .markerSend l => Sys2Proof.Machine.execMarkerSend l s
  | .markerReceived l x => Sys2Proof.Machine.execMarkerReceived l x s
  | .blockLockAcquired valid => Sys2Proof.Machine.execBlockLockAcquired valid s
  | .blockLockLost l badSync signal inFrame => Sys2Proof.Machine.execBlockLockLost l badSync signal inFrame s
  | .chainRelockTimeout l => Sys2Proof.Machine.execChainRelockTimeout l s
  | .idleDelete x => Sys2Proof.Machine.execIdleDelete x s
  | .idleInsert x => Sys2Proof.Machine.execIdleInsert x s
  | .mirrorMarkerPair => Sys2Proof.Machine.execMirrorMarkerPair s
  | .mirrorMarkerReceived m0 m1 skew => Sys2Proof.Machine.execMirrorMarkerReceived m0 m1 skew s
  | .mirrorMarkerTimeout => Sys2Proof.Machine.execMirrorMarkerTimeout s
  | .mirrorBlockSet x => Sys2Proof.Machine.execMirrorBlockSet x s
  | .fomMeasure l eyeV eyeH centreV centreH => Sys2Proof.Machine.execFomMeasure l eyeV eyeH centreV centreH s
  | .adaptFreeze idles => Sys2Proof.Machine.execAdaptFreeze idles s
  | .adaptResume others => Sys2Proof.Machine.execAdaptResume others s
  | .eqRxWrite m l value => Sys2Proof.Machine.execEqRxWrite m l value s
  | .injectSingle m l => Sys2Proof.Machine.execInjectSingle m l s
  | .injectBurst m l => Sys2Proof.Machine.execInjectBurst m l s
  | .checkerLock x => Sys2Proof.Machine.execCheckerLock x s
  | .checkerLoss l bit more => Sys2Proof.Machine.execCheckerLoss l bit more s
  | .armRequest e => Sys2Proof.Machine.execArmRequest e s
  | .selectionHandover u => Sys2Proof.Machine.execSelectionHandover u s
  | .rankComplete u => Sys2Proof.Machine.execRankComplete u s
  | .tallyUpdate u => Sys2Proof.Machine.execTallyUpdate u s
  | .cellRetire m c retire => Sys2Proof.Machine.execCellRetire m c retire s
  | .cellRelease m c => Sys2Proof.Machine.execCellRelease m c s
  | .armPlanDone u => Sys2Proof.Machine.execArmPlanDone u s
  | .planComplete => Sys2Proof.Machine.execPlanComplete s
  | .ocTallyClear m c => Sys2Proof.Machine.execOcTallyClear m c s
  | .pwmReload c fltPins => Sys2Proof.Machine.execPwmReload c fltPins s
  | .pwmCompare c isOn => Sys2Proof.Machine.execPwmCompare c isOn s
  | .pwmCommit m channels => Sys2Proof.Machine.execPwmCommit m channels s
  | .pwmForceActive m c => Sys2Proof.Machine.execPwmForceActive m c s
  | .pwmForceInactive m c => Sys2Proof.Machine.execPwmForceInactive m c s
  | .pwmForceRelease m c => Sys2Proof.Machine.execPwmForceRelease m c s
  | .dlCalibrate inRange code => Sys2Proof.Machine.execDlCalibrate inRange code s
  | .maskExpire src => Sys2Proof.Machine.execMaskExpire src s
  | .faultInputAssert k cycles => Sys2Proof.Machine.execFaultInputAssert k cycles s
  | .faultInputClear m k pin => Sys2Proof.Machine.execFaultInputClear m k pin s
  | .syncOutPulse => Sys2Proof.Machine.execSyncOutPulse s
  | .syncOutEnd => Sys2Proof.Machine.execSyncOutEnd s
  | .syncInEdge => Sys2Proof.Machine.execSyncInEdge s
  | .syncInTimeout => Sys2Proof.Machine.execSyncInTimeout s
  | .edgeRecord e => Sys2Proof.Machine.execEdgeRecord e s
  | .nop e fetch => Sys2Proof.Machine.execNop e fetch s
  | .mul e fetch => Sys2Proof.Machine.execMul e fetch s
  | .mac e fetch => Sys2Proof.Machine.execMac e fetch s
  | .msu e fetch => Sys2Proof.Machine.execMsu e fetch s
  | .mac2 e fetch => Sys2Proof.Machine.execMac2 e fetch s
  | .macd e fetch data => Sys2Proof.Machine.execMacd e fetch data s
  | .adda e fetch => Sys2Proof.Machine.execAdda e fetch s
  | .suba e fetch => Sys2Proof.Machine.execSuba e fetch s
  | .sha e fetch => Sys2Proof.Machine.execSha e fetch s
  | .absa e fetch => Sys2Proof.Machine.execAbsa e fetch s
  | .nega e fetch => Sys2Proof.Machine.execNega e fetch s
  | .lda e fetch => Sys2Proof.Machine.execLda e fetch s
  | .rnd e fetch => Sys2Proof.Machine.execRnd e fetch s
  | .ext e fetch => Sys2Proof.Machine.execExt e fetch s
  | .clampa e fetch => Sys2Proof.Machine.execClampa e fetch s
  | .add e fetch => Sys2Proof.Machine.execAdd e fetch s
  | .sub e fetch => Sys2Proof.Machine.execSub e fetch s
  | .and e fetch => Sys2Proof.Machine.execAnd e fetch s
  | .or e fetch => Sys2Proof.Machine.execOr e fetch s
  | .xor e fetch => Sys2Proof.Machine.execXor e fetch s
  | .andn e fetch => Sys2Proof.Machine.execAndn e fetch s
  | .shl e fetch => Sys2Proof.Machine.execShl e fetch s
  | .shr e fetch => Sys2Proof.Machine.execShr e fetch s
  | .sar e fetch => Sys2Proof.Machine.execSar e fetch s
  | .cmp e fetch => Sys2Proof.Machine.execCmp e fetch s
  | .mov e fetch => Sys2Proof.Machine.execMov e fetch s
  | .movi e fetch => Sys2Proof.Machine.execMovi e fetch s
  | .sincos e fetch => Sys2Proof.Machine.execSincos e fetch s
  | .tbl e fetch data => Sys2Proof.Machine.execTbl e fetch data s
  | .xli e fetch => Sys2Proof.Machine.execXli e fetch s
  | .xlh e fetch => Sys2Proof.Machine.execXlh e fetch s
  | .xadd e fetch => Sys2Proof.Machine.execXadd e fetch s
  | .xaddd e fetch => Sys2Proof.Machine.execXaddd e fetch s
  | .ld e fetch data => Sys2Proof.Machine.execLd e fetch data s
  | .st e fetch => Sys2Proof.Machine.execSt e fetch s
  | .ldac e fetch data => Sys2Proof.Machine.execLdac e fetch data s
  | .stac e fetch => Sys2Proof.Machine.execStac e fetch s
  | .ldg e fetch => Sys2Proof.Machine.execLdg e fetch s
  | .ldgReturn e ecc => Sys2Proof.Machine.execLdgReturn e ecc s
  | .stg e fetch => Sys2Proof.Machine.execStg e fetch s
  | .writeBufferDrain e => Sys2Proof.Machine.execWriteBufferDrain e s
  | .br e fetch => Sys2Proof.Machine.execBr e fetch s
  | .jmp e fetch => Sys2Proof.Machine.execJmp e fetch s
  | .call e fetch => Sys2Proof.Machine.execCall e fetch s
  | .ret e fetch => Sys2Proof.Machine.execRet e fetch s
  | .loop e fetch => Sys2Proof.Machine.execLoop e fetch s
  | .yield e fetch => Sys2Proof.Machine.execYield e fetch s
  | .wait e fetch => Sys2Proof.Machine.execWait e fetch s
  | .sig e fetch => Sys2Proof.Machine.execSig e fetch s
  | .sigEvent e => Sys2Proof.Machine.execSigEvent e s
  | .sendWinnow e fetch data => Sys2Proof.Machine.execSendWinnow e fetch data s
  | .sendEdgePlanner e fetch data => Sys2Proof.Machine.execSendEdgePlanner e fetch data s
  | .dmak e fetch => Sys2Proof.Machine.execDmak e fetch s
  | .mvs e fetch => Sys2Proof.Machine.execMvs e fetch s
  | .msv e fetch => Sys2Proof.Machine.execMsv e fetch s
  | .inj e fetch => Sys2Proof.Machine.execInj e fetch s
  | .cap e fetch => Sys2Proof.Machine.execCap e fetch s
  | .trap e fetch => Sys2Proof.Machine.execTrap e fetch s
  | .trapFault e fetch => Sys2Proof.Machine.execTrapFault e fetch s
  | .pmDataWrite m e value => Sys2Proof.Machine.execPmDataWrite m e value s
  | .pmDataRead m e => Sys2Proof.Machine.execPmDataRead m e s
  | .dmDataWrite m e value => Sys2Proof.Machine.execDmDataWrite m e value s
  | .dmDataRead m e => Sys2Proof.Machine.execDmDataRead m e s
  | .coefOpen m e => Sys2Proof.Machine.execCoefOpen m e s
  | .coefClose m e => Sys2Proof.Machine.execCoefClose m e s
  | .injEnable m e => Sys2Proof.Machine.execInjEnable m e s
  | .injDisable m e => Sys2Proof.Machine.execInjDisable m e s
  | .injUpdate e => Sys2Proof.Machine.execInjUpdate e s
  | .schedulerTick => Sys2Proof.Machine.execSchedulerTick s
  | .slotLoad e => Sys2Proof.Machine.execSlotLoad e s
  | .dispatch e => Sys2Proof.Machine.execDispatch e s
  | .evtRaise m code => Sys2Proof.Machine.execEvtRaise m code s
  | .fatalDispatch => Sys2Proof.Machine.execFatalDispatch s
  | .fatalTimeout => Sys2Proof.Machine.execFatalTimeout s
  | .adcResult k code ovr => Sys2Proof.Machine.execAdcResult k code ovr s
  | .adcConversionEnd k => Sys2Proof.Machine.execAdcConversionEnd k s
  | .adcRoundTrigger => Sys2Proof.Machine.execAdcRoundTrigger s
  | .adcCalStart => Sys2Proof.Machine.execAdcCalStart s
  | .adcCalDone ok => Sys2Proof.Machine.execAdcCalDone ok s
  | .urgentRequest m slots => Sys2Proof.Machine.execUrgentRequest m slots s
  | .adcSnapshot => Sys2Proof.Machine.execAdcSnapshot s
  | .snapshotRecordDone => Sys2Proof.Machine.execSnapshotRecordDone s
  | .siloArm m k => Sys2Proof.Machine.execSiloArm m k s
  | .siloDisarm m k => Sys2Proof.Machine.execSiloDisarm m k s
  | .swTrig m k => Sys2Proof.Machine.execSwTrig m k s
  | .siloRelease m k => Sys2Proof.Machine.execSiloRelease m k s
  | .cellEntryWrite lost => Sys2Proof.Machine.execCellEntryWrite lost s
  | .waveTick k lost => Sys2Proof.Machine.execWaveTick k lost s
  | .recordDone k => Sys2Proof.Machine.execRecordDone k s
  | .trigInEdge k rising => Sys2Proof.Machine.execTrigInEdge k rising s
  | .trigInRearm k => Sys2Proof.Machine.execTrigInRearm k s
  | .tbSlotSend => Sys2Proof.Machine.execTbSlotSend s
  | .tbMessageReceived slot msg rt => Sys2Proof.Machine.execTbMessageReceived slot msg rt s
  | .tbRelink => Sys2Proof.Machine.execTbRelink s
  | .tbClkLoss => Sys2Proof.Machine.execTbClkLoss s
  | .safetyInputAssert ch dur pins => Sys2Proof.Machine.execSafetyInputAssert ch dur pins s
  | .safeDiscrep pair pins => Sys2Proof.Machine.execSafeDiscrep pair pins s
  | .testPulseStart => Sys2Proof.Machine.execTestPulseStart s
  | .testPulseEnd pins => Sys2Proof.Machine.execTestPulseEnd pins s
  | .testRecoveryEnd pins => Sys2Proof.Machine.execTestRecoveryEnd pins s
  | .resetPinFall => Sys2Proof.Machine.execResetPinFall s
  | .resetPinRise => Sys2Proof.Machine.execResetPinRise s
  | .resetRelease pins trig => Sys2Proof.Machine.execResetRelease pins trig s
  | .resetStuck => Sys2Proof.Machine.execResetStuck s
  | .safeLatchClear m mask pins => Sys2Proof.Machine.execSafeLatchClear m mask pins s
  | .faultHistClear m mask => Sys2Proof.Machine.execFaultHistClear m mask s
  | .tripCountClear m => Sys2Proof.Machine.execTripCountClear m s
  | .retentionWrite => Sys2Proof.Machine.execRetentionWrite s
  | .retentionReadback bytes => Sys2Proof.Machine.execRetentionReadback bytes s
  | .ilkInChange reading => Sys2Proof.Machine.execIlkInChange reading s
  | .absentClaim => Sys2Proof.Machine.execAbsentClaim s
  | .lostClaim => Sys2Proof.Machine.execLostClaim s
  | .ilkOpen => Sys2Proof.Machine.execIlkOpen s
  | .frozenClear => Sys2Proof.Machine.execFrozenClear s
  | .statusFrameLaunch => Sys2Proof.Machine.execStatusFrameLaunch s
  | .statusFrame f t => Sys2Proof.Machine.execStatusFrame f t s
  | .inputFrameLaunch => Sys2Proof.Machine.execInputFrameLaunch s
  | .inputFrame f => Sys2Proof.Machine.execInputFrame f s
  | .mirrorPoint => Sys2Proof.Machine.execMirrorPoint s
  | .joinFrameLaunch => Sys2Proof.Machine.execJoinFrameLaunch s
  | .joinFrame f => Sys2Proof.Machine.execJoinFrame f s
  | .handover m => Sys2Proof.Machine.execHandover m s
  | .rejoin m => Sys2Proof.Machine.execRejoin m s
  | .fwdRequest m target => Sys2Proof.Machine.execFwdRequest m target s
  | .portDown p => Sys2Proof.Machine.execPortDown p s
  | .claim p v => Sys2Proof.Machine.execClaim p v s
  | .keepalive p v => Sys2Proof.Machine.execKeepalive p v s
  | .ownerHandover m dest => Sys2Proof.Machine.execOwnerHandover m dest s
  | .ownerRelease m => Sys2Proof.Machine.execOwnerRelease m s
  | .handoverComplete => Sys2Proof.Machine.execHandoverComplete s
  | .leaseExpire => Sys2Proof.Machine.execLeaseExpire s
  | .mspiRead addr words => Sys2Proof.Machine.execMspiRead addr words s
  | .mspiWrite addr data bits => Sys2Proof.Machine.execMspiWrite addr data bits s
  | .mspiReadGrn addr words eccs => Sys2Proof.Machine.execMspiReadGrn addr words eccs s
  | .mspiWriteGrn addr data bits => Sys2Proof.Machine.execMspiWriteGrn addr data bits s
  | .mspiStatus => Sys2Proof.Machine.execMspiStatus s
  | .mspiClaim => Sys2Proof.Machine.execMspiClaim s
  | .mspiKeepalive => Sys2Proof.Machine.execMspiKeepalive s
  | .cmdDoorbell p v => Sys2Proof.Machine.execCmdDoorbell p v s
  | .eventHeadDoorbell p v => Sys2Proof.Machine.execEventHeadDoorbell p v s
  | .telHeadDoorbell p a v => Sys2Proof.Machine.execTelHeadDoorbell p a v s
  | .dumpHeadDoorbell p v => Sys2Proof.Machine.execDumpHeadDoorbell p v s
  | .ringEnable m p r value => Sys2Proof.Machine.execRingEnable m p r value s
  | .cmdNop p entry => Sys2Proof.Machine.execCmdNop p entry s
  | .cmdWrite p entry => Sys2Proof.Machine.execCmdWrite p entry s
  | .cmdWriteDm p entry => Sys2Proof.Machine.execCmdWriteDm p entry s
  | .cmdWriteGrn p entry => Sys2Proof.Machine.execCmdWriteGrn p entry s
  | .cmdEvent p entry => Sys2Proof.Machine.execCmdEvent p entry s
  | .cmdFence p entry => Sys2Proof.Machine.execCmdFence p entry s
  | .fenceComplete => Sys2Proof.Machine.execFenceComplete s
  | .mailboxGo m => Sys2Proof.Machine.execMailboxGo m s
  | .eventWrite lost => Sys2Proof.Machine.execEventWrite lost s
  | .eventVectorTimeout p => Sys2Proof.Machine.execEventVectorTimeout p s
  | .statusBlockWrite p => Sys2Proof.Machine.execStatusBlockWrite p s
  | .telRecordWritten p a => Sys2Proof.Machine.execTelRecordWritten p a s
  | .dumpCopyDone => Sys2Proof.Machine.execDumpCopyDone s
  | .dmaDoorbell p c v => Sys2Proof.Machine.execDmaDoorbell p c v s
  | .dmaDescriptorFetch c bytes ok eccs => Sys2Proof.Machine.execDmaDescriptorFetch c bytes ok eccs s
  | .dmaDescriptorEnd c data err eccs => Sys2Proof.Machine.execDmaDescriptorEnd c data err eccs s
  | .dmaDisable m c => Sys2Proof.Machine.execDmaDisable m c s
  | .dmaDisableDone c => Sys2Proof.Machine.execDmaDisableDone c s
  | .bar2Read m addr n eccs => Sys2Proof.Machine.execBar2Read m addr n eccs s
  | .bar2Write m addr data => Sys2Proof.Machine.execBar2Write m addr data s
  | .offsetRequest m value => Sys2Proof.Machine.execOffsetRequest m value s
  | .absoluteSet m => Sys2Proof.Machine.execAbsoluteSet m s
  | .slewEnd => Sys2Proof.Machine.execSlewEnd s
  | .rampUpdate => Sys2Proof.Machine.execRampUpdate s
  | .timRequestApply => Sys2Proof.Machine.execTimRequestApply s
  | .ethLinkChange p up ability => Sys2Proof.Machine.execEthLinkChange p up ability s
  | .anRestart m p => Sys2Proof.Machine.execAnRestart m p s
  | .ethFrameReceived p frame fcsOk t => Sys2Proof.Machine.execEthFrameReceived p frame fcsOk t s
  | .txDescriptorPoll p eccs => Sys2Proof.Machine.execTxDescriptorPoll p eccs s
  | .ethFrameSent p t => Sys2Proof.Machine.execEthFrameSent p t s
  | .espHold => Sys2Proof.Machine.execEspHold s
  | .espHoldRelease => Sys2Proof.Machine.execEspHoldRelease s
  | .canEnable m k value => Sys2Proof.Machine.execCanEnable m k value s
  | .canModeApply k => Sys2Proof.Machine.execCanModeApply k s
  | .canPush m k => Sys2Proof.Machine.execCanPush m k s
  | .canFeedPoll k eccs => Sys2Proof.Machine.execCanFeedPoll k eccs s
  | .canAbortHead m k busy => Sys2Proof.Machine.execCanAbortHead m k busy s
  | .canFlush m k busy => Sys2Proof.Machine.execCanFlush m k busy s
  | .canRecover m k => Sys2Proof.Machine.execCanRecover m k s
  | .canTxAttemptEnd k how sof tdc => Sys2Proof.Machine.execCanTxAttemptEnd k how sof tdc s
  | .canRecoveryDone k => Sys2Proof.Machine.execCanRecoveryDone k s
  | .canFrameReceived k f sof err => Sys2Proof.Machine.execCanFrameReceived k f sof err s
  | .canObjectWrite k => Sys2Proof.Machine.execCanObjectWrite k s
  | .eccWriteback bank => Sys2Proof.Machine.execEccWriteback bank s
  | .granaryInitDone => Sys2Proof.Machine.execGranaryInitDone s
  | .patrolScrub ecc => Sys2Proof.Machine.execPatrolScrub ecc s
  | .dieTempMeasure code => Sys2Proof.Machine.execDieTempMeasure code s
  | .portLinkUp p speed width => Sys2Proof.Machine.execPortLinkUp p speed width s
  | .lrefReturn b => Sys2Proof.Machine.execLrefReturn b s

end Sys2Proof.Machine
end

