-- ==== Sys2Proof/Safety.lean ====
section
/-! DEFINITION. What counts as a sound state and a safe step: memories in canonical form, counts of bounded width in their width, and
a step that answers a next state. -/

namespace Sys2Proof.Machine

/-- The canonical form of a byte memory: addresses strictly rising, and no entry equal to 0, which an unlisted address reads as. -/
def Memory.wf (m : List Host.Cell) : Bool := twf (0 : Byte) none m

/-- The canonical form of the register table: offsets strictly rising, and no entry equal to the register's reset value. -/
def Registers.wf : Option Nat → List (Nat × BitVec 32) → Bool
  | _, [] => true
  | none, p :: t => decide (p.2 ≠ BitVec.ofNat 32 (resetVal p.1)) && Registers.wf (some p.1) t
  | some lo, p :: t => decide (lo < p.1) && decide (p.2 ≠ BitVec.ofNat 32 (resetVal p.1)) && Registers.wf (some p.1) t

/-- The granary, the host memory the device has written, the data memories and the register table are in canonical form, so that
equal contents are equal data; so is the register table to which a mode entry of this cycle may be taken back (R49). -/
def State.Canonical (s : State) : Prop :=
  Memory.wf s.grn = true ∧ Memory.wf s.hostMem = true ∧ Memory.wf s.dm = true ∧ Registers.wf none s.regs = true
    ∧ s.undo.all (fun u => Registers.wf none u.regs) = true

/-- The number of the next event has its 32 bits (R388). -/
def State.SeqInRange (s : State) : Prop := s.evSeq < 2 ^ 32

/-- Both hold. -/
def State.Sound (s : State) : Prop := s.Canonical ∧ s.SeqInRange

/-- A step is safe where it answers a next state: no command faults and none is refused. -/
def State.StepsOn (s : State) : Prop := ∃ t, step s = .next t

/-! ### Terms of the claims about the field engines -/

/-- The word at an engine's pc is issued: the engine can issue, the word spells `i`, and `s0` is the state with a corrected fetch error
counted (R224). -/
abbrev State.Fetched (s : State) (e : Fin 12) (f : Ecc) (i : EngInstr) (s0 : State) : Prop :=
  s.canIssue e = true ∧ engDecode (s.pmWord e (s.eng e).ctx.pc.toNat) = some i
    ∧ ((f = .ok ∧ s0 = s) ∨ (f = .single ∧ s0 = s.bumpF (F.ENG_ECC_pm_corr e) 1))

/-- Nothing but the context of engine e and its counts of ENG_ARITH differs, and in the context neither the call stack nor a
circular descriptor. -/
def State.EngFrame (s t : State) (e : Fin 12) : Prop :=
  t.eng e = { s.eng e with ctx := (t.eng e).ctx } ∧ (∀ j : Nat, j ≠ e → t.eng j = s.eng j)
    ∧ (∀ off, off ≠ R.ENG_ARITH e → t.rd off = s.rd off) ∧ t = { s with engines := t.engines, regs := t.regs, just := t.just, justAt := t.justAt }
    ∧ (t.eng e).ctx.stack = (s.eng e).ctx.stack ∧ (t.eng e).ctx.cb6 = (s.eng e).ctx.cb6
    ∧ (t.eng e).ctx.cl6 = (s.eng e).ctx.cl6 ∧ (t.eng e).ctx.cb7 = (s.eng e).ctx.cb7 ∧ (t.eng e).ctx.cl7 = (s.eng e).ctx.cl7

/-- The limits of R210: the first value limited to 40 bits, and the second limited to 32 where s asks for it. -/
def lim40 (v : Int) : Int := max (-(2 ^ 39)) (min v (2 ^ 39 - 1))
def lim32 (s : Bool) (v : Int) : Int := if s then max (-(2 ^ 31)) (min v (2 ^ 31 - 1)) else v

/-- An outcome in which accumulator a took the exact result v through R210, with the flags of R212, and nothing else changed. -/
def State.AccStep (s : State) (o : Host.Outcome State Fault Refusal) (e : Fin 12) (a : Fin 4) (v : Int) (sat : Bool) : Prop :=
  ∃ t, o = .next t ∧ State.EngFrame s t e
    ∧ (t.eng e).ctx.aS a = lim32 sat (lim40 v)
    ∧ (∀ b, b ≠ a → (t.eng e).ctx.aS b = (s.eng e).ctx.aS b)
    ∧ (t.eng e).ctx.d = (s.eng e).ctx.d ∧ (t.eng e).ctx.x = (s.eng e).ctx.x
    ∧ (t.eng e).ctx.fl = { (s.eng e).ctx.fl with
        z := decide (lim32 sat (lim40 v) = 0), n := decide (lim32 sat (lim40 v) < 0)
        sat := (s.eng e).ctx.fl.sat || decide (lim32 sat (lim40 v) ≠ lim40 v)
        aov := (s.eng e).ctx.fl.aov || decide (lim40 v ≠ v) }

/-- An outcome in which data register d took the 16-bit pattern of v, FLAGS became fl, and nothing else changed. -/
def State.DataStep (s : State) (o : Host.Outcome State Fault Refusal) (e : Fin 12) (d : Fin 16) (v : Int) (fl : EngFlags) : Prop :=
  ∃ t, o = .next t ∧ State.EngFrame s t e
    ∧ (t.eng e).ctx.d.get d = BitVec.ofInt 16 v
    ∧ (∀ r, r ≠ d → (t.eng e).ctx.d.get r = (s.eng e).ctx.d.get r)
    ∧ (t.eng e).ctx.a = (s.eng e).ctx.a ∧ (t.eng e).ctx.x = (s.eng e).ctx.x ∧ (t.eng e).ctx.fl = fl

/-- FLAGS with Z and N from a written data register. -/
def EngFlags.znOf (f : EngFlags) (v : Int) : EngFlags :=
  { f with z := decide (BitVec.ofInt 16 v = 0), n := (BitVec.ofInt 16 v).msb }

/-- FLAGS after a result limited to the 16-bit signed range: SAT is sticky. -/
def EngFlags.satOf (f : EngFlags) (b : Bool) : EngFlags := { f with sat := f.sat || b }

/-- The nearer bound of the 16-bit signed range. -/
def lim16 (v : Int) : Int := max (-32768) (min v 32767)

/-- The rows that are instructions of engine e, with the outcome of the fetch and those of the data words read. -/
def engRows (e : Fin 12) (f : Ecc) (d : List Ecc) : List Instr :=
  [.nop e f, .mul e f, .mac e f, .msu e f, .mac2 e f, .macd e f d, .adda e f, .suba e f, .sha e f, .absa e f, .nega e f, .lda e f,
   .rnd e f, .ext e f, .clampa e f, .add e f, .sub e f, .and e f, .or e f, .xor e f, .andn e f, .shl e f, .shr e f, .sar e f, .cmp e f,
   .mov e f, .movi e f, .sincos e f, .tbl e f d, .xli e f, .xlh e f, .xadd e f, .xaddd e f, .ld e f d, .st e f, .ldac e f d, .stac e f,
   .ldg e f, .stg e f, .br e f, .jmp e f, .call e f, .ret e f, .loop e f, .yield e f, .wait e f, .sig e f, .sendWinnow e f d,
   .sendEdgePlanner e f d, .dmak e f, .mvs e f, .msv e f, .inj e f, .cap e f, .trap e f, .trapFault e f]

/-- The bytes [a, a + n) of an engine's data memory. -/
def dmKeys (e : Fin 12) (a n k : Nat) : Prop := e * dmSize + a ≤ k ∧ k < e * dmSize + a + n

/-- An outcome in which address register x took the value v modulo 2^26, and nothing else changed. -/
def State.AddrStep (s : State) (o : Host.Outcome State Fault Refusal) (e : Fin 12) (x : Fin 8) (v : Int) : Prop :=
  ∃ t, o = .next t ∧ State.EngFrame s t e
    ∧ (t.eng e).ctx.x.get x = BitVec.ofInt 26 v
    ∧ (∀ r, r ≠ x → (t.eng e).ctx.x.get r = (s.eng e).ctx.x.get r)
    ∧ (t.eng e).ctx.a = (s.eng e).ctx.a ∧ (t.eng e).ctx.d = (s.eng e).ctx.d ∧ (t.eng e).ctx.fl = (s.eng e).ctx.fl

/-- A store of bytes into an engine's data memory: they are read back, every other byte of the memories of all engines is as before,
and nothing else but the context of engine e differs. -/
def State.DmStore (s t : State) (e : Fin 12) (a : Nat) (bs : List Byte) : Prop :=
  (∀ i (h : i < bs.length), tget (0 : Byte) t.dm (e * dmSize + a + i) = bs[i])
    ∧ (∀ k, ¬ dmKeys e a bs.length k → tget (0 : Byte) t.dm k = tget 0 s.dm k)
    ∧ t = { s with engines := t.engines, regs := t.regs, just := t.just, justAt := t.justAt, dm := t.dm } ∧ (∀ off, t.rd off = s.rd off)
    ∧ t.eng e = { s.eng e with ctx := (t.eng e).ctx } ∧ (∀ j : Nat, j ≠ e → t.eng j = s.eng j)
    ∧ (t.eng e).ctx.d = (s.eng e).ctx.d ∧ (t.eng e).ctx.a = (s.eng e).ctx.a ∧ (t.eng e).ctx.fl = (s.eng e).ctx.fl
    ∧ (t.eng e).ctx.stack = (s.eng e).ctx.stack

/-- A call or a jump: execution goes on at pc with these loops and call stack, and nothing else differs. -/
def State.JumpsTo (s : State) (o : Host.Outcome State Fault Refusal) (e : Fin 12) (pc : BitVec 14) (lc0 lc1 : Loop)
    (stack : List (BitVec 14)) : Prop :=
  ∃ t, o = .next t ∧ t = { s with engines := t.engines } ∧ (∀ j : Nat, j ≠ e → t.eng j = s.eng j)
    ∧ t.eng e = { s.eng e with ctx := { (s.eng e).ctx with pc := pc, lc0 := lc0, lc1 := lc1, stack := stack } }

/-- A loop that a taken branch to t leaves ends (R219). -/
def Loop.left (l : Loop) (t : BitVec 14) : Loop :=
  if l.active = true ∧ (l.stop - l.start).toNat < (t - l.start).toNat then Loop.off else l

/-! ### Terms of the claims about masters and their accesses -/

/-- No decision of the scheduler and no overrun trip is due, and no captured entry and no mailbox entry waits for a stopped sequencer: what
follows a register write at once is nothing. -/
abbrev State.Settled (s : State) : Prop :=
  s.hif.mboxGo = none ∧ s.sched.limitHit = false ∧ s.sched.planAt = none ∧ (s.seq.running = true ∨ (s.pair.deferred = [] ∧ s.pair.capLast = [] ∧ s.pair.capNow = []))

/-- The device runs, the master is the owner, nothing captured waits, and no edge record stands in this cycle (R227): a write of the master
through the privileged view takes effect (R7). -/
abbrev State.MayWrite (s : State) (m : Master) : Prop := s.live = true ∧ s.isOwner m = true ∧ s.Settled ∧ s.pwmIo.recs = []

/-- The timebase runs forward, with a slew in progress too, and after its end. -/
abbrev State.Runs (s : State) : Prop :=
  s.live = true ∧ 0 < s.increment ∧ 0 < (s.increment : Int) + s.slewAdj ∧ 0 < (s.slewAfter s.slewTicks).increment

/-- The granary is initialised, and no word of it reads as uncorrectable (R452, R453). -/
abbrev State.GrnClean (s : State) : Prop := s.fb F.GRN_STAT_init_done = true ∧ s.grnBad = []

/-- The codes of the events raised between two states. -/
def State.raised (s t : State) : List EvCode := (t.events.drop s.events.length).map Event.code

/-- Nothing but the register table, the bits set in this cycle (R11), the waiting events and their number differs. -/
def State.RegsOnly (s t : State) : Prop := t = { s with regs := t.regs, just := t.just, justAt := t.justAt, events := t.events, evSeq := t.evSeq }

/-- The master of a row that is one write of that master through the privileged view. -/
def ownerRow : Instr → Option Master
  | .requestBoot m | .requestConfigure m | .requestCommission m | .requestPrecharge m | .requestReady m | .requestRun m => some m
  | .requestDiagnostic m | .seqRunStart m | .seqRunStop m | .bootGo m | .safConfirm m _ | .eqRxWrite m _ _ => some m
  | .injectSingle m _ | .injectBurst m _ | .cellRetire m _ _ | .cellRelease m _ | .ocTallyClear m _ | .pwmCommit m _ => some m
  | .pwmForceActive m _ | .pwmForceInactive m _ | .pwmForceRelease m _ | .pmDataWrite m _ _ | .dmDataWrite m _ _ => some m
  | .coefOpen m _ | .coefClose m _ | .injEnable m _ | .injDisable m _ | .evtRaise m _ | .urgentRequest m _ => some m
  | .siloArm m _ | .siloDisarm m _ | .swTrig m _ | .siloRelease m _ | .faultHistClear m _ | .tripCountClear m => some m
  | .handover m | .rejoin m | .fwdRequest m _ | .ownerHandover m _ | .ownerRelease m | .ringEnable m _ _ _ => some m
  | .mailboxGo m | .dmaDisable m _ | .offsetRequest m _ | .absoluteSet m | .anRestart m _ | .canEnable m _ _ => some m
  | .canPush m _ | .canAbortHead m _ _ | .canFlush m _ _ | .canRecover m _ => some m
  | _ => none

/-- What the device has stored in host memory behind a port. -/
def State.hostRead (s : State) (p a n : Nat) : List Byte := (upto n).map (fun i => tget (0 : Byte) s.hostMem (hostKey p (a + i)))

/-- No task waits, runs or is ready, and no overrun trip is due: an event of the scheduler finds nothing to do while the sequencer is
stopped. -/
abbrev State.Quiet (s : State) : Prop :=
  s.seq.running = false ∧ s.sched.limitHit = false ∧ s.sched.planAt = none ∧ ∀ tc < 192, s.tcState tc = tcDormant ∨ s.tcState tc = tcDisabled

/-- A whole entry waits at the head of a port's command ring, and is fetched (R377, R385). -/
abbrev State.EntryAt (s : State) (p : Fin 2) (e : List Byte) : Prop :=
  s.live = true ∧ s.ringOn p ringCmd = true ∧ s.hif.handover = none ∧ (s.ring (ringKey p ringCmd)).idx ≠ (s.ring (ringKey p ringCmd)).host
    ∧ (s.ring (ringKey p ringCmd)).idx < s.ringEntries p ringCmd ∧ e.length = 64 ∧ s.Settled

/-- One event has been raised since s: the CMD_DONE of an entry with this status and index (R391). -/
def State.Completes (s t : State) (e : List Byte) (status index : Nat) : Prop :=
  ∃ ev, t.events = s.events ++ [ev] ∧ ev.code = .cmdDone
    ∧ ev.payload.take 8 = leBytes 4 (fieldAt e 4 4) ++ leBytes 1 (fieldAt e 0 1) ++ leBytes 1 status ++ leBytes 2 index

/-- The head of a port's command ring has moved on past one entry. -/
def State.HeadMoved (s t : State) (p : Fin 2) : Prop :=
  (t.ring (ringKey p ringCmd)).idx = ((s.ring (ringKey p ringCmd)).idx + 1) % s.ringEntries p ringCmd
    ∧ t.f (F.HIF_RING_STAT_dev_idx p ringCmd) = ((s.ring (ringKey p ringCmd)).idx + 1) % s.ringEntries p ringCmd
    ∧ tget 0 t.hif.msix (p * 64 + 1) = tget 0 s.hif.msix (p * 64 + 1) + 1

/-- The rows that fetch an entry, with the kind of each (R382). -/
def cmdRows (p : Fin 2) (e : List Byte) : List (Instr × Nat) :=
  [(.cmdNop p e, 0), (.cmdWrite p e, 1), (.cmdWriteDm p e, 2), (.cmdWriteGrn p e, 3), (.cmdEvent p e, 4), (.cmdFence p e, 5)]

/-! ### Terms of the claims about modes -/

/-- No captured input, no mailbox entry, no decision of the scheduler and no overrun trip waits at all. -/
abbrev State.Alone (s : State) : Prop :=
  s.hif.mboxGo = none ∧ s.sched.limitHit = false ∧ s.sched.planAt = none ∧ s.pair.deferred = [] ∧ s.pair.capLast = [] ∧ s.pair.capNow = []

/-- No trigger of the safety path and no evaluation of a request has come in the present cycle. -/
abbrev State.FreshCycle (s : State) : Prop :=
  s.saf.trig.all (fun g => g.cyc != s.cyc) = true ∧ s.ctl.evald.all (fun g => g.cyc != s.cyc) = true

/-- No register differs but TIM_STAT, in which the end of a slew shows while time passes. -/
def State.SameRegs (s t : State) : Prop := ∀ off, off ≠ R.TIM_STAT → t.rd off = s.rd off

/-- An outcome in which the mode changes, with the log and the event of R50. -/
def State.ChangesTo (s : State) (o : Host.Outcome State Fault Refusal) (dest : Mode) (cause : Nat) : Prop :=
  ∃ t, o = .next t ∧ t.mode = dest ∧ t.f F.GLB_MODE_LOG_last_from = modeCode s.mode ∧ t.f F.GLB_MODE_LOG_last_to = modeCode dest
    ∧ t.f F.GLB_MODE_LOG_cause = cause ∧ .modeChange ∈ s.raised t

/-- An outcome in which a request is refused for a reason, and the mode stays (R48). -/
def State.Refuses (s : State) (o : Host.Outcome State Fault Refusal) (target reason : Nat) : Prop :=
  ∃ t, o = .next t ∧ t.mode = s.mode ∧ t.ctl.request = none ∧ t.f F.GLB_MODE_LOG_refuse_reason = reason
    ∧ t.f F.GLB_MODE_LOG_refused_target = target ∧ .modeRefused ∈ s.raised t

/-- The request rows of a master, with the target code of each (R42). -/
def modeRows (m : Master) : List (Instr × Nat) :=
  [(.requestBoot m, 2), (.requestConfigure m, 3), (.requestCommission m, 4), (.requestPrecharge m, 6), (.requestReady m, 7),
   (.requestRun m, 8), (.requestDiagnostic m, 0xB)]

/-- A request of an unpaired device waits while the sequencer is stopped, and no trip has come at this very instant. -/
abbrev State.Asked (s : State) (target : Nat) : Prop :=
  s.live = true ∧ s.ctl.request.map (fun r => (r.target, r.forwarded)) = some (target, false) ∧ s.seq.running = false
    ∧ (s.mode = .diagnostic → s.fb F.GLB_DIAG_CTL_seq_run = false) ∧ s.trippedNow = false ∧ s.paired = false ∧ s.Alone

/-- The CORE_CLK cycle of the period tick to come. -/
def State.tickCyc (s : State) : Nat := (s.advanceTo (s.boundary s.seq.next)).cyc

/-- The sequencer runs on past the tick to come, nothing captured and no set of a lane waits for it, and no task is critical. -/
abbrev State.TickClear (s : State) : Prop :=
  s.live = true ∧ s.seq.running = true ∧ s.seq.stopPend = false ∧ s.Alone ∧ (∀ l < 50, (s.lane l).tx.due = [])
    ∧ (∀ tc < 192, s.fb (F.SCH_TC_CFG_crit tc) = false)

/-- A request of an unpaired device waits for the tick to come. -/
abbrev State.AskedAtTick (s : State) (target : Nat) : Prop :=
  s.TickClear ∧ s.paired = false ∧ s.pair.request = none ∧ s.ctl.request.map (fun r => (r.target, r.forwarded)) = some (target, false)
    ∧ s.ctl.request.map ModeReq.at_ ≠ some s.tickCyc

/-- A change of mode that the INPUT frame of the holder has brought to a paired device waits for the tick to come (R350, R353). -/
abbrev State.Forwarded (s : State) (target : Nat) : Prop :=
  s.TickClear ∧ s.paired = true ∧ s.pair.handoverDue = false ∧ s.pair.request = some (target, 0) ∧ s.ctl.request = none

/-- The ways out of the modes by request, for an unpaired device (R45): mode, target, condition, and the mode it leads to. -/
def State.wayOut (s : State) : List (Mode × Nat × Prop × Mode) :=
  [(.configure, 2, True, .boot), (.configure, 4, s.fb F.GLB_MAP_STAT_map_valid = true, .commission),
   (.configure, 11, s.lanesInUse = [], .diagnostic), (.commission, 3, True, .configure), (.muster, 3, True, .configure),
   (.precharge, 3, True, .configure), (.ready, 3, True, .configure), (.diagnostic, 3, True, .configure),
   (.muster, 6, s.musterDone = true ∧ s.lockedOut = false, .precharge),
   (.muster, 11, s.musterDone = true ∧ s.energisedAny = false, .diagnostic),
   (.precharge, 7, s.ctl.chargeOk = true, .ready), (.ready, 6, True, .precharge),
   (.ready, 8, s.causeActive = false ∧ s.anyArmLow = false, .run), (.run, 7, True, .ready)]

/-- The refusals of R48, for an unpaired device: mode, target, condition, and reason. -/
def State.refusal (s : State) : List (Mode × Nat × Prop × Nat) :=
  [(.configure, 4, s.fb F.GLB_MAP_STAT_map_valid = false, 2), (.configure, 11, s.lanesInUse ≠ [], 7),
   (.muster, 6, s.musterDone = false, 4), (.muster, 6, s.musterDone = true ∧ s.lockedOut = true, 11),
   (.muster, 11, s.musterDone = false, 4), (.muster, 11, s.musterDone = true ∧ s.energisedAny = true, 6),
   (.precharge, 7, s.ctl.chargeOk = false, 5), (.ready, 8, s.causeActive = true ∨ s.anyArmLow = true, 11)]

/-! ### Terms of the claims about records, tasks and arms -/

/-- An engine has sent one record to a unit, no other record of it waits, and no lower engine sent one to the unit in the same cycle (R225). -/
abbrev State.Sent (s : State) (e : Nat) (unit : Nat) (bs : List Byte) : Prop :=
  (s.eng e).sends.map (fun r => (r.1, r.2.2)) = [(unit, bs)] ∧ s.sendsFirst e unit = []

/-- The 32-bit words of a record, little-endian. -/
def wordsOf (bs : List Byte) : List Nat := (upto (bs.length / 4)).map (fun k => fieldAt bs (4 * k) 4)

/-- The sum of a list of counts. -/
def State.countOf (s : State) (a : Nat) (p : Nat → Bool) : Nat :=
  ((s.armCells a).filter (fun c => p (s.f (F.WIN_CELL_STAT_code c)))).length

end Sys2Proof.Machine
end

