-- ==== Sys2Proof/Certificates/Slice0/Obligations.lean ====
section
/-! DEFINITION. The statements about the block, for the provers. -/

open Sys2Proof Sys2Proof.Machine

/-- R158 to R163; R164 and R171. -/
def Obligations.SelectionRankingAndTally : Prop :=
  (
    ∀ (s : State) (u : Fin 6) (a : Nat) (r : ArmReq), (s.unit u).busy = some a → (s.arm a).work = some r →
      ∃ t x, exec (.selectionHandover u) s = .next t ∧ (t.arm a).selection = some x ∧ (t.arm a).handed = true
        ∧ t.plan.queue = s.plan.queue ++ [a] ∧ (s.fb F.WIN_SEL_BASE_sel_en = false → t.grn = s.grn)
        ∧ (∀ c, c ∈ x.cands ↔ (c ∈ s.armCells a ∧ s.f (F.WIN_CELL_STAT_code c) = 0))
        ∧ x.cands.Pairwise (fun c d => s.compositeKey a c (s.armPos a c) (s.armCells a).length r
            ≤ s.compositeKey a d (s.armPos a d) (s.armCells a).length r)
        ∧ x.req = r ∧ x.q = (((s.armCells a).filter (fun c => s.f (F.WIN_CELL_STAT_code c) == 8 && insertedWith r.pol (s.present c))).length : Int)
            - (((s.armCells a).filter (fun c => s.f (F.WIN_CELL_STAT_code c) == 8 && insertedWith (!r.pol) (s.present c))).length : Int)
        ∧ x.base = x.cands.take x.mLo ∧ x.swing = (x.cands.drop x.mLo).take (min (x.mHi - x.mLo + s.f (F.WIN_ARM_CFG_reserve a)) (x.cands.length - x.mLo))
        ∧ (x.base ++ x.swing).Nodup ∧ x.counts.length = r.changes.length + 1
        ∧ (∀ (j lv : Nat), (r.level0 :: r.changes.map Prod.snd)[j]? = some lv →
            x.counts[j]? = some (max 0 (min ((lv : Int) - x.q) (x.cands.length : Int))).toNat)
        ∧ x.mLo ∈ x.counts ∧ x.mHi ∈ x.counts ∧ (∀ k ∈ x.counts, x.mLo ≤ k ∧ k ≤ x.mHi)
        ∧ x.trim = (if r.trimEn then x.cands[x.mLo + x.swing.length]? else none)
        ∧ (x.clampSeen = false → s.events = t.events)) ∧ (
    ∀ (s : State) (u : Fin 6) (a : Fin 12) (x : Selection),
      ((s.unit u).ranking = true ∧ (s.unit u).rankArms = [a.val] ∧ (s.arm a).selection = some x
          ∨ (s.unit u).ranking = false ∧ (s.unit u).pastAt = s.cyc ∧ (s.unit u).past = [(a.val, x)] →
        x.cands.length ≤ 512 → s.portBNow = [] →
        s.f F.WIN_RANK_BASE_base * 16384 + a * 0x400 + 1024 ≤ grnSize →
        ∃ t, exec (.rankComplete u) s = .next t ∧ t.f (F.WIN_ARM_STAT_rank_seq a) = x.req.period % 2 ^ 16
          ∧ (∀ i c, x.cands[i]? = some c → s.armPos a c < 2 ^ 16 →
              t.grnNat (s.f F.WIN_RANK_BASE_base * 16384 + a * 0x400 + 2 * i) 2 = s.armPos a c)
          ∧ (∀ i, x.cands.length ≤ i → i < 512 → t.grnNat (s.f F.WIN_RANK_BASE_base * 16384 + a * 0x400 + 2 * i) 2 = 0xFFFF)
          ∧ (t.unit u).ranking = false ∧ t.events = s.events)
      ∧ ((s.unit u).ranking = true → ∃ t, exec (.rankComplete u) s = .next t ∧ (t.unit u).ranking = false ∧ (t.unit u).rankArms = []
        ∧ t.mode = s.mode ∧ t.events = s.events ∧ t.cells = s.cells
        ∧ (∀ b < 12, b ∉ (s.ranked u).map Prod.fst → t.rd (R.WIN_ARM_STAT b) = s.rd (R.WIN_ARM_STAT b)))
      ∧ ((s.unit u).tallyDue = true → ∃ t, exec (.tallyUpdate u) s = .next t ∧ (t.unit u).tallyDue = false ∧ t.mode = s.mode ∧ t.grn = s.grn
        ∧ (∀ c < 3072, (∀ b ∈ s.unitArms u, c ∉ s.armCells b) → t.cell c = s.cell c ∧ t.rd (R.WIN_CELL_TALLY c) = s.rd (R.WIN_CELL_TALLY c)))
      ∧ ((s.unit u).tallyDue = true → s.mode.controls = false ∨ s.fb F.WIN_TALLY_CFG_tally_en = false →
        ∃ t, exec (.tallyUpdate u) s = .next t ∧ t.cells = s.cells ∧ t.regs = s.regs ∧ t.events = s.events)
      ∧ ((s.unit u).tallyDue = true → s.mode.controls = true → s.fb F.WIN_TALLY_CFG_tally_en = true → s.unitArms u = [a.val] →
        ∀ (c : Nat) (i dp : Int), (s.arm a).tallyI = some i → s.armCells a = [c] → c < 3072 →
        dp = roundHalfAway (i * (s.cell c).tauP * s.f (F.WIN_CELL_TALLY_cgain c)) 32 →
        let q : Prop := (s.cell c).fresh = true ∧ (s.cell c).freshPrev = true ∧ s.f (F.WIN_CELL_STAT_code c) = 0 ∧ (s.cell c).codePrev = 0
          ∧ (s.cell c).status &&& 0x38 = 0 ∧ (s.cell c).calmPrev = true ∧ s.f F.WIN_TALLY_CFG_tally_min ≤ dp.natAbs
        ∃ t, exec (.tallyUpdate u) s = .next t
          ∧ (q → (s.cell c).m + 1 < s.f F.WIN_TALLY_CFG_tally_block →
              (t.cell c).m = (s.cell c).m + 1 ∧ (t.cell c).accB = min ((s.cell c).accB + dp.natAbs) 0xFFFFFFFF
                ∧ (t.cell c).accA = max (-2147483648) (min ((s.cell c).accA
                    + (if dp < 0 then -1 else 1) * (((s.cell c).vcap : Int) - (s.cell c).vcapPrev) * 16) 2147483647)
                ∧ t.regs = s.regs ∧ t.events = s.events)
          ∧ (q → s.f F.WIN_TALLY_CFG_tally_block ≤ (s.cell c).m + 1 → (s.cell c).cgain0 < 2 ^ 24 →
              (t.cell c).m = 0 ∧ (t.cell c).accA = 0 ∧ (t.cell c).accB = 0 ∧ (s.cell c).cgain0 / 2 ≤ t.f (F.WIN_CELL_TALLY_cgain c)
                ∧ t.f (F.WIN_CELL_TALLY_cgain c) ≤ min ((s.cell c).cgain0 * 2) 0xFFFFFF)
          ∧ (¬ q → t.cells = s.cells ∧ t.regs = s.regs ∧ t.events = s.events)))

/-- R56, R153 and R154; R149, R152 and R187. -/
def Obligations.AvailabilityTripsChargeAndRetiring : Prop :=
  (
    ∀ (s : State) (a : Fin 12),
      (s.inPeriod = true → s.seq.gatherDone = true → s.seq.availDone = false → s.mode.countsCells = true → a.val ∈ s.enabledArms →
        s.nInstalled a < 1024 →
        ∃ t, exec .availabilityCheck s = .next t ∧ t.seq.availDone = true
          ∧ t.f (F.WIN_ARM_CNT_n_unreachable a) = s.countOf a (fun k => k == 1 || k == 7)
          ∧ t.f (F.WIN_ARM_CNT_n_bypassed a) = s.countOf a (fun k => k == 2 || k == 3)
          ∧ t.f (F.WIN_ARM_CNT_n_faulted a) = s.countOf a (fun k => k == 4 || k == 5 || k == 6)
          ∧ t.f (F.GLB_ARM_STAT_n_available a) = s.nInstalled a - s.countOf a (fun k => k == 2 || k == 3)
              - s.countOf a (fun k => k == 1 || k == 7) - s.countOf a (fun k => k == 4 || k == 5 || k == 6)
          ∧ (s.mode.controls = true → t.f (F.GLB_ARM_STAT_n_available a) < s.f (F.GLB_ARM_CFG_n_required a) →
              t.mode = .safeBlock ∧ .armLow ∈ s.raised t)
          ∧ (s.mode.controls = false → t.mode = s.mode ∧ .armLow ∉ s.raised t)
          ∧ (t.mode = s.mode → s.charged = false → t.ctl.chargeOk = false ∧ t.ctl.chargeRun = 0))
      ∧ (s.inPeriod = true → s.mode.countsCells = true → s.f F.GLB_PRECHARGE_CFG_vc_hold ≤ s.ctl.chargeRun →
        ∃ t, exec .chargeOk s = .next t ∧ t.ctl.chargeOk = true ∧ t.mode = s.mode ∧ t.regs = s.regs ∧ t.events = s.events)
      ∧ (s.mode.countsCells = false ∨ s.ctl.chargeRun < s.f F.GLB_PRECHARGE_CFG_vc_hold → exec .chargeOk s = .next s)) ∧ (
    ∀ (s : State) (m : Master) (c d : Fin 3072) (b : Bool), s.MayWrite m →
      (∃ t, exec (.cellRetire m c b) s = .next t ∧ t.fb (F.WIN_CELL_STAT_retire c) = b
        ∧ t.f (F.WIN_CELL_STAT_code c) = s.f (F.WIN_CELL_STAT_code c) ∧ t.f (F.WIN_CELL_STAT_present c) = s.f (F.WIN_CELL_STAT_present c)
        ∧ t.events = s.events ∧ t.cell c = { s.cell c with retireWas := (t.cell c).retireWas }
        ∧ (d ≠ c → t.cell d = s.cell d ∧ t.rd (R.WIN_CELL_STAT d) = s.rd (R.WIN_CELL_STAT d)))
      ∧ (∃ t, exec (.cellRelease m c) s = .next t ∧ (t.cell c).release = true ∧ t.rd (R.WIN_CELL_STAT c) = s.rd (R.WIN_CELL_STAT c)
        ∧ t.events = s.events ∧ (d ≠ c → t.cell d = s.cell d ∧ t.rd (R.WIN_CELL_STAT d) = s.rd (R.WIN_CELL_STAT d)))
      ∧ (∃ t, exec (.ocTallyClear m c) s = .next t ∧ t.f (F.EDG_CELL_OC_tally c) = 0 ∧ t.events = s.events ∧ t.cells = s.cells
        ∧ (d ≠ c → t.rd (R.EDG_CELL_OC d) = s.rd (R.EDG_CELL_OC d))))

/-- R209 to R212 for every instruction whose result is one accumulator. -/
def Obligations.AccumulatorArithmeticLimitsAndFlags : Prop :=
  ∀ (s s0 : State) (e : Fin 12) (f : Ecc) (a b : Fin 4) (ds dt : Fin 16) (sh : Int) (sat : Bool),
    let c := (s.eng e).ctx
    (s.Fetched e f (.mul a ds dt sat) s0 → s0.AccStep (exec (.mul e f) s) e a (c.dS ds * c.dS dt * 2) sat)
    ∧ (s.Fetched e f (.mac a ds dt sat) s0 → s0.AccStep (exec (.mac e f) s) e a (c.aS a + c.dS ds * c.dS dt * 2) sat)
    ∧ (s.Fetched e f (.msu a ds dt sat) s0 → s0.AccStep (exec (.msu e f) s) e a (c.aS a - c.dS ds * c.dS dt * 2) sat)
    ∧ (s.Fetched e f (.adda a b sat) s0 → s0.AccStep (exec (.adda e f) s) e a (c.aS a + c.aS b) sat)
    ∧ (s.Fetched e f (.suba a b sat) s0 → s0.AccStep (exec (.suba e f) s) e a (c.aS a - c.aS b) sat)
    ∧ (s.Fetched e f (.sha a sh sat) s0 →
        s0.AccStep (exec (.sha e f) s) e a (if 0 ≤ sh then c.aS a * 2 ^ sh.toNat else (c.aS a) / 2 ^ (-sh).toNat) sat)
    ∧ (s.Fetched e f (.absa a sat) s0 → s0.AccStep (exec (.absa e f) s) e a ((c.aS a).natAbs : Int) sat)
    ∧ (s.Fetched e f (.nega a sat) s0 → s0.AccStep (exec (.nega e f) s) e a (-c.aS a) sat)
    ∧ (s.Fetched e f (.lda a ds) s0 → s0.AccStep (exec (.lda e f) s) e a (c.dS ds * 2 ^ 16) false)
    ∧ (s.Fetched e f (.clampa a ds dt) s0 →
        s0.AccStep (exec (.clampa e f) s) e a (min (max (c.aS a) (c.dS ds * 2 ^ 16)) (c.dS dt * 2 ^ 16 + 0xFFFF)) false)

/-- R211, R212 and R215 for every instruction whose result is one data register, and CMP. The C of CMP with u = 0 is log entry 21's, and
CLAMP's run by the row CLAMPA log entry 8's. -/
def Obligations.DataRegisterArithmeticAndFlags : Prop :=
  ∀ (s s0 : State) (e : Fin 12) (f : Ecc) (a : Fin 4) (dd ds dt dh : Fin 16) (sh imm : Nat) (sat u : Bool),
    let c := (s.eng e).ctx
    let ovr (v : Int) : Bool := decide (v < -32768 ∨ 32767 < v)
    let res (v : Int) : Int := if sat then lim16 v else v
    (s.Fetched e f (.add dd ds dt sat) s0 →
        s0.DataStep (exec (.add e f) s) e dd (res (c.dS ds + c.dS dt))
          { ((c.fl.znOf (res (c.dS ds + c.dS dt))).satOf (sat && ovr (c.dS ds + c.dS dt))) with
            c := decide (2 ^ 16 ≤ c.dU ds + c.dU dt), v := ovr (c.dS ds + c.dS dt) })
    ∧ (s.Fetched e f (.sub dd ds dt sat) s0 →
        s0.DataStep (exec (.sub e f) s) e dd (res (c.dS ds - c.dS dt))
          { ((c.fl.znOf (res (c.dS ds - c.dS dt))).satOf (sat && ovr (c.dS ds - c.dS dt))) with
            c := decide (c.dU dt ≤ c.dU ds), v := ovr (c.dS ds - c.dS dt) })
    ∧ (s.Fetched e f (.cmp ds dt u) s0 →
        s0.DataStep (exec (.cmp e f) s) e ds (c.dS ds)
          { c.fl.znOf (c.dS ds - c.dS dt) with
            c := if u then decide (c.dU dt ≤ c.dU ds) else decide (c.dS dt ≤ c.dS ds), v := ovr (c.dS ds - c.dS dt) })
    ∧ (s.Fetched e f (.band dd ds dt) s0 → s0.DataStep (exec (.and e f) s) e dd (c.d.get ds &&& c.d.get dt).toInt
        (c.fl.znOf (c.d.get ds &&& c.d.get dt).toInt))
    ∧ (s.Fetched e f (.bor dd ds dt) s0 → s0.DataStep (exec (.or e f) s) e dd (c.d.get ds ||| c.d.get dt).toInt
        (c.fl.znOf (c.d.get ds ||| c.d.get dt).toInt))
    ∧ (s.Fetched e f (.bxor dd ds dt) s0 → s0.DataStep (exec (.xor e f) s) e dd (c.d.get ds ^^^ c.d.get dt).toInt
        (c.fl.znOf (c.d.get ds ^^^ c.d.get dt).toInt))
    ∧ (s.Fetched e f (.bandn dd ds dt) s0 → s0.DataStep (exec (.andn e f) s) e dd (c.d.get ds &&& ~~~(c.d.get dt)).toInt
        (c.fl.znOf (c.d.get ds &&& ~~~(c.d.get dt)).toInt))
    ∧ (s.Fetched e f (.shl dd ds sh) s0 → s0.DataStep (exec (.shl e f) s) e dd (c.d.get ds <<< sh).toInt
        (c.fl.znOf (c.d.get ds <<< sh).toInt))
    ∧ (s.Fetched e f (.shr dd ds sh) s0 → s0.DataStep (exec (.shr e f) s) e dd (c.d.get ds >>> sh).toInt
        (c.fl.znOf (c.d.get ds >>> sh).toInt))
    ∧ (s.Fetched e f (.sar dd ds sh) s0 → s0.DataStep (exec (.sar e f) s) e dd ((c.d.get ds).sshiftRight sh).toInt
        (c.fl.znOf ((c.d.get ds).sshiftRight sh).toInt))
    ∧ (s.Fetched e f (.mov dd ds) s0 → s0.DataStep (exec (.mov e f) s) e dd (c.dS ds) (c.fl.znOf (c.dS ds)))
    ∧ (s.Fetched e f (.movi dd imm) s0 → s0.DataStep (exec (.movi e f) s) e dd imm (c.fl.znOf imm))
    ∧ (s.Fetched e f (.clamp dd ds dt dh) s0 → s0.DataStep (exec (.clampa e f) s) e dd (min (max (c.dS ds) (c.dS dt)) (c.dS dh))
        (c.fl.znOf (min (max (c.dS ds) (c.dS dt)) (c.dS dh))))
    ∧ (s.Fetched e f (.rnd dd a) s0 → s0.DataStep (exec (.rnd e f) s) e dd (lim16 ((c.aS a + 2 ^ 15) / 2 ^ 16))
        ((c.fl.znOf (lim16 ((c.aS a + 2 ^ 15) / 2 ^ 16))).satOf (ovr ((c.aS a + 2 ^ 15) / 2 ^ 16))))
    ∧ (s.Fetched e f (.ext dd a sh) s0 → s0.DataStep (exec (.ext e f) s) e dd (lim16 (c.aS a / 2 ^ sh))
        ((c.fl.znOf (lim16 (c.aS a / 2 ^ sh))).satOf (ovr (c.aS a / 2 ^ sh))))

/-- R209, R210, R215, R220 and R221 for the instructions with two results or a table. -/
def Obligations.DoubleMultiplyAccumulateAndTables : Prop :=
  ∀ (s s0 : State) (e : Fin 12) (f : Ecc) (a b : Fin 4) (dd ds dt du dv : Fin 16) (xp xq : Fin 8) (ap sat : Bool) (k : Nat) (w : List Ecc),
    let c := (s.eng e).ctx
    (s.Fetched e f (.mac2 a ds dt b du dv sat) s0 → a ≠ b →
      ∃ t, exec (.mac2 e f) s = .next t ∧ State.EngFrame s0 t e
        ∧ (t.eng e).ctx.aS a = lim32 sat (lim40 (c.aS a + c.dS ds * c.dS dt * 2))
        ∧ (t.eng e).ctx.aS b = lim32 sat (lim40 (c.aS b + c.dS du * c.dS dv * 2))
        ∧ (t.eng e).ctx.fl.z = decide ((t.eng e).ctx.aS a = 0) ∧ (t.eng e).ctx.fl.n = decide ((t.eng e).ctx.aS a < 0)
        ∧ (t.eng e).ctx.d = c.d ∧ (t.eng e).ctx.x = c.x)
    ∧ (s.Fetched e f (.macd ap xp xq sat) s0 → w.any Ecc.isDouble = false → xp ≠ xq → c.xU xp % 4 = 0 → c.xU xq % 4 = 0 → c.xU xp + 4 ≤ dmSize →
        c.xU xq + 4 ≤ dmSize → (a : Nat) = 2 * b2n ap → (b : Nat) = 2 * b2n ap + 1 →
        ∃ t, exec (.macd e f w) s = .next t ∧ State.EngFrame (s0.dmCorrected e w) t e
          ∧ (t.eng e).ctx.aS a = lim32 sat (lim40 (c.aS a + s.dm16 e (c.xU xp) * s.dm16 e (c.xU xq) * 2))
          ∧ (t.eng e).ctx.aS b = lim32 sat (lim40 (c.aS b + s.dm16 e (c.xU xp + 2) * s.dm16 e (c.xU xq + 2) * 2))
          ∧ (t.eng e).ctx.xU xp = c.xU xp + 4 ∧ (t.eng e).ctx.xU xq = c.xU xq + 4 ∧ (t.eng e).ctx.d = c.d)
    ∧ (s.Fetched e f (.sincos dd ds dt) s0 → dd ≠ ds →
        ∃ t, exec (.sincos e f) s = .next t ∧ State.EngFrame s0 t e
          ∧ (t.eng e).ctx.dS ds = sinQ (c.dU dt) ∧ (t.eng e).ctx.dS dd = sinQ ((c.dU dt + 0x4000) % 65536)
          ∧ (t.eng e).ctx.fl = c.fl ∧ (t.eng e).ctx.a = c.a ∧ (t.eng e).ctx.x = c.x)
    ∧ (s.Fetched e f (.tbl dd ds k) s0 →
        let base := bitsOf (s.rd (R.ENG_TBL e k)) 14 0
        let n := 16 - s.f (F.ENG_TBL_k e k)
        let u := if s.fb (F.ENG_TBL_uns e k) then c.dU ds else (c.d.get ds ^^^ 0x8000).toNat
        let y (j : Nat) : Int := s.dm16 e (base + 2 * j)
        w.any Ecc.isDouble = false → s.f (F.ENG_TBL_k e k) ≤ 15 → base % 2 = 0 → base + 2 * (2 ^ s.f (F.ENG_TBL_k e k) + 1) ≤ dmSize →
        (s0.dmCorrected e w).DataStep (exec (.tbl e f w) s) e dd
          (y (u / 2 ^ n) + ((y (u / 2 ^ n + 1) - y (u / 2 ^ n)) * (u % 2 ^ n : Nat) + 2 ^ (n - 1)) / 2 ^ n) c.fl)

/-- R215 and R217 for the address and special registers. -/
def Obligations.AddressAndSpecialRegisterInstructions : Prop :=
  ∀ (s s0 : State) (e : Fin 12) (f : Ecc) (x : Fin 8) (ds dd : Fin 16) (imm sc : Nat) (k : Int),
    let c := (s.eng e).ctx
    (s.Fetched e f .nop s0 → s0.DataStep (exec (.nop e f) s) e dd (c.dS dd) c.fl)
    ∧ (s.Fetched e f (.xli x imm) s0 → s0.AddrStep (exec (.xli e f) s) e x imm)
    ∧ (s.Fetched e f (.xlh x imm) s0 → s0.AddrStep (exec (.xlh e f) s) e x (c.xU x % 2 ^ 16 + imm % 2 ^ 10 * 2 ^ 16 : Nat))
    ∧ (s.Fetched e f (.xadd x k) s0 → s0.AddrStep (exec (.xadd e f) s) e x (c.xU x + k))
    ∧ (s.Fetched e f (.xaddd x ds sc) s0 → s0.AddrStep (exec (.xaddd e f) s) e x (c.xU x + c.dS ds * 2 ^ sc))
    ∧ (∀ spec v, s.Fetched e f (.mvs dd spec) s0 →
        (spec, v) ∈ ([(0, c.fl.word), (1, c.lc0.count), (2, c.lc1.count), (3, s.periodNum % 2 ^ 16), (4, s.periodNum / 2 ^ 16),
          (6, s.f (F.ENG_TASK_tc e)), (7, min 0xFFFF ((s.now.ns - s.pN) / 5)), (0x18, c.cb6.toNat), (0x19, c.cl6.toNat),
          (0x1A, c.cb7.toNat), (0x1B, c.cl7.toNat), (0x1C, s.f (F.ENG_INJ_STAT_sample e)), (0x1D, e.val),
          (0x08 + x.val, c.xU x % 2 ^ 16), (0x10 + x.val, c.xU x / 2 ^ 16)] : List (Nat × Nat)) →
        s0.DataStep (exec (.mvs e f) s) e dd v c.fl)
    ∧ (s.Fetched e f (.mvs dd 5) s0 → ∃ t, exec (.mvs e f) s = .next t
        ∧ State.DataStep { s0 with engReads := t.engReads } (.next t) e dd (s.f (F.ENG_COEF_GEN_gen e)) c.fl)
    ∧ (s.Fetched e f (.msv ds (0x08 + x.val)) s0 →
        s0.AddrStep (exec (.msv e f) s) e x (c.xU x / 2 ^ 16 * 2 ^ 16 + c.dU ds : Nat))
    ∧ (s.Fetched e f (.msv ds (0x10 + x.val)) s0 →
        s0.AddrStep (exec (.msv e f) s) e x (c.xU x % 2 ^ 16 + c.dU ds % 2 ^ 10 * 2 ^ 16 : Nat))
    ∧ (s.Fetched e f (.msv ds 0) s0 →
        s0.DataStep (exec (.msv e f) s) e ds (c.dS ds)
          { z := bitOf (c.dU ds) 0, n := bitOf (c.dU ds) 1, c := bitOf (c.dU ds) 2, v := bitOf (c.dU ds) 3,
            sat := bitOf (c.dU ds) 4, aov := bitOf (c.dU ds) 5 })
    ∧ (s.Fetched e f (.msv ds 0x18) s0 → ∃ t, exec (.msv e f) s = .next t ∧ (t.eng e).ctx.cb6 = BitVec.ofNat 15 (c.dU ds)
        ∧ (t.eng e).ctx.cl6 = c.cl6 ∧ (t.eng e).ctx.x = c.x ∧ (t.eng e).ctx.d = c.d ∧ (t.eng e).ctx.fl = c.fl)
    ∧ (s.Fetched e f (.msv ds 0x19) s0 → ∃ t, exec (.msv e f) s = .next t ∧ (t.eng e).ctx.cl6 = BitVec.ofNat 15 (c.dU ds)
        ∧ (t.eng e).ctx.cb6 = c.cb6 ∧ (t.eng e).ctx.x = c.x ∧ (t.eng e).ctx.d = c.d ∧ (t.eng e).ctx.fl = c.fl)
    ∧ (s.Fetched e f (.msv ds 0x1A) s0 → ∃ t, exec (.msv e f) s = .next t ∧ (t.eng e).ctx.cb7 = BitVec.ofNat 15 (c.dU ds)
        ∧ (t.eng e).ctx.cl7 = c.cl7 ∧ (t.eng e).ctx.x = c.x ∧ (t.eng e).ctx.d = c.d ∧ (t.eng e).ctx.fl = c.fl)
    ∧ (s.Fetched e f (.msv ds 0x1B) s0 → ∃ t, exec (.msv e f) s = .next t ∧ (t.eng e).ctx.cl7 = BitVec.ofNat 15 (c.dU ds)
        ∧ (t.eng e).ctx.cb7 = c.cb7 ∧ (t.eng e).ctx.x = c.x ∧ (t.eng e).ctx.d = c.d ∧ (t.eng e).ctx.fl = c.fl)

/-- R206, R215 and R222 for the data memory. -/
def Obligations.DataMemoryLoadsAndStores : Prop :=
  ∀ (s s0 : State) (e : Fin 12) (f : Ecc) (d : Fin 16) (r : Fin 4) (m : MemArg) (a : Nat) (xv : BitVec 26) (w : List Ecc),
    let c := (s.eng e).ctx
    let x : Int := c.xU m.xp
    let cb : Int := if m.xp = 6 then c.cb6.toNat else c.cb7.toNat
    let cl : Int := if m.xp = 6 then c.cl6.toNat else c.cl7.toNat
    (m.mode = 0 ∧ (a : Int) = (x + m.off) % 2 ^ 26 ∧ xv = c.x.get m.xp
      ∨ m.mode = 1 ∧ (a : Int) = x ∧ xv = BitVec.ofInt 26 (x + m.off)
      ∨ m.mode = 2 ∧ (m.xp = 6 ∨ m.xp = 7) ∧ cl ≠ 0 ∧ (a : Int) = x ∧ xv = BitVec.ofInt 26 (cb + (x - cb + m.off) % cl)) →
    (s.Fetched e f (.ld d m) s0 → a + 2 ≤ dmSize → a % 2 = 0 → w.any Ecc.isDouble = false →
      ∃ t, exec (.ld e f w) s = .next t ∧ State.EngFrame { s0.dmCorrected e w with engReads := t.engReads } t e
        ∧ (t.eng e).ctx.d = c.d.set d (BitVec.ofNat 16 (s.dmRead e a 2))
        ∧ (t.eng e).ctx.x = c.x.set m.xp xv ∧ (t.eng e).ctx.fl = c.fl ∧ (t.eng e).ctx.a = c.a)
    ∧ (s.Fetched e f (.ldac r m) s0 → a + 8 ≤ dmSize → a % 8 = 0 → w.any Ecc.isDouble = false →
      ∃ t, exec (.ldac e f w) s = .next t ∧ State.EngFrame { s0.dmCorrected e w with engReads := t.engReads } t e
        ∧ (t.eng e).ctx.a = c.a.set r (BitVec.ofNat 40 (s.dmRead e a 8))
        ∧ (t.eng e).ctx.x = c.x.set m.xp xv ∧ (t.eng e).ctx.fl = c.fl ∧ (t.eng e).ctx.d = c.d)
    ∧ (s.Fetched e f (.st d m) s0 → a + 2 ≤ dmSize → a % 2 = 0 → s.dmExtNow = [] →
      ∃ t, exec (.st e f) s = .next t ∧ State.DmStore s0 t e a (leBytes 2 (c.d.get d).toNat) ∧ (t.eng e).ctx.x = c.x.set m.xp xv)
    ∧ (s.Fetched e f (.stac r m) s0 → a + 8 ≤ dmSize → a % 8 = 0 → s.dmExtNow = [] →
      ∃ t, exec (.stac e f) s = .next t ∧ State.DmStore s0 t e a (leBytes 8 ((c.a.get r).signExtend 64).toNat)
        ∧ (t.eng e).ctx.x = c.x.set m.xp xv)
    ∧ (∀ y, s.dmExtNow = [y] →
        (s.Fetched e f (.st d m) s0 → a + 2 ≤ dmSize → a % 2 = 0 →
          ∃ t, exec (.st e f) s = .next t ∧ (∀ i (h : i < y.2.2.length), tget (0 : Byte) t.dm (y.2.1 + i) = y.2.2[i])
            ∧ (t.eng e).ctx.x = c.x.set m.xp xv)
        ∧ (s.Fetched e f (.stac r m) s0 → a + 8 ≤ dmSize → a % 8 = 0 →
          ∃ t, exec (.stac e f) s = .next t ∧ (∀ i (h : i < y.2.2.length), tget (0 : Byte) t.dm (y.2.1 + i) = y.2.2[i])
            ∧ (t.eng e).ctx.x = c.x.set m.xp xv))

/-- R215, R223 and R238 for the granary path of an engine. -/
def Obligations.GranaryAccessOfAnEngine : Prop :=
  ∀ (s s0 : State) (e : Fin 12) (f : Ecc) (d : Fin 16) (m : MemArg) (a ch : Nat) (xv : BitVec 26),
    let c := (s.eng e).ctx
    (c.memAddr m = some (a, xv) → a % 2 = 0 →
      (s.Fetched e f (.ldg d m) s0 →
        ∃ t, exec (.ldg e f) s = .next t ∧ (t.eng e).ctx = c ∧ t.canIssue e = false
          ∧ (t.eng e).ldg = some { dest := d, addr := a, xp := m.xp, xval := xv })
      ∧ (s.Fetched e f (.stg d m) s0 → (s.eng e).wbuf.length < 8 →
        ∃ t, exec (.stg e f) s = .next t ∧ (t.eng e).wbuf = (s.eng e).wbuf ++ [(a, leBytes 2 (c.d.get d).toNat)]
          ∧ (t.eng e).ctx.x = c.x.set m.xp xv ∧ (t.eng e).ctx.d = c.d ∧ t.grn = s.grn)
      ∧ (s.Fetched e f (.stg d m) s0 → 8 ≤ (s.eng e).wbuf.length → exec (.stg e f) s = .next s0))
    ∧ (∀ w, s.live = true → s.engState e = engRunning → (s.eng e).ldg = some w → w.addr + 2 ≤ grnSize → s.grnBad = [] →
        ∃ t, exec (.ldgReturn e .ok) s = .next t ∧ (t.eng e).ldg = none
          ∧ (t.eng e).ctx.d = c.d.set w.dest (BitVec.ofNat 16 ((s.engGrnByte e w.addr).toNat + (s.engGrnByte e (w.addr + 1)).toNat * 256))
          ∧ (t.eng e).ctx.x = c.x.set w.xp w.xval ∧ (t.eng e).ctx.fl = c.fl)
    ∧ (∀ w rest, s.live = true → (s.eng e).wbuf = w :: rest → w.1 + w.2.length ≤ grnSize → s.portBNow = [] →
        ∃ t, exec (.writeBufferDrain e) s = .next t ∧ (t.eng e).wbuf = rest ∧ (t.eng e).ctx = c
          ∧ (∀ i (h : i < w.2.length), t.grnByte (w.1 + i) = w.2[i])
          ∧ (∀ k, k < w.1 ∨ w.1 + w.2.length ≤ k → t.grnByte k = s.grnByte k))
    ∧ (s.Fetched e f (.cap d ch) s0 → s.fb (F.ENG_CAP_CTL_cap_en e) = true → (s.eng e).capStop = false → (s.eng e).wbuf.length < 8 →
        ∃ t, exec (.cap e f) s = .next t
          ∧ (t.eng e).wbuf = (s.eng e).wbuf ++ [(s.f (F.ENG_CAP_BASE_base e) * 8 + s.f (F.ENG_CAP_IDX_idx e) * 8,
              leBytes 2 s.periodNum ++ leBytes 1 ch ++ leBytes 1 e ++ leBytes 2 (c.d.get d).toNat
                ++ leBytes 2 (s.f (F.ENG_INJ_STAT_sample e)))]
          ∧ (t.eng e).ctx.d = c.d ∧ (t.eng e).ctx.fl = c.fl ∧ t.grn = s.grn)

/-- R216, R218 and R219. -/
def Obligations.BranchesCallsAndLoops : Prop :=
  ∀ (s s0 : State) (e : Fin 12) (f : Ecc) (k count len : Nat) (off : Int) (tgt : BitVec 14) (n r : Bool) (ds : Fin 16),
    let c := (s.eng e).ctx
    let taken : Bool := match k with
      | 0 => true | 1 => c.fl.z | 2 => !c.fl.z | 3 => c.fl.n != c.fl.v | 4 => c.fl.n == c.fl.v | 5 => c.fl.z || c.fl.n != c.fl.v
      | 6 => !c.fl.z && c.fl.n == c.fl.v | 7 => !c.fl.c | 8 => c.fl.c | 9 => c.fl.n | 10 => !c.fl.n | _ => c.fl.sat
    let atEnd (l : Loop) : Prop := l.active = true ∧ l.stop = c.pc
    let cnt := if r then c.dU ds else count
    (s.Fetched e f (.br k off) s0 → k ≤ 11 → taken = true →
        s0.JumpsTo (exec (.br e f) s) e (c.pc + BitVec.ofInt 14 off) (c.lc0.left (c.pc + BitVec.ofInt 14 off))
          (c.lc1.left (c.pc + BitVec.ofInt 14 off)) c.stack)
    ∧ (s.Fetched e f (.br k off) s0 → k ≤ 11 → taken = false → ¬ atEnd c.lc0 → ¬ atEnd c.lc1 →
        s0.JumpsTo (exec (.br e f) s) e (c.pc + 1) c.lc0 c.lc1 c.stack)
    ∧ (s.Fetched e f (.jmp tgt) s0 → s0.JumpsTo (exec (.jmp e f) s) e tgt (c.lc0.left tgt) (c.lc1.left tgt) c.stack)
    ∧ (s.Fetched e f (.call tgt) s0 → c.stack.length < 8 →
        s0.JumpsTo (exec (.call e f) s) e tgt c.lc0 c.lc1 (c.stack ++ [c.pc + 1]))
    ∧ (∀ st ret, s.Fetched e f .ret s0 → c.stack = st ++ [ret] → s0.JumpsTo (exec (.ret e f) s) e ret c.lc0 c.lc1 st)
    ∧ (s.Fetched e f (.loop n r ds count len) s0 → (c.lc n).active = false → 0 < cnt → ¬ atEnd (c.lc (!n)) →
        ∃ t, exec (.loop e f) s = .next t ∧ (t.eng e).ctx.pc = c.pc + 1
          ∧ (t.eng e).ctx.lc n = { active := true, count := cnt, start := c.pc + 1, stop := c.pc + BitVec.ofNat 14 len }
          ∧ (t.eng e).ctx.lc (!n) = c.lc (!n) ∧ (t.eng e).ctx.lc1Later = n
          ∧ (t.eng e).ctx.d = c.d ∧ (t.eng e).ctx.fl = c.fl ∧ (t.eng e).ctx.stack = c.stack)
    ∧ (s.Fetched e f (.loop n r ds count len) s0 → (c.lc n).active = false → cnt = 0 → ¬ atEnd (c.lc (!n)) →
        s0.JumpsTo (exec (.loop e f) s) e (c.pc + BitVec.ofNat 14 len + 1) c.lc0 c.lc1 c.stack)
    ∧ (s.Fetched e f .nop s0 → atEnd c.lc0 → 1 < c.lc0.count → c.lc1.active = false →
        s0.JumpsTo (exec (.nop e f) s) e c.lc0.start { c.lc0 with count := c.lc0.count - 1 } c.lc1 c.stack)
    ∧ (s.Fetched e f .nop s0 → atEnd c.lc0 → c.lc0.count = 1 → c.lc1.active = false →
        s0.JumpsTo (exec (.nop e f) s) e (c.pc + 1) Loop.off c.lc1 c.stack)
    ∧ (s.Fetched e f .nop s0 → atEnd c.lc0 → atEnd c.lc1 → c.lc1Later = true → c.lc1.count = 1 → 1 < c.lc0.count →
        s0.JumpsTo (exec (.nop e f) s) e c.lc0.start { c.lc0 with count := c.lc0.count - 1 } Loop.off c.stack)

/-- R229, by its table. The last two clauses are log entry 1's. -/
def Obligations.EngineFaultsBeforeAnyEffect : Prop :=
  ∀ (s s0 : State) (e : Fin 12) (f : Ecc) (d : List Ecc) (i j : Fin 64) (m : MemArg) (r : Fin 16) (a : Fin 4) (adr : Nat) (xv : BitVec 26)
    (t : BitVec 14) (n q : Bool) (count len code : Nat) (xp xq : Fin 8),
    let c := (s.eng e).ctx
    (s.canIssue e = true → ∀ x ∈ engRows e (.double i j) d, exec x s = .next (s.engFault e 5))
    ∧ (s.canIssue e = true → engDecode (s.pmWord e c.pc.toNat) = none → ∀ x ∈ engRows e .ok d, exec x s = .next (s.engFault e 1))
    ∧ (c.memAddr m = some (adr, xv) →
        (s.Fetched e f (.ld r m) s0 → dmSize < adr + 2 → exec (.ld e f d) s = .next (s0.engFault e 2))
        ∧ (s.Fetched e f (.st r m) s0 → adr + 2 ≤ dmSize → adr % 2 = 1 → exec (.st e f) s = .next (s0.engFault e 3))
        ∧ (s.Fetched e f (.ldac a m) s0 → adr + 8 ≤ dmSize → adr % 8 ≠ 0 → exec (.ldac e f d) s = .next (s0.engFault e 3))
        ∧ (s.Fetched e f (.stac a m) s0 → dmSize < adr + 8 → exec (.stac e f) s = .next (s0.engFault e 2))
        ∧ (s.Fetched e f (.ld r m) s0 → adr + 2 ≤ dmSize → adr % 2 = 0 → d.any Ecc.isDouble = true → exec (.ld e f d) s = .next (s0.engFault e 4))
        ∧ (s.Fetched e f (.ldg r m) s0 → adr % 2 = 1 → exec (.ldg e f) s = .next (s0.engFault e 3)))
    ∧ (s.Fetched e f (.macd n xp xq q) s0 → dmSize < c.xU xp + 4 ∨ dmSize < c.xU xq + 4 → exec (.macd e f d) s = .next (s0.engFault e 2))
    ∧ (s.Fetched e f (.macd n xp xq q) s0 → c.xU xp + 4 ≤ dmSize → c.xU xq + 4 ≤ dmSize → c.xU xp % 4 ≠ 0 ∨ c.xU xq % 4 ≠ 0 →
        exec (.macd e f d) s = .next (s0.engFault e 3))
    ∧ (s.Fetched e f (.tbl r r count) s0 →
        dmSize < bitsOf (s.rd (R.ENG_TBL e count)) 14 0 - bitsOf (s.rd (R.ENG_TBL e count)) 0 0 + 2 * (2 ^ s.f (F.ENG_TBL_k e count) + 1) →
        exec (.tbl e f d) s = .next (s0.engFault e 2))
    ∧ (s.Fetched e f (.send 0 xp) s0 → (s.eng e).wbuf = [] → c.xU xp + 48 ≤ dmSize → c.xU xp % 8 ≠ 0 →
        exec (.sendWinnow e f d) s = .next (s0.engFault e 3))
    ∧ (s.Fetched e f (.call t) s0 → 8 ≤ c.stack.length → exec (.call e f) s = .next (s0.engFault e 6))
    ∧ (s.Fetched e f .ret s0 → c.stack = [] → exec (.ret e f) s = .next (s0.engFault e 6))
    ∧ (s.Fetched e f (.loop n q r count len) s0 → (c.lc n).active = true → exec (.loop e f) s = .next (s0.engFault e 7))
    ∧ (s.Fetched e f (.trapFault code) s0 → exec (.trapFault e f) s = .next (s0.engFault e 8))
    ∧ (s.ctl.fatal = true →
        (s.engFault e code).engState e = engFaulted ∧ (s.engFault e code).f (F.ENG_STAT_fault_code e) = code % 256
        ∧ (s.engFault e code).f (F.ENG_STAT_fault_pc e) = c.pc.toNat ∧ ((s.engFault e code).eng e).ctx = c
        ∧ (s.engFault e code).f F.SCH_FATAL_fatal_state = 5)
    ∧ (s.canIssue e = false → ∀ x ∈ engRows e f d, exec x s = .next s)

/-- R223, R243, R249 and R251. -/
def Obligations.SchedulerInstructionsOfATask : Prop :=
  ∀ (s s0 : State) (e : Fin 12) (f : Ecc) (tc evt : Nat),
    let c := (s.eng e).ctx
    (s.Fetched e f .yield s0 → (s.eng e).wbuf ≠ [] → exec (.yield e f) s = .next s0)
    ∧ (s.Fetched e f .yield s0 → (s.eng e).wbuf = [] → s.sched.planAt = none → s.engTc e = some tc → engOf tc = e → s.ctl.fatal = false →
        ∃ t, exec (.yield e f) s = .next t ∧ t.engState e = engIdle ∧ t.engTc e = none ∧ t.sched.planAt = some s.cyc ∧ (t.task tc).saved = none
          ∧ t.tcState tc = (if s.fb (F.SCH_TC_CFG_en tc) then tcDormant else tcDisabled) ∧ t.events = s.events)
    ∧ (s.Fetched e f .yield s0 → (s.eng e).wbuf = [] → s.sched.planAt = none → s.engTc e = some 0 → e = 0 → s.ctl.fatal = true →
        ∃ t, exec (.yield e f) s = .next t ∧ t.engState e = engHalted ∧ t.tcState 0 = tcStopped
          ∧ t.f F.SCH_FATAL_fatal_state = 3 ∧ (t.events.getLast?).map Event.code = some .fatalDone)
    ∧ (s.Fetched e f (.wait evt) s0 → s.sched.planAt = none → s.engTc e = some tc → engOf tc = e →
        ∃ t, exec (.wait e f) s = .next t ∧ t.engState e = engIdle ∧ t.engTc e = none ∧ t.tcState tc = tcWaiting
          ∧ (t.task tc).saved = some c.fall ∧ (t.task tc).waitEvt = evt ∧ t.sched.planAt = some s.cyc ∧ t.events = s.events)
    ∧ (s.Fetched e f (.wait evt) s0 → s.sched.planAt = none → s.engTc e = some tc → engOf tc = e → s.sched.evtCyc = s.cyc →
        evt ∈ s.sched.evts → (s.eng e).slot = none →
        ∃ t, exec (.wait e f) s = .next t ∧ ∃ u, exec (.slotLoad e) t = .next u ∧ u.engState e = engIdle ∧ u.tcState tc = tcReady
          ∧ (u.task tc).relCyc = s.cyc ∧ (u.task tc).saved = some c.fall)
    ∧ (s.Fetched e f (.sig evt) s0 → ∃ t, exec (.sig e f) s = .next t ∧ (t.eng e).sig = some evt ∧ (t.eng e).ctx = c
        ∧ t.canIssue e = false ∧ t.events = s.events)
    ∧ ((s.eng e).sig = some evt → (s.eng e).sigs = [] → s.live = true → s.engState e = engRunning → (s.eng e).wbuf = [] →
        exec (.sigEvent e) s = .next ((s.modEng e (fun x => { x with sig := none, ctx := c.fall })).occur evt).settle)
    ∧ (∀ rest, (s.eng e).sigs = evt :: rest → s.live = true → (s.eng e).wbuf = [] →
        exec (.sigEvent e) s = .next ((s.modEng e (fun x => { x with sigs := rest })).occur evt).settle)
    ∧ ((s.eng e).wbuf ≠ [] → exec (.sigEvent e) s = .next s)

/-- R225, R228, R237 and the TRAP row of R215. -/
def Obligations.SendKickInjectAndTrap : Prop :=
  ∀ (s s0 : State) (e : Fin 12) (f : Ecc) (x : Fin 8) (dd : Fin 16) (node code ch : Nat) (w : List Ecc),
    let c := (s.eng e).ctx
    let g := sx 16 (s.f (F.ENG_INJ_STAT_sample e))
    (∀ unit : Nat, unit ≤ 1 → s.Fetched e f (.send unit x) s0 →
        let row : Instr := if unit = 0 then .sendWinnow e f w else .sendEdgePlanner e f w
        let len := if unit = 0 then 48 else 32
        ((s.eng e).wbuf ≠ [] → exec row s = .next s0)
        ∧ ((s.eng e).wbuf = [] → c.xU x % 8 = 0 → c.xU x + len ≤ dmSize → w.any Ecc.isDouble = false →
            ∃ t, exec row s = .next t ∧ (t.eng e).sends = (s.eng e).sends ++ [(unit, s.cyc, s.dmBytes e (c.xU x) len)]
              ∧ (t.eng e).ctx.pc = c.fall.pc ∧ (t.eng e).ctx.d = c.d ∧ t.dm = s.dm ∧ t.regs = (s0.dmCorrected e w).regs))
    ∧ (s.Fetched e f (.dmak ch) s0 →
        ∃ t, exec (.dmak e f) s = .next t ∧ (t.eng e).ctx = c.fall ∧ t = ((s0.dmak e ch).plain e id))
    ∧ (s.Fetched e f (.inj dd node) s0 → s.fb (F.ENG_INJ_STAT_running e) = true → (s.eng e).inj.node = node →
        s0.DataStep (exec (.inj e f) s) e dd (lim16 (c.dS dd + g)) (c.fl.satOf (decide (lim16 (c.dS dd + g) ≠ c.dS dd + g))))
    ∧ (s.Fetched e f (.inj dd node) s0 → (s.fb (F.ENG_INJ_STAT_running e) = false ∨ (s.eng e).inj.node ≠ node) →
        s0.DataStep (exec (.inj e f) s) e dd (c.dS dd) c.fl)
    ∧ (s.Fetched e f (.trap code) s0 →
        ∃ t, exec (.trap e f) s = .next t ∧ (t.eng e).ctx = c.fall
          ∧ t.events = (s.raiseFrom .engTrap (0x10 + e) e code c.pc.toNat).events ∧ t.dm = s.dm ∧ t.grn = s.grn ∧ t.regs = s0.regs)

/-- R222 and R231 to R233; R235 and R236. -/
def Obligations.EngineMemoryWindowsAndInjection : Prop :=
  (
    ∀ (s : State) (m : Master) (e : Fin 12) (v : W32) (i j : Fin 64), s.MayWrite m →
      let pa := s.f (F.ENG_PM_ADDR_addr e)
      let da := s.f (F.ENG_DM_ADDR_addr e)
      (s.mode = .configure → ∃ t, exec (.pmDataWrite m e v) s = .next t ∧ t.pmWord e pa = v.toNat
        ∧ (∀ (x : Fin 12) y, y < 2 ^ 14 → (x, y) ≠ (e, pa) → t.pmWord x y = s.pmWord x y)
        ∧ t.f (F.ENG_PM_ADDR_addr e) = (pa + 1) % 2 ^ 14 ∧ t.events = s.events)
      ∧ (s.mode ≠ .configure → ∃ t, exec (.pmDataWrite m e v) s = .next t ∧ t.pm = s.pm
        ∧ t.f (F.ENG_PM_ADDR_addr e) = (pa + 1) % 2 ^ 14
        ∧ (v.toNat = s.pmWord e pa → s.raised t = []) ∧ (v.toNat ≠ s.pmWord e pa → s.raised t = [.writeLocked]))
      ∧ (∀ ecc ∈ [Ecc.ok, .single, .double i j], ∃ t, exec (.pmDataRead m ⟨e, ecc⟩) s = .next t ∧ t.pm = s.pm
        ∧ (ecc ≠ .double i j → t.rdata = leBytes 4 (s.pmWord e pa)) ∧ t.f (F.ENG_PM_ADDR_addr e) = (pa + 1) % 2 ^ 14
        ∧ t.f (F.ENG_ECC_pm_corr e) = (if ecc = .single then min 0xFFFF (s.f (F.ENG_ECC_pm_corr e) + 1) else s.f (F.ENG_ECC_pm_corr e))
        ∧ (∀ off, off ≠ R.ENG_PM_ADDR e → off ≠ R.ENG_ECC e → t.rd off = s.rd off))
      ∧ (∃ t, exec (.dmDataWrite m e v) s = .next t ∧ t.dmBytes e (da * 4) 4 = leBytes 4 v.toNat
        ∧ (∀ key, (key < e * dmSize + da * 4 ∨ e * dmSize + da * 4 + 4 ≤ key) → tget 0 t.dm key = tget 0 s.dm key)
        ∧ t.f (F.ENG_DM_ADDR_addr e) = (if s.fb (F.ENG_DM_ADDR_auto_inc e) then (da + 1) % 2 ^ 13 else da)
        ∧ (s.f (F.ENG_COEF_WIN_limit e) ≤ da * 4 ∨ s.fb (F.ENG_COEF_GEN_is_open e) = true ∨ (s.eng e).closedAt = some s.cyc → s.raised t = [])
        ∧ (s.f (F.ENG_COEF_WIN_base e) * 4 ≤ da * 4 → da * 4 < s.f (F.ENG_COEF_WIN_limit e) →
            s.fb (F.ENG_COEF_GEN_is_open e) = false → (s.eng e).closedAt ≠ some s.cyc → s.raised t = [.coefStray] ∧ t.fb (F.ENG_COEF_GEN_stray e) = true
              ∧ t.f (F.ENG_COEF_GEN_gen e) = (s.f (F.ENG_COEF_GEN_gen e) + 2) % 2 ^ 16))
      ∧ (∀ ecc ∈ [Ecc.ok, .single, .double i j], ∃ t, exec (.dmDataRead m ⟨e, ecc⟩) s = .next t ∧ t.dm = s.dm
        ∧ (ecc ≠ .double i j → t.rdata = s.dmBytes e (da * 4) 4)
        ∧ t.f (F.ENG_ECC_dm_corr e) = (if ecc = .single then min 0xFFFF (s.f (F.ENG_ECC_dm_corr e) + 1) else s.f (F.ENG_ECC_dm_corr e))
        ∧ t.f (F.ENG_DM_ADDR_addr e) = (if s.fb (F.ENG_DM_ADDR_auto_inc e) then (da + 1) % 2 ^ 13 else da))
      ∧ (∀ x, (s.eng e).stray = some x → x.cyc = s.cyc → s.fb (F.ENG_COEF_GEN_is_open e) = false →
          ∃ t, exec (.coefOpen m e) s = .next t ∧ t.f (F.ENG_COEF_GEN_gen e) = (x.gen + 1) % 2 ^ 16 ∧ t.fb (F.ENG_COEF_GEN_is_open e) = true)
      ∧ ((∀ x, (s.eng e).stray = some x → x.cyc ≠ s.cyc) →
        ∃ t, exec (.coefOpen m e) s = .next t ∧ t.fb (F.ENG_COEF_GEN_is_open e) = true ∧ t.events = s.events
        ∧ t.f (F.ENG_COEF_GEN_gen e)
            = (if s.fb (F.ENG_COEF_GEN_is_open e) then s.f (F.ENG_COEF_GEN_gen e) else (s.f (F.ENG_COEF_GEN_gen e) + 1) % 2 ^ 16))
      ∧ (∃ t, exec (.coefClose m e) s = .next t ∧ t.fb (F.ENG_COEF_GEN_is_open e) = false ∧ t.events = s.events
        ∧ t.f (F.ENG_COEF_GEN_gen e)
            = (if s.fb (F.ENG_COEF_GEN_is_open e) then (s.f (F.ENG_COEF_GEN_gen e) + 1) % 2 ^ 16 else s.f (F.ENG_COEF_GEN_gen e)))
      ∧ (∀ x r, s.engReads = [x] → x.cyc = s.cyc → x.eng = e → x.ctx = (s.eng e).ctx → x.dest = .d r →
          (∀ k ∈ [0, 2], x.addr = some (da * 4 + k) → ∃ t, exec (.dmDataWrite m e v) s = .next t
            ∧ (s.fb (F.ENG_COEF_GEN_is_open e) = true →
                (t.eng e).ctx.d = x.ctx.d.set r (BitVec.ofNat 16 (v.toNat / 2 ^ (8 * k)))))
          ∧ (x.addr = none → s.fb (F.ENG_COEF_GEN_is_open e) = true → ∃ t, exec (.coefClose m e) s = .next t
            ∧ (t.eng e).ctx.d = x.ctx.d.set r (BitVec.ofNat 16 (s.f (F.ENG_COEF_GEN_gen e) + 1))))) ∧ (
    ∀ (s : State) (m : Master) (e : Fin 12),
      let j := (s.eng e).inj
      let due : Prop := s.live = true ∧ s.fb (F.ENG_INJ_STAT_running e) = true ∧ j.tickLeft = 0
      let scale (amp : Nat) (ph : Nat) : Int := ((amp : Int) * sinQ (ph / 2 ^ 16) + 2 ^ 14) / 2 ^ 15
      let sum : Int := ((upto 32).map (fun k => scale (s.f (F.ENG_TONE_A_amp e k)) (j.phs.getD k 0))).sum
      (s.MayWrite m → ∃ t, exec (.injEnable m e) s = .next t ∧ t.fb (F.ENG_INJ_CTL_inj_en e) = true
        ∧ t.engines = s.engines ∧ t.rd (R.ENG_INJ_STAT e) = s.rd (R.ENG_INJ_STAT e))
      ∧ (s.MayWrite m → ∃ t, exec (.injDisable m e) s = .next t ∧ t.fb (F.ENG_INJ_CTL_inj_en e) = false
        ∧ t.engines = s.engines ∧ t.rd (R.ENG_INJ_STAT e) = s.rd (R.ENG_INJ_STAT e))
      ∧ (due → j.kind = 0 → j.holdLeft = 0 → s.f (F.ENG_INJ_AMP_amp e) < 2 ^ 15 → ∃ t, exec (.injUpdate e) s = .next t
          ∧ (t.eng e).inj = { j with tickLeft := j.div, lfsr := prbsStep j.poly j.lfsr, holdLeft := j.hold - 1 }
          ∧ sx 16 (t.f (F.ENG_INJ_STAT_sample e))
              = (if (prbsStep j.poly j.lfsr).testBit 0 then (s.f (F.ENG_INJ_AMP_amp e) : Int) else -(s.f (F.ENG_INJ_AMP_amp e) : Int))
          ∧ t.events = s.events ∧ (∀ off, off ≠ R.ENG_INJ_STAT e → t.rd off = s.rd off))
      ∧ (due → j.kind = 0 → j.holdLeft ≠ 0 → s.f (F.ENG_INJ_AMP_amp e) < 2 ^ 15 → ∃ t, exec (.injUpdate e) s = .next t
          ∧ (t.eng e).inj = { j with tickLeft := j.div, holdLeft := j.holdLeft - 1 }
          ∧ sx 16 (t.f (F.ENG_INJ_STAT_sample e))
              = (if j.lfsr.testBit 0 then (s.f (F.ENG_INJ_AMP_amp e) : Int) else -(s.f (F.ENG_INJ_AMP_amp e) : Int))
          ∧ t.events = s.events ∧ (∀ off, off ≠ R.ENG_INJ_STAT e → t.rd off = s.rd off))
      ∧ (due → j.kind = 1 → j.c + 1 ≠ j.len → ∃ t, exec (.injUpdate e) s = .next t
          ∧ t.f (F.ENG_INJ_STAT_sample e) = twos 16 (scale (s.f (F.ENG_INJ_AMP_amp e)) j.ph)
          ∧ (t.eng e).inj = { j with tickLeft := j.div, ph := (j.ph + j.inc) % 2 ^ 32, inc := (j.inc + j.df) % 2 ^ 32, c := j.c + 1 }
          ∧ t.events = s.events)
      ∧ (due → j.kind = 1 → j.c + 1 = j.len → j.once = true → ∃ t, exec (.injUpdate e) s = .next t
          ∧ t.fb (F.ENG_INJ_CTL_inj_en e) = false ∧ t.fb (F.ENG_INJ_STAT_done e) = true ∧ .injDone ∈ s.raised t)
      ∧ (due → j.kind = 1 → j.c + 1 = j.len → j.once = false → ∃ t, exec (.injUpdate e) s = .next t
          ∧ (t.eng e).inj = { j with tickLeft := j.div, ph := 0, inc := j.f0, c := 0 } ∧ t.events = s.events)
      ∧ (due → 2 ≤ j.kind → ∃ t, exec (.injUpdate e) s = .next t
          ∧ t.f (F.ENG_INJ_STAT_sample e) = twos 16 (min 32767 (max (-32768) sum))
          ∧ (sum < -32768 ∨ 32767 < sum → t.fb (F.ENG_INJ_STAT_inj_sat e) = true)
          ∧ (-32768 ≤ sum → sum ≤ 32767 → t.fb (F.ENG_INJ_STAT_inj_sat e) = s.fb (F.ENG_INJ_STAT_inj_sat e))
          ∧ (∀ k < 32, (t.eng e).inj.phs.getD k 0 = (j.phs.getD k 0 + j.incr.getD k 0) % 2 ^ 32) ∧ t.events = s.events))

/-- R145, R146, R226 and R227. -/
def Obligations.RecordsOfAnEngine : Prop :=
  ∀ (s : State) (e : Fin 12) (bs : List Byte),
    let ws := wordsOf bs
    let a := bitsOf (word ws 0) 19 16
    (s.Sent e 0 bs → s.mode.controls = true → s.reqBadReason ws = 0 → bitsOf (word ws 0) 15 0 = s.requestPeriod % 2 ^ 16 →
      (s.arm a).started = false → ∃ t, exec (.armRequest e) s = .next t ∧ (t.arm a).req.map ArmReq.period = some s.requestPeriod
        ∧ (t.arm a).req.map ArmReq.level0 = some (bitsOf (word ws 1) 9 0) ∧ (t.eng e).sends = []
        ∧ t.events = s.events ∧ t.regs = s.regs ∧ (∀ b, b ≠ a → (t.arm b).req = (s.arm b).req))
    ∧ (s.Sent e 0 bs → s.mode.controls = true → (12 ≤ a ∨ s.armEnabled a = false) →
        ∃ t, exec (.armRequest e) s = .next t ∧ t.arms = s.arms ∧ s.raised t = [.reqBad]
          ∧ (a < 12 → t.fb (F.WIN_ARM_FLAGS_req_bad a) = true ∧ t.f (F.WIN_ARM_FLAGS_bad_reason a) = 1))
    ∧ (s.Sent e 0 bs → s.mode.controls = true → s.reqBadReason ws = 0 → bitsOf (word ws 0) 15 0 ≠ s.requestPeriod % 2 ^ 16 →
        ∃ t, exec (.armRequest e) s = .next t ∧ t.arms = s.arms ∧ s.raised t = [.reqStale] ∧ t.fb (F.WIN_ARM_FLAGS_req_stale a) = true)
    ∧ (s.Sent e 0 bs → s.mode.controls = false →
        ∃ t, exec (.armRequest e) s = .next t ∧ t.arms = s.arms ∧ t.events = s.events ∧ (t.eng e).sends = [])
    ∧ (s.Sent e 1 bs → s.mode ≠ .safeBlock → word ws 0 = 2 ^ 9 + bitsOf (word ws 0) 3 0 → word ws 3 < 2 ^ 24 →
        1 ≤ word ws 3 → ∃ t, exec (.edgeRecord e) s = .next t ∧ (t.eng e).sends = []
          ∧ (∀ off, off ≠ R.EDG_PWM_PER (bitsOf (word ws 0) 3 0) → t.rd off = s.rd off)
          ∧ t.events = s.events ∧ t.f (F.EDG_PWM_PER_per (bitsOf (word ws 0) 3 0)) = word ws 3)
    ∧ (s.Sent e 1 bs → s.mode ≠ .safeBlock → (bitsOf (word ws 0) 7 4 ≠ 0 ∨ bitsOf (word ws 0) 31 14 ≠ 0) →
        ∃ t, exec (.edgeRecord e) s = .next t ∧ t.regs = s.regs ∧ s.raised t = [.sendBad] ∧ (t.eng e).sends = [])
    ∧ (s.Sent e 1 bs → s.mode = .safeBlock →
        ∃ t, exec (.edgeRecord e) s = .next t ∧ t.regs = s.regs ∧ t.events = s.events ∧ (t.eng e).sends = [])

/-- R240, R246, R247, R249 and R250; R256 and R257. -/
def Obligations.SchedulerAndTheFatalTask : Prop :=
  (
    ∀ (s : State) (e : Fin 12) (tc : Fin 192),
      (s.live = true → s.seq.running = true → s.seq.started = true → s.f F.SCH_STAT_tick < 63 →
        ∃ t, exec .schedulerTick s = .next t ∧ t.f F.SCH_STAT_tick = s.f F.SCH_STAT_tick + 1
          ∧ (s.Runs → s.pN * 2 ^ 32 + (s.f F.SCH_STAT_tick + 1) * s.periodNs * 2 ^ 26 ≤ t.nowUnits)
          ∧ (s.tcState tc = tcDelayed → (s.task tc).expiry ≤ s.periodFull * 64 + s.f F.SCH_STAT_tick + 1 →
              t.tcState tc = tcReady ∧ (t.task tc).relCyc = t.cyc)
          ∧ (s.tcState tc = tcDelayed → s.periodFull * 64 + s.f F.SCH_STAT_tick + 1 < (s.task tc).expiry → t.tcState tc = tcDelayed))
      ∧ (s.live = true → s.f F.SCH_STAT_tick = 63 → exec .schedulerTick s = .next s)
      ∧ (∀ p, s.live = true → engOf tc = e → s.tcState tc = tcReady → s.ctl.fatal = false → s.sched.planAt = some p → s.sched.evtCyc ≠ p →
          (∀ x ∈ s.readyTasks e, s.f (F.SCH_TC_CFG_prio tc) ≤ s.f (F.SCH_TC_CFG_prio x)
            ∧ (s.f (F.SCH_TC_CFG_prio x) = s.f (F.SCH_TC_CFG_prio tc) → (s.task tc).relCyc < (s.task x).relCyc
                ∨ ((s.task tc).relCyc = (s.task x).relCyc ∧ tc ≤ x))) → s.engState e ≠ engDispatch →
          ∃ t, exec (.slotLoad e) s = .next t ∧ (t.eng e).slot = some tc.val ∧ t.events = s.events
            ∧ ((s.eng e).slot = some tc.val → s.engState e = engIdle → t.cyc = s.cyc ∧ t.engState e = engDispatch
                ∧ t.engTc e = some tc.val ∧ t.tcState tc = tcRunning ∧ t.sched.planAt = none
                ∧ (t.eng e).chosen = max (s.eng e).freeAt (max (s.eng e).slotAt ((s.task tc).relCyc + 1)))
            ∧ ((s.eng e).slot = some tc.val → s.engState e ≠ engIdle → t.cyc = s.cyc ∧ t.engState e = s.engState e ∧ t.tcState tc = tcReady)
            ∧ ((s.eng e).slot ≠ some tc.val → t.engState e = s.engState e ∧ t.tcState tc = tcReady ∧ t.sched.planAt = some t.cyc
                ∧ (t.eng e).slotAt = t.cyc ∧ (∀ c, (s.eng e).load = some (tc.val, c) → t.cyc = max s.cyc (c + 40))
                ∧ ((s.eng e).load.map Prod.fst ≠ some tc.val → t.cyc = max s.cyc (p + 41))))
      ∧ (s.live = true → s.engState e = engDispatch → s.engTc e = some tc.val → engOf tc = e → s.sched.planAt = none →
          s.ctl.fatal = false ∨ e ≠ 0 →
          ∃ t, exec (.dispatch e) s = .next t ∧ t.engState e = engRunning ∧ t.tcState tc = tcRunning ∧ t.engTc e = some tc.val
            ∧ (t.eng e).slot = none ∧ t.events = s.events ∧ t.cyc = max s.cyc ((s.eng e).chosen + 12)
            ∧ (∀ c, (s.task tc).saved = some c → (t.eng e).ctx = c)
            ∧ ((s.task tc).saved = none → (t.eng e).ctx.pc.toNat = s.f (F.SCH_TC_ENTRY_entry tc)
                ∧ (t.eng e).ctx.xU 0 = s.f (F.SCH_TC_ARG_arg tc) ∧ (∀ r, r ≠ 0 → (t.eng e).ctx.xU r = 0)
                ∧ (∀ r, (t.eng e).ctx.dU r = 0) ∧ (∀ r, (t.eng e).ctx.aS r = 0) ∧ (t.eng e).ctx.stack = []
                ∧ (t.eng e).ctx.lc0.active = false ∧ (t.eng e).ctx.lc1.active = false ∧ (t.eng e).ctx.fl.word = 0))) ∧ (
    ∀ s : State,
      (s.live = true → s.ctl.fatal = true → s.pwr.clkFault = false → s.pwr.pllLocked = true → s.tcState 0 = tcReady →
          s.f F.SCH_FATAL_fatal_state ≤ 1 → s.sched.planAt = none → (∀ x : Fin 192, x ≠ 0 → s.tcState x = tcStopped) →
          s.engState 0 ≠ engDispatch → (s.eng 0).slot = none → (s.eng 0).load = none →
        ∃ t, exec .fatalDispatch s = .next t ∧ t.f F.SCH_FATAL_fatal_state = 2 ∧ t.engState 0 = engRunning ∧ t.engTc 0 = some 0
          ∧ t.cyc = max (s.cyc + 41) (max (s.eng 0).freeAt ((s.task 0).relCyc + 1)) + 12
          ∧ t.tcState 0 = tcRunning ∧ (t.eng 0).ctx.pc.toNat = s.f (F.SCH_TC_ENTRY_entry 0) ∧ (t.eng 0).ctx.xU 0 = s.f (F.SCH_TC_ARG_arg 0)
          ∧ t.f (F.ENG_STAT_fault_code 0) = s.f (F.ENG_STAT_fault_code 0) ∧ t.events = s.events
          ∧ (s.fb F.HIF_DUMP_CFG_dump_en = false → t.grn = s.grn))
      ∧ (s.live = true → s.ctl.fatal = true → s.f F.SCH_FATAL_fatal_state = 2 →
        ∃ t, exec .fatalTimeout s = .next t ∧ t.f F.SCH_FATAL_fatal_state = 4 ∧ t.tcState 0 = tcStopped ∧ t.engState 0 = engHalted
          ∧ t.cyc = max s.cyc (s.sched.fatalCyc + s.f F.SCH_FATAL_fatal_limit * cycPerMs)
          ∧ s.raised t = [.fatalTimeout] ∧ t.mode = s.mode)
      ∧ (s.f F.SCH_FATAL_fatal_state ≠ 2 → exec .fatalTimeout s = .next s)
      ∧ (s.tcState 0 ≠ tcReady → s.engState 0 ≠ engDispatch → s.hif.stageDue = false → exec .fatalDispatch s = .next s)
      ∧ (s.live = true → s.ctl.fatal = true → s.hif.stageDue = true → ∃ t, exec .fatalDispatch s = .next t ∧ t.hif.stageDue = false))

/-- R243, R245, R251 and R252. -/
def Obligations.EventsReleaseAndAbortTasks : Prop :=
  ∀ (s : State) (m : Master) (code : BitVec 8) (tc : Fin 192),
    let mine : Prop := s.MayWrite m ∧ 0x20 ≤ code.toNat ∧ s.paired = false ∧ s.mode.fromMuster = true ∧ s.seq.running = true
      ∧ s.ctl.fatal = false ∧ s.engState (engOf tc) = engRunning ∧ tc.val ≠ 0
      ∧ (∀ x, s.engTc (engOf tc) = some x → x ∉ s.eventTasks code.toNat)
    let byEvent : Prop := s.fb (F.SCH_TC_CFG_en tc) = true ∧ s.f (F.SCH_TC_CFG_kind tc) = 1 ∧ s.f (F.SCH_TC_CFG_evt tc) = code.toNat
    (s.MayWrite m → code.toNat < 0x20 → ∃ t, exec (.evtRaise m code) s = .next t ∧ s.raised t = [.clamp]
      ∧ t.tasks = s.tasks ∧ t.engines = s.engines ∧ (∀ x, t.tcState x = s.tcState x))
    ∧ (mine → byEvent → s.tcState tc = tcDormant → s.f (F.SCH_TC_REL_delay tc) = 0 → s.sched.limitHit = false →
        ∃ t, exec (.evtRaise m code) s = .next t ∧ (t.mode = s.mode → t.tcState tc = tcReady ∧ (t.task tc).saved = none))
    ∧ (mine → byEvent → s.tcState tc = tcDormant → 0 < s.f (F.SCH_TC_REL_delay tc) → s.sched.limitHit = false →
        ∃ t, exec (.evtRaise m code) s = .next t ∧ (t.mode = s.mode → t.tcState tc = tcDelayed
          ∧ (t.task tc).expiry = s.periodFull * 64 + s.f F.SCH_STAT_tick + s.f (F.SCH_TC_REL_delay tc)))
    ∧ (mine → byEvent → s.tcState tc = tcReady → s.f (F.SCH_TC_REL_delay tc) = 0 → s.fb (F.SCH_TC_CFG_crit tc) = false →
        s.sched.limitHit = false → ∃ t, exec (.evtRaise m code) s = .next t ∧ (t.mode = s.mode → t.tcState tc = tcReady)
          ∧ t.fb (F.SCH_TC_STAT_overrun tc) = true
          ∧ t.f (F.SCH_TC_STAT_ovr_cnt tc) = min 0xFFFF (s.f (F.SCH_TC_STAT_ovr_cnt tc) + 1) ∧ .taskOverrun ∈ s.raised t)
    ∧ (mine → ¬ byEvent → s.tcState tc = tcWaiting → (s.task tc).waitEvt = code.toNat → s.sched.limitHit = false →
        ∃ t, exec (.evtRaise m code) s = .next t ∧ (t.mode = s.mode → t.tcState tc = tcWaiting ∧ (t.task tc).saved = (s.task tc).saved
          ∧ t.sched.planAt = some s.cyc ∧ t.sched.evtCyc = s.cyc ∧ code.toNat ∈ t.sched.evts))
    ∧ (∀ p, s.live = true → s.sched.planAt = some p → s.sched.evtCyc = p → (s.task tc).waitEvt ∈ s.sched.evts →
        s.tcState tc = tcWaiting → s.engState (engOf tc) = engRunning →
        ∃ t, exec (.slotLoad (Fin.ofNat 12 (engOf tc))) s = .next t ∧ t.tcState tc = tcReady ∧ (t.task tc).relCyc = p
          ∧ (t.task tc).saved = (s.task tc).saved)

/-- R6 and R7 over every row that is a register write. The value of WRITE_DENIED is log entry 57's, the model's choice. -/
def Obligations.WritesByOthersAreDiscarded : Prop :=
  ∀ (s : State) (m : Master) (i : Instr) (addr : Nat) (v : BitVec 64), s.live = true → s.Settled →
    (addr % 4 = 0 → addr < privBase → exec (.registerWrite m addr 4 v) s = .next s)
    ∧ (s.isOwner m = false →
        (addr % 4 = 0 → privBase ≤ addr →
          exec (.registerWrite m addr 4 v) s
            = .next ((s.bumpF F.HIF_ACC_CNT_denied 1).raiseFrom .writeDenied (0x20 + masterNum m) (masterNum m) 0 addr))
        ∧ (ownerRow i = some m → ∃ a, privBase ≤ a ∧
          exec i s = .next ((s.bumpF F.HIF_ACC_CNT_denied 1).raiseFrom .writeDenied (0x20 + masterNum m) (masterNum m) 0 a)))

/-- R8. The value of WRITE_NARROW is log entry 57's, the model's choice. -/
def Obligations.AccessWidthAndAlignment : Prop :=
  ∀ (s : State) (m : Master) (addr n : Nat) (v : BitVec 64), s.live = true → s.Settled →
    ((n = 1 ∨ n = 2 ∨ n = 3 ∨ (n = 4 ∧ addr % 4 ≠ 0) ∨ (n = 8 ∧ addr % 8 ≠ 0)) →
        exec (.registerWrite m addr n v) s
          = .next ((s.bumpF F.HIF_ACC_CNT_narrow 1).raiseFrom .writeNarrow (0x20 + masterNum m) (masterNum m) 0 addr))
    ∧ (addr % 8 = 0 →
        exec (.registerWrite m addr 8 v) s
          = .next ((s.masterWrite m addr 4 (v.toNat % 2 ^ 32)).masterWrite m (addr + 4) 4 (v.toNat / 2 ^ 32)).settle)
    ∧ ((n = 2 ∧ addr % 2 ≠ 0 ∨ n = 4 ∧ addr % 4 ≠ 0 ∨ n = 8 ∧ addr % 8 ≠ 0) →
        exec (.readClear m addr n) s = .next { s with rdata := List.replicate n 0, poisoned := false })
    ∧ ((n = 1 ∨ n = 2) → addr % n = 0 → addr < 2 * privBase →
        ∃ t u, exec (.readClear m addr n) s = .next t ∧ exec (.readClear m (addr - addr % 4) 4) s = .next u
          ∧ t.rdata = (u.rdata.drop (addr % 4)).take n ∧ t.snaps = u.snaps ∧ t.events = s.events
          ∧ (∀ x, x ≠ (addr - addr % 4) % privBase → (∀ e : Fin 12, x ≠ R.ENG_PM_ADDR e ∧ x ≠ R.ENG_DM_ADDR e) → t.rd x = s.rd x))
    ∧ (∀ x, (n = 1 ∨ n = 2) → addr % n = 0 → addr < 2 * privBase → lookup ((addr - addr % 4) % privBase) = some x →
        x.1.priv = false ∨ privBase ≤ addr → isSnapHigh x.1.reg = false →
        let off := (addr - addr % 4) % privBase
        let u := if x.1.reg = .LPHY_ERRCNT then s.noSigTake x.2.1 else s
        ∃ t, exec (.readClear m addr n) s = .next t ∧ ∀ fd ∈ x.1.fields, fd.acc = .rc →
          bitsOf (t.rd off) fd.hi fd.lo
            = (if fd.touched (addr % 4) n then bitsOf (u.rd off &&& u.justSet off) fd.hi fd.lo else bitsOf (u.rd off) fd.hi fd.lo))

/-- R9, R10 and R13 for the registers of the control period. -/
def Obligations.LockedTimingRegisters : Prop :=
  ∀ (s : State) (m : Master) (v : BitVec 64), s.MayWrite m → v.toNat < 2 ^ 32 →
    (∀ x ∈ [F.GLB_PERIOD_period_steps, F.GLB_GATHER_DEADLINE_deadline_steps, F.GLB_ORDER_OFFSET_order_offset_steps,
        F.GLB_EDGE_OFFSET_edge_offset_steps, F.GLB_ORIGIN_NS_origin_ns, F.GLB_ORIGIN_SEC_LO_origin_sec_lo,
        F.GLB_ORIGIN_SEC_HI_origin_sec_hi, F.NCL_CELL_LIMIT_max_min_insert],
      s.mode ≠ .configure → ∃ t, exec (.registerWrite m (privBase + x.off) 4 v) s = .next t ∧ t.rd x.off = s.rd x.off
        ∧ (bitsOf v.toNat x.hi x.lo ≠ s.f x → .writeLocked ∈ s.raised t ∧ t.f F.HIF_ACC_CNT_locked = min 255 (s.f F.HIF_ACC_CNT_locked + 1))
        ∧ (v.toNat = s.rd x.off → s.raised t = []))
    ∧ (s.mode = .configure → ∃ t, exec (.registerWrite m (privBase + R.GLB_PERIOD) 4 v) s = .next t
        ∧ t.f F.GLB_PERIOD_period_steps = max 1000 (min 20000 (v.toNat % 2 ^ 15))
        ∧ (1000 ≤ v.toNat % 2 ^ 15 → v.toNat % 2 ^ 15 ≤ 20000 → .clamp ∉ s.raised t)
        ∧ (v.toNat % 2 ^ 15 < 1000 ∨ 20000 < v.toNat % 2 ^ 15 → .clamp ∈ s.raised t))

/-- R12, and the RC rule of R9 for NCL_ERRCNT. -/
def Obligations.SnapshotsAndReadClear : Prop :=
  ∀ (s u : State) (m k : Master) (l : Fin 48), s.live = true → u.live = true →
    (∃ t, exec (.snapshotRead m R.TIM_NOW_NS 4) s = .next t ∧ t.rdata = leBytes 4 (s.now.ns % nsPerSec) ∧ t.regs = s.regs
      ∧ (k ≠ m → ∀ off, off < 2 ^ 24 → tget 0 t.snaps (snapKey k off) = tget 0 s.snaps (snapKey k off))
      ∧ (u.snaps = t.snaps → ∃ w, exec (.snapshotRead m R.TIM_NOW_SEC_LO 4) u = .next w
          ∧ w.rdata = leBytes 4 (s.now.ns / nsPerSec % 2 ^ 32)))
    ∧ (∃ t, exec (.snapshotRead m R.GLB_PERIOD_POS_LO 4) s = .next t ∧ t.rdata = leBytes 4 (min 0x1FFFF (s.now.ns - s.pN))
      ∧ (u.snaps = t.snaps → ∃ w, exec (.snapshotRead m R.GLB_PERIOD_POS_HI 4) u = .next w ∧ w.rdata = leBytes 4 s.periodNum))
    ∧ (tget 0 s.snaps (snapKey m R.GLB_PERIOD_POS_HI) = 0 →
        ∃ w, exec (.snapshotRead m R.GLB_PERIOD_POS_HI 4) s = .next w ∧ w.rdata = [0, 0, 0, 0])
    ∧ (∃ t, exec (.readClear m (R.NCL_ERRCNT l) 4) s = .next t ∧ t.rdata = leBytes 4 (s.rd (R.NCL_ERRCNT l))
      ∧ t.rd (R.NCL_ERRCNT l) = (s.rd (R.NCL_ERRCNT l) &&& s.justSet (R.NCL_ERRCNT l)) ∧ (∀ off, off ≠ R.NCL_ERRCNT l → t.rd off = s.rd off) ∧ t.events = s.events)

/-- R371, R374 and R479. -/
def Obligations.ClaimsAndLeases : Prop :=
  ∀ (s : State) (p : Fin 2) (v : W32) (m : Nat), s.live = true → m < 3 →
    (s.f F.HIF_OWN_STAT_owner = 3 → v.getLsbD 0 = true → ∃ t, exec (.claim p v) s = .next t ∧ t.coreTick.owner = p ∧ t.owner = 3
        ∧ s.raised t = [.ownChange]
        ∧ t.f F.HIF_OWN_STAT_last_cause = 0 ∧ t.f F.HIF_OWN_STAT_changes = (s.f F.HIF_OWN_STAT_changes + 1) % 2 ^ 16
        ∧ t.hif.leaseFrom = s.cyc + 1 ∧ (t.events.getLast?).map Event.time = some (BitVec.ofNat 64 (timeWord s.coreTick.stampNs))
        ∧ (s.linkUp 0 = true → tget 0 t.hif.msix 32 = tget 0 s.hif.msix 32 + 1))
    ∧ (s.f F.HIF_OWN_STAT_owner = 3 → ∃ t, exec .mspiClaim s = .next t ∧ t.coreTick.owner = 2 ∧ t.owner = 3 ∧ s.raised t = [.ownChange])
    ∧ (∀ x, s.hif.freeClaim = some x → x.cyc = s.cyc → x.masters = [1] → x.wins = [] → x.asked = [] → s.f F.HIF_OWN_STAT_owner = 1 →
        v.getLsbD 0 = true →
        ∃ t, exec (.claim 0 v) s = .next t ∧ t.coreTick.owner = 0 ∧ bitOf (t.f F.HIF_OWN_STAT_claim_pend) 1 = true
          ∧ t.hif.tieWins = [(1, 0)])
    ∧ (s.owner < 3 → s.owner ≠ p → v.getLsbD 0 = true → bitOf (s.f F.HIF_OWN_STAT_claim_pend) p = false →
        ∃ t, exec (.claim p v) s = .next t ∧ t.owner = s.owner ∧ bitOf (t.f F.HIF_OWN_STAT_claim_pend) p = true
          ∧ s.raised t = [.ownRequest])
    ∧ (s.owner < 3 → s.owner ≠ p → v.getLsbD 0 = true → bitOf (s.f F.HIF_OWN_STAT_claim_pend) p = true →
        ∃ t, exec (.claim p v) s = .next t ∧ t.regs = s.regs ∧ t.events = s.events)
    ∧ (v.getLsbD 0 = false → ∃ t, exec (.claim p v) s = .next t ∧ t.regs = s.regs ∧ t.events = s.events)
    ∧ (s.owner = p → v.getLsbD 0 = true → ∃ t, exec (.keepalive p v) s = .next t ∧ t.hif.leaseFrom = s.cyc ∧ t.regs = s.regs)
    ∧ (s.owner = 2 → ∃ t, exec .mspiKeepalive s = .next t ∧ t.hif.leaseFrom = s.cyc ∧ t.regs = s.regs)
    ∧ (s.owner < 3 → s.f F.HIF_OWN_CFG_lease_ms ≠ 0 → s.f F.HIF_OWN_STAT_claim_pend = 0 →
        ∃ t, exec .leaseExpire s = .next t ∧ t.owner = 3 ∧ s.raised t = [.ownLost, .ownChange]
          ∧ t.f F.HIF_OWN_STAT_last_cause = 3 ∧ t.mode = s.mode
          ∧ t.cyc = max s.cyc (s.hif.leaseFrom + s.f F.HIF_OWN_CFG_lease_ms * cycPerMs))
    ∧ (s.owner < 3 → s.f F.HIF_OWN_CFG_lease_ms ≠ 0 → s.f F.HIF_OWN_STAT_claim_pend = 2 ^ m →
        ∃ t, exec .leaseExpire s = .next t ∧ t.owner = m ∧ s.raised t = [.ownLost, .ownChange, .ownChange]
          ∧ t.f F.HIF_OWN_STAT_claim_pend = 0)

/-- R370 and R373. -/
def Obligations.HandOverOfOwnership : Prop :=
  ∀ (s : State) (m : Master) (dest : Fin 3) (p : Fin 2) (speed : Fin 4) (width : Fin 9),
    (s.MayWrite m → s.hif.handover = none → bitOf (s.f F.HIF_OWN_STAT_claim_pend) dest = true →
        ∃ t, exec (.ownerHandover m dest) s = .next t ∧ t.hif.handover = some dest.val ∧ t.owner = s.owner ∧ t.events = s.events)
    ∧ (s.MayWrite m → s.hif.handover = none → bitOf (s.f F.HIF_OWN_STAT_claim_pend) dest = false →
        ∃ t, exec (.ownerHandover m dest) s = .next t ∧ t.hif.handover = none ∧ t.fb F.HIF_OWN_STAT_own_refused = true)
    ∧ (s.MayWrite m → s.hif.handover = none → ∃ t, exec (.ownerRelease m) s = .next t ∧ t.hif.handover = some 3 ∧ t.owner = s.owner)
    ∧ (s.MayWrite m → s.hif.handover.isSome = true → ∃ t, exec (.ownerRelease m) s = .next t ∧ t.hif.handover = s.hif.handover)
    ∧ (s.Settled → s.hif.handover = some dest.val → bitOf (s.f F.HIF_OWN_STAT_claim_pend) dest = true → s.pair.deferred = [] →
        s.pair.capLast = [] → s.pair.capNow = [] → s.pair.input = none →
        ∃ t, exec .handoverComplete s = .next t ∧ t.owner = dest ∧ t.hif.handover = none ∧ s.raised t = [.ownChange]
          ∧ t.f F.HIF_OWN_STAT_last_cause = 1 ∧ bitOf (t.f F.HIF_OWN_STAT_claim_pend) dest = false)
    ∧ (s.Settled → s.hif.handover = some 3 → s.f F.HIF_OWN_STAT_claim_pend = 0 → s.pair.deferred = [] → s.pair.capLast = [] →
        s.pair.capNow = [] → s.pair.input = none →
        ∃ t, exec .handoverComplete s = .next t ∧ t.owner = 3 ∧ t.hif.handover = none ∧ s.raised t = [.ownChange]
          ∧ t.f F.HIF_OWN_STAT_last_cause = 2)
    ∧ (s.linkUp p = true → s.f F.HIF_OWN_STAT_owner ≠ p → (∀ c < 16, s.dmaBound p c = false) →
        ∃ t, exec (.portDown p) s = .next t ∧ t.linkUp p = false ∧ t.f F.HIF_OWN_STAT_owner = s.f F.HIF_OWN_STAT_owner ∧ s.raised t = [.portDown]
          ∧ bitOf (t.f F.HIF_OWN_STAT_claim_pend) p = false ∧ (∀ r < 5, t.fb (F.HIF_RING_CFG_en p r) = false) ∧ t.mode = s.mode)
    ∧ (s.linkUp p = true → s.f F.HIF_OWN_STAT_owner = p → (∀ c < 16, s.dmaBound p c = false) →
        setBits (s.f F.HIF_OWN_STAT_claim_pend) p p 0 = 0 →
        ∃ t, exec (.portDown p) s = .next t ∧ t.owner = 3 ∧ s.raised t = [.portDown, .ownLost, .ownChange])
    ∧ (s.linkUp p = true → ∃ t, exec (.portDown p) s = .next t ∧ ∀ c < 16, s.dmaBound p c = true →
        t.dmaState c = dmaHalted ∧ t.fb (F.HIF_DMA_STAT_halt c) = true ∧ (t.dmaCh c).desc = none ∧ .dmaHalt ∈ s.raised t)
    ∧ (s.fb F.HIF_CFG_bif = true ∨ p = 0 →
        ∃ t, exec (.portLinkUp p speed width) s = .next t ∧ t.linkUp p = true ∧ t.f (F.HIF_PORT_STAT_speed p) = speed.val + 1
          ∧ t.f (F.HIF_PORT_STAT_width p) ∈ [1, 2, 4, 8] ∧ (s.fb F.HIF_CFG_bif = true → t.f (F.HIF_PORT_STAT_width p) ≤ 4)
          ∧ (width.val ∈ [1, 2, 4] → t.f (F.HIF_PORT_STAT_width p) = width.val)
          ∧ (width.val = 8 → s.fb F.HIF_CFG_bif = false → t.f (F.HIF_PORT_STAT_width p) = 8))
    ∧ (s.fb F.HIF_CFG_bif = false → exec (.portLinkUp 1 speed width) s = .next s)

/-- R376 to R378; R377, R379, R380, R388 and R390. -/
def Obligations.DoorbellsRingsAndEvents : Prop :=
  (
    ∀ (s : State) (m : Master) (p : Fin 2) (a : Fin 12) (r : Fin 5) (v : W32), s.live = true →
      (∀ x ∈ [(Instr.cmdDoorbell p v, ringCmd, 0, ringKey p ringCmd), (.eventHeadDoorbell p v, ringEvent, 0x8, ringKey p ringEvent),
          (.telHeadDoorbell p a v, ringTel, 0x10 + a.val * 8, telKey p a), (.dumpHeadDoorbell p v, ringDump, 0x80, ringKey p ringDump)],
        (v.toNat < s.ringEntries p x.2.1 → ∃ t, exec x.1 s = .next t ∧ t.doorbell p x.2.2.1 = v.toNat ∧ (t.ring x.2.2.2).host = v.toNat
          ∧ (∀ (q : Fin 2) off, off < 65536 → (q, off) ≠ (p, x.2.2.1) → t.doorbell q off = s.doorbell q off)
          ∧ t.regs = s.regs ∧ t.events = s.events)
        ∧ (s.ringEntries p x.2.1 ≤ v.toNat → exec x.1 s = .next ((s.setDoorbell p x.2.2.1 v.toNat).raise .dbRefused p 0 x.2.2.1)))
      ∧ (s.MayWrite m → v.getLsbD 31 = true → s.fb (F.HIF_RING_CFG_en p r) = false →
          ∃ t, exec (.ringEnable m p r v) s = .next t ∧ t.fb (F.HIF_RING_CFG_en p r) = true ∧ t.f (F.HIF_RING_STAT_dev_idx p r) = 0
            ∧ (ringLen r).1 ≤ t.f (F.HIF_RING_CFG_log2_len p r) ∧ t.f (F.HIF_RING_CFG_log2_len p r) ≤ (ringLen r).2
            ∧ (r.val = 0 ∨ r.val = 1 ∨ r.val = 3 → t.ring (ringKey p r) = { idx := 0, phase := true, lost := false, host := 0 })
            ∧ (r.val = 2 → t.ring (telKey p a) = { idx := 0, phase := true, lost := false, host := 0 }))
      ∧ (s.MayWrite m → v.getLsbD 31 = false →
          ∃ t, exec (.ringEnable m p r v) s = .next t ∧ t.fb (F.HIF_RING_CFG_en p r) = false ∧ t.hif.rings = s.hif.rings)) ∧ (
    ∀ (s : State) (p : Fin 2) (lost : BitVec 4) (e : Event) (rest : List Event),
      let k := ringKey p ringEvent
      let x := s.ring k
      (s.events = e :: rest → e.payload.length = 16 → (∀ q : Fin 2, s.ringBase q ringEvent + 0x200000 ≤ 2 ^ 64) →
        ∃ t, exec (.eventWrite lost) s = .next t
          ∧ (s.fb F.REC_EVT_MATCH_en = false → s.sched.limitHit = false → ∃ more, t.events = rest ++ more)
          ∧ (s.ringOn p ringEvent = true → (x.idx + 1) % s.ringEntries p ringEvent ≠ x.host → x.idx < s.ringEntries p ringEvent →
              t.hostRead p (s.ringBase p ringEvent + x.idx * 32) 32
                  = leBytes 2 e.code.code ++ leBytes 1 e.source ++ leBytes 1 (b2n x.lost + b2n x.phase * 128) ++ leBytes 4 e.seq
                    ++ leBytes 8 e.time.toNat ++ e.payload
                ∧ (t.ring k).idx = (x.idx + 1) % s.ringEntries p ringEvent ∧ (t.ring k).lost = false
                ∧ t.f (F.HIF_RING_STAT_dev_idx p ringEvent) = (x.idx + 1) % s.ringEntries p ringEvent)
          ∧ (s.ringOn p ringEvent = true → (x.idx + 1) % s.ringEntries p ringEvent = x.host →
              t.f (F.HIF_RING_STAT_drop p ringEvent) = min 0xFFFF (s.f (F.HIF_RING_STAT_drop p ringEvent) + 1)
                ∧ (t.ring k).idx = x.idx ∧ (t.ring k).lost = true)
          ∧ (s.ringOn 0 ringEvent = false → s.ringOn 1 ringEvent = false → t.hostMem = s.hostMem))
      ∧ (s.hif.unsignalled.getD p 0 > 0 → s.linkUp p = true → ∃ t, exec (.eventVectorTimeout p) s = .next t
          ∧ t.hif.unsignalled.getD p 0 = 0 ∧ tget 0 t.hif.msix (p * 64) = tget 0 s.hif.msix (p * 64) + 1
          ∧ t.cyc = max s.cyc (s.hif.firstAt.getD p 0 + s.f F.HIF_CFG_ev_time * cycPerUs) ∧ s.SameRegs t ∧ t.events = s.events)
      ∧ (s.hif.statusDue.getD p false = true → s.ringOn p ringStatus = true →
          ∃ t, exec (.statusBlockWrite p) s = .next t ∧ t.regs = s.regs ∧ t.hif.statusDue.getD p false = false
            ∧ (∀ y ∈ [(0, ringCmd), (2, ringEvent), (4, ringDump)],
                t.hostRead p (s.ringBase p ringStatus + y.1) 2 = leBytes 2 (s.ring (ringKey p y.2)).idx)
            ∧ (∀ a < 12, t.hostRead p (s.ringBase p ringStatus + 8 + 2 * a) 2 = leBytes 2 (s.ring (telKey p a)).idx)
            ∧ t.hostRead p (s.ringBase p ringStatus + 32) 8 = leBytes 8 (timeWord s.now.ns)
            ∧ t.hostRead p (s.ringBase p ringStatus + 40) 24 = leBytes 24 0))

/-- R393, R395 to R397. -/
def Obligations.TelemetryAndDumpRecords : Prop :=
  ∀ (s : State) (p : Fin 2) (a : Fin 12) (r : TelRec),
    (s.hif.tel.find? (fun x => x.port == p.val && x.arm == a.val) = some r → s.ringOn p ringTel = true →
      s.nowUnits ≤ (s.boundary (r.period + 1) + s.f F.GLB_GATHER_DEADLINE_deadline_steps * 5) * 2 ^ 32 →
      ((s.ring (telKey p a)).idx + 1) % s.ringEntries p ringTel ≠ (s.ring (telKey p a)).host →
      ∃ t, exec (.telRecordWritten p a) s = .next t
        ∧ t.hostRead p (s.ringBase p ringTel
            + (a * s.ringEntries p ringTel + (s.ring (telKey p a)).idx) * (s.f (F.HIF_RING_CFG_elem p ringTel) * 1024)) 5
          = leBytes 4 r.period ++ leBytes 1 a
        ∧ (t.ring (telKey p a)).idx = ((s.ring (telKey p a)).idx + 1) % s.ringEntries p ringTel
        ∧ tget 0 t.hif.msix (p * 64 + (2 + a)) = tget 0 s.hif.msix (p * 64 + (2 + a)) + 1
        ∧ t.hif.tel = s.hif.tel.erase r ∧ t.events = s.events)
    ∧ (s.hif.tel.find? (fun x => x.port == p.val && x.arm == a.val) = some r → s.ringOn p ringTel = true →
      ((s.ring (telKey p a)).idx + 1) % s.ringEntries p ringTel = (s.ring (telKey p a)).host
        ∨ (s.boundary (r.period + 1) + s.f F.GLB_GATHER_DEADLINE_deadline_steps * 5) * 2 ^ 32 < s.nowUnits →
      ∃ t, exec (.telRecordWritten p a) s = .next t ∧ t.hostMem = s.hostMem ∧ (t.ring (telKey p a)).lost = true
        ∧ t.f (F.HIF_RING_STAT_drop p ringTel) = min 0xFFFF (s.f (F.HIF_RING_STAT_drop p ringTel) + 1)
        ∧ (¬ s.hif.telSeen.contains (p * 32 + a) = true → .telOverflow ∈ s.raised t))
    ∧ (s.live = true → s.hif.dumpBusy = true → s.ringOn p ringDump = true →
      (∀ q : Fin 2, s.ringBase q ringDump + 2 ^ 40 ≤ 2 ^ 64 ∧ (s.ring (ringKey q ringDump)).idx < 16) →
      ∃ t, exec (.dumpCopyDone) s = .next t ∧ t.hif.dumpBusy = false ∧ .dumpDone ∈ s.raised t
        ∧ tget 0 t.hif.msix (p * 64 + 14) = tget 0 s.hif.msix (p * 64 + 14) + 1
        ∧ t.hostRead p (s.ringBase p ringDump + (s.ring (ringKey p ringDump)).idx * (s.f (F.HIF_RING_CFG_elem p ringDump) * 65536)) 4
            = leBytes 4 0x504D5544
        ∧ (t.ring (ringKey p ringDump)).idx = ((s.ring (ringKey p ringDump)).idx + 1) % s.ringEntries p ringDump
        ∧ t.mode = s.mode)

/-- R377, R380 to R385. -/
def Obligations.CommandEntriesCheckedAndApplied : Prop :=
  ∀ (s : State) (p : Fin 2) (e : List Byte) (i : Instr) (k : Nat), s.EntryAt p e → (i, k) ∈ cmdRows p e →
    let x := (s.ring (ringKey p ringCmd)).idx
    let n := fieldAt e 2 2
    let plain : Prop := fieldAt e 0 1 = k ∧ s.owner = p ∧ s.paired = false ∧ cmdFieldsOk (entry64 e) = true ∧ s.Quiet
    (fieldAt e 0 1 > 5 → ∃ t, exec i s = .next t ∧ s.Completes t e 1 x ∧ s.HeadMoved t p ∧ t.grn = s.grn ∧ t.dm = s.dm)
    ∧ (fieldAt e 0 1 = k → 1 ≤ k → k ≤ 4 → s.owner ≠ p →
        ∃ t, exec i s = .next t ∧ s.Completes t e 3 x ∧ s.HeadMoved t p ∧ t.grn = s.grn ∧ t.dm = s.dm
          ∧ (∀ off, off ≠ R.HIF_RING_STAT p ringCmd → t.rd off = s.rd off))
    ∧ (fieldAt e 0 1 = k → 1 ≤ k → k ≤ 4 → s.owner = p → s.paired = true → s.holder = false →
        ∃ t, exec i s = .next t ∧ s.raised t = [.fwdRefused, .cmdDone] ∧ s.HeadMoved t p ∧ t.grn = s.grn ∧ t.dm = s.dm)
    ∧ (fieldAt e 0 1 = k → s.owner = p → s.paired = false → cmdFieldsOk (entry64 e) = false →
        ∃ t, exec i s = .next t ∧ s.Completes t e 2 x ∧ s.HeadMoved t p ∧ t.grn = s.grn ∧ t.dm = s.dm
          ∧ (∀ off, off ≠ R.HIF_RING_STAT p ringCmd → t.rd off = s.rd off))
    ∧ (plain → k = 0 → ∃ t, exec i s = .next t ∧ s.HeadMoved t p ∧ t.grn = s.grn ∧ t.dm = s.dm
        ∧ (fieldAt e 1 1 = 1 → s.Completes t e 0 x) ∧ (fieldAt e 1 1 = 0 → t.events = s.events))
    ∧ (plain → k = 1 → n = 1 → ∀ y : Fin 12, fieldAt e 16 4 = R.ENG_PM_ADDR y →
        ∃ t, exec i s = .next t ∧ s.HeadMoved t p ∧ t.f (F.ENG_PM_ADDR_addr y) = fieldAt e 20 4 % 2 ^ 14
          ∧ (∀ off, off ≠ R.HIF_RING_STAT p ringCmd → off ≠ R.ENG_PM_ADDR y → t.rd off = s.rd off)
          ∧ (fieldAt e 1 1 = 1 → s.Completes t e 0 x))
    ∧ (plain → k = 2 → ∃ t, exec i s = .next t ∧ s.HeadMoved t p ∧ t.grn = s.grn
        ∧ (∀ y < 4 * n, tget 0 t.dm (fieldAt e 8 1 * dmSize + fieldAt e 10 2 + y) = e.getD (16 + y) 0)
        ∧ (∀ key, (key < fieldAt e 8 1 * dmSize + fieldAt e 10 2 ∨ fieldAt e 8 1 * dmSize + fieldAt e 10 2 + 4 * n ≤ key) →
            tget 0 t.dm key = tget 0 s.dm key))
    ∧ (plain → k = 3 → ∃ t, exec i s = .next t ∧ s.HeadMoved t p ∧ t.dm = s.dm
        ∧ (∀ y < n, t.grnByte (fieldAt e 8 4 + y) = e.getD (16 + y) 0)
        ∧ (∀ a, (a < fieldAt e 8 4 ∨ fieldAt e 8 4 + n ≤ a) → t.grnByte a = s.grnByte a)
        ∧ (fieldAt e 1 1 = 1 → s.Completes t e 0 x))
    ∧ (k = 4 → fieldAt e 0 1 = 4 → s.owner = p → s.paired = false → cmdFieldsOk (entry64 e) = true → s.seq.running = false →
        s.sched.limitHit = false → ∃ t, exec i s = .next t ∧ s.HeadMoved t p
          ∧ t.sched.planAt = some s.cyc ∧ t.sched.evtCyc = s.cyc ∧ fieldAt e 8 1 ∈ t.sched.evts)
    ∧ (fieldAt e 0 1 = k → 1 ≤ k → k ≤ 4 → s.owner = p → s.paired = false → cmdFieldsOk (entry64 e) = true → s.seq.running = true →
        ∃ t, exec i s = .next t ∧ s.HeadMoved t p ∧ t.grn = s.grn ∧ t.dm = s.dm ∧ t.events = s.events
          ∧ t.pair.capNow = s.pair.capNow ++ [{ kind := 4, source := p, ns := s.now.ns, payload := e, index := some x, ord := s.hif.capSeq + 1 }])
    ∧ (k = 5 → fieldAt e 0 1 = 5 → cmdFieldsOk (entry64 e) = true →
        ∃ t, exec i s = .next t ∧ s.HeadMoved t p ∧ t.events = s.events
          ∧ ∃ f, t.hif.fences = s.hif.fences ++ [f] ∧ f.source = p.val ∧ f.tag = fieldAt e 4 4 ∧ f.index = x ∧ f.instant = s.nowUnits ∧ f.master = p.val
            ∧ f.scope = fieldAt e 10 1 ∧ ∀ c < 16, ((∃ d, (c, d) ∈ f.descs) ↔
                (bitOf (fieldAt e 8 2) c = true ∧ (s.dmaCh c).desc.isSome = true)))

/-- R384, R386 and R387. -/
def Obligations.FencesAndTheMailbox : Prop :=
  ∀ (s : State) (m : Master) (f : Fence),
    (s.hif.fences = [f] → f.notify = true → s.pair.deferred = [] → s.pair.capLast = [] → s.pair.capNow = [] → s.pair.input = none →
      (f.scope.testBit 0 = true → ∀ v ∈ s.events, f.instant / 2 ^ 32 < instantOf v.time.toNat) →
      (f.scope.testBit 1 = true → s.hif.tel = []) → (f.scope.testBit 2 = true → s.hif.dumpBusy = false) →
      (∀ d ∈ f.descs, (s.dmaCh d.1).desc = none) →
      ∃ t ev, exec .fenceComplete s = .next t ∧ t.hif.fences = [] ∧ t.events = s.events ++ [ev] ∧ ev.code = .cmdDone
        ∧ ev.time = BitVec.ofNat 64 (timeWord (f.instant / 2 ^ 32)) ∧ ev.source = 0x20 + f.master
        ∧ ev.payload.take 8 = leBytes 4 f.tag ++ leBytes 1 5 ++ leBytes 1 0 ++ leBytes 2 f.index)
    ∧ (s.hif.fences = [f] → f.scope.testBit 0 = true → (∃ v ∈ s.events, instantOf v.time.toNat ≤ f.instant / 2 ^ 32) →
        exec .fenceComplete s = .next s)
    ∧ (s.MayWrite m → s.fb F.HIF_MBOX_CTL_busy = false → s.hif.handover = none → fieldAt s.mboxEntry 0 2 = 0x100 →
        cmdFieldsOk (entry64 s.mboxEntry) = true →
        ∃ t, exec (.mailboxGo m) s = .next t ∧ t.fb F.HIF_MBOX_CTL_busy = false ∧ t.f F.HIF_MBOX_CTL_status = 0
          ∧ s.Completes t s.mboxEntry 0 0xFFFF)
    ∧ (s.MayWrite m → s.fb F.HIF_MBOX_CTL_busy = true →
        ∃ t, exec (.mailboxGo m) s = .next t ∧ (∀ off, t.rd off = s.rd off) ∧ t.events = s.events ∧ t.hif = s.hif)

/-- R399 and R405. -/
def Obligations.DmaStartsStopsAndRefusals : Prop :=
  ∀ (s : State) (m : Master) (p : Fin 2) (c : Fin 16) (v : W32), s.live = true → s.dumpChannel c = false →
    (s.fb (F.HIF_DMA_CTL_eng_owned c) = false → s.f (F.HIF_DMA_CTL_port c) = p → s.fb (F.HIF_DMA_CTL_en c) = true →
      (s.dmaState c = dmaIdle ∨ s.dmaState c = dmaHalted →
        ∃ t, exec (.dmaDoorbell p c v) s = .next t ∧ t.dmaState c = dmaRunning ∧ t.events = s.events
          ∧ t.dmaCh c = { s.dmaCh c with desc := none, nextAddr := s.rd (R.HIF_DMA_HEAD_LO c) / 32 * 32 + s.rd (R.HIF_DMA_HEAD_HI c) * 2 ^ 32, hops := 0 })
      ∧ (s.dmaState c = dmaRunning → ∃ t, exec (.dmaDoorbell p c v) s = .next t ∧ t.dmaState c = dmaRunning
          ∧ t.fb (F.HIF_DMA_STAT_pending c) = true ∧ t.dmaCh c = s.dmaCh c ∧ t.events = s.events))
    ∧ (s.fb (F.HIF_DMA_CTL_eng_owned c) = true ∨ s.f (F.HIF_DMA_CTL_port c) ≠ p →
        exec (.dmaDoorbell p c v) s = .next ((s.setDoorbell p (0x100 + c * 8) v.toNat).raise .dbRefused p 0 (0x100 + c * 8)))
    ∧ (s.MayWrite m → ∃ t, exec (.dmaDisable m c) s = .next t ∧ (t.dmaCh c).desc = none ∧ t.dmaState c = dmaDisabling
        ∧ t.grn = s.grn ∧ t.dm = s.dm ∧ t.hostMem = s.hostMem)
    ∧ (s.dmaState c = dmaDisabling → ∃ t, exec (.dmaDisableDone c) s = .next t ∧ t.dmaState c = dmaIdle
        ∧ t.fb (F.HIF_DMA_STAT_pending c) = false ∧ t.events = s.events
        ∧ (∀ off, off ≠ R.HIF_DMA_STAT c → t.rd off = s.rd off))

/-- R399 to R404. -/
def Obligations.DmaDescriptors : Prop :=
  ∀ (s : State) (c : Fin 16) (bytes d data : List Byte) (ok err : Bool) (ecc : List Ecc),
    let x := s.dmaCh c
    let len := fieldAt d 16 4
    let port := s.f (F.HIF_DMA_CTL_port c)
    let ends : Prop := s.dmaState c = dmaRunning ∧ x.desc = some d ∧ s.fb (F.HIF_DMA_CTL_chain_space c) = false
      ∧ (fieldAt d 20 1).testBit 4 = false ∧ s.sched.limitHit = false
    let alone : Prop := ∀ y ∈ s.hif.dmaWrote, y.cyc ≠ s.cyc
    (s.dmaState c = dmaRunning → x.desc = none → s.fb (F.HIF_DMA_CTL_chain_space c) = false → s.linkUp port = true →
      bytes.length = 32 → ∃ t, exec (.dmaDescriptorFetch c bytes true ecc) s = .next t ∧ (t.dmaCh c).desc = some bytes
        ∧ (t.dmaCh c).hops = x.hops + 1 ∧ t.events = s.events ∧ t.rd (R.HIF_DMA_CUR_LO c) = x.nextAddr % 2 ^ 32)
    ∧ (s.dmaState c = dmaRunning → x.desc = none → s.fb (F.HIF_DMA_CTL_chain_space c) = false → (ok = false ∨ s.linkUp port = false) →
      ∃ t, exec (.dmaDescriptorFetch c bytes ok ecc) s = .next t ∧ t.dmaState c = dmaHalted ∧ t.fb (F.HIF_DMA_STAT_halt c) = true
        ∧ t.fb (F.HIF_DMA_STAT_pending c) = false ∧ s.raised t = [.dmaHalt] ∧ t.rd (R.HIF_DMA_CUR_LO c) = x.nextAddr % 2 ^ 32)
    ∧ (∀ y, ends → descRefused d = none → bitsOf (fieldAt d 20 1) 3 0 = 4 → data.length = len → s.linkUp port = true →
      s.hif.dmaWrote = [y] → y.cyc = s.cyc → y.ch < 16 → y.ch ≠ c → y.space = 1 → y.addr = fieldAt d 8 8 → y.bytes.length = len → s.hif.dmaWins = [] →
      ∃ t, exec (.dmaDescriptorEnd c data false ecc) s = .next t ∧ t.hif.dmaWins = [(max y.ch c, min y.ch c)]
        ∧ t.grnRead (fieldAt d 8 8) len = (if c < y.ch then y.bytes else data))
    ∧ (ends → alone → descRefused d = none → bitsOf (fieldAt d 20 1) 3 0 = 4 → data.length = len → s.linkUp port = true →
      ∃ t, exec (.dmaDescriptorEnd c data false ecc) s = .next t
        ∧ (∀ i (h : i < data.length), t.grnByte (fieldAt d 8 8 + i) = data[i])
        ∧ (∀ a, (a < fieldAt d 8 8 ∨ fieldAt d 8 8 + len ≤ a) → t.grnByte a = s.grnByte a)
        ∧ t.f (F.HIF_DMA_STAT_done_cnt c) = min 0xFFFF (s.f (F.HIF_DMA_STAT_done_cnt c) + 1)
        ∧ t.hostRead port (x.nextAddr + 23) 1 = [1] ∧ (t.dmaCh c).desc = none
        ∧ ((fieldAt d 20 1).testBit 5 = true → s.fb (F.HIF_DMA_STAT_pending c) = false → t.dmaState c = dmaIdle ∧ t.events = s.events)
        ∧ ((fieldAt d 20 1).testBit 5 = true → s.fb (F.HIF_DMA_STAT_pending c) = true →
            t.dmaState c = dmaRunning ∧ t.fb (F.HIF_DMA_STAT_pending c) = false ∧ (t.dmaCh c).nextAddr = s.dmaHead c)
        ∧ ((fieldAt d 20 1).testBit 5 = false → x.hops < s.f (F.HIF_DMA_HOPS_max_hops c) →
            t.dmaState c = dmaRunning ∧ (t.dmaCh c).nextAddr = fieldAt d 24 8 / 32 * 32 ∧ t.events = s.events)
        ∧ ((fieldAt d 20 1).testBit 5 = false → s.f (F.HIF_DMA_HOPS_max_hops c) ≤ x.hops →
            t.fb (F.HIF_DMA_STAT_loop c) = true ∧ s.raised t = [.dmaLoop]))
    ∧ (ends → ∀ st ∈ [4, 5], (st = 5 → bitsOf (fieldAt d 20 1) 3 2 = 3 ∨ (bitsOf (fieldAt d 20 1) 3 2 = 1 ∧ grnSize < fieldAt d 8 8 + len)) →
        (st = 4 → bitsOf (fieldAt d 20 1) 3 0 = 5 ∧ fieldAt d 0 8 + len ≤ grnSize ∧ fieldAt d 8 8 + len ≤ grnSize
          ∧ fieldAt d 0 8 % 2 ^ bitsOf (fieldAt d 21 1) 2 0 ≠ 0) →
        ∃ t, exec (.dmaDescriptorEnd c data err ecc) s = .next t ∧ t.grn = s.grn ∧ t.dm = s.dm
          ∧ t.hostRead port (x.nextAddr + 23) 1 = [BitVec.ofNat 8 st]
          ∧ (∀ k, k ≠ hostKey port (x.nextAddr + 23) → tget 0 t.hostMem k = tget 0 s.hostMem k)
          ∧ t.f (F.HIF_DMA_STAT_bad_cnt c) = min 0xFF (s.f (F.HIF_DMA_STAT_bad_cnt c) + 1))
    ∧ (ends → alone → descRefused d = none → bitsOf (fieldAt d 20 1) 3 0 = 4 →
        ∃ t, exec (.dmaDescriptorEnd c data true ecc) s = .next t ∧ .dmaBad ∈ s.raised t
          ∧ t.hostRead port (x.nextAddr + 23) 1 = [2] ∧ (t.dmaCh c).desc = none
          ∧ t.f (F.HIF_DMA_STAT_done_cnt c) = s.f (F.HIF_DMA_STAT_done_cnt c))

/-- R6 to R8, R368, R375 and R449. -/
def Obligations.GranaryWindowsAndMaintenanceSpi : Prop :=
  ∀ (s : State) (m : Master) (a : Nat) (n w : Nat) (bs : List Byte) (addr : BitVec 24) (ga : BitVec 32) (v : W32) (i j : Fin 64),
    s.live = true → s.Settled →
    (m ≠ .mspi → a + n ≤ grnSize → s.badWords a n = [] →
      ∃ t, exec (.bar2Read m a n []) s = .next t ∧ t.rdata = (upto n).map (fun k => s.grnByte (a + k)) ∧ t.poisoned = false
        ∧ (∀ off, off ≠ R.GRN_STAT → t.rd off = s.rd off) ∧ t.events = s.events ∧ t.grn = s.grn)
    ∧ (m ≠ .mspi → a + n ≤ grnSize → 0 < n →
      ∃ t, exec (.bar2Read m a n [.double i j]) s = .next t ∧ t.poisoned = true ∧ .eccUncorr ∈ s.raised t
        ∧ (s.f F.GRN_ECC_CNT_uncorr < t.f F.GRN_ECC_CNT_uncorr ∨ t.f F.GRN_ECC_CNT_uncorr = s.f F.GRN_ECC_CNT_uncorr ∧ t.f F.GRN_ECC_CNT_uncorr = 0xFFFF))
    ∧ (m ≠ .mspi → a + bs.length ≤ grnSize → s.isOwner m = true →
      ∃ t, exec (.bar2Write m a bs) s = .next t ∧ (∀ k (h : k < bs.length), t.grnByte (a + k) = bs[k])
        ∧ (∀ b, (b < a ∨ a + bs.length ≤ b) → t.grnByte b = s.grnByte b) ∧ (∀ off, off ≠ R.GRN_STAT → t.rd off = s.rd off) ∧ t.events = s.events)
    ∧ (m ≠ .mspi → a + bs.length ≤ grnSize → s.isOwner m = false →
      ∃ t, exec (.bar2Write m a bs) s = .next t ∧ t.grn = s.grn ∧ s.raised t = [.writeDenied]
        ∧ t.f F.HIF_ACC_CNT_denied = min 0xFFFF (s.f F.HIF_ACC_CNT_denied + 1))
    ∧ (s.badWords ga.toNat w = [] → ∃ t, exec (.mspiReadGrn ga w []) s = .next t
        ∧ t.rdata = (upto w).map (fun k => s.grnByte (ga.toNat + k)) ∧ (∀ off, off ≠ R.GRN_STAT → t.rd off = s.rd off) ∧ t.events = s.events)
    ∧ (ga.toNat + 4 ≤ grnSize → s.isOwner .mspi = true → ∃ t, exec (.mspiWriteGrn ga [v] 0) s = .next t
        ∧ s.raised t = [] ∧ t.grnRead ga.toNat 4 = leBytes 4 v.toNat ∧ t.hif.mspiDiscard = false
        ∧ (∀ b, (b < ga.toNat ∨ ga.toNat + 4 ≤ b) → t.grnByte b = s.grnByte b))
    ∧ (s.isOwner .mspi = false → ∃ t, exec (.mspiWriteGrn ga [v] 0) s = .next t ∧ t.grn = s.grn ∧ s.raised t = [.writeDenied]
        ∧ t.hif.mspiDiscard = true)
    ∧ (∃ t u, exec (.mspiRead addr 1) s = .next t ∧ exec (.readClear .mspi addr.toNat 4) s = .next u ∧ t.rdata = u.rdata
        ∧ t.regs = u.regs ∧ t.snaps = u.snaps ∧ t.hif.mspiDiscard = false)
    ∧ (∀ e : Fin 12, s.isOwner .mspi = true → addr.toNat = privBase + R.ENG_PM_ADDR e → ∃ t, exec (.mspiWrite addr [v] 0) s = .next t
        ∧ t.f (F.ENG_PM_ADDR_addr e) = v.toNat % 2 ^ 14 ∧ s.raised t = [] ∧ t.hif.mspiDiscard = false
        ∧ (∀ off, off ≠ R.ENG_PM_ADDR e → t.rd off = s.rd off))
    ∧ (s.isOwner .mspi = false → privBase ≤ addr.toNat → addr.toNat % 4 = 0 → ∃ t, exec (.mspiWrite addr [v] 0) s = .next t
        ∧ s.raised t = [.writeDenied] ∧ t.hif.mspiDiscard = true ∧ (∀ off, off ≠ R.HIF_ACC_CNT → t.rd off = s.rd off))
    ∧ (0 < n → n < 32 → ∃ t, exec (.mspiWrite addr [] n) s = .next t ∧ s.raised t = [.writeNarrow] ∧ t.hif.mspiDiscard = true
        ∧ (∀ off, off ≠ R.HIF_ACC_CNT → t.rd off = s.rd off))
    ∧ (∃ t, exec .mspiStatus s = .next t ∧ t.regs = s.regs ∧ t.rdata = [BitVec.ofNat 8 (s.owner
        + (if (s.f F.HIF_OWN_STAT_claim_pend).testBit 2 then 4 else 0) + (if s.hif.mspiDiscard then 8 else 0) + modeCode s.mode * 16)])

/-- R46 to R48 for the rows that write GLB_MODE_REQ; R45 and R48. -/
def Obligations.ModeRequests : Prop :=
  (
    ∀ (s : State) (m : Master) (i : Instr) (c : Nat), (i, c) ∈ modeRows m → s.MayWrite m →
      ((s.paired = false ∨ c < 6 ∨ 8 < c ∨ s.holder = true) →
        ∃ t, exec i s = .next t ∧ t.mode = s.mode
          ∧ t.ctl.request = some { target := c, forwarded := s.paired && decide (6 ≤ c) && decide (c ≤ 8) && s.seq.running, at_ := s.cyc }
          ∧ (s.ctl.request = none → s.raised t = [])
          ∧ (∀ r, s.ctl.request = some r → s.raised t = [.modeRefused] ∧ t.f F.GLB_MODE_LOG_refuse_reason = 10
              ∧ t.f F.GLB_MODE_LOG_refused_target = r.target % 16))
      ∧ (s.paired = true → 6 ≤ c → c ≤ 8 → s.holder = false → s.ctl.request = none →
        ∃ t, exec i s = .next t ∧ t.mode = s.mode ∧ t.ctl.request = none ∧ s.raised t = [.modeRefused, .fwdRefused]
          ∧ t.f F.GLB_MODE_LOG_refuse_reason = 9 ∧ t.f F.GLB_MODE_LOG_refused_target = c)) ∧ (
    ∀ (s : State) (c : Nat),
      (∀ w ∈ s.wayOut, s.Asked w.2.1 → s.mode = w.1 → w.2.2.1 → s.ChangesTo (exec .modeRequestEval s) w.2.2.2 3)
      ∧ (∀ w ∈ s.refusal, s.Asked w.2.1 → s.mode = w.1 → w.2.2.1 → s.Refuses (exec .modeRequestEval s) w.2.1 w.2.2.2)
      ∧ (s.Asked c → c < 16 → (∀ w ∈ s.wayOut, ¬ (s.mode = w.1 ∧ c = w.2.1)) → (s.mode = .shadow → c ≠ 7) →
          s.Refuses (exec .modeRequestEval s) c 1)
      ∧ (s.live = true → s.ctl.request.map (fun r => (r.target, r.forwarded)) = some (c, false) → c < 16 → s.seq.running = false → s.mode = .safeBlock →
          s.trippedNow = true → s.Alone → s.Refuses (exec .modeRequestEval s) c 8)
      ∧ (s.ctl.request = none → s.Settled → ∃ t, exec .modeRequestEval s = .next t ∧ t.mode = s.mode ∧ t.regs = s.regs ∧ t.events = s.events)
      ∧ (∀ w ∈ s.wayOut, s.AskedAtTick w.2.1 → s.mode.fromMuster = true → s.mode = w.1 → w.2.2.1 → s.ChangesTo (exec .periodTick s) w.2.2.2 3)
      ∧ (∀ w ∈ s.refusal, s.AskedAtTick w.2.1 → s.mode.fromMuster = true → s.mode = w.1 → w.2.2.1 →
          s.Refuses (exec .periodTick s) w.2.1 w.2.2.2)
      ∧ (s.AskedAtTick c → c < 16 → s.mode.fromMuster = true → (∀ w ∈ s.wayOut, ¬ (s.mode = w.1 ∧ c = w.2.1)) → s.mode ≠ .shadow →
          s.ctl.blockedAt ≠ some s.tickCyc → s.Refuses (exec .periodTick s) c 1)
      ∧ (s.AskedAtTick c → c < 16 → s.mode = .safeBlock → s.ctl.blockedAt = some s.tickCyc → s.Refuses (exec .periodTick s) c 8)
      ∧ (∀ r, s.TickClear → s.paired = false → s.pair.request = none → s.ctl.request = some r → r.at_ = s.tickCyc → s.mode ≠ .shadow →
          ∃ t, exec .periodTick s = .next t ∧ t.mode = s.mode ∧ t.ctl.request = some r)
      ∧ (s.Forwarded c → s.holder = true → s.f F.RED_STAT_sense ≠ 2 → ∀ w ∈ s.wayOut, s.mode.fromMuster = true → s.mode = w.1 → c = w.2.1 →
          w.2.2.1 → s.ChangesTo (exec .periodTick s) w.2.2.2 3)
      ∧ (s.Forwarded c → s.holder = false →
          (s.mode = .shadow → c = 7 → s.ChangesTo (exec .periodTick s) .ready 0x10)
          ∧ (s.mode = .precharge → c = 7 → s.ctl.chargeOk = true → s.ChangesTo (exec .periodTick s) .ready 0x10)
          ∧ (s.mode = .ready → c = 8 → s.pairRefuses = false → s.ChangesTo (exec .periodTick s) .shadow 0x10)
          ∧ (s.mode = .ready → c = 8 → s.pairRefuses = true → s.Refuses (exec .periodTick s) c 9)))

/-- R58 and R64; R60 to R65. -/
def Obligations.BootImagesAndDiagnosticSequencer : Prop :=
  (
    ∀ (s : State) (m : Master), s.MayWrite m →
      (s.mode = .diagnostic → s.fb F.GLB_DIAG_CTL_seq_run = false → s.seq.running = false →
        ∃ t, exec (.seqRunStart m) s = .next t ∧ t.fb F.GLB_DIAG_CTL_seq_run = true ∧ t.seq.startPend = true
          ∧ t.seq.next = s.firstBoundary ∧ t.seq.running = false ∧ t.events = s.events)
      ∧ (s.mode = .diagnostic → s.fb F.GLB_DIAG_CTL_seq_run = true → s.seq.running = true →
        ∃ t, exec (.seqRunStop m) s = .next t ∧ t.fb F.GLB_DIAG_CTL_seq_run = false ∧ t.seq = { s.seq with stopPend := true }
          ∧ t.events = s.events)
      ∧ (s.mode ≠ .diagnostic → ∀ i ∈ [Instr.seqRunStart m, .seqRunStop m],
        ∃ t, exec i s = .next t ∧ t.seq = s.seq ∧ t.f F.GLB_DIAG_CTL_seq_run = s.f F.GLB_DIAG_CTL_seq_run ∧ t.events = s.events)
      ∧ (s.mode = .boot → s.f F.GLB_BOOT_STAT_boot_sel ≠ 2 → s.boot.phase = .idle → s.boot.restart = false →
        ∃ t, exec (.bootGo m) s = .next t ∧ t.boot.phase = .checking ∧ t.f F.GLB_BOOT_STAT_source = 3
          ∧ t.fb F.GLB_BOOT_STAT_busy = true ∧ t.fb F.GLB_BOOT_CTL_go = true ∧ t.mode = .boot)
      ∧ (s.mode = .boot → s.f F.GLB_BOOT_STAT_boot_sel ≠ 2 → s.boot.phase = .reading ∨ s.boot.phase = .checking →
        ∃ t, exec (.bootGo m) s = .next t ∧ t.boot = s.boot ∧ t.fb F.GLB_BOOT_CTL_go = true ∧ t.rd R.GLB_BOOT_STAT = s.rd R.GLB_BOOT_STAT)
      ∧ (s.mode ≠ .boot ∨ s.f F.GLB_BOOT_STAT_boot_sel = 2 →
        ∃ t, exec (.bootGo m) s = .next t ∧ t.boot = s.boot ∧ t.fb F.GLB_BOOT_CTL_go = false ∧ t.mode = s.mode)) ∧ (
    ∀ (s : State) (im : List Byte) (b : Bool) (src : Nat) (rest : List Nat), s.live = true →
      (s.boot.phase = .reading → 256 ≤ im.length →
        ∃ t, exec (.bootReadDone true im) s = .next t ∧ t.boot.phase = .checking ∧ t.boot.image = im ∧ t.regs = s.regs)
      ∧ (s.boot.phase = .reading → b = false ∨ im.length < 256 → s.boot.qspiLeft = src :: rest → src < 4 →
        ∃ t, exec (.bootReadDone b im) s = .next t ∧ t.f F.GLB_BOOT_STAT_boot_err = 9 ∧ t.boot.phase = .reading
          ∧ t.f F.GLB_BOOT_STAT_source = src ∧ t.boot.qspiLeft = rest)
      ∧ (s.boot.phase = .reading → b = false ∨ im.length < 256 → s.boot.qspiLeft = [] → s.fb F.GLB_BOOT_CTL_go = false →
        ∃ t, exec (.bootReadDone b im) s = .next t ∧ t.f F.GLB_BOOT_STAT_boot_err = 9 ∧ t.boot.phase = .idle
          ∧ t.fb F.GLB_BOOT_STAT_busy = false ∧ t.mode = s.mode)
      ∧ (s.boot.phase = .checking → s.f F.GLB_BOOT_STAT_source ≠ 3 → s.boot.image = im →
          (fieldAt im 0 4 ≠ 0x3036384A → ∃ t, exec .bootCheckDone s = .next t ∧ t.f F.GLB_BOOT_STAT_boot_err = 1
            ∧ t.boot.phase ≠ .loading ∧ t.mode = s.mode)
          ∧ (imgHeaderOk im = true → imgLengthsOk im none = true → fieldAt im 0x12 2 = 0x4860 → fieldAt im 0x10 1 ≤ s.stepping →
              crc32c (im.take (imgCrcAt im)) ≠ fieldAt im (imgCrcAt im) 4 →
              ∃ t, exec .bootCheckDone s = .next t ∧ t.f F.GLB_BOOT_STAT_boot_err = 4 ∧ t.boot.phase ≠ .loading)
          ∧ (s.imgCheck im none = 0 → ∃ t, exec .bootCheckDone s = .next t ∧ t.boot.phase = .loading ∧ t.boot.image = im
              ∧ t.f F.GLB_BOOT_STAT_boot_err = s.f F.GLB_BOOT_STAT_boot_err ∧ t.mode = s.mode))
      ∧ (s.boot.phase = .loading → s.Alone → s.mode = .boot → (∀ x ∈ imgTable s.boot.image, x.kind ≠ 4) →
        ∃ t, exec .bootLoadDone s = .next t ∧ t.mode = .configure ∧ t.f F.GLB_MODE_LOG_cause = 2
          ∧ t.fb F.GLB_BOOT_STAT_done = true ∧ t.fb F.GLB_BOOT_STAT_busy = false ∧ t.boot.phase = .idle
          ∧ t.rd R.GLB_IMAGE_VER = fieldAt s.boot.image 0x14 4
          ∧ (∀ x, imgTable s.boot.image = [x] → x.kind = 2 → x.target < 12 → x.dest + x.length ≤ dmSize →
              x.src + x.length ≤ s.boot.image.length → ∀ k < x.length,
              tget (0 : Byte) t.dm (x.target * dmSize + x.dest + k) = s.boot.image.getD (x.src + k) 0)))

/-- R19 and R20. -/
def Obligations.ClockFaultsAndReferences : Prop :=
  ∀ (s : State) (b : Bool),
    (s.pwr.rails = true → s.pwr.porstLow = false → s.pwr.railReset = false → s.pwr.pllOnce = false → s.pwr.pllLocked = false → s.Alone →
      s.pwr.clkFault = false → ∃ t, exec .pllLock s = .next t ∧ t.mode = .boot ∧ t.live = true ∧ t.f F.GLB_MODE_LOG_cause = 1
        ∧ t.f F.GLB_MODE_LOG_last_from = modeCode s.pwr.held ∧ .modeChange ∈ s.raised t)
    ∧ (s.up = true → s.pwr.clkFault = true → s.Settled →
      ∃ t, exec .pllLock s = .next t ∧ t.mode = s.mode ∧ t.live = true ∧ t.pwr.clkFault = false ∧ s.raised t = [.clkFault])
    ∧ (∀ x ∈ [(Instr.lockLost, F.CLK_PLL_STAT_lock_lost), (.refLost, F.CLK_PLL_STAT_ref_lost)], s.live = true →
        (s.pwr.clkFault = false → s.mode.fromConfigure = true → s.mode ≠ .safeBlock → s.FreshCycle →
          ∃ t, exec x.1 s = .next t ∧ t.fb x.2 = true ∧ t.mode = .safeBlock ∧ t.ctl.fatal = true ∧ t.origin = s.mode
            ∧ .safeTrip ∈ s.raised t ∧ t.f F.GLB_MODE_LOG_cause = 0x0A ∧ t.saf.lockout = true)
        ∧ (s.pwr.clkFault = false → s.mode = .boot → s.FreshCycle →
          ∃ t, exec x.1 s = .next t ∧ t.fb x.2 = true ∧ t.mode = .boot ∧ t.f F.GLB_BOOT_STAT_boot_err = 0x0A ∧ t.boot.phase = .idle
            ∧ t.boot.restart = true)
        ∧ (s.pwr.clkFault = true → ∃ t, exec x.1 s = .next t ∧ t.fb x.2 = true ∧ t.mode = s.mode ∧ t.events = s.events
            ∧ (∀ off, off ≠ R.CLK_PLL_STAT → t.rd off = s.rd off)))
    ∧ (∀ w, s.up = true → ∃ t, exec (.lrefLost ⟨b, w⟩) s = .next t
        ∧ t.fb (if b then F.CLK_PLL_STAT_lref_b_lost else F.CLK_PLL_STAT_lref_a_lost) = true ∧ .lrefLost ∈ s.raised t
        ∧ (∀ l < 50, (b = true ↔ 24 ≤ l ∧ l ≠ 48) → t.fb (F.LPHY_STAT_block_lock l) = false)
        ∧ ((∀ l < 50, s.fb (F.LPHY_STAT_block_lock l) = false) → s.Settled → (s.inPeriod = true → s.seq.gatherDone = true) →
            s.raised t = [.lrefLost] ∧ t.mode = s.mode ∧ (∀ off, off ≠ R.CLK_PLL_STAT → t.rd off = s.rd off)))
    ∧ (∃ t, exec (.lrefReturn b) s = .next t ∧ t = { s with pwr := t.pwr } ∧ (if b then t.pwr.lrefB else t.pwr.lrefA) = true)

/-- R45 and R458; R470. -/
def Obligations.SuppliesResetPinAndTemperature : Prop :=
  (
    ∀ (s : State) (r : Fin 7) (sel : Fin 4) (pb : Bool),
      (∃ t, exec .allPowerRemoved s = .next t ∧ t.mode = .off ∧ t.regs = [] ∧ t.grn = [] ∧ t.saf.retBytes = [] ∧ t.pwr.rails = false
        ∧ t.pwr.vbat = false)
      ∧ (∃ t, exec .vbatApplied s = .next t ∧ t.pwr.vbat = true ∧ t.mode = (if s.mode = .off then .dormant else s.mode)
          ∧ t.regs = s.regs ∧ t.saf = s.saf)
      ∧ (s.pwr.rails = true → ∃ t, exec .mainRailsRemoved s = .next t ∧ t.pwr.rails = false ∧ t.grn = []
          ∧ (∀ off, off ≠ R.GLB_BOOT_STAT → off ≠ R.HIF_CFG → t.rd off = State.reset.rd off)
          ∧ (s.pwr.vbat = true → t.mode = .dormant) ∧ (s.pwr.vbat = false → t.mode = .off ∧ t.saf.retBytes = []))
      ∧ (s.mode.powered = true → ∃ t, exec .porstAssert s = .next t ∧ t.live = false ∧ t.regs = [] ∧ t.grn = [] ∧ t.dm = [] ∧ t.pm = []
          ∧ (s.saf.retDirty = false → t.saf.retBytes = s.saf.retBytes) ∧ (s.saf.retDirty = true → t.saf.retBytes = s.retImage))
      ∧ (s.pwr.porstLow = true → ∃ t, exec (.porstRelease sel pb) s = .next t ∧ t.pwr.porstLow = false ∧ t.live = false
          ∧ t.f F.GLB_BOOT_STAT_boot_sel = sel ∧ (t.fb F.GLB_BOOT_STAT_sel_reserved = true ↔ sel = 3) ∧ t.fb F.HIF_CFG_bif = pb)
      ∧ (s.pwr.rails = true → ∃ t, exec (.railFault r) s = .next t ∧ t.pwr.railReset = true ∧ t.live = false
          ∧ t.f F.GLB_BOOT_STAT_boot_sel = s.f F.GLB_BOOT_STAT_boot_sel ∧ t.grn = []
          ∧ bitOf t.pwr.railOut r = true)
      ∧ (s.pwr.railReset = true → s.pwr.rails = true →
          exec .railRecover s = .next { s with pwr := { s.pwr with railReset := false, railOut := 0 } })
      ∧ (s.pwr.rails = false → s.pwr.vbat = true → ∃ t, exec .railRecover s = .next t ∧ t.pwr.rails = true ∧ t.pwr.railReset = false
          ∧ t.pwr.railOut = 0 ∧ t.live = false ∧ t.grn = [] ∧ t.f F.GLB_BOOT_STAT_boot_sel = s.f F.GLB_BOOT_STAT_boot_sel
          ∧ t.fb F.HIF_CFG_bif = s.fb F.HIF_CFG_bif)
      ∧ (s.up = true → ∃ t, exec (.railWarn ⟨r, true⟩) s = .next t ∧ bitOf (t.f F.GLB_RAIL_STAT_ok) r = true
          ∧ (∀ k, k ≠ r.val → bitOf (t.f F.GLB_RAIL_STAT_ok) k = bitOf (s.f F.GLB_RAIL_STAT_ok) k)
          ∧ t.f F.GLB_RAIL_STAT_warn = s.f F.GLB_RAIL_STAT_warn ∧ t.events = s.events ∧ (∀ off, off ≠ R.GLB_RAIL_STAT → t.rd off = s.rd off))
      ∧ (s.up = true → ∃ t, exec (.railWarn ⟨r, false⟩) s = .next t ∧ t.f F.GLB_RAIL_STAT_warn = (s.f F.GLB_RAIL_STAT_warn ||| 2 ^ r.val)
          ∧ bitOf (t.f F.GLB_RAIL_STAT_ok) r = false ∧ (∀ k, k ≠ r.val → bitOf (t.f F.GLB_RAIL_STAT_ok) k = bitOf (s.f F.GLB_RAIL_STAT_ok) k)
          ∧ t.events = s.events ∧ t.mode = s.mode ∧ (∀ off, off ≠ R.GLB_RAIL_STAT → t.rd off = s.rd off))) ∧ (
    ∀ (s : State) (code : Int), s.live = true → -2048 ≤ code → code ≤ 2047 →
      ∃ t, exec (.dieTempMeasure code) s = .next t ∧ sx 12 (t.f F.GLB_DIE_TEMP_now) = code
        ∧ sx 12 (t.f F.GLB_DIE_TEMP_worst) = (if s.pwr.tempSeen then max (sx 12 (s.f F.GLB_DIE_TEMP_worst)) code else code)
        ∧ t.pwr.tempSeen = true
        ∧ t.fb F.GLB_DIE_TEMP_hot_seen = (s.fb F.GLB_DIE_TEMP_hot_seen || decide (420 ≤ code))
        ∧ t.fb F.GLB_DIE_TEMP_over_seen = (s.fb F.GLB_DIE_TEMP_over_seen || decide (460 ≤ code))
        ∧ t.cyc = max s.cyc (s.pwr.tempAt + 62500) ∧ t.mode = s.mode ∧ t.events = s.events
        ∧ (∀ off, off ≠ R.GLB_DIE_TEMP → off ≠ R.TIM_STAT → t.rd off = s.rd off))

/-- R54, R55 and R332. -/
def Obligations.CommissionAndMuster : Prop :=
  ∀ (s : State) (m : Master) (v : W32) (c : Nat), s.Settled → s.live = true →
    (s.mode = .commission → s.ctl.checkBusy = true → s.retConfirmed ≠ some s.checkValue →
      ∃ t, exec .checkValueDone s = .next t ∧ t.mode = .commission ∧ t.rd R.SAF_CHECK = s.checkValue % 2 ^ 32
        ∧ t.fb F.SAF_STAT_check_valid = true ∧ t.ctl.checkBusy = false ∧ t.events = s.events)
    ∧ (s.mode = .commission → s.ctl.checkBusy = true → s.retConfirmed = some s.checkValue →
        (s.inputAsserted = false → s.ChangesTo (exec .checkValueDone s) .muster 4)
        ∧ (s.inputAsserted = true → ∃ t, exec .checkValueDone s = .next t ∧ t.mode = .commission ∧ t.ctl.pendMatch = some 4
            ∧ t.f F.GLB_MODE_LOG_refuse_reason = 3))
    ∧ (s.isOwner m = true → s.mode = .commission → s.fb F.SAF_STAT_check_valid = true → s.ctl.checkBusy = false → v.toNat = s.rd R.SAF_CHECK →
        s.ctl.pendMatch = none → s.inputAsserted = false →
        s.ChangesTo (exec (.safConfirm m v) s) .muster 5
        ∧ ∃ t, exec (.safConfirm m v) s = .next t ∧ t.saf.confirmed = some v.toNat ∧ t.saf.retDirty = true)
    ∧ (s.isOwner m = true → s.mode ≠ .commission ∨ s.fb F.SAF_STAT_check_valid = false ∨ v.toNat ≠ s.rd R.SAF_CHECK →
        ∃ t, exec (.safConfirm m v) s = .next t ∧ t.mode = s.mode ∧ s.raised t = [.checkMismatch] ∧ t.saf = s.saf
          ∧ t.f F.SAF_CONF_CNT_conf_fail = min 0xFFFF (s.f F.SAF_CONF_CNT_conf_fail + 1))
    ∧ (s.mode = .commission → s.ctl.pendMatch = some c → c < 256 →
        (s.inputAsserted = false → s.ChangesTo (exec .pendingMusterEntry s) .muster c)
        ∧ (s.inputAsserted = true → exec .pendingMusterEntry s = .next s))
    ∧ (s.mode = .muster → s.musterOk = true → s.lockedOut = false →
        ∃ t, exec .musterDone s = .next t ∧ t = { s with ctl := { s.ctl with musterDone := true } })
    ∧ (s.mode = .muster → s.musterOk = true → s.lockedOut = true → s.FreshCycle → s.ChangesTo (exec .musterDone s) .safeBlock 6)
    ∧ (s.mode = .muster → s.musterOk = false → exec .musterDone s = .next s)

/-- R23 to R29 and R93; R27, R28, R82, R109 and R447. -/
def Obligations.PeriodAndGather : Prop :=
  (
    ∀ (s : State) (l a : Nat),
      (s.live = true → s.seq.running = true ∨ s.seq.startPend = true → s.seq.stopPend = false → s.paired = false →
        s.ctl.request = none → s.pair.request = none → s.hif.mboxGo = none → s.tim.late = [] →
        ∃ t, exec .periodTick s = .next t ∧ t.seq.running = true ∧ t.seq.started = true ∧ t.seq.next = s.seq.next + 1
          ∧ t.seq.gatherDone = false ∧ t.seq.ordered = false ∧ t.seq.planComplete = false ∧ t.seq.launched = false
          ∧ t.now = (s.advanceTo (s.boundary s.seq.next)).now)
      ∧ (s.live = true → s.seq.running = true → s.seq.stopPend = true → s.ctl.request = none → s.pair.request = none → s.Alone → s.tim.late = [] →
        ∃ t, exec .periodTick s = .next t ∧ t.seq = State.reset.seq ∧ t.mode = s.mode
          ∧ t.now = (s.advanceTo (s.boundary s.seq.next)).now)
      ∧ (s.inPeriod = true → s.seq.launched = false →
        ∃ t, exec .gatherLaunch s = .next t ∧ t.seq = { s.seq with launched := true } ∧ t.now = (s.advanceTo (s.pN + 100)).now
          ∧ t.events = s.events
          ∧ (s.laneSends l = true → ∃ f, (t.lane l).gather.head? = some f ∧ fieldAt f.tag 0 1 = 0x13
              ∧ fieldAt f.tag 2 2 = s.periodFull % 65536 ∧ fieldAt f.tag 4 1 = l ∧ fieldAt f.tag 5 1 = s.laneCount l
              ∧ f.time.toNat = timeWord s.pN ∧ f.slots.length = s.laneCount l)
          ∧ (s.laneSends l = false → (s.lane l).tx.due = [] → t.lane l = s.lane l))
      ∧ (s.seq.launched = true → exec .gatherLaunch s = .next s)
      ∧ (s.inPeriod = true → s.seq.timed = true → exec .timeSetLaunch s = .next s)
      ∧ (s.inPeriod = true → s.seq.timed = false →
        ∃ t, exec .timeSetLaunch s = .next t ∧ t.seq = { s.seq with timed := true } ∧ t.now = (s.advanceTo (s.pN + 20)).now ∧ t.events = s.events
          ∧ ((s.lane l).tx.due = [] → s.laneInUse l = true → s.laneCoded l = true → t.lane l = s.lane l
              ∨ ∃ e, (s.pN + 20) * 8 ≤ e ∧ e * 10 + 1024 ≤ (s.pN + 100) * 80
                ∧ (t.lane l).sets = [mkSet 1 (timePayload (e / 8) (e % 8))] ∧ (t.lane l).gather = (s.lane l).gather)
          ∧ ((s.lane l).tx.due = [] → s.laneInUse l = true → s.laneCoded l = true → (s.lane l).tx.free ≤ s.cyc →
              s.now.ns < s.pN + 60 → (s.advanceTo (s.pN + 20)).now.ns < s.pN + 60 → (t.lane l).sets.map TxSet.code = [1])
          ∧ ((s.lane l).tx.due = [] → s.laneInUse l = false ∨ s.laneCoded l = false → t.lane l = s.lane l))
      ∧ (s.planReady = true → s.hif.mboxGo = none →
        ∃ t, exec .planComplete s = .next t ∧ t.seq.planComplete = true ∧ t.seq.planAt = some s.stepsNow)
      ∧ (s.planReady = false → exec .planComplete s = .next s)
      ∧ (s.inPeriod = true → s.seq.ordered = false → s.hif.mboxGo = none →
        ∃ t, exec .orderLaunch s = .next t ∧ t.seq.ordered = true
          ∧ t.now = (s.advanceTo (s.pN + s.f F.GLB_ORDER_OFFSET_order_offset_steps * 5)).now
          ∧ (a ∈ s.enabledArms → (s.arm a).req = none → t.fb (F.WIN_ARM_FLAGS_req_missing a) = true)
          ∧ (s.seq.planComplete = false → t.fb F.GLB_TIMING_STAT_plan_late = true
              ∧ t.f F.GLB_LATE_CNT_plan_late_cnt = min 0xFFFF (s.f F.GLB_LATE_CNT_plan_late_cnt + 1))
          ∧ (s.seq.planComplete = true → t.f F.GLB_LATE_CNT_plan_late_cnt = s.f F.GLB_LATE_CNT_plan_late_cnt))
      ∧ (s.inPeriod = true → s.seq.ordered = true → exec .orderLaunch s = .next s)) ∧ (
    ∀ (s : State) (l rx : Fin 48) (f : RxFrame) (at_ : Nat) (started : BitVec 48), s.inPeriod = true →
      let slotsAt := s.gatherBase + s.periodFull % 2 * 0x6000 + l * 0x200
      let baleAt := s.gatherBase + 0xC000 + s.periodFull % 2 * 0xC00 + l * 0x40
      (s.laneAwaited l = true → s.gatherRx l rx = true → s.rxDelivers rx = true → gatherWhole f (s.laneCount l) = false → s.Settled →
          s.laneSplit l = true → s.laneAwaited (partnerLane l) = true → rx = l → (s.lane l).gatherOk = false → (s.lane l).gatherOwn = false →
          (s.lane l).failOwn = false → (s.lane l).gatherOther = true →
        ∃ t, exec (.gatherFrame l { f with rx := rx } at_) s = .next t ∧ (t.lane l).gatherOk = true ∧ (t.lane l).failOwn = true)
      ∧ (s.laneAwaited l = true → s.gatherRx l rx = true → s.rxDelivers rx = true → gatherWhole f (s.laneCount l) = false →
          (s.lane l).copyGood = false → s.Settled →
        ∃ t, exec (.gatherFrame l { f with rx := rx } at_) s = .next t ∧ t.now = (s.advanceTo at_).now
          ∧ t.f (F.NCL_ERRCNT_frame_crc_err l) = min 0xFFFF (s.f (F.NCL_ERRCNT_frame_crc_err l) + 1)
          ∧ t.f (F.LPHY_ERRCNT_bad_block rx) = min 0xFFFF (s.f (F.LPHY_ERRCNT_bad_block rx) + f.badBlocks) ∧ t.seq = s.seq ∧ t.cells = s.cells)
      ∧ (s.laneAwaited l = true → s.gatherRx l rx = true → s.rxDelivers rx = true → gatherWhole f (s.laneCount l) = true →
          s.gatherMine l f = true → (s.lane l).gatherOk = false → (s.lane l).gatherLate = false → (s.lane l).gatherOwn = false →
          (s.lane l).gatherOther = false → (s.lane l).failOwn = false → (s.lane l).failOther = false →
          (s.pN + s.f F.GLB_GATHER_DEADLINE_deadline_steps * 5 < at_ →
            ∃ t, exec (.gatherFrame l { f with rx := rx } at_) s = .next t ∧ s.raised t = [.gatherLate] ∧ (t.lane l).gatherLate = true ∧ t.cells = s.cells
              ∧ t.f F.GLB_TIMING_STAT_late_lane = l
              ∧ (s.gatherBase + 0x10000 ≤ grnSize → f.slots.length ≤ 64 →
                (∀ (j : Nat) (w : W64), f.slots[j]? = some w → t.grnRead (slotsAt + j * 8) 8 = leBytes 8 w.toNat)
                ∧ ∀ k, (k < slotsAt ∨ slotsAt + 0x200 ≤ k) → (k < baleAt ∨ baleAt + 0x40 ≤ k) → t.grnByte k = s.grnByte k))
          ∧ (at_ ≤ s.pN + s.f F.GLB_GATHER_DEADLINE_deadline_steps * 5 → s.mode ≠ .diagnostic → s.Settled →
            ∃ t, exec (.gatherFrame l { f with rx := rx } at_) s = .next t
              ∧ (s.laneSplit l = true → rx = l → (t.lane l).gatherOwn = true)
              ∧ (s.laneSplit l = true → rx ≠ l → (t.lane l).gatherOther = true)
              ∧ (s.laneSplit l = false → (t.lane l).gatherOk = true)
              ∧ (s.laneSplit l = false → s.seq.gatherDone = false →
                  (∀ k, s.laneAwaited k = true → k = l.val ∨ (s.lane k).gatherOk = true) → t.seq.gatherDone = true)
              ∧ (∀ k, s.laneAwaited k = true → k ≠ l.val → (s.lane k).gatherOk = false → t.seq.gatherDone = s.seq.gatherDone)
              ∧ (∀ (j : Nat) (w : W64), f.slots[j]? = some w → slotValid f.tag f.time.toNat w.toNat j = true → w.getLsbD 16 = false →
                  (t.cell (l * 64 + j)).vcap = bitsOf w.toNat 15 0 ∧ (t.cell (l * 64 + j)).status = bitsOf w.toNat 27 16
                    ∧ (t.cell (l * 64 + j)).temp = bitsOf w.toNat 35 28 ∧ (t.cell (l * 64 + j)).fresh = true)))
      ∧ (s.laneAwaited l = false ∨ s.gatherRx l rx = false ∨ s.rxDelivers rx = false → exec (.gatherFrame l { f with rx := rx } at_) s = .next s)
      ∧ (s.seq.deadlinePassed = false → ∃ t, exec (.gatherDeadline started) s = .next t ∧ t.seq.gatherDone = true
          ∧ t.seq.deadlinePassed = true ∧ t.now = (s.advanceTo (s.pN + s.f F.GLB_GATHER_DEADLINE_deadline_steps * 5)).now
          ∧ (s.laneAwaited l = true → (s.lane l).gatherOk = false → (s.lane l).gatherLate = false →
              .gatherLate ∈ s.raised t ∧ t.fb F.GLB_TIMING_STAT_gather_late = true)
          ∧ (s.laneAwaited l = true → (s.lane l).gatherOk = false → (s.lane l).copyGood = true → s.laneCount l ≠ 0 →
              bitOf (s.grnNat (s.headerAddr s.periodFull + 16) 8) l = false → t.fb (F.NCL_LSTAT_bale_err l) = true))
      ∧ (s.seq.deadlinePassed = true → exec (.gatherDeadline started) s = .next s))

/-- R44 and R124 to R127. -/
def Obligations.LaneTraining : Prop :=
  ∀ (s : State) (l : Fin 50) (x : Fin 48) (h : RxSet),
    (s.helloDue l = true → s.laneCoded l = true → (s.lane l).tx.due = [] →
        ∃ t, exec (.helloSend l) s = .next t ∧ t.cyc = max s.cyc (s.lane l).helloNext
          ∧ (t.lane l).helloNext = (s.lane l).helloNext + 12500 ∧ t.events = s.events
          ∧ ((t.lane l).sets = [mkSet 4 (s.helloPayload l)]
              ∨ (t.lane l).tx.due = [{ rank := 6, since := t.cyc, set := mkSet 4 (s.helloPayload l) }]))
    ∧ ((s.lane l).attempt = true → (48 ≤ l.val ∨ s.mode = .muster) → (s.lane l).helloNext < (s.lane l).attemptAt + 1250000 → s.helloDue l = true)
    ∧ (s.helloDue l = false → exec (.helloSend l) s = .next s)
    ∧ (l.val < 48 → s.mode = .muster → setWhole 4 h = true → s.rxDelivers l = true → bitsOf h.payload.toNat 13 8 = x →
        (x.val = l.val ∨ s.isChain x = true ∧ partnerLane x = l.val) → s.laneInUse x = true → (s.lane x).attempt = true →
        (s.lane x).markerFail = false → bitsOf h.payload.toNat 16 14 = bitsOf (s.helloPayload x) 16 14 →
        bitsOf h.payload.toNat 25 25 = s.f F.NCL_GCFG_side → bitsOf h.payload.toNat 7 0 < 128 →
        ∃ t, exec (.helloReceived l h) s = .next t ∧ t.laneState x = 3 ∧ (t.lane x).attempt = false
          ∧ t.f (F.NCL_LSTAT_cells_found x) = bitsOf h.payload.toNat 7 0 ∧ t.f (F.NCL_LSTAT_disc_step x) = 1
          ∧ s.raised t = (if bitsOf h.payload.toNat 7 0 = s.pathCells x then [] else [.cellCount])
          ∧ (∀ i < min (bitsOf h.payload.toNat 7 0) (s.pathCells x), (t.cell (s.pathCell x i)).found = true))
    ∧ (setWhole 4 h = false ∨ s.rxDelivers l = false → exec (.helloReceived l h) s = .next s)
    ∧ (48 ≤ l.val → setWhole 4 h = true → s.rxDelivers l = true →
        bitsOf h.payload.toNat 13 8 = 48 ∨ bitsOf h.payload.toNat 13 8 = 49 → bitsOf h.payload.toNat 16 14 = 0 →
        bitsOf h.payload.toNat 7 0 = 1 → s.laneState l = 2 →
        ∃ t, exec (.helloReceived l h) s = .next t ∧ t.laneState l = 3 ∧ (t.lane l).helloSeen = true ∧ (t.lane l).attempt = false
          ∧ t.events = s.events)
    ∧ ((s.lane l).attempt = true → s.trains l = true → s.f (F.LPHY_STAT_attempts l) ≠ s.f F.LPHY_TRAIN_CFG_hello_attempts →
        ∃ t, exec (.trainingTimeout l) s = .next t ∧ (t.lane l).attempt = false ∧ (t.lane l).backoff = true
          ∧ t.cyc = max s.cyc ((s.lane l).attemptAt + 1250000) ∧ State.SameRegs s t ∧ t.events = s.events)
    ∧ ((s.lane l).attempt = true → s.trains l = true → s.f (F.LPHY_STAT_attempts l) = s.f F.LPHY_TRAIN_CFG_hello_attempts →
        (s.lane l).deadSaid = false →
        ∃ t, exec (.trainingTimeout l) s = .next t ∧ (t.lane l).attempt = false ∧ t.fb (F.LPHY_STAT_dead l) = true
          ∧ s.raised t = [.laneDead] ∧ (l.val < 48 → t.laneState l = 5 ∧ (t.lane l).backoff = (s.lane l).backoff)
          ∧ (48 ≤ l.val → (t.lane l).backoff = true ∧ t.laneState l = s.laneState l))
    ∧ ((s.lane l).backoff = true → s.trains l = true →
        ∃ t, exec (.trainingRetry l) s = .next t ∧ (t.lane l).attempt = true ∧ (t.lane l).backoff = false
          ∧ t.cyc = max s.cyc ((s.lane l).attemptAt + min (2 ^ s.f (F.LPHY_STAT_attempts l)) 100 * 625000)
          ∧ t.f (F.LPHY_STAT_attempts l) = min 255 (s.f (F.LPHY_STAT_attempts l) + 1) ∧ t.events = s.events)
    ∧ ((s.lane l).backoff = false → exec (.trainingRetry l) s = .next s)
    ∧ (s.pwr.rails = false ∨ s.pwr.lanesPowered = false → exec .blockBeacon s = .next s)
    ∧ (s.pwr.rails = true → s.pwr.lanesPowered = true → ∃ t, exec .blockBeacon s = .next t ∧ t.events = s.events
        ∧ (s.laneCoded l = true → s.laneState l ≤ 1 →
            (t.lane l).sets = [mkSet 3 (4 + b2n (s.f F.RED_STAT_sense == 0) * 16 + 0xB10CB10C * 256)])
        ∧ (1 < s.laneState l → t.lane l = s.lane l ∧ t.laneState l = s.laneState l))

/-- R96, R98 and R103. -/
def Obligations.EchoAndDiscovery : Prop :=
  ∀ (s : State) (l : Fin 48) (d r : Fin 1048576) (k : Fin 24) (j : Fin 128) (c : Nat),
    (s.laneState l = 3 → s.f (F.NCL_LSTAT_disc_step l) = 1 → (s.lane l).echoN < 15 → (s.lane l).echoOut = true →
        s.rxDelivers (s.rxLane l) = true →
        ∃ t, exec (.echoMeasureReturn l d r) s = .next t ∧ (t.lane l).echoN = (s.lane l).echoN + 1
          ∧ (t.lane l).echoD = (s.lane l).echoD + d ∧ (t.lane l).echoR = (s.lane l).echoR + r
          ∧ s.cyc ≤ t.cyc ∧ (s.lane l).echoAt * 128 + d * 10 ≤ t.cyc * 128 ∧ State.SameRegs s t ∧ t.events = s.events)
    ∧ (s.laneState l = 3 → s.f (F.NCL_LSTAT_disc_step l) = 1 → (s.lane l).echoN = 15 → (s.lane l).echoD ≤ 15 * (2 ^ 20 - 1) →
        (s.lane l).echoOut = true → s.rxDelivers (s.rxLane l) = true → s.isChain l = false →
        ∃ t, exec (.echoMeasureReturn l d r) s = .next t ∧ t.f (F.NCL_LSTAT_disc_step l) = 2
          ∧ t.f (F.NCL_PATH_D_d l) = ((s.lane l).echoD + d + 8) / 16 ∧ t.laneState l = 3)
    ∧ (s.laneState l ≠ 3 ∨ s.f (F.NCL_LSTAT_disc_step l) ≠ 1 ∨ 16 ≤ (s.lane l).echoN ∨ s.rxDelivers (s.rxLane l) = false →
        exec (.echoMeasureReturn l d r) s = .next s)
    ∧ (s.mode = .muster → s.f (F.NCL_LSTAT_disc_step l) = 4 →
        ∃ t, exec (.discoveryTimeout l) s = .next t ∧ t.f (F.NCL_LSTAT_disc_step l) = 5
          ∧ t.cyc = max s.cyc ((s.lane l).assignAt + 1250000)
          ∧ (t.lane l).timingOk = decide ((s.predicted l).1 ≤ s.f F.GLB_GATHER_DEADLINE_deadline_steps * 5 * 80
              ∧ (s.predicted l).2 ≤ s.f F.GLB_EDGE_OFFSET_edge_offset_steps * 5 * 80)
          ∧ (c ∈ s.laneCells l → (s.cell c).found = false → (t.cell c).unavail = true)
          ∧ (c ∈ s.laneCells l → (s.cell c).found = true → (s.cell c).record = none →
              (t.cell c).unavail = true ∧ ((s.cell c).incompatSeen = false → .cellIncompat ∈ s.raised t))
          ∧ (∀ rec, c ∈ s.laneCells l → (s.cell c).found = true → (s.cell c).record = some rec → rec.compatible = true →
              (s.cell c).timeOk = true → t.cell c = s.cell c))
    ∧ (s.mode ≠ .muster ∨ s.f (F.NCL_LSTAT_disc_step l) ≠ 4 → exec (.discoveryTimeout l) s = .next s)
    ∧ (∀ x ∈ [2 * k.val, 2 * k.val + 1], s.isChain x = true → s.f (F.NCL_LSTAT_path_mode x) = 2 → (s.lane x).splitIn = 0 →
        s.rxDelivers x = true → ∃ t, exec (.chainSplit k j) s = .next t ∧ s.raised t = [.chainSplit] ∧ (t.lane (2 * k)).splitIn = 2
          ∧ (t.lane (2 * k + 1)).splitIn = 2 ∧ (t.lane (2 * k)).splitPos = j ∧ t.regs = s.regs)
    ∧ ((∀ x ∈ [2 * k.val, 2 * k.val + 1], s.isChain x = false ∨ (s.lane x).splitIn ≠ 0 ∨ s.rxDelivers x = false) → exec (.chainSplit k j) s = .next s)

/-- R112, R117 to R120, R127 to R129 and R323. -/
def Obligations.LocksMarkersAndLostLanes : Prop :=
  ∀ (s : State) (l : Fin 50) (x : Fin 48) (n : Nat) (sig inF : Bool) (k : Fin 64) (y : RxSet) (fill : Fin 5) (cut : List W64),
    (s.inPeriod = true → s.seq.gatherDone = true) → s.Settled →
    (s.laneClock l = true → s.fb (F.LPHY_STAT_block_lock l) = false → 64 ≤ n →
        ∃ t, exec (.blockLockAcquired ⟨l, n⟩) s = .next t ∧ t.fb (F.LPHY_STAT_block_lock l) = true
          ∧ (t.lane l).relock = false ∧ t.laneState l = s.laneState l ∧ t.events = s.events)
    ∧ (s.laneClock l = false ∨ n < 64 → exec (.blockLockAcquired ⟨l, n⟩) s = .next s)
    ∧ (s.fb (F.LPHY_STAT_block_lock x) = true → s.fb (F.LPHY_STAT_rx_signal x) = true → s.laneState x = 3 → 16 ≤ n →
        ∃ t, exec (.blockLockLost (x.castLE (by decide)) n sig none) s = .next t ∧ t.fb (F.LPHY_STAT_block_lock x) = false
          ∧ t.fb (F.LPHY_STAT_lock_lost x) = true ∧ t.f (F.LPHY_ERRCNT_bad_sync x) = min 0xFFFF (s.f (F.LPHY_ERRCNT_bad_sync x) + n)
          ∧ (s.mode = .muster → t.laneState x = 2 ∧ (t.lane x).attempt = true)
          ∧ (s.mode.laneDownMode = true → s.isChain x = false → t.laneState x = 4 ∧ s.raised t = [.laneDown])
          ∧ (s.mode.laneDownMode = true → s.isChain x = true → t.laneState x = 3 ∧ (t.lane x).relock = true
              ∧ (t.lane x).relockAt = s.cyc ∧ t.events = s.events))
    ∧ (s.fb (F.LPHY_STAT_block_lock x) = true → 16 ≤ n →
        ∃ t, exec (.blockLockLost (x.castLE (by decide)) n sig (some cut)) s = .next t ∧ t.fb (F.LPHY_STAT_block_lock x) = false
          ∧ t.f (F.NCL_ERRCNT_frame_crc_err (s.rxLane x)) = min 0xFFFF (s.f (F.NCL_ERRCNT_frame_crc_err (s.rxLane x)) + 1))
    ∧ (s.fb (F.LPHY_STAT_block_lock l) = false → s.up = true →
        ∃ t, exec (.blockLockLost l n sig none) s = .next t ∧ t.fb (F.LPHY_STAT_rx_signal l) = sig ∧ t.events = s.events
          ∧ (s.fb (F.LPHY_STAT_rx_signal l) = sig → t.f (F.LPHY_ERRCNT_bad_sync l) = min 0xFFFF (s.f (F.LPHY_ERRCNT_bad_sync l) + n))
          ∧ (∀ off, off ≠ R.LPHY_ERRCNT l → off ≠ R.LPHY_STAT l → t.rd off = s.rd off))
    ∧ (s.fb (F.LPHY_STAT_block_lock l) = true → n < 16 →
        ∃ t, exec (.blockLockLost l n sig (some cut)) s = .next t ∧ State.RegsOnly s t ∧ t.events = s.events
          ∧ t.f (F.LPHY_ERRCNT_bad_sync l) = min 0xFFFF (s.f (F.LPHY_ERRCNT_bad_sync l) + n)
          ∧ (∀ off, off ≠ R.LPHY_ERRCNT l → t.rd off = s.rd off))
    ∧ ((s.lane x).relock = true → s.fb (F.LPHY_STAT_block_lock x) = false → s.laneState x = 3 →
        ∃ t, exec (.chainRelockTimeout x) s = .next t ∧ t.laneState x = 4 ∧ s.raised t = [.laneDown]
          ∧ t.cyc = max s.cyc ((s.lane x).relockAt + 3125))
    ∧ ((s.lane x).relock = false → exec (.chainRelockTimeout x) s = .next s)
    ∧ (setWhole 5 y = true → s.rxDelivers x = true → bitsOf y.payload.toNat 5 0 = k → s.laneInUse x = true → k.val ≠ x.val →
        (s.isChain x = true → k.val ≠ partnerLane x) →
        ∃ t, exec (.markerReceived x y) s = .next t ∧ t.fb (F.LPHY_STAT_miswire x) = true
          ∧ (s.mode.laneDownMode = true → s.laneState x = 3 → t.laneState x = 4 ∧ s.raised t = [.laneMiswire, .laneDown])
          ∧ (s.mode.laneDownMode = false → t.laneState x = s.laneState x ∧ s.raised t = [.laneMiswire]))
    ∧ (setWhole 5 y = false ∨ s.rxDelivers x = false ∨ bitsOf y.payload.toNat 5 0 = x → exec (.markerReceived x y) s = .next s)
    ∧ (s.laneInUse x = true → 2 ≤ s.laneState x → s.laneState x ≤ 5 → s.laneCoded x = true → (s.lane x).tx.due = [] →
        ∃ t, exec (.markerSend x) s = .next t ∧ (t.lane x).mcount = ((s.lane x).mcount + 1) % 2 ^ 24 ∧ State.SameRegs s t
          ∧ t.cyc = max s.cyc ((s.lane x).tx.markAt + 65536)
          ∧ ((t.lane x).sets = [mkSet 5 (x + (s.lane x).mcount % 2 ^ 24 * 256)] ∧ (t.lane x).tx.markAt = t.cyc
            ∨ (t.lane x).tx.markAt = (s.lane x).tx.markAt ∧ (t.lane x).tx.due = [{ rank := 5, since := t.cyc, set := mkSet 5 (x + (s.lane x).mcount % 2 ^ 24 * 256) }]))
    ∧ (s.fb (F.LPHY_STAT_block_lock l) = true → inF = false → 3 ≤ fill.val →
        ∃ t, exec (.idleDelete ⟨l, fill, inF⟩) s = .next t ∧ t.f (F.LPHY_RMCNT_idle_del l) = min 0xFFFF (s.f (F.LPHY_RMCNT_idle_del l) + 1)
          ∧ (t.lane l).fill = fill - 1 ∧ t.f (F.LPHY_RMCNT_idle_ins l) = s.f (F.LPHY_RMCNT_idle_ins l) ∧ t.events = s.events)
    ∧ (s.fb (F.LPHY_STAT_block_lock l) = true → inF = false → fill.val ≤ 1 →
        ∃ t, exec (.idleInsert ⟨l, fill, inF⟩) s = .next t ∧ t.f (F.LPHY_RMCNT_idle_ins l) = min 0xFFFF (s.f (F.LPHY_RMCNT_idle_ins l) + 1)
          ∧ (t.lane l).fill = fill + 1 ∧ t.f (F.LPHY_RMCNT_idle_del l) = s.f (F.LPHY_RMCNT_idle_del l) ∧ t.events = s.events)
    ∧ (inF = true → ∀ i ∈ [Instr.idleDelete ⟨l, fill, inF⟩, .idleInsert ⟨l, fill, inF⟩], ∃ t, exec i s = .next t ∧ t.regs = s.regs)
    ∧ (s.awake = true → s.mode = .safeBlock → s.f F.SAF_LATCH_in_latch = 0 →
        ∃ t, exec .blockSetRepeat s = .next t ∧ t = { s with lanes := t.lanes }
          ∧ (s.laneCoded x = true → (t.lane x).sets = [blockSet s.saf.blockClass s.entitled])
          ∧ (s.laneCoded x = false → t.lane x = s.lane x))
    ∧ (s.blockTx = false → exec .blockSetRepeat s = .next s)

/-- R121 to R123. -/
def Obligations.MirrorBond : Prop :=
  ∀ (s : State) (x y : RxSet) (k : Int) (h : RxSet),
    let a := bitsOf x.payload.toNat 5 0
    let b := bitsOf y.payload.toNat 5 0
    let whole : Prop := setWhole 5 x = true ∧ setWhole 5 y = true ∧ bitsOf x.payload.toNat 31 8 = bitsOf y.payload.toNat 31 8
      ∧ s.rxDelivers 48 = true ∧ s.rxDelivers 49 = true
    (s.paired = true → s.laneCoded 48 = true → s.laneCoded 49 = true →
        ∃ t, exec .mirrorMarkerPair s = .next t ∧ (t.lane 48).mcount = ((s.lane 48).mcount + 1) % 2 ^ 24
          ∧ t.cyc = max s.cyc ((s.lane 48).tx.markAt + 65536)
          ∧ ((s.lane 48).tx.frame = none → (s.lane 49).tx.frame = none → t.pair.txTurn = false)
          ∧ (t.lane 48).sets = [mkSet 5 (48 + (s.lane 48).mcount % 2 ^ 24 * 256)]
          ∧ (t.lane 49).sets = [mkSet 5 (49 + (s.lane 48).mcount % 2 ^ 24 * 256)])
    ∧ (s.paired = false → exec .mirrorMarkerPair s = .next s)
    ∧ (whole → (a = 48 ∧ b = 49 ∨ a = 49 ∧ b = 48) →
        (s.fb F.LPHY_MIR_STAT_bonded = false → k.natAbs ≤ 64 →
          ∃ t, exec (.mirrorMarkerReceived x y k) s = .next t ∧ t.fb F.LPHY_MIR_STAT_bonded = true
            ∧ sx 8 (t.f F.LPHY_MIR_STAT_skew) = k ∧ t.fb F.LPHY_MIR_STAT_swapped = decide (a = 49) ∧ s.raised t = [.mirBond])
        ∧ (s.fb F.LPHY_MIR_STAT_bonded = false → 64 < k.natAbs →
          ∃ t, exec (.mirrorMarkerReceived x y k) s = .next t ∧ t.fb F.LPHY_MIR_STAT_bonded = false
            ∧ t.fb F.LPHY_MIR_STAT_skew_err = true ∧ s.raised t = [.mirSkew])
        ∧ (s.fb F.LPHY_MIR_STAT_bonded = true → (k - sx 8 (s.f F.LPHY_MIR_STAT_skew)).natAbs ≤ 4 → k.natAbs ≤ 64 →
          exec (.mirrorMarkerReceived x y k) s = .next { s with pair := { s.pair with rxBefore := s.pair.rxTurn, rxTurn := false } })
        ∧ (s.fb F.LPHY_MIR_STAT_bonded = true → 4 < (k - sx 8 (s.f F.LPHY_MIR_STAT_skew)).natAbs → k.natAbs ≤ 64 →
          ∃ t, exec (.mirrorMarkerReceived x y k) s = .next t ∧ t.fb F.LPHY_MIR_STAT_bonded = false
            ∧ t.fb F.LPHY_MIR_STAT_bond_lost = true ∧ s.raised t = [.mirUnbond] ∧ t.pair.bondAt = some s.cyc))
    ∧ (whole → a = 48 → b ≠ 49 → ∃ t, exec (.mirrorMarkerReceived x y k) s = .next t ∧ t.fb (F.LPHY_STAT_miswire 49) = true
        ∧ t.rd (R.LPHY_STAT 48) = s.rd (R.LPHY_STAT 48) ∧ s.raised t = [.laneMiswire])
    ∧ (whole → b = 49 → a ≠ 48 → ∃ t, exec (.mirrorMarkerReceived x y k) s = .next t ∧ t.fb (F.LPHY_STAT_miswire 48) = true
        ∧ t.rd (R.LPHY_STAT 49) = s.rd (R.LPHY_STAT 49) ∧ s.raised t = [.laneMiswire])
    ∧ (s.setTaken 48 5 x = false ∨ s.setTaken 49 5 y = false ∨ bitsOf x.payload.toNat 31 8 ≠ bitsOf y.payload.toNat 31 8 →
        exec (.mirrorMarkerReceived x y k) s = .next s)
    ∧ (s.fb F.LPHY_MIR_STAT_bonded = true →
        ∃ t, exec .mirrorMarkerTimeout s = .next t ∧ t.fb F.LPHY_MIR_STAT_bonded = false
          ∧ t.fb F.LPHY_MIR_STAT_bond_lost = true ∧ s.raised t = [.mirUnbond])
    ∧ (s.fb F.LPHY_MIR_STAT_bonded = false → exec .mirrorMarkerTimeout s = .next s)
    ∧ (∀ l : Fin 50, 48 ≤ l.val → s.live = true → s.rxDelivers l = true → setWhole 3 h = true → h.payload.toNat % 16 = 4 →
        exec (.mirrorBlockSet ⟨l, h⟩) s = .next { s with pair := { s.pair with blockAt := some (s.pair.blockAt.getD s.cyc), blockLast := some s.cyc } })
    ∧ (∀ l : Fin 50, setWhole 3 h = false ∨ h.payload.toNat % 16 ≠ 4 ∨ s.rxDelivers l = false → exec (.mirrorBlockSet ⟨l, h⟩) s = .next s)

/-- R131 to R139. -/
def Obligations.ReceiverAdaptationAndPatterns : Prop :=
  ∀ (s : State) (m : Master) (l : Fin 50) (ev eh n : Nat) (cv : Int) (v : W32) (bit : Bool) (bits : List Bool),
    let ready : Prop := s.fb (F.LPHY_STAT_frozen l) = false ∧ (s.lane l).resumeAt ≤ (s.lane l).fomAt
    (s.fb (F.LPHY_STAT_block_lock l) = true → ev < 256 → eh ≤ 64 →
      ∃ t, exec (.fomMeasure l ev eh cv cv) s = .next t ∧ t.f (F.LPHY_FOM_eye_v l) = ev ∧ t.f (F.LPHY_FOM_eye_h l) = eh
        ∧ t.cyc = max s.cyc ((s.lane l).fomAt + 16384) ∧ (t.lane l).fomAt = t.cyc
        ∧ (¬ ready → t.f (F.LPHY_FOM_off_now l) = s.f (F.LPHY_FOM_off_now l) ∧ t.events = s.events)
        ∧ (ready → sx 6 (s.f (F.LPHY_FOM_off_now l)) < cv →
            sx 6 (s.f (F.LPHY_FOM_off_now l)) + 1 ≤ (s.lane l).centreOff + 8 → (s.lane l).centreOff - 8 ≤ sx 6 (s.f (F.LPHY_FOM_off_now l)) →
            sx 6 (s.f (F.LPHY_FOM_off_now l)) + 1 ≤ 31 → sx 6 (t.f (F.LPHY_FOM_off_now l)) = sx 6 (s.f (F.LPHY_FOM_off_now l)) + 1)
        ∧ (ready → sx 6 (s.f (F.LPHY_FOM_off_now l)) < cv →
            sx 6 (s.f (F.LPHY_FOM_off_now l)) = (s.lane l).centreOff + 8 →
            sx 6 (t.f (F.LPHY_FOM_off_now l)) = sx 6 (s.f (F.LPHY_FOM_off_now l))
              ∧ t.fb (F.LPHY_STAT_fom_limit l) = true ∧ (s.fb (F.LPHY_STAT_fom_limit l) = false → s.raised t = [.fomLimit])
              ∧ (s.fb (F.LPHY_STAT_fom_limit l) = true → t.events = s.events)))
    ∧ (s.fb (F.LPHY_STAT_block_lock l) = true → 8192 ≤ n → ∃ t, exec (.adaptFreeze ⟨l, n⟩) s = .next t ∧ t.fb (F.LPHY_STAT_frozen l) = true
        ∧ t.laneState l = s.laneState l ∧ t.events = s.events)
    ∧ (s.fb (F.LPHY_STAT_block_lock l) = true → s.fb (F.LPHY_STAT_frozen l) = true → 256 ≤ n →
        ∃ t, exec (.adaptResume ⟨l, n⟩) s = .next t ∧ t.fb (F.LPHY_STAT_frozen l) = false ∧ (t.lane l).resumeAt = s.cyc
          ∧ t.laneState l = s.laneState l ∧ t.events = s.events)
    ∧ (n < 256 → ∀ i ∈ [Instr.adaptFreeze ⟨l, n⟩, .adaptResume ⟨l, n⟩], exec i s = .next s)
    ∧ (s.MayWrite m → s.mode = .configure → ∃ t, exec (.eqRxWrite m l v) s = .next t
        ∧ t.f (F.LPHY_EQ_RX_rx_offset l) = bitsOf v.toNat 13 8 ∧ t.f (F.LPHY_FOM_off_now l) = bitsOf v.toNat 13 8
        ∧ t.f (F.LPHY_FOM_phase_now l) = bitsOf v.toNat 21 16 ∧ (t.lane l).centreOff = sx 6 (bitsOf v.toNat 13 8))
    ∧ (s.MayWrite m → s.mode ≠ .configure → ∃ t, exec (.eqRxWrite m l v) s = .next t
        ∧ t.rd (R.LPHY_EQ_RX l) = s.rd (R.LPHY_EQ_RX l) ∧ t.rd (R.LPHY_FOM l) = s.rd (R.LPHY_FOM l))
    ∧ (s.MayWrite m → s.mode = .diagnostic → s.f (F.LPHY_DIAG_diag_mode l) = 1 ∨ s.f (F.LPHY_DIAG_diag_mode l) = 2 →
        (s.lane l).tx.injBits = 0 → (s.lane l).tx.genFrom ≤ s.cyc →
        (∃ t, exec (.injectSingle m l) s = .next t ∧ (t.lane l).tx.injBits = 1 ∧ (t.lane l).tx.injBurst = false
          ∧ (∃ a, (t.lane l).tx.injFrom = some a ∧ s.cyc < a ∧ a ≤ s.cyc + 4) ∧ t.laneState l = s.laneState l)
        ∧ (1 ≤ s.f (F.LPHY_DIAG_burst_len l) → s.f (F.LPHY_DIAG_burst_len l) ≤ 64 →
            ∃ t, exec (.injectBurst m l) s = .next t ∧ (t.lane l).tx.injBits = s.f (F.LPHY_DIAG_burst_len l)
              ∧ (t.lane l).tx.injBurst = true ∧ t.laneState l = s.laneState l))
    ∧ (s.MayWrite m → s.mode ≠ .diagnostic → s.f (F.LPHY_DIAG_diag_mode l) = 0 → ∀ i ∈ [Instr.injectSingle m l, .injectBurst m l],
        ∃ t, exec i s = .next t ∧ t.lanes = s.lanes)
    ∧ (s.checkerOn l = true → s.fb (F.LPHY_STAT_chk_lock l) = false → s.checkerSeed l (s.checkedBits l bits).1 ≠ none →
        ∃ t, exec (.checkerLock ⟨l, bits⟩) s = .next t ∧ t.fb (F.LPHY_STAT_chk_lock l) = true ∧ (t.lane l).chk.errs = [])
    ∧ (s.checkerOn l = false ∨ s.txCarries l = .pattern ∧ s.checkerSeed l bits = none → exec (.checkerLock ⟨l, bits⟩) s = .next s)
    ∧ (s.checkerOn l = true → s.fb (F.LPHY_STAT_chk_lock l) = true → ∃ t, exec (.checkerLoss l bit bits) s = .next t
        ∧ (let r := (s.lane l).chk.run (s.f (F.LPHY_DIAG_pat_sel l)) (s.checkedBits l (bit :: bits)).1
           r.2.2 ≤ r.2.1 ∧ r.2.1 ≤ bits.length + 1 ∧ t.f (F.LPHY_CHK_ERR_chk_err l) = min 0xFFFFFFFF (s.f (F.LPHY_CHK_ERR_chk_err l) + r.2.2)
            ∧ t.rd (R.LPHY_CHK_BITS_LO l) + t.rd (R.LPHY_CHK_BITS_HI l) * 2 ^ 32
                = min (2 ^ 64 - 1) (s.rd (R.LPHY_CHK_BITS_LO l) + s.rd (R.LPHY_CHK_BITS_HI l) * 2 ^ 32 + r.2.1)
            ∧ t.fb (F.LPHY_STAT_chk_lock l) = decide (r.1.errs.length < 64)))
    ∧ (s.checkerOn l = false ∨ s.fb (F.LPHY_STAT_chk_lock l) = false → exec (.checkerLoss l bit bits) s = .next s)

/-- R176, R178, R188 and R194 to R196; R189, R193, R195 and R196. -/
def Obligations.PwmArmsPlansAndEdges : Prop :=
  (
    ∀ (s : State) (u : Fin 6) (a : Nat) (x : Selection) (c : Fin 16) (pins : BitVec 8),
      (s.mode.controls = true → s.plan.queue.find? (fun b => s.unitOf b == u.val) = some a → (s.arm a).selection = some x →
        (∀ d ∈ x.base ++ x.swing ++ x.cands, s.f (F.WIN_CELL_STAT_code d) = 0) → (∀ d, x.trim = some d → d ∈ x.cands) →
        ∃ t, exec (.armPlanDone u) s = .next t ∧ (t.arm a).planned = true ∧ t.plan.queue = s.plan.queue.erase a
          ∧ ∀ d ∈ s.armCells a, let k := s.f (F.WIN_CELL_STAT_code d); let p := tget PlanSlot.blank t.plan.slots d
            (k ≠ 0 → p.edges = []) ∧ (k = 2 ∨ k = 3 ∨ k = 4 → p.state = 5) ∧ (k = 5 ∨ k = 7 → p.state = 2) ∧ (k = 8 → p.state = 3)
              ∧ (k = 1 ∨ k = 6 → p.state = 0))
      ∧ (s.mode.controls = false ∨ s.plan.queue = [] → exec (.armPlanDone u) s = .next s)
      ∧ (s.live = true → s.Settled → s.fb (F.EDG_PWM_CTL_run c) = true → s.pairedTo c = false → s.f (F.EDG_PWM_CTL_sync_src c) ≠ 3 →
        let u := s.advanceCyc (s.reloadAt c)
        let handed := u.tickDue = true ∧ u.seq.stopPend = false ∧ u.pwmIo.handAt ≠ some u.cyc ∧ bitOf (u.startRd R.EDG_PWM_COMMIT) c = true
        let set := if handed then u.shadowSet c else (s.pwmCh c).waiting.getD (s.pwmCh c).work
        ∃ t, exec (.pwmReload c pins) s = .next t ∧ t.cyc = max s.cyc (s.reloadAt c) ∧ (t.pwmCh c).counter = 0
          ∧ (t.pwmCh c).loadAt = s.reloadAt c ∧ (t.pwmCh c).waiting = none
          ∧ (s.fb (F.EDG_PWM_CTL_upd_mode c) = true → (t.pwmCh c).work = set)
          ∧ (s.fb (F.EDG_PWM_CTL_upd_mode c) = false → (t.pwmCh c).work =
              { set with on := u.shadowOn c, off := u.shadowOff c })
          ∧ (t.pwmCh c).force = (if (s.pwmCh c).forceEnd then none else (s.pwmCh c).force) ∧ (t.pwmCh c).forceEnd = false
          ∧ (t.pwmCh c).tapCode = s.f F.EDG_DL_STAT_code)
      ∧ (s.fb (F.EDG_PWM_CTL_run c) = false → exec (.pwmReload c pins) s = .next s)) ∧ (
    ∀ (s : State) (m : Master) (c : Fin 16) (on : Bool) (chs : BitVec 16),
      (s.live = true → s.fb (F.EDG_PWM_CTL_run c) = true → s.pairedTo c = false → s.fb (F.EDG_PWM_CTL_pair_en c) = false →
        s.fb (F.EDG_PWM_CTL_policy c) = false → (s.pwmCh c).work.on ≠ (s.pwmCh c).work.off →
        (on = true → (s.pwmCh c).work.on + (s.pwmCh c).work.dead <
          nextInstant (s.pwmCh c).work.on (s.pwmCh c).work.off ((s.pwmCh c).work.per * 32)) →
        (s.pwmCh c).work.on < (s.pwmCh c).work.per * 32 → (s.pwmCh c).work.off < (s.pwmCh c).work.per * 32 →
        (s.pwmCh c).passed ≤ (if on then (s.pwmCh c).work.on else (s.pwmCh c).work.off) →
        ((s.pwmCh c).work.minPulse = 0 →
          ∃ t, exec (.pwmCompare c on) s = .next t ∧ (t.pwmCh c).wave = on ∧ (t.pwmCh c).out = on
            ∧ t.cyc = max s.cyc (s.compareCyc c on)
            ∧ ((s.pwmCh c).out ≠ on → (t.pwmCh c).edges.getLast? = some
                (t.edgeCyc c (((s.pwmCh c).work.instant on + (if on then (s.pwmCh c).work.dead else 0) : Nat) : Int), on)))
        ∧ (on = true → (s.pwmCh c).work.on < (s.pwmCh c).work.off → (s.pwmCh c).work.off < (s.pwmCh c).work.on + (s.pwmCh c).work.minPulse →
            (s.pwmCh c).work.dead = 0 → (s.pwmCh c).out = false → (s.advanceCyc (s.compareCyc c true)).maskedCh c = false →
          ∃ t, exec (.pwmCompare c true) s = .next t ∧ (t.pwmCh c).wave = true ∧ (t.pwmCh c).out = false
            ∧ t.f (F.EDG_PWM_STAT_pulse_drop c) = min 0xFFFF (s.f (F.EDG_PWM_STAT_pulse_drop c) + 1)
            ∧ (s.f (F.EDG_PWM_STAT_pulse_drop c) = 0 → .pulseDrop ∈ s.raised t)))
      ∧ (s.compareDue c on = false → exec (.pwmCompare c on) s = .next s)
      ∧ (s.MayWrite m → ∃ t, exec (.pwmCommit m chs) s = .next t
          ∧ t.f F.EDG_PWM_COMMIT_commit = (s.f F.EDG_PWM_COMMIT_commit ||| chs.toNat) ∧ t.pwm = s.pwm ∧ t.events = s.events)
      ∧ (s.MayWrite m → ∃ t, exec (.pwmForceActive m c) s = .next t ∧ t.f (F.EDG_PWM_CTL_force c) = 2
          ∧ (t.pwmCh c).force = some true ∧ (t.pwmCh c).forceEnd = false ∧ (t.pwmCh c).work = (s.pwmCh c).work)
      ∧ (s.MayWrite m → ∃ t, exec (.pwmForceInactive m c) s = .next t ∧ t.f (F.EDG_PWM_CTL_force c) = 3
          ∧ (t.pwmCh c).force = some false ∧ (t.pwmCh c).forceEnd = false ∧ (t.pwmCh c).work = (s.pwmCh c).work)
      ∧ (s.MayWrite m → ∃ t, exec (.pwmForceRelease m c) s = .next t ∧ t.f (F.EDG_PWM_CTL_force c) = 0
          ∧ (t.pwmCh c).force = (s.pwmCh c).force ∧ (t.pwmCh c).forceEnd = (s.pwmCh c).force.isSome))

/-- R197 to R203. -/
def Obligations.FaultInputsAndSyncPins : Prop :=
  ∀ (s : State) (m : Master) (i : Fin 8) (n k j : Nat) (c : Fin 16) (code : Fin 128) (src : Fin 4),
    let need := if s.f (F.EDG_FLT_CFG_flt_mode i) = 2 then s.f (F.EDG_FLT_CFG_filt_len i) + 1 else 3
    let blank := s.f (F.EDG_FLT_CFG_flt_mode i) = 1 ∧ (s.pwmCh (s.f (F.EDG_FLT_CFG_blank_ch i))).wave = true
    let latches := s.f (F.EDG_FLT_CFG_flt_action i) = 1 ∨ (s.f (F.EDG_FLT_CFG_flt_action i) = 0 ∧ (s.fb (F.EDG_FLT_STAT_escalated i) = true
      ∨ s.f (F.EDG_FLT_CFG_flt_limit i) ≤ min 255 (s.f (F.EDG_FLT_STAT_tally i) + 1)))
    (s.live = true → (s.flt i).since = none → (s.flt i).ended ≠ some s.cyc → n ≤ s.cyc → need ≤ n → ¬ blank →
      ∃ t, exec (.faultInputAssert i n) s = .next t ∧ t.f (F.EDG_FLT_STAT_tally i) = min 255 (s.f (F.EDG_FLT_STAT_tally i) + 1)
        ∧ t.fb (F.EDG_FLT_STAT_held i) = true ∧ t.fb (F.EDG_FLT_STAT_pin i) = true
        ∧ (latches → bitOf (s.fltChannels i) c = true → bitOf (t.pwmCh c).fltLatch i = true)
        ∧ (latches → s.f (F.EDG_FLT_CFG_flt_action i) = 0 → t.fb (F.EDG_FLT_STAT_escalated i) = true)
        ∧ (s.f (F.EDG_FLT_CFG_flt_action i) = 0 → ¬ latches → bitOf (s.fltChannels i) c = true →
            bitOf (t.pwmCh c).fltCycle i = true ∧ (t.pwmCh c).fltLatch = (s.pwmCh c).fltLatch)
        ∧ (s.f (F.EDG_FLT_CFG_flt_action i) ≠ 2 → bitOf (s.fltChannels i) c = false → t.pwmCh c = s.pwmCh c)
        ∧ (s.f (F.EDG_FLT_CFG_flt_action i) = 2 → bitOf t.pwmIo.hiz i = true ∧ (t.pwmCh c).driving = false)
        ∧ (bitOf s.pwmIo.fltSeen i = false → s.raised t = [.pwmFault])
        ∧ (bitOf s.pwmIo.fltSeen i = true → t.events = s.events))
    ∧ (s.live = true → (s.flt i).since = none → n ≤ s.cyc → n < need ∨ blank →
        ∃ t, exec (.faultInputAssert i n) s = .next t ∧ t.fb (F.EDG_FLT_STAT_pin i) = decide (0 < n) ∧ t.pwm = s.pwm
          ∧ t.f (F.EDG_FLT_STAT_tally i) = s.f (F.EDG_FLT_STAT_tally i) ∧ t.events = s.events ∧ t.now = s.now)
    ∧ (∀ f, s.live = true → s.compareDue c false = true → s.f (F.EDG_FLT_CFG_flt_mode i) = 1 → s.f (F.EDG_FLT_CFG_blank_ch i) = c →
        s.fb (F.EDG_FLT_STAT_pin i) = true → (s.flt i).since = some f → f + 3 ≤ s.compareCyc c false → (s.flt i).acted = none →
        ∃ t, exec (.pwmCompare c false) s = .next t ∧ (t.flt i).acted = some t.cyc ∧ t.fb (F.EDG_FLT_STAT_held i) = true
          ∧ t.f (F.EDG_FLT_STAT_tally i) = min 255 (s.f (F.EDG_FLT_STAT_tally i) + 1))
    ∧ (s.live = true → (s.flt i).acted.isSome = true → (s.flt i).since.isSome = true →
        ∃ t, exec (.faultInputAssert i n) s = .next t ∧ t.pwm = s.pwm ∧ t.events = s.events
          ∧ t.f (F.EDG_FLT_STAT_tally i) = s.f (F.EDG_FLT_STAT_tally i))
    ∧ (s.MayWrite m → (s.flt i).acted ≠ some s.cyc → ∃ t, exec (.faultInputClear m i false) s = .next t ∧ t.f (F.EDG_FLT_STAT_tally i) = 0
        ∧ t.fb (F.EDG_FLT_STAT_held i) = false ∧ bitOf (t.pwmCh c).fltLatch i = false ∧ bitOf (t.pwmCh c).fltCycle i = false
        ∧ bitOf t.pwmIo.hiz i = false ∧ (j ≠ i.val → bitOf (t.pwmCh c).fltLatch j = bitOf (s.pwmCh c).fltLatch j))
    ∧ (s.MayWrite m → (s.flt i).acted ≠ some s.cyc → s.fb (F.EDG_FLT_STAT_escalated i) = false → ∃ t, exec (.faultInputClear m i true) s = .next t
        ∧ t.f (F.EDG_FLT_STAT_tally i) = 0 ∧ t.f (F.EDG_FLT_STAT_held i) = s.f (F.EDG_FLT_STAT_held i) ∧ t.pwm = s.pwm)
    ∧ (s.live = true → ∃ t, exec (.dlCalibrate true code) s = .next t ∧ t.cyc = max s.cyc (max s.pwmIo.dlAt s.pwr.upCyc + cycPerMs)
        ∧ t.f F.EDG_DL_STAT_code = code ∧ t.f F.EDG_DL_STAT_cal_age = 0
        ∧ t.f F.EDG_DL_STAT_cal_count = (s.f F.EDG_DL_STAT_cal_count + 1) % 2 ^ 16 ∧ t.events = s.events)
    ∧ (s.live = true → ∃ t, exec (.dlCalibrate false code) s = .next t ∧ t.f F.EDG_DL_STAT_code = s.f F.EDG_DL_STAT_code
        ∧ t.fb F.EDG_DL_STAT_range_err = true ∧ s.raised t = [.dlRange])
    ∧ (∀ e, s.maskEnd src = some e → ∃ t, exec (.maskExpire src) s = .next t ∧ t.maskEnd src = none ∧ t.maskOn src = false
        ∧ t.cyc = max s.cyc e ∧ t.pwm = s.pwm ∧ ∀ k, k ≠ src.val → t.maskEnd k = s.maskEnd k)
    ∧ (s.maskEnd src = none → exec (.maskExpire src) s = .next s)
    ∧ (s.seq.running = true → s.seq.started = true → s.pwmIo.syncOutArmed = true →
        ∃ t, exec .syncOutPulse s = .next t ∧ t.pwmIo.syncOut = true ∧ t.pwmIo.syncOutArmed = false
          ∧ t.pwmIo.syncOutFrom = s.pN * 20 + s.f F.EDG_SYNC_CFG_sync_out_dly ∧ t.now = (s.advanceToU (unitsOf50ps t.pwmIo.syncOutFrom)).now)
    ∧ (s.pwmIo.syncOut = true → ∃ t, exec .syncOutEnd s = .next t ∧ t.pwmIo.syncOut = false
          ∧ t.now = (s.advanceToU (unitsOf50ps (s.pwmIo.syncOutFrom + s.f F.EDG_SYNC_CFG_sync_width * 32))).now)
    ∧ (s.pwmIo.syncOut = false → exec .syncOutEnd s = .next s)
    ∧ (s.live = true → s.Settled → s.fb F.EDG_SYNC_CFG_sync_in_en = true → s.tim.stepAt ≠ some s.cyc → s.now.frac = 0 → s.now.ns = s.boundary n + 4 * k → 8 * k < s.periodNs →
        ∃ t, exec .syncInEdge s = .next t ∧ t.f F.EDG_SYNC_CAP_offset = 5 * k ∧ t.pwmIo.syncInAt = some s.stampUnits ∧ t.cyc = s.cyc + 3)
    ∧ (∀ v, s.live = true → s.fb F.EDG_SYNC_CFG_sync_in_en = true → s.pwmIo.syncInAt = some v → s.fb F.EDG_SYNC_CAP_sync_lost = false →
        ∃ t, exec .syncInTimeout s = .next t ∧ t.fb F.EDG_SYNC_CAP_sync_lost = true ∧ s.raised t = [.syncLost]
          ∧ t.pwmIo.syncInAt = none ∧ t.now = (s.advanceToU (v + s.periodNs * 3 * 2 ^ 31)).now)
    ∧ (s.pwmIo.syncInAt = none → exec .syncInTimeout s = .next s)

/-- R269 to R273; R274 and R275. -/
def Obligations.ConversionsResultsAndSnapshots : Prop :=
  (
    ∀ (s : State) (k : Fin 5) (i : Nat) (c : Conv) (code : Int) (ovr : Bool),
      (s.adcWorks = true → s.unitSlice k = some i → (s.slice i).cur = some c →
        ∃ t, exec (.adcConversionEnd k) s = .next t ∧ (t.slice i).ended = (s.slice i).ended ++ [c] ∧ (t.slice i).lastEnd = c.start + 40
          ∧ t.now = (s.advanceTo (c.start + 40)).now ∧ t.events = s.events)
      ∧ (s.unitSlice k = none → exec (.adcConversionEnd k) s = .next s)
      ∧ (s.adcWorks = true → i < 4 → (s.slice i).ended = [c] → c.unit = k.val → c.ch < 24 → c.stepped = 0 → (∀ j < 4, j ≠ i → (s.slice j).ended = []) →
        -32768 ≤ code → code ≤ 32767 → s.Settled →
        ∃ t, exec (.adcResult k code ovr) s = .next t ∧ t.now = (s.advanceTo (c.start + 44)).now
          ∧ sx 16 (t.f (F.ADC_RES_LO_code c.ch)) = (if ovr = true then (if code < 0 then -32768 else 32767) else code)
          ∧ t.fb (F.ADC_RES_LO_ovr c.ch) = ovr ∧ t.f (F.ADC_RES_LO_slice c.ch) = k ∧ t.fb (F.ADC_RES_LO_urgent c.ch) = c.urgent.isSome
          ∧ t.f (F.ADC_RES_HI_sample_ns c.ch) = (c.start + 8) % 1000000000 / 2 * 2
          ∧ (ovr = true → bitOf (t.f F.ADC_OVR_ovr) c.ch = true)
          ∧ (∀ u < 4, c.urgent = some u → t.f (F.ADC_URG_CNT_done u) = min 0xFFFF (s.f (F.ADC_URG_CNT_done u) + 1)
              ∧ t.rd (R.ADC_URG_RES_LO u) = t.rd (R.ADC_RES_LO c.ch))
          ∧ (∀ x, s.adc.lastRead = some x → x.cyc = (s.advanceTo (c.start + 44)).cyc → x.ch = c.ch → x.first = 0 → x.count = 4 →
              s.rdata = leBytes 4 x.value → t.rdata = leBytes 4 (t.rd (R.ADC_RES_LO c.ch))))
      ∧ ((∀ j < 4, (s.slice j).ended = []) → exec (.adcResult k code ovr) s = .next s)) ∧ (
    ∀ (s : State) (c : Nat),
      (s.live = true → s.seq.started = true → s.adc.snapPeriod ≠ s.periodFull →
        ∃ t, exec .adcSnapshot s = .next t ∧ t.adc.snap.length = 24 ∧ t.adc.snapPeriod = s.periodFull ∧ t.adc.snapDue = true
          ∧ t.now = (s.advanceTo (s.pN + 300)).now ∧ t.events = s.events
          ∧ (c < 24 → tget none s.adc.latest c = none → t.adc.snap[c]? = some (2 ^ 19))
          ∧ (c < 24 → s.fb (F.ADC_CH_CFG_en c) = true → ∀ r, tget none s.adc.latest c = some r →
              (t.adc.snap.getD c 0) % 2 ^ 16 = r.word % 2 ^ 16))
      ∧ (s.adc.snap ≠ [] → s.adc.snapPeriod = s.periodFull → exec .adcSnapshot s = .next s)
      ∧ (s.live = true → s.adc.snapDue = true → s.fb F.ADC_SNAP_BASE_snap_en = false →
        ∃ t, exec .snapshotRecordDone s = .next t ∧ t.adc.snapDue = false ∧ t.grn = s.grn ∧ t.events = s.events
          ∧ t.now = (s.advanceTo (s.boundary s.adc.snapPeriod + 400)).now)
      ∧ (s.adc.snapDue = false → exec .snapshotRecordDone s = .next s))

/-- R263 to R267, R271 and R272. -/
def Obligations.RoundsCalibrationAndUrgent : Prop :=
  ∀ (s : State) (m : Master) (k u : Fin 4) (ok : BitVec 5) (ch : Nat) (rest : List Nat),
    (s.adcWorks = true → s.economy = true → s.seq.running = false → s.sliceList k = ch :: rest → (s.slice k).cur = none →
      (s.slice k).urgent = [] →
      ∃ t, exec .adcRoundTrigger s = .next t ∧ t.cyc = max s.cyc (s.adc.trigAt + cyclesOfNs s.periodNs)
        ∧ (t.slice k).cur.map Conv.ch = some ch ∧ (t.slice k).round = true ∧ t.events = s.events)
    ∧ (s.adcWorks = false ∨ s.economy = false ∨ s.seq.running = true → exec .adcRoundTrigger s = .next s)
    ∧ (s.adcWorks = true → s.fb F.ADC_CAL_cal_en = true → s.adc.calRun = none → s.adc.calPend = none → s.f F.ADC_STAT_stand_in = 7 →
        (s.adc.calNext = 4 → ∃ t, exec .adcCalStart s = .next t ∧ t.adc.calRun = some 4 ∧ t.adc.calNext = 0 ∧ t.f F.ADC_STAT_stand_in = 4
            ∧ t.cyc = max s.cyc (s.adc.calLast + s.f F.ADC_CAL_cal_interval * cycPerMs) ∧ t.adc.calAt = t.cyc)
        ∧ (s.adc.calNext = k → s.sliceList k ≠ [] → ∃ t, exec .adcCalStart s = .next t ∧ t.adc.calPend = some k.val
            ∧ t.adc.calNext = k + 1 ∧ t.f F.ADC_STAT_stand_in = 7)
        ∧ (s.adc.calNext = k → s.sliceList k = [] → ∃ t, exec .adcCalStart s = .next t ∧ t.adc.calRun = some k.val
            ∧ t.f F.ADC_STAT_stand_in = k))
    ∧ (s.live = true → s.adc.phase = .initial → ∃ t, exec (.adcCalDone ok) s = .next t ∧ t.adc.phase = .working
        ∧ t.cyc = max s.cyc (s.adc.calAt + 120 * cycPerUs)
        ∧ t.f F.ADC_STAT_cal_count = (s.f F.ADC_STAT_cal_count + 5) % 2 ^ 16
        ∧ (∀ j < 5, ok.getLsbD j = false → .adcCalErr ∈ s.raised t) ∧ (ok.toNat = 31 → t.events = s.events))
    ∧ (s.adcWorks = true → s.adc.calRun = some 4 → ∃ t, exec (.adcCalDone ok) s = .next t ∧ t.adc.calRun = none
        ∧ t.cyc = max s.cyc (s.adc.calAt + 120 * cycPerUs)
        ∧ t.f F.ADC_STAT_stand_in = 7 ∧ t.f F.ADC_STAT_cal_count = (s.f F.ADC_STAT_cal_count + 1) % 2 ^ 16
        ∧ s.raised t = (if ok.getLsbD 4 then [] else [.adcCalErr]))
    ∧ (s.MayWrite m → s.adc.phase = .working → s.f (F.ADC_URG_CFG_src u) = 0 → s.fb (F.ADC_URG_CFG_en u) = true →
        (∀ j < 4, (s.slice j).urgent = []) → (s.adc.urgCyc ≠ s.cyc ∨ s.adc.urgSlots = []) → s.urgentWaits u = false → s.f (F.ADC_CH_CFG_slice (s.f (F.ADC_URG_CFG_ain u))) = k → (s.slice k).cur = none →
        ∃ t, exec (.urgentRequest m (BitVec.ofNat 4 (2 ^ u.val))) s = .next t ∧ t.events = s.events
          ∧ (t.slice k).cur.map (fun c => (c.ch, c.urgent)) = some (s.f (F.ADC_URG_CFG_ain u), some u.val))
    ∧ (s.MayWrite m → s.adc.phase = .working → s.f (F.ADC_URG_CFG_src u) = 0 → s.fb (F.ADC_URG_CFG_en u) = true →
        s.urgentWaits u = true →
        (∀ j < 4, (s.slice j).urgent ≠ [] → ∃ c, (s.slice j).cur = some c ∧ c.urgent.isSome = true) →
        ∃ t, exec (.urgentRequest m (BitVec.ofNat 4 (2 ^ u.val))) s = .next t ∧ t.adc = s.adc
          ∧ t.f (F.ADC_URG_CNT_lost u) = min 0xFFFF (s.f (F.ADC_URG_CNT_lost u) + 1)
          ∧ s.raised t = (if s.f (F.ADC_URG_CNT_lost u) = 0 then [.adcUrgLost] else []))

/-- R282 to R294. -/
def Obligations.SilosArmTriggerAndRelease : Prop :=
  ∀ (s : State) (m : Master) (k : Fin 4) (lost : BitVec 4),
    (s.MayWrite m → s.siloState k = 0 → s.armRefusal k = 0 → s.siloCap k < 2 ^ 24 → (s.fr.trigSrc = 0 ∨ s.fr.trigCyc ≠ s.cyc) →
      ∃ t, exec (.siloArm m k) s = .next t ∧ t.siloState k = 1 ∧ t.f (F.REC_SILO_IDX_idx k) = 0
        ∧ t.f (F.REC_SILO_CAP_capacity k) = s.siloCap k ∧ (t.silo k).armedCyc = s.cyc ∧ (t.silo k).written = 0
        ∧ (s.f (F.REC_SILO_PRE_pre k) + s.f (F.REC_SILO_POST_post k) ≤ s.siloCap k → 0 < s.f (F.REC_SILO_POST_post k) → t.events = s.events))
    ∧ (s.MayWrite m → s.siloState k = 0 → grnSize < s.siloBase k + s.siloBytes k →
      ∃ t, exec (.siloArm m k) s = .next t ∧ t.siloState k = 0 ∧ t.f (F.REC_SILO_STAT_err_code k) = 1 ∧ s.raised t = [.recArmRefused])
    ∧ (s.MayWrite m → s.siloState k ≠ 0 → ∃ t, exec (.siloArm m k) s = .next t ∧ t.siloState k = s.siloState k ∧ t.fr = s.fr ∧ t.events = s.events)
    ∧ (s.MayWrite m → (s.silo k).trigCyc ≠ s.cyc → ∃ t, exec (.siloDisarm m k) s = .next t
        ∧ t.siloState k = (if s.siloState k = 1 then 0 else s.siloState k) ∧ t.events = s.events)
    ∧ (s.MayWrite m → (s.silo k).trigCyc = s.cyc → (s.siloState k = 2 ∨ s.siloState k = 3) →
        ∃ t, exec (.siloDisarm m k) s = .next t ∧ t.siloState k = 0
          ∧ ∀ a e b, s.events = a ++ e :: b → e.seq = (s.silo k).trigSeq → (∀ x ∈ a, x.seq ≠ (s.silo k).trigSeq) →
              t.events.map (fun x => (x.code, x.source, x.payload)) = (a ++ b).map (fun x => (x.code, x.source, x.payload)))
    ∧ (s.MayWrite m → s.siloState k = 1 → (s.silo k).leftCyc ≠ some s.cyc → bitOf (s.f (F.REC_SILO_TRIG_trig_mask k)) 15 = true →
      ∃ t, exec (.swTrig m k) s = .next t ∧ (t.siloState k = 2 ∨ t.siloState k = 3) ∧ .recTrig ∈ s.raised t ∧ (t.silo k).trigTime = s.stampNs)
    ∧ (s.MayWrite m → bitOf (s.f (F.REC_SILO_TRIG_trig_mask k)) 15 = false →
      ∃ t, exec (.swTrig m k) s = .next t ∧ t.siloState k = s.siloState k ∧ t.events = s.events)
    ∧ (s.MayWrite m → s.siloState k = 4 → s.fb (F.REC_SILO_CTL_auto_rearm k) = false →
      ∃ t, exec (.siloRelease m k) s = .next t ∧ t.siloState k = 0 ∧ t.events = s.events)
    ∧ (s.MayWrite m → s.siloState k ≠ 4 → ∃ t, exec (.siloRelease m k) s = .next t ∧ t.siloState k = s.siloState k ∧ t.events = s.events)
    ∧ (s.mode.fromConfigure = true → s.seq.running = true → s.seq.started = true → s.siloState k = 1 → s.cellDue k = true →
        s.f (F.REC_SILO_CAP_capacity k) < 2 ^ 24 →
      ∃ t, exec (.cellEntryWrite lost) s = .next t ∧ (t.silo k).written = (s.silo k).written + 1
        ∧ t.f (F.REC_SILO_IDX_idx k) = (s.f (F.REC_SILO_IDX_idx k) + 1) % max 1 (s.f (F.REC_SILO_CAP_capacity k))
        ∧ (lost.getLsbD k = true → t.f (F.REC_SILO_STAT_drop k) = min 0xFFFF (s.f (F.REC_SILO_STAT_drop k) + 1)))
    ∧ (s.seq.running = false → exec (.cellEntryWrite lost) s = .next s)
    ∧ (s.mode.fromConfigure = true → s.siloKind k = 1 → s.siloState k = 1 →
      ∃ t, exec (.waveTick k false) s = .next t ∧ (t.silo k).written = (s.silo k).written + 1 ∧ t.now = (s.advanceTo (s.nextWave k)).now ∧ t.events = s.events
        ∧ t.f (F.REC_SILO_IDX_idx k) = (s.f (F.REC_SILO_IDX_idx k) + 1) % max 1 (s.f (F.REC_SILO_CAP_capacity k))
        ∧ (∀ i < 8, s.fb (F.REC_CH_en i) = false → s.siloBase k + 256 + s.f (F.REC_SILO_IDX_idx k) * 32 + 32 ≤ grnSize →
            t.grnNat (s.siloBase k + 256 + s.f (F.REC_SILO_IDX_idx k) * 32 + 4 * i) 4 = 2 ^ 19))
    ∧ (s.siloKind k ≠ 1 → exec (.waveTick k false) s = .next s)
    ∧ (s.siloState k = 3 → s.siloBase k + 256 ≤ grnSize →
      ∃ t, exec (.recordDone k) s = .next t ∧ t.siloState k = 4 ∧ s.raised t = [.recDone] ∧ t.grnNat (s.siloBase k) 4 = 0x31434552
        ∧ t.grnRead (s.siloBase k) 252 = s.headerBody k ∧ t.grnRead (s.siloBase k + 252) 4 = leBytes 4 (crc32c (s.headerBody k)))
    ∧ (s.siloState k ≠ 3 → exec (.recordDone k) s = .next s)

/-- R298 to R306. -/
def Obligations.TriggerInputsAndBus : Prop :=
  ∀ (s : State) (i k : Fin 4) (b : Bool) (slot : Fin 8) (msg : BitVec 16) (rt line p x y z : Nat),
    (s.fb (F.REC_TRIGIN_en i) = true → s.fb (F.REC_TRIGIN_pol i) ≠ b → s.mode.fromConfigure = true → s.fb (F.REC_TRIGIN_STAT_rearming i) = false →
      s.Settled → s.Quiet → (s.silo k).leftCyc ≠ some s.cyc →
      ∃ t, exec (.trigInEdge i b) s = .next t ∧ t.fb (F.REC_TRIGIN_STAT_rearming i) = true ∧ t.fb (F.REC_TRIGIN_STAT_pin i) = b ∧ t.fr.trigInAt.getD i 0 = (if i.val < s.fr.trigInAt.length then s.cyc else 0)
        ∧ (s.siloState k = 1 → bitOf (s.f (F.REC_SILO_TRIG_trig_mask k)) i = true →
            (t.siloState k = 2 ∨ t.siloState k = 3) ∧ .recTrig ∈ s.raised t)
        ∧ (bitOf (s.f (F.REC_SILO_TRIG_trig_mask k)) i = false → t.siloState k = s.siloState k))
    ∧ (s.fb (F.REC_TRIGIN_en i) = true → s.fb (F.REC_TRIGIN_pol i) ≠ b → s.mode.fromConfigure = true → s.fb (F.REC_TRIGIN_STAT_rearming i) = true →
      s.cyc < s.rearmEnd i → ∃ t, exec (.trigInEdge i b) s = .next t ∧ t.f (F.REC_TRIGIN_STAT_ignored i) = min 0xFFFF (s.f (F.REC_TRIGIN_STAT_ignored i) + 1)
        ∧ t.events = s.events ∧ t.fr = s.fr)
    ∧ (s.fb (F.REC_TRIGIN_en i) = false ∨ s.fb (F.REC_TRIGIN_pol i) = b →
        exec (.trigInEdge i b) s = .next (s.setF (F.REC_TRIGIN_STAT_pin i) (b2n b)))
    ∧ (s.fb (F.REC_TRIGIN_STAT_rearming i) = true → ∃ t, exec (.trigInRearm i) s = .next t
        ∧ t.fb (F.REC_TRIGIN_STAT_rearming i) = false ∧ t.cyc = max s.cyc (s.rearmEnd i) ∧ t.events = s.events)
    ∧ (s.fb (F.REC_TRIGIN_STAT_rearming i) = false → exec (.trigInRearm i) s = .next s)
    ∧ (s.fb F.REC_TB_CFG_tb_en = true → s.fb F.REC_TB_CFG_tb_master = false → s.fb F.REC_TB_STAT_tb_up = true → line < 8 →
        s.f F.REC_TB_STAT_pending = 2 ^ line →
      ∃ t, exec .tbSlotSend s = .next t ∧ (s.fr.bus.slotAt ≠ 0 → t.cyc = max s.cyc (s.fr.bus.slotAt + tbFrame))
        ∧ t.f F.REC_TB_STAT_pending = 0 ∧ t.f F.REC_TB_CNT_tx_trig = min 0xFFFF (s.f F.REC_TB_CNT_tx_trig + 1)
        ∧ ∃ w, t.fr.bus.sent = some w ∧ bitsOf w 2 1 = 1 ∧ bitsOf w 5 3 = line ∧ tbParity w = true)
    ∧ (s.fb F.REC_TB_CFG_tb_en = true → s.fb F.REC_TB_CFG_tb_master = false → s.f F.REC_TB_STAT_pending = 0 → 0 < s.fr.bus.reqs →
      ∃ t, exec .tbSlotSend s = .next t ∧ t.fr.bus.reqs = s.fr.bus.reqs - 1 ∧ t.fr.bus.sent.map (fun w => bitsOf w 2 1) = some 2)
    ∧ (s.fb F.REC_TB_CFG_tb_en = true → s.fb F.REC_TB_CFG_tb_master = true → s.f F.REC_TB_STAT_pending = 0 → s.fr.bus.toReply = [] →
      ∃ t, exec .tbSlotSend s = .next t ∧ t.fb F.REC_TB_STAT_tb_up = true ∧ t.fr.bus.sent.map (fun w => bitsOf w 2 1) = some 0)
    ∧ (s.fb F.REC_TB_CFG_tb_en = true → slot.val ≠ s.tbId → tbValid slot msg.toNat = false →
      ∃ t, exec (.tbMessageReceived slot msg rt) s = .next t ∧ t.f F.REC_TB_CNT_rx_bad = min 0xFFFF (s.f F.REC_TB_CNT_rx_bad + 1))
    ∧ (s.fb F.REC_TB_CFG_tb_en = true → slot.val ≠ s.tbId → tbValid slot msg.toNat = true → bitsOf msg.toNat 2 1 = 1 →
        (s.fb F.REC_TB_STAT_tb_up = true → s.Settled → (s.silo k).leftCyc ≠ some s.cyc → s.siloState k = 1 → bitOf (s.f (F.REC_SILO_TRIG_trig_mask k)) (4 + bitsOf msg.toNat 5 3) = true →
          ∃ t, exec (.tbMessageReceived slot msg rt) s = .next t ∧ (t.siloState k = 2 ∨ t.siloState k = 3) ∧ .recTrig ∈ s.raised t)
        ∧ (s.fb F.REC_TB_STAT_tb_up = false →
          ∃ t, exec (.tbMessageReceived slot msg rt) s = .next t ∧ t.siloState k = s.siloState k ∧ t.events = s.events))
    ∧ (s.fb F.REC_TB_CFG_tb_en = true → s.fb F.REC_TB_CFG_tb_master = false → s.fb F.REC_TB_STAT_tb_up = false → s.tbId ≠ 0 →
        tbValid 0 msg.toNat = true → bitsOf msg.toNat 2 1 = 3 → bitsOf msg.toNat 5 3 = s.tbId → bitsOf msg.toNat 13 6 = p →
        s.fr.bus.replies = [x, y, z] → x ≤ 63 → y ≤ 63 → z ≤ 63 → p ≤ 63 →
      ∃ t, exec (.tbMessageReceived 0 msg rt) s = .next t ∧ t.fb F.REC_TB_STAT_tb_up = true ∧ .tbUp ∈ s.raised t
        ∧ t.f F.REC_TB_STAT_tb_delay = (x + y + z + p + 4) / 8)
    ∧ (s.fr.bus.waiting = true → ∃ t, exec .tbRelink s = .next t ∧ t.fr.bus.waiting = false ∧ s.SameRegs t
        ∧ t.cyc = max s.cyc (s.fr.bus.waitAt + 100 * cycPerMs))
    ∧ (s.fr.bus.waiting = false → exec .tbRelink s = .next s)
    ∧ (s.fb F.REC_TB_CFG_tb_en = true → s.fb F.REC_TB_CFG_tb_master = false → s.fb F.REC_TB_STAT_tb_up = true →
      ∃ t, exec .tbClkLoss s = .next t ∧ t.fb F.REC_TB_STAT_tb_up = false ∧ t.fb F.REC_TB_STAT_tb_down = true
        ∧ t.f F.REC_TB_STAT_pending = 0 ∧ s.raised t = [.tbDown])
    ∧ (s.fb F.REC_TB_CFG_tb_en = false → exec .tbClkLoss s = .next s)

/-- R314 to R322. -/
def Obligations.SafetyInputsAndTests : Prop :=
  ∀ (s : State) (ch : Fin 8) (pair : Fin 4) (dur : Nat) (pins : BitVec 8) (c : Fin 16),
    (s.awake = true → s.Settled → s.FreshCycle → s.fb (F.SAF_IN_CFG_en (ch.val % 4)) = true → bitOf s.saf.window ch = false →
        bitOf (s.f F.SAF_LATCH_in_latch) ch = false → 20 ≤ dur →
        ∃ t, exec (.safetyInputAssert ch dur pins) s = .next t ∧ bitOf (t.f F.SAF_LATCH_in_latch) ch = true ∧ .safeTrip ∈ s.raised t
          ∧ t.f F.SAF_STAT_in_now = pins.toNat
          ∧ (s.mode.controls = true ∨ s.mode = .diagnostic → t.mode = .safeBlock ∧ t.f F.GLB_MODE_LOG_cause = 7 ∧ t.saf.lockout = true
              ∧ t.origin = s.mode ∧ (t.pwmCh c).driving = false)
          ∧ (s.mode = .muster → t.mode = .muster))
    ∧ (s.awake = true → dur < 5 ∨ s.fb (F.SAF_IN_CFG_en (ch.val % 4)) = false ∨ bitOf s.saf.window ch = true →
        ∃ t, exec (.safetyInputAssert ch dur pins) s = .next t ∧ t.f F.SAF_STAT_in_now = pins.toNat
          ∧ t = { s with regs := t.regs, saf := { s.saf with discFrom := t.saf.discFrom } }
          ∧ ∀ off, off ≠ R.SAF_STAT → t.rd off = s.rd off)
    ∧ (s.awake = true → s.Settled → s.FreshCycle → s.fb (F.SAF_IN_CFG_en (ch.val % 4)) = true → bitOf s.saf.window ch = false →
        bitOf (s.f F.SAF_LATCH_in_latch) ch = false → 5 ≤ dur → dur < 20 →
        ∃ t, exec (.safetyInputAssert ch dur pins) s = .next t
          ∧ ((bitOf (t.f F.SAF_LATCH_in_latch) ch = true ∧ .safeTrip ∈ s.raised t) ∨ (t.mode = s.mode ∧ t.events = s.events
            ∧ t.f F.SAF_LATCH_in_latch = s.f F.SAF_LATCH_in_latch)))
    ∧ (∀ a, s.awake = true → s.fb (F.SAF_IN_CFG_en pair) = true → pins.getLsbD pair ≠ pins.getLsbD (pair.val + 4) →
        s.saf.window = 0 → s.saf.discFrom.getD pair none = some a →
        ∃ t, exec (.safeDiscrep pair pins) s = .next t ∧ t.cyc = max s.cyc (a + 2 * cycPerMs + 1) ∧ bitOf (t.f F.SAF_LATCH_disc) pair = true ∧ s.raised t = [.safeDiscrep]
          ∧ t.fb F.SAF_FAULT_HIST_disc = true ∧ t.mode = s.mode)
    ∧ (s.awake = true → s.saf.window = 0 → pins.getLsbD pair = pins.getLsbD (pair.val + 4) →
        ∃ t, exec (.safeDiscrep pair pins) s = .next t ∧ t.saf.discFrom.getD pair none = none ∧ t.events = s.events ∧ t.cyc = s.cyc
          ∧ t.f F.SAF_LATCH_disc = s.f F.SAF_LATCH_disc)
    ∧ (s.awake = true → s.saf.window = 0 → pins.getLsbD pair ≠ pins.getLsbD (pair.val + 4) → s.saf.discFrom.getD pair none = none →
        s.fb (F.SAF_IN_CFG_en pair) = true → bitOf (s.f F.SAF_LATCH_disc) pair = false → ∃ t, exec (.safetyInputAssert ch 0 pins) s = .next t
          ∧ t.saf.discFrom.getD pair none = some s.cyc ∧ t.events = s.events)
    ∧ (s.awake = true → s.mode.fromConfigure = true → s.f F.SAF_TEST_CFG_tp_interval ≠ 0 → s.saf.tpPhase = 0 →
        ∃ t, exec .testPulseStart s = .next t ∧ t.saf.tpB = !s.saf.tpB ∧ t.cyc = max s.cyc s.tpDue ∧ t.events = s.events
          ∧ t.saf.tpPhase = 1 ∧ t.saf.tpStart = t.cyc ∧ (if s.saf.tpB = true then t.saf.tpLevelB = false else t.saf.tpLevelA = false)
          ∧ (bitOf t.saf.window ch = true ↔ decide (4 ≤ ch.val) = s.saf.tpB ∧ s.fb (F.SAF_IN_CFG_en (ch.val % 4)) = true
              ∧ s.fb (F.SAF_IN_CFG_test_en (ch.val % 4)) = true))
    ∧ (s.f F.SAF_TEST_CFG_tp_interval = 0 → exec .testPulseStart s = .next s)
    ∧ (s.awake = true → s.saf.tpPhase = 1 → ∃ t, exec (.testPulseEnd pins) s = .next t ∧ t.cyc = max s.cyc (s.saf.tpStart + s.tpCycles)
        ∧ t.saf.tpPhase = 2 ∧ t.saf.tpLevelA = true ∧ t.saf.tpLevelB = true ∧ t.saf.windowSeen = (s.saf.window &&& pins.toNat)
        ∧ t.f F.SAF_STAT_in_now = pins.toNat ∧ t.events = s.events)
    ∧ (s.awake = true → s.Settled → s.saf.tpPhase = 2 → s.saf.window = 2 ^ ch.val → pins.getLsbD ch = false →
        (s.saf.windowSeen = 2 ^ ch.val → ∃ t, exec (.testRecoveryEnd pins) s = .next t ∧ bitOf (t.f F.SAF_TEST_STAT_test_fail) ch = false
          ∧ t.saf.window = 0 ∧ t.cyc = max s.cyc (s.saf.tpStart + 2 * s.tpCycles) ∧ t.events = s.events ∧ t.mode = s.mode)
        ∧ (s.saf.windowSeen = 0 → s.fb F.SAF_TEST_CFG_test_fail_trip = false →
          ∃ t, exec (.testRecoveryEnd pins) s = .next t ∧ bitOf (t.f F.SAF_TEST_STAT_test_fail) ch = true ∧ t.saf.window = 0
            ∧ s.raised t = [.safeTestFail] ∧ t.mode = s.mode))

/-- R326 to R329; R316, R333 and R334. -/
def Obligations.EdgeResetLatchesAndHistory : Prop :=
  (
    ∀ (s : State) (f r : Nat) (pins : BitVec 8) (b : Bool) (ch : Fin 8), s.awake = true → s.Alone →
      (s.saf.press = none → ∃ t, exec .resetPinFall s = .next t ∧ t.saf.press = some s.cyc ∧ t.saf.rise = none
          ∧ t.fb F.SAF_RESET_STAT_pressed = true ∧ t.events = s.events)
      ∧ (s.saf.press = some f → s.cyc < f + pressMax → (∀ x, s.saf.rise = some x → s.cyc < x + releaseWait) → ∃ t, exec .resetPinFall s = .next t ∧ t.saf.press = some f ∧ t.saf.rise = none
          ∧ t.events = s.events)
      ∧ (s.saf.press = some f → ∃ t, exec .resetPinRise s = .next t ∧ t.saf.press = some f ∧ t.saf.rise = some s.cyc
          ∧ t.fb F.SAF_RESET_STAT_pressed = false ∧ t.events = s.events)
      ∧ (s.saf.press = some f → s.saf.rise = some r → s.fb F.SAF_RESET_STAT_stuck = false → pressMin ≤ r - f → r - f ≤ pressMax →
          (pins = 0 → s.f F.SAF_TEST_STAT_test_fail = 0 → s.tmActive = false → s.fb F.SAF_STAT_arm_low = false →
            s.fb F.SAF_STAT_ret_err = false →
            (s.mode = .safeBlock → (s.advanceCyc (r + releaseWait)).FreshCycle →
              (∀ tc < 192, s.tcState tc = tcDormant ∨ s.tcState tc = tcDisabled) → s.saf.confirmed = some (s.rd R.SAF_CHECK) →
              ∃ t, exec (.resetRelease pins false) s = .next t ∧ t.f F.SAF_LATCH_in_latch = 0 ∧ t.saf.press = none
                ∧ t.f F.SAF_RESET_STAT_accepted_cnt = min 255 (s.f F.SAF_RESET_STAT_accepted_cnt + 1)
                ∧ t.f F.GLB_MODE_LOG_cause = 0x0F ∧ t.cyc = max s.cyc (r + releaseWait)
                ∧ (s.ctl.fatal = true → t.mode = .boot)
                ∧ (s.ctl.fatal = false → s.origin = .diagnostic → t.mode = .configure ∧ t.saf.lockout = false)
                ∧ (s.ctl.fatal = false → s.origin ≠ .diagnostic → t.mode = .ready ∧ t.saf.lockout = false))
            ∧ (s.mode = .muster → (s.advanceCyc (r + releaseWait)).FreshCycle → ∃ t, exec (.resetRelease pins false) s = .next t ∧ t.f F.SAF_LATCH_in_latch = 0 ∧ t.mode = .muster
                ∧ t.events = s.events))
          ∧ (s.mode.controls = true → ∃ t, exec (.resetRelease pins b) s = .next t ∧ s.raised t = [.resetRefused] ∧ t.mode = s.mode
              ∧ t.f F.SAF_RESET_STAT_reason = 1 ∧ t.saf.press = none)
          ∧ (s.mode = .safeBlock → pins.getLsbD ch = true → s.fb (F.SAF_IN_CFG_en (ch.val % 4)) = true →
              ∃ t, exec (.resetRelease pins b) s = .next t ∧ s.raised t = [.resetRefused] ∧ t.mode = .safeBlock
                ∧ t.f F.SAF_RESET_STAT_reason = 2 ∧ t.saf.lockout = s.saf.lockout))
      ∧ (s.saf.press = some f → s.saf.rise = some r → r - f < pressMin →
          ∃ t, exec (.resetRelease pins b) s = .next t ∧ t.mode = s.mode ∧ t.events = s.events ∧ t.saf.press = none)
      ∧ (s.saf.press = none → exec (.resetRelease pins b) s = .next s)
      ∧ (s.saf.press = some f → s.saf.rise = none → s.fb F.SAF_RESET_STAT_stuck = false →
          ∃ t, exec .resetStuck s = .next t ∧ t.fb F.SAF_RESET_STAT_stuck = true ∧ s.raised t = [.resetStuck] ∧ t.cyc = max s.cyc (f + pressMax)
            ∧ t.mode = s.mode)
      ∧ (s.saf.press = none → exec .resetStuck s = .next s)) ∧ (
    ∀ (s : State) (m : Master) (mask pins : BitVec 8) (v : W32) (j : Nat) (bs : List Byte), s.justAt ≠ s.cyc →
      (s.MayWrite m → ∃ t, exec (.safeLatchClear m mask pins) s = .next t ∧ t.mode = s.mode ∧ t.events = s.events
          ∧ (j < 8 → (s.mode = .boot ∨ s.mode = .configure ∨ s.mode = .commission ∨ s.mode = .muster) →
              bitOf (t.f F.SAF_LATCH_in_latch) j = (bitOf (s.f F.SAF_LATCH_in_latch) j && !(mask.getLsbD j && !pins.getLsbD j)))
          ∧ ((s.mode.controls = true ∨ s.mode = .safeBlock ∨ s.mode = .diagnostic) →
              t.f F.SAF_LATCH_in_latch = s.f F.SAF_LATCH_in_latch))
      ∧ (s.MayWrite m → ∃ t, exec (.faultHistClear m v) s = .next t ∧ t.events = s.events
          ∧ (j < 11 → bitOf (t.rd R.SAF_FAULT_HIST) j = (bitOf (s.rd R.SAF_FAULT_HIST) j && !v.getLsbD j))
          ∧ (11 ≤ j → bitOf (t.rd R.SAF_FAULT_HIST) j = bitOf (s.rd R.SAF_FAULT_HIST) j)
          ∧ (t.rd R.SAF_FAULT_HIST ≠ s.rd R.SAF_FAULT_HIST → t.saf.retDirty = true))
      ∧ (s.MayWrite m → ∃ t, exec (.tripCountClear m) s = .next t ∧ t.f F.SAF_FAULT_HIST_trip_count = 0
          ∧ (j < 11 → bitOf (t.rd R.SAF_FAULT_HIST) j = bitOf (s.rd R.SAF_FAULT_HIST) j) ∧ t.events = s.events)
      ∧ (s.saf.retDirty = true → exec .retentionWrite s = .next { s with saf := { s.saf with retBytes := s.retImage, retDirty := false } })
      ∧ (s.saf.retDirty = false → exec .retentionWrite s = .next s)
      ∧ (s.awake = true → ∃ t, exec (.retentionReadback bs) s = .next t ∧ t.saf = { s.saf with retBytes := bs, readAt := t.cyc }
          ∧ t.cyc = max s.cyc (s.saf.readAt + cycPerMs)
          ∧ (retOk bs = false → s.fb F.SAF_STAT_ret_err = false → t.fb F.SAF_STAT_ret_err = true ∧ s.raised t = [.retErr])
          ∧ (retOk bs = true → t.events = s.events ∧ s.SameRegs t)))

/-- R341 to R344, R362 and R364. -/
def Obligations.InterlockAndToken : Prop :=
  ∀ (s : State) (r : Fin 3) (m : Master),
    (s.sense = r → exec (.ilkInChange r) s = .next s)
    ∧ (s.sense ≠ r → s.paired = true → s.sense = 2 → r.val = 1 → s.mode = .shadow → s.fb F.RED_STAT_in_step = true → s.frozen = false →
        s.drive ≠ 2 → ∃ t, exec (.ilkInChange r) s = .next t ∧ t.sense = 1 ∧ t.drive = 2 ∧ t.fb F.RED_FLAGS_takeover = true
          ∧ t.rd R.RED_TF = 0 ∧ s.raised t = [.takeover])
    ∧ (s.sense ≠ r → s.paired = true → r.val = 2 → s.drive = 2 →
        ∃ t, exec (.ilkInChange r) s = .next t ∧ t.sense = 2 ∧ t.fb F.RED_FLAGS_ilk_clash = true
          ∧ (s.side ≠ s.f F.RED_CFG_first_side ∨ s.pair.partnerSide = some s.side → t.drive = 1 ∧ s.raised t = [.ilkClash])
          ∧ (s.side = s.f F.RED_CFG_first_side → s.pair.partnerSide ≠ some s.side → t.drive = 2 ∧ s.raised t = []))
    ∧ (s.sense ≠ r → s.paired = false ∨ (s.mode ≠ .shadow ∧ s.drive ≠ 2) →
        ∃ t, exec (.ilkInChange r) s = .next t ∧ t.sense = r ∧ t.drive = s.drive ∧ s.raised t = [] ∧ t.mode = s.mode)
    ∧ (s.paired = true → s.mode = .muster ∨ s.mode = .precharge ∨ s.mode = .ready → s.frozen = false → s.sense ≠ 2 → s.drive ≠ 2 →
        ∃ t, exec .absentClaim s = .next t ∧ t.drive = 2 ∧ t.rd R.RED_TF = 0 ∧ s.raised t = [] ∧ t.mode = s.mode
          ∧ t.cyc = max s.cyc (s.pair.statusCyc.getD s.pwr.upCyc + s.f F.RED_CFG_absent_wait * (10 * cycPerMs)))
    ∧ (s.paired = false ∨ s.frozen = true ∨ s.sense = 2 ∨ s.drive = 2 ∨ ¬ (s.mode = .muster ∨ s.mode = .precharge ∨ s.mode = .ready) →
        exec .absentClaim s = .next s)
    ∧ (∀ a b, s.pair.openAt = some a → s.lostSecond = some b → s.paired = true → s.mode = .shadow → s.fb F.RED_STAT_eligible = true →
        s.frozen = false → s.pair.stepBefore = true → s.sense = 0 → s.drive ≠ 2 →
        ∃ t, exec .lostClaim s = .next t ∧ t.drive = 2 ∧ t.fb F.RED_FLAGS_takeover = true ∧ t.rd R.RED_TF = 0 ∧ s.raised t = [.takeover]
          ∧ t.cyc = max s.cyc (max a b + 2 * cycPerUs))
    ∧ (s.pair.openAt = none ∨ s.lostSecond = none ∨ s.paired = false ∨ s.mode ≠ .shadow ∨ s.fb F.RED_STAT_eligible = false
        ∨ s.frozen = true ∨ s.pair.stepBefore = false ∨ s.sense ≠ 0 ∨ s.drive = 2 → exec .lostClaim s = .next s)
    ∧ (∀ a, s.pair.openAt = some a → s.paired = true → s.sense = 0 → s.bonded = true → s.pair.openBonded = true →
        s.pair.blockLast.any (fun b => decide (a ≤ b)) = false → s.frozen = false →
        ∃ t, exec .ilkOpen s = .next t ∧ t.frozen = true ∧ t.fb F.RED_FLAGS_ilk_open = true ∧ s.raised t = [.ilkOpen] ∧ t.drive = s.drive
          ∧ t.cyc = max s.cyc (a + 2 * cycPerUs))
    ∧ (s.pair.openAt = none ∨ s.paired = false ∨ s.sense ≠ 0 ∨ s.bonded = false ∨ s.pair.openBonded = false ∨ s.frozen = true →
        exec .ilkOpen s = .next s)
    ∧ (∀ a b, s.pair.openAt = some a → s.pair.blockLast = some b → a ≤ b → exec .ilkOpen s = .next s)
    ∧ (s.sense ≠ 0 → s.frozen = true → ∃ t, exec .frozenClear s = .next t ∧ t.frozen = false ∧ t.sense = s.sense ∧ t.drive = s.drive
        ∧ t.cyc = max s.cyc (s.pair.closedAt + cycPerMs) ∧ t.events = s.events
        ∧ ∀ off, off ≠ R.RED_STAT → off ≠ R.TIM_STAT → t.rd off = s.rd off)
    ∧ (s.sense = 0 ∨ s.frozen = false → exec .frozenClear s = .next s)
    ∧ (s.MayWrite m →
        (s.holder = true → exec (.handover m) s = .next { s with pair := { s.pair with handover := true } })
        ∧ (s.holder = false → exec (.handover m) s = .next s)
        ∧ (s.paired = true → s.holder = false → ∃ t, exec (.rejoin m) s = .next t ∧ t.fb F.RED_STAT_join_done = false
            ∧ t = { s with regs := t.regs, pair := { s.pair with joinOpen := true, adopted := [], joinData := none } })
        ∧ (s.paired = false ∨ s.holder = true → exec (.rejoin m) s = .next s))

/-- R345 to R353, R356 to R359 and R362. -/
def Obligations.MirrorFramesAndInputs : Prop :=
  ∀ (s : State) (f : MirFrame) (x : MirRx) (at_ : Nat) (m : Master) (g : Fin 16),
    (s.rxLooped 48 = false → s.rxLooped 49 = false → let d := distribute s.pair.rxTurn f.asBlocks;
      (s.fb F.LPHY_MIR_STAT_swapped = false → (s.takeMirror { mir0 := d.1, mir1 := d.2 }).1 = some f)
      ∧ (s.fb F.LPHY_MIR_STAT_swapped = true → (s.takeMirror { mir0 := d.2, mir1 := d.1 }).1 = some f)
      ∧ (∀ k ≤ f.asBlocks.length, s.fb F.LPHY_MIR_STAT_swapped = false →
          let a := distribute s.pair.rxBefore (f.asBlocks.take k)
          let b := distribute false (f.asBlocks.drop k)
          (s.takeMirror { mir0 := a.1 ++ b.1, mir1 := a.2 ++ b.2, pair := some (a.1.length, a.2.length) }).1 = some f))
    ∧ (s.paired = true → s.seq.running = true → s.pair.txTurn = false → s.pair.ownTx.any (fun x => x.1 == s.periodFull) = false →
        s.laneCoded 48 = true → s.laneCoded 49 = true →
      ∃ t tag bs tx, exec .statusFrameLaunch s = .next t ∧ t.pair.sent.getLast? = some (4, tag, bs) ∧ tag = t.mirTag 4 6 ∧ bs.length = 6
        ∧ bitsOf (word bs 0) 31 0 = t.periodNum ∧ bitsOf (word bs 0) 35 32 = modeCode s.mode ∧ bitsOf (word bs 0) 36 36 = b2n s.holder
        ∧ word bs 1 = s.plan.digest ∧ word bs 2 = timeWord (tx / 256)
        ∧ (∀ r, s.pair.partnerRx.find? (fun x => x.1 + 1 == t.periodFull) = some r → r.2 ≠ 0 → word bs 3 = timeWord (r.2 / 256))
        ∧ t.pair.ownTx.head? = some (t.periodFull, tx)
        ∧ t.pair.ownTx.tail = s.pair.ownTx.take 1
        ∧ t.now.ns ≤ tx / 256 ∧ (t.now.frac < 2 ^ 32 → tx / 256 ≤ t.now.ns + 7)
        ∧ (let u := s.advanceTo (s.pN + s.f F.GLB_ORDER_OFFSET_order_offset_steps * 5); t.now = (u.advanceCyc (u.mirrorFree 4)).now)
        ∧ t.events = s.events ∧ t.mode = s.mode)
    ∧ (s.paired = false ∨ s.seq.running = false ∨ s.pair.txTurn = true ∨ s.pair.ownTx.any (fun x => x.1 == s.periodFull) = true →
        exec .statusFrameLaunch s = .next s)
    ∧ (s.paired = true → s.bonded = true → (s.takeMirror x).1 = some f → mirValid 4 f = true → f.blocks.length = 6 → s.following = false →
        s.drive = 2 → s.sense = 2 → bitsOf (fieldAt f.tag 1 1) 3 3 = s.side →
        ∃ t, exec (.statusFrame x at_) s = .next t ∧ t.drive = 1 ∧ .ilkClash ∈ s.raised t ∧ t.pair.partnerSide = some s.side)
    ∧ (s.paired = true → s.bonded = true → (s.takeMirror x).1 = some f → mirValid 4 f = true → f.blocks.length = 6 → s.following = false →
        s.drive ≠ 2 ∨ s.sense ≠ 2 →
      ∃ t, exec (.statusFrame x at_) s = .next t ∧ t.pair.statusSeen = true ∧ t.pair.statusCyc = some s.cyc
        ∧ t.pair.status = f.blocks.map BitVec.toNat ∧ t.f F.RED_STAT_partner_mode = bitsOf (word (f.blocks.map BitVec.toNat) 0) 35 32
        ∧ t.mode = s.mode ∧ t.drive = s.drive
        ∧ (bitsOf (fieldAt f.tag 1 1) 3 3 = s.side → t.fb F.RED_FLAGS_side_clash = true)
        ∧ (bitsOf (word (f.blocks.map BitVec.toNat) 0) 31 0 = s.periodNum → bitOf (word (f.blocks.map BitVec.toNat) 0) 40 = false →
            s.digestInvalid = false →
              (s.plan.digest = word (f.blocks.map BitVec.toNat) 1 → .digestMismatch ∉ s.raised t)
              ∧ (s.plan.digest ≠ word (f.blocks.map BitVec.toNat) 1 → .digestMismatch ∈ s.raised t ∧ t.f F.RED_STAT_match_run = 0
                  ∧ t.fb F.RED_FLAGS_mismatch = true ∧ (s.holder = false → t.fb F.RED_STAT_in_step = false))))
    ∧ (∀ t1 t2 t3, s.pair.partnerTx = some (s.periodFull - 1, t1) → s.pair.partnerRx.find? (fun x => x.1 + 1 == s.periodFull) = some (s.periodFull - 1, t2) →
        s.pair.ownTx.find? (fun x => x.1 + 1 == s.periodFull) = some (s.periodFull - 1, t3) → s.following = true → s.bonded = true → (s.takeMirror x).1 = some f →
        mirValid 4 f = true → f.blocks.length = 6 → s.drive ≠ 2 → 1 ≤ s.periodFull →
        let ws := f.blocks.map BitVec.toNat
        let t4 := instantOf (word ws 3) * 256 + bitsOf (word ws 4) 15 8
        let theta := ((t2 : Int) - t1) - ((t4 : Int) - t3) - s.asymTerm * 32
        bitsOf (word ws 0) 31 0 = s.periodNum → word ws 3 ≠ 0 → theta.natAbs < 2 ^ 36 →
        ∃ t, exec (.statusFrame x at_) s = .next t ∧ t.rd R.RED_TF = twos 32 (roundHalfAway theta 6)
          ∧ t.f F.RED_MIR_DELAY_d = twos 20 (roundHalfAway (((t2 : Int) - t1) + ((t4 : Int) - t3)) 6)
          ∧ t.pair.partnerRx.head? = some (s.periodFull, at_) ∧ t.mode = s.mode ∧ t.drive = s.drive
          ∧ (5 * 512 < theta.natAbs → t.fb F.RED_STAT_tf_locked = false
              ∧ (s.fb F.RED_STAT_tf_locked = true → .tfUnlock ∈ s.raised t ∧ t.fb F.RED_FLAGS_tf_unlock = true))
          ∧ (theta.natAbs ≤ 5 * 512 → .tfUnlock ∉ s.raised t ∧ (theta.natAbs ≤ 512 → 15 ≤ s.pair.tfRun → t.fb F.RED_STAT_tf_locked = true)))
    ∧ (s.paired = false ∨ s.bonded = false → exec (.statusFrame x at_) s = .next s)
    ∧ (s.paired = true → s.bonded = true → ((s.takeMirror x).1 = none ∨ ((s.takeMirror x).1 = some f ∧ (mirValid 4 f = false ∨ f.blocks.length ≠ 6))) →
        exec (.statusFrame x at_) s = .next (s.takeMirror x).2)
    ∧ (s.holder = true → s.seq.running = true → s.pair.input = none → s.pair.mirDone = false → s.laneCoded 48 = true → s.laneCoded 49 = true →
      let u := s.advanceTo (s.pN + 400)
      ∃ t c tag bs, exec .inputFrameLaunch s = .next t ∧ t.pair.input = some c ∧ c.period = u.periodFull
        ∧ c.items ++ t.pair.deferred = s.pair.deferred ++ s.pair.capLast ∧ t.pair.capLast = [] ∧ t.pair.capNow = s.pair.capNow
        ∧ t.now = (u.advanceCyc (u.mirrorFree ((bs.length + 3) / 2))).now ∧ t.pair.sent.getLast? = some (5, tag, bs) ∧ bs.take 17 = (t.periodNum + c.items.length * 2 ^ 32) :: c.snapshot
        ∧ t.events = s.events)
    ∧ (s.holder = false ∨ s.seq.running = false ∨ s.pair.input ≠ none ∨ s.pair.mirDone = true → exec .inputFrameLaunch s = .next s)
    ∧ (s.paired = true → s.holder = false → s.bonded = true → s.seq.running = true → s.pair.input = none → (s.takeMirror x).1 = some f →
        (mirValid 5 f = true → 17 ≤ f.blocks.length → fieldAt f.tag 2 2 = s.periodFull % 65536 → s.nowUnits ≤ s.mirrorPoint * 2 ^ 32 →
          s.pair.mirDone = false → ∃ t c, exec (.inputFrame x) s = .next t
            ∧ t = { s with pair := { s.pair with input := some c, rxTurn := t.pair.rxTurn } }
            ∧ c.period = s.periodFull ∧ c.snapshot = ((f.blocks.map BitVec.toNat).drop 1).take 16)
        ∧ (mirValid 5 f = false ∨ f.blocks.length < 17 ∨ fieldAt f.tag 2 2 ≠ s.periodFull % 65536 ∨ s.mirrorPoint * 2 ^ 32 < s.nowUnits
            ∨ s.pair.mirDone = true → ∃ t, exec (.inputFrame x) s = .next t ∧ t.pair.input = none ∧ t.pair.inputBad = true
              ∧ t.fb F.RED_FLAGS_mir_late = true ∧ s.raised t = [.mirLate] ∧ t.mode = s.mode))
    ∧ (∀ e i a k (it : MirItem) (c : MirInput), s.seq.running = true → s.seq.started = true → s.pair.mirDone = false →
        s.pair.input = some c → c.items = [it] → it.kind = 4 → it.payload = e → it.index = some i → e.length = 64 → fieldAt e 0 1 = 3 →
        fieldAt e 8 4 = a → fieldAt e 2 2 = k → k ≤ 48 → a + k ≤ grnSize → s.fb F.RED_MIR_BASE_en = false → s.hif.mboxGo = none →
        s.sched.limitHit = false → (∀ tc < 192, s.tcState tc = tcDisabled) →
        ∃ t, exec .mirrorPoint s = .next t ∧ t.pair.mirDone = true ∧ t.grnRead a k = (e.drop 16).take k ∧ t.now = (s.advanceTo s.mirrorPoint).now)
    ∧ (s.seq.running = true → s.seq.started = true → s.pair.mirDone = false → s.paired = true → s.holder = false → s.pair.input = none →
        ∃ t, exec .mirrorPoint s = .next t ∧ t.pair = { s.pair with mirDone := true } ∧ t.grn = s.grn ∧ t.events = s.events
          ∧ t.now = (s.advanceTo s.mirrorPoint).now)
    ∧ (s.seq.running = false ∨ s.seq.started = false ∨ s.pair.mirDone = true → exec .mirrorPoint s = .next s)
    ∧ (∀ want, want = bitsOf (word s.pair.status 0) 47 44 → s.holder = true → s.seq.running = true → s.pair.status ≠ [] → want < 12 →
        s.armEnabled want = true → s.laneCoded 48 = true → s.laneCoded 49 = true →
        let u := s.advanceTo (s.pN + s.f F.GLB_ORDER_OFFSET_order_offset_steps * 5 + 1500)
        let v := u.advanceCyc (u.mirrorFree (s.nInstalled want + 1))
        (v.nowUnits * 5 + (2 * s.nInstalled want + 2) * (16 * 2 ^ 32) < (s.pN + s.periodNs + 400) * (5 * 2 ^ 32) →
          ∃ t tag bs, exec .joinFrameLaunch s = .next t ∧ t.pair.sent.getLast? = some (6, tag, bs) ∧ bs.length = 2 * s.nInstalled want
            ∧ t.pair.joinSent = some want ∧ t.now = v.now ∧ t.events = s.events)
        ∧ ((s.pN + s.periodNs + 400) * (5 * 2 ^ 32) ≤ v.nowUnits * 5 + (2 * s.nInstalled want + 2) * (16 * 2 ^ 32) →
          exec .joinFrameLaunch s = .next s))
    ∧ (s.holder = false ∨ s.seq.running = false ∨ s.pair.status = [] ∨ 12 ≤ bitsOf (word s.pair.status 0) 47 44
        ∨ s.armEnabled (bitsOf (word s.pair.status 0) 47 44) = false →
        exec .joinFrameLaunch s = .next s)
    ∧ (s.paired = true → s.holder = false → s.bonded = true → (s.takeMirror x).1 = some f → mirValid 6 f = true → s.pair.wantSent < 12 →
        s.pair.joinOpen = true → f.blocks.length = 2 * s.nInstalled s.pair.wantSent →
        ∃ t rs, exec (.joinFrame x) s = .next t
          ∧ t = { s with pair := { s.pair with joinData := some (s.pair.wantSent, fieldAt f.tag 2 2, rs), rxTurn := t.pair.rxTurn } }
          ∧ rs.length = s.nInstalled s.pair.wantSent ∧ rs.flatten = f.blocks.flatMap (fun b => leBytes 8 b.toNat))
    ∧ (s.paired = true → s.holder = false → s.bonded = true → (s.takeMirror x).1 = some f → mirValid 6 f = false ∨ 12 ≤ s.pair.wantSent
        ∨ s.pair.joinOpen = false ∨ f.blocks.length ≠ 2 * s.nInstalled s.pair.wantSent → exec (.joinFrame x) s = .next (s.takeMirror x).2)
    ∧ (s.paired = false ∨ s.holder = true ∨ s.bonded = false → exec (.joinFrame x) s = .next s)
    ∧ (s.MayWrite m →
        (s.holder = true → 6 ≤ g.val → g.val ≤ 8 → s.seq.running = true →
          exec (.fwdRequest m g) s = .next { s with pair := { s.pair with capNow := s.pair.capNow ++ [s.item 5 1 (leBytes 4 g) none] } })
        ∧ (s.holder = true → 6 ≤ g.val → g.val ≤ 8 → s.seq.running = false → exec (.fwdRequest m g) s = .next s)
        ∧ (s.holder = false ∨ g.val < 6 ∨ 8 < g.val →
          ∃ t, exec (.fwdRequest m g) s = .next t ∧ s.RegsOnly t ∧ t.regs = s.regs ∧ s.raised t = [.fwdRefused]))

/-- R410 to R416 and R427 to R429. -/
def Obligations.TimebaseOffsetsAndSlews : Prop :=
  ∀ (s : State) (m : Master) (v : W32) (d u : Int) (ea : Fin 16), d = sx 32 (s.f F.TIM_OFS_NS_ofs_ns) * 256 + (v.toNat % 256 : Nat) →
    (∀ w, s.Runs → s.nowUnits < w → w ≤ (s.advanceToU w).nowUnits
        ∧ ∀ j, s.cyc + j < (s.advanceToU w).cyc → (s.cycles j).nowUnits < w)
    ∧ (s.MayWrite m → s.tickDue = true →
        (∃ t r, exec (.offsetRequest m v) s = .next t ∧ t.tim.late = s.tim.late ++ [r] ∧ r.ofs = some (d, v.getLsbD 29)
          ∧ t.now = s.now ∧ t.events = s.events)
        ∧ (∃ t r, exec (.absoluteSet m) s = .next t ∧ t.tim.late = s.tim.late ++ [r] ∧ r.ofs = none ∧ t.now = s.now ∧ t.events = s.events))
    ∧ (s.MayWrite m → s.tickDue = false →
      ((s.mode.timEarly = false → s.mode.timMiddle = false → s.f F.TIM_STEP_THR_step_thr * 256 < d.natAbs →
          ∃ t, exec (.offsetRequest m v) s = .next t ∧ t.f F.TIM_STAT_refuse_reason = 1 ∧ t.fb F.TIM_STAT_step_refused = true
            ∧ s.raised t = [.stepRefused] ∧ t.now = s.now ∧ t.tim = { s.tim with ownAt := some s.cyc })
      ∧ (s.mode.timMiddle = true → s.f F.TIM_STEP_THR_step_thr * 256 < d.natAbs → v.getLsbD 29 = false → 4000000 * 256 < d.natAbs →
          ∃ t, exec (.offsetRequest m v) s = .next t ∧ t.f F.TIM_STAT_refuse_reason = 2 ∧ s.raised t = [.stepRefused] ∧ t.now = s.now
            ∧ t.tim = { s.tim with ownAt := some s.cyc })
      ∧ (s.following = true → d.natAbs ≤ s.f F.TIM_STEP_THR_step_thr * 256 →
          ∃ t, exec (.offsetRequest m v) s = .next t ∧ t.f F.TIM_STAT_refuse_reason = 4 ∧ s.raised t = [.stepRefused] ∧ t.now = s.now
            ∧ t.tim = { s.tim with ownAt := some s.cyc })
      ∧ (s.following = false → s.mode.timEarly = true ∨ (s.mode.timMiddle = true ∧ d.natAbs ≤ 4000000 * 256) →
          s.f F.TIM_STEP_THR_step_thr * 256 < d.natAbs → v.getLsbD 29 = false →
          (0 ≤ (s.nowUnits : Int) + d * 2 ^ 24 → ∃ t, exec (.offsetRequest m v) s = .next t
            ∧ (t.nowUnits : Int) = s.nowUnits + d * 2 ^ 24 ∧ t.now.frac < 2 ^ 32 ∧ t.tim.rem = 0 ∧ t.fb F.TIM_STAT_slewing = false
            ∧ t.fb F.TIM_STAT_stepped = true ∧ s.raised t = [] ∧ t.mode = s.mode
            ∧ (s.seq.running = true → t.seq.next = t.firstBoundary))
          ∧ ((s.nowUnits : Int) + d * 2 ^ 24 < 0 → ∃ t, exec (.offsetRequest m v) s = .next t ∧ t.f F.TIM_STAT_refuse_reason = 5
            ∧ s.raised t = [.stepRefused] ∧ t.now = s.now ∧ t.tim = { s.tim with ownAt := some s.cyc }))
      ∧ (s.following = false → d.natAbs ≤ s.f F.TIM_STEP_THR_step_thr * 256
            ∨ (v.getLsbD 29 = true ∧ (s.mode.timEarly = true ∨ s.mode.timMiddle = true)) →
          ∃ t, exec (.offsetRequest m v) s = .next t ∧ t.tim = { s.tim with rem := d * 2 ^ 24, ownAt := some s.cyc } ∧ (t.fb F.TIM_STAT_slewing = true ↔ d ≠ 0)
            ∧ t.now = s.now ∧ s.raised t = [])
      ∧ (s.mode.timEarly = true → s.following = false → ∃ t, exec (.absoluteSet m) s = .next t
          ∧ t.now = { ns := (s.f F.TIM_SET_SEC_LO_sec_lo + s.f F.TIM_SET_SEC_HI_sec_hi * 2 ^ 32) * 1000000000 + s.f F.TIM_SET_NS_ns, frac := 0 }
          ∧ t.tim.rem = 0 ∧ t.fb F.TIM_STAT_stepped = true ∧ s.raised t = [])
      ∧ (∀ r, (s.mode.timEarly = false ∧ r = 3) ∨ (s.mode.timEarly = true ∧ s.following = true ∧ r = 4) →
          ∃ t, exec (.absoluteSet m) s = .next t ∧ t.f F.TIM_STAT_refuse_reason = r ∧ s.raised t = [.stepRefused] ∧ t.now = s.now
            ∧ t.tim = { s.tim with ownAt := some s.cyc })))
    ∧ (s.live = true → s.fb F.TIM_STAT_slewing = true → s.tim.rem ≠ 0 → s.slewAdj.sign = s.tim.rem.sign →
        ∃ t, exec .slewEnd s = .next t ∧ t.tim = { s.tim with rem := 0 } ∧ t.fb F.TIM_STAT_slewing = false ∧ t.events = s.events
          ∧ t.now.frac < 2 ^ 32 ∧ t.cyc = s.cyc + ceilDiv s.tim.rem.natAbs s.slewAdj.natAbs
          ∧ (u = (s.nowUnits : Int) + (ceilDiv s.tim.rem.natAbs s.slewAdj.natAbs * s.increment : Nat) + s.tim.rem → 0 ≤ u → (t.nowUnits : Int) = u))
    ∧ (s.live = false ∨ s.fb F.TIM_STAT_slewing = false ∨ s.tim.rem = 0 ∨ s.slewAdj.sign ≠ s.tim.rem.sign → exec .slewEnd s = .next s)
    ∧ (s.live = true → s.holder = true → ∃ t, exec .rampUpdate s = .next t ∧ t.cyc = max s.cyc (s.tim.rampAt + cycPerMs) ∧ t.tim.rampAt = t.cyc
        ∧ s.SameRegs t ∧ t.events = s.events
        ∧ (t.tim.rampS - s.tim.rampS).natAbs ≤ s.f F.TIM_SLEW_CFG_ramp ∧ (t.tim.rampQ - s.tim.rampQ).natAbs ≤ s.f F.TIM_SLEW_CFG_ramp
        ∧ ((rateUnits (sx 24 (s.f F.TIM_RATE_rate)) - s.tim.rampQ).natAbs ≤ s.f F.TIM_SLEW_CFG_ramp →
            t.tim.rampQ = rateUnits (sx 24 (s.f F.TIM_RATE_rate))))
    ∧ (s.live = false ∨ s.holder = false → exec .rampUpdate s = .next s)
    ∧ (s.tim.reqPend = none → exec .timRequestApply s = .next s)
    ∧ (∀ bs, s.tim.reqPend = some bs → s.following = true → exec .timRequestApply s = .next { s with tim := { s.tim with reqPend := none } })
    ∧ (∀ bs, s.tim.reqPend = some bs → s.following = false → s.tim.ownAt ≠ some s.cyc →
        (fieldAt bs 13 1 = 0 → exec .timRequestApply s = .next { s with tim := { s.tim with reqPend := none } })
        ∧ (fieldAt bs 13 1 = 1 → ∃ t, exec .timRequestApply s = .next t ∧ t.tim = { s.tim with reqPend := none } ∧ t.now = s.now
            ∧ sx 24 (t.f F.TIM_RATE_rate) = iclamp (sx 24 (fieldAt bs 4 4)) (-1374389) 1374389)
        ∧ (fieldAt bs 13 1 = 2 →
            (sx 32 (fieldAt bs 8 4) * 256 + (fieldAt bs 12 1 : Nat)).natAbs ≤ s.f F.TIM_STEP_THR_step_thr * 256 →
            ∃ t, exec .timRequestApply s = .next t ∧ t.now = s.now ∧ t.events = s.events ∧ t.rd R.TIM_RATE = s.rd R.TIM_RATE
              ∧ t.tim = { s.tim with reqPend := none, rem := (sx 32 (fieldAt bs 8 4) * 256 + (fieldAt bs 12 1 : Nat)) * 2 ^ 24 }))
    ∧ (s.up = true → s.tim.espHold = none → ∃ t, exec .espHold s = .next t
        ∧ t = { s with tim := { s.tim with espHold := some s.espDue }, pwr := { s.pwr with espLow := true } } ∧ t.espBank = s.espDue)
    ∧ (s.up = false ∨ s.tim.espHold ≠ none → exec .espHold s = .next { s with pwr := { s.pwr with espLow := true } })
    ∧ s.espD ea = (if s.up = true then s.espBank[ea.val]? else none)
    ∧ s.espLive[5]? = some (BitVec.ofNat 8 s.tim.espArms) ∧ s.espLive[6]? = some (BitVec.ofNat 8 (s.tim.espArms / 256))
    ∧ (∃ t, exec .espHoldRelease s = .next t ∧ t = { s with tim := { s.tim with espHold := none }, pwr := { s.pwr with espLow := false } }
        ∧ t.espBank = s.espDue
        ∧ s.espLive.length = 16 ∧ (s.live = true → s.espDue = s.espLive)
        ∧ (s.live = false → s.tim.espOld.length = 16 → s.espDue.length = 16 ∧ ∀ i < 16, s.espDue[i]? = (if i = 1 ∨ i = 2 ∨ i = 3 then s.espLive[i]? else s.tim.espOld[i]?)))

/-- R417 to R425. -/
def Obligations.EthernetFramesAndDescriptors : Prop :=
  ∀ (s : State) (m : Master) (p : Fin 2) (up b : Bool) (ab : BitVec 16) (f : List Byte) (at_ stamp addr : Nat),
    let u := s.frameEnd at_ f.length
    let w := s.advanceCyc ((s.eth p).pollAt + cycPerUs)
    stamp = ((stampAt at_ : Int) - sx 16 (s.f (F.TIM_ETH_LAT_rx_lat p)) * 32).toNat →
    addr = s.f (F.TIM_ETH_RXRING_base p) * 2048 + (s.eth p).rxNext % 2 ^ s.f (F.TIM_ETH_RXRING_log2_len p) * 2048 →
    (s.ethOn p = false → exec (.ethLinkChange p up ab) s = .next s ∧ exec (.ethFrameReceived p f b at_) s = .next s
      ∧ exec (.ethFrameSent p at_) s = .next s ∧ ∀ ecc, exec (.txDescriptorPoll p ecc) s = .next s)
    ∧ (s.ethOn p = true →
      (∃ t, exec (.ethLinkChange p up ab) s = .next t ∧ t.fb (F.TIM_ETH_STAT_link p) = up ∧ t.f (F.TIM_ETH_STAT_partner p) = ab.toNat
        ∧ t.fb (F.TIM_ETH_STAT_an_done p) = (up && decide (s.f (F.TIM_ETH_CFG_pcs p) ≠ 1))
        ∧ s.raised t = (if s.fb (F.TIM_ETH_STAT_link p) = up then [] else [.ethLink])
        ∧ (s.fb (F.TIM_ETH_STAT_link p) = true → up = false → t.fb (F.TIM_ETH_STAT_link_down p) = true))
      ∧ (b = false ∨ f.length < 60 ∨ 1996 < f.length → ∃ t, exec (.ethFrameReceived p f b at_) s = .next t ∧ u.RegsOnly t ∧ t.events = s.events
          ∧ t.f (F.TIM_ETH_CNT_fcs_err p) = min 65535 (s.f (F.TIM_ETH_CNT_fcs_err p) + 1) ∧ ∀ off, off ≠ R.TIM_ETH_CNT p → t.rd off = u.rd off)
      ∧ (b = true → 60 ≤ f.length → f.length ≤ 1996 →
          (s.ethAccepts p f = false ∨ beAt f (typeAt f) 4 = 0x88080001 → exec (.ethFrameReceived p f b at_) s = .next u)
          ∧ (s.ethAccepts p f = true → beAt f (typeAt f) 4 ≠ 0x88080001 → ptpAt f = none → s.svEntry p f = none → s.GrnClean → u.portBNow = [] →
            (s.fb (F.TIM_ETH_RXRING_en p) = false → exec (.ethFrameReceived p f b at_) s = .next u)
            ∧ (s.fb (F.TIM_ETH_RXRING_en p) = true → s.grnByte (addr + 3) ≠ 0 → ∃ t, exec (.ethFrameReceived p f b at_) s = .next t
                ∧ u.RegsOnly t ∧ t.events = s.events ∧ t.f (F.TIM_ETH_CNT_rx_drop p) = min 65535 (s.f (F.TIM_ETH_CNT_rx_drop p) + 1))
            ∧ (s.fb (F.TIM_ETH_RXRING_en p) = true → s.grnByte (addr + 3) = 0 → addr + 2048 ≤ grnSize →
                ∃ t, exec (.ethFrameReceived p f b at_) s = .next t ∧ fieldAt (t.grnRead addr 32) 0 2 = f.length ∧ t.grnByte (addr + 3) = 1
                  ∧ fieldAt (t.grnRead addr 32) 4 4 = ((s.eth p).rxCount + 1) % 2 ^ 32 ∧ (t.grnRead addr 32).drop 8 = stampBytes stamp ++ leBytes 15 0
                  ∧ t.grnRead (addr + 32) f.length = f ∧ (∀ k, k < addr ∨ addr + 32 + f.length ≤ k → t.grnByte k = s.grnByte k)
                  ∧ (t.eth p).rxNext = ((s.eth p).rxNext + 1) % 2 ^ s.f (F.TIM_ETH_RXRING_log2_len p) ∧ t.regs = u.regs ∧ t.events = s.events))
          ∧ (∀ k, s.ethAccepts p f = true → beAt f (typeAt f) 4 ≠ 0x88080001 → s.svEntry p f = some k → s.Quiet →
            (s.mode.fromConfigure = false → s.GrnClean → exec (.ethFrameReceived p f b at_) s = .next u)
            ∧ (s.mode.fromConfigure = true → ∃ t, exec (.ethFrameReceived p f b at_) s = .next t ∧ tget 0 t.tim.svCount k = (tget 0 s.tim.svCount k + 1) % 2 ^ 32
              ∧ t.f (F.TIM_SV_STAT_stored k) = (tget 0 s.tim.svCount k + 1) % 2 ^ 16 ∧ t.tim.eth = s.tim.eth))
          ∧ (∀ o, s.ethAccepts p f = true → ptpAt f = some o → s.fb (F.TIM_ETH_CFG_gm_watch p) = true → beAt f o 1 % 16 = 0xB →
              beAt f (o + 4) 1 = s.f (F.TIM_ETH_CFG_domain p) → (s.eth p).gmSeen = true →
              beAt f (o + 53) 8 ≠ s.rd (R.TIM_GM_LO p) + s.rd (R.TIM_GM_HI p) * 2 ^ 32 →
              ∃ t, exec (.ethFrameReceived p f b at_) s = .next t ∧ t.fb F.TIM_STAT_gm_change = true ∧ .gmChange ∈ s.raised t
                ∧ t.rd (R.TIM_GM_LO p) + t.rd (R.TIM_GM_HI p) * 2 ^ 32 = beAt f (o + 53) 8)))
    ∧ (∀ (ecc : List Ecc) (i : Nat) (e : List Byte), ecc.any Ecc.isDouble = false → s.ethOn p = true → s.fb (F.TIM_ETH_TXRING_en p) = true →
        (s.eth p).txBusy = none → i = (s.eth p).txNext % 2 ^ s.f (F.TIM_ETH_TXRING_log2_len p) → e = s.grnRead (s.txAddr p i) 32 →
        s.txAddr p i + 32 ≤ grnSize → w.portBNow = [] →
        (fieldAt e 7 1 ≠ 1 → ∃ t, exec (.txDescriptorPoll p ecc) s = .next t ∧ t.cyc = max s.cyc ((s.eth p).pollAt + cycPerUs)
            ∧ (t.eth p).txNext = (s.eth p).txNext ∧ (t.eth p).txBusy = none ∧ t.grn = s.grn)
        ∧ (fieldAt e 7 1 = 1 → s.paired = true → s.holder = false → s.fb (F.TIM_ETH_CFG_tx_mute p) = true →
            ∃ t, exec (.txDescriptorPoll p ecc) s = .next t ∧ t.grnByte (s.txAddr p i + 7) = 3 ∧ (t.eth p).txBusy = none
              ∧ t.f (F.TIM_ETH_CNT2_tx_muted p) = min 65535 (s.f (F.TIM_ETH_CNT2_tx_muted p) + 1))
        ∧ (fieldAt e 7 1 = 1 → s.paired = false ∨ s.holder = true ∨ s.fb (F.TIM_ETH_CFG_tx_mute p) = false →
            ((fieldAt e 4 2 < 14 ∨ 1996 < fieldAt e 4 2 ∨ grnSize < fieldAt e 0 4 + fieldAt e 4 2) →
              ∃ t, exec (.txDescriptorPoll p ecc) s = .next t ∧ t.grnByte (s.txAddr p i + 7) = 5 ∧ (t.eth p).txBusy = none)
            ∧ (14 ≤ fieldAt e 4 2 → fieldAt e 4 2 ≤ 1996 → fieldAt e 0 4 + fieldAt e 4 2 ≤ grnSize →
              (bitOf (fieldAt e 6 1) 1 = true → oneStepOk (s.txBytes e) = false →
                ∃ t, exec (.txDescriptorPoll p ecc) s = .next t ∧ t.grnByte (s.txAddr p i + 7) = 4 ∧ (t.eth p).txBusy = none)
              ∧ (bitOf (fieldAt e 6 1) 1 = false ∨ oneStepOk (s.txBytes e) = true →
                ∃ t, exec (.txDescriptorPoll p ecc) s = .next t ∧ (t.eth p).txBusy = some i ∧ t.grn = s.grn
                  ∧ t.cyc = max s.cyc ((s.eth p).pollAt + cycPerUs)
                  ∧ (t.eth p).txNext = (i + 1) % 2 ^ s.f (F.TIM_ETH_TXRING_log2_len p)))))
    ∧ ((s.eth p).txBusy = none → exec (.ethFrameSent p at_) s = .next s)
    ∧ (∀ i e, (s.eth p).txBusy = some i → e = s.grnRead (s.txAddr p i) 32 → s.txAddr p i + 32 ≤ grnSize → s.ethOn p = true → s.GrnClean →
        let v := s.frameEnd at_ (s.txBytes e).length
        v.portBNow = [] → ∃ t, exec (.ethFrameSent p at_) s = .next t ∧ t.grnByte (s.txAddr p i + 7) = 2 ∧ (t.eth p).txBusy = none ∧ t.regs = v.regs ∧ t.now = v.now
          ∧ t.events = s.events ∧ (bitOf (fieldAt e 6 1) 1 = false → (t.eth p).txFrame = s.txBytes e)
          ∧ (bitOf (fieldAt e 6 1) 0 = true ∨ bitOf (fieldAt e 6 1) 1 = true →
              t.grnRead (s.txAddr p i + 16) 9 = stampBytes ((stampAt at_ : Int) + sx 16 (s.f (F.TIM_ETH_LAT_tx_lat p)) * 32).toNat)
          ∧ (∀ k, k ≠ s.txAddr p i + 7 → ¬ (s.txAddr p i + 16 ≤ k ∧ k < s.txAddr p i + 25) → t.grnByte k = s.grnByte k))
    ∧ (s.MayWrite m → ∃ t, exec (.anRestart m p) s = .next t ∧ t.fb (F.TIM_ETH_STAT_an_done p) = false ∧ (t.eth p).negotiating = true
        ∧ t.fb (F.TIM_ETH_STAT_link p) = s.fb (F.TIM_ETH_STAT_link p) ∧ t.mode = s.mode)

/-- R431 to R436, R442 and R443. -/
def Obligations.CanQueuesAndCommands : Prop :=
  ∀ (s : State) (m : Master) (k : Fin 2) (v : W32) (busy : Bool),
    (s.canClocked = false → exec (.canModeApply k) s = .next s)
    ∧ (s.canClocked = true → ∃ t, exec (.canModeApply k) s = .next t ∧ t = { s with can := t.can } ∧ (t.canC k).on = s.fb (F.CAN_CFG_en k)
      ∧ (t.canC k).mode = s.f (F.CAN_CFG_mode k) ∧ (t.canC k).queue = (s.canC k).queue ∧ ∀ j : Nat, j ≠ k → t.canC j = s.canC j)
    ∧ (s.MayWrite m →
      (v.getLsbD 31 = true → s.fb (F.CAN_CFG_en k) = false → s.canTimingOk k = false →
        ∃ t, exec (.canEnable m k v) s = .next t ∧ t.fb (F.CAN_STAT_cfg_err k) = true ∧ s.RegsOnly t ∧ t.events = s.events
          ∧ ∀ off, off ≠ R.CAN_STAT k → t.rd off = s.rd off)
      ∧ (v.getLsbD 31 = false ∨ s.fb (F.CAN_CFG_en k) = true ∨ s.canTimingOk k = true →
        ∃ t, exec (.canEnable m k v) s = .next t ∧ t.fb (F.CAN_CFG_en k) = v.getLsbD 31
          ∧ t.f (F.CAN_CFG_retry_lim k) = v.toNat / 2 ^ 16 % 256 ∧ (t.canC k).queue = (s.canC k).queue
          ∧ (s.canState k < canBusOff → t.can = s.can) ∧ (canBusOff ≤ s.canState k → (t.canC k).on = v.getLsbD 31))
      ∧ (s.canMuted k = true → ∃ t, exec (.canPush m k) s = .next t ∧ t.can = s.can ∧ t.events = s.events
          ∧ t.f (F.CAN_CNT4_tx_muted k) = min 65535 (s.f (F.CAN_CNT4_tx_muted k) + 1))
      ∧ (∀ idw ctl, s.canMuted k = false → idw = s.rd (R.CAN_TXBUF k 0) → ctl = s.rd (R.CAN_TXBUF k 1) % 256 →
          (canBad idw ctl (s.rd (R.CAN_TXBUF k 1) / 2 ^ 8 % 2 ^ 16 != 0) = true → ∃ t, exec (.canPush m k) s = .next t ∧ t.can = s.can
            ∧ t.events = s.events ∧ t.f (F.CAN_CNT3_tx_bad k) = min 65535 (s.f (F.CAN_CNT3_tx_bad k) + 1))
          ∧ (canBad idw ctl (s.rd (R.CAN_TXBUF k 1) / 2 ^ 8 % 2 ^ 16 != 0) = false →
            (s.fifoLimit k ≤ (s.canC k).queue.length → ∃ t, exec (.canPush m k) s = .next t ∧ (t.canC k).queue = (s.canC k).queue ∧ t.events = s.events
              ∧ t.f (F.CAN_CNT3_tx_full k) = min 65535 (s.f (F.CAN_CNT3_tx_full k) + 1))
            ∧ ((s.canC k).queue.length < s.fifoLimit k → ∃ t x, exec (.canPush m k) s = .next t ∧ (t.canC k).queue = (s.canC k).queue ++ [x]
              ∧ x.idWord = idw ∧ x.control = ctl ∧ x.feed = none ∧ x.data.length = canLen idw ctl ∧ t.events = s.events
              ∧ t.f (F.CAN_STAT_fill k) = (s.canC k).queue.length + 1)))
      ∧ ((s.canC k).queue.length ≤ s.pushedNow k → exec (.canAbortHead m k busy) s = .next s)
      ∧ (∀ x q, (s.canC k).queue = x :: q → s.pushedNow k < (s.canC k).queue.length →
          (busy = true → s.canOffers k = true → ∃ t, exec (.canAbortHead m k busy) s = .next t ∧ t = { s with can := t.can }
            ∧ (t.canC k).abortPend = true ∧ (t.canC k).queue = (s.canC k).queue)
          ∧ (∀ y n, busy = false ∨ s.canOffers k = false → (s.canC k).fullPush = some (s.periphCyc, y, n) → q.length < s.fifoLimit k →
            ∃ t, exec (.canAbortHead m k busy) s = .next t ∧ (t.canC k).queue = q ++ [y]
              ∧ t.f (F.CAN_CNT3_tx_full k) = n % 2 ^ 16)
          ∧ (busy = false ∨ s.canOffers k = false → (s.canC k).fullPush = none → ∃ t, exec (.canAbortHead m k busy) s = .next t ∧ (t.canC k).queue = q
            ∧ t.f (F.CAN_CNT4_tx_abort k) = min 65535 (s.f (F.CAN_CNT4_tx_abort k) + 1) ∧ t.events = s.events
            ∧ (x.feed = none → t.grn = s.grn) ∧ (∀ a, x.feed = some a → a + 128 ≤ grnSize → s.portBNow = [] → t.grnByte (a + 7) = 4)))
      ∧ (busy = true → s.canOffers k = true → ∃ t, exec (.canFlush m k busy) s = .next t ∧ t = { s with can := t.can }
          ∧ (t.canC k).flushPend = true ∧ (t.canC k).queue = (s.canC k).queue)
      ∧ (let left := (s.canC k).queue.drop ((s.canC k).queue.length - s.pushedNow k);
        (busy = false ∨ s.canOffers k = false → (s.canC k).fullPush = none → ∃ t, exec (.canFlush m k busy) s = .next t
          ∧ (t.canC k).queue = left ∧ (left.length ≤ 32 → t.f (F.CAN_STAT_fill k) = left.length)
          ∧ t.f (F.CAN_CNT4_tx_abort k) = min 65535 (s.f (F.CAN_CNT4_tx_abort k) + ((s.canC k).queue.length - s.pushedNow k)) ∧ t.events = s.events)
        ∧ (∀ y n, busy = false ∨ s.canOffers k = false → (s.canC k).fullPush = some (s.periphCyc, y, n) → left.length < s.fifoLimit k →
          ∃ t, exec (.canFlush m k busy) s = .next t ∧ (t.canC k).queue = left ++ [y] ∧ t.f (F.CAN_CNT3_tx_full k) = n % 2 ^ 16))
      ∧ (∃ t, exec (.canRecover m k) s = .next t ∧ t.can = s.can ∧ t.events = s.events
          ∧ t.canState k = if s.canState k = canBusOff then canRecovering else s.canState k))
    ∧ (s.canWorks k = false ∨ s.fb (F.CAN_TXFEED_en k) = false → ∀ ecc, exec (.canFeedPoll k ecc) s = .next s)
    ∧ (∀ (ecc : List Ecc) (n a : Nat) (d : List Byte), ecc.any Ecc.isDouble = false → s.canWorks k = true → s.fb (F.CAN_TXFEED_en k) = true →
        n = 2 ^ s.f (F.CAN_TXFEED_log2_len k) → a = s.f (F.CAN_TXFEED_base k) * 128 + (s.canC k).feedNext % n * 128 → d = s.grnRead a 128 →
        a + 128 ≤ grnSize → (s.advanceCyc ((s.canC k).pollAt + cycPerUs)).portBNow = [] →
        (fieldAt d 7 1 ≠ 1 → ∃ t, exec (.canFeedPoll k ecc) s = .next t ∧ (t.canC k).queue = (s.canC k).queue
            ∧ (t.canC k).feedNext = (s.canC k).feedNext ∧ t.cyc = max s.cyc ((s.canC k).pollAt + cycPerUs) ∧ t.grn = s.grn)
        ∧ (fieldAt d 7 1 = 1 →
          (s.canMuted k = true → ∃ t, exec (.canFeedPoll k ecc) s = .next t ∧ t.grnByte (a + 7) = 3 ∧ (t.canC k).queue = (s.canC k).queue
            ∧ (t.canC k).feedNext = ((s.canC k).feedNext % n + 1) % n)
          ∧ (s.canMuted k = false → (canBad (fieldAt d 0 4) (fieldAt d 4 1) (fieldAt d 5 2 != 0 || fieldAt d 16 16 != 0 || fieldAt d 96 32 != 0) = true →
              ∃ t, exec (.canFeedPoll k ecc) s = .next t ∧ t.grnByte (a + 7) = 5 ∧ (t.canC k).queue = (s.canC k).queue
                ∧ (t.canC k).feedNext = ((s.canC k).feedNext % n + 1) % n)
            ∧ (canBad (fieldAt d 0 4) (fieldAt d 4 1) (fieldAt d 5 2 != 0 || fieldAt d 16 16 != 0 || fieldAt d 96 32 != 0) = false →
              (let u := s.advanceCyc ((s.canC k).pollAt + cycPerUs);
                u.feedFits k = false → ∃ t, exec (.canFeedPoll k ecc) s = .next t ∧ (t.canC k).queue = (s.canC k).queue
                  ∧ (t.canC k).feedNext = (s.canC k).feedNext ∧ t.grn = s.grn)
              ∧ ((s.canC k).queue.length < s.fifoLimit k → (s.canC k).pushAt ≠ (s.advanceCyc ((s.canC k).pollAt + cycPerUs)).periphCyc →
                ∃ t x, exec (.canFeedPoll k ecc) s = .next t
                ∧ (t.canC k).queue = (s.canC k).queue ++ [x] ∧ x.idWord = fieldAt d 0 4 ∧ x.control = fieldAt d 4 1 ∧ x.feed = some a
                ∧ x.data = (d.drop 32).take (canLen (fieldAt d 0 4) (fieldAt d 4 1)) ∧ t.grn = s.grn
                ∧ (t.canC k).feedNext = ((s.canC k).feedNext % n + 1) % n)))))

/-- R436 to R443. -/
def Obligations.CanAttemptsFramesAndErrors : Prop :=
  ∀ (s : State) (k : Fin 2) (how : CanEnd) (sof : Nat) (see : CanSeen) (x : CanEntry) (q : List CanEntry) (tec : Nat),
    tec = s.f (F.CAN_STAT_tec k) → let up := 8 * (1 + see.more)
    ((s.canC k).queue = [] ∨ s.canOffers k = false → exec (.canTxAttemptEnd k how sof see) s = .next s)
    ∧ ((s.canC k).queue = x :: q → s.canOffers k = true → (s.canC k).fullPush = none → s.pushedNow k = 0 → s.portBNow = [] →
      ((s.canC k).flushPend = false → (s.canC k).mode ≠ canLoopback → tec ≤ 256 → ∃ t, exec (.canTxAttemptEnd k .sent sof see) s = .next t
          ∧ (t.canC k).queue = q ∧ t.f (F.CAN_CNT_tx_done k) = min 65535 (s.f (F.CAN_CNT_tx_done k) + 1)
          ∧ t.f (F.CAN_STAT_tec k) = tec - 1 ∧ (tec < 129 → s.f (F.CAN_STAT_rec k) < 128 → t.events = s.events)
          ∧ (∀ a, x.feed = some a → a + 128 ≤ grnSize → t.grnByte (a + 7) = 2 ∧ t.grnRead (a + 8) 8 = leBytes 8 (timeWord sof)))
      ∧ ((s.canC k).flushPend = false → (s.canC k).abortPend = false → ∃ t, exec (.canTxAttemptEnd k .lostArb sof see) s = .next t
          ∧ t.canC k = s.canC k ∧ t.rd (R.CAN_STAT k) = s.rd (R.CAN_STAT k) ∧ t.events = s.events ∧ t.grn = s.grn)
      ∧ ((s.canC k).flushPend = false → (s.canC k).abortPend = true → ∃ t, exec (.canTxAttemptEnd k .lostArb sof see) s = .next t
          ∧ (t.canC k).queue = q ∧ (t.canC k).abortPend = false ∧ t.f (F.CAN_CNT4_tx_abort k) = min 65535 (s.f (F.CAN_CNT4_tx_abort k) + 1))
      ∧ ((s.canC k).flushPend = true → ∃ t, exec (.canTxAttemptEnd k .lostArb sof see) s = .next t ∧ (t.canC k).queue = []
          ∧ (t.canC k).flushPend = false)
      ∧ ((s.canC k).flushPend = false → (s.canC k).abortPend = false →
        (∀ p ∈ [(CanEnd.stuffErr false, 1), (.formErr, 2), (.crcErr, 6), (.bitErr false true, 4), (.bitErr false false, 5)],
          ∃ t, exec (.canTxAttemptEnd k p.1 sof see) s = .next t ∧ t.f (F.CAN_STAT_lec k) = p.2 ∧ t.f (F.CAN_STAT_tec k) = min 511 (tec + up)
            ∧ (tec + up < 256 → (t.canC k).queue = (s.canC k).queue ∧ (t.canC k).ackRun = 0 ∧ (t.canC k).clashRun = 0)
            ∧ (256 ≤ tec + up → .busOff ∈ s.raised t ∧ t.fb (F.CAN_STAT_busoff_seen k) = true
                ∧ t.canState k = (if s.fb (F.CAN_CFG_auto_rec k) then canRecovering else canBusOff)
                ∧ (s.fb (F.CAN_CFG_flush_busoff k) = true → (t.canC k).queue = [])
                ∧ (t.canC k).on = s.fb (F.CAN_CFG_en k) ∧ (t.canC k).mode = s.f (F.CAN_CFG_mode k)))
        ∧ (tec + 8 * see.more < 256 → ∃ t, exec (.canTxAttemptEnd k (.stuffErr true) sof see) s = .next t ∧ t.f (F.CAN_STAT_lec k) = 1
            ∧ t.f (F.CAN_STAT_tec k) = tec + 8 * see.more ∧ (t.canC k).queue = (s.canC k).queue)
        ∧ (∀ dom, tec + up < 256 → ∃ t, exec (.canTxAttemptEnd k (.ackErr dom) sof see) s = .next t ∧ t.f (F.CAN_STAT_lec k) = 3
            ∧ t.f (F.CAN_STAT_tec k) = (if s.canState k = canPassive ∧ dom = false then tec + 8 * see.more else tec + up)
            ∧ (s.f (F.CAN_CFG_retry_lim k) = 0 ∨ (s.canC k).ackRun + 1 < s.f (F.CAN_CFG_retry_lim k) →
                (t.canC k).queue = (s.canC k).queue ∧ (t.canC k).ackRun = (s.canC k).ackRun + 1 ∧ .alone ∉ s.raised t)
            ∧ (s.f (F.CAN_CFG_retry_lim k) ≠ 0 → s.f (F.CAN_CFG_retry_lim k) ≤ (s.canC k).ackRun + 1 →
                (t.canC k).queue = q ∧ t.fb (F.CAN_STAT_alone k) = true ∧ .alone ∈ s.raised t))
        ∧ (∀ b, tec + up < 256 → ∃ t, exec (.canTxAttemptEnd k (.bitErr true b) sof see) s = .next t ∧ t.f (F.CAN_STAT_tec k) = tec + up
            ∧ ((s.canC k).clashRun < 2 → (t.canC k).queue = (s.canC k).queue ∧ (t.canC k).clashRun = (s.canC k).clashRun + 1)
            ∧ (2 ≤ (s.canC k).clashRun → (t.canC k).queue = q ∧ t.fb (F.CAN_STAT_idclash k) = true ∧ .idclash ∈ s.raised t))))
    ∧ (s.canClocked = true → s.canState k = canRecovering → ∃ t, exec (.canRecoveryDone k) s = .next t ∧ t.canState k = canActive ∧ t.f (F.CAN_STAT_tec k) = 0
        ∧ t.f (F.CAN_STAT_rec k) = 0 ∧ t = { s with regs := t.regs })
    ∧ (s.canClocked = false ∨ s.canState k ≠ canRecovering → exec (.canRecoveryDone k) s = .next s)
    ∧ (∀ (f : CanFrame) (err : Option CanRxErr),
        (s.canWorks k = false ∨ (s.canC k).mode = canLoopback ∨ canBusOff ≤ s.canState k → exec (.canFrameReceived k f sof err) s = .next s)
        ∧ (s.canWorks k = true → (s.canC k).mode ≠ canLoopback → s.canState k < canBusOff → tec < 256 →
          (∀ e, err = some e → ∃ t, exec (.canFrameReceived k f sof err) s = .next t ∧ t.f (F.CAN_STAT_lec k) = e.code ∧ t.can = s.can
              ∧ t.f (F.CAN_STAT_rec k) = (if (s.canC k).mode = canRestricted then s.f (F.CAN_STAT_rec k) else min 255 (s.f (F.CAN_STAT_rec k) + (1 + 8 * e.more))))
          ∧ (err = none → s.rxObject k f.idWord.toNat = none → ∃ t, exec (.canFrameReceived k f sof err) s = .next t ∧ t.can = s.can
              ∧ t.f (F.CAN_CNT2_no_match k) = min 65535 (s.f (F.CAN_CNT2_no_match k) + 1)
              ∧ ((s.canC k).mode ≠ canRestricted → s.f (F.CAN_STAT_rec k) ≤ 127 → t.f (F.CAN_STAT_rec k) = s.f (F.CAN_STAT_rec k) - 1))
          ∧ (∀ o, err = none → s.rxObject k f.idWord.toNat = some o → ∃ t y, exec (.canFrameReceived k f sof err) s = .next t
              ∧ (t.canC k).rx = (s.canC k).rx ++ [y] ∧ y.obj = o ∧ y.idWord = f.idWord.toNat ∧ y.sof = sof
              ∧ y.data = f.data.take (canLen f.idWord.toNat f.control.toNat)
              ∧ (∀ j < o, ¬ (s.fb (F.CAN_RXOBJ_en k j) = true ∧ s.f (F.CAN_RXOBJ_ide k j) = bitsOf f.idWord.toNat 29 29
                  ∧ s.f (F.CAN_RXOBJ_id k j) = bitsOf f.idWord.toNat 28 0)))))
    ∧ ((s.canC k).rx = [] ∨ s.canClocked = false → exec (.canObjectWrite k) s = .next s)
    ∧ (∀ y rest a, (s.canC k).rx = y :: rest → a = s.f (F.CAN_RX_BASE_base k) * 16384 + y.obj * 128 → a + 128 ≤ grnSize → s.Quiet → s.canClocked = true → s.GrnClean → s.portBNow = [] →
        ∃ t, exec (.canObjectWrite k) s = .next t ∧ (t.canC k).rx = rest
          ∧ t.grnRead a 4 = leBytes 4 ((fieldAt (s.grnRead a 16) 0 4 % 2 ^ 31 + 1) % 2 ^ 31)
          ∧ t.grnRead (a + 4) 4 = leBytes 4 y.idWord ∧ t.grnRead (a + 16) 8 = leBytes 8 (timeWord y.sof)
          ∧ t.grnRead (a + 32) 64 = (y.data ++ List.replicate 64 0).take 64
          ∧ t.grnByte (a + 9) = (if bitOf (fieldAt (s.grnRead a 16) 9 1) 0 then 3 else 1)
          ∧ (∀ j, j < a ∨ a + 96 ≤ j → t.grnByte j = s.grnByte j)
          ∧ t.f (F.CAN_CNT_rx_stored k) = min 65535 (s.f (F.CAN_CNT_rx_stored k) + 1)
          ∧ (bitOf (fieldAt (s.grnRead a 16) 9 1) 0 = false ∨ (s.canC k).lostSeen.contains y.obj = true → t.events = s.events)
          ∧ (bitOf (fieldAt (s.grnRead a 16) 9 1) 0 = true → (s.canC k).lostSeen.contains y.obj = false → s.raised t = [.canLost]))

/-- R446, R449, R452 and R453. -/
def Obligations.GranaryErrorsAndScrub : Prop :=
  ∀ (s : State) (bank : Fin 32) (i j : Fin 64),
    ((∀ w ∈ s.eccWb, grnBank (w * 8) ≠ bank) → exec (.eccWriteback bank) s = .next s)
    ∧ (∀ w pre post, s.eccWb = pre ++ w :: post → (∀ x ∈ pre, grnBank (x * 8) ≠ bank) → grnBank (w * 8) = bank →
        exec (.eccWriteback bank) s = .next { s with eccWb := pre ++ post })
    ∧ (s.live = true → ∃ t, exec .granaryInitDone s = .next t ∧ t.fb F.GRN_STAT_init_done = true ∧ t = { s with regs := t.regs }
        ∧ ∀ off, off ≠ R.GRN_STAT → t.rd off = s.rd off)
    ∧ (s.live = false → exec .granaryInitDone s = .next s)
    ∧ (s.live = false ∨ s.fb F.GRN_STAT_init_done = false ∨ s.f F.GRN_CFG_scrub_int = 0 → ∀ ecc, exec (.patrolScrub ecc) s = .next s)
    ∧ (s.live = true → s.fb F.GRN_STAT_init_done = true → s.f F.GRN_CFG_scrub_int ≠ 0 → s.scrubWord ∉ s.grnBad →
        (∃ t, exec (.patrolScrub .ok) s = .next t ∧ t.scrubWord = (s.scrubWord + 1) % 8388608 ∧ t.scrubCyc = t.cyc
            ∧ t.cyc = max s.cyc (s.scrubCyc + s.f F.GRN_CFG_scrub_int * cycPerUs) ∧ t.grn = s.grn ∧ t.grnBad = s.grnBad ∧ t.eccWb = s.eccWb
            ∧ s.SameRegs t ∧ t.events = s.events)
        ∧ (∃ t, exec (.patrolScrub .single) s = .next t ∧ t.scrubWord = (s.scrubWord + 1) % 8388608 ∧ t.eccWb = s.eccWb ++ [s.scrubWord]
            ∧ t.grn = s.grn ∧ t.grnBad = s.grnBad ∧ t.f F.GRN_ECC_CNT_corr = min 65535 (s.f F.GRN_ECC_CNT_corr + 1)
            ∧ (s.eccCorrAt = none → s.raised t = [.eccCorr])
            ∧ (∀ a, s.eccCorrAt = some a → s.raised t = (if a + cycPerMs ≤ t.cyc then [.eccCorr] else [])))
        ∧ (s.scrubWord < 8388608 → ∃ t, exec (.patrolScrub (.double i j)) s = .next t ∧ t.scrubWord = (s.scrubWord + 1) % 8388608
            ∧ t.grnBad = s.grnBad ++ [s.scrubWord] ∧ t.f F.GRN_ECC_CNT_uncorr = min 65535 (s.f F.GRN_ECC_CNT_uncorr + 1)
            ∧ t.f F.GRN_ECC_LAST_req = 0xFF ∧ t.f F.GRN_ECC_LAST_word = s.scrubWord ∧ s.raised t = [.eccUncorr]
            ∧ (∀ a, a < s.scrubWord * 8 ∨ s.scrubWord * 8 + 8 ≤ a → t.grnByte a = s.grnByte a)))

/-- The step of the block. -/
def Obligations.CommandsRunFromTheFront : Prop :=
  ∀ (c : Instr) (rest : List Instr) (s : State) (nbits w : Nat),
    (s.pending = c :: rest → step s = exec c { s with pending := rest })
    ∧ step { s with pending := c :: rest } = exec c { s with pending := rest }
    ∧ (s.pending = [] → step s = .next s.idleTick)
    ∧ (s.awake = false → s.idleTick = s)
    ∧ (s.awake = true → s.idleTick.cyc = s.cyc + 1 ∧ s.idleTick.now = s.coreTick.now ∧ s.idleTick.mode = s.mode
        ∧ s.idleTick.events = s.events ∧ s.idleTick.pending = s.pending)
    ∧ (s.live = false → s.coreTick.now = s.now)
    ∧ s.withFetchWord nbits w = s

/-- R22, R371, R408 and R453 at reset. -/
def Obligations.ResetState : Prop :=
  State.reset.Sound ∧ (∀ off, State.reset.rd off = resetVal off % 2 ^ 32) ∧ State.reset.f F.GLB_PERIOD_period_steps = 2000
    ∧ State.reset.periodNs = 10000 ∧ State.reset.owner = 3 ∧ State.reset.now = { ns := 0, frac := 0 } ∧ (∀ a, State.reset.grnByte a = 0)
    ∧ State.reset.events = [] ∧ State.reset.pending = [] ∧ State.reset.Alone ∧ State.reset.live = false

/-- What the hardware does on every command it can be given. -/
def Obligations.EveryCommandAnswersANextState : Prop :=
  (∀ (c : Instr) (s : State), ∃ t, exec c s = .next t) ∧ ∀ s : State, s.StepsOn

/-- The invariant of the model's memories. -/
def Obligations.StepKeepsTheStateSound : Prop :=
  ∀ s t : State, s.Sound → step s = .next t → t.Sound

/-- Commands wait first in, first out. -/
def Obligations.StepTakesOneCommand : Prop :=
  (∀ (c : Instr) (s t : State), exec c s = .next t → t.pending = s.pending)
    ∧ ∀ s t : State, step s = .next t → t.pending = s.pending.tail
end

