-- ==== Sys2Proof/Laws/Table.lean ====
section
/-! SUPPORT. What the sparse tables and the bit-field helpers do: reading after writing, and the canonical form. -/

namespace Sys2Proof.Machine

variable {α : Type}

/-! ### Reading -/

@[simp] theorem tget_nil (d : α) (k : Nat) : tget d [] k = d := rfl

theorem tget_tdel_same (d : α) (t : List (Nat × α)) (k : Nat) : tget d (tdel k t) k = d := by
  induction t with
  | nil => rfl
  | cons p t ih => by_cases h : p.1 = k <;> simp [tdel, tget, h, ih]

theorem tget_tdel_ne (d : α) (t : List (Nat × α)) {k j : Nat} (h : j ≠ k) : tget d (tdel k t) j = tget d t j := by
  induction t with
  | nil => rfl
  | cons p t ih =>
    by_cases hp : p.1 = k
    · have : p.1 ≠ j := fun e => h (e.symm.trans hp)
      simp [tdel, tget, hp, ih]; omega
    · simp [tdel, tget, hp, ih]

theorem tget_tins_same (d : α) (t : List (Nat × α)) (k : Nat) (v : α) (h : ∀ p ∈ t, p.1 ≠ k) : tget d (tins k v t) k = v := by
  induction t with
  | nil => simp [tins, tget]
  | cons p t ih =>
    have hp : p.1 ≠ k := h p (by simp)
    unfold tins; split
    · simp [tget]
    · simp [tget, hp, ih (fun q hq => h q (by simp [hq]))]

theorem tget_tins_ne (d : α) (t : List (Nat × α)) {k j : Nat} (v : α) (h : j ≠ k) : tget d (tins k v t) j = tget d t j := by
  induction t with
  | nil => simp [tins, tget]; omega
  | cons p t ih =>
    unfold tins; split
    · simp [tget]; omega
    · simp [tget, ih]

theorem tdel_keys (t : List (Nat × α)) (k : Nat) : ∀ p ∈ tdel k t, p.1 ≠ k := by
  induction t with
  | nil => simp [tdel]
  | cons q t ih =>
    intro p hp
    unfold tdel at hp; split at hp
    · exact ih p hp
    · rcases List.mem_cons.mp hp with rfl | h
      · assumption
      · exact ih p h

/-- A key reads what was last written to it. -/
@[simp] theorem tget_tput_same [DecidableEq α] (d : α) (t : List (Nat × α)) (k : Nat) (v : α) : tget d (tput d t k v) k = v := by
  unfold tput; split
  · next h => rw [tget_tdel_same, h]
  · exact tget_tins_same d _ k v (tdel_keys t k)

/-- Every other key reads as before. -/
theorem tget_tput_ne [DecidableEq α] (d : α) (t : List (Nat × α)) {k j : Nat} (v : α) (h : j ≠ k) :
    tget d (tput d t k v) j = tget d t j := by
  unfold tput; split
  · exact tget_tdel_ne d t h
  · rw [tget_tins_ne _ _ _ h, tget_tdel_ne d t h]

/-! ### The canonical form -/

theorem twf_of_none [DecidableEq α] {d : α} {t : List (Nat × α)} {lo : Nat} (h : twf d (some lo) t = true) : twf d none t = true := by
  cases t with
  | nil => rfl
  | cons p t => simp_all [twf]

theorem twf_lower [DecidableEq α] {d : α} {t : List (Nat × α)} {lo hi : Nat} (hl : lo ≤ hi) (h : twf d (some hi) t = true) :
    twf d (some lo) t = true := by
  cases t with
  | nil => rfl
  | cons p t => simp_all [twf]; omega

theorem twf_tdel [DecidableEq α] (d : α) (k : Nat) (t : List (Nat × α)) (b : Option Nat) (h : twf d b t = true) :
    twf d b (tdel k t) = true := by
  induction t generalizing b with
  | nil => cases b <;> rfl
  | cons p t ih =>
    unfold tdel; split
    · cases b with
      | none => exact ih none (twf_of_none (by simp_all [twf]; exact h.2))
      | some lo =>
        simp only [twf, Bool.and_eq_true, decide_eq_true_eq] at h
        exact twf_lower (Nat.le_of_lt h.1.1) (ih _ h.2)
    · cases b with
      | none => simp only [twf, Bool.and_eq_true] at h ⊢; exact ⟨h.1, ih _ h.2⟩
      | some lo => simp only [twf, Bool.and_eq_true] at h ⊢; exact ⟨h.1, ih _ h.2⟩

theorem twf_tins_some [DecidableEq α] (d : α) (k : Nat) (v : α) (hv : v ≠ d) (t : List (Nat × α)) (lo : Nat) (hk : lo < k)
    (hn : ∀ p ∈ t, p.1 ≠ k) (h : twf d (some lo) t = true) : twf d (some lo) (tins k v t) = true := by
  induction t generalizing lo with
  | nil => simp [tins, twf, hk, hv]
  | cons p t ih =>
    simp only [twf, Bool.and_eq_true, decide_eq_true_eq] at h
    unfold tins; split
    · next hp => simp [twf, hk, hv, hp, h.1.2, h.2]
    · next hp =>
      have hne := hn p (by simp)
      have := ih p.1 (by omega) (fun q hq => hn q (by simp [hq])) h.2
      simp [twf, h.1.1, h.1.2, this]

theorem twf_tins_none [DecidableEq α] (d : α) (k : Nat) (v : α) (hv : v ≠ d) (t : List (Nat × α))
    (hn : ∀ p ∈ t, p.1 ≠ k) (h : twf d none t = true) : twf d none (tins k v t) = true := by
  cases t with
  | nil => simp [tins, twf, hv]
  | cons p t =>
    simp only [twf, Bool.and_eq_true, decide_eq_true_eq] at h
    unfold tins; split
    · next hp => simp [twf, hv, hp, h.1, h.2]
    · next hp =>
      have hne := hn p (by simp)
      have := twf_tins_some d k v hv t p.1 (by omega) (fun q hq => hn q (by simp [hq])) h.2
      simp [twf, h.1, this]

/-- Writing keeps the canonical form. -/
theorem twf_tput [DecidableEq α] (d : α) (t : List (Nat × α)) (k : Nat) (v : α) (h : twf d none t = true) :
    twf d none (tput d t k v) = true := by
  unfold tput; split
  · exact twf_tdel d k t none h
  · next hv => exact twf_tins_none d k v hv _ (tdel_keys t k) (twf_tdel d k t none h)

/-! ### Bit fields -/

theorem bitsOf_lt (v hi lo : Nat) : bitsOf v hi lo < 2 ^ (hi + 1 - lo) := Nat.mod_lt _ (by positivity)

/-- `setBits` in three parts: below the field, the field, above it. -/
theorem setBits_eq (old hi lo v : Nat) :
    setBits old hi lo v
      = old % 2 ^ lo + 2 ^ lo * (v % 2 ^ (hi + 1 - lo) + 2 ^ (hi + 1 - lo) * (old / 2 ^ lo / 2 ^ (hi + 1 - lo))) := by
  unfold setBits bitsOf
  have h1 := Nat.mod_add_div old (2 ^ lo)
  have h2 := Nat.mod_add_div (old / 2 ^ lo) (2 ^ (hi + 1 - lo))
  generalize old / 2 ^ lo / 2 ^ (hi + 1 - lo) = c at *
  generalize old / 2 ^ lo % 2 ^ (hi + 1 - lo) = b at *
  generalize 2 ^ (hi + 1 - lo) = W at *
  rw [← h2] at h1
  have h3 : old = old % 2 ^ lo + b * 2 ^ lo + 2 ^ lo * (W * c) := by rw [← h1]; simp [Nat.add_mod]; ring
  have h4 : old - b * 2 ^ lo = old % 2 ^ lo + 2 ^ lo * (W * c) := by omega
  rw [h4]; ring

/-- The field reads what was written, modulo its width. -/
theorem bitsOf_setBits_same (old hi lo v : Nat) : bitsOf (setBits old hi lo v) hi lo = v % 2 ^ (hi + 1 - lo) := by
  rw [setBits_eq, bitsOf, Nat.add_mul_div_left _ _ (by positivity), Nat.div_eq_of_lt (Nat.mod_lt _ (by positivity))]
  simp

/-- A field that ends below the written one reads as before. -/
theorem bitsOf_setBits_below (old hi lo v : Nat) {hi' lo' : Nat} (h : hi' < lo) :
    bitsOf (setBits old hi lo v) hi' lo' = bitsOf old hi' lo' := by
  rw [setBits_eq]
  generalize v % 2 ^ (hi + 1 - lo) + 2 ^ (hi + 1 - lo) * (old / 2 ^ lo / 2 ^ (hi + 1 - lo)) = q
  unfold bitsOf
  by_cases hl : lo' ≤ hi'
  · have key : ∀ n q : Nat, (n % 2 ^ lo + 2 ^ lo * q) / 2 ^ lo' % 2 ^ (hi' + 1 - lo') = n % 2 ^ lo / 2 ^ lo' % 2 ^ (hi' + 1 - lo') := by
      intro n q
      obtain ⟨d, hd⟩ : ∃ d, lo = lo' + (hi' + 1 - lo') + d := ⟨lo - (hi' + 1), by omega⟩
      have : 2 ^ lo * q = 2 ^ lo' * (2 ^ (hi' + 1 - lo') * (2 ^ d * q)) := by
        conv_lhs => rw [hd, pow_add, pow_add]
        ring
      rw [this, Nat.add_mul_div_left _ _ (by positivity), Nat.add_mul_mod_self_left]
    rw [key, ← Nat.mod_add_div old (2 ^ lo), key, Nat.mod_add_div]
  · have : hi' + 1 - lo' = 0 := by omega
    simp [this, Nat.mod_one]

/-- A field that begins above the written one reads as before. -/
theorem bitsOf_setBits_above (old hi lo v : Nat) {hi' lo' : Nat} (hw : lo ≤ hi + 1) (h : hi < lo') :
    bitsOf (setBits old hi lo v) hi' lo' = bitsOf old hi' lo' := by
  have key : setBits old hi lo v / 2 ^ lo' = old / 2 ^ lo' := by
    obtain ⟨d, hd⟩ : ∃ d, lo' = lo + (hi + 1 - lo) + d := ⟨lo' - (hi + 1), by omega⟩
    rw [hd, pow_add, pow_add, ← Nat.div_div_eq_div_mul, ← Nat.div_div_eq_div_mul, ← Nat.div_div_eq_div_mul,
      ← Nat.div_div_eq_div_mul, setBits_eq, Nat.add_mul_div_left _ _ (by positivity),
      Nat.div_eq_of_lt (Nat.mod_lt _ (by positivity)), Nat.zero_add, Nat.add_mul_div_left _ _ (by positivity),
      Nat.div_eq_of_lt (Nat.mod_lt _ (by positivity)), Nat.zero_add]
  simp [bitsOf, key]

/-- A word with a field replaced has no more bits than before. -/
theorem setBits_lt {old hi lo v w : Nat} (hw : hi < w) (hl : lo ≤ hi) (h : old < 2 ^ w) : setBits old hi lo v < 2 ^ w := by
  rw [setBits_eq]
  obtain ⟨d, hd⟩ : ∃ d, w = lo + (hi + 1 - lo) + d := ⟨w - (hi + 1), by omega⟩
  have h1 : old / 2 ^ lo / 2 ^ (hi + 1 - lo) < 2 ^ d := by
    rw [Nat.div_div_eq_div_mul, ← pow_add, Nat.div_lt_iff_lt_mul (by positivity), ← pow_add]
    rwa [show d + (lo + (hi + 1 - lo)) = w by omega]
  have h2 : v % 2 ^ (hi + 1 - lo) < 2 ^ (hi + 1 - lo) := Nat.mod_lt _ (by positivity)
  have h3 : old % 2 ^ lo < 2 ^ lo := Nat.mod_lt _ (by positivity)
  rw [hd, pow_add, pow_add]
  generalize old / 2 ^ lo / 2 ^ (hi + 1 - lo) = c at *
  generalize v % 2 ^ (hi + 1 - lo) = b at *
  generalize old % 2 ^ lo = a at *
  generalize 2 ^ (hi + 1 - lo) = W at *
  generalize 2 ^ lo = L at *
  generalize 2 ^ d = D at *
  have h4 : b + W * c < W * D := by nlinarith
  nlinarith

end Sys2Proof.Machine
end

