-- ==== Sys2Proof/Laws/State.lean ====
section
/-! SUPPORT. What each named update of State leaves alone, field by field, and what it makes of the field it is for. -/

namespace Sys2Proof.Machine

/-! ### Frames -/

@[simp] theorem State.wr_keeps (s : State) (off v : Nat) :
    (s.wr off v).pending = s.pending ∧ (s.wr off v).now = s.now ∧ (s.wr off v).cyc = s.cyc ∧ (s.wr off v).just = s.just ∧
    (s.wr off v).justAt = s.justAt ∧ (s.wr off v).seq = s.seq ∧ (s.wr off v).mode = s.mode ∧ (s.wr off v).origin = s.origin ∧
    (s.wr off v).ctl = s.ctl ∧ (s.wr off v).pwr = s.pwr ∧ (s.wr off v).boot = s.boot ∧ (s.wr off v).snaps = s.snaps ∧
    (s.wr off v).rdata = s.rdata ∧ (s.wr off v).poisoned = s.poisoned ∧ (s.wr off v).events = s.events ∧
    (s.wr off v).evSeq = s.evSeq ∧ (s.wr off v).grn = s.grn ∧ (s.wr off v).grnBad = s.grnBad ∧ (s.wr off v).eccWb = s.eccWb ∧
    (s.wr off v).portB = s.portB ∧ (s.wr off v).dmExt = s.dmExt ∧ (s.wr off v).engReads = s.engReads ∧
    (s.wr off v).eccCorrAt = s.eccCorrAt ∧ (s.wr off v).scrubWord = s.scrubWord ∧ (s.wr off v).scrubCyc = s.scrubCyc ∧
    (s.wr off v).hostMem = s.hostMem ∧ (s.wr off v).lanes = s.lanes ∧ (s.wr off v).cells = s.cells ∧ (s.wr off v).arms = s.arms ∧
    (s.wr off v).units = s.units ∧ (s.wr off v).plan = s.plan ∧ (s.wr off v).pwm = s.pwm ∧ (s.wr off v).pwmIo = s.pwmIo ∧
    (s.wr off v).engines = s.engines ∧ (s.wr off v).pm = s.pm ∧ (s.wr off v).dm = s.dm ∧ (s.wr off v).tasks = s.tasks ∧
    (s.wr off v).sched = s.sched ∧ (s.wr off v).adc = s.adc ∧ (s.wr off v).fr = s.fr ∧ (s.wr off v).saf = s.saf ∧
    (s.wr off v).hif = s.hif ∧ (s.wr off v).tim = s.tim ∧ (s.wr off v).can = s.can ∧ (s.wr off v).pair = s.pair ∧
    (s.wr off v).undo = s.undo ∧ (s.wr off v).freeCtr = s.freeCtr := by
  repeat' constructor

@[simp] theorem State.setF_keeps (s : State) (x : Fld) (v : Nat) :
    (s.setF x v).pending = s.pending ∧ (s.setF x v).now = s.now ∧ (s.setF x v).cyc = s.cyc ∧ (s.setF x v).just = s.just ∧
    (s.setF x v).justAt = s.justAt ∧ (s.setF x v).seq = s.seq ∧ (s.setF x v).mode = s.mode ∧ (s.setF x v).origin = s.origin ∧
    (s.setF x v).ctl = s.ctl ∧ (s.setF x v).pwr = s.pwr ∧ (s.setF x v).boot = s.boot ∧ (s.setF x v).snaps = s.snaps ∧
    (s.setF x v).rdata = s.rdata ∧ (s.setF x v).poisoned = s.poisoned ∧ (s.setF x v).events = s.events ∧
    (s.setF x v).evSeq = s.evSeq ∧ (s.setF x v).grn = s.grn ∧ (s.setF x v).grnBad = s.grnBad ∧ (s.setF x v).eccWb = s.eccWb ∧
    (s.setF x v).portB = s.portB ∧ (s.setF x v).dmExt = s.dmExt ∧ (s.setF x v).engReads = s.engReads ∧
    (s.setF x v).eccCorrAt = s.eccCorrAt ∧ (s.setF x v).scrubWord = s.scrubWord ∧ (s.setF x v).scrubCyc = s.scrubCyc ∧
    (s.setF x v).hostMem = s.hostMem ∧ (s.setF x v).lanes = s.lanes ∧ (s.setF x v).cells = s.cells ∧ (s.setF x v).arms = s.arms ∧
    (s.setF x v).units = s.units ∧ (s.setF x v).plan = s.plan ∧ (s.setF x v).pwm = s.pwm ∧ (s.setF x v).pwmIo = s.pwmIo ∧
    (s.setF x v).engines = s.engines ∧ (s.setF x v).pm = s.pm ∧ (s.setF x v).dm = s.dm ∧ (s.setF x v).tasks = s.tasks ∧
    (s.setF x v).sched = s.sched ∧ (s.setF x v).adc = s.adc ∧ (s.setF x v).fr = s.fr ∧ (s.setF x v).saf = s.saf ∧
    (s.setF x v).hif = s.hif ∧ (s.setF x v).tim = s.tim ∧ (s.setF x v).can = s.can ∧ (s.setF x v).pair = s.pair ∧
    (s.setF x v).undo = s.undo ∧ (s.setF x v).freeCtr = s.freeCtr := by
  repeat' constructor

@[simp] theorem State.note_keeps (s : State) (off mask : Nat) :
    (s.note off mask).pending = s.pending ∧ (s.note off mask).now = s.now ∧ (s.note off mask).cyc = s.cyc ∧
    (s.note off mask).seq = s.seq ∧ (s.note off mask).mode = s.mode ∧ (s.note off mask).origin = s.origin ∧
    (s.note off mask).ctl = s.ctl ∧ (s.note off mask).pwr = s.pwr ∧ (s.note off mask).boot = s.boot ∧
    (s.note off mask).regs = s.regs ∧ (s.note off mask).snaps = s.snaps ∧ (s.note off mask).rdata = s.rdata ∧
    (s.note off mask).poisoned = s.poisoned ∧ (s.note off mask).events = s.events ∧ (s.note off mask).evSeq = s.evSeq ∧
    (s.note off mask).grn = s.grn ∧ (s.note off mask).grnBad = s.grnBad ∧ (s.note off mask).eccWb = s.eccWb ∧
    (s.note off mask).portB = s.portB ∧ (s.note off mask).dmExt = s.dmExt ∧ (s.note off mask).engReads = s.engReads ∧
    (s.note off mask).eccCorrAt = s.eccCorrAt ∧ (s.note off mask).scrubWord = s.scrubWord ∧
    (s.note off mask).scrubCyc = s.scrubCyc ∧ (s.note off mask).hostMem = s.hostMem ∧ (s.note off mask).lanes = s.lanes ∧
    (s.note off mask).cells = s.cells ∧ (s.note off mask).arms = s.arms ∧ (s.note off mask).units = s.units ∧
    (s.note off mask).plan = s.plan ∧ (s.note off mask).pwm = s.pwm ∧ (s.note off mask).pwmIo = s.pwmIo ∧
    (s.note off mask).engines = s.engines ∧ (s.note off mask).pm = s.pm ∧ (s.note off mask).dm = s.dm ∧
    (s.note off mask).tasks = s.tasks ∧ (s.note off mask).sched = s.sched ∧ (s.note off mask).adc = s.adc ∧
    (s.note off mask).fr = s.fr ∧ (s.note off mask).saf = s.saf ∧ (s.note off mask).hif = s.hif ∧ (s.note off mask).tim = s.tim ∧
    (s.note off mask).can = s.can ∧ (s.note off mask).pair = s.pair ∧ (s.note off mask).undo = s.undo ∧
    (s.note off mask).freeCtr = s.freeCtr := by
  repeat' constructor

@[simp] theorem State.orF_keeps (s : State) (x : Fld) (m : Nat) :
    (s.orF x m).pending = s.pending ∧ (s.orF x m).now = s.now ∧ (s.orF x m).cyc = s.cyc ∧ (s.orF x m).seq = s.seq ∧
    (s.orF x m).mode = s.mode ∧ (s.orF x m).origin = s.origin ∧ (s.orF x m).ctl = s.ctl ∧ (s.orF x m).pwr = s.pwr ∧
    (s.orF x m).boot = s.boot ∧ (s.orF x m).snaps = s.snaps ∧ (s.orF x m).rdata = s.rdata ∧ (s.orF x m).poisoned = s.poisoned ∧
    (s.orF x m).events = s.events ∧ (s.orF x m).evSeq = s.evSeq ∧ (s.orF x m).grn = s.grn ∧ (s.orF x m).grnBad = s.grnBad ∧
    (s.orF x m).eccWb = s.eccWb ∧ (s.orF x m).portB = s.portB ∧ (s.orF x m).dmExt = s.dmExt ∧ (s.orF x m).engReads = s.engReads ∧
    (s.orF x m).eccCorrAt = s.eccCorrAt ∧ (s.orF x m).scrubWord = s.scrubWord ∧ (s.orF x m).scrubCyc = s.scrubCyc ∧
    (s.orF x m).hostMem = s.hostMem ∧ (s.orF x m).lanes = s.lanes ∧ (s.orF x m).cells = s.cells ∧ (s.orF x m).arms = s.arms ∧
    (s.orF x m).units = s.units ∧ (s.orF x m).plan = s.plan ∧ (s.orF x m).pwm = s.pwm ∧ (s.orF x m).pwmIo = s.pwmIo ∧
    (s.orF x m).engines = s.engines ∧ (s.orF x m).pm = s.pm ∧ (s.orF x m).dm = s.dm ∧ (s.orF x m).tasks = s.tasks ∧
    (s.orF x m).sched = s.sched ∧ (s.orF x m).adc = s.adc ∧ (s.orF x m).fr = s.fr ∧ (s.orF x m).saf = s.saf ∧
    (s.orF x m).hif = s.hif ∧ (s.orF x m).tim = s.tim ∧ (s.orF x m).can = s.can ∧ (s.orF x m).pair = s.pair ∧
    (s.orF x m).undo = s.undo ∧ (s.orF x m).freeCtr = s.freeCtr := by
  repeat' constructor

@[simp] theorem State.mark_keeps (s : State) (x : Fld) :
    (s.mark x).pending = s.pending ∧ (s.mark x).now = s.now ∧ (s.mark x).cyc = s.cyc ∧ (s.mark x).seq = s.seq ∧
    (s.mark x).mode = s.mode ∧ (s.mark x).origin = s.origin ∧ (s.mark x).ctl = s.ctl ∧ (s.mark x).pwr = s.pwr ∧
    (s.mark x).boot = s.boot ∧ (s.mark x).snaps = s.snaps ∧ (s.mark x).rdata = s.rdata ∧ (s.mark x).poisoned = s.poisoned ∧
    (s.mark x).events = s.events ∧ (s.mark x).evSeq = s.evSeq ∧ (s.mark x).grn = s.grn ∧ (s.mark x).grnBad = s.grnBad ∧
    (s.mark x).eccWb = s.eccWb ∧ (s.mark x).portB = s.portB ∧ (s.mark x).dmExt = s.dmExt ∧ (s.mark x).engReads = s.engReads ∧
    (s.mark x).eccCorrAt = s.eccCorrAt ∧ (s.mark x).scrubWord = s.scrubWord ∧ (s.mark x).scrubCyc = s.scrubCyc ∧
    (s.mark x).hostMem = s.hostMem ∧ (s.mark x).lanes = s.lanes ∧ (s.mark x).cells = s.cells ∧ (s.mark x).arms = s.arms ∧
    (s.mark x).units = s.units ∧ (s.mark x).plan = s.plan ∧ (s.mark x).pwm = s.pwm ∧ (s.mark x).pwmIo = s.pwmIo ∧
    (s.mark x).engines = s.engines ∧ (s.mark x).pm = s.pm ∧ (s.mark x).dm = s.dm ∧ (s.mark x).tasks = s.tasks ∧
    (s.mark x).sched = s.sched ∧ (s.mark x).adc = s.adc ∧ (s.mark x).fr = s.fr ∧ (s.mark x).saf = s.saf ∧
    (s.mark x).hif = s.hif ∧ (s.mark x).tim = s.tim ∧ (s.mark x).can = s.can ∧ (s.mark x).pair = s.pair ∧
    (s.mark x).undo = s.undo ∧ (s.mark x).freeCtr = s.freeCtr := by
  repeat' constructor

@[simp] theorem State.putRc_keeps (s : State) (x : Fld) (v : Nat) :
    (s.putRc x v).pending = s.pending ∧ (s.putRc x v).now = s.now ∧ (s.putRc x v).cyc = s.cyc ∧ (s.putRc x v).seq = s.seq ∧
    (s.putRc x v).mode = s.mode ∧ (s.putRc x v).origin = s.origin ∧ (s.putRc x v).ctl = s.ctl ∧ (s.putRc x v).pwr = s.pwr ∧
    (s.putRc x v).boot = s.boot ∧ (s.putRc x v).snaps = s.snaps ∧ (s.putRc x v).rdata = s.rdata ∧
    (s.putRc x v).poisoned = s.poisoned ∧ (s.putRc x v).events = s.events ∧ (s.putRc x v).evSeq = s.evSeq ∧
    (s.putRc x v).grn = s.grn ∧ (s.putRc x v).grnBad = s.grnBad ∧ (s.putRc x v).eccWb = s.eccWb ∧ (s.putRc x v).portB = s.portB ∧
    (s.putRc x v).dmExt = s.dmExt ∧ (s.putRc x v).engReads = s.engReads ∧ (s.putRc x v).eccCorrAt = s.eccCorrAt ∧
    (s.putRc x v).scrubWord = s.scrubWord ∧ (s.putRc x v).scrubCyc = s.scrubCyc ∧ (s.putRc x v).hostMem = s.hostMem ∧
    (s.putRc x v).lanes = s.lanes ∧ (s.putRc x v).cells = s.cells ∧ (s.putRc x v).arms = s.arms ∧ (s.putRc x v).units = s.units ∧
    (s.putRc x v).plan = s.plan ∧ (s.putRc x v).pwm = s.pwm ∧ (s.putRc x v).pwmIo = s.pwmIo ∧ (s.putRc x v).engines = s.engines ∧
    (s.putRc x v).pm = s.pm ∧ (s.putRc x v).dm = s.dm ∧ (s.putRc x v).tasks = s.tasks ∧ (s.putRc x v).sched = s.sched ∧
    (s.putRc x v).adc = s.adc ∧ (s.putRc x v).fr = s.fr ∧ (s.putRc x v).saf = s.saf ∧ (s.putRc x v).hif = s.hif ∧
    (s.putRc x v).tim = s.tim ∧ (s.putRc x v).can = s.can ∧ (s.putRc x v).pair = s.pair ∧ (s.putRc x v).undo = s.undo ∧
    (s.putRc x v).freeCtr = s.freeCtr := by
  repeat' constructor

@[simp] theorem State.bumpF_keeps (s : State) (x : Fld) (k : Nat) :
    (s.bumpF x k).pending = s.pending ∧ (s.bumpF x k).now = s.now ∧ (s.bumpF x k).cyc = s.cyc ∧ (s.bumpF x k).seq = s.seq ∧
    (s.bumpF x k).mode = s.mode ∧ (s.bumpF x k).origin = s.origin ∧ (s.bumpF x k).ctl = s.ctl ∧ (s.bumpF x k).pwr = s.pwr ∧
    (s.bumpF x k).boot = s.boot ∧ (s.bumpF x k).snaps = s.snaps ∧ (s.bumpF x k).rdata = s.rdata ∧
    (s.bumpF x k).poisoned = s.poisoned ∧ (s.bumpF x k).events = s.events ∧ (s.bumpF x k).evSeq = s.evSeq ∧
    (s.bumpF x k).grn = s.grn ∧ (s.bumpF x k).grnBad = s.grnBad ∧ (s.bumpF x k).eccWb = s.eccWb ∧ (s.bumpF x k).portB = s.portB ∧
    (s.bumpF x k).dmExt = s.dmExt ∧ (s.bumpF x k).engReads = s.engReads ∧ (s.bumpF x k).eccCorrAt = s.eccCorrAt ∧
    (s.bumpF x k).scrubWord = s.scrubWord ∧ (s.bumpF x k).scrubCyc = s.scrubCyc ∧ (s.bumpF x k).hostMem = s.hostMem ∧
    (s.bumpF x k).lanes = s.lanes ∧ (s.bumpF x k).cells = s.cells ∧ (s.bumpF x k).arms = s.arms ∧ (s.bumpF x k).units = s.units ∧
    (s.bumpF x k).plan = s.plan ∧ (s.bumpF x k).pwm = s.pwm ∧ (s.bumpF x k).pwmIo = s.pwmIo ∧ (s.bumpF x k).engines = s.engines ∧
    (s.bumpF x k).pm = s.pm ∧ (s.bumpF x k).dm = s.dm ∧ (s.bumpF x k).tasks = s.tasks ∧ (s.bumpF x k).sched = s.sched ∧
    (s.bumpF x k).adc = s.adc ∧ (s.bumpF x k).fr = s.fr ∧ (s.bumpF x k).saf = s.saf ∧ (s.bumpF x k).hif = s.hif ∧
    (s.bumpF x k).tim = s.tim ∧ (s.bumpF x k).can = s.can ∧ (s.bumpF x k).pair = s.pair ∧ (s.bumpF x k).undo = s.undo ∧
    (s.bumpF x k).freeCtr = s.freeCtr := by
  repeat' constructor

@[simp] theorem State.clearBits_keeps (s : State) (off hi lo m : Nat) :
    (s.clearBits off hi lo m).pending = s.pending ∧ (s.clearBits off hi lo m).now = s.now ∧
    (s.clearBits off hi lo m).cyc = s.cyc ∧ (s.clearBits off hi lo m).just = s.just ∧
    (s.clearBits off hi lo m).justAt = s.justAt ∧ (s.clearBits off hi lo m).seq = s.seq ∧
    (s.clearBits off hi lo m).mode = s.mode ∧ (s.clearBits off hi lo m).origin = s.origin ∧
    (s.clearBits off hi lo m).ctl = s.ctl ∧ (s.clearBits off hi lo m).pwr = s.pwr ∧ (s.clearBits off hi lo m).boot = s.boot ∧
    (s.clearBits off hi lo m).snaps = s.snaps ∧ (s.clearBits off hi lo m).rdata = s.rdata ∧
    (s.clearBits off hi lo m).poisoned = s.poisoned ∧ (s.clearBits off hi lo m).events = s.events ∧
    (s.clearBits off hi lo m).evSeq = s.evSeq ∧ (s.clearBits off hi lo m).grn = s.grn ∧
    (s.clearBits off hi lo m).grnBad = s.grnBad ∧ (s.clearBits off hi lo m).eccWb = s.eccWb ∧
    (s.clearBits off hi lo m).portB = s.portB ∧ (s.clearBits off hi lo m).dmExt = s.dmExt ∧
    (s.clearBits off hi lo m).engReads = s.engReads ∧ (s.clearBits off hi lo m).eccCorrAt = s.eccCorrAt ∧
    (s.clearBits off hi lo m).scrubWord = s.scrubWord ∧ (s.clearBits off hi lo m).scrubCyc = s.scrubCyc ∧
    (s.clearBits off hi lo m).hostMem = s.hostMem ∧ (s.clearBits off hi lo m).lanes = s.lanes ∧
    (s.clearBits off hi lo m).cells = s.cells ∧ (s.clearBits off hi lo m).arms = s.arms ∧
    (s.clearBits off hi lo m).units = s.units ∧ (s.clearBits off hi lo m).plan = s.plan ∧ (s.clearBits off hi lo m).pwm = s.pwm ∧
    (s.clearBits off hi lo m).pwmIo = s.pwmIo ∧ (s.clearBits off hi lo m).engines = s.engines ∧
    (s.clearBits off hi lo m).pm = s.pm ∧ (s.clearBits off hi lo m).dm = s.dm ∧ (s.clearBits off hi lo m).tasks = s.tasks ∧
    (s.clearBits off hi lo m).sched = s.sched ∧ (s.clearBits off hi lo m).adc = s.adc ∧ (s.clearBits off hi lo m).fr = s.fr ∧
    (s.clearBits off hi lo m).saf = s.saf ∧ (s.clearBits off hi lo m).hif = s.hif ∧ (s.clearBits off hi lo m).tim = s.tim ∧
    (s.clearBits off hi lo m).can = s.can ∧ (s.clearBits off hi lo m).pair = s.pair ∧ (s.clearBits off hi lo m).undo = s.undo ∧
    (s.clearBits off hi lo m).freeCtr = s.freeCtr := by
  repeat' constructor

@[simp] theorem State.modLane_keeps (s : State) (l : Nat) (g : Lane → Lane) :
    (s.modLane l g).pending = s.pending ∧ (s.modLane l g).now = s.now ∧ (s.modLane l g).cyc = s.cyc ∧
    (s.modLane l g).just = s.just ∧ (s.modLane l g).justAt = s.justAt ∧ (s.modLane l g).seq = s.seq ∧
    (s.modLane l g).mode = s.mode ∧ (s.modLane l g).origin = s.origin ∧ (s.modLane l g).ctl = s.ctl ∧
    (s.modLane l g).pwr = s.pwr ∧ (s.modLane l g).boot = s.boot ∧ (s.modLane l g).regs = s.regs ∧
    (s.modLane l g).snaps = s.snaps ∧ (s.modLane l g).rdata = s.rdata ∧ (s.modLane l g).poisoned = s.poisoned ∧
    (s.modLane l g).events = s.events ∧ (s.modLane l g).evSeq = s.evSeq ∧ (s.modLane l g).grn = s.grn ∧
    (s.modLane l g).grnBad = s.grnBad ∧ (s.modLane l g).eccWb = s.eccWb ∧ (s.modLane l g).portB = s.portB ∧
    (s.modLane l g).dmExt = s.dmExt ∧ (s.modLane l g).engReads = s.engReads ∧ (s.modLane l g).eccCorrAt = s.eccCorrAt ∧
    (s.modLane l g).scrubWord = s.scrubWord ∧ (s.modLane l g).scrubCyc = s.scrubCyc ∧ (s.modLane l g).hostMem = s.hostMem ∧
    (s.modLane l g).cells = s.cells ∧ (s.modLane l g).arms = s.arms ∧ (s.modLane l g).units = s.units ∧
    (s.modLane l g).plan = s.plan ∧ (s.modLane l g).pwm = s.pwm ∧ (s.modLane l g).pwmIo = s.pwmIo ∧
    (s.modLane l g).engines = s.engines ∧ (s.modLane l g).pm = s.pm ∧ (s.modLane l g).dm = s.dm ∧
    (s.modLane l g).tasks = s.tasks ∧ (s.modLane l g).sched = s.sched ∧ (s.modLane l g).adc = s.adc ∧ (s.modLane l g).fr = s.fr ∧
    (s.modLane l g).saf = s.saf ∧ (s.modLane l g).hif = s.hif ∧ (s.modLane l g).tim = s.tim ∧ (s.modLane l g).can = s.can ∧
    (s.modLane l g).pair = s.pair ∧ (s.modLane l g).undo = s.undo ∧ (s.modLane l g).freeCtr = s.freeCtr := by
  repeat' constructor

@[simp] theorem State.modCell_keeps (s : State) (c : Nat) (g : Cell → Cell) :
    (s.modCell c g).pending = s.pending ∧ (s.modCell c g).now = s.now ∧ (s.modCell c g).cyc = s.cyc ∧
    (s.modCell c g).just = s.just ∧ (s.modCell c g).justAt = s.justAt ∧ (s.modCell c g).seq = s.seq ∧
    (s.modCell c g).mode = s.mode ∧ (s.modCell c g).origin = s.origin ∧ (s.modCell c g).ctl = s.ctl ∧
    (s.modCell c g).pwr = s.pwr ∧ (s.modCell c g).boot = s.boot ∧ (s.modCell c g).regs = s.regs ∧
    (s.modCell c g).snaps = s.snaps ∧ (s.modCell c g).rdata = s.rdata ∧ (s.modCell c g).poisoned = s.poisoned ∧
    (s.modCell c g).events = s.events ∧ (s.modCell c g).evSeq = s.evSeq ∧ (s.modCell c g).grn = s.grn ∧
    (s.modCell c g).grnBad = s.grnBad ∧ (s.modCell c g).eccWb = s.eccWb ∧ (s.modCell c g).portB = s.portB ∧
    (s.modCell c g).dmExt = s.dmExt ∧ (s.modCell c g).engReads = s.engReads ∧ (s.modCell c g).eccCorrAt = s.eccCorrAt ∧
    (s.modCell c g).scrubWord = s.scrubWord ∧ (s.modCell c g).scrubCyc = s.scrubCyc ∧ (s.modCell c g).hostMem = s.hostMem ∧
    (s.modCell c g).lanes = s.lanes ∧ (s.modCell c g).arms = s.arms ∧ (s.modCell c g).units = s.units ∧
    (s.modCell c g).plan = s.plan ∧ (s.modCell c g).pwm = s.pwm ∧ (s.modCell c g).pwmIo = s.pwmIo ∧
    (s.modCell c g).engines = s.engines ∧ (s.modCell c g).pm = s.pm ∧ (s.modCell c g).dm = s.dm ∧
    (s.modCell c g).tasks = s.tasks ∧ (s.modCell c g).sched = s.sched ∧ (s.modCell c g).adc = s.adc ∧ (s.modCell c g).fr = s.fr ∧
    (s.modCell c g).saf = s.saf ∧ (s.modCell c g).hif = s.hif ∧ (s.modCell c g).tim = s.tim ∧ (s.modCell c g).can = s.can ∧
    (s.modCell c g).pair = s.pair ∧ (s.modCell c g).undo = s.undo ∧ (s.modCell c g).freeCtr = s.freeCtr := by
  repeat' constructor

@[simp] theorem State.modArm_keeps (s : State) (a : Nat) (g : Arm → Arm) :
    (s.modArm a g).pending = s.pending ∧ (s.modArm a g).now = s.now ∧ (s.modArm a g).cyc = s.cyc ∧ (s.modArm a g).just = s.just ∧
    (s.modArm a g).justAt = s.justAt ∧ (s.modArm a g).seq = s.seq ∧ (s.modArm a g).mode = s.mode ∧
    (s.modArm a g).origin = s.origin ∧ (s.modArm a g).ctl = s.ctl ∧ (s.modArm a g).pwr = s.pwr ∧ (s.modArm a g).boot = s.boot ∧
    (s.modArm a g).regs = s.regs ∧ (s.modArm a g).snaps = s.snaps ∧ (s.modArm a g).rdata = s.rdata ∧
    (s.modArm a g).poisoned = s.poisoned ∧ (s.modArm a g).events = s.events ∧ (s.modArm a g).evSeq = s.evSeq ∧
    (s.modArm a g).grn = s.grn ∧ (s.modArm a g).grnBad = s.grnBad ∧ (s.modArm a g).eccWb = s.eccWb ∧
    (s.modArm a g).portB = s.portB ∧ (s.modArm a g).dmExt = s.dmExt ∧ (s.modArm a g).engReads = s.engReads ∧
    (s.modArm a g).eccCorrAt = s.eccCorrAt ∧ (s.modArm a g).scrubWord = s.scrubWord ∧ (s.modArm a g).scrubCyc = s.scrubCyc ∧
    (s.modArm a g).hostMem = s.hostMem ∧ (s.modArm a g).lanes = s.lanes ∧ (s.modArm a g).cells = s.cells ∧
    (s.modArm a g).units = s.units ∧ (s.modArm a g).plan = s.plan ∧ (s.modArm a g).pwm = s.pwm ∧ (s.modArm a g).pwmIo = s.pwmIo ∧
    (s.modArm a g).engines = s.engines ∧ (s.modArm a g).pm = s.pm ∧ (s.modArm a g).dm = s.dm ∧ (s.modArm a g).tasks = s.tasks ∧
    (s.modArm a g).sched = s.sched ∧ (s.modArm a g).adc = s.adc ∧ (s.modArm a g).fr = s.fr ∧ (s.modArm a g).saf = s.saf ∧
    (s.modArm a g).hif = s.hif ∧ (s.modArm a g).tim = s.tim ∧ (s.modArm a g).can = s.can ∧ (s.modArm a g).pair = s.pair ∧
    (s.modArm a g).undo = s.undo ∧ (s.modArm a g).freeCtr = s.freeCtr := by
  repeat' constructor

@[simp] theorem State.modUnit_keeps (s : State) (u : Nat) (g : WinUnit → WinUnit) :
    (s.modUnit u g).pending = s.pending ∧ (s.modUnit u g).now = s.now ∧ (s.modUnit u g).cyc = s.cyc ∧
    (s.modUnit u g).just = s.just ∧ (s.modUnit u g).justAt = s.justAt ∧ (s.modUnit u g).seq = s.seq ∧
    (s.modUnit u g).mode = s.mode ∧ (s.modUnit u g).origin = s.origin ∧ (s.modUnit u g).ctl = s.ctl ∧
    (s.modUnit u g).pwr = s.pwr ∧ (s.modUnit u g).boot = s.boot ∧ (s.modUnit u g).regs = s.regs ∧
    (s.modUnit u g).snaps = s.snaps ∧ (s.modUnit u g).rdata = s.rdata ∧ (s.modUnit u g).poisoned = s.poisoned ∧
    (s.modUnit u g).events = s.events ∧ (s.modUnit u g).evSeq = s.evSeq ∧ (s.modUnit u g).grn = s.grn ∧
    (s.modUnit u g).grnBad = s.grnBad ∧ (s.modUnit u g).eccWb = s.eccWb ∧ (s.modUnit u g).portB = s.portB ∧
    (s.modUnit u g).dmExt = s.dmExt ∧ (s.modUnit u g).engReads = s.engReads ∧ (s.modUnit u g).eccCorrAt = s.eccCorrAt ∧
    (s.modUnit u g).scrubWord = s.scrubWord ∧ (s.modUnit u g).scrubCyc = s.scrubCyc ∧ (s.modUnit u g).hostMem = s.hostMem ∧
    (s.modUnit u g).lanes = s.lanes ∧ (s.modUnit u g).cells = s.cells ∧ (s.modUnit u g).arms = s.arms ∧
    (s.modUnit u g).plan = s.plan ∧ (s.modUnit u g).pwm = s.pwm ∧ (s.modUnit u g).pwmIo = s.pwmIo ∧
    (s.modUnit u g).engines = s.engines ∧ (s.modUnit u g).pm = s.pm ∧ (s.modUnit u g).dm = s.dm ∧
    (s.modUnit u g).tasks = s.tasks ∧ (s.modUnit u g).sched = s.sched ∧ (s.modUnit u g).adc = s.adc ∧ (s.modUnit u g).fr = s.fr ∧
    (s.modUnit u g).saf = s.saf ∧ (s.modUnit u g).hif = s.hif ∧ (s.modUnit u g).tim = s.tim ∧ (s.modUnit u g).can = s.can ∧
    (s.modUnit u g).pair = s.pair ∧ (s.modUnit u g).undo = s.undo ∧ (s.modUnit u g).freeCtr = s.freeCtr := by
  repeat' constructor

@[simp] theorem State.modPwm_keeps (s : State) (c : Nat) (g : Pwm → Pwm) :
    (s.modPwm c g).pending = s.pending ∧ (s.modPwm c g).now = s.now ∧ (s.modPwm c g).cyc = s.cyc ∧ (s.modPwm c g).just = s.just ∧
    (s.modPwm c g).justAt = s.justAt ∧ (s.modPwm c g).seq = s.seq ∧ (s.modPwm c g).mode = s.mode ∧
    (s.modPwm c g).origin = s.origin ∧ (s.modPwm c g).ctl = s.ctl ∧ (s.modPwm c g).pwr = s.pwr ∧ (s.modPwm c g).boot = s.boot ∧
    (s.modPwm c g).regs = s.regs ∧ (s.modPwm c g).snaps = s.snaps ∧ (s.modPwm c g).rdata = s.rdata ∧
    (s.modPwm c g).poisoned = s.poisoned ∧ (s.modPwm c g).events = s.events ∧ (s.modPwm c g).evSeq = s.evSeq ∧
    (s.modPwm c g).grn = s.grn ∧ (s.modPwm c g).grnBad = s.grnBad ∧ (s.modPwm c g).eccWb = s.eccWb ∧
    (s.modPwm c g).portB = s.portB ∧ (s.modPwm c g).dmExt = s.dmExt ∧ (s.modPwm c g).engReads = s.engReads ∧
    (s.modPwm c g).eccCorrAt = s.eccCorrAt ∧ (s.modPwm c g).scrubWord = s.scrubWord ∧ (s.modPwm c g).scrubCyc = s.scrubCyc ∧
    (s.modPwm c g).hostMem = s.hostMem ∧ (s.modPwm c g).lanes = s.lanes ∧ (s.modPwm c g).cells = s.cells ∧
    (s.modPwm c g).arms = s.arms ∧ (s.modPwm c g).units = s.units ∧ (s.modPwm c g).plan = s.plan ∧
    (s.modPwm c g).pwmIo = s.pwmIo ∧ (s.modPwm c g).engines = s.engines ∧ (s.modPwm c g).pm = s.pm ∧ (s.modPwm c g).dm = s.dm ∧
    (s.modPwm c g).tasks = s.tasks ∧ (s.modPwm c g).sched = s.sched ∧ (s.modPwm c g).adc = s.adc ∧ (s.modPwm c g).fr = s.fr ∧
    (s.modPwm c g).saf = s.saf ∧ (s.modPwm c g).hif = s.hif ∧ (s.modPwm c g).tim = s.tim ∧ (s.modPwm c g).can = s.can ∧
    (s.modPwm c g).pair = s.pair ∧ (s.modPwm c g).undo = s.undo ∧ (s.modPwm c g).freeCtr = s.freeCtr := by
  repeat' constructor

@[simp] theorem State.modCan_keeps (s : State) (k : Nat) (g : Can → Can) :
    (s.modCan k g).pending = s.pending ∧ (s.modCan k g).now = s.now ∧ (s.modCan k g).cyc = s.cyc ∧ (s.modCan k g).just = s.just ∧
    (s.modCan k g).justAt = s.justAt ∧ (s.modCan k g).seq = s.seq ∧ (s.modCan k g).mode = s.mode ∧
    (s.modCan k g).origin = s.origin ∧ (s.modCan k g).ctl = s.ctl ∧ (s.modCan k g).pwr = s.pwr ∧ (s.modCan k g).boot = s.boot ∧
    (s.modCan k g).regs = s.regs ∧ (s.modCan k g).snaps = s.snaps ∧ (s.modCan k g).rdata = s.rdata ∧
    (s.modCan k g).poisoned = s.poisoned ∧ (s.modCan k g).events = s.events ∧ (s.modCan k g).evSeq = s.evSeq ∧
    (s.modCan k g).grn = s.grn ∧ (s.modCan k g).grnBad = s.grnBad ∧ (s.modCan k g).eccWb = s.eccWb ∧
    (s.modCan k g).portB = s.portB ∧ (s.modCan k g).dmExt = s.dmExt ∧ (s.modCan k g).engReads = s.engReads ∧
    (s.modCan k g).eccCorrAt = s.eccCorrAt ∧ (s.modCan k g).scrubWord = s.scrubWord ∧ (s.modCan k g).scrubCyc = s.scrubCyc ∧
    (s.modCan k g).hostMem = s.hostMem ∧ (s.modCan k g).lanes = s.lanes ∧ (s.modCan k g).cells = s.cells ∧
    (s.modCan k g).arms = s.arms ∧ (s.modCan k g).units = s.units ∧ (s.modCan k g).plan = s.plan ∧ (s.modCan k g).pwm = s.pwm ∧
    (s.modCan k g).pwmIo = s.pwmIo ∧ (s.modCan k g).engines = s.engines ∧ (s.modCan k g).pm = s.pm ∧ (s.modCan k g).dm = s.dm ∧
    (s.modCan k g).tasks = s.tasks ∧ (s.modCan k g).sched = s.sched ∧ (s.modCan k g).adc = s.adc ∧ (s.modCan k g).fr = s.fr ∧
    (s.modCan k g).saf = s.saf ∧ (s.modCan k g).hif = s.hif ∧ (s.modCan k g).tim = s.tim ∧ (s.modCan k g).pair = s.pair ∧
    (s.modCan k g).undo = s.undo ∧ (s.modCan k g).freeCtr = s.freeCtr := by
  repeat' constructor

@[simp] theorem State.modEng_keeps (s : State) (e : Nat) (g : Engine → Engine) :
    (s.modEng e g).pending = s.pending ∧ (s.modEng e g).now = s.now ∧ (s.modEng e g).cyc = s.cyc ∧ (s.modEng e g).just = s.just ∧
    (s.modEng e g).justAt = s.justAt ∧ (s.modEng e g).seq = s.seq ∧ (s.modEng e g).mode = s.mode ∧
    (s.modEng e g).origin = s.origin ∧ (s.modEng e g).ctl = s.ctl ∧ (s.modEng e g).pwr = s.pwr ∧ (s.modEng e g).boot = s.boot ∧
    (s.modEng e g).regs = s.regs ∧ (s.modEng e g).snaps = s.snaps ∧ (s.modEng e g).rdata = s.rdata ∧
    (s.modEng e g).poisoned = s.poisoned ∧ (s.modEng e g).events = s.events ∧ (s.modEng e g).evSeq = s.evSeq ∧
    (s.modEng e g).grn = s.grn ∧ (s.modEng e g).grnBad = s.grnBad ∧ (s.modEng e g).eccWb = s.eccWb ∧
    (s.modEng e g).portB = s.portB ∧ (s.modEng e g).dmExt = s.dmExt ∧ (s.modEng e g).engReads = s.engReads ∧
    (s.modEng e g).eccCorrAt = s.eccCorrAt ∧ (s.modEng e g).scrubWord = s.scrubWord ∧ (s.modEng e g).scrubCyc = s.scrubCyc ∧
    (s.modEng e g).hostMem = s.hostMem ∧ (s.modEng e g).lanes = s.lanes ∧ (s.modEng e g).cells = s.cells ∧
    (s.modEng e g).arms = s.arms ∧ (s.modEng e g).units = s.units ∧ (s.modEng e g).plan = s.plan ∧ (s.modEng e g).pwm = s.pwm ∧
    (s.modEng e g).pwmIo = s.pwmIo ∧ (s.modEng e g).pm = s.pm ∧ (s.modEng e g).dm = s.dm ∧ (s.modEng e g).tasks = s.tasks ∧
    (s.modEng e g).sched = s.sched ∧ (s.modEng e g).adc = s.adc ∧ (s.modEng e g).fr = s.fr ∧ (s.modEng e g).saf = s.saf ∧
    (s.modEng e g).hif = s.hif ∧ (s.modEng e g).tim = s.tim ∧ (s.modEng e g).can = s.can ∧ (s.modEng e g).pair = s.pair ∧
    (s.modEng e g).undo = s.undo ∧ (s.modEng e g).freeCtr = s.freeCtr := by
  repeat' constructor

@[simp] theorem State.modTask_keeps (s : State) (tc : Nat) (g : Task → Task) :
    (s.modTask tc g).pending = s.pending ∧ (s.modTask tc g).now = s.now ∧ (s.modTask tc g).cyc = s.cyc ∧
    (s.modTask tc g).just = s.just ∧ (s.modTask tc g).justAt = s.justAt ∧ (s.modTask tc g).seq = s.seq ∧
    (s.modTask tc g).mode = s.mode ∧ (s.modTask tc g).origin = s.origin ∧ (s.modTask tc g).ctl = s.ctl ∧
    (s.modTask tc g).pwr = s.pwr ∧ (s.modTask tc g).boot = s.boot ∧ (s.modTask tc g).regs = s.regs ∧
    (s.modTask tc g).snaps = s.snaps ∧ (s.modTask tc g).rdata = s.rdata ∧ (s.modTask tc g).poisoned = s.poisoned ∧
    (s.modTask tc g).events = s.events ∧ (s.modTask tc g).evSeq = s.evSeq ∧ (s.modTask tc g).grn = s.grn ∧
    (s.modTask tc g).grnBad = s.grnBad ∧ (s.modTask tc g).eccWb = s.eccWb ∧ (s.modTask tc g).portB = s.portB ∧
    (s.modTask tc g).dmExt = s.dmExt ∧ (s.modTask tc g).engReads = s.engReads ∧ (s.modTask tc g).eccCorrAt = s.eccCorrAt ∧
    (s.modTask tc g).scrubWord = s.scrubWord ∧ (s.modTask tc g).scrubCyc = s.scrubCyc ∧ (s.modTask tc g).hostMem = s.hostMem ∧
    (s.modTask tc g).lanes = s.lanes ∧ (s.modTask tc g).cells = s.cells ∧ (s.modTask tc g).arms = s.arms ∧
    (s.modTask tc g).units = s.units ∧ (s.modTask tc g).plan = s.plan ∧ (s.modTask tc g).pwm = s.pwm ∧
    (s.modTask tc g).pwmIo = s.pwmIo ∧ (s.modTask tc g).engines = s.engines ∧ (s.modTask tc g).pm = s.pm ∧
    (s.modTask tc g).dm = s.dm ∧ (s.modTask tc g).sched = s.sched ∧ (s.modTask tc g).adc = s.adc ∧ (s.modTask tc g).fr = s.fr ∧
    (s.modTask tc g).saf = s.saf ∧ (s.modTask tc g).hif = s.hif ∧ (s.modTask tc g).tim = s.tim ∧ (s.modTask tc g).can = s.can ∧
    (s.modTask tc g).pair = s.pair ∧ (s.modTask tc g).undo = s.undo ∧ (s.modTask tc g).freeCtr = s.freeCtr := by
  repeat' constructor

@[simp] theorem State.modSlice_keeps (s : State) (k : Nat) (g : AdcSlice → AdcSlice) :
    (s.modSlice k g).pending = s.pending ∧ (s.modSlice k g).now = s.now ∧ (s.modSlice k g).cyc = s.cyc ∧
    (s.modSlice k g).just = s.just ∧ (s.modSlice k g).justAt = s.justAt ∧ (s.modSlice k g).seq = s.seq ∧
    (s.modSlice k g).mode = s.mode ∧ (s.modSlice k g).origin = s.origin ∧ (s.modSlice k g).ctl = s.ctl ∧
    (s.modSlice k g).pwr = s.pwr ∧ (s.modSlice k g).boot = s.boot ∧ (s.modSlice k g).regs = s.regs ∧
    (s.modSlice k g).snaps = s.snaps ∧ (s.modSlice k g).rdata = s.rdata ∧ (s.modSlice k g).poisoned = s.poisoned ∧
    (s.modSlice k g).events = s.events ∧ (s.modSlice k g).evSeq = s.evSeq ∧ (s.modSlice k g).grn = s.grn ∧
    (s.modSlice k g).grnBad = s.grnBad ∧ (s.modSlice k g).eccWb = s.eccWb ∧ (s.modSlice k g).portB = s.portB ∧
    (s.modSlice k g).dmExt = s.dmExt ∧ (s.modSlice k g).engReads = s.engReads ∧ (s.modSlice k g).eccCorrAt = s.eccCorrAt ∧
    (s.modSlice k g).scrubWord = s.scrubWord ∧ (s.modSlice k g).scrubCyc = s.scrubCyc ∧ (s.modSlice k g).hostMem = s.hostMem ∧
    (s.modSlice k g).lanes = s.lanes ∧ (s.modSlice k g).cells = s.cells ∧ (s.modSlice k g).arms = s.arms ∧
    (s.modSlice k g).units = s.units ∧ (s.modSlice k g).plan = s.plan ∧ (s.modSlice k g).pwm = s.pwm ∧
    (s.modSlice k g).pwmIo = s.pwmIo ∧ (s.modSlice k g).engines = s.engines ∧ (s.modSlice k g).pm = s.pm ∧
    (s.modSlice k g).dm = s.dm ∧ (s.modSlice k g).tasks = s.tasks ∧ (s.modSlice k g).sched = s.sched ∧
    (s.modSlice k g).fr = s.fr ∧ (s.modSlice k g).saf = s.saf ∧ (s.modSlice k g).hif = s.hif ∧ (s.modSlice k g).tim = s.tim ∧
    (s.modSlice k g).can = s.can ∧ (s.modSlice k g).pair = s.pair ∧ (s.modSlice k g).undo = s.undo ∧
    (s.modSlice k g).freeCtr = s.freeCtr := by
  repeat' constructor

@[simp] theorem State.modSilo_keeps (s : State) (k : Nat) (g : Silo → Silo) :
    (s.modSilo k g).pending = s.pending ∧ (s.modSilo k g).now = s.now ∧ (s.modSilo k g).cyc = s.cyc ∧
    (s.modSilo k g).just = s.just ∧ (s.modSilo k g).justAt = s.justAt ∧ (s.modSilo k g).seq = s.seq ∧
    (s.modSilo k g).mode = s.mode ∧ (s.modSilo k g).origin = s.origin ∧ (s.modSilo k g).ctl = s.ctl ∧
    (s.modSilo k g).pwr = s.pwr ∧ (s.modSilo k g).boot = s.boot ∧ (s.modSilo k g).regs = s.regs ∧
    (s.modSilo k g).snaps = s.snaps ∧ (s.modSilo k g).rdata = s.rdata ∧ (s.modSilo k g).poisoned = s.poisoned ∧
    (s.modSilo k g).events = s.events ∧ (s.modSilo k g).evSeq = s.evSeq ∧ (s.modSilo k g).grn = s.grn ∧
    (s.modSilo k g).grnBad = s.grnBad ∧ (s.modSilo k g).eccWb = s.eccWb ∧ (s.modSilo k g).portB = s.portB ∧
    (s.modSilo k g).dmExt = s.dmExt ∧ (s.modSilo k g).engReads = s.engReads ∧ (s.modSilo k g).eccCorrAt = s.eccCorrAt ∧
    (s.modSilo k g).scrubWord = s.scrubWord ∧ (s.modSilo k g).scrubCyc = s.scrubCyc ∧ (s.modSilo k g).hostMem = s.hostMem ∧
    (s.modSilo k g).lanes = s.lanes ∧ (s.modSilo k g).cells = s.cells ∧ (s.modSilo k g).arms = s.arms ∧
    (s.modSilo k g).units = s.units ∧ (s.modSilo k g).plan = s.plan ∧ (s.modSilo k g).pwm = s.pwm ∧
    (s.modSilo k g).pwmIo = s.pwmIo ∧ (s.modSilo k g).engines = s.engines ∧ (s.modSilo k g).pm = s.pm ∧
    (s.modSilo k g).dm = s.dm ∧ (s.modSilo k g).tasks = s.tasks ∧ (s.modSilo k g).sched = s.sched ∧ (s.modSilo k g).adc = s.adc ∧
    (s.modSilo k g).saf = s.saf ∧ (s.modSilo k g).hif = s.hif ∧ (s.modSilo k g).tim = s.tim ∧ (s.modSilo k g).can = s.can ∧
    (s.modSilo k g).pair = s.pair ∧ (s.modSilo k g).undo = s.undo ∧ (s.modSilo k g).freeCtr = s.freeCtr := by
  repeat' constructor

@[simp] theorem State.modPair_keeps (s : State) (g : Pair → Pair) :
    (s.modPair g).pending = s.pending ∧ (s.modPair g).now = s.now ∧ (s.modPair g).cyc = s.cyc ∧ (s.modPair g).just = s.just ∧
    (s.modPair g).justAt = s.justAt ∧ (s.modPair g).seq = s.seq ∧ (s.modPair g).mode = s.mode ∧ (s.modPair g).origin = s.origin ∧
    (s.modPair g).ctl = s.ctl ∧ (s.modPair g).pwr = s.pwr ∧ (s.modPair g).boot = s.boot ∧ (s.modPair g).regs = s.regs ∧
    (s.modPair g).snaps = s.snaps ∧ (s.modPair g).rdata = s.rdata ∧ (s.modPair g).poisoned = s.poisoned ∧
    (s.modPair g).events = s.events ∧ (s.modPair g).evSeq = s.evSeq ∧ (s.modPair g).grn = s.grn ∧
    (s.modPair g).grnBad = s.grnBad ∧ (s.modPair g).eccWb = s.eccWb ∧ (s.modPair g).portB = s.portB ∧
    (s.modPair g).dmExt = s.dmExt ∧ (s.modPair g).engReads = s.engReads ∧ (s.modPair g).eccCorrAt = s.eccCorrAt ∧
    (s.modPair g).scrubWord = s.scrubWord ∧ (s.modPair g).scrubCyc = s.scrubCyc ∧ (s.modPair g).hostMem = s.hostMem ∧
    (s.modPair g).lanes = s.lanes ∧ (s.modPair g).cells = s.cells ∧ (s.modPair g).arms = s.arms ∧ (s.modPair g).units = s.units ∧
    (s.modPair g).plan = s.plan ∧ (s.modPair g).pwm = s.pwm ∧ (s.modPair g).pwmIo = s.pwmIo ∧ (s.modPair g).engines = s.engines ∧
    (s.modPair g).pm = s.pm ∧ (s.modPair g).dm = s.dm ∧ (s.modPair g).tasks = s.tasks ∧ (s.modPair g).sched = s.sched ∧
    (s.modPair g).adc = s.adc ∧ (s.modPair g).fr = s.fr ∧ (s.modPair g).saf = s.saf ∧ (s.modPair g).hif = s.hif ∧
    (s.modPair g).tim = s.tim ∧ (s.modPair g).can = s.can ∧ (s.modPair g).undo = s.undo ∧ (s.modPair g).freeCtr = s.freeCtr := by
  repeat' constructor

@[simp] theorem State.modHif_keeps (s : State) (g : Hif → Hif) :
    (s.modHif g).pending = s.pending ∧ (s.modHif g).now = s.now ∧ (s.modHif g).cyc = s.cyc ∧ (s.modHif g).just = s.just ∧
    (s.modHif g).justAt = s.justAt ∧ (s.modHif g).seq = s.seq ∧ (s.modHif g).mode = s.mode ∧ (s.modHif g).origin = s.origin ∧
    (s.modHif g).ctl = s.ctl ∧ (s.modHif g).pwr = s.pwr ∧ (s.modHif g).boot = s.boot ∧ (s.modHif g).regs = s.regs ∧
    (s.modHif g).snaps = s.snaps ∧ (s.modHif g).rdata = s.rdata ∧ (s.modHif g).poisoned = s.poisoned ∧
    (s.modHif g).events = s.events ∧ (s.modHif g).evSeq = s.evSeq ∧ (s.modHif g).grn = s.grn ∧ (s.modHif g).grnBad = s.grnBad ∧
    (s.modHif g).eccWb = s.eccWb ∧ (s.modHif g).portB = s.portB ∧ (s.modHif g).dmExt = s.dmExt ∧
    (s.modHif g).engReads = s.engReads ∧ (s.modHif g).eccCorrAt = s.eccCorrAt ∧ (s.modHif g).scrubWord = s.scrubWord ∧
    (s.modHif g).scrubCyc = s.scrubCyc ∧ (s.modHif g).hostMem = s.hostMem ∧ (s.modHif g).lanes = s.lanes ∧
    (s.modHif g).cells = s.cells ∧ (s.modHif g).arms = s.arms ∧ (s.modHif g).units = s.units ∧ (s.modHif g).plan = s.plan ∧
    (s.modHif g).pwm = s.pwm ∧ (s.modHif g).pwmIo = s.pwmIo ∧ (s.modHif g).engines = s.engines ∧ (s.modHif g).pm = s.pm ∧
    (s.modHif g).dm = s.dm ∧ (s.modHif g).tasks = s.tasks ∧ (s.modHif g).sched = s.sched ∧ (s.modHif g).adc = s.adc ∧
    (s.modHif g).fr = s.fr ∧ (s.modHif g).saf = s.saf ∧ (s.modHif g).tim = s.tim ∧ (s.modHif g).can = s.can ∧
    (s.modHif g).pair = s.pair ∧ (s.modHif g).undo = s.undo ∧ (s.modHif g).freeCtr = s.freeCtr := by
  repeat' constructor

@[simp] theorem State.modTim_keeps (s : State) (g : Tim → Tim) :
    (s.modTim g).pending = s.pending ∧ (s.modTim g).now = s.now ∧ (s.modTim g).cyc = s.cyc ∧ (s.modTim g).just = s.just ∧
    (s.modTim g).justAt = s.justAt ∧ (s.modTim g).seq = s.seq ∧ (s.modTim g).mode = s.mode ∧ (s.modTim g).origin = s.origin ∧
    (s.modTim g).ctl = s.ctl ∧ (s.modTim g).pwr = s.pwr ∧ (s.modTim g).boot = s.boot ∧ (s.modTim g).regs = s.regs ∧
    (s.modTim g).snaps = s.snaps ∧ (s.modTim g).rdata = s.rdata ∧ (s.modTim g).poisoned = s.poisoned ∧
    (s.modTim g).events = s.events ∧ (s.modTim g).evSeq = s.evSeq ∧ (s.modTim g).grn = s.grn ∧ (s.modTim g).grnBad = s.grnBad ∧
    (s.modTim g).eccWb = s.eccWb ∧ (s.modTim g).portB = s.portB ∧ (s.modTim g).dmExt = s.dmExt ∧
    (s.modTim g).engReads = s.engReads ∧ (s.modTim g).eccCorrAt = s.eccCorrAt ∧ (s.modTim g).scrubWord = s.scrubWord ∧
    (s.modTim g).scrubCyc = s.scrubCyc ∧ (s.modTim g).hostMem = s.hostMem ∧ (s.modTim g).lanes = s.lanes ∧
    (s.modTim g).cells = s.cells ∧ (s.modTim g).arms = s.arms ∧ (s.modTim g).units = s.units ∧ (s.modTim g).plan = s.plan ∧
    (s.modTim g).pwm = s.pwm ∧ (s.modTim g).pwmIo = s.pwmIo ∧ (s.modTim g).engines = s.engines ∧ (s.modTim g).pm = s.pm ∧
    (s.modTim g).dm = s.dm ∧ (s.modTim g).tasks = s.tasks ∧ (s.modTim g).sched = s.sched ∧ (s.modTim g).adc = s.adc ∧
    (s.modTim g).fr = s.fr ∧ (s.modTim g).saf = s.saf ∧ (s.modTim g).hif = s.hif ∧ (s.modTim g).can = s.can ∧
    (s.modTim g).pair = s.pair ∧ (s.modTim g).undo = s.undo ∧ (s.modTim g).freeCtr = s.freeCtr := by
  repeat' constructor

@[simp] theorem State.raiseP_keeps (s : State) (c : EvCode) (src : Nat) (p : List Byte) :
    (s.raiseP c src p).pending = s.pending ∧ (s.raiseP c src p).now = s.now ∧ (s.raiseP c src p).cyc = s.cyc ∧
    (s.raiseP c src p).just = s.just ∧ (s.raiseP c src p).justAt = s.justAt ∧ (s.raiseP c src p).seq = s.seq ∧
    (s.raiseP c src p).mode = s.mode ∧ (s.raiseP c src p).origin = s.origin ∧ (s.raiseP c src p).ctl = s.ctl ∧
    (s.raiseP c src p).pwr = s.pwr ∧ (s.raiseP c src p).boot = s.boot ∧ (s.raiseP c src p).regs = s.regs ∧
    (s.raiseP c src p).snaps = s.snaps ∧ (s.raiseP c src p).rdata = s.rdata ∧ (s.raiseP c src p).poisoned = s.poisoned ∧
    (s.raiseP c src p).grn = s.grn ∧ (s.raiseP c src p).grnBad = s.grnBad ∧ (s.raiseP c src p).eccWb = s.eccWb ∧
    (s.raiseP c src p).portB = s.portB ∧ (s.raiseP c src p).dmExt = s.dmExt ∧ (s.raiseP c src p).engReads = s.engReads ∧
    (s.raiseP c src p).eccCorrAt = s.eccCorrAt ∧ (s.raiseP c src p).scrubWord = s.scrubWord ∧
    (s.raiseP c src p).scrubCyc = s.scrubCyc ∧ (s.raiseP c src p).hostMem = s.hostMem ∧ (s.raiseP c src p).lanes = s.lanes ∧
    (s.raiseP c src p).cells = s.cells ∧ (s.raiseP c src p).arms = s.arms ∧ (s.raiseP c src p).units = s.units ∧
    (s.raiseP c src p).plan = s.plan ∧ (s.raiseP c src p).pwm = s.pwm ∧ (s.raiseP c src p).pwmIo = s.pwmIo ∧
    (s.raiseP c src p).engines = s.engines ∧ (s.raiseP c src p).pm = s.pm ∧ (s.raiseP c src p).dm = s.dm ∧
    (s.raiseP c src p).tasks = s.tasks ∧ (s.raiseP c src p).sched = s.sched ∧ (s.raiseP c src p).adc = s.adc ∧
    (s.raiseP c src p).fr = s.fr ∧ (s.raiseP c src p).saf = s.saf ∧ (s.raiseP c src p).hif = s.hif ∧
    (s.raiseP c src p).tim = s.tim ∧ (s.raiseP c src p).can = s.can ∧ (s.raiseP c src p).pair = s.pair ∧
    (s.raiseP c src p).undo = s.undo ∧ (s.raiseP c src p).freeCtr = s.freeCtr := by
  repeat' constructor

@[simp] theorem State.raise_keeps (s : State) (c : EvCode) (u a v : Nat) :
    (s.raise c u a v).pending = s.pending ∧ (s.raise c u a v).now = s.now ∧ (s.raise c u a v).cyc = s.cyc ∧
    (s.raise c u a v).just = s.just ∧ (s.raise c u a v).justAt = s.justAt ∧ (s.raise c u a v).seq = s.seq ∧
    (s.raise c u a v).mode = s.mode ∧ (s.raise c u a v).origin = s.origin ∧ (s.raise c u a v).ctl = s.ctl ∧
    (s.raise c u a v).pwr = s.pwr ∧ (s.raise c u a v).boot = s.boot ∧ (s.raise c u a v).regs = s.regs ∧
    (s.raise c u a v).snaps = s.snaps ∧ (s.raise c u a v).rdata = s.rdata ∧ (s.raise c u a v).poisoned = s.poisoned ∧
    (s.raise c u a v).grn = s.grn ∧ (s.raise c u a v).grnBad = s.grnBad ∧ (s.raise c u a v).eccWb = s.eccWb ∧
    (s.raise c u a v).portB = s.portB ∧ (s.raise c u a v).dmExt = s.dmExt ∧ (s.raise c u a v).engReads = s.engReads ∧
    (s.raise c u a v).eccCorrAt = s.eccCorrAt ∧ (s.raise c u a v).scrubWord = s.scrubWord ∧
    (s.raise c u a v).scrubCyc = s.scrubCyc ∧ (s.raise c u a v).hostMem = s.hostMem ∧ (s.raise c u a v).lanes = s.lanes ∧
    (s.raise c u a v).cells = s.cells ∧ (s.raise c u a v).arms = s.arms ∧ (s.raise c u a v).units = s.units ∧
    (s.raise c u a v).plan = s.plan ∧ (s.raise c u a v).pwm = s.pwm ∧ (s.raise c u a v).pwmIo = s.pwmIo ∧
    (s.raise c u a v).engines = s.engines ∧ (s.raise c u a v).pm = s.pm ∧ (s.raise c u a v).dm = s.dm ∧
    (s.raise c u a v).tasks = s.tasks ∧ (s.raise c u a v).sched = s.sched ∧ (s.raise c u a v).adc = s.adc ∧
    (s.raise c u a v).fr = s.fr ∧ (s.raise c u a v).saf = s.saf ∧ (s.raise c u a v).hif = s.hif ∧ (s.raise c u a v).tim = s.tim ∧
    (s.raise c u a v).can = s.can ∧ (s.raise c u a v).pair = s.pair ∧ (s.raise c u a v).undo = s.undo ∧
    (s.raise c u a v).freeCtr = s.freeCtr := by
  repeat' constructor

@[simp] theorem State.raiseFrom_keeps (s : State) (c : EvCode) (src u a v : Nat) :
    (s.raiseFrom c src u a v).pending = s.pending ∧ (s.raiseFrom c src u a v).now = s.now ∧
    (s.raiseFrom c src u a v).cyc = s.cyc ∧ (s.raiseFrom c src u a v).just = s.just ∧
    (s.raiseFrom c src u a v).justAt = s.justAt ∧ (s.raiseFrom c src u a v).seq = s.seq ∧
    (s.raiseFrom c src u a v).mode = s.mode ∧ (s.raiseFrom c src u a v).origin = s.origin ∧
    (s.raiseFrom c src u a v).ctl = s.ctl ∧ (s.raiseFrom c src u a v).pwr = s.pwr ∧ (s.raiseFrom c src u a v).boot = s.boot ∧
    (s.raiseFrom c src u a v).regs = s.regs ∧ (s.raiseFrom c src u a v).snaps = s.snaps ∧
    (s.raiseFrom c src u a v).rdata = s.rdata ∧ (s.raiseFrom c src u a v).poisoned = s.poisoned ∧
    (s.raiseFrom c src u a v).grn = s.grn ∧ (s.raiseFrom c src u a v).grnBad = s.grnBad ∧
    (s.raiseFrom c src u a v).eccWb = s.eccWb ∧ (s.raiseFrom c src u a v).portB = s.portB ∧
    (s.raiseFrom c src u a v).dmExt = s.dmExt ∧ (s.raiseFrom c src u a v).engReads = s.engReads ∧
    (s.raiseFrom c src u a v).eccCorrAt = s.eccCorrAt ∧ (s.raiseFrom c src u a v).scrubWord = s.scrubWord ∧
    (s.raiseFrom c src u a v).scrubCyc = s.scrubCyc ∧ (s.raiseFrom c src u a v).hostMem = s.hostMem ∧
    (s.raiseFrom c src u a v).lanes = s.lanes ∧ (s.raiseFrom c src u a v).cells = s.cells ∧
    (s.raiseFrom c src u a v).arms = s.arms ∧ (s.raiseFrom c src u a v).units = s.units ∧
    (s.raiseFrom c src u a v).plan = s.plan ∧ (s.raiseFrom c src u a v).pwm = s.pwm ∧ (s.raiseFrom c src u a v).pwmIo = s.pwmIo ∧
    (s.raiseFrom c src u a v).engines = s.engines ∧ (s.raiseFrom c src u a v).pm = s.pm ∧ (s.raiseFrom c src u a v).dm = s.dm ∧
    (s.raiseFrom c src u a v).tasks = s.tasks ∧ (s.raiseFrom c src u a v).sched = s.sched ∧
    (s.raiseFrom c src u a v).adc = s.adc ∧ (s.raiseFrom c src u a v).fr = s.fr ∧ (s.raiseFrom c src u a v).saf = s.saf ∧
    (s.raiseFrom c src u a v).hif = s.hif ∧ (s.raiseFrom c src u a v).tim = s.tim ∧ (s.raiseFrom c src u a v).can = s.can ∧
    (s.raiseFrom c src u a v).pair = s.pair ∧ (s.raiseFrom c src u a v).undo = s.undo ∧
    (s.raiseFrom c src u a v).freeCtr = s.freeCtr := by
  repeat' constructor

@[simp] theorem State.raiseClampFrom_keeps (s : State) (src o off lo r a : Nat) :
    (s.raiseClampFrom src o off lo r a).pending = s.pending ∧ (s.raiseClampFrom src o off lo r a).now = s.now ∧
    (s.raiseClampFrom src o off lo r a).cyc = s.cyc ∧ (s.raiseClampFrom src o off lo r a).just = s.just ∧
    (s.raiseClampFrom src o off lo r a).justAt = s.justAt ∧ (s.raiseClampFrom src o off lo r a).seq = s.seq ∧
    (s.raiseClampFrom src o off lo r a).mode = s.mode ∧ (s.raiseClampFrom src o off lo r a).origin = s.origin ∧
    (s.raiseClampFrom src o off lo r a).ctl = s.ctl ∧ (s.raiseClampFrom src o off lo r a).pwr = s.pwr ∧
    (s.raiseClampFrom src o off lo r a).boot = s.boot ∧ (s.raiseClampFrom src o off lo r a).regs = s.regs ∧
    (s.raiseClampFrom src o off lo r a).snaps = s.snaps ∧ (s.raiseClampFrom src o off lo r a).rdata = s.rdata ∧
    (s.raiseClampFrom src o off lo r a).poisoned = s.poisoned ∧ (s.raiseClampFrom src o off lo r a).grn = s.grn ∧
    (s.raiseClampFrom src o off lo r a).grnBad = s.grnBad ∧ (s.raiseClampFrom src o off lo r a).eccWb = s.eccWb ∧
    (s.raiseClampFrom src o off lo r a).portB = s.portB ∧ (s.raiseClampFrom src o off lo r a).dmExt = s.dmExt ∧
    (s.raiseClampFrom src o off lo r a).engReads = s.engReads ∧ (s.raiseClampFrom src o off lo r a).eccCorrAt = s.eccCorrAt ∧
    (s.raiseClampFrom src o off lo r a).scrubWord = s.scrubWord ∧ (s.raiseClampFrom src o off lo r a).scrubCyc = s.scrubCyc ∧
    (s.raiseClampFrom src o off lo r a).hostMem = s.hostMem ∧ (s.raiseClampFrom src o off lo r a).lanes = s.lanes ∧
    (s.raiseClampFrom src o off lo r a).cells = s.cells ∧ (s.raiseClampFrom src o off lo r a).arms = s.arms ∧
    (s.raiseClampFrom src o off lo r a).units = s.units ∧ (s.raiseClampFrom src o off lo r a).plan = s.plan ∧
    (s.raiseClampFrom src o off lo r a).pwm = s.pwm ∧ (s.raiseClampFrom src o off lo r a).pwmIo = s.pwmIo ∧
    (s.raiseClampFrom src o off lo r a).engines = s.engines ∧ (s.raiseClampFrom src o off lo r a).pm = s.pm ∧
    (s.raiseClampFrom src o off lo r a).dm = s.dm ∧ (s.raiseClampFrom src o off lo r a).tasks = s.tasks ∧
    (s.raiseClampFrom src o off lo r a).sched = s.sched ∧ (s.raiseClampFrom src o off lo r a).adc = s.adc ∧
    (s.raiseClampFrom src o off lo r a).fr = s.fr ∧ (s.raiseClampFrom src o off lo r a).saf = s.saf ∧
    (s.raiseClampFrom src o off lo r a).hif = s.hif ∧ (s.raiseClampFrom src o off lo r a).tim = s.tim ∧
    (s.raiseClampFrom src o off lo r a).can = s.can ∧ (s.raiseClampFrom src o off lo r a).pair = s.pair ∧
    (s.raiseClampFrom src o off lo r a).undo = s.undo ∧ (s.raiseClampFrom src o off lo r a).freeCtr = s.freeCtr := by
  repeat' constructor

@[simp] theorem State.free_keeps (s : State) :
    (s.free.2).pending = s.pending ∧ (s.free.2).now = s.now ∧ (s.free.2).cyc = s.cyc ∧ (s.free.2).just = s.just ∧
    (s.free.2).justAt = s.justAt ∧ (s.free.2).seq = s.seq ∧ (s.free.2).mode = s.mode ∧ (s.free.2).origin = s.origin ∧
    (s.free.2).ctl = s.ctl ∧ (s.free.2).pwr = s.pwr ∧ (s.free.2).boot = s.boot ∧ (s.free.2).regs = s.regs ∧
    (s.free.2).snaps = s.snaps ∧ (s.free.2).rdata = s.rdata ∧ (s.free.2).poisoned = s.poisoned ∧ (s.free.2).events = s.events ∧
    (s.free.2).evSeq = s.evSeq ∧ (s.free.2).grn = s.grn ∧ (s.free.2).grnBad = s.grnBad ∧ (s.free.2).eccWb = s.eccWb ∧
    (s.free.2).portB = s.portB ∧ (s.free.2).dmExt = s.dmExt ∧ (s.free.2).engReads = s.engReads ∧
    (s.free.2).eccCorrAt = s.eccCorrAt ∧ (s.free.2).scrubWord = s.scrubWord ∧ (s.free.2).scrubCyc = s.scrubCyc ∧
    (s.free.2).hostMem = s.hostMem ∧ (s.free.2).lanes = s.lanes ∧ (s.free.2).cells = s.cells ∧ (s.free.2).arms = s.arms ∧
    (s.free.2).units = s.units ∧ (s.free.2).plan = s.plan ∧ (s.free.2).pwm = s.pwm ∧ (s.free.2).pwmIo = s.pwmIo ∧
    (s.free.2).engines = s.engines ∧ (s.free.2).pm = s.pm ∧ (s.free.2).dm = s.dm ∧ (s.free.2).tasks = s.tasks ∧
    (s.free.2).sched = s.sched ∧ (s.free.2).adc = s.adc ∧ (s.free.2).fr = s.fr ∧ (s.free.2).saf = s.saf ∧
    (s.free.2).hif = s.hif ∧ (s.free.2).tim = s.tim ∧ (s.free.2).can = s.can ∧ (s.free.2).pair = s.pair ∧ (s.free.2).undo = s.undo := by
  repeat' constructor

@[simp] theorem State.grnWrite_keeps (s : State) (a : Nat) (bs : List Byte) :
    (s.grnWrite a bs).pending = s.pending ∧ (s.grnWrite a bs).now = s.now ∧ (s.grnWrite a bs).cyc = s.cyc ∧
    (s.grnWrite a bs).just = s.just ∧ (s.grnWrite a bs).justAt = s.justAt ∧ (s.grnWrite a bs).seq = s.seq ∧
    (s.grnWrite a bs).mode = s.mode ∧ (s.grnWrite a bs).origin = s.origin ∧ (s.grnWrite a bs).ctl = s.ctl ∧
    (s.grnWrite a bs).pwr = s.pwr ∧ (s.grnWrite a bs).boot = s.boot ∧ (s.grnWrite a bs).regs = s.regs ∧
    (s.grnWrite a bs).snaps = s.snaps ∧ (s.grnWrite a bs).rdata = s.rdata ∧ (s.grnWrite a bs).poisoned = s.poisoned ∧
    (s.grnWrite a bs).events = s.events ∧ (s.grnWrite a bs).evSeq = s.evSeq ∧ (s.grnWrite a bs).portB = s.portB ∧
    (s.grnWrite a bs).dmExt = s.dmExt ∧ (s.grnWrite a bs).engReads = s.engReads ∧ (s.grnWrite a bs).eccCorrAt = s.eccCorrAt ∧
    (s.grnWrite a bs).scrubWord = s.scrubWord ∧ (s.grnWrite a bs).scrubCyc = s.scrubCyc ∧ (s.grnWrite a bs).hostMem = s.hostMem ∧
    (s.grnWrite a bs).lanes = s.lanes ∧ (s.grnWrite a bs).cells = s.cells ∧ (s.grnWrite a bs).arms = s.arms ∧
    (s.grnWrite a bs).units = s.units ∧ (s.grnWrite a bs).plan = s.plan ∧ (s.grnWrite a bs).pwm = s.pwm ∧
    (s.grnWrite a bs).pwmIo = s.pwmIo ∧ (s.grnWrite a bs).engines = s.engines ∧ (s.grnWrite a bs).pm = s.pm ∧
    (s.grnWrite a bs).dm = s.dm ∧ (s.grnWrite a bs).tasks = s.tasks ∧ (s.grnWrite a bs).sched = s.sched ∧
    (s.grnWrite a bs).adc = s.adc ∧ (s.grnWrite a bs).fr = s.fr ∧ (s.grnWrite a bs).saf = s.saf ∧ (s.grnWrite a bs).hif = s.hif ∧
    (s.grnWrite a bs).tim = s.tim ∧ (s.grnWrite a bs).can = s.can ∧ (s.grnWrite a bs).pair = s.pair ∧
    (s.grnWrite a bs).undo = s.undo ∧ (s.grnWrite a bs).freeCtr = s.freeCtr := by
  unfold State.grnWrite; split <;> simp

@[simp] theorem State.hostWrite_keeps (s : State) (p a : Nat) (bs : List Byte) :
    (s.hostWrite p a bs).pending = s.pending ∧ (s.hostWrite p a bs).now = s.now ∧ (s.hostWrite p a bs).cyc = s.cyc ∧
    (s.hostWrite p a bs).just = s.just ∧ (s.hostWrite p a bs).justAt = s.justAt ∧ (s.hostWrite p a bs).seq = s.seq ∧
    (s.hostWrite p a bs).mode = s.mode ∧ (s.hostWrite p a bs).origin = s.origin ∧ (s.hostWrite p a bs).ctl = s.ctl ∧
    (s.hostWrite p a bs).pwr = s.pwr ∧ (s.hostWrite p a bs).boot = s.boot ∧ (s.hostWrite p a bs).regs = s.regs ∧
    (s.hostWrite p a bs).snaps = s.snaps ∧ (s.hostWrite p a bs).rdata = s.rdata ∧ (s.hostWrite p a bs).poisoned = s.poisoned ∧
    (s.hostWrite p a bs).events = s.events ∧ (s.hostWrite p a bs).evSeq = s.evSeq ∧ (s.hostWrite p a bs).grn = s.grn ∧
    (s.hostWrite p a bs).grnBad = s.grnBad ∧ (s.hostWrite p a bs).eccWb = s.eccWb ∧ (s.hostWrite p a bs).portB = s.portB ∧
    (s.hostWrite p a bs).dmExt = s.dmExt ∧ (s.hostWrite p a bs).engReads = s.engReads ∧
    (s.hostWrite p a bs).eccCorrAt = s.eccCorrAt ∧ (s.hostWrite p a bs).scrubWord = s.scrubWord ∧
    (s.hostWrite p a bs).scrubCyc = s.scrubCyc ∧ (s.hostWrite p a bs).lanes = s.lanes ∧ (s.hostWrite p a bs).cells = s.cells ∧
    (s.hostWrite p a bs).arms = s.arms ∧ (s.hostWrite p a bs).units = s.units ∧ (s.hostWrite p a bs).plan = s.plan ∧
    (s.hostWrite p a bs).pwm = s.pwm ∧ (s.hostWrite p a bs).pwmIo = s.pwmIo ∧ (s.hostWrite p a bs).engines = s.engines ∧
    (s.hostWrite p a bs).pm = s.pm ∧ (s.hostWrite p a bs).dm = s.dm ∧ (s.hostWrite p a bs).tasks = s.tasks ∧
    (s.hostWrite p a bs).sched = s.sched ∧ (s.hostWrite p a bs).adc = s.adc ∧ (s.hostWrite p a bs).fr = s.fr ∧
    (s.hostWrite p a bs).saf = s.saf ∧ (s.hostWrite p a bs).hif = s.hif ∧ (s.hostWrite p a bs).tim = s.tim ∧
    (s.hostWrite p a bs).can = s.can ∧ (s.hostWrite p a bs).pair = s.pair ∧ (s.hostWrite p a bs).undo = s.undo ∧
    (s.hostWrite p a bs).freeCtr = s.freeCtr := by
  repeat' constructor

@[simp] theorem State.pmPut_keeps (s : State) (e a v : Nat) :
    (s.pmPut e a v).pending = s.pending ∧ (s.pmPut e a v).now = s.now ∧ (s.pmPut e a v).cyc = s.cyc ∧
    (s.pmPut e a v).just = s.just ∧ (s.pmPut e a v).justAt = s.justAt ∧ (s.pmPut e a v).seq = s.seq ∧
    (s.pmPut e a v).mode = s.mode ∧ (s.pmPut e a v).origin = s.origin ∧ (s.pmPut e a v).ctl = s.ctl ∧
    (s.pmPut e a v).pwr = s.pwr ∧ (s.pmPut e a v).boot = s.boot ∧ (s.pmPut e a v).regs = s.regs ∧
    (s.pmPut e a v).snaps = s.snaps ∧ (s.pmPut e a v).rdata = s.rdata ∧ (s.pmPut e a v).poisoned = s.poisoned ∧
    (s.pmPut e a v).events = s.events ∧ (s.pmPut e a v).evSeq = s.evSeq ∧ (s.pmPut e a v).grn = s.grn ∧
    (s.pmPut e a v).grnBad = s.grnBad ∧ (s.pmPut e a v).eccWb = s.eccWb ∧ (s.pmPut e a v).portB = s.portB ∧
    (s.pmPut e a v).dmExt = s.dmExt ∧ (s.pmPut e a v).engReads = s.engReads ∧ (s.pmPut e a v).eccCorrAt = s.eccCorrAt ∧
    (s.pmPut e a v).scrubWord = s.scrubWord ∧ (s.pmPut e a v).scrubCyc = s.scrubCyc ∧ (s.pmPut e a v).hostMem = s.hostMem ∧
    (s.pmPut e a v).lanes = s.lanes ∧ (s.pmPut e a v).cells = s.cells ∧ (s.pmPut e a v).arms = s.arms ∧
    (s.pmPut e a v).units = s.units ∧ (s.pmPut e a v).plan = s.plan ∧ (s.pmPut e a v).pwm = s.pwm ∧
    (s.pmPut e a v).pwmIo = s.pwmIo ∧ (s.pmPut e a v).engines = s.engines ∧ (s.pmPut e a v).dm = s.dm ∧
    (s.pmPut e a v).tasks = s.tasks ∧ (s.pmPut e a v).sched = s.sched ∧ (s.pmPut e a v).adc = s.adc ∧ (s.pmPut e a v).fr = s.fr ∧
    (s.pmPut e a v).saf = s.saf ∧ (s.pmPut e a v).hif = s.hif ∧ (s.pmPut e a v).tim = s.tim ∧ (s.pmPut e a v).can = s.can ∧
    (s.pmPut e a v).pair = s.pair ∧ (s.pmPut e a v).undo = s.undo ∧ (s.pmPut e a v).freeCtr = s.freeCtr := by
  repeat' constructor

@[simp] theorem State.dmPut_keeps (s : State) (e a : Nat) (bs : List Byte) :
    (s.dmPut e a bs).pending = s.pending ∧ (s.dmPut e a bs).now = s.now ∧ (s.dmPut e a bs).cyc = s.cyc ∧
    (s.dmPut e a bs).just = s.just ∧ (s.dmPut e a bs).justAt = s.justAt ∧ (s.dmPut e a bs).seq = s.seq ∧
    (s.dmPut e a bs).mode = s.mode ∧ (s.dmPut e a bs).origin = s.origin ∧ (s.dmPut e a bs).ctl = s.ctl ∧
    (s.dmPut e a bs).pwr = s.pwr ∧ (s.dmPut e a bs).boot = s.boot ∧ (s.dmPut e a bs).regs = s.regs ∧
    (s.dmPut e a bs).snaps = s.snaps ∧ (s.dmPut e a bs).rdata = s.rdata ∧ (s.dmPut e a bs).poisoned = s.poisoned ∧
    (s.dmPut e a bs).events = s.events ∧ (s.dmPut e a bs).evSeq = s.evSeq ∧ (s.dmPut e a bs).grn = s.grn ∧
    (s.dmPut e a bs).grnBad = s.grnBad ∧ (s.dmPut e a bs).eccWb = s.eccWb ∧ (s.dmPut e a bs).portB = s.portB ∧
    (s.dmPut e a bs).dmExt = s.dmExt ∧ (s.dmPut e a bs).engReads = s.engReads ∧ (s.dmPut e a bs).eccCorrAt = s.eccCorrAt ∧
    (s.dmPut e a bs).scrubWord = s.scrubWord ∧ (s.dmPut e a bs).scrubCyc = s.scrubCyc ∧ (s.dmPut e a bs).hostMem = s.hostMem ∧
    (s.dmPut e a bs).lanes = s.lanes ∧ (s.dmPut e a bs).cells = s.cells ∧ (s.dmPut e a bs).arms = s.arms ∧
    (s.dmPut e a bs).units = s.units ∧ (s.dmPut e a bs).plan = s.plan ∧ (s.dmPut e a bs).pwm = s.pwm ∧
    (s.dmPut e a bs).pwmIo = s.pwmIo ∧ (s.dmPut e a bs).engines = s.engines ∧ (s.dmPut e a bs).pm = s.pm ∧
    (s.dmPut e a bs).tasks = s.tasks ∧ (s.dmPut e a bs).sched = s.sched ∧ (s.dmPut e a bs).adc = s.adc ∧
    (s.dmPut e a bs).fr = s.fr ∧ (s.dmPut e a bs).saf = s.saf ∧ (s.dmPut e a bs).hif = s.hif ∧ (s.dmPut e a bs).tim = s.tim ∧
    (s.dmPut e a bs).can = s.can ∧ (s.dmPut e a bs).pair = s.pair ∧ (s.dmPut e a bs).undo = s.undo ∧
    (s.dmPut e a bs).freeCtr = s.freeCtr := by
  repeat' constructor

/-! ### Registers -/

/-- A register reads what was written to it, modulo 2^32. -/
@[simp] theorem State.rd_wr_same (s : State) (off v : Nat) : (s.wr off v).rd off = v % 2 ^ 32 := by
  simp [State.rd, State.wr]

/-- Every other register reads as before. -/
theorem State.rd_wr_ne (s : State) {off off' : Nat} (v : Nat) (h : off' ≠ off) : (s.wr off v).rd off' = s.rd off' := by
  unfold State.rd State.wr
  simp only
  by_cases hd : BitVec.ofNat 32 (resetVal off') = BitVec.ofNat 32 (resetVal off)
  · rw [hd, tget_tput_ne _ _ _ h]
  · have key : ∀ (d e : BitVec 32) (t : List (Nat × BitVec 32)) (x : BitVec 32),
        tget d (tput e t off x) off' = tget d t off' := by
      intro d e t x
      unfold tput; split
      · exact tget_tdel_ne d t h
      · rw [tget_tins_ne _ _ _ h, tget_tdel_ne d t h]
    rw [key]

theorem State.rd_lt (s : State) (off : Nat) : s.rd off < 2 ^ 32 := (tget _ s.regs off).isLt

/-- A field that lies in its register. -/
def Fld.ok (x : Fld) : Prop := x.lo ≤ x.hi ∧ x.hi < 32

/-- The register of a field after the field took a value. -/
theorem State.rd_setF_same (s : State) (x : Fld) (v : Nat) (h : x.ok) :
    (s.setF x v).rd x.off = setBits (s.rd x.off) x.hi x.lo v := by
  rw [State.setF, State.rd_wr_same, Nat.mod_eq_of_lt (setBits_lt h.2 h.1 (s.rd_lt x.off))]

theorem State.rd_setF_ne (s : State) (x : Fld) (v : Nat) {off : Nat} (h : off ≠ x.off) : (s.setF x v).rd off = s.rd off :=
  s.rd_wr_ne _ h

/-- The field reads the value, modulo its width. -/
theorem State.f_setF_same (s : State) (x : Fld) (v : Nat) (h : x.ok) : (s.setF x v).f x = v % 2 ^ (x.hi + 1 - x.lo) := by
  rw [State.f, s.rd_setF_same x v h, bitsOf_setBits_same]

/-- Fields that share no bit. -/
def Fld.apart (x y : Fld) : Prop := y.off ≠ x.off ∨ y.hi < x.lo ∨ x.hi < y.lo

/-- A field that shares no bit with the written one reads as before. -/
theorem State.f_setF_apart (s : State) (x y : Fld) (v : Nat) (h : x.ok) (hxy : x.apart y) : (s.setF x v).f y = s.f y := by
  unfold State.f
  by_cases ho : y.off = x.off
  · rw [ho, s.rd_setF_same x v h]
    rcases hxy with h1 | h1 | h1
    · exact absurd ho h1
    · exact bitsOf_setBits_below _ _ _ _ h1
    · exact bitsOf_setBits_above _ _ _ _ (by have := h.1; omega) h1
  · rw [s.rd_setF_ne x v ho]

/-- Registers are read from their table alone. -/
theorem State.rd_of_regs {s t : State} (h : t.regs = s.regs) (off : Nat) : t.rd off = s.rd off := by simp [State.rd, h]
theorem State.f_of_regs {s t : State} (h : t.regs = s.regs) (x : Fld) : t.f x = s.f x := by simp [State.f, State.rd, h]

/-! ### Bits set in the present cycle (R11) -/

/-- Noting what was set leaves every register as it is. -/
@[simp] theorem State.rd_note (s : State) (off mask off' : Nat) : (s.note off mask).rd off' = s.rd off' := rfl
@[simp] theorem State.f_note (s : State) (off mask : Nat) (x : Fld) : (s.note off mask).f x = s.f x := rfl

/-- A W1C bit that the device sets reads 1. -/
theorem State.f_mark_same (s : State) (x : Fld) (h : x.ok) (hb : x.hi = x.lo) : (s.mark x).f x = 1 := by
  have hlt : s.f x < 2 := by
    have := Nat.mod_lt (s.rd x.off / 2 ^ x.lo) (show 0 < 2 ^ (x.hi + 1 - x.lo) by positivity)
    simpa [State.f, bitsOf, hb] using this
  rw [State.mark, State.orF, State.f_note, State.f_setF_same _ _ _ h, hb, Nat.add_sub_cancel_left]
  interval_cases s.f x <;> rfl

/-- A field that shares no bit with the one the device sets, or counts up, reads as before. -/
theorem State.f_mark_apart (s : State) (x y : Fld) (h : x.ok) (hxy : x.apart y) : (s.mark x).f y = s.f y :=
  s.f_setF_apart x y _ h hxy
theorem State.f_bumpF_apart (s : State) (x y : Fld) (k : Nat) (h : x.ok) (hxy : x.apart y) : (s.bumpF x k).f y = s.f y :=
  s.f_setF_apart x y _ h hxy

/-! ### Typed tables -/

@[simp] theorem State.lane_modLane (s : State) (l : Nat) (g : Lane → Lane) : (s.modLane l g).lane l = g (s.lane l) := by
  simp [State.modLane, State.setLane, State.lane]
@[simp] theorem State.cell_modCell (s : State) (c : Nat) (g : Cell → Cell) : (s.modCell c g).cell c = g (s.cell c) := by
  simp [State.modCell, State.setCell, State.cell]
@[simp] theorem State.arm_modArm (s : State) (a : Nat) (g : Arm → Arm) : (s.modArm a g).arm a = g (s.arm a) := by
  simp [State.modArm, State.setArm, State.arm]
@[simp] theorem State.unit_modUnit (s : State) (u : Nat) (g : WinUnit → WinUnit) : (s.modUnit u g).unit u = g (s.unit u) := by
  simp [State.modUnit, State.unit]
@[simp] theorem State.pwmCh_modPwm (s : State) (c : Nat) (g : Pwm → Pwm) : (s.modPwm c g).pwmCh c = g (s.pwmCh c) := by
  simp [State.modPwm, State.pwmCh]
@[simp] theorem State.canC_modCan (s : State) (k : Nat) (g : Can → Can) : (s.modCan k g).canC k = g (s.canC k) := by
  simp [State.modCan, State.canC]
@[simp] theorem State.eng_modEng (s : State) (e : Nat) (g : Engine → Engine) : (s.modEng e g).eng e = g (s.eng e) := by
  simp [State.modEng, State.eng]
@[simp] theorem State.task_modTask (s : State) (tc : Nat) (g : Task → Task) : (s.modTask tc g).task tc = g (s.task tc) := by
  simp [State.modTask, State.task]

theorem State.lane_modLane_ne (s : State) {l j : Nat} (g : Lane → Lane) (h : j ≠ l) : (s.modLane l g).lane j = s.lane j := by
  simp [State.modLane, State.setLane, State.lane, tget_tput_ne _ _ _ h]
theorem State.cell_modCell_ne (s : State) {c j : Nat} (g : Cell → Cell) (h : j ≠ c) : (s.modCell c g).cell j = s.cell j := by
  simp [State.modCell, State.setCell, State.cell, tget_tput_ne _ _ _ h]
theorem State.arm_modArm_ne (s : State) {a j : Nat} (g : Arm → Arm) (h : j ≠ a) : (s.modArm a g).arm j = s.arm j := by
  simp [State.modArm, State.setArm, State.arm, tget_tput_ne _ _ _ h]
theorem State.eng_modEng_ne (s : State) {e j : Nat} (g : Engine → Engine) (h : j ≠ e) : (s.modEng e g).eng j = s.eng j := by
  simp [State.modEng, State.eng, tget_tput_ne _ _ _ h]
theorem State.canC_modCan_ne (s : State) {k j : Nat} (g : Can → Can) (h : j ≠ k) : (s.modCan k g).canC j = s.canC j := by
  simp [State.modCan, State.canC, tget_tput_ne _ _ _ h]

/-! ### Events -/

/-- The event raised is appended to the ones that wait, with the number of its raising and the time word of the instant (R388). -/
theorem State.raiseP_events (s : State) (c : EvCode) (src : Nat) (p : List Byte) :
    (s.raiseP c src p).events
      = s.events ++ [Event.mk c src (s.evSeq % 2 ^ 32) (BitVec.ofNat 64 (timeWord (s.stampUnits / 2 ^ 32))) p] := rfl

/-- A once-only event is raised exactly where its bit was 0. -/
theorem State.raiseOnce_events (s : State) (bit : Fld) (c : EvCode) (u a v : Nat) :
    (s.raiseOnce bit c u a v).events.length = s.events.length + (if s.fb bit then 0 else 1) := by
  unfold State.raiseOnce; split <;> simp_all [State.raise, State.raiseP]

/-! ### Memories -/

/-- Storing bytes keeps the canonical form. -/
theorem twf_putBytes (bs : List Byte) (m : List Host.Cell) (a : Nat) (h : twf (0 : Byte) none m = true) :
    twf (0 : Byte) none (putBytes m a bs) = true := by
  induction bs generalizing m a with
  | nil => exact h
  | cons b t ih => exact ih _ _ (twf_tput 0 m a b h)

/-- A byte outside the stored ones reads as before. -/
theorem tget_putBytes_out (bs : List Byte) (m : List Host.Cell) (a : Nat) {j : Nat} (h : j < a ∨ a + bs.length ≤ j) :
    tget (0 : Byte) (putBytes m a bs) j = tget 0 m j := by
  induction bs generalizing m a with
  | nil => rfl
  | cons b t ih =>
    simp only [List.length_cons] at h
    rw [putBytes, ih _ _ (by omega), tget_tput_ne _ _ _ (by omega)]

/-- A stored byte is read back. -/
theorem tget_putBytes_in (bs : List Byte) (m : List Host.Cell) (a i : Nat) (h : i < bs.length) :
    tget (0 : Byte) (putBytes m a bs) (a + i) = bs[i] := by
  induction bs generalizing m a i with
  | nil => simp at h
  | cons b t ih =>
    cases i with
    | zero => rw [putBytes, tget_putBytes_out _ _ _ (Or.inl (by omega))]; simp
    | succ i =>
      have := ih (tput 0 m a b) (a + 1) i (by simpa using h)
      rw [putBytes, show a + (i + 1) = a + 1 + i by omega, this]; rfl

/-- A store that reaches past the end of the granary stores nothing. -/
theorem State.grnWrite_past (s : State) (a : Nat) (bs : List Byte) (h : grnSize < a + bs.length) : s.grnWrite a bs = s := by
  unfold State.grnWrite; rw [if_neg (by omega)]

/-- A byte of the granary outside a store reads as before. -/
theorem State.grnByte_grnWrite_out (s : State) (a : Nat) (bs : List Byte) {j : Nat} (h : j < a ∨ a + bs.length ≤ j) :
    (s.grnWrite a bs).grnByte j = s.grnByte j := by
  unfold State.grnWrite State.grnByte; split
  · exact tget_putBytes_out bs s.grn a h
  · rfl

/-- A byte stored into the granary is read back. -/
theorem State.grnByte_grnWrite_in (s : State) (a : Nat) (bs : List Byte) (i : Nat) (hi : i < bs.length)
    (h : a + bs.length ≤ grnSize) : (s.grnWrite a bs).grnByte (a + i) = bs[i] := by
  unfold State.grnWrite State.grnByte; rw [if_pos h]
  exact tget_putBytes_in bs s.grn a i hi

end Sys2Proof.Machine
end

