-- ==== Sys2Proof/Laws/Ops.lean ====
section
/-! SUPPORT. The shared operations keep the canonical forms of the memories and of the register table, keep the event number in its
width, and leave the waiting commands alone. -/

namespace Sys2Proof.Machine

/-! ### The register table -/

theorem regs_wf_of_none {t : List (Nat × BitVec 32)} {lo : Nat} (h : Registers.wf (some lo) t = true) : Registers.wf none t = true := by
  cases t with
  | nil => rfl
  | cons p t => simp_all [Registers.wf]

theorem regs_wf_lower {t : List (Nat × BitVec 32)} {lo hi : Nat} (hl : lo ≤ hi) (h : Registers.wf (some hi) t = true) :
    Registers.wf (some lo) t = true := by
  cases t with
  | nil => rfl
  | cons p t => simp_all [Registers.wf]; omega

theorem regs_wf_tdel (k : Nat) (t : List (Nat × BitVec 32)) (b : Option Nat) (h : Registers.wf b t = true) :
    Registers.wf b (tdel k t) = true := by
  induction t generalizing b with
  | nil => cases b <;> rfl
  | cons p t ih =>
    unfold tdel; split
    · cases b with
      | none => exact ih none (regs_wf_of_none (by simp only [Registers.wf, Bool.and_eq_true] at h; exact h.2))
      | some lo =>
        simp only [Registers.wf, Bool.and_eq_true, decide_eq_true_eq] at h
        exact regs_wf_lower (Nat.le_of_lt h.1.1) (ih _ h.2)
    · cases b <;> (simp only [Registers.wf, Bool.and_eq_true] at h ⊢; exact ⟨h.1, ih _ h.2⟩)

theorem regs_wf_tins_some (k : Nat) (v : BitVec 32) (hv : v ≠ BitVec.ofNat 32 (resetVal k)) (t : List (Nat × BitVec 32)) (lo : Nat)
    (hk : lo < k) (hn : ∀ p ∈ t, p.1 ≠ k) (h : Registers.wf (some lo) t = true) : Registers.wf (some lo) (tins k v t) = true := by
  induction t generalizing lo with
  | nil => simp only [tins, Registers.wf, Bool.and_eq_true, decide_eq_true_eq]; exact ⟨⟨hk, hv⟩, trivial⟩
  | cons p t ih =>
    simp only [Registers.wf, Bool.and_eq_true, decide_eq_true_eq] at h
    unfold tins; split
    · next hp => simp only [Registers.wf, Bool.and_eq_true, decide_eq_true_eq]; exact ⟨⟨hk, hv⟩, ⟨hp, h.1.2⟩, h.2⟩
    · have := hn p (by simp)
      simp only [Registers.wf, Bool.and_eq_true, decide_eq_true_eq]
      exact ⟨h.1, ih p.1 (by omega) (fun q hq => hn q (by simp [hq])) h.2⟩

theorem regs_wf_tins_none (k : Nat) (v : BitVec 32) (hv : v ≠ BitVec.ofNat 32 (resetVal k)) (t : List (Nat × BitVec 32))
    (hn : ∀ p ∈ t, p.1 ≠ k) (h : Registers.wf none t = true) : Registers.wf none (tins k v t) = true := by
  cases t with
  | nil => simp only [tins, Registers.wf, Bool.and_eq_true, decide_eq_true_eq]; exact ⟨hv, trivial⟩
  | cons p t =>
    simp only [Registers.wf, Bool.and_eq_true, decide_eq_true_eq] at h
    unfold tins; split
    · next hp => simp only [Registers.wf, Bool.and_eq_true, decide_eq_true_eq]; exact ⟨hv, ⟨hp, h.1⟩, h.2⟩
    · have := hn p (by simp)
      simp only [Registers.wf, Bool.and_eq_true, decide_eq_true_eq]
      exact ⟨h.1, regs_wf_tins_some k v hv t p.1 (by omega) (fun q hq => hn q (by simp [hq])) h.2⟩

/-- A register write keeps the table canonical. -/
theorem regs_wf_wr (s : State) (off v : Nat) (h : Registers.wf none s.regs = true) : Registers.wf none (s.wr off v).regs = true := by
  unfold State.wr tput; simp only; split
  · exact regs_wf_tdel off _ none h
  · next hv => exact regs_wf_tins_none off _ hv _ (tdel_keys _ _) (regs_wf_tdel off _ none h)

/-! ### Register operations keep the canonical state -/

theorem State.Canonical.wr {s : State} (h : s.Canonical) (off v : Nat) : (s.wr off v).Canonical :=
  ⟨h.1, h.2.1, h.2.2.1, regs_wf_wr s off v h.2.2.2.1, h.2.2.2.2⟩

theorem State.Canonical.setF {s : State} (h : s.Canonical) (x : Fld) (v : Nat) : (s.setF x v).Canonical := h.wr _ _

theorem State.Canonical.putRc {s : State} (h : s.Canonical) (x : Fld) (v : Nat) : (s.putRc x v).Canonical := h.setF x v

theorem State.Canonical.orF {s : State} (h : s.Canonical) (x : Fld) (m : Nat) : (s.orF x m).Canonical := h.setF x _

theorem State.Canonical.mark {s : State} (h : s.Canonical) (x : Fld) : (s.mark x).Canonical := h.orF x 1

theorem State.Canonical.bumpF {s : State} (h : s.Canonical) (x : Fld) (k : Nat) : (s.bumpF x k).Canonical := h.putRc x _

theorem State.Canonical.clearBits {s : State} (h : s.Canonical) (off hi lo m : Nat) : (s.clearBits off hi lo m).Canonical := h.wr _ _

/-! ### Memory operations keep the canonical state -/

theorem State.Canonical.grnWrite {s : State} (h : s.Canonical) (a : Nat) (bs : List Byte) : (s.grnWrite a bs).Canonical := by
  unfold State.grnWrite; split
  · exact ⟨twf_putBytes bs _ _ h.1, h.2⟩
  · exact h

theorem State.Canonical.hostWrite {s : State} (h : s.Canonical) (port addr : Nat) (bs : List Byte) :
    (s.hostWrite port addr bs).Canonical := ⟨h.1, twf_putBytes bs _ _ h.2.1, h.2.2⟩

theorem State.Canonical.dmPut {s : State} (h : s.Canonical) (e a : Nat) (bs : List Byte) : (s.dmPut e a bs).Canonical :=
  ⟨h.1, h.2.1, twf_putBytes bs _ _ h.2.2.1, h.2.2.2⟩

theorem State.Canonical.dmStore {s : State} (h : s.Canonical) (e a : Nat) (bs : List Byte) : (s.dmStore e a bs).Canonical := by
  unfold State.dmStore
  generalize s.dmExtNow = l
  have h := h.dmPut e a bs
  generalize s.dmPut e a bs = t at h
  induction l generalizing t with
  | nil => exact h
  | cons x l ih => exact ih _ (h.dmPut 0 x.2.1 x.2.2)

theorem State.Canonical.reread {s : State} (h : s.Canonical) (e : Nat) (hit : CycRead → Bool) : (s.reread e hit).Canonical := by
  unfold State.reread; simp only; split <;> exact h

theorem State.Canonical.grnWriteB {s : State} (h : s.Canonical) (a : Nat) (bs : List Byte) : (s.grnWriteB a bs).Canonical := by
  unfold State.grnWriteB; simp only; split <;> exact h.grnWrite a bs

theorem State.Canonical.grnWriteA {s : State} (h : s.Canonical) (a : Nat) (bs : List Byte) : (s.grnWriteA a bs).Canonical := by
  unfold State.grnWriteA; simp only
  have h := h.grnWrite a bs
  generalize s.grnWrite a bs = t at h
  generalize t.portBNow.filter _ = l
  induction l generalizing t with
  | nil => exact h
  | cons x l ih => exact ih _ (h.grnWrite x.2.1 x.2.2)

/-- A mode entry that is taken back leaves a canonical register table. -/
theorem State.Canonical.undoEntry {s : State} (h : s.Canonical) (new : Mode) : (s.undoEntry new).Canonical := by
  unfold State.undoEntry; split
  · exact h
  · next u hu =>
    have hr : Registers.wf none u.regs = true := by simpa [hu] using h.2.2.2.2
    split
    · exact ⟨h.1, h.2.1, h.2.2.1, hr, rfl⟩
    · split <;> exact ⟨h.1, h.2.1, h.2.2.1, h.2.2.2.1, rfl⟩

theorem State.Canonical.grnSpoil {s : State} (h : s.Canonical) (a : Nat) (i j : Fin 64) : (s.grnSpoil a i j).Canonical := by
  unfold State.grnSpoil; simp only; split <;> exact ⟨twf_putBytes _ _ _ h.1, h.2⟩

/-! ### Events and time keep the sound state -/

theorem State.Sound.wr {s : State} (h : s.Sound) (off v : Nat) : (s.wr off v).Sound := ⟨h.1.wr off v, h.2⟩

theorem State.Sound.setF {s : State} (h : s.Sound) (x : Fld) (v : Nat) : (s.setF x v).Sound := h.wr _ _

theorem State.Sound.putRc {s : State} (h : s.Sound) (x : Fld) (v : Nat) : (s.putRc x v).Sound := ⟨h.1.putRc x v, h.2⟩

theorem State.Sound.mark {s : State} (h : s.Sound) (x : Fld) : (s.mark x).Sound := ⟨h.1.mark x, h.2⟩

theorem State.Sound.bumpF {s : State} (h : s.Sound) (x : Fld) (k : Nat) : (s.bumpF x k).Sound := ⟨h.1.bumpF x k, h.2⟩

theorem State.Sound.clearBits {s : State} (h : s.Sound) (off hi lo m : Nat) : (s.clearBits off hi lo m).Sound :=
  ⟨h.1.clearBits off hi lo m, h.2⟩

theorem State.Sound.raiseP {s : State} (h : s.Sound) (code : EvCode) (source : Nat) (payload : List Byte) :
    (s.raiseP code source payload).Sound := ⟨h.1, Nat.mod_lt _ (by norm_num)⟩

theorem State.Sound.raise {s : State} (h : s.Sound) (code : EvCode) (unit aux value : Nat) : (s.raise code unit aux value).Sound :=
  h.raiseP _ _ _

theorem State.Sound.raiseFrom {s : State} (h : s.Sound) (code : EvCode) (source unit aux value : Nat) :
    (s.raiseFrom code source unit aux value).Sound := h.raiseP _ _ _

theorem State.Sound.raiseClampFrom {s : State} (h : s.Sound) (source origin off lo req applied : Nat) :
    (s.raiseClampFrom source origin off lo req applied).Sound := h.raiseP _ _ _

theorem State.Sound.raiseClamp {s : State} (h : s.Sound) (origin off lo req applied : Nat) :
    (s.raiseClamp origin off lo req applied).Sound := h.raiseClampFrom _ _ _ _ _ _

theorem State.Sound.raiseOnce {s : State} (h : s.Sound) (bit : Fld) (code : EvCode) (unit aux value : Nat) :
    (s.raiseOnce bit code unit aux value).Sound := by
  unfold State.raiseOnce; split
  · exact h.mark bit
  · exact (h.mark bit).raise _ _ _ _

theorem State.Sound.grnWrite {s : State} (h : s.Sound) (a : Nat) (bs : List Byte) : (s.grnWrite a bs).Sound :=
  ⟨h.1.grnWrite a bs, by unfold State.grnWrite State.SeqInRange; split <;> exact h.2⟩

theorem State.Sound.hostWrite {s : State} (h : s.Sound) (port addr : Nat) (bs : List Byte) : (s.hostWrite port addr bs).Sound :=
  ⟨h.1.hostWrite port addr bs, h.2⟩

theorem State.Sound.dmPut {s : State} (h : s.Sound) (e a : Nat) (bs : List Byte) : (s.dmPut e a bs).Sound := ⟨h.1.dmPut e a bs, h.2⟩

theorem State.Sound.slewAfter {s : State} (h : s.Sound) (k : Nat) : (s.slewAfter k).Sound := by
  unfold State.slewAfter; simp only; split
  · exact h
  · split
    · exact h.setF F.TIM_STAT_slewing 0
    · exact h

theorem State.Sound.cycles {s : State} (h : s.Sound) (k : Nat) : (s.cycles k).Sound := by
  unfold State.cycles; split
  · exact h.slewAfter k
  · exact h

theorem State.Sound.coreTick {s : State} (h : s.Sound) : s.coreTick.Sound := h.cycles 1

theorem State.Sound.advanceToU {s : State} (h : s.Sound) (u : Nat) : (s.advanceToU u).Sound := by
  unfold State.advanceToU; split
  · exact h.cycles _
  · exact h

theorem State.Sound.advanceTo {s : State} (h : s.Sound) (ns : Nat) : (s.advanceTo ns).Sound := h.advanceToU _

theorem State.Sound.advanceCyc {s : State} (h : s.Sound) (c : Nat) : (s.advanceCyc c).Sound := by
  unfold State.advanceCyc; split
  · exact h.cycles _
  · exact h

/-! ### The waiting commands stay as they are -/

@[simp] theorem State.slewAfter_pending (s : State) (k : Nat) : (s.slewAfter k).pending = s.pending := by
  unfold State.slewAfter; simp only; split
  · rfl
  · split <;> rfl

@[simp] theorem State.cycles_pending (s : State) (k : Nat) : (s.cycles k).pending = s.pending := by
  unfold State.cycles; split
  · exact s.slewAfter_pending k
  · rfl

@[simp] theorem State.coreTick_pending (s : State) : s.coreTick.pending = s.pending := s.cycles_pending 1

@[simp] theorem State.advanceToU_pending (s : State) (u : Nat) : (s.advanceToU u).pending = s.pending := by
  unfold State.advanceToU; split
  · exact s.cycles_pending _
  · rfl

@[simp] theorem State.advanceTo_pending (s : State) (ns : Nat) : (s.advanceTo ns).pending = s.pending := s.advanceToU_pending _

@[simp] theorem State.advanceCyc_pending (s : State) (c : Nat) : (s.advanceCyc c).pending = s.pending := by
  unfold State.advanceCyc; split
  · exact s.cycles_pending _
  · rfl

/-! ### The count of cycles (R24) -/

/-- A cycle count that is asked for has come, however late it already was. -/
theorem State.advanceCyc_cyc (s : State) (c : Nat) : (s.advanceCyc c).cyc = max s.cyc c := by
  unfold State.advanceCyc State.cycles; split
  · next h => split <;> (simp only; omega)
  · next h => omega

end Sys2Proof.Machine
end

