-- ==== Sys2Proof/WellFormed.lean ====
section
/-! DEFINITION. The well-formed commands: what the transports can carry at all (an access inside its window, an element of its
size). Every meaning is total, so an ill-formed command is harmless; claims about well-formed commands say so. -/

namespace Sys2Proof

/-- A bus access lies in BAR0 (16 MiB, R367) and is 1 to 8 bytes wide (R8). -/
def busAccess (addr size : Nat) : Bool := decide (1 ≤ size) && decide (size ≤ 8) && decide (addr + size ≤ 0x1000000)

/-- A GATHER frame as decoded has seven tag bytes, at most 64 slots and at most 64 bytes of bale (R72, R73, R82). -/
def gatherShape (f : RxFrame) : Bool := f.tag.length == 7 && decide (f.slots.length ≤ 64) && decide (f.bale.length ≤ 64)

/-- The part of a GATHER frame decoded before its lane lost lock has at most its 64 slots (R72, R113). -/
def cutShape (cut : List W64) : Bool := decide (cut.length ≤ 64)

/-- A start block carries the seven tag bytes S1 to S7 (R67). -/
def mirBlockShape : MirBlock → Bool
  | .start tag => tag.length == 7
  | _ => true

def mirrorShape (f : MirRx) : Bool := f.mir0.all mirBlockShape && f.mir1.all mirBlockShape

/-- A checker takes at most 2^16 received bits at a time. -/
def checkedBits (bits : List Bool) : Bool := decide (bits.length ≤ 65536)

/-- A CAN FD frame carries at most 64 data bytes (R435). -/
def canShape (f : CanFrame) : Bool := decide (f.data.length ≤ 64)

/-- A command entry has 64 bytes (R381). -/
def entryShape (b : List Byte) : Bool := b.length == 64

/-- A DMA descriptor has 32 bytes (R400). -/
def descShape (b : List Byte) : Bool := b.length == 32

/-- The bits of a word that a maintenance transaction leaves incomplete are fewer than 32 (R375). -/
def partialBits (n : Nat) : Bool := decide (n < 32)

/-- A BAR2 access lies in the granary (64 MiB, R367). -/
def inGranary (addr n : Nat) : Bool := decide (addr + n ≤ 67108864)

/-- The command is one that its transport can carry. -/
def Instr.wellFormed : Instr → Bool
  | .registerWrite _ a n v => busAccess a n && decide (v.toNat < 2 ^ (8 * n))
  | .readClear _ a n => busAccess a n
  | .snapshotRead _ a n => busAccess a n
  | .gatherFrame _ f _ => gatherShape f
  | .blockLockLost _ _ _ cut => cut.all cutShape
  | .lrefLost x => x.inFrame.all (fun p => cutShape p.2)
  | .ld _ _ d => decide (d.length ≤ 1)
  | .macd _ _ d => decide (d.length ≤ 2)
  | .tbl _ _ d => decide (d.length ≤ 2)
  | .ldac _ _ d => decide (d.length ≤ 2)
  | .sendWinnow _ _ d => decide (d.length ≤ 12)
  | .sendEdgePlanner _ _ d => decide (d.length ≤ 8)
  | .retentionReadback b => decide (b.length = 256)
  | .checkerLock x => checkedBits x.bits
  | .checkerLoss _ bit more => checkedBits (bit :: more)
  | .statusFrame f _ => mirrorShape f
  | .inputFrame f => mirrorShape f
  | .joinFrame f => mirrorShape f
  | .mspiWrite _ _ n => partialBits n
  | .mspiWriteGrn _ _ n => partialBits n
  | .cmdNop _ b => entryShape b
  | .cmdWrite _ b => entryShape b
  | .cmdWriteDm _ b => entryShape b
  | .cmdWriteGrn _ b => entryShape b
  | .cmdEvent _ b => entryShape b
  | .cmdFence _ b => entryShape b
  | .dmaDescriptorFetch _ b _ _ => descShape b
  | .bar2Read _ a n _ => inGranary a n
  | .bar2Write _ a b => inGranary a b.length
  | .canFrameReceived _ f _ _ => canShape f
  | .pllLock .. | .refLost .. | .lockLost .. | .periodTick .. | .gatherLaunch .. | .timeSetLaunch ..
  | .gatherDeadline .. | .availabilityCheck .. | .chargeOk .. | .orderLaunch .. | .requestBoot ..
  | .requestConfigure .. | .requestCommission .. | .requestPrecharge .. | .requestReady .. | .requestRun ..
  | .requestDiagnostic .. | .modeRequestEval .. | .seqRunStart .. | .seqRunStop .. | .allPowerRemoved ..
  | .vbatApplied .. | .mainRailsRemoved .. | .porstAssert .. | .porstRelease .. | .railFault .. | .railRecover ..
  | .railWarn .. | .blockBeacon .. | .bootReadDone .. | .bootGo .. | .bootCheckDone .. | .bootLoadDone ..
  | .checkValueDone .. | .safConfirm .. | .pendingMusterEntry .. | .musterDone .. | .helloSend .. | .helloReceived ..
  | .trainingTimeout .. | .trainingRetry .. | .echoMeasureReturn .. | .discoveryTimeout .. | .chainSplit ..
  | .blockSetRepeat .. | .markerSend .. | .markerReceived .. | .blockLockAcquired .. 
  | .chainRelockTimeout .. | .idleDelete .. | .idleInsert .. | .mirrorMarkerPair .. | .mirrorMarkerReceived ..
  | .mirrorMarkerTimeout .. | .mirrorBlockSet .. | .fomMeasure .. | .adaptFreeze .. | .adaptResume .. | .eqRxWrite ..
  | .injectSingle .. | .injectBurst .. | .armRequest .. | .selectionHandover .. | .rankComplete ..
  | .tallyUpdate .. | .cellRetire .. | .cellRelease .. | .armPlanDone .. | .planComplete .. | .ocTallyClear ..
  | .pwmReload .. | .pwmCompare .. | .pwmCommit .. | .pwmForceActive .. | .pwmForceInactive .. | .pwmForceRelease ..
  | .dlCalibrate .. | .maskExpire .. | .faultInputAssert .. | .faultInputClear .. | .syncOutPulse .. | .syncOutEnd ..
  | .syncInEdge .. | .syncInTimeout .. | .edgeRecord .. | .nop .. | .mul .. | .mac .. | .msu .. | .mac2 ..
  | .adda .. | .suba .. | .sha .. | .absa .. | .nega .. | .lda .. | .rnd .. | .ext .. | .clampa .. | .add .. | .sub ..
  | .and .. | .or .. | .xor .. | .andn .. | .shl .. | .shr .. | .sar .. | .cmp .. | .mov .. | .movi .. | .sincos ..
  | .xli .. | .xlh .. | .xadd .. | .xaddd .. | .st .. | .stac .. | .ldg ..
  | .ldgReturn .. | .stg .. | .writeBufferDrain .. | .br .. | .jmp .. | .call .. | .ret .. | .loop .. | .yield ..
  | .wait .. | .sig .. | .sigEvent .. | .dmak .. | .mvs .. | .msv .. | .inj ..
  | .cap .. | .trap .. | .trapFault .. | .pmDataWrite .. | .pmDataRead .. | .dmDataWrite .. | .dmDataRead ..
  | .coefOpen .. | .coefClose .. | .injEnable .. | .injDisable .. | .injUpdate .. | .schedulerTick .. | .slotLoad ..
  | .dispatch .. | .evtRaise .. | .fatalDispatch .. | .fatalTimeout .. | .adcResult .. | .adcConversionEnd ..
  | .adcRoundTrigger .. | .adcCalStart .. | .adcCalDone .. | .urgentRequest .. | .adcSnapshot ..
  | .snapshotRecordDone .. | .siloArm .. | .siloDisarm .. | .swTrig .. | .siloRelease .. | .cellEntryWrite ..
  | .waveTick .. | .recordDone .. | .trigInEdge .. | .trigInRearm .. | .tbSlotSend .. | .tbMessageReceived ..
  | .tbRelink .. | .tbClkLoss .. | .safetyInputAssert .. | .safeDiscrep .. | .testPulseStart .. | .testPulseEnd ..
  | .testRecoveryEnd .. | .resetPinFall .. | .resetPinRise .. | .resetRelease .. | .resetStuck .. | .safeLatchClear ..
  | .faultHistClear .. | .tripCountClear .. | .retentionWrite .. | .ilkInChange ..
  | .absentClaim .. | .lostClaim .. | .ilkOpen .. | .frozenClear .. | .statusFrameLaunch .. | .inputFrameLaunch ..
  | .mirrorPoint .. | .joinFrameLaunch .. | .handover .. | .rejoin .. | .fwdRequest .. | .portDown .. | .claim ..
  | .keepalive .. | .ownerHandover .. | .ownerRelease .. | .handoverComplete .. | .leaseExpire .. | .mspiRead ..
  | .mspiReadGrn .. | .mspiStatus .. | .mspiClaim .. | .mspiKeepalive .. | .cmdDoorbell .. | .eventHeadDoorbell ..
  | .telHeadDoorbell .. | .dumpHeadDoorbell .. | .ringEnable .. | .fenceComplete .. | .mailboxGo .. | .eventWrite ..
  | .eventVectorTimeout .. | .statusBlockWrite .. | .telRecordWritten .. | .dumpCopyDone .. | .dmaDoorbell ..
  | .dmaDescriptorEnd .. | .dmaDisable .. | .dmaDisableDone .. | .offsetRequest .. | .absoluteSet .. | .slewEnd ..
  | .rampUpdate .. | .timRequestApply .. | .ethLinkChange .. | .anRestart .. | .ethFrameReceived ..
  | .txDescriptorPoll .. | .ethFrameSent .. | .espHold .. | .espHoldRelease .. | .canEnable .. | .canModeApply ..
  | .canPush .. | .canFeedPoll .. | .canAbortHead .. | .canFlush .. | .canRecover .. | .canTxAttemptEnd ..
  | .canRecoveryDone .. | .canObjectWrite .. | .eccWriteback .. | .granaryInitDone .. | .patrolScrub ..
  | .dieTempMeasure .. | .portLinkUp .. | .lrefReturn .. => true

end Sys2Proof
end

