-- ==== Sys2Proof/Tests/Slice0.lean ====
section
/-! SUPPORT. The model's own tests: the refusals of WellFormed, small checks of single commands, and one witness for the hypotheses of
every statement that has any: in each `witness_<Name>` every clause of `Obligations.<Name>` with hypotheses of its own has a state and
operands that meet all of them together. -/



namespace Sys2Proof.Tests
set_option maxRecDepth 100000
set_option Elab.async false
open Sys2Proof.Machine

def on (m : Mode) : State :=
  { State.reset with mode := m, cyc := 1000000, pwr := { State.reset.pwr with porstLow := false, pllLocked := true, pllOnce := true } }
    |>.setF F.HIF_OWN_STAT_owner 0 |>.setF F.GRN_STAT_init_done 1
def sets (s : State) (l : List (Fld × Nat)) : State := l.foldl (fun s p => s.setF p.1 p.2) s
def runs (s : State) (ns : Nat) : State :=
  { s with now := { ns := ns, frac := 0 }, seq := { s.seq with running := true, started := true, next := ns / 10000 + 1 } }
/-- lane 0 a ring of 4 cells on arm 0, cells found and fresh -/
def mapped (s : State) : State :=
  let s := sets s [(F.GLB_LANE_MAP_topology 0, 1), (F.GLB_LANE_MAP_count 0, 4), (F.GLB_LANE_MAP_split 0, 4), (F.GLB_ARM_CFG_arm_enable 0, 1),
    (F.GLB_ARM_CFG_n_required 0, 2), (F.WIN_CELL_STAT_code 0, 0), (F.WIN_CELL_STAT_code 1, 0), (F.WIN_CELL_STAT_code 2, 2), (F.WIN_CELL_STAT_code 3, 8)]
  (s.setCell 0 { Cell.reset with vcap := 100, fresh := true, found := true }).setCell 1 { Cell.reset with vcap := 50, fresh := true, found := true }
def rq : ArmReq := { period := 7, pol := false, trimEn := true, level0 := 1, iPred := 5, iPrev := 6, trimDuty := 0, keyOffset := 0, changes := [(10, 2), (20, 3)] }

/-! ### Commands that no transport can carry are ill-formed: one for each check -/

theorem wf_refuses_a_write_of_no_bytes : (Instr.registerWrite .port0 0 0 0).wellFormed = false := by decide
theorem wf_refuses_a_write_of_nine_bytes : (Instr.registerWrite .port0 0 9 0).wellFormed = false := by decide
theorem wf_refuses_a_value_wider_than_its_write : (Instr.registerWrite .port0 0 4 0x100000000).wellFormed = false := by decide
theorem wf_refuses_a_read_beyond_the_window : (Instr.readClear .port0 0xFFFFFD 4).wellFormed = false := by decide
theorem wf_refuses_a_snapshot_read_beyond_the_window : (Instr.snapshotRead .port0 0x1000000 1).wellFormed = false := by decide
theorem wf_refuses_a_gather_frame_of_six_tag_bytes :
    (Instr.gatherFrame 0 { tag := List.replicate 6 0, time := 0, slots := [], bale := [], crc := 0, badBlocks := 0, rx := 0 } 0).wellFormed = false := by
  decide
theorem wf_refuses_a_cut_frame_of_65_slots : (Instr.blockLockLost 0 16 false (some (List.replicate 65 0))).wellFormed = false := by decide
theorem wf_refuses_a_cut_frame_of_65_slots_by_reference : (Instr.lrefLost ⟨false, [(0, List.replicate 65 0)]⟩).wellFormed = false := by decide
theorem wf_refuses_more_checked_bits_than_fit : (Instr.checkerLoss 0 true (List.replicate 65536 true)).wellFormed = false := by
  simp only [Instr.wellFormed, checkedBits, List.length_cons, List.length_replicate]
  decide
theorem wf_refuses_a_mirror_start_block_without_tag : (Instr.inputFrame { mir0 := [.start []], mir1 := [] }).wellFormed = false := by decide
theorem wf_refuses_a_partial_word_of_32_bits : (Instr.mspiWrite 0 [] 32).wellFormed = false := by decide
theorem wf_refuses_an_entry_of_63_bytes : (Instr.cmdNop 0 (List.replicate 63 0)).wellFormed = false := by decide
theorem wf_refuses_a_descriptor_of_31_bytes : (Instr.dmaDescriptorFetch 0 (List.replicate 31 0) true []).wellFormed = false := by decide
theorem wf_refuses_an_access_beyond_the_granary : (Instr.bar2Write .port0 0x3FFFFFF [1, 2]).wellFormed = false := by decide
theorem wf_refuses_a_can_frame_of_65_bytes :
    (Instr.canFrameReceived 0 { idWord := 0, control := 0, data := List.replicate 65 0 } 0 none).wellFormed = false := by decide
theorem wf_accepts_the_last_word_of_the_window : (Instr.registerWrite .port0 0xFFFFFC 4 0xFFFFFFFF).wellFormed = true := by decide

/-! ### The worked examples of the manual -/

/-- The state after a command; the state itself where the command does not complete. -/
def after (i : Instr) (s : State) : State := match exec i s with
  | .next t => t
  | _ => s

/-- The register offset in the example of section 13. -/
theorem test_offset_of_cell_861 : R.WIN_CELL_STAT (13 * 64 + 29) = 0x088D74 := by decide

/-- GLB_LANE_MAP[13] of the example of section 1: a ring of 59 cells of arm 2. -/
theorem test_lane_map_example :
    let s := State.reset.wr (R.GLB_LANE_MAP 13) 0x013B3B22
    s.topology 13 = 1 ∧ s.laneCount 13 = 59 ∧ s.f (F.GLB_LANE_MAP_split 13) = 59 ∧ s.armOfSlot 13 29 = 2 := by decide +kernel

/-- The ORDER slot of the example under R86, and the trim slot of the example in section 6. -/
theorem test_order_slot_example : orderContent slotInsert [12800] 0x12345 = 0x0014_0000_000C_8011 := by decide +kernel
theorem test_trim_slot_example : orderContent slotBypass [15000, 25000] 0x12345 = 0x0014_061A_800E_A622 := by decide +kernel

/-- Cells 861 and 870 of the example under R158: their composite keys for arm 2 in period 0x12345. -/
def keyState : State :=
  ((sets (on .run) [(F.GLB_EDGE_OFFSET_edge_offset_steps, 1400), (F.WIN_ARM_PEN_p_sw 2, 0x100), (F.WIN_ARM_PEN_k_th 2, 0),
    (F.WIN_ARM_PEN_th_code 2, 0x64), (F.WIN_CELL_TALLY_cgain 861, 54976), (F.WIN_CELL_TALLY_cgain 870, 53898),
    (F.WIN_CELL_STAT_present 861, 0), (F.WIN_CELL_STAT_present 870, 1)]).setCell 861
      { Cell.reset with vcap := 32112, lead := { start := .bypassed, toggles := [], neg := false } }).setCell 870
      { Cell.reset with vcap := 32064, lead := { start := .insPos, toggles := [], neg := false } }
def keyReq : ArmReq :=
  { period := 0x12345, pol := false, trimEn := true, level0 := 176, iPred := 1640, iPrev := 0, trimDuty := 0x4000, keyOffset := 0,
    changes := [(12800, 177)] }
theorem test_key_of_cell_861 : keyState.compositeKey 2 861 88 352 keyReq = 0x1F600293 := by decide +kernel
theorem test_key_of_cell_870 : keyState.compositeKey 2 870 97 352 keyReq = 0x1F4E409C := by decide +kernel

/-- The tally of the example under R175: a gain of 54 976 is corrected to 55 077. -/
theorem test_gain_of_ten_millifarad : cgainOf 10000 = 54976 := by decide +kernel
theorem test_corrected_gain : corrected 54976 54976 70000 68000 4 = (55077, false) := by decide +kernel

/-- The granary word of the example in section 16 lies in bank 0. -/
theorem test_bank_of_gather_word : grnBank 0x00107AE8 = 0 := by decide +kernel

/-- The word of the example under R214. -/
theorem test_mac2_word : engDecode 0x1012A680 = some (.mac2 0 1 2 1 3 4 true) := by decide +kernel

/-- Engine 11 of the example under R210: D1 is 0.75, D2 is 0.625, A0 is 0.75. -/
def macState (w : Nat) : State :=
  (((sets (runs (on .run) 1234567) [(F.ENG_STAT_state 11, engRunning), (F.ENG_TASK_tc 11, 179)]).pmPut 11 100 w).modEng 11 (fun x =>
    let c := EngCtx.initial 100 0
    { x with ctx := { c with d := (c.d.set 1 0x6000).set 2 0x5000, a := c.a.set 0 0x60000000 } }))
def macCtx (w : Nat) : EngCtx := ((after (.mac 11 .ok) (macState w)).eng 11).ctx
theorem test_mac_keeps_the_guard_bits : (macCtx 0x08120000).a[0] = 0x9C000000 ∧ (macCtx 0x08120000).fl.sat = false := by decide +kernel
theorem test_mac_saturates : (macCtx 0x08128000).a[0] = 0x7FFFFFFF ∧ (macCtx 0x08128000).fl.sat = true := by decide +kernel

/-- CAN_NBT, CAN_DBT and CAN_TDC of the example in section 15. -/
theorem test_can_timing_example :
    let s := ((on .run).wr (R.CAN_NBT 0) 0x27142805).wr (R.CAN_DBT 0) 0x130A1601
    (s.f (F.CAN_NBT_tseg1 0), s.f (F.CAN_NBT_tseg2 0), s.f (F.CAN_NBT_sjw 0), s.f (F.CAN_NBT_brp 0)) = (39, 10, 10, 5)
    ∧ (s.f (F.CAN_DBT_tseg1 0), s.f (F.CAN_DBT_tseg2 0), s.f (F.CAN_DBT_sjw 0), s.f (F.CAN_DBT_brp 0)) = (19, 5, 5, 1)
    ∧ s.f (F.CAN_DBT_tdc_en 0) = 1 ∧ s.canTimingOk 0 = true := by decide +kernel

/-! ### Single commands -/

/-- R314: an input asserted for 20 ns trips in RUN; one of 4 ns does not. -/
theorem test_safety_input_trips :
    (after (.safetyInputAssert 5 20 0x20) (on .run)).mode = .safeBlock ∧ (after (.safetyInputAssert 5 4 0x20) (on .run)).mode = .run := by decide +kernel

/-- R7: a write of a master that is not the owner changes nothing. -/
theorem test_write_of_another_master :
    (after (.cellRetire .port1 5 true) (on .run)).fb (F.WIN_CELL_STAT_retire 5) = false
    ∧ (after (.cellRetire .port0 5 true) (on .run)).fb (F.WIN_CELL_STAT_retire 5) = true := by decide +kernel

/-- The command entry of the example in section 13: retire cell 861. -/
theorem test_command_entry_example :
    let e : List Byte := [1, 1, 1, 0, 0x42, 0, 0, 0, 0, 0, 0, 0, 0, 0, 0, 0, 0x74, 0x8D, 8, 0, 0, 1, 0, 0] ++ List.replicate 40 0
    let s := sets (on .configure) [(F.HIF_PORT_STAT_link_up 0, 1), (F.HIF_RING_CFG_en 0 ringCmd, 1), (F.HIF_RING_CFG_log2_len 0 ringCmd, 6)]
    let s := (s.setRing (ringKey 0 ringCmd) { idx := 0x17, phase := true, lost := false, host := 0x18 }).setDoorbell 0 0 0x18
    let t := after (.cmdWrite 0 e) s
    (t.rd (R.WIN_CELL_STAT 861) / 2 ^ 8 % 2, (t.ring (ringKey 0 ringCmd)).idx) = (1, 0x18) := by decide +kernel

/-- Step takes the command at the front, and a second step the next. -/
theorem test_commands_run_in_order :
    let s := { on .run with pending := [.cellRetire .port0 5 true, .cellRetire .port0 5 false] }
    (match step s with | .next t => (t.fb (F.WIN_CELL_STAT_retire 5), t.pending) | _ => (false, [])) = (true, [.cellRetire .port0 5 false]) := by
  decide +kernel

namespace Selection

def a := mapped (on .run)
def a1 := (a.modUnit 0 (fun x => {x with busy := some 0})).modArm 0 (fun x => {x with work := some rq})
def a2 := ((a.select 0 rq))
def a3 := (a.modUnit 0 (fun x => {x with ranking := true, rankArms := [0]})).modArm 0 (fun x => {x with selection := some a2})
def b := sets ((mapped (on .run)) ) [(F.GLB_LANE_MAP_count 0, 1)]
def b1 := (b.modUnit 0 (fun x => {x with tallyDue := true})).modArm 0 (fun x => {x with tallyI := some (-3000)})
def b2 := sets (b1.modCell 0 (fun x => {x with freshPrev := true, calmPrev := true, codePrev := 0, vcap := 120, vcapPrev := 100, tauP := 9000, cgain0 := 100000, m := 3, accA := 4, accB := 9})) [(F.WIN_CELL_TALLY_cgain 0, 100000)]
def b3 := b2.modCell 0 (fun x => {x with m := 63})
def dm (m : Mode) : State := runs (mapped (on m)) 100000
def dd (m : Mode) : State := {dm m with seq := { (dm m).seq with gatherDone := true }}

theorem witness_SelectionRankingAndTally :
    (∃ (s : State) (u : Fin 6) (a : Nat) (r : ArmReq), (s.unit u).busy = some a ∧ (s.arm a).work = some r ∧ s.fb F.WIN_SEL_BASE_sel_en = false)
    ∧ (∃ (s : State) (u : Fin 6) (a : Fin 12) (x : Selection), ((s.unit u).ranking = true ∧ (s.unit u).rankArms = [a.val] ∧ (s.arm a).selection = some x ∨ (s.unit u).ranking = false ∧ (s.unit u).pastAt = s.cyc ∧ (s.unit u).past = [(a.val, x)]) ∧ x.cands.length ≤ 512 ∧ s.portBNow = [] ∧ s.f F.WIN_RANK_BASE_base * 16384 + a * 0x400 + 1024 ≤ grnSize)
    ∧ (∃ (s : State) (u : Fin 6), (s.unit u).ranking = true)
    ∧ (∃ (s : State) (u : Fin 6), (s.unit u).tallyDue = true ∧ (s.mode.controls = false ∨ s.fb F.WIN_TALLY_CFG_tally_en = false))
    ∧ (∃ (s : State) (u : Fin 6) (a : Fin 12) (c : Nat) (i : Int) (dp : Int), (s.unit u).tallyDue = true ∧ s.mode.controls = true ∧ s.fb F.WIN_TALLY_CFG_tally_en = true ∧ s.unitArms u = [a.val] ∧ (s.arm a).tallyI = some i ∧ s.armCells a = [c] ∧ c < 3072 ∧ dp = roundHalfAway (i * (s.cell c).tauP * s.f (F.WIN_CELL_TALLY_cgain c)) 32 ∧ ((s.cell c).fresh = true ∧ (s.cell c).freshPrev = true ∧ s.f (F.WIN_CELL_STAT_code c) = 0 ∧ (s.cell c).codePrev = 0 ∧ (s.cell c).status &&& 0x38 = 0 ∧ (s.cell c).calmPrev = true ∧ s.f F.WIN_TALLY_CFG_tally_min ≤ dp.natAbs) ∧ (s.cell c).m + 1 < s.f F.WIN_TALLY_CFG_tally_block)
    ∧ (∃ (s : State) (u : Fin 6) (a : Fin 12) (c : Nat) (i : Int) (dp : Int), (s.unit u).tallyDue = true ∧ s.mode.controls = true ∧ s.fb F.WIN_TALLY_CFG_tally_en = true ∧ s.unitArms u = [a.val] ∧ (s.arm a).tallyI = some i ∧ s.armCells a = [c] ∧ c < 3072 ∧ dp = roundHalfAway (i * (s.cell c).tauP * s.f (F.WIN_CELL_TALLY_cgain c)) 32 ∧ ((s.cell c).fresh = true ∧ (s.cell c).freshPrev = true ∧ s.f (F.WIN_CELL_STAT_code c) = 0 ∧ (s.cell c).codePrev = 0 ∧ (s.cell c).status &&& 0x38 = 0 ∧ (s.cell c).calmPrev = true ∧ s.f F.WIN_TALLY_CFG_tally_min ≤ dp.natAbs) ∧ s.f F.WIN_TALLY_CFG_tally_block ≤ (s.cell c).m + 1 ∧ (s.cell c).cgain0 < 2 ^ 24)
    ∧ (∃ (s : State) (u : Fin 6) (a : Fin 12) (c : Nat) (i : Int) (dp : Int), (s.unit u).tallyDue = true ∧ s.mode.controls = true ∧ s.fb F.WIN_TALLY_CFG_tally_en = true ∧ s.unitArms u = [a.val] ∧ (s.arm a).tallyI = some i ∧ s.armCells a = [c] ∧ c < 3072 ∧ dp = roundHalfAway (i * (s.cell c).tauP * s.f (F.WIN_CELL_TALLY_cgain c)) 32 ∧ ¬ ((s.cell c).fresh = true ∧ (s.cell c).freshPrev = true ∧ s.f (F.WIN_CELL_STAT_code c) = 0 ∧ (s.cell c).codePrev = 0 ∧ (s.cell c).status &&& 0x38 = 0 ∧ (s.cell c).calmPrev = true ∧ s.f F.WIN_TALLY_CFG_tally_min ≤ dp.natAbs)) :=
  ⟨⟨a1, 0, 0, rq, by decide +kernel⟩,
   ⟨a3, 0, 0, a2, by decide +kernel⟩,
   ⟨a3, 0, by decide +kernel⟩,
   ⟨(on .configure).modUnit 0 fun x => { x with tallyDue := true }, 0, by decide +kernel⟩,
   ⟨b2, 0, 0, 0, -3000, -629, by decide +kernel⟩,
   ⟨b3, 0, 0, 0, -3000, -629, by decide +kernel⟩,
   ⟨b1, 0, 0, 0, -3000, 0, by decide +kernel⟩⟩

theorem witness_AvailabilityTripsChargeAndRetiring :
    (∃ (s : State) (a : Fin 12), s.inPeriod = true ∧ s.seq.gatherDone = true ∧ s.seq.availDone = false ∧ s.mode.countsCells = true ∧ a.val ∈ s.enabledArms ∧ s.nInstalled a < 1024 ∧ s.mode.controls = true)
    ∧ (∃ (s : State) (a : Fin 12), s.inPeriod = true ∧ s.seq.gatherDone = true ∧ s.seq.availDone = false ∧ s.mode.countsCells = true ∧ a.val ∈ s.enabledArms ∧ s.nInstalled a < 1024 ∧ s.mode.controls = false)
    ∧ (∃ (s : State) (a : Fin 12), s.inPeriod = true ∧ s.seq.gatherDone = true ∧ s.seq.availDone = false ∧ s.mode.countsCells = true ∧ a.val ∈ s.enabledArms ∧ s.nInstalled a < 1024 ∧ s.charged = false)
    ∧ (∃ (s : State), s.inPeriod = true ∧ s.mode.countsCells = true ∧ s.f F.GLB_PRECHARGE_CFG_vc_hold ≤ s.ctl.chargeRun)
    ∧ (∃ (s : State), (s.mode.countsCells = false ∨ s.ctl.chargeRun < s.f F.GLB_PRECHARGE_CFG_vc_hold))
    ∧ (∃ (s : State) (m : Master) (c : Fin 3072) (d : Fin 3072), s.MayWrite m ∧ d ≠ c) :=
  ⟨⟨(dd .run).setF (F.GLB_ARM_CFG_n_required 0) 4, 0, by decide +kernel⟩,
   ⟨dd .muster, 0, by decide +kernel⟩,
   ⟨dd .run, 0, by decide +kernel⟩,
   ⟨{ dd .precharge with ctl := { (dd .precharge).ctl with chargeRun := 1000 } }, by decide +kernel⟩,
   ⟨dd .run, by decide +kernel⟩,
   ⟨on .run, .port0, 3071, 0, by decide +kernel⟩⟩

end Selection

namespace Engines

/-- A program word: the opcode of R215 and the values of its fields at their lowest bits. -/
def wd (op : Nat) (l : List (Nat × Nat)) : Nat := op * 2 ^ 26 + (l.map (fun p => p.1 * 2 ^ p.2)).sum
/-- Engine 11 runs task 179 at word 100, which is `w`, in RUN. -/
def eng (w : Nat) : State :=
  (((sets (runs (on .run) 1234567) [(F.ENG_STAT_state 11, engRunning), (F.ENG_TASK_tc 11, 179)]).pmPut 11 100 w).modEng 11
    (fun x => { x with ctx := EngCtx.initial 100 0 }))
/-- ... with another context, or another field of its engine. -/
def ctx (f : EngCtx → EngCtx) (s : State) : State := s.modEng 11 (fun x => { x with ctx := f x.ctx })
def eg (f : Engine → Engine) (s : State) : State := s.modEng 11 f
/-- Address register X of the engine. -/
def xr (x : Fin 8) (v : BitVec 26) : State → State := ctx (fun c => { c with x := c.x.set x v })
/-- An external write of four bytes to its data memory in the present cycle. -/
def ext (a : Nat) (s : State) : State := { s with dmExt := [(s.cyc, 11 * 32768 + a, [1, 2, 3, 4])] }
def at100 (n : Nat) : Loop := { active := true, count := n, start := 90, stop := 100 }
/-- The FATAL task 0 of engine 0 runs word `w`. -/
def fat (w : Nat) : State :=
  let s := (sets (on .run) [(F.ENG_STAT_state 0, engRunning), (F.ENG_TASK_tc 0, 0)]).pmPut 0 0 w
  { s with ctl := { s.ctl with fatal := true } }


theorem witness_AccumulatorArithmeticLimitsAndFlags :
    (∃ (s : State) (s0 : State) (e : Fin 12) (f : Ecc) (a : Fin 4) (ds : Fin 16) (dt : Fin 16) (sat : Bool), s.Fetched e f (.mul a ds dt sat) s0)
    ∧ (∃ (s : State) (s0 : State) (e : Fin 12) (f : Ecc) (a : Fin 4) (ds : Fin 16) (dt : Fin 16) (sat : Bool), s.Fetched e f (.mac a ds dt sat) s0)
    ∧ (∃ (s : State) (s0 : State) (e : Fin 12) (f : Ecc) (a : Fin 4) (ds : Fin 16) (dt : Fin 16) (sat : Bool), s.Fetched e f (.msu a ds dt sat) s0)
    ∧ (∃ (s : State) (s0 : State) (e : Fin 12) (f : Ecc) (a : Fin 4) (b : Fin 4) (sat : Bool), s.Fetched e f (.adda a b sat) s0)
    ∧ (∃ (s : State) (s0 : State) (e : Fin 12) (f : Ecc) (a : Fin 4) (b : Fin 4) (sat : Bool), s.Fetched e f (.suba a b sat) s0)
    ∧ (∃ (s : State) (s0 : State) (e : Fin 12) (f : Ecc) (a : Fin 4) (sh : Int) (sat : Bool), s.Fetched e f (.sha a sh sat) s0)
    ∧ (∃ (s : State) (s0 : State) (e : Fin 12) (f : Ecc) (a : Fin 4) (sat : Bool), s.Fetched e f (.absa a sat) s0)
    ∧ (∃ (s : State) (s0 : State) (e : Fin 12) (f : Ecc) (a : Fin 4) (sat : Bool), s.Fetched e f (.nega a sat) s0)
    ∧ (∃ (s : State) (s0 : State) (e : Fin 12) (f : Ecc) (a : Fin 4) (ds : Fin 16), s.Fetched e f (.lda a ds) s0)
    ∧ (∃ (s : State) (s0 : State) (e : Fin 12) (f : Ecc) (a : Fin 4) (ds : Fin 16) (dt : Fin 16), s.Fetched e f (.clampa a ds dt) s0) :=
  ⟨⟨eng (wd 0x01 [(3, 24), (15, 20), (1, 16), (1, 15)]), eng (wd 0x01 [(3, 24), (15, 20), (1, 16), (1, 15)]), 11, .ok, 3, 15, 1, true, by decide +kernel⟩,
   ⟨eng (wd 0x02 [(3, 24), (15, 20), (1, 16), (1, 15)]), eng (wd 0x02 [(3, 24), (15, 20), (1, 16), (1, 15)]), 11, .ok, 3, 15, 1, true, by decide +kernel⟩,
   ⟨eng (wd 0x03 [(3, 24), (15, 20), (1, 16), (1, 15)]), eng (wd 0x03 [(3, 24), (15, 20), (1, 16), (1, 15)]), 11, .ok, 3, 15, 1, true, by decide +kernel⟩,
   ⟨eng (wd 0x06 [(3, 24), (2, 22), (1, 15)]), eng (wd 0x06 [(3, 24), (2, 22), (1, 15)]), 11, .ok, 3, 2, true, by decide +kernel⟩,
   ⟨eng (wd 0x07 [(3, 24), (2, 22), (1, 15)]), eng (wd 0x07 [(3, 24), (2, 22), (1, 15)]), 11, .ok, 3, 2, true, by decide +kernel⟩,
   ⟨eng (wd 0x08 [(3, 24), (63, 16)]), eng (wd 0x08 [(3, 24), (63, 16)]), 11, .ok, 3, (-1), false, by decide +kernel⟩,
   ⟨eng (wd 0x09 [(2, 24)]), eng (wd 0x09 [(2, 24)]), 11, .ok, 2, false, by decide +kernel⟩,
   ⟨eng (wd 0x0A [(2, 24), (1, 15)]), eng (wd 0x0A [(2, 24), (1, 15)]), 11, .ok, 2, true, by decide +kernel⟩,
   ⟨eng (wd 0x0B [(1, 24), (7, 20)]), eng (wd 0x0B [(1, 24), (7, 20)]), 11, .ok, 1, 7, by decide +kernel⟩,
   ⟨eng (wd 0x0E [(1, 24), (7, 20), (8, 16)]), eng (wd 0x0E [(1, 24), (7, 20), (8, 16)]), 11, .ok, 1, 7, 8, by decide +kernel⟩⟩

theorem witness_DataRegisterArithmeticAndFlags :
    (∃ (s : State) (s0 : State) (e : Fin 12) (f : Ecc) (dd : Fin 16) (ds : Fin 16) (dt : Fin 16) (sat : Bool), s.Fetched e f (.add dd ds dt sat) s0)
    ∧ (∃ (s : State) (s0 : State) (e : Fin 12) (f : Ecc) (dd : Fin 16) (ds : Fin 16) (dt : Fin 16) (sat : Bool), s.Fetched e f (.sub dd ds dt sat) s0)
    ∧ (∃ (s : State) (s0 : State) (e : Fin 12) (f : Ecc) (ds : Fin 16) (dt : Fin 16) (u : Bool), s.Fetched e f (.cmp ds dt u) s0)
    ∧ (∃ (s : State) (s0 : State) (e : Fin 12) (f : Ecc) (dd : Fin 16) (ds : Fin 16) (dt : Fin 16), s.Fetched e f (.band dd ds dt) s0)
    ∧ (∃ (s : State) (s0 : State) (e : Fin 12) (f : Ecc) (dd : Fin 16) (ds : Fin 16) (dt : Fin 16), s.Fetched e f (.bor dd ds dt) s0)
    ∧ (∃ (s : State) (s0 : State) (e : Fin 12) (f : Ecc) (dd : Fin 16) (ds : Fin 16) (dt : Fin 16), s.Fetched e f (.bxor dd ds dt) s0)
    ∧ (∃ (s : State) (s0 : State) (e : Fin 12) (f : Ecc) (dd : Fin 16) (ds : Fin 16) (dt : Fin 16), s.Fetched e f (.bandn dd ds dt) s0)
    ∧ (∃ (s : State) (s0 : State) (e : Fin 12) (f : Ecc) (dd : Fin 16) (ds : Fin 16) (sh : Nat), s.Fetched e f (.shl dd ds sh) s0)
    ∧ (∃ (s : State) (s0 : State) (e : Fin 12) (f : Ecc) (dd : Fin 16) (ds : Fin 16) (sh : Nat), s.Fetched e f (.shr dd ds sh) s0)
    ∧ (∃ (s : State) (s0 : State) (e : Fin 12) (f : Ecc) (dd : Fin 16) (ds : Fin 16) (sh : Nat), s.Fetched e f (.sar dd ds sh) s0)
    ∧ (∃ (s : State) (s0 : State) (e : Fin 12) (f : Ecc) (dd : Fin 16) (ds : Fin 16), s.Fetched e f (.mov dd ds) s0)
    ∧ (∃ (s : State) (s0 : State) (e : Fin 12) (f : Ecc) (dd : Fin 16) (imm : Nat), s.Fetched e f (.movi dd imm) s0)
    ∧ (∃ (s : State) (s0 : State) (e : Fin 12) (f : Ecc) (dd : Fin 16) (ds : Fin 16) (dt : Fin 16) (dh : Fin 16), s.Fetched e f (.clamp dd ds dt dh) s0)
    ∧ (∃ (s : State) (s0 : State) (e : Fin 12) (f : Ecc) (a : Fin 4) (dd : Fin 16), s.Fetched e f (.rnd dd a) s0)
    ∧ (∃ (s : State) (s0 : State) (e : Fin 12) (f : Ecc) (a : Fin 4) (dd : Fin 16) (sh : Nat), s.Fetched e f (.ext dd a sh) s0) :=
  ⟨⟨eng (wd 0x10 [(15, 22), (14, 18), (13, 14), (1, 9)]), eng (wd 0x10 [(15, 22), (14, 18), (13, 14), (1, 9)]), 11, .ok, 15, 14, 13, true, by decide +kernel⟩,
   ⟨eng (wd 0x11 [(15, 22), (14, 18), (13, 14)]), eng (wd 0x11 [(15, 22), (14, 18), (13, 14)]), 11, .ok, 15, 14, 13, false, by decide +kernel⟩,
   ⟨eng (wd 0x14 [(14, 18), (13, 14), (1, 8)]), eng (wd 0x14 [(14, 18), (13, 14), (1, 8)]), 11, .ok, 14, 13, true, by decide +kernel⟩,
   ⟨eng (wd 0x12 [(15, 22), (14, 18), (13, 14), (0, 0)]), eng (wd 0x12 [(15, 22), (14, 18), (13, 14), (0, 0)]), 11, .ok, 15, 14, 13, by decide +kernel⟩,
   ⟨eng (wd 0x12 [(15, 22), (14, 18), (13, 14), (1, 0)]), eng (wd 0x12 [(15, 22), (14, 18), (13, 14), (1, 0)]), 11, .ok, 15, 14, 13, by decide +kernel⟩,
   ⟨eng (wd 0x12 [(15, 22), (14, 18), (13, 14), (2, 0)]), eng (wd 0x12 [(15, 22), (14, 18), (13, 14), (2, 0)]), 11, .ok, 15, 14, 13, by decide +kernel⟩,
   ⟨eng (wd 0x12 [(15, 22), (14, 18), (13, 14), (3, 0)]), eng (wd 0x12 [(15, 22), (14, 18), (13, 14), (3, 0)]), 11, .ok, 15, 14, 13, by decide +kernel⟩,
   ⟨eng (wd 0x13 [(15, 22), (14, 18), (15, 14), (0, 0)]), eng (wd 0x13 [(15, 22), (14, 18), (15, 14), (0, 0)]), 11, .ok, 15, 14, 15, by decide +kernel⟩,
   ⟨eng (wd 0x13 [(15, 22), (14, 18), (15, 14), (1, 0)]), eng (wd 0x13 [(15, 22), (14, 18), (15, 14), (1, 0)]), 11, .ok, 15, 14, 15, by decide +kernel⟩,
   ⟨eng (wd 0x13 [(15, 22), (14, 18), (15, 14), (2, 0)]), eng (wd 0x13 [(15, 22), (14, 18), (15, 14), (2, 0)]), 11, .ok, 15, 14, 15, by decide +kernel⟩,
   ⟨eng (wd 0x15 [(15, 22), (14, 18)]), eng (wd 0x15 [(15, 22), (14, 18)]), 11, .ok, 15, 14, by decide +kernel⟩,
   ⟨eng (wd 0x16 [(15, 22), (65535, 0)]), eng (wd 0x16 [(15, 22), (65535, 0)]), 11, .ok, 15, 0xFFFF, by decide +kernel⟩,
   ⟨eng (wd 0x0F [(15, 22), (14, 18), (13, 14), (12, 10)]), eng (wd 0x0F [(15, 22), (14, 18), (13, 14), (12, 10)]), 11, .ok, 15, 14, 13, 12, by decide +kernel⟩,
   ⟨eng (wd 0x0C [(3, 24), (9, 20)]), eng (wd 0x0C [(3, 24), (9, 20)]), 11, .ok, 3, 9, by decide +kernel⟩,
   ⟨eng (wd 0x0D [(3, 24), (9, 20), (24, 0)]), eng (wd 0x0D [(3, 24), (9, 20), (24, 0)]), 11, .ok, 3, 9, 24, by decide +kernel⟩⟩

theorem witness_DoubleMultiplyAccumulateAndTables :
    (∃ (s : State) (s0 : State) (e : Fin 12) (f : Ecc) (a : Fin 4) (b : Fin 4) (ds : Fin 16) (dt : Fin 16) (du : Fin 16) (dv : Fin 16) (sat : Bool), s.Fetched e f (.mac2 a ds dt b du dv sat) s0 ∧ a ≠ b)
    ∧ (∃ (s : State) (s0 : State) (e : Fin 12) (f : Ecc) (a : Fin 4) (b : Fin 4) (xp : Fin 8) (xq : Fin 8) (ap : Bool) (sat : Bool) (w : List Ecc), s.Fetched e f (.macd ap xp xq sat) s0 ∧ w.any Ecc.isDouble = false ∧ xp ≠ xq ∧ ((s.eng e).ctx).xU xp % 4 = 0 ∧ ((s.eng e).ctx).xU xq % 4 = 0 ∧ ((s.eng e).ctx).xU xp + 4 ≤ dmSize ∧ ((s.eng e).ctx).xU xq + 4 ≤ dmSize ∧ (a : Nat) = 2 * b2n ap ∧ (b : Nat) = 2 * b2n ap + 1)
    ∧ (∃ (s : State) (s0 : State) (e : Fin 12) (f : Ecc) (dd : Fin 16) (ds : Fin 16) (dt : Fin 16), s.Fetched e f (.sincos dd ds dt) s0 ∧ dd ≠ ds)
    ∧ (∃ (s : State) (s0 : State) (e : Fin 12) (f : Ecc) (dd : Fin 16) (ds : Fin 16) (k : Nat) (w : List Ecc), s.Fetched e f (.tbl dd ds k) s0 ∧ w.any Ecc.isDouble = false ∧ s.f (F.ENG_TBL_k e k) ≤ 15 ∧ (bitsOf (s.rd (R.ENG_TBL e k)) 14 0) % 2 = 0 ∧ (bitsOf (s.rd (R.ENG_TBL e k)) 14 0) + 2 * (2 ^ s.f (F.ENG_TBL_k e k) + 1) ≤ dmSize) :=
  ⟨⟨eng (wd 0x04 [(3, 24), (1, 20), (2, 16), (1, 15), (2, 13), (3, 9), (4, 5)]), eng (wd 0x04 [(3, 24), (1, 20), (2, 16), (1, 15), (2, 13), (3, 9), (4, 5)]), 11, .ok, 3, 2, 1, 2, 3, 4, true, by decide +kernel⟩,
   ⟨xr 2 0x7FFC (eng (wd 0x05 [(1, 25), (2, 21), (3, 18)])), xr 2 0x7FFC (eng (wd 0x05 [(1, 25), (2, 21), (3, 18)])), 11, .ok, 2, 3, 2, 3, true, false, [], by decide +kernel⟩,
   ⟨eng (wd 0x17 [(3, 22), (4, 18), (5, 14)]), eng (wd 0x17 [(3, 22), (4, 18), (5, 14)]), 11, .ok, 3, 4, 5, by decide +kernel⟩,
   ⟨sets (eng (wd 0x18 [(3, 22), (4, 18), (3, 0)])) [(F.ENG_TBL_k 11 3, 8)], sets (eng (wd 0x18 [(3, 22), (4, 18), (3, 0)])) [(F.ENG_TBL_k 11 3, 8)], 11, .ok, 3, 4, 3, [], by decide +kernel⟩⟩

theorem witness_AddressAndSpecialRegisterInstructions :
    (∃ (s : State) (s0 : State) (e : Fin 12) (f : Ecc), s.Fetched e f .nop s0)
    ∧ (∃ (s : State) (s0 : State) (e : Fin 12) (f : Ecc) (x : Fin 8) (imm : Nat), s.Fetched e f (.xli x imm) s0)
    ∧ (∃ (s : State) (s0 : State) (e : Fin 12) (f : Ecc) (x : Fin 8) (imm : Nat), s.Fetched e f (.xlh x imm) s0)
    ∧ (∃ (s : State) (s0 : State) (e : Fin 12) (f : Ecc) (x : Fin 8) (k : Int), s.Fetched e f (.xadd x k) s0)
    ∧ (∃ (s : State) (s0 : State) (e : Fin 12) (f : Ecc) (x : Fin 8) (ds : Fin 16) (sc : Nat), s.Fetched e f (.xaddd x ds sc) s0)
    ∧ (∃ (s : State) (s0 : State) (e : Fin 12) (f : Ecc) (x : Fin 8) (dd : Fin 16) (spec : _) (v : _), s.Fetched e f (.mvs dd spec) s0 ∧ (spec, v) ∈ ([(0, ((s.eng e).ctx).fl.word), (1, ((s.eng e).ctx).lc0.count), (2, ((s.eng e).ctx).lc1.count), (3, s.periodNum % 2 ^ 16), (4, s.periodNum / 2 ^ 16), (6, s.f (F.ENG_TASK_tc e)), (7, min 0xFFFF ((s.now.ns - s.pN) / 5)), (0x18, ((s.eng e).ctx).cb6.toNat), (0x19, ((s.eng e).ctx).cl6.toNat), (0x1A, ((s.eng e).ctx).cb7.toNat), (0x1B, ((s.eng e).ctx).cl7.toNat), (0x1C, s.f (F.ENG_INJ_STAT_sample e)), (0x1D, e.val), (0x08 + x.val, ((s.eng e).ctx).xU x % 2 ^ 16), (0x10 + x.val, ((s.eng e).ctx).xU x / 2 ^ 16)] : List (Nat × Nat)))
    ∧ (∃ (s : State) (s0 : State) (e : Fin 12) (f : Ecc) (dd : Fin 16), s.Fetched e f (.mvs dd 5) s0)
    ∧ (∃ (s : State) (s0 : State) (e : Fin 12) (f : Ecc) (x : Fin 8) (ds : Fin 16), s.Fetched e f (.msv ds (0x08 + x.val)) s0)
    ∧ (∃ (s : State) (s0 : State) (e : Fin 12) (f : Ecc) (x : Fin 8) (ds : Fin 16), s.Fetched e f (.msv ds (0x10 + x.val)) s0)
    ∧ (∃ (s : State) (s0 : State) (e : Fin 12) (f : Ecc) (ds : Fin 16), s.Fetched e f (.msv ds 0) s0)
    ∧ (∃ (s : State) (s0 : State) (e : Fin 12) (f : Ecc) (ds : Fin 16), s.Fetched e f (.msv ds 0x18) s0)
    ∧ (∃ (s : State) (s0 : State) (e : Fin 12) (f : Ecc) (ds : Fin 16), s.Fetched e f (.msv ds 0x19) s0)
    ∧ (∃ (s : State) (s0 : State) (e : Fin 12) (f : Ecc) (ds : Fin 16), s.Fetched e f (.msv ds 0x1A) s0)
    ∧ (∃ (s : State) (s0 : State) (e : Fin 12) (f : Ecc) (ds : Fin 16), s.Fetched e f (.msv ds 0x1B) s0) :=
  ⟨⟨eng 0, eng 0, 11, .ok, by decide +kernel⟩,
   ⟨eng (wd 0x19 [(7, 23), (65535, 0)]), eng (wd 0x19 [(7, 23), (65535, 0)]), 11, .ok, 7, 0xFFFF, by decide +kernel⟩,
   ⟨eng (wd 0x1A [(7, 23), (1023, 0)]), eng (wd 0x1A [(7, 23), (1023, 0)]), 11, .ok, 7, 0x3FF, by decide +kernel⟩,
   ⟨eng (wd 0x1B [(7, 23), (32768, 0)]), eng (wd 0x1B [(7, 23), (32768, 0)]), 11, .ok, 7, (-32768), by decide +kernel⟩,
   ⟨eng (wd 0x1C [(7, 23), (3, 18), (3, 16)]), eng (wd 0x1C [(7, 23), (3, 18), (3, 16)]), 11, .ok, 7, 3, 3, by decide +kernel⟩,
   ⟨eng (wd 0x2C [(3, 20), (29, 0)]), eng (wd 0x2C [(3, 20), (29, 0)]), 11, .ok, 0, 3, 0x1D, 11, by decide +kernel⟩,
   ⟨eng (wd 0x2C [(3, 20), (5, 0)]), eng (wd 0x2C [(3, 20), (5, 0)]), 11, .ok, 3, by decide +kernel⟩,
   ⟨eng (wd 0x2C [(1, 25), (3, 20), (15, 0)]), eng (wd 0x2C [(1, 25), (3, 20), (15, 0)]), 11, .ok, 7, 3, by decide +kernel⟩,
   ⟨eng (wd 0x2C [(1, 25), (3, 20), (23, 0)]), eng (wd 0x2C [(1, 25), (3, 20), (23, 0)]), 11, .ok, 7, 3, by decide +kernel⟩,
   ⟨eng (wd 0x2C [(1, 25), (3, 20)]), eng (wd 0x2C [(1, 25), (3, 20)]), 11, .ok, 3, by decide +kernel⟩,
   ⟨eng (wd 0x2C [(1, 25), (3, 20), (0x18, 0)]), eng (wd 0x2C [(1, 25), (3, 20), (0x18, 0)]), 11, .ok, 3, by decide +kernel⟩,
   ⟨eng (wd 0x2C [(1, 25), (3, 20), (0x19, 0)]), eng (wd 0x2C [(1, 25), (3, 20), (0x19, 0)]), 11, .ok, 3, by decide +kernel⟩,
   ⟨eng (wd 0x2C [(1, 25), (3, 20), (0x1A, 0)]), eng (wd 0x2C [(1, 25), (3, 20), (0x1A, 0)]), 11, .ok, 3, by decide +kernel⟩,
   ⟨eng (wd 0x2C [(1, 25), (3, 20), (0x1B, 0)]), eng (wd 0x2C [(1, 25), (3, 20), (0x1B, 0)]), 11, .ok, 3, by decide +kernel⟩⟩

theorem witness_DataMemoryLoadsAndStores :
    (∃ (s : State) (s0 : State) (e : Fin 12) (f : Ecc) (d : Fin 16) (m : MemArg) (a : Nat) (xv : BitVec 26) (w : List Ecc), (m.mode = 0 ∧ (a : Int) = ((((s.eng e).ctx).xU m.xp) + m.off) % 2 ^ 26 ∧ xv = ((s.eng e).ctx).x.get m.xp ∨ m.mode = 1 ∧ (a : Int) = (((s.eng e).ctx).xU m.xp) ∧ xv = BitVec.ofInt 26 ((((s.eng e).ctx).xU m.xp) + m.off) ∨ m.mode = 2 ∧ (m.xp = 6 ∨ m.xp = 7) ∧ (if m.xp = 6 then ((s.eng e).ctx).cl6.toNat else ((s.eng e).ctx).cl7.toNat) ≠ 0 ∧ (a : Int) = (((s.eng e).ctx).xU m.xp) ∧ xv = BitVec.ofInt 26 ((if m.xp = 6 then ((s.eng e).ctx).cb6.toNat else ((s.eng e).ctx).cb7.toNat) + ((((s.eng e).ctx).xU m.xp) - (if m.xp = 6 then ((s.eng e).ctx).cb6.toNat else ((s.eng e).ctx).cb7.toNat) + m.off) % (if m.xp = 6 then ((s.eng e).ctx).cl6.toNat else ((s.eng e).ctx).cl7.toNat))) ∧ s.Fetched e f (.ld d m) s0 ∧ a + 2 ≤ dmSize ∧ a % 2 = 0 ∧ w.any Ecc.isDouble = false)
    ∧ (∃ (s : State) (s0 : State) (e : Fin 12) (f : Ecc) (r : Fin 4) (m : MemArg) (a : Nat) (xv : BitVec 26) (w : List Ecc), (m.mode = 0 ∧ (a : Int) = ((((s.eng e).ctx).xU m.xp) + m.off) % 2 ^ 26 ∧ xv = ((s.eng e).ctx).x.get m.xp ∨ m.mode = 1 ∧ (a : Int) = (((s.eng e).ctx).xU m.xp) ∧ xv = BitVec.ofInt 26 ((((s.eng e).ctx).xU m.xp) + m.off) ∨ m.mode = 2 ∧ (m.xp = 6 ∨ m.xp = 7) ∧ (if m.xp = 6 then ((s.eng e).ctx).cl6.toNat else ((s.eng e).ctx).cl7.toNat) ≠ 0 ∧ (a : Int) = (((s.eng e).ctx).xU m.xp) ∧ xv = BitVec.ofInt 26 ((if m.xp = 6 then ((s.eng e).ctx).cb6.toNat else ((s.eng e).ctx).cb7.toNat) + ((((s.eng e).ctx).xU m.xp) - (if m.xp = 6 then ((s.eng e).ctx).cb6.toNat else ((s.eng e).ctx).cb7.toNat) + m.off) % (if m.xp = 6 then ((s.eng e).ctx).cl6.toNat else ((s.eng e).ctx).cl7.toNat))) ∧ s.Fetched e f (.ldac r m) s0 ∧ a + 8 ≤ dmSize ∧ a % 8 = 0 ∧ w.any Ecc.isDouble = false)
    ∧ (∃ (s : State) (s0 : State) (e : Fin 12) (f : Ecc) (d : Fin 16) (m : MemArg) (a : Nat) (xv : BitVec 26), (m.mode = 0 ∧ (a : Int) = ((((s.eng e).ctx).xU m.xp) + m.off) % 2 ^ 26 ∧ xv = ((s.eng e).ctx).x.get m.xp ∨ m.mode = 1 ∧ (a : Int) = (((s.eng e).ctx).xU m.xp) ∧ xv = BitVec.ofInt 26 ((((s.eng e).ctx).xU m.xp) + m.off) ∨ m.mode = 2 ∧ (m.xp = 6 ∨ m.xp = 7) ∧ (if m.xp = 6 then ((s.eng e).ctx).cl6.toNat else ((s.eng e).ctx).cl7.toNat) ≠ 0 ∧ (a : Int) = (((s.eng e).ctx).xU m.xp) ∧ xv = BitVec.ofInt 26 ((if m.xp = 6 then ((s.eng e).ctx).cb6.toNat else ((s.eng e).ctx).cb7.toNat) + ((((s.eng e).ctx).xU m.xp) - (if m.xp = 6 then ((s.eng e).ctx).cb6.toNat else ((s.eng e).ctx).cb7.toNat) + m.off) % (if m.xp = 6 then ((s.eng e).ctx).cl6.toNat else ((s.eng e).ctx).cl7.toNat))) ∧ s.Fetched e f (.st d m) s0 ∧ a + 2 ≤ dmSize ∧ a % 2 = 0 ∧ s.dmExtNow = [])
    ∧ (∃ (s : State) (s0 : State) (e : Fin 12) (f : Ecc) (r : Fin 4) (m : MemArg) (a : Nat) (xv : BitVec 26), (m.mode = 0 ∧ (a : Int) = ((((s.eng e).ctx).xU m.xp) + m.off) % 2 ^ 26 ∧ xv = ((s.eng e).ctx).x.get m.xp ∨ m.mode = 1 ∧ (a : Int) = (((s.eng e).ctx).xU m.xp) ∧ xv = BitVec.ofInt 26 ((((s.eng e).ctx).xU m.xp) + m.off) ∨ m.mode = 2 ∧ (m.xp = 6 ∨ m.xp = 7) ∧ (if m.xp = 6 then ((s.eng e).ctx).cl6.toNat else ((s.eng e).ctx).cl7.toNat) ≠ 0 ∧ (a : Int) = (((s.eng e).ctx).xU m.xp) ∧ xv = BitVec.ofInt 26 ((if m.xp = 6 then ((s.eng e).ctx).cb6.toNat else ((s.eng e).ctx).cb7.toNat) + ((((s.eng e).ctx).xU m.xp) - (if m.xp = 6 then ((s.eng e).ctx).cb6.toNat else ((s.eng e).ctx).cb7.toNat) + m.off) % (if m.xp = 6 then ((s.eng e).ctx).cl6.toNat else ((s.eng e).ctx).cl7.toNat))) ∧ s.Fetched e f (.stac r m) s0 ∧ a + 8 ≤ dmSize ∧ a % 8 = 0 ∧ s.dmExtNow = [])
    ∧ (∃ (s : State) (s0 : State) (e : Fin 12) (f : Ecc) (d : Fin 16) (m : MemArg) (a : Nat) (xv : BitVec 26) (y : _), (m.mode = 0 ∧ (a : Int) = ((((s.eng e).ctx).xU m.xp) + m.off) % 2 ^ 26 ∧ xv = ((s.eng e).ctx).x.get m.xp ∨ m.mode = 1 ∧ (a : Int) = (((s.eng e).ctx).xU m.xp) ∧ xv = BitVec.ofInt 26 ((((s.eng e).ctx).xU m.xp) + m.off) ∨ m.mode = 2 ∧ (m.xp = 6 ∨ m.xp = 7) ∧ (if m.xp = 6 then ((s.eng e).ctx).cl6.toNat else ((s.eng e).ctx).cl7.toNat) ≠ 0 ∧ (a : Int) = (((s.eng e).ctx).xU m.xp) ∧ xv = BitVec.ofInt 26 ((if m.xp = 6 then ((s.eng e).ctx).cb6.toNat else ((s.eng e).ctx).cb7.toNat) + ((((s.eng e).ctx).xU m.xp) - (if m.xp = 6 then ((s.eng e).ctx).cb6.toNat else ((s.eng e).ctx).cb7.toNat) + m.off) % (if m.xp = 6 then ((s.eng e).ctx).cl6.toNat else ((s.eng e).ctx).cl7.toNat))) ∧ s.dmExtNow = [y] ∧ s.Fetched e f (.st d m) s0 ∧ a + 2 ≤ dmSize ∧ a % 2 = 0)
    ∧ (∃ (s : State) (s0 : State) (e : Fin 12) (f : Ecc) (r : Fin 4) (m : MemArg) (a : Nat) (xv : BitVec 26) (y : _), (m.mode = 0 ∧ (a : Int) = ((((s.eng e).ctx).xU m.xp) + m.off) % 2 ^ 26 ∧ xv = ((s.eng e).ctx).x.get m.xp ∨ m.mode = 1 ∧ (a : Int) = (((s.eng e).ctx).xU m.xp) ∧ xv = BitVec.ofInt 26 ((((s.eng e).ctx).xU m.xp) + m.off) ∨ m.mode = 2 ∧ (m.xp = 6 ∨ m.xp = 7) ∧ (if m.xp = 6 then ((s.eng e).ctx).cl6.toNat else ((s.eng e).ctx).cl7.toNat) ≠ 0 ∧ (a : Int) = (((s.eng e).ctx).xU m.xp) ∧ xv = BitVec.ofInt 26 ((if m.xp = 6 then ((s.eng e).ctx).cb6.toNat else ((s.eng e).ctx).cb7.toNat) + ((((s.eng e).ctx).xU m.xp) - (if m.xp = 6 then ((s.eng e).ctx).cb6.toNat else ((s.eng e).ctx).cb7.toNat) + m.off) % (if m.xp = 6 then ((s.eng e).ctx).cl6.toNat else ((s.eng e).ctx).cl7.toNat))) ∧ s.dmExtNow = [y] ∧ s.Fetched e f (.stac r m) s0 ∧ a + 8 ≤ dmSize ∧ a % 8 = 0) :=
  ⟨⟨xr 6 0x7FFE (eng (wd 0x1D [(5, 22), (6, 19)])), xr 6 0x7FFE (eng (wd 0x1D [(5, 22), (6, 19)])), 11, .ok, 5, { xp := 6, mode := 0, off := 0 }, 0x7FFE, 0x7FFE, [], by decide +kernel⟩,
   ⟨xr 6 0x7FF8 (eng (wd 0x1F [(1, 24), (6, 19), (1, 17), (8, 0)])), xr 6 0x7FF8 (eng (wd 0x1F [(1, 24), (6, 19), (1, 17), (8, 0)])), 11, .ok, 1, { xp := 6, mode := 1, off := 8 }, 0x7FF8, 0x8000, [], by decide +kernel⟩,
   ⟨ctx (fun c => { c with cl6 := 16, cb6 := 32 }) (xr 6 46 (eng (wd 0x1E [(5, 22), (6, 19), (2, 17), (2, 0)]))), ctx (fun c => { c with cl6 := 16, cb6 := 32 }) (xr 6 46 (eng (wd 0x1E [(5, 22), (6, 19), (2, 17), (2, 0)]))), 11, .ok, 5, { xp := 6, mode := 2, off := 2 }, 46, 32, by decide +kernel⟩,
   ⟨xr 6 8 (eng (wd 0x20 [(1, 24), (6, 19), (65528, 0)])), xr 6 8 (eng (wd 0x20 [(1, 24), (6, 19), (65528, 0)])), 11, .ok, 1, { xp := 6, mode := 0, off := -8 }, 0, 8, by decide +kernel⟩,
   ⟨ext 44 (ctx (fun c => { c with cl6 := 16, cb6 := 32 }) (xr 6 46 (eng (wd 0x1E [(5, 22), (6, 19), (2, 17), (2, 0)])))), ext 44 (ctx (fun c => { c with cl6 := 16, cb6 := 32 }) (xr 6 46 (eng (wd 0x1E [(5, 22), (6, 19), (2, 17), (2, 0)])))), 11, .ok, 5, { xp := 6, mode := 2, off := 2 }, 46, 32, (1000000, 360492, [1, 2, 3, 4]), by decide +kernel⟩,
   ⟨ext 4 (xr 6 8 (eng (wd 0x20 [(1, 24), (6, 19), (65528, 0)]))), ext 4 (xr 6 8 (eng (wd 0x20 [(1, 24), (6, 19), (65528, 0)]))), 11, .ok, 1, { xp := 6, mode := 0, off := -8 }, 0, 8, (1000000, 360452, [1, 2, 3, 4]), by decide +kernel⟩⟩

theorem witness_GranaryAccessOfAnEngine :
    (∃ (s : State) (s0 : State) (e : Fin 12) (f : Ecc) (d : Fin 16) (m : MemArg) (a : Nat) (xv : BitVec 26), ((s.eng e).ctx).memAddr m = some (a, xv) ∧ a % 2 = 0 ∧ s.Fetched e f (.ldg d m) s0)
    ∧ (∃ (s : State) (s0 : State) (e : Fin 12) (f : Ecc) (d : Fin 16) (m : MemArg) (a : Nat) (xv : BitVec 26), ((s.eng e).ctx).memAddr m = some (a, xv) ∧ a % 2 = 0 ∧ s.Fetched e f (.stg d m) s0 ∧ (s.eng e).wbuf.length < 8)
    ∧ (∃ (s : State) (s0 : State) (e : Fin 12) (f : Ecc) (d : Fin 16) (m : MemArg) (a : Nat) (xv : BitVec 26), ((s.eng e).ctx).memAddr m = some (a, xv) ∧ a % 2 = 0 ∧ s.Fetched e f (.stg d m) s0 ∧ 8 ≤ (s.eng e).wbuf.length)
    ∧ (∃ (s : State) (e : Fin 12) (w : _), s.live = true ∧ s.engState e = engRunning ∧ (s.eng e).ldg = some w ∧ w.addr + 2 ≤ grnSize ∧ s.grnBad = [])
    ∧ (∃ (s : State) (e : Fin 12) (w : _) (rest : _), s.live = true ∧ (s.eng e).wbuf = w :: rest ∧ w.1 + w.2.length ≤ grnSize ∧ s.portBNow = [])
    ∧ (∃ (s : State) (s0 : State) (e : Fin 12) (f : Ecc) (d : Fin 16) (ch : Nat), s.Fetched e f (.cap d ch) s0 ∧ s.fb (F.ENG_CAP_CTL_cap_en e) = true ∧ (s.eng e).capStop = false ∧ (s.eng e).wbuf.length < 8) :=
  ⟨⟨xr 6 0x3FFFFFE (eng (wd 0x21 [(5, 22), (6, 19)])), xr 6 0x3FFFFFE (eng (wd 0x21 [(5, 22), (6, 19)])), 11, .ok, 5, { xp := 6, mode := 0, off := 0 }, 0x3FFFFFE, 0x3FFFFFE, by decide +kernel⟩,
   ⟨eg (fun x => { x with wbuf := List.replicate 7 (0, [1, 2]) }) (xr 6 2 (eng (wd 0x22 [(5, 22), (6, 19)]))), eg (fun x => { x with wbuf := List.replicate 7 (0, [1, 2]) }) (xr 6 2 (eng (wd 0x22 [(5, 22), (6, 19)]))), 11, .ok, 5, { xp := 6, mode := 0, off := 0 }, 2, 2, by decide +kernel⟩,
   ⟨eg (fun x => { x with wbuf := List.replicate 8 (0, [1, 2]) }) (xr 6 2 (eng (wd 0x22 [(5, 22), (6, 19)]))), eg (fun x => { x with wbuf := List.replicate 8 (0, [1, 2]) }) (xr 6 2 (eng (wd 0x22 [(5, 22), (6, 19)]))), 11, .ok, 5, { xp := 6, mode := 0, off := 0 }, 2, 2, by decide +kernel⟩,
   ⟨eg (fun x => { x with ldg := some { dest := 2, addr := 0x3FFFFFE, xp := 3, xval := 7 } }) (eng 0), 11, { dest := 2, addr := 0x3FFFFFE, xp := 3, xval := 7 }, by decide +kernel⟩,
   ⟨eg (fun x => { x with wbuf := [(0x3FFFFFE, [1, 2]), (0, [3, 4])] }) (eng 0), 11, (0x3FFFFFE, [1, 2]), [(0, [3, 4])], by decide +kernel⟩,
   ⟨sets (eng (wd 0x2E [(4, 18), (3, 0)])) [(F.ENG_CAP_CTL_cap_en 11, 1)], sets (eng (wd 0x2E [(4, 18), (3, 0)])) [(F.ENG_CAP_CTL_cap_en 11, 1)], 11, .ok, 4, 3, by decide +kernel⟩⟩

theorem witness_BranchesCallsAndLoops :
    (∃ (s : State) (s0 : State) (e : Fin 12) (f : Ecc) (k : Nat) (off : Int), s.Fetched e f (.br k off) s0 ∧ k ≤ 11 ∧ (match k with | 0 => true | 1 => ((s.eng e).ctx).fl.z | 2 => !((s.eng e).ctx).fl.z | 3 => ((s.eng e).ctx).fl.n != ((s.eng e).ctx).fl.v | 4 => ((s.eng e).ctx).fl.n == ((s.eng e).ctx).fl.v | 5 => ((s.eng e).ctx).fl.z || ((s.eng e).ctx).fl.n != ((s.eng e).ctx).fl.v | 6 => !((s.eng e).ctx).fl.z && ((s.eng e).ctx).fl.n == ((s.eng e).ctx).fl.v | 7 => !((s.eng e).ctx).fl.c | 8 => ((s.eng e).ctx).fl.c | 9 => ((s.eng e).ctx).fl.n | 10 => !((s.eng e).ctx).fl.n | _ => ((s.eng e).ctx).fl.sat) = true)
    ∧ (∃ (s : State) (s0 : State) (e : Fin 12) (f : Ecc) (k : Nat) (off : Int), s.Fetched e f (.br k off) s0 ∧ k ≤ 11 ∧ (match k with | 0 => true | 1 => ((s.eng e).ctx).fl.z | 2 => !((s.eng e).ctx).fl.z | 3 => ((s.eng e).ctx).fl.n != ((s.eng e).ctx).fl.v | 4 => ((s.eng e).ctx).fl.n == ((s.eng e).ctx).fl.v | 5 => ((s.eng e).ctx).fl.z || ((s.eng e).ctx).fl.n != ((s.eng e).ctx).fl.v | 6 => !((s.eng e).ctx).fl.z && ((s.eng e).ctx).fl.n == ((s.eng e).ctx).fl.v | 7 => !((s.eng e).ctx).fl.c | 8 => ((s.eng e).ctx).fl.c | 9 => ((s.eng e).ctx).fl.n | 10 => !((s.eng e).ctx).fl.n | _ => ((s.eng e).ctx).fl.sat) = false ∧ ¬ (((s.eng e).ctx).lc0.active = true ∧ ((s.eng e).ctx).lc0.stop = ((s.eng e).ctx).pc) ∧ ¬ (((s.eng e).ctx).lc1.active = true ∧ ((s.eng e).ctx).lc1.stop = ((s.eng e).ctx).pc))
    ∧ (∃ (s : State) (s0 : State) (e : Fin 12) (f : Ecc) (tgt : BitVec 14), s.Fetched e f (.jmp tgt) s0)
    ∧ (∃ (s : State) (s0 : State) (e : Fin 12) (f : Ecc) (tgt : BitVec 14), s.Fetched e f (.call tgt) s0 ∧ ((s.eng e).ctx).stack.length < 8)
    ∧ (∃ (s : State) (s0 : State) (e : Fin 12) (f : Ecc) (st : _) (ret : _), s.Fetched e f .ret s0 ∧ ((s.eng e).ctx).stack = st ++ [ret])
    ∧ (∃ (s : State) (s0 : State) (e : Fin 12) (f : Ecc) (count : Nat) (len : Nat) (n : Bool) (r : Bool) (ds : Fin 16), s.Fetched e f (.loop n r ds count len) s0 ∧ (((s.eng e).ctx).lc n).active = false ∧ 0 < (if r then ((s.eng e).ctx).dU ds else count) ∧ ¬ ((((s.eng e).ctx).lc (!n)).active = true ∧ (((s.eng e).ctx).lc (!n)).stop = ((s.eng e).ctx).pc))
    ∧ (∃ (s : State) (s0 : State) (e : Fin 12) (f : Ecc) (count : Nat) (len : Nat) (n : Bool) (r : Bool) (ds : Fin 16), s.Fetched e f (.loop n r ds count len) s0 ∧ (((s.eng e).ctx).lc n).active = false ∧ (if r then ((s.eng e).ctx).dU ds else count) = 0 ∧ ¬ ((((s.eng e).ctx).lc (!n)).active = true ∧ (((s.eng e).ctx).lc (!n)).stop = ((s.eng e).ctx).pc))
    ∧ (∃ (s : State) (s0 : State) (e : Fin 12) (f : Ecc), s.Fetched e f .nop s0 ∧ (((s.eng e).ctx).lc0.active = true ∧ ((s.eng e).ctx).lc0.stop = ((s.eng e).ctx).pc) ∧ 1 < ((s.eng e).ctx).lc0.count ∧ ((s.eng e).ctx).lc1.active = false)
    ∧ (∃ (s : State) (s0 : State) (e : Fin 12) (f : Ecc), s.Fetched e f .nop s0 ∧ (((s.eng e).ctx).lc0.active = true ∧ ((s.eng e).ctx).lc0.stop = ((s.eng e).ctx).pc) ∧ ((s.eng e).ctx).lc0.count = 1 ∧ ((s.eng e).ctx).lc1.active = false)
    ∧ (∃ (s : State) (s0 : State) (e : Fin 12) (f : Ecc), s.Fetched e f .nop s0 ∧ (((s.eng e).ctx).lc0.active = true ∧ ((s.eng e).ctx).lc0.stop = ((s.eng e).ctx).pc) ∧ (((s.eng e).ctx).lc1.active = true ∧ ((s.eng e).ctx).lc1.stop = ((s.eng e).ctx).pc) ∧ ((s.eng e).ctx).lc1Later = true ∧ ((s.eng e).ctx).lc1.count = 1 ∧ 1 < ((s.eng e).ctx).lc0.count) :=
  ⟨⟨eng (wd 0x23 [(2, 22), (32768, 0)]), eng (wd 0x23 [(2, 22), (32768, 0)]), 11, .ok, 2, (-32768), by decide +kernel⟩,
   ⟨eng (wd 0x23 [(11, 22), (5, 0)]), eng (wd 0x23 [(11, 22), (5, 0)]), 11, .ok, 11, 5, by decide +kernel⟩,
   ⟨eng (wd 0x24 [(16383, 0)]), eng (wd 0x24 [(16383, 0)]), 11, .ok, 0x3FFF, by decide +kernel⟩,
   ⟨ctx (fun c => { c with stack := [1, 2, 3, 4, 5, 6, 7] }) (eng (wd 0x24 [(1, 25), (5, 0)])), ctx (fun c => { c with stack := [1, 2, 3, 4, 5, 6, 7] }) (eng (wd 0x24 [(1, 25), (5, 0)])), 11, .ok, 5, by decide +kernel⟩,
   ⟨ctx (fun c => { c with stack := [1, 2, 3, 4, 5, 6, 7] }) (eng (wd 0x25 [])), ctx (fun c => { c with stack := [1, 2, 3, 4, 5, 6, 7] }) (eng (wd 0x25 [])), 11, .ok, [1, 2, 3, 4, 5, 6], 7, by decide +kernel⟩,
   ⟨eng (wd 0x26 [(1, 25), (4095, 8), (255, 0)]), eng (wd 0x26 [(1, 25), (4095, 8), (255, 0)]), 11, .ok, 0xFFF, 0xFF, true, false, 0, by decide +kernel⟩,
   ⟨eng (wd 0x26 [(1, 24), (3, 20), (1, 0)]), eng (wd 0x26 [(1, 24), (3, 20), (1, 0)]), 11, .ok, 0, 1, false, true, 3, by decide +kernel⟩,
   ⟨ctx (fun c => { c with lc0 := at100 2 }) (eng 0), ctx (fun c => { c with lc0 := at100 2 }) (eng 0), 11, .ok, by decide +kernel⟩,
   ⟨ctx (fun c => { c with lc0 := at100 1 }) (eng 0), ctx (fun c => { c with lc0 := at100 1 }) (eng 0), 11, .ok, by decide +kernel⟩,
   ⟨ctx (fun c => { c with lc0 := at100 2, lc1 := at100 1, lc1Later := true }) (eng 0), ctx (fun c => { c with lc0 := at100 2, lc1 := at100 1, lc1Later := true }) (eng 0), 11, .ok, by decide +kernel⟩⟩

theorem witness_EngineFaultsBeforeAnyEffect :
    (∃ (s : State) (e : Fin 12) (d : List Ecc) (i : Fin 64) (j : Fin 64) (x : _), s.canIssue e = true ∧ x ∈ engRows e (.double i j) d)
    ∧ (∃ (s : State) (e : Fin 12) (d : List Ecc) (x : _), s.canIssue e = true ∧ engDecode (s.pmWord e ((s.eng e).ctx).pc.toNat) = none ∧ x ∈ engRows e .ok d)
    ∧ (∃ (s : State) (s0 : State) (e : Fin 12) (f : Ecc) (m : MemArg) (r : Fin 16) (adr : Nat) (xv : BitVec 26), ((s.eng e).ctx).memAddr m = some (adr, xv) ∧ s.Fetched e f (.ld r m) s0 ∧ dmSize < adr + 2)
    ∧ (∃ (s : State) (s0 : State) (e : Fin 12) (f : Ecc) (m : MemArg) (r : Fin 16) (adr : Nat) (xv : BitVec 26), ((s.eng e).ctx).memAddr m = some (adr, xv) ∧ s.Fetched e f (.st r m) s0 ∧ adr + 2 ≤ dmSize ∧ adr % 2 = 1)
    ∧ (∃ (s : State) (s0 : State) (e : Fin 12) (f : Ecc) (m : MemArg) (a : Fin 4) (adr : Nat) (xv : BitVec 26), ((s.eng e).ctx).memAddr m = some (adr, xv) ∧ s.Fetched e f (.ldac a m) s0 ∧ adr + 8 ≤ dmSize ∧ adr % 8 ≠ 0)
    ∧ (∃ (s : State) (s0 : State) (e : Fin 12) (f : Ecc) (m : MemArg) (a : Fin 4) (adr : Nat) (xv : BitVec 26), ((s.eng e).ctx).memAddr m = some (adr, xv) ∧ s.Fetched e f (.stac a m) s0 ∧ dmSize < adr + 8)
    ∧ (∃ (s : State) (s0 : State) (e : Fin 12) (f : Ecc) (d : List Ecc) (m : MemArg) (r : Fin 16) (adr : Nat) (xv : BitVec 26), ((s.eng e).ctx).memAddr m = some (adr, xv) ∧ s.Fetched e f (.ld r m) s0 ∧ adr + 2 ≤ dmSize ∧ adr % 2 = 0 ∧ d.any Ecc.isDouble = true)
    ∧ (∃ (s : State) (s0 : State) (e : Fin 12) (f : Ecc) (m : MemArg) (r : Fin 16) (adr : Nat) (xv : BitVec 26), ((s.eng e).ctx).memAddr m = some (adr, xv) ∧ s.Fetched e f (.ldg r m) s0 ∧ adr % 2 = 1)
    ∧ (∃ (s : State) (s0 : State) (e : Fin 12) (f : Ecc) (n : Bool) (q : Bool) (xp : Fin 8) (xq : Fin 8), s.Fetched e f (.macd n xp xq q) s0 ∧ (dmSize < ((s.eng e).ctx).xU xp + 4 ∨ dmSize < ((s.eng e).ctx).xU xq + 4))
    ∧ (∃ (s : State) (s0 : State) (e : Fin 12) (f : Ecc) (n : Bool) (q : Bool) (xp : Fin 8) (xq : Fin 8), s.Fetched e f (.macd n xp xq q) s0 ∧ ((s.eng e).ctx).xU xp + 4 ≤ dmSize ∧ ((s.eng e).ctx).xU xq + 4 ≤ dmSize ∧ (((s.eng e).ctx).xU xp % 4 ≠ 0 ∨ ((s.eng e).ctx).xU xq % 4 ≠ 0))
    ∧ (∃ (s : State) (s0 : State) (e : Fin 12) (f : Ecc) (r : Fin 16) (count : Nat), s.Fetched e f (.tbl r r count) s0 ∧ dmSize < bitsOf (s.rd (R.ENG_TBL e count)) 14 0 - bitsOf (s.rd (R.ENG_TBL e count)) 0 0 + 2 * (2 ^ s.f (F.ENG_TBL_k e count) + 1))
    ∧ (∃ (s : State) (s0 : State) (e : Fin 12) (f : Ecc) (xp : Fin 8), s.Fetched e f (.send 0 xp) s0 ∧ (s.eng e).wbuf = [] ∧ ((s.eng e).ctx).xU xp + 48 ≤ dmSize ∧ ((s.eng e).ctx).xU xp % 8 ≠ 0)
    ∧ (∃ (s : State) (s0 : State) (e : Fin 12) (f : Ecc) (t : BitVec 14), s.Fetched e f (.call t) s0 ∧ 8 ≤ ((s.eng e).ctx).stack.length)
    ∧ (∃ (s : State) (s0 : State) (e : Fin 12) (f : Ecc), s.Fetched e f .ret s0 ∧ ((s.eng e).ctx).stack = [])
    ∧ (∃ (s : State) (s0 : State) (e : Fin 12) (f : Ecc) (r : Fin 16) (n : Bool) (q : Bool) (count : Nat) (len : Nat), s.Fetched e f (.loop n q r count len) s0 ∧ (((s.eng e).ctx).lc n).active = true)
    ∧ (∃ (s : State) (s0 : State) (e : Fin 12) (f : Ecc) (code : Nat), s.Fetched e f (.trapFault code) s0)
    ∧ (∃ (s : State), s.ctl.fatal = true)
    ∧ (∃ (s : State) (e : Fin 12) (f : Ecc) (d : List Ecc) (x : _), s.canIssue e = false ∧ x ∈ engRows e f d) :=
  ⟨⟨eng 0, 11, [], 0, 1, .trapFault 11 (.double 0 1), by decide +kernel⟩,
   ⟨eng (wd 0x3F []), 11, [], .nop 11 .ok, by decide +kernel⟩,
   ⟨xr 6 0x7FFF (eng (wd 0x1D [(5, 22), (6, 19)])), xr 6 0x7FFF (eng (wd 0x1D [(5, 22), (6, 19)])), 11, .ok, { xp := 6, mode := 0, off := 0 }, 5, 0x7FFF, 0x7FFF, by decide +kernel⟩,
   ⟨xr 6 0x7FFD (eng (wd 0x1E [(5, 22), (6, 19)])), xr 6 0x7FFD (eng (wd 0x1E [(5, 22), (6, 19)])), 11, .ok, { xp := 6, mode := 0, off := 0 }, 5, 0x7FFD, 0x7FFD, by decide +kernel⟩,
   ⟨xr 6 0x7FF4 (eng (wd 0x1F [(1, 24), (6, 19)])), xr 6 0x7FF4 (eng (wd 0x1F [(1, 24), (6, 19)])), 11, .ok, { xp := 6, mode := 0, off := 0 }, 1, 0x7FF4, 0x7FF4, by decide +kernel⟩,
   ⟨xr 6 0x7FF9 (eng (wd 0x20 [(1, 24), (6, 19)])), xr 6 0x7FF9 (eng (wd 0x20 [(1, 24), (6, 19)])), 11, .ok, { xp := 6, mode := 0, off := 0 }, 1, 0x7FF9, 0x7FF9, by decide +kernel⟩,
   ⟨xr 6 0x7FFE (eng (wd 0x1D [(5, 22), (6, 19)])), xr 6 0x7FFE (eng (wd 0x1D [(5, 22), (6, 19)])), 11, .ok, [.double 0 1], { xp := 6, mode := 0, off := 0 }, 5, 0x7FFE, 0x7FFE, by decide +kernel⟩,
   ⟨xr 6 0x3FFFFFF (eng (wd 0x21 [(5, 22), (6, 19)])), xr 6 0x3FFFFFF (eng (wd 0x21 [(5, 22), (6, 19)])), 11, .ok, { xp := 6, mode := 0, off := 0 }, 5, 0x3FFFFFF, 0x3FFFFFF, by decide +kernel⟩,
   ⟨xr 2 0x7FFD (eng (wd 0x05 [(2, 21), (3, 18)])), xr 2 0x7FFD (eng (wd 0x05 [(2, 21), (3, 18)])), 11, .ok, false, false, 2, 3, by decide +kernel⟩,
   ⟨xr 2 0x7FFA (eng (wd 0x05 [(2, 21), (3, 18)])), xr 2 0x7FFA (eng (wd 0x05 [(2, 21), (3, 18)])), 11, .ok, false, false, 2, 3, by decide +kernel⟩,
   ⟨sets (eng (wd 0x18 [(4, 22), (4, 18), (3, 0)])) [(F.ENG_TBL_k 11 3, 15)], sets (eng (wd 0x18 [(4, 22), (4, 18), (3, 0)])) [(F.ENG_TBL_k 11 3, 15)], 11, .ok, 4, 3, by decide +kernel⟩,
   ⟨xr 6 0x7FC4 (eng (wd 0x2A [(6, 21)])), xr 6 0x7FC4 (eng (wd 0x2A [(6, 21)])), 11, .ok, 6, by decide +kernel⟩,
   ⟨ctx (fun c => { c with stack := [1, 2, 3, 4, 5, 6, 7, 8] }) (eng (wd 0x24 [(1, 25), (5, 0)])), ctx (fun c => { c with stack := [1, 2, 3, 4, 5, 6, 7, 8] }) (eng (wd 0x24 [(1, 25), (5, 0)])), 11, .ok, 5, by decide +kernel⟩,
   ⟨eng (wd 0x25 []), eng (wd 0x25 []), 11, .ok, by decide +kernel⟩,
   ⟨ctx (fun c => { c with lc1 := at100 2 }) (eng (wd 0x26 [(1, 25), (5, 8), (1, 0)])), ctx (fun c => { c with lc1 := at100 2 }) (eng (wd 0x26 [(1, 25), (5, 8), (1, 0)])), 11, .ok, 0, true, false, 5, 1, by decide +kernel⟩,
   ⟨eng (wd 0x2F [(1, 25), (65535, 0)]), eng (wd 0x2F [(1, 25), (65535, 0)]), 11, .ok, 0xFFFF, by decide +kernel⟩,
   ⟨{ on .run with ctl := { (on .run).ctl with fatal := true } }, by decide +kernel⟩,
   ⟨on .run, 11, .ok, [], .ret 11 .ok, by decide +kernel⟩⟩

theorem witness_SchedulerInstructionsOfATask :
    (∃ (s : State) (s0 : State) (e : Fin 12) (f : Ecc), s.Fetched e f .yield s0 ∧ (s.eng e).wbuf ≠ [])
    ∧ (∃ (s : State) (s0 : State) (e : Fin 12) (f : Ecc) (tc : Nat), s.Fetched e f .yield s0 ∧ (s.eng e).wbuf = [] ∧ s.sched.planAt = none ∧ s.engTc e = some tc ∧ engOf tc = e ∧ s.ctl.fatal = false)
    ∧ (∃ (s : State) (s0 : State) (e : Fin 12) (f : Ecc), s.Fetched e f .yield s0 ∧ (s.eng e).wbuf = [] ∧ s.sched.planAt = none ∧ s.engTc e = some 0 ∧ e = 0 ∧ s.ctl.fatal = true)
    ∧ (∃ (s : State) (s0 : State) (e : Fin 12) (f : Ecc) (tc : Nat) (evt : Nat), s.Fetched e f (.wait evt) s0 ∧ s.sched.planAt = none ∧ s.engTc e = some tc ∧ engOf tc = e ∧ s.sched.evtCyc = s.cyc ∧ evt ∈ s.sched.evts ∧ (s.eng e).slot = none)
    ∧ (∃ (s : State) (s0 : State) (e : Fin 12) (f : Ecc) (evt : Nat), s.Fetched e f (.sig evt) s0)
    ∧ (∃ (s : State) (e : Fin 12) (evt : Nat), (s.eng e).sig = some evt ∧ (s.eng e).sigs = [] ∧ s.live = true ∧ s.engState e = engRunning ∧ (s.eng e).wbuf = [])
    ∧ (∃ (s : State) (e : Fin 12) (evt : Nat) (rest : _), (s.eng e).sigs = evt :: rest ∧ s.live = true ∧ (s.eng e).wbuf = [])
    ∧ (∃ (s : State) (e : Fin 12), (s.eng e).wbuf ≠ []) :=
  ⟨⟨eg (fun x => { x with wbuf := [(64, [1, 2])] }) (eng (wd 0x27 [])), eg (fun x => { x with wbuf := [(64, [1, 2])] }) (eng (wd 0x27 [])), 11, .ok, by decide +kernel⟩,
   ⟨eng (wd 0x27 []), eng (wd 0x27 []), 11, .ok, 179, by decide +kernel⟩,
   ⟨fat (wd 0x27 []), fat (wd 0x27 []), 0, .ok, by decide +kernel⟩,
   ⟨(fun s => { s with sched := { s.sched with evtCyc := s.cyc, evts := [0x20] } }) (eng (wd 0x28 [(32, 0)])), (fun s => { s with sched := { s.sched with evtCyc := s.cyc, evts := [0x20] } }) (eng (wd 0x28 [(32, 0)])), 11, .ok, 179, 0x20, by decide +kernel⟩,
   ⟨eng (wd 0x29 [(32, 0)]), eng (wd 0x29 [(32, 0)]), 11, .ok, 0x20, by decide +kernel⟩,
   ⟨eg (fun x => { x with sig := some 0x20 }) (eng 0), 11, 0x20, by decide +kernel⟩,
   ⟨eg (fun x => { x with sigs := [0x20, 0x21] }) (eng 0), 11, 0x20, [0x21], by decide +kernel⟩,
   ⟨eg (fun x => { x with wbuf := [(64, [1, 2])] }) (eng 0), 11, by decide +kernel⟩⟩

theorem witness_SendKickInjectAndTrap :
    (∃ (s : State) (s0 : State) (e : Fin 12) (f : Ecc) (x : Fin 8) (unit : Nat), unit ≤ 1 ∧ s.Fetched e f (.send unit x) s0 ∧ (s.eng e).wbuf ≠ [])
    ∧ (∃ (s : State) (s0 : State) (e : Fin 12) (f : Ecc) (x : Fin 8) (w : List Ecc) (unit : Nat), unit ≤ 1 ∧ s.Fetched e f (.send unit x) s0 ∧ (s.eng e).wbuf = [] ∧ ((s.eng e).ctx).xU x % 8 = 0 ∧ ((s.eng e).ctx).xU x + (if unit = 0 then 48 else 32) ≤ dmSize ∧ w.any Ecc.isDouble = false)
    ∧ (∃ (s : State) (s0 : State) (e : Fin 12) (f : Ecc) (ch : Nat), s.Fetched e f (.dmak ch) s0)
    ∧ (∃ (s : State) (s0 : State) (e : Fin 12) (f : Ecc) (dd : Fin 16) (node : Nat), s.Fetched e f (.inj dd node) s0 ∧ s.fb (F.ENG_INJ_STAT_running e) = true ∧ (s.eng e).inj.node = node)
    ∧ (∃ (s : State) (s0 : State) (e : Fin 12) (f : Ecc) (dd : Fin 16) (node : Nat), s.Fetched e f (.inj dd node) s0 ∧ (s.fb (F.ENG_INJ_STAT_running e) = false ∨ (s.eng e).inj.node ≠ node))
    ∧ (∃ (s : State) (s0 : State) (e : Fin 12) (f : Ecc) (code : Nat), s.Fetched e f (.trap code) s0) :=
  ⟨⟨eg (fun x => { x with wbuf := [(64, [1, 2])] }) (eng (wd 0x2A [(1, 24), (6, 21)])), eg (fun x => { x with wbuf := [(64, [1, 2])] }) (eng (wd 0x2A [(1, 24), (6, 21)])), 11, .ok, 6, 1, by decide +kernel⟩,
   ⟨xr 6 0x7FE0 (eng (wd 0x2A [(1, 24), (6, 21)])), xr 6 0x7FE0 (eng (wd 0x2A [(1, 24), (6, 21)])), 11, .ok, 6, [], 1, by decide +kernel⟩,
   ⟨eng (wd 0x2B [(15, 0)]), eng (wd 0x2B [(15, 0)]), 11, .ok, 15, by decide +kernel⟩,
   ⟨sets (eg (fun x => { x with inj := { x.inj with node := 5 } }) (eng (wd 0x2D [(3, 22), (5, 0)]))) [(F.ENG_INJ_STAT_running 11, 1)], sets (eg (fun x => { x with inj := { x.inj with node := 5 } }) (eng (wd 0x2D [(3, 22), (5, 0)]))) [(F.ENG_INJ_STAT_running 11, 1)], 11, .ok, 3, 5, by decide +kernel⟩,
   ⟨eng (wd 0x2D [(3, 22), (5, 0)]), eng (wd 0x2D [(3, 22), (5, 0)]), 11, .ok, 3, 5, by decide +kernel⟩,
   ⟨eng (wd 0x2F [(65535, 0)]), eng (wd 0x2F [(65535, 0)]), 11, .ok, 0xFFFF, by decide +kernel⟩⟩

end Engines

namespace Records

def c0 := on .configure
def cr := on .run
def pw (s : State) (e a d : Nat) := sets s [(F.ENG_PM_ADDR_addr e, a), (F.ENG_DM_ADDR_addr e, d), (F.ENG_DM_ADDR_auto_inc e, d % 2), (F.ENG_COEF_WIN_base e, 10), (F.ENG_COEF_WIN_limit e, 400)]
def inj (s : State) (e : Nat) (j : Inj) := (sets s [(F.ENG_INJ_STAT_running e, 1), (F.ENG_INJ_AMP_amp e, 32767), (F.ENG_INJ_CTL_inj_en e, 1)]).modEng e (fun x => {x with inj := j})
def erx (s : State) (e : Nat) (a : Option Nat) (r : Fin 16) : CycRead := {cyc := s.cyc, eng := e, addr := a, dest := .d r, ctx := (s.eng e).ctx}
def er (s : State) (e : Nat) (a : Option Nat) (r : Fin 16) : State := {s with engReads := [erx s e a r]}
def rec0 (a per : Nat) : List Byte := leBytes 4 (per % 65536 + a * 2^16) ++ leBytes 4 3 ++ List.replicate 40 0
def withS (s : State) (e : Nat) (u : Nat) (b : List Byte) := s.modEng e (fun x => {x with sends := [(u, 1000, b)]})
def rr := runs (mapped (on .run)) 100000
def erec (ch per : Nat) : List Byte := leBytes 4 (2^9 + ch) ++ leBytes 8 0 ++ leBytes 4 per ++ leBytes 16 0

theorem witness_EngineMemoryWindowsAndInjection :
    (∃ (s : State) (m : Master), s.MayWrite m ∧ s.mode = .configure)
    ∧ (∃ (s : State) (m : Master) (e : Fin 12) (v : W32), s.MayWrite m ∧ s.mode ≠ .configure ∧ v.toNat = s.pmWord e (s.f (F.ENG_PM_ADDR_addr e)))
    ∧ (∃ (s : State) (m : Master) (e : Fin 12) (v : W32), s.MayWrite m ∧ s.mode ≠ .configure ∧ v.toNat ≠ s.pmWord e (s.f (F.ENG_PM_ADDR_addr e)))
    ∧ (∃ (s : State) (m : Master) (i : Fin 64) (j : Fin 64) (ecc : _), s.MayWrite m ∧ ecc ∈ [Ecc.ok, .single, .double i j] ∧ ecc ≠ .double i j)
    ∧ (∃ (s : State) (m : Master) (e : Fin 12), s.MayWrite m ∧ (s.f (F.ENG_COEF_WIN_limit e) ≤ (s.f (F.ENG_DM_ADDR_addr e)) * 4 ∨ s.fb (F.ENG_COEF_GEN_is_open e) = true ∨ (s.eng e).closedAt = some s.cyc))
    ∧ (∃ (s : State) (m : Master) (e : Fin 12), s.MayWrite m ∧ s.f (F.ENG_COEF_WIN_base e) * 4 ≤ (s.f (F.ENG_DM_ADDR_addr e)) * 4 ∧ (s.f (F.ENG_DM_ADDR_addr e)) * 4 < s.f (F.ENG_COEF_WIN_limit e) ∧ s.fb (F.ENG_COEF_GEN_is_open e) = false ∧ (s.eng e).closedAt ≠ some s.cyc)
    ∧ (∃ (s : State) (m : Master) (e : Fin 12) (x : _), s.MayWrite m ∧ (s.eng e).stray = some x ∧ x.cyc = s.cyc ∧ s.fb (F.ENG_COEF_GEN_is_open e) = false)
    ∧ (∃ (s : State) (m : Master) (e : Fin 12), s.MayWrite m ∧ (∀ x, (s.eng e).stray = some x → x.cyc ≠ s.cyc))
    ∧ (∃ (s : State) (m : Master) (e : Fin 12) (x : _) (r : _) (k : _), s.MayWrite m ∧ s.engReads = [x] ∧ x.cyc = s.cyc ∧ x.eng = e ∧ x.ctx = (s.eng e).ctx ∧ x.dest = .d r ∧ k ∈ [0, 2] ∧ x.addr = some ((s.f (F.ENG_DM_ADDR_addr e)) * 4 + k) ∧ s.fb (F.ENG_COEF_GEN_is_open e) = true)
    ∧ (∃ (s : State) (m : Master) (e : Fin 12) (x : _) (r : _), s.MayWrite m ∧ s.engReads = [x] ∧ x.cyc = s.cyc ∧ x.eng = e ∧ x.ctx = (s.eng e).ctx ∧ x.dest = .d r ∧ x.addr = none ∧ s.fb (F.ENG_COEF_GEN_is_open e) = true)
    ∧ (∃ (s : State) (m : Master), s.MayWrite m)
    ∧ (∃ (s : State) (e : Fin 12), (s.live = true ∧ s.fb (F.ENG_INJ_STAT_running e) = true ∧ ((s.eng e).inj).tickLeft = 0) ∧ ((s.eng e).inj).kind = 0 ∧ ((s.eng e).inj).holdLeft = 0 ∧ s.f (F.ENG_INJ_AMP_amp e) < 2 ^ 15)
    ∧ (∃ (s : State) (e : Fin 12), (s.live = true ∧ s.fb (F.ENG_INJ_STAT_running e) = true ∧ ((s.eng e).inj).tickLeft = 0) ∧ ((s.eng e).inj).kind = 0 ∧ ((s.eng e).inj).holdLeft ≠ 0 ∧ s.f (F.ENG_INJ_AMP_amp e) < 2 ^ 15)
    ∧ (∃ (s : State) (e : Fin 12), (s.live = true ∧ s.fb (F.ENG_INJ_STAT_running e) = true ∧ ((s.eng e).inj).tickLeft = 0) ∧ ((s.eng e).inj).kind = 1 ∧ ((s.eng e).inj).c + 1 ≠ ((s.eng e).inj).len)
    ∧ (∃ (s : State) (e : Fin 12), (s.live = true ∧ s.fb (F.ENG_INJ_STAT_running e) = true ∧ ((s.eng e).inj).tickLeft = 0) ∧ ((s.eng e).inj).kind = 1 ∧ ((s.eng e).inj).c + 1 = ((s.eng e).inj).len ∧ ((s.eng e).inj).once = true)
    ∧ (∃ (s : State) (e : Fin 12), (s.live = true ∧ s.fb (F.ENG_INJ_STAT_running e) = true ∧ ((s.eng e).inj).tickLeft = 0) ∧ ((s.eng e).inj).kind = 1 ∧ ((s.eng e).inj).c + 1 = ((s.eng e).inj).len ∧ ((s.eng e).inj).once = false)
    ∧ (∃ (s : State) (e : Fin 12), (s.live = true ∧ s.fb (F.ENG_INJ_STAT_running e) = true ∧ ((s.eng e).inj).tickLeft = 0) ∧ 2 ≤ ((s.eng e).inj).kind ∧ ((((upto 32).map (fun k => (fun (amp ph : Nat) => (((amp : Int) * sinQ (ph / 2 ^ 16) + 2 ^ 14) / 2 ^ 15 : Int)) (s.f (F.ENG_TONE_A_amp e k)) (((s.eng e).inj).phs.getD k 0))).sum) < -32768 ∨ 32767 < (((upto 32).map (fun k => (fun (amp ph : Nat) => (((amp : Int) * sinQ (ph / 2 ^ 16) + 2 ^ 14) / 2 ^ 15 : Int)) (s.f (F.ENG_TONE_A_amp e k)) (((s.eng e).inj).phs.getD k 0))).sum)))
    ∧ (∃ (s : State) (e : Fin 12), (s.live = true ∧ s.fb (F.ENG_INJ_STAT_running e) = true ∧ ((s.eng e).inj).tickLeft = 0) ∧ 2 ≤ ((s.eng e).inj).kind ∧ -32768 ≤ (((upto 32).map (fun k => (fun (amp ph : Nat) => (((amp : Int) * sinQ (ph / 2 ^ 16) + 2 ^ 14) / 2 ^ 15 : Int)) (s.f (F.ENG_TONE_A_amp e k)) (((s.eng e).inj).phs.getD k 0))).sum) ∧ (((upto 32).map (fun k => (fun (amp ph : Nat) => (((amp : Int) * sinQ (ph / 2 ^ 16) + 2 ^ 14) / 2 ^ 15 : Int)) (s.f (F.ENG_TONE_A_amp e k)) (((s.eng e).inj).phs.getD k 0))).sum) ≤ 32767) :=
  ⟨⟨pw c0 3 16383 8191, .port0, by decide +kernel⟩,
   ⟨pw cr 11 16383 50, .port0, 11, 0, by decide +kernel⟩,
   ⟨er ((pw cr 2 7 11).setF (F.ENG_COEF_GEN_is_open 2) 1) 2 (some 44) 7, .port0, 2, 2712847316, by decide +kernel⟩,
   ⟨er ((pw cr 2 7 11).setF (F.ENG_COEF_GEN_is_open 2) 1) 2 (some 44) 7, .port0, 1, 2, .single, by decide +kernel⟩,
   ⟨er ((pw cr 2 7 11).setF (F.ENG_COEF_GEN_is_open 2) 1) 2 (some 44) 7, .port0, 2, by decide +kernel⟩,
   ⟨er (pw cr 2 7 11) 2 (some 45) 7, .port0, 2, by decide +kernel⟩,
   ⟨(pw c0 3 16383 8191).modEng 3 fun y => { y with stray := some { cyc := 1000000, gen := 65535, bit := 0, seqs := [3] } }, .port0, 3, { cyc := 1000000, gen := 65535, bit := 0, seqs := [3] }, by decide +kernel⟩,
   ⟨er ((pw cr 2 7 11).setF (F.ENG_COEF_GEN_is_open 2) 1) 2 (some 44) 7, .port0, 2, by decide +kernel⟩,
   ⟨er ((pw cr 2 7 11).setF (F.ENG_COEF_GEN_is_open 2) 1) 2 (some 46) 7, .port0, 2, erx ((pw cr 2 7 11).setF (F.ENG_COEF_GEN_is_open 2) 1) 2 (some 46) 7, 7, 2, by decide +kernel⟩,
   ⟨er ((pw cr 2 7 11).setF (F.ENG_COEF_GEN_is_open 2) 1) 2 none 15, .port0, 2, erx ((pw cr 2 7 11).setF (F.ENG_COEF_GEN_is_open 2) 1) 2 none 15, 15, by decide +kernel⟩,
   ⟨inj cr 3 ({ Inj.reset with div := 4, hold := 3, poly := 2, lfsr := 77, holdLeft := 2 }), .port0, by decide +kernel⟩,
   ⟨inj cr 3 ({ Inj.reset with div := 4, hold := 3, poly := 2, lfsr := 77 }), 3, by decide +kernel⟩,
   ⟨inj cr 3 ({ Inj.reset with div := 4, hold := 3, poly := 2, lfsr := 77, holdLeft := 2 }), 3, by decide +kernel⟩,
   ⟨inj cr 3 ({ Inj.reset with kind := 1, df := 4294967294, len := 5, ph := 4294967295, inc := 9, c := 2 }), 3, by decide +kernel⟩,
   ⟨inj cr 3 ({ Inj.reset with kind := 1, once := true, len := 5, c := 4 }), 3, by decide +kernel⟩,
   ⟨inj cr 3 ({ Inj.reset with kind := 1, f0 := 99, len := 5, c := 4 }), 3, by decide +kernel⟩,
   ⟨sets (inj cr 3 ({ Inj.reset with kind := 2, incr := List.range 32, phs := List.replicate 32 (2 ^ 30) })) (List.map (fun k => (F.ENG_TONE_A_amp 3 k, 32767)) (List.range 32)), 3, by decide +kernel⟩,
   ⟨inj cr 3 ({ Inj.reset with kind := 2, incr := List.range 32, phs := List.map (fun i => 4294967290 + i % 5) (List.range 32) }), 3, by decide +kernel⟩⟩

theorem witness_RecordsOfAnEngine :
    (∃ (s : State) (e : Fin 12) (bs : List Byte), s.Sent e 0 bs ∧ s.mode.controls = true ∧ s.reqBadReason (wordsOf bs) = 0 ∧ bitsOf (word (wordsOf bs) 0) 15 0 = s.requestPeriod % 2 ^ 16 ∧ (s.arm (bitsOf (word (wordsOf bs) 0) 19 16)).started = false)
    ∧ (∃ (s : State) (e : Fin 12) (bs : List Byte), s.Sent e 0 bs ∧ s.mode.controls = true ∧ (12 ≤ (bitsOf (word (wordsOf bs) 0) 19 16) ∨ s.armEnabled (bitsOf (word (wordsOf bs) 0) 19 16) = false) ∧ (bitsOf (word (wordsOf bs) 0) 19 16) < 12)
    ∧ (∃ (s : State) (e : Fin 12) (bs : List Byte), s.Sent e 0 bs ∧ s.mode.controls = true ∧ s.reqBadReason (wordsOf bs) = 0 ∧ bitsOf (word (wordsOf bs) 0) 15 0 ≠ s.requestPeriod % 2 ^ 16)
    ∧ (∃ (s : State) (e : Fin 12) (bs : List Byte), s.Sent e 0 bs ∧ s.mode.controls = false)
    ∧ (∃ (s : State) (e : Fin 12) (bs : List Byte), s.Sent e 1 bs ∧ s.mode ≠ .safeBlock ∧ word (wordsOf bs) 0 = 2 ^ 9 + bitsOf (word (wordsOf bs) 0) 3 0 ∧ word (wordsOf bs) 3 < 2 ^ 24 ∧ 1 ≤ word (wordsOf bs) 3)
    ∧ (∃ (s : State) (e : Fin 12) (bs : List Byte), s.Sent e 1 bs ∧ s.mode ≠ .safeBlock ∧ (bitsOf (word (wordsOf bs) 0) 7 4 ≠ 0 ∨ bitsOf (word (wordsOf bs) 0) 31 14 ≠ 0))
    ∧ (∃ (s : State) (e : Fin 12) (bs : List Byte), s.Sent e 1 bs ∧ s.mode = .safeBlock) :=
  ⟨⟨withS rr 1 0 (rec0 0 10), 1, rec0 0 10, by decide +kernel⟩,
   ⟨withS rr 1 0 (rec0 5 10), 1, rec0 5 10, by decide +kernel⟩,
   ⟨withS rr 1 0 (rec0 0 11), 1, rec0 0 11, by decide +kernel⟩,
   ⟨withS (mapped (on .muster)) 1 0 (rec0 0 11), 1, rec0 0 11, by decide +kernel⟩,
   ⟨withS rr 1 1 (erec 3 500), 1, erec 3 500, by decide +kernel⟩,
   ⟨withS rr 1 1 (leBytes 4 16 ++ List.replicate 28 0), 1, leBytes 4 16 ++ List.replicate 28 0, by decide +kernel⟩,
   ⟨withS (on .safeBlock) 1 1 (erec 3 500), 1, erec 3 500, by decide +kernel⟩⟩

end Records

namespace Tasks

def rr := sets (runs (mapped (on .run)) 100000) ((List.range 12).map (fun e => (F.ENG_STAT_state e, engRunning)))
def tk (s : State) (tc : Nat) (t : Task) : State := { s with tasks := tput Task.reset s.tasks tc t }
def dsp := sets rr [(F.ENG_STAT_state 1, engDispatch), (F.ENG_TASK_tc 1, 17), (F.SCH_TC_STAT_state 17, tcRunning), (F.SCH_TC_ENTRY_entry 17, 16383), (F.SCH_TC_ARG_arg 17, 67108863)]
def fat := sets ({on .safeBlock with ctl := {(on .safeBlock).ctl with fatal := true}}) [(F.SCH_TC_STAT_state 0, tcReady), (F.SCH_FATAL_fatal_state, 0), (F.SCH_TC_ENTRY_entry 0, 55), (F.ENG_STAT_state 0, engHalted)]
def ev (s : State) (tc evt st del crit : Nat) := sets s [(F.SCH_TC_CFG_en tc, 1), (F.SCH_TC_CFG_kind tc, 1), (F.SCH_TC_CFG_evt tc, evt), (F.SCH_TC_STAT_state tc, st), (F.SCH_TC_REL_delay tc, del), (F.SCH_TC_CFG_crit tc, crit)]

theorem witness_SchedulerAndTheFatalTask :
    (∃ (s : State), s.live = true ∧ s.seq.running = true ∧ s.seq.started = true ∧ s.f F.SCH_STAT_tick < 63 ∧ s.Runs)
    ∧ (∃ (s : State) (tc : Fin 192), s.live = true ∧ s.seq.running = true ∧ s.seq.started = true ∧ s.f F.SCH_STAT_tick < 63 ∧ s.tcState tc = tcDelayed ∧ (s.task tc).expiry ≤ s.periodFull * 64 + s.f F.SCH_STAT_tick + 1)
    ∧ (∃ (s : State) (tc : Fin 192), s.live = true ∧ s.seq.running = true ∧ s.seq.started = true ∧ s.f F.SCH_STAT_tick < 63 ∧ s.tcState tc = tcDelayed ∧ s.periodFull * 64 + s.f F.SCH_STAT_tick + 1 < (s.task tc).expiry)
    ∧ (∃ (s : State), s.live = true ∧ s.f F.SCH_STAT_tick = 63)
    ∧ (∃ (s : State) (e : Fin 12) (tc : Fin 192), s.live = true ∧ s.engState e = engDispatch ∧ s.engTc e = some tc.val ∧ engOf tc = e ∧ s.sched.planAt = none ∧ (s.ctl.fatal = false ∨ e ≠ 0) ∧ (s.task tc).saved = none)
    ∧ (∃ (s : State), s.live = true ∧ s.ctl.fatal = true ∧ s.f F.SCH_FATAL_fatal_state = 2)
    ∧ (∃ (s : State), s.f F.SCH_FATAL_fatal_state ≠ 2)
    ∧ (∃ (s : State), s.tcState 0 ≠ tcReady ∧ s.engState 0 ≠ engDispatch ∧ s.hif.stageDue = false) :=
  ⟨⟨rr, by decide +kernel⟩,
   ⟨sets (tk (rr.setF F.SCH_STAT_tick 5) 17 ({ Task.reset with expiry := 640 + 6 })) [(F.SCH_TC_STAT_state 17, tcDelayed)], 17, by decide +kernel⟩,
   ⟨sets (tk (rr.setF F.SCH_STAT_tick 5) 17 ({ Task.reset with expiry := 640 + 7 })) [(F.SCH_TC_STAT_state 17, tcDelayed)], 17, by decide +kernel⟩,
   ⟨rr.setF F.SCH_STAT_tick 63, by decide +kernel⟩,
   ⟨dsp, 1, 17, by decide +kernel⟩,
   ⟨sets fat [(F.SCH_FATAL_fatal_state, 2), (F.SCH_TC_STAT_state 0, tcRunning)], by decide +kernel⟩,
   ⟨fat, by decide +kernel⟩,
   ⟨sets fat [(F.SCH_FATAL_fatal_state, 2), (F.SCH_TC_STAT_state 0, tcRunning)], by decide +kernel⟩⟩

theorem witness_EventsReleaseAndAbortTasks :
    (∃ (s : State) (m : Master) (code : BitVec 8), s.MayWrite m ∧ code.toNat < 0x20)
    ∧ (∃ (s : State) (m : Master) (code : BitVec 8) (tc : Fin 192), (s.MayWrite m ∧ 0x20 ≤ code.toNat ∧ s.paired = false ∧ s.mode.fromMuster = true ∧ s.seq.running = true ∧ s.ctl.fatal = false ∧ s.engState (engOf tc) = engRunning ∧ tc.val ≠ 0 ∧ (∀ x, s.engTc (engOf tc) = some x → x ∉ s.eventTasks code.toNat)) ∧ (s.fb (F.SCH_TC_CFG_en tc) = true ∧ s.f (F.SCH_TC_CFG_kind tc) = 1 ∧ s.f (F.SCH_TC_CFG_evt tc) = code.toNat) ∧ s.tcState tc = tcDormant ∧ s.f (F.SCH_TC_REL_delay tc) = 0 ∧ s.sched.limitHit = false)
    ∧ (∃ (s : State) (m : Master) (code : BitVec 8) (tc : Fin 192), (s.MayWrite m ∧ 0x20 ≤ code.toNat ∧ s.paired = false ∧ s.mode.fromMuster = true ∧ s.seq.running = true ∧ s.ctl.fatal = false ∧ s.engState (engOf tc) = engRunning ∧ tc.val ≠ 0 ∧ (∀ x, s.engTc (engOf tc) = some x → x ∉ s.eventTasks code.toNat)) ∧ (s.fb (F.SCH_TC_CFG_en tc) = true ∧ s.f (F.SCH_TC_CFG_kind tc) = 1 ∧ s.f (F.SCH_TC_CFG_evt tc) = code.toNat) ∧ s.tcState tc = tcDormant ∧ 0 < s.f (F.SCH_TC_REL_delay tc) ∧ s.sched.limitHit = false)
    ∧ (∃ (s : State) (m : Master) (code : BitVec 8) (tc : Fin 192), (s.MayWrite m ∧ 0x20 ≤ code.toNat ∧ s.paired = false ∧ s.mode.fromMuster = true ∧ s.seq.running = true ∧ s.ctl.fatal = false ∧ s.engState (engOf tc) = engRunning ∧ tc.val ≠ 0 ∧ (∀ x, s.engTc (engOf tc) = some x → x ∉ s.eventTasks code.toNat)) ∧ (s.fb (F.SCH_TC_CFG_en tc) = true ∧ s.f (F.SCH_TC_CFG_kind tc) = 1 ∧ s.f (F.SCH_TC_CFG_evt tc) = code.toNat) ∧ s.tcState tc = tcReady ∧ s.f (F.SCH_TC_REL_delay tc) = 0 ∧ s.fb (F.SCH_TC_CFG_crit tc) = false ∧ s.sched.limitHit = false)
    ∧ (∃ (s : State) (m : Master) (code : BitVec 8) (tc : Fin 192), (s.MayWrite m ∧ 0x20 ≤ code.toNat ∧ s.paired = false ∧ s.mode.fromMuster = true ∧ s.seq.running = true ∧ s.ctl.fatal = false ∧ s.engState (engOf tc) = engRunning ∧ tc.val ≠ 0 ∧ (∀ x, s.engTc (engOf tc) = some x → x ∉ s.eventTasks code.toNat)) ∧ ¬ (s.fb (F.SCH_TC_CFG_en tc) = true ∧ s.f (F.SCH_TC_CFG_kind tc) = 1 ∧ s.f (F.SCH_TC_CFG_evt tc) = code.toNat) ∧ s.tcState tc = tcWaiting ∧ (s.task tc).waitEvt = code.toNat ∧ s.sched.limitHit = false) :=
  ⟨⟨rr, .port0, 31, by decide +kernel⟩,
   ⟨ev rr 17 32 tcDormant 0 0, .port0, 32, 17, by decide +kernel⟩,
   ⟨ev rr 191 255 tcDormant 63 0, .port0, 255, 191, by decide +kernel⟩,
   ⟨ev rr 191 255 tcReady 0 0, .port0, 255, 191, by decide +kernel⟩,
   ⟨tk (rr.setF (F.SCH_TC_STAT_state 5) tcWaiting) 5 ({ Task.reset with waitEvt := 51 }), .port0, 51, 5, by decide +kernel⟩⟩

end Tasks

namespace Plans

def rr := sets (runs (mapped (on .run)) 100000) ((List.range 12).map (fun e => (F.ENG_STAT_state e, engRunning)))
def tk (s : State) (tc : Nat) (t : Task) : State := { s with tasks := tput Task.reset s.tasks tc t }
def pl (p : Nat) (s : State) : State := { s with sched := {s.sched with planAt := some p, evtCyc := 0} }
def idle (s : State) := s.setF (F.ENG_STAT_state 1) engIdle
def sl (n : Nat) (s : State) : State := s.modEng 1 (fun y => { y with slot := some n, slotAt := 999000, freeAt := 7 })
def rdy := tk (tk (sets rr [(F.SCH_TC_STAT_state 17, tcReady), (F.SCH_TC_CFG_prio 17, 3), (F.SCH_TC_STAT_state 18, tcReady), (F.SCH_TC_CFG_prio 18, 3)]) 18 {Task.reset with relCyc := 1000}) 17 {Task.reset with relCyc := 999}
def fat := sets ({on .safeBlock with ctl := {(on .safeBlock).ctl with fatal := true}}) ([(F.SCH_TC_STAT_state 0, tcReady), (F.SCH_FATAL_fatal_state, 1), (F.SCH_TC_ENTRY_entry 0, 55), (F.SCH_TC_ARG_arg 0, 55), (F.ENG_STAT_state 0, engHalted)] ++ (List.range 191).map (fun k => (F.SCH_TC_STAT_state (k+1), tcStopped)))
def due (s : State) : State := {s with hif := {s.hif with stageDue := true}}
def wt (s : State) : State := tk (s.setF (F.SCH_TC_STAT_state 17) tcWaiting) 17 {Task.reset with waitEvt := 0x33, saved := some (EngCtx.initial 5 6)}
def pe (p : Nat) (ev : List Nat) (s : State) : State := { s with sched := {s.sched with planAt := some p, evtCyc := p, evts := ev} }

theorem witness_SchedulerAndTheFatalTask_Plans :
    (∃ (s : State) (e : Fin 12) (tc : Fin 192) (p : _), s.live = true ∧ engOf tc = e ∧ s.tcState tc = tcReady ∧ s.ctl.fatal = false ∧ s.sched.planAt = some p ∧ s.sched.evtCyc ≠ p ∧ (∀ x ∈ s.readyTasks e, s.f (F.SCH_TC_CFG_prio tc) ≤ s.f (F.SCH_TC_CFG_prio x) ∧ (s.f (F.SCH_TC_CFG_prio x) = s.f (F.SCH_TC_CFG_prio tc) → (s.task tc).relCyc < (s.task x).relCyc ∨ ((s.task tc).relCyc = (s.task x).relCyc ∧ tc ≤ x))) ∧ s.engState e ≠ engDispatch ∧ (s.eng e).slot = some tc.val ∧ s.engState e = engIdle)
    ∧ (∃ (s : State) (e : Fin 12) (tc : Fin 192) (p : _), s.live = true ∧ engOf tc = e ∧ s.tcState tc = tcReady ∧ s.ctl.fatal = false ∧ s.sched.planAt = some p ∧ s.sched.evtCyc ≠ p ∧ (∀ x ∈ s.readyTasks e, s.f (F.SCH_TC_CFG_prio tc) ≤ s.f (F.SCH_TC_CFG_prio x) ∧ (s.f (F.SCH_TC_CFG_prio x) = s.f (F.SCH_TC_CFG_prio tc) → (s.task tc).relCyc < (s.task x).relCyc ∨ ((s.task tc).relCyc = (s.task x).relCyc ∧ tc ≤ x))) ∧ s.engState e ≠ engDispatch ∧ (s.eng e).slot = some tc.val ∧ s.engState e ≠ engIdle)
    ∧ (∃ (s : State) (e : Fin 12) (tc : Fin 192) (p : _), s.live = true ∧ engOf tc = e ∧ s.tcState tc = tcReady ∧ s.ctl.fatal = false ∧ s.sched.planAt = some p ∧ s.sched.evtCyc ≠ p ∧ (∀ x ∈ s.readyTasks e, s.f (F.SCH_TC_CFG_prio tc) ≤ s.f (F.SCH_TC_CFG_prio x) ∧ (s.f (F.SCH_TC_CFG_prio x) = s.f (F.SCH_TC_CFG_prio tc) → (s.task tc).relCyc < (s.task x).relCyc ∨ ((s.task tc).relCyc = (s.task x).relCyc ∧ tc ≤ x))) ∧ s.engState e ≠ engDispatch ∧ (s.eng e).slot ≠ some tc.val ∧ (s.eng e).load.map Prod.fst ≠ some tc.val)
    ∧ (∃ (s : State), s.live = true ∧ s.ctl.fatal = true ∧ s.pwr.clkFault = false ∧ s.pwr.pllLocked = true ∧ s.tcState 0 = tcReady ∧ s.f F.SCH_FATAL_fatal_state ≤ 1 ∧ s.sched.planAt = none ∧ (∀ x : Fin 192, x ≠ 0 → s.tcState x = tcStopped) ∧ s.engState 0 ≠ engDispatch ∧ (s.eng 0).slot = none ∧ (s.eng 0).load = none ∧ s.fb F.HIF_DUMP_CFG_dump_en = false)
    ∧ (∃ (s : State), s.live = true ∧ s.ctl.fatal = true ∧ s.hif.stageDue = true) :=
  ⟨⟨pl 999999 (sl 17 (idle rdy)), 1, 17, 999999, by decide +kernel⟩,
   ⟨pl 999999 (sl 17 rdy), 1, 17, 999999, by decide +kernel⟩,
   ⟨pl 999999 rdy, 1, 17, 999999, by decide +kernel⟩,
   ⟨fat, by decide +kernel⟩,
   ⟨due fat, by decide +kernel⟩⟩

theorem witness_EventsReleaseAndAbortTasks_Plans :
    (∃ (s : State) (tc : Fin 192) (p : _), s.live = true ∧ s.sched.planAt = some p ∧ s.sched.evtCyc = p ∧ (s.task tc).waitEvt ∈ s.sched.evts ∧ s.tcState tc = tcWaiting ∧ s.engState (engOf tc) = engRunning) :=
  ⟨pe 1000000 [51] (wt rr), 17, 1000000, by decide +kernel⟩

end Plans

namespace Windows

def c0 := on .configure
def cr := on .run
def ncl3 : State := (sets cr [(F.NCL_ERRCNT_frame_crc_err 3, 77), (F.NCL_ERRCNT_slot_crc_err 3, 33)])
def tm : State := {runs cr 1234567890123 with snaps := [(5,6)]}
def un (s : State) (l : List (Fld × Nat)) := sets (s.setF F.HIF_OWN_STAT_owner 3) l
def ho (s : State) (d : Nat) : State := {s with hif := {s.hif with handover := some d}}
def up (s : State) := sets s [(F.HIF_PORT_STAT_link_up 0, 1),(F.HIF_PORT_STAT_link_up 1, 1)]

theorem witness_WritesByOthersAreDiscarded :
    (∃ (s : State) (addr : Nat), s.live = true ∧ s.Settled ∧ addr % 4 = 0 ∧ addr < privBase)
    ∧ (∃ (s : State) (m : Master) (addr : Nat), s.live = true ∧ s.Settled ∧ s.isOwner m = false ∧ addr % 4 = 0 ∧ privBase ≤ addr)
    ∧ (∃ (s : State) (m : Master) (i : Instr), s.live = true ∧ s.Settled ∧ s.isOwner m = false ∧ ownerRow i = some m) :=
  ⟨⟨on .configure, privBase - 4, by decide +kernel⟩,
   ⟨on .configure, .port1, privBase, by decide +kernel⟩,
   ⟨on .configure, .port1, .requestRun .port1, by decide +kernel⟩⟩

theorem witness_AccessWidthAndAlignment :
    (∃ (s : State) (addr : Nat) (n : Nat), s.live = true ∧ s.Settled ∧ (n = 1 ∨ n = 2 ∨ n = 3 ∨ (n = 4 ∧ addr % 4 ≠ 0) ∨ (n = 8 ∧ addr % 8 ≠ 0)))
    ∧ (∃ (s : State) (addr : Nat), s.live = true ∧ s.Settled ∧ addr % 8 = 0)
    ∧ (∃ (s : State) (addr : Nat) (n : Nat), s.live = true ∧ s.Settled ∧ (n = 2 ∧ addr % 2 ≠ 0 ∨ n = 4 ∧ addr % 4 ≠ 0 ∨ n = 8 ∧ addr % 8 ≠ 0))
    ∧ (∃ (s : State) (addr : Nat) (n : Nat) (x : _), s.live = true ∧ s.Settled ∧ (n = 1 ∨ n = 2) ∧ addr % n = 0 ∧ addr < 2 * privBase ∧ lookup ((addr - addr % 4) % privBase) = some x ∧ (x.1.priv = false ∨ privBase ≤ addr) ∧ isSnapHigh x.1.reg = false) :=
  ⟨⟨ncl3, privBase + R.NCL_ERRCNT 3, 1, by decide +kernel⟩,
   ⟨ncl3, privBase + R.NCL_ERRCNT 3, by decide +kernel⟩,
   ⟨cr, 8388613, 4, by decide +kernel⟩,
   ⟨ncl3, privBase + R.NCL_ERRCNT 3, 1, (lookup ((privBase + R.NCL_ERRCNT 3 - (privBase + R.NCL_ERRCNT 3) % 4) % privBase)).get (by decide +kernel), by and_intros <;> first | decide +kernel | exact (Option.some_get _).symm ⟩⟩

theorem witness_LockedTimingRegisters :
    (∃ (s : State) (m : Master) (v : BitVec 64) (x : _), s.MayWrite m ∧ v.toNat < 2 ^ 32 ∧ x ∈ [F.GLB_PERIOD_period_steps, F.GLB_GATHER_DEADLINE_deadline_steps, F.GLB_ORDER_OFFSET_order_offset_steps, F.GLB_EDGE_OFFSET_edge_offset_steps, F.GLB_ORIGIN_NS_origin_ns, F.GLB_ORIGIN_SEC_LO_origin_sec_lo, F.GLB_ORIGIN_SEC_HI_origin_sec_hi, F.NCL_CELL_LIMIT_max_min_insert] ∧ s.mode ≠ .configure ∧ bitsOf v.toNat x.hi x.lo ≠ s.f x)
    ∧ (∃ (s : State) (m : Master) (v : BitVec 64) (x : _), s.MayWrite m ∧ v.toNat < 2 ^ 32 ∧ x ∈ [F.GLB_PERIOD_period_steps, F.GLB_GATHER_DEADLINE_deadline_steps, F.GLB_ORDER_OFFSET_order_offset_steps, F.GLB_EDGE_OFFSET_edge_offset_steps, F.GLB_ORIGIN_NS_origin_ns, F.GLB_ORIGIN_SEC_LO_origin_sec_lo, F.GLB_ORIGIN_SEC_HI_origin_sec_hi, F.NCL_CELL_LIMIT_max_min_insert] ∧ s.mode ≠ .configure ∧ v.toNat = s.rd x.off)
    ∧ (∃ (s : State) (m : Master) (v : BitVec 64), s.MayWrite m ∧ v.toNat < 2 ^ 32 ∧ s.mode = .configure ∧ 1000 ≤ v.toNat % 2 ^ 15 ∧ v.toNat % 2 ^ 15 ≤ 20000)
    ∧ (∃ (s : State) (m : Master) (v : BitVec 64), s.MayWrite m ∧ v.toNat < 2 ^ 32 ∧ s.mode = .configure ∧ (v.toNat % 2 ^ 15 < 1000 ∨ 20000 < v.toNat % 2 ^ 15)) :=
  ⟨⟨cr, .port0, 0, F.GLB_PERIOD_period_steps, by decide +kernel⟩,
   ⟨cr, .port0, 2000, F.GLB_PERIOD_period_steps, by decide +kernel⟩,
   ⟨c0, .port0, 1000, by decide +kernel⟩,
   ⟨c0, .port0, 999, by decide +kernel⟩⟩

theorem witness_SnapshotsAndReadClear :
    (∃ (s : State) (u : State) (m : Master), s.live = true ∧ u.live = true ∧ tget 0 s.snaps (snapKey m R.GLB_PERIOD_POS_HI) = 0) :=
  ⟨tm, tm, .port0, by decide +kernel⟩

theorem witness_ClaimsAndLeases :
    (∃ (s : State) (v : W32) (m : Nat), s.live = true ∧ m < 3 ∧ s.f F.HIF_OWN_STAT_owner = 3 ∧ v.getLsbD 0 = true ∧ s.linkUp 0 = true)
    ∧ (∃ (s : State) (v : W32) (m : Nat) (x : _), s.live = true ∧ m < 3 ∧ s.hif.freeClaim = some x ∧ x.cyc = s.cyc ∧ x.masters = [1] ∧ x.wins = [] ∧ x.asked = [] ∧ s.f F.HIF_OWN_STAT_owner = 1 ∧ v.getLsbD 0 = true)
    ∧ (∃ (s : State) (p : Fin 2) (v : W32) (m : Nat), s.live = true ∧ m < 3 ∧ s.owner < 3 ∧ s.owner ≠ p ∧ v.getLsbD 0 = true ∧ bitOf (s.f F.HIF_OWN_STAT_claim_pend) p = false)
    ∧ (∃ (s : State) (p : Fin 2) (v : W32) (m : Nat), s.live = true ∧ m < 3 ∧ s.owner < 3 ∧ s.owner ≠ p ∧ v.getLsbD 0 = true ∧ bitOf (s.f F.HIF_OWN_STAT_claim_pend) p = true)
    ∧ (∃ (s : State) (v : W32) (m : Nat), s.live = true ∧ m < 3 ∧ v.getLsbD 0 = false)
    ∧ (∃ (s : State) (p : Fin 2) (v : W32) (m : Nat), s.live = true ∧ m < 3 ∧ s.owner = p ∧ v.getLsbD 0 = true)
    ∧ (∃ (s : State) (m : Nat), s.live = true ∧ m < 3 ∧ s.owner = 2)
    ∧ (∃ (s : State) (m : Nat), s.live = true ∧ m < 3 ∧ s.owner < 3 ∧ s.f F.HIF_OWN_CFG_lease_ms ≠ 0 ∧ s.f F.HIF_OWN_STAT_claim_pend = 0)
    ∧ (∃ (s : State) (m : Nat), s.live = true ∧ m < 3 ∧ s.owner < 3 ∧ s.f F.HIF_OWN_CFG_lease_ms ≠ 0 ∧ s.f F.HIF_OWN_STAT_claim_pend = 2 ^ m) :=
  ⟨⟨un cr [(F.HIF_PORT_STAT_link_up 0, 1), (F.HIF_OWN_STAT_changes, 65535)], 4294967295, 2, by decide +kernel⟩,
   ⟨let s := un cr [(F.HIF_OWN_STAT_owner, 1)]; { s with hif := { s.hif with freeClaim := some { cyc := s.cyc, seq := 0, masters := [1], wins := [], shown := 3, asked := [] } } }, 1, 2, { cyc := 1000000, seq := 0, masters := [1], wins := [], shown := 3, asked := [] }, by decide +kernel⟩,
   ⟨cr.setF F.HIF_OWN_STAT_owner 2, 0, 1, 0, by decide +kernel⟩,
   ⟨sets cr [(F.HIF_OWN_STAT_claim_pend, 2)], 1, 3, 0, by decide +kernel⟩,
   ⟨cr, 2, 0, by decide +kernel⟩,
   ⟨sets cr [(F.HIF_OWN_CFG_lease_ms, 65535), (F.HIF_OWN_STAT_claim_pend, 2)], 0, 1, 1, by decide +kernel⟩,
   ⟨cr.setF F.HIF_OWN_STAT_owner 2, 0, by decide +kernel⟩,
   ⟨cr.setF F.HIF_OWN_CFG_lease_ms 5, 0, by decide +kernel⟩,
   ⟨sets cr [(F.HIF_OWN_CFG_lease_ms, 65535), (F.HIF_OWN_STAT_claim_pend, 2)], 1, by decide +kernel⟩⟩

theorem witness_HandOverOfOwnership :
    (∃ (s : State) (m : Master) (dest : Fin 3), s.MayWrite m ∧ s.hif.handover = none ∧ bitOf (s.f F.HIF_OWN_STAT_claim_pend) dest = true)
    ∧ (∃ (s : State) (m : Master) (dest : Fin 3), s.MayWrite m ∧ s.hif.handover = none ∧ bitOf (s.f F.HIF_OWN_STAT_claim_pend) dest = false)
    ∧ (∃ (s : State) (m : Master), s.MayWrite m ∧ s.hif.handover.isSome = true)
    ∧ (∃ (s : State) (dest : Fin 3), s.Settled ∧ s.hif.handover = some dest.val ∧ bitOf (s.f F.HIF_OWN_STAT_claim_pend) dest = true ∧ s.pair.deferred = [] ∧ s.pair.capLast = [] ∧ s.pair.capNow = [] ∧ s.pair.input = none)
    ∧ (∃ (s : State), s.Settled ∧ s.hif.handover = some 3 ∧ s.f F.HIF_OWN_STAT_claim_pend = 0 ∧ s.pair.deferred = [] ∧ s.pair.capLast = [] ∧ s.pair.capNow = [] ∧ s.pair.input = none)
    ∧ (∃ (s : State) (p : Fin 2), s.linkUp p = true ∧ s.f F.HIF_OWN_STAT_owner ≠ p ∧ (∀ c < 16, s.dmaBound p c = false))
    ∧ (∃ (s : State) (p : Fin 2), s.linkUp p = true ∧ s.f F.HIF_OWN_STAT_owner = p ∧ (∀ c < 16, s.dmaBound p c = false) ∧ setBits (s.f F.HIF_OWN_STAT_claim_pend) p p 0 = 0)
    ∧ (∃ (s : State) (p : Fin 2), (s.fb F.HIF_CFG_bif = true ∨ p = 0) ∧ s.fb F.HIF_CFG_bif = true)
    ∧ (∃ (s : State) (p : Fin 2) (width : Fin 9), (s.fb F.HIF_CFG_bif = true ∨ p = 0) ∧ width.val ∈ [1, 2, 4])
    ∧ (∃ (s : State) (p : Fin 2) (width : Fin 9), (s.fb F.HIF_CFG_bif = true ∨ p = 0) ∧ width.val = 8 ∧ s.fb F.HIF_CFG_bif = false)
    ∧ (∃ (s : State), s.fb F.HIF_CFG_bif = false) :=
  ⟨⟨sets cr [(F.HIF_OWN_STAT_claim_pend, 2)], .port0, 1, by decide +kernel⟩,
   ⟨sets (up cr) [(F.HIF_DMA_CTL_en 3, 1), (F.HIF_DMA_CTL_port 3, 1)], .port0, 1, by decide +kernel⟩,
   ⟨ho cr 3, .port0, by decide +kernel⟩,
   ⟨ho (sets cr [(F.HIF_OWN_STAT_claim_pend, 6)]) 2, 2, by decide +kernel⟩,
   ⟨ho cr 3, by decide +kernel⟩,
   ⟨up cr, 1, by decide +kernel⟩,
   ⟨up cr, 0, by decide +kernel⟩,
   ⟨sets cr [(F.HIF_CFG_bif, 1)], 1, by decide +kernel⟩,
   ⟨sets (up cr) [(F.HIF_DMA_CTL_en 3, 1), (F.HIF_DMA_CTL_port 3, 0), (F.HIF_DMA_STAT_state 3, dmaRunning)], 0, 4, by decide +kernel⟩,
   ⟨cr, 0, 8, by decide +kernel⟩,
   ⟨sets (up cr) [(F.HIF_DMA_CTL_en 3, 1), (F.HIF_DMA_CTL_port 3, 1)], by decide +kernel⟩⟩

end Windows

namespace Doorbells

def cr := on .run
def ring (s : State) (p r l : Nat) := sets s [(F.HIF_PORT_STAT_link_up p, 1), (F.HIF_RING_CFG_en p r, 1), (F.HIF_RING_CFG_log2_len p r, l), (F.HIF_RING_BASE_LO_base p r, 0xFFFFF000), (F.HIF_RING_BASE_HI_base p r, 0x1234), (F.HIF_RING_CFG_elem p r, 2)]
def all (s : State) (p : Nat) := (List.range 5).foldl (fun s r => ring s p r 4) s
def ev1 : Event := { code := .clamp, source := 3, seq := 7, time := 99, payload := List.replicate 16 5 }
def rg (s : State) (k : Nat) (i : Nat) (l : Bool) (hs : Nat := 0) := s.setRing k { idx := i, phase := false, lost := l, host := hs }
def evs (s : State) : State := {s with events := [ev1, ev1]}
def fulls := (rg (evs (ring cr 1 ringEvent 4)) (ringKey 1 ringEvent) 15 false).setDoorbell 1 8 0
def tr : TelRec := { port := 1, arm := 11, period := 77, head := List.replicate 12 3, blocks := [List.replicate 584 9, List.replicate 584 8, List.replicate 584 8, List.replicate 584 8] }
def tl (s : State) : State := {s with hif := {s.hif with tel := [{tr with arm := 3}, tr]}}

theorem witness_DoorbellsRingsAndEvents :
    (∃ (s : State) (p : Fin 2) (a : Fin 12) (v : W32) (x : _), s.live = true ∧ x ∈ [(Instr.cmdDoorbell p v, ringCmd, 0, ringKey p ringCmd), (.eventHeadDoorbell p v, ringEvent, 0x8, ringKey p ringEvent), (.telHeadDoorbell p a v, ringTel, 0x10 + a.val * 8, telKey p a), (.dumpHeadDoorbell p v, ringDump, 0x80, ringKey p ringDump)] ∧ v.toNat < s.ringEntries p x.2.1)
    ∧ (∃ (s : State) (p : Fin 2) (a : Fin 12) (v : W32) (x : _), s.live = true ∧ x ∈ [(Instr.cmdDoorbell p v, ringCmd, 0, ringKey p ringCmd), (.eventHeadDoorbell p v, ringEvent, 0x8, ringKey p ringEvent), (.telHeadDoorbell p a v, ringTel, 0x10 + a.val * 8, telKey p a), (.dumpHeadDoorbell p v, ringDump, 0x80, ringKey p ringDump)] ∧ s.ringEntries p x.2.1 ≤ v.toNat)
    ∧ (∃ (s : State) (m : Master) (p : Fin 2) (r : Fin 5) (v : W32), s.live = true ∧ s.MayWrite m ∧ v.getLsbD 31 = true ∧ s.fb (F.HIF_RING_CFG_en p r) = false ∧ (r.val = 0 ∨ r.val = 1 ∨ r.val = 3))
    ∧ (∃ (s : State) (m : Master) (p : Fin 2) (r : Fin 5) (v : W32), s.live = true ∧ s.MayWrite m ∧ v.getLsbD 31 = true ∧ s.fb (F.HIF_RING_CFG_en p r) = false ∧ r.val = 2)
    ∧ (∃ (s : State) (m : Master) (v : W32), s.live = true ∧ s.MayWrite m ∧ v.getLsbD 31 = false)
    ∧ (∃ (s : State) (e : Event) (rest : List Event), s.events = e :: rest ∧ e.payload.length = 16 ∧ (∀ q : Fin 2, s.ringBase q ringEvent + 0x200000 ≤ 2 ^ 64) ∧ s.fb F.REC_EVT_MATCH_en = false ∧ s.sched.limitHit = false)
    ∧ (∃ (s : State) (p : Fin 2) (e : Event) (rest : List Event), s.events = e :: rest ∧ e.payload.length = 16 ∧ (∀ q : Fin 2, s.ringBase q ringEvent + 0x200000 ≤ 2 ^ 64) ∧ s.ringOn p ringEvent = true ∧ ((s.ring (ringKey p ringEvent)).idx + 1) % s.ringEntries p ringEvent ≠ (s.ring (ringKey p ringEvent)).host ∧ (s.ring (ringKey p ringEvent)).idx < s.ringEntries p ringEvent)
    ∧ (∃ (s : State) (p : Fin 2) (e : Event) (rest : List Event), s.events = e :: rest ∧ e.payload.length = 16 ∧ (∀ q : Fin 2, s.ringBase q ringEvent + 0x200000 ≤ 2 ^ 64) ∧ s.ringOn p ringEvent = true ∧ ((s.ring (ringKey p ringEvent)).idx + 1) % s.ringEntries p ringEvent = (s.ring (ringKey p ringEvent)).host)
    ∧ (∃ (s : State) (e : Event) (rest : List Event), s.events = e :: rest ∧ e.payload.length = 16 ∧ (∀ q : Fin 2, s.ringBase q ringEvent + 0x200000 ≤ 2 ^ 64) ∧ s.ringOn 0 ringEvent = false ∧ s.ringOn 1 ringEvent = false)
    ∧ (∃ (s : State) (p : Fin 2), s.hif.unsignalled.getD p 0 > 0 ∧ s.linkUp p = true)
    ∧ (∃ (s : State) (p : Fin 2), s.hif.statusDue.getD p false = true ∧ s.ringOn p ringStatus = true) :=
  ⟨⟨all cr 1, 1, 11, 15, (.cmdDoorbell 1 15, ringCmd, 0, ringKey 1 ringCmd), by decide +kernel⟩,
   ⟨all cr 1, 1, 0, 1879048192, (.dumpHeadDoorbell 1 0x70000000, ringDump, 0x80, ringKey 1 ringDump), by decide +kernel⟩,
   ⟨cr, .port0, 1, 3, 2399141888, by decide +kernel⟩,
   ⟨cr, .port0, 1, 2, 2399141888, by decide +kernel⟩,
   ⟨all cr 1, .port0, 1879048192, by decide +kernel⟩,
   ⟨evs cr, ev1, [ev1], by decide +kernel⟩,
   ⟨evs (ring cr 1 ringEvent 4), 1, ev1, [ev1], by decide +kernel⟩,
   ⟨fulls, 1, ev1, [ev1], by decide +kernel⟩,
   ⟨evs cr, ev1, [ev1], by decide +kernel⟩,
   ⟨{ all cr 1 with hif := { (all cr 1).hif with unsignalled := [3, 2], statusDue := [false, true] } }, 1, by decide +kernel⟩,
   ⟨{ all cr 1 with hif := { (all cr 1).hif with unsignalled := [3, 2], statusDue := [false, true] } }, 1, by decide +kernel⟩⟩

theorem witness_TelemetryAndDumpRecords :
    (∃ (s : State) (p : Fin 2) (a : Fin 12) (r : TelRec), s.hif.tel.find? (fun x => x.port == p.val && x.arm == a.val) = some r ∧ s.ringOn p ringTel = true ∧ s.nowUnits ≤ (s.boundary (r.period + 1) + s.f F.GLB_GATHER_DEADLINE_deadline_steps * 5) * 2 ^ 32 ∧ ((s.ring (telKey p a)).idx + 1) % s.ringEntries p ringTel ≠ (s.ring (telKey p a)).host)
    ∧ (∃ (s : State) (p : Fin 2) (a : Fin 12) (r : TelRec), s.hif.tel.find? (fun x => x.port == p.val && x.arm == a.val) = some r ∧ s.ringOn p ringTel = true ∧ (((s.ring (telKey p a)).idx + 1) % s.ringEntries p ringTel = (s.ring (telKey p a)).host ∨ (s.boundary (r.period + 1) + s.f F.GLB_GATHER_DEADLINE_deadline_steps * 5) * 2 ^ 32 < s.nowUnits) ∧ ¬ s.hif.telSeen.contains (p * 32 + a) = true)
    ∧ (∃ (s : State) (p : Fin 2), s.live = true ∧ s.hif.dumpBusy = true ∧ s.ringOn p ringDump = true ∧ (∀ q : Fin 2, s.ringBase q ringDump + 2 ^ 40 ≤ 2 ^ 64 ∧ (s.ring (ringKey q ringDump)).idx < 16)) :=
  ⟨⟨tl (all cr 1), 1, 11, tr, by decide +kernel⟩,
   ⟨rg ((tl (all cr 1)).setDoorbell 1 (16 + 88) 1) (telKey 1 11) 0 true 1, 1, 11, tr, by decide +kernel⟩,
   ⟨{ all cr 1 with hif := { (all cr 1).hif with dumpBusy := true } }, 1, by decide +kernel⟩⟩

end Doorbells

namespace Entries

def cr := on .configure
def ring (s : State) (p r l : Nat) := sets s [(F.HIF_PORT_STAT_link_up p, 1), (F.HIF_RING_CFG_en p r, 1), (F.HIF_RING_CFG_log2_len p r, l), (F.HIF_RING_BASE_LO_base p r, 0xFFFFF000), (F.HIF_RING_BASE_HI_base p r, 0x1234), (F.HIF_RING_CFG_elem p r, 2)]
def en (kind fl cnt tag : Nat) (rest : List Byte) : List Byte := (leBytes 1 kind ++ leBytes 1 fl ++ leBytes 2 cnt ++ leBytes 4 tag ++ rest ++ List.replicate 64 0).take 64
def rdy (s : State) (i : Nat) := ((ring s 0 ringCmd 4).setRing (ringKey 0 ringCmd) { idx := i, phase := true, lost := false, host := (i + 3) % 16 }).setDoorbell 0 0 ((i + 3) % 16)
def w1 := en 1 1 1 99 (leBytes 8 0 ++ leBytes 4 (R.ENG_PM_ADDR 5) ++ leBytes 4 0x12345678)
def w2 := en 2 1 12 99 (leBytes 1 11 ++ leBytes 1 0 ++ leBytes 2 (32768-48) ++ leBytes 4 0 ++ (List.range 48).map (fun i => BitVec.ofNat 8 (i + 1)))
def w3 := en 3 1 48 99 (leBytes 4 (grnSize - 48) ++ leBytes 4 0 ++ (List.range 48).map (fun i => BitVec.ofNat 8 (i + 1)))
def w4 := en 4 1 0 99 (leBytes 1 0x20)
def w5 := en 5 0 0 99 (leBytes 2 0xFFFF ++ leBytes 1 7)

theorem witness_CommandEntriesCheckedAndApplied :
    (∃ (s : State) (p : Fin 2) (e : List Byte) (i : Instr) (k : Nat), s.EntryAt p e ∧ (i, k) ∈ cmdRows p e ∧ fieldAt e 0 1 > 5)
    ∧ (∃ (s : State) (p : Fin 2) (e : List Byte) (i : Instr) (k : Nat), s.EntryAt p e ∧ (i, k) ∈ cmdRows p e ∧ fieldAt e 0 1 = k ∧ 1 ≤ k ∧ k ≤ 4 ∧ s.owner ≠ p)
    ∧ (∃ (s : State) (p : Fin 2) (e : List Byte) (i : Instr) (k : Nat), s.EntryAt p e ∧ (i, k) ∈ cmdRows p e ∧ fieldAt e 0 1 = k ∧ 1 ≤ k ∧ k ≤ 4 ∧ s.owner = p ∧ s.paired = true ∧ s.holder = false)
    ∧ (∃ (s : State) (p : Fin 2) (e : List Byte) (i : Instr) (k : Nat), s.EntryAt p e ∧ (i, k) ∈ cmdRows p e ∧ fieldAt e 0 1 = k ∧ s.owner = p ∧ s.paired = false ∧ cmdFieldsOk (entry64 e) = false)
    ∧ (∃ (s : State) (p : Fin 2) (e : List Byte) (i : Instr) (k : Nat), s.EntryAt p e ∧ (i, k) ∈ cmdRows p e ∧ (fieldAt e 0 1 = k ∧ s.owner = p ∧ s.paired = false ∧ cmdFieldsOk (entry64 e) = true ∧ s.Quiet) ∧ k = 0 ∧ fieldAt e 1 1 = 1)
    ∧ (∃ (s : State) (p : Fin 2) (e : List Byte) (i : Instr) (k : Nat), s.EntryAt p e ∧ (i, k) ∈ cmdRows p e ∧ (fieldAt e 0 1 = k ∧ s.owner = p ∧ s.paired = false ∧ cmdFieldsOk (entry64 e) = true ∧ s.Quiet) ∧ k = 0 ∧ fieldAt e 1 1 = 0)
    ∧ (∃ (s : State) (p : Fin 2) (e : List Byte) (i : Instr) (k : Nat) (y : Fin 12), s.EntryAt p e ∧ (i, k) ∈ cmdRows p e ∧ (fieldAt e 0 1 = k ∧ s.owner = p ∧ s.paired = false ∧ cmdFieldsOk (entry64 e) = true ∧ s.Quiet) ∧ k = 1 ∧ (fieldAt e 2 2) = 1 ∧ fieldAt e 16 4 = R.ENG_PM_ADDR y ∧ fieldAt e 1 1 = 1)
    ∧ (∃ (s : State) (p : Fin 2) (e : List Byte) (i : Instr) (k : Nat), s.EntryAt p e ∧ (i, k) ∈ cmdRows p e ∧ (fieldAt e 0 1 = k ∧ s.owner = p ∧ s.paired = false ∧ cmdFieldsOk (entry64 e) = true ∧ s.Quiet) ∧ k = 2)
    ∧ (∃ (s : State) (p : Fin 2) (e : List Byte) (i : Instr) (k : Nat), s.EntryAt p e ∧ (i, k) ∈ cmdRows p e ∧ (fieldAt e 0 1 = k ∧ s.owner = p ∧ s.paired = false ∧ cmdFieldsOk (entry64 e) = true ∧ s.Quiet) ∧ k = 3 ∧ fieldAt e 1 1 = 1)
    ∧ (∃ (s : State) (p : Fin 2) (e : List Byte) (i : Instr) (k : Nat), s.EntryAt p e ∧ (i, k) ∈ cmdRows p e ∧ k = 4 ∧ fieldAt e 0 1 = 4 ∧ s.owner = p ∧ s.paired = false ∧ cmdFieldsOk (entry64 e) = true ∧ s.seq.running = false ∧ s.sched.limitHit = false)
    ∧ (∃ (s : State) (p : Fin 2) (e : List Byte) (i : Instr) (k : Nat), s.EntryAt p e ∧ (i, k) ∈ cmdRows p e ∧ fieldAt e 0 1 = k ∧ 1 ≤ k ∧ k ≤ 4 ∧ s.owner = p ∧ s.paired = false ∧ cmdFieldsOk (entry64 e) = true ∧ s.seq.running = true)
    ∧ (∃ (s : State) (p : Fin 2) (e : List Byte) (i : Instr) (k : Nat), s.EntryAt p e ∧ (i, k) ∈ cmdRows p e ∧ k = 5 ∧ fieldAt e 0 1 = 5 ∧ cmdFieldsOk (entry64 e) = true) :=
  ⟨⟨rdy cr 15, 0, en 6 0 0 5 [], .cmdFence 0 (en 6 0 0 5 []), 5, by decide +kernel⟩,
   ⟨(rdy cr 3).setF F.HIF_OWN_STAT_owner 1, 0, w1, .cmdWrite 0 w1, 1, by decide +kernel⟩,
   ⟨(rdy cr 3).setF F.RED_CFG_pair_en 1, 0, w4, .cmdEvent 0 w4, 4, by decide +kernel⟩,
   ⟨rdy cr 0, 0, en 0 2 0 5 [], .cmdNop 0 (en 0 2 0 5 []), 0, by decide +kernel⟩,
   ⟨rdy cr 0, 0, en 0 1 0 5 [], .cmdNop 0 (en 0 1 0 5 []), 0, by and_intros <;> first | decide +kernel | exact ⟨by decide +kernel, by decide +kernel, by decide +kernel, by decide +kernel, quiet_of_regs (by decide +kernel) (by decide +kernel) (by decide +kernel)⟩ ⟩,
   ⟨rdy cr 15, 0, en 0 0 0 5 [], .cmdNop 0 (en 0 0 0 5 []), 0, by and_intros <;> first | decide +kernel | exact ⟨by decide +kernel, by decide +kernel, by decide +kernel, by decide +kernel, quiet_of_regs (by decide +kernel) (by decide +kernel) (by decide +kernel)⟩ ⟩,
   ⟨rdy cr 15, 0, w1, .cmdWrite 0 w1, 1, 5, by and_intros <;> first | decide +kernel | exact ⟨by decide +kernel, by decide +kernel, by decide +kernel, by decide +kernel, quiet_of_regs (by decide +kernel) (by decide +kernel) (by decide +kernel)⟩ ⟩,
   ⟨rdy cr 0, 0, w2, .cmdWriteDm 0 w2, 2, by and_intros <;> first | decide +kernel | exact ⟨by decide +kernel, by decide +kernel, by decide +kernel, by decide +kernel, quiet_of_regs (by decide +kernel) (by decide +kernel) (by decide +kernel)⟩ ⟩,
   ⟨rdy cr 0, 0, w3, .cmdWriteGrn 0 w3, 3, by and_intros <;> first | decide +kernel | exact ⟨by decide +kernel, by decide +kernel, by decide +kernel, by decide +kernel, quiet_of_regs (by decide +kernel) (by decide +kernel) (by decide +kernel)⟩ ⟩,
   ⟨rdy cr 0, 0, w4, .cmdEvent 0 w4, 4, by decide +kernel⟩,
   ⟨runs (rdy (on .run) 7) 50000, 0, w4, .cmdEvent 0 w4, 4, by decide +kernel⟩,
   ⟨rdy cr 0, 0, w5, .cmdFence 0 w5, 5, by decide +kernel⟩⟩

end Entries

namespace Transfers

def cr := on .configure
def en (kind fl cnt tag : Nat) (rest : List Byte) : List Byte := (leBytes 1 kind ++ leBytes 1 fl ++ leBytes 2 cnt ++ leBytes 4 tag ++ rest ++ List.replicate 64 0).take 64
def f1 : Fence := {source := 1, master := 1, ord := 0, tag := 77, index := 5, notify := true, instant := 500 * 2 ^ 32, scope := 7, descs := [(3, 2)]}
def e1 (t : Nat) : Event := {code := .clamp, source := 0, seq := 0, time := BitVec.ofNat 64 (timeWord t), payload := []}
def fs (s : State) (f : Fence) : State := {s with hif := {s.hif with fences := [f]}}
def mb (s : State) (e : List Byte) := (List.range 16).foldl (fun s w => s.wr (R.HIF_MBOX w) (fieldAt e (4*w) 4)) s
def dm (s : State) (c st : Nat) := sets s [(F.HIF_DMA_CTL_en c, 1), (F.HIF_DMA_STAT_state c, st), (F.HIF_DMA_CTL_port c, 1), (F.HIF_DMA_HEAD_LO_head c, 0x7FFFFFF), (F.HIF_DMA_HEAD_HI_head c, 0xFFFFFFFF), (F.HIF_PORT_STAT_link_up 1, 1)]
def ds (src dst len fl wd nx : Nat) : List Byte := leBytes 8 src ++ leBytes 8 dst ++ leBytes 4 len ++ leBytes 1 fl ++ leBytes 1 wd ++ leBytes 1 0 ++ leBytes 1 0 ++ leBytes 8 nx
def dd (c : Nat) (d : Option (List Byte)) (p : Nat) : State := let s := (dm cr c 1).setF (F.HIF_DMA_STAT_pending c) p
   {s with hif := {s.hif with dma := tput DmaCh.reset s.hif.dma c { s.dmaCh c with desc := d, nextAddr := 0x1000, hops := 255 }}}
def d1 := ds 0x1234 (67108864-5) 5 0x24 0 0
def d2 := ds 0x1234 64 5 0x04 0 0x12345678
def d5 := ds 0x1235 64 4 0x25 0x01 0
def wrt : Nat → Nat → Nat → Nat → State := (fun (c w : Nat) (a n : Nat) => { dd c (some d2) 1 with hif := { (dd c (some d2) 1).hif with dmaWrote := [{cyc := 1000000, ch := w, space := 1, port := 0, addr := a, bytes := [9,8,7,6,5].take n}] } })
def bs5 : List Byte := [1,2,3,4,5]
def pmm := R.ENG_PM_ADDR 7
def bad (s : State) : State := {s with grnBad := [5]}

theorem witness_FencesAndTheMailbox :
    (∃ (s : State) (f : Fence), s.hif.fences = [f] ∧ f.notify = true ∧ s.pair.deferred = [] ∧ s.pair.capLast = [] ∧ s.pair.capNow = [] ∧ s.pair.input = none ∧ (f.scope.testBit 0 = true → ∀ v ∈ s.events, f.instant / 2 ^ 32 < instantOf v.time.toNat) ∧ (f.scope.testBit 1 = true → s.hif.tel = []) ∧ (f.scope.testBit 2 = true → s.hif.dumpBusy = false) ∧ (∀ d ∈ f.descs, (s.dmaCh d.1).desc = none))
    ∧ (∃ (s : State) (f : Fence), s.hif.fences = [f] ∧ f.scope.testBit 0 = true ∧ (∃ v ∈ s.events, instantOf v.time.toNat ≤ f.instant / 2 ^ 32))
    ∧ (∃ (s : State) (m : Master), s.MayWrite m ∧ s.fb F.HIF_MBOX_CTL_busy = false ∧ s.hif.handover = none ∧ fieldAt s.mboxEntry 0 2 = 0x100 ∧ cmdFieldsOk (entry64 s.mboxEntry) = true)
    ∧ (∃ (s : State) (m : Master), s.MayWrite m ∧ s.fb F.HIF_MBOX_CTL_busy = true) :=
  ⟨⟨fs cr f1, f1, by decide +kernel⟩,
   ⟨{ fs cr f1 with events := [e1 501, e1 500] }, f1, by decide +kernel⟩,
   ⟨mb cr (en 0 1 0 33 []), .port0, by decide +kernel⟩,
   ⟨cr.setF F.HIF_MBOX_CTL_busy 1, .port0, by decide +kernel⟩⟩

theorem witness_DmaStartsStopsAndRefusals :
    (∃ (s : State) (p : Fin 2) (c : Fin 16), s.live = true ∧ s.dumpChannel c = false ∧ s.fb (F.HIF_DMA_CTL_eng_owned c) = false ∧ s.f (F.HIF_DMA_CTL_port c) = p ∧ s.fb (F.HIF_DMA_CTL_en c) = true ∧ (s.dmaState c = dmaIdle ∨ s.dmaState c = dmaHalted))
    ∧ (∃ (s : State) (p : Fin 2) (c : Fin 16), s.live = true ∧ s.dumpChannel c = false ∧ s.fb (F.HIF_DMA_CTL_eng_owned c) = false ∧ s.f (F.HIF_DMA_CTL_port c) = p ∧ s.fb (F.HIF_DMA_CTL_en c) = true ∧ s.dmaState c = dmaRunning)
    ∧ (∃ (s : State) (p : Fin 2) (c : Fin 16), s.live = true ∧ s.dumpChannel c = false ∧ (s.fb (F.HIF_DMA_CTL_eng_owned c) = true ∨ s.f (F.HIF_DMA_CTL_port c) ≠ p))
    ∧ (∃ (s : State) (m : Master) (c : Fin 16), s.live = true ∧ s.dumpChannel c = false ∧ s.MayWrite m)
    ∧ (∃ (s : State) (c : Fin 16), s.live = true ∧ s.dumpChannel c = false ∧ s.dmaState c = dmaDisabling) :=
  ⟨⟨dm cr 15 0, 1, 15, by decide +kernel⟩,
   ⟨dm cr 3 1, 1, 3, by decide +kernel⟩,
   ⟨(dm cr 3 1).setF (F.HIF_DMA_CTL_eng_owned 3) 1, 1, 3, by decide +kernel⟩,
   ⟨dm cr 15 0, .port0, 15, by decide +kernel⟩,
   ⟨dm cr 3 3, 3, by decide +kernel⟩⟩

theorem witness_DmaDescriptors :
    (∃ (s : State) (c : Fin 16) (bytes : List Byte), s.dmaState c = dmaRunning ∧ (s.dmaCh c).desc = none ∧ s.fb (F.HIF_DMA_CTL_chain_space c) = false ∧ s.linkUp (s.f (F.HIF_DMA_CTL_port c)) = true ∧ bytes.length = 32)
    ∧ (∃ (s : State) (c : Fin 16) (ok : Bool), s.dmaState c = dmaRunning ∧ (s.dmaCh c).desc = none ∧ s.fb (F.HIF_DMA_CTL_chain_space c) = false ∧ (ok = false ∨ s.linkUp (s.f (F.HIF_DMA_CTL_port c)) = false))
    ∧ (∃ (s : State) (c : Fin 16) (d : List Byte) (data : List Byte) (y : _), (s.dmaState c = dmaRunning ∧ (s.dmaCh c).desc = some d ∧ s.fb (F.HIF_DMA_CTL_chain_space c) = false ∧ (fieldAt d 20 1).testBit 4 = false ∧ s.sched.limitHit = false) ∧ descRefused d = none ∧ bitsOf (fieldAt d 20 1) 3 0 = 4 ∧ data.length = (fieldAt d 16 4) ∧ s.linkUp (s.f (F.HIF_DMA_CTL_port c)) = true ∧ s.hif.dmaWrote = [y] ∧ y.cyc = s.cyc ∧ y.ch < 16 ∧ y.ch ≠ c ∧ y.space = 1 ∧ y.addr = fieldAt d 8 8 ∧ y.bytes.length = (fieldAt d 16 4) ∧ s.hif.dmaWins = [])
    ∧ (∃ (s : State) (c : Fin 16) (d : List Byte) (data : List Byte), (s.dmaState c = dmaRunning ∧ (s.dmaCh c).desc = some d ∧ s.fb (F.HIF_DMA_CTL_chain_space c) = false ∧ (fieldAt d 20 1).testBit 4 = false ∧ s.sched.limitHit = false) ∧ (∀ y ∈ s.hif.dmaWrote, y.cyc ≠ s.cyc) ∧ descRefused d = none ∧ bitsOf (fieldAt d 20 1) 3 0 = 4 ∧ data.length = (fieldAt d 16 4) ∧ s.linkUp (s.f (F.HIF_DMA_CTL_port c)) = true ∧ (fieldAt d 20 1).testBit 5 = true ∧ s.fb (F.HIF_DMA_STAT_pending c) = false)
    ∧ (∃ (s : State) (c : Fin 16) (d : List Byte) (data : List Byte), (s.dmaState c = dmaRunning ∧ (s.dmaCh c).desc = some d ∧ s.fb (F.HIF_DMA_CTL_chain_space c) = false ∧ (fieldAt d 20 1).testBit 4 = false ∧ s.sched.limitHit = false) ∧ (∀ y ∈ s.hif.dmaWrote, y.cyc ≠ s.cyc) ∧ descRefused d = none ∧ bitsOf (fieldAt d 20 1) 3 0 = 4 ∧ data.length = (fieldAt d 16 4) ∧ s.linkUp (s.f (F.HIF_DMA_CTL_port c)) = true ∧ (fieldAt d 20 1).testBit 5 = true ∧ s.fb (F.HIF_DMA_STAT_pending c) = true)
    ∧ (∃ (s : State) (c : Fin 16) (d : List Byte) (data : List Byte), (s.dmaState c = dmaRunning ∧ (s.dmaCh c).desc = some d ∧ s.fb (F.HIF_DMA_CTL_chain_space c) = false ∧ (fieldAt d 20 1).testBit 4 = false ∧ s.sched.limitHit = false) ∧ (∀ y ∈ s.hif.dmaWrote, y.cyc ≠ s.cyc) ∧ descRefused d = none ∧ bitsOf (fieldAt d 20 1) 3 0 = 4 ∧ data.length = (fieldAt d 16 4) ∧ s.linkUp (s.f (F.HIF_DMA_CTL_port c)) = true ∧ (fieldAt d 20 1).testBit 5 = false ∧ (s.dmaCh c).hops < s.f (F.HIF_DMA_HOPS_max_hops c))
    ∧ (∃ (s : State) (c : Fin 16) (d : List Byte) (data : List Byte), (s.dmaState c = dmaRunning ∧ (s.dmaCh c).desc = some d ∧ s.fb (F.HIF_DMA_CTL_chain_space c) = false ∧ (fieldAt d 20 1).testBit 4 = false ∧ s.sched.limitHit = false) ∧ (∀ y ∈ s.hif.dmaWrote, y.cyc ≠ s.cyc) ∧ descRefused d = none ∧ bitsOf (fieldAt d 20 1) 3 0 = 4 ∧ data.length = (fieldAt d 16 4) ∧ s.linkUp (s.f (F.HIF_DMA_CTL_port c)) = true ∧ (fieldAt d 20 1).testBit 5 = false ∧ s.f (F.HIF_DMA_HOPS_max_hops c) ≤ (s.dmaCh c).hops)
    ∧ (∃ (s : State) (c : Fin 16) (d : List Byte) (st : _), (s.dmaState c = dmaRunning ∧ (s.dmaCh c).desc = some d ∧ s.fb (F.HIF_DMA_CTL_chain_space c) = false ∧ (fieldAt d 20 1).testBit 4 = false ∧ s.sched.limitHit = false) ∧ st ∈ [4, 5] ∧ (st = 5 → bitsOf (fieldAt d 20 1) 3 2 = 3 ∨ (bitsOf (fieldAt d 20 1) 3 2 = 1 ∧ grnSize < fieldAt d 8 8 + (fieldAt d 16 4))) ∧ (st = 4 → bitsOf (fieldAt d 20 1) 3 0 = 5 ∧ fieldAt d 0 8 + (fieldAt d 16 4) ≤ grnSize ∧ fieldAt d 8 8 + (fieldAt d 16 4) ≤ grnSize ∧ fieldAt d 0 8 % 2 ^ bitsOf (fieldAt d 21 1) 2 0 ≠ 0)) :=
  ⟨⟨dd 2 none 0, 2, List.replicate 32 3, by decide +kernel⟩,
   ⟨dd 2 none 0, 2, false, by decide +kernel⟩,
   ⟨wrt 2 1 64 5, 2, d2, bs5, { cyc := 1000000, ch := 1, space := 1, port := 0, addr := 64, bytes := [0x09#8, 0x08#8, 0x07#8, 0x06#8, 0x05#8] }, by decide +kernel⟩,
   ⟨dd 2 (some d1) 0, 2, d1, bs5, by decide +kernel⟩,
   ⟨dd 2 (some d1) 1, 2, d1, bs5, by decide +kernel⟩,
   ⟨dd 2 (some d2) 1, 2, d2, bs5, by decide +kernel⟩,
   ⟨(dd 2 (some d2) 1).setF (F.HIF_DMA_HOPS_max_hops 2) 255, 2, d2, bs5, by decide +kernel⟩,
   ⟨dd 2 (some d5) 1, 2, d5, 4, by decide +kernel⟩⟩

theorem witness_GranaryWindowsAndMaintenanceSpi :
    (∃ (s : State) (m : Master) (a : Nat) (n : Nat), s.live = true ∧ s.Settled ∧ m ≠ .mspi ∧ a + n ≤ grnSize ∧ s.badWords a n = [])
    ∧ (∃ (s : State) (m : Master) (a : Nat) (n : Nat), s.live = true ∧ s.Settled ∧ m ≠ .mspi ∧ a + n ≤ grnSize ∧ 0 < n)
    ∧ (∃ (s : State) (m : Master) (a : Nat) (bs : List Byte), s.live = true ∧ s.Settled ∧ m ≠ .mspi ∧ a + bs.length ≤ grnSize ∧ s.isOwner m = true)
    ∧ (∃ (s : State) (m : Master) (a : Nat) (bs : List Byte), s.live = true ∧ s.Settled ∧ m ≠ .mspi ∧ a + bs.length ≤ grnSize ∧ s.isOwner m = false)
    ∧ (∃ (s : State) (w : Nat) (ga : BitVec 32), s.live = true ∧ s.Settled ∧ s.badWords ga.toNat w = [])
    ∧ (∃ (s : State) (ga : BitVec 32), s.live = true ∧ s.Settled ∧ ga.toNat + 4 ≤ grnSize ∧ s.isOwner .mspi = true)
    ∧ (∃ (s : State) (addr : BitVec 24) (e : Fin 12), s.live = true ∧ s.Settled ∧ s.isOwner .mspi = true ∧ addr.toNat = privBase + R.ENG_PM_ADDR e)
    ∧ (∃ (s : State) (addr : BitVec 24), s.live = true ∧ s.Settled ∧ s.isOwner .mspi = false ∧ privBase ≤ addr.toNat ∧ addr.toNat % 4 = 0)
    ∧ (∃ (s : State) (n : Nat), s.live = true ∧ s.Settled ∧ 0 < n ∧ n < 32) :=
  ⟨⟨cr, .port0, 67108860, 4, by decide +kernel⟩,
   ⟨cr, .port0, 67108860, 4, by decide +kernel⟩,
   ⟨cr, .port0, 67108860, [1, 2, 3], by decide +kernel⟩,
   ⟨bad cr, .port1, 7, [1, 2, 3, 9], by decide +kernel⟩,
   ⟨cr, 3, 67108860, by decide +kernel⟩,
   ⟨cr.setF F.HIF_OWN_STAT_owner 2, 5, by decide +kernel⟩,
   ⟨cr.setF F.HIF_OWN_STAT_owner 2, BitVec.ofNat 24 (privBase + pmm), 7, by decide +kernel⟩,
   ⟨bad cr, 8650756, by decide +kernel⟩,
   ⟨cr, 4, by decide +kernel⟩⟩

end Transfers

namespace Requests

def pr (s : State) := sets s [(F.RED_CFG_pair_en, 1)]
def rqs (c : Nat) (s : State) : State := {s with ctl := {s.ctl with request := some {target := c, forwarded := false, at_ := s.cyc - 1}}}

theorem witness_ModeRequests :
    (∃ (s : State) (m : Master) (i : Instr) (c : Nat), (i, c) ∈ modeRows m ∧ s.MayWrite m ∧ (s.paired = false ∨ c < 6 ∨ 8 < c ∨ s.holder = true) ∧ s.ctl.request = none)
    ∧ (∃ (s : State) (m : Master) (i : Instr) (c : Nat), (i, c) ∈ modeRows m ∧ s.MayWrite m ∧ s.paired = true ∧ 6 ≤ c ∧ c ≤ 8 ∧ s.holder = false ∧ s.ctl.request = none)
    ∧ (∃ (s : State) (w : _), w ∈ s.wayOut ∧ s.Asked w.2.1 ∧ s.mode = w.1 ∧ w.2.2.1)
    ∧ (∃ (s : State) (w : _), w ∈ s.refusal ∧ s.Asked w.2.1 ∧ s.mode = w.1 ∧ w.2.2.1)
    ∧ (∃ (s : State) (c : Nat), s.Asked c ∧ c < 16 ∧ (∀ w ∈ s.wayOut, ¬ (s.mode = w.1 ∧ c = w.2.1)) ∧ (s.mode = .shadow → c ≠ 7))
    ∧ (∃ (s : State), s.ctl.request = none ∧ s.Settled) :=
  ⟨⟨on .run, .port0, .requestBoot .port0, 2, by decide +kernel⟩,
   ⟨pr (on .run), .port0, .requestRun .port0, 8, by decide +kernel⟩,
   ⟨rqs 2 (on .configure), (.configure, 2, True, .boot), List.Mem.head _, by decide +kernel⟩,
   ⟨rqs 4 (on .configure), (.configure, 4, (rqs 4 (on .configure)).fb F.GLB_MAP_STAT_map_valid = false, 2), by and_intros <;> first | decide +kernel | exact List.Mem.head _ | exact by show (rqs 4 (on .configure)).fb F.GLB_MAP_STAT_map_valid = false; decide +kernel ⟩,
   ⟨rqs 15 (on .boot), 15, by decide +kernel⟩,
   ⟨on .run, by decide +kernel⟩⟩

end Requests

namespace Modes

def bt (p : BootPhase) (f : Boot → Boot) (s : State) : State := {s with boot := f {s.boot with phase := p}}
def hdr (n v : Nat) (secs : List (List Nat)) : List Byte :=
  leBytes 4 0x3036384A ++ leBytes 2 3 ++ leBytes 2 0x100 ++ leBytes 4 n ++ leBytes 4 (8*256) ++ leBytes 4 (0x48600000) ++ leBytes 4 v ++ leBytes 4 secs.length ++ List.replicate 0xE4 0
  ++ secs.flatMap (fun l => match l with | [k,t,src,len,dest] => leBytes 4 (k + t*256) ++ leBytes 4 src ++ leBytes 4 len ++ leBytes 4 dest | _ => [])
def fin (b : List Byte) (n : Nat) : List Byte := let x := b ++ (List.range (n - 4 - b.length)).map (fun i => BitVec.ofNat 8 (i*7+3)); x ++ leBytes 4 (crc32c x)
def im2 (t dest len : Nat) := fin (hdr 1024 0x01020304 [[2, t, 0x200, len, dest]]) 1024
def imBad := (im2 3 0x100 16).take 1020 ++ leBytes 4 0
def im1 := fin (hdr 1024 0x01020304 [[1, 3, 0x200, 16, 0x100], [2, 3, 0x200, 16, 0x100], [3,0,0x200,8,0x800000]]) 1024
def boot (p : BootPhase) (im : List Byte) (q : List Nat) : State := bt p (fun b => {b with image := im, qspiLeft := q}) ((on .boot).setF F.GLB_BOOT_STAT_source 1)
def pw (s : State) (f : Power → Power) : State := {s with pwr := f s.pwr}
def off0 : State := pw State.reset (fun p => {p with porstLow := false})
def cm (f : ModeCtl → ModeCtl) (s : State) : State := {s with ctl := f s.ctl}
def com := cm (fun c => {c with checkBusy := true}) (mapped (on .commission))
def conf (n : Nat) (s : State) : State := {s with saf := {s.saf with confirmed := some n}}
def asrt (s : State) := sets s [(F.SAF_IN_CFG_en 0, 1), (F.SAF_STAT_in_now, 1)]
def shown := (com.setF F.SAF_STAT_check_valid 1).wr R.SAF_CHECK com.checkValue |> cm (fun c => {c with checkBusy := false})
def mu := cm (fun c => {c with musterDone := false}) (on .muster)

theorem witness_BootImagesAndDiagnosticSequencer :
    (∃ (s : State) (m : Master), s.MayWrite m ∧ s.mode = .diagnostic ∧ s.fb F.GLB_DIAG_CTL_seq_run = false ∧ s.seq.running = false)
    ∧ (∃ (s : State) (m : Master), s.MayWrite m ∧ s.mode = .diagnostic ∧ s.fb F.GLB_DIAG_CTL_seq_run = true ∧ s.seq.running = true)
    ∧ (∃ (s : State) (m : Master) (i : _), s.MayWrite m ∧ s.mode ≠ .diagnostic ∧ i ∈ [Instr.seqRunStart m, .seqRunStop m])
    ∧ (∃ (s : State) (m : Master), s.MayWrite m ∧ s.mode = .boot ∧ s.f F.GLB_BOOT_STAT_boot_sel ≠ 2 ∧ s.boot.phase = .idle ∧ s.boot.restart = false)
    ∧ (∃ (s : State) (m : Master), s.MayWrite m ∧ s.mode = .boot ∧ s.f F.GLB_BOOT_STAT_boot_sel ≠ 2 ∧ (s.boot.phase = .reading ∨ s.boot.phase = .checking))
    ∧ (∃ (s : State) (m : Master), s.MayWrite m ∧ (s.mode ≠ .boot ∨ s.f F.GLB_BOOT_STAT_boot_sel = 2))
    ∧ (∃ (s : State) (im : List Byte), s.live = true ∧ s.boot.phase = .reading ∧ 256 ≤ im.length)
    ∧ (∃ (s : State) (im : List Byte) (b : Bool) (src : Nat) (rest : List Nat), s.live = true ∧ s.boot.phase = .reading ∧ (b = false ∨ im.length < 256) ∧ s.boot.qspiLeft = src :: rest ∧ src < 4)
    ∧ (∃ (s : State) (im : List Byte) (b : Bool), s.live = true ∧ s.boot.phase = .reading ∧ (b = false ∨ im.length < 256) ∧ s.boot.qspiLeft = [] ∧ s.fb F.GLB_BOOT_CTL_go = false)
    ∧ (∃ (s : State) (im : List Byte), s.live = true ∧ s.boot.phase = .checking ∧ s.f F.GLB_BOOT_STAT_source ≠ 3 ∧ s.boot.image = im ∧ fieldAt im 0 4 ≠ 0x3036384A)
    ∧ (∃ (s : State) (im : List Byte), s.live = true ∧ s.boot.phase = .checking ∧ s.f F.GLB_BOOT_STAT_source ≠ 3 ∧ s.boot.image = im ∧ imgHeaderOk im = true ∧ imgLengthsOk im none = true ∧ fieldAt im 0x12 2 = 0x4860 ∧ fieldAt im 0x10 1 ≤ s.stepping ∧ crc32c (im.take (imgCrcAt im)) ≠ fieldAt im (imgCrcAt im) 4)
    ∧ (Config.sigRequired = false → ∃ (s : State) (im : List Byte), s.live = true ∧ s.boot.phase = .checking ∧ s.f F.GLB_BOOT_STAT_source ≠ 3 ∧ s.boot.image = im ∧ s.imgCheck im none = 0)
    ∧ (∃ (s : State), s.live = true ∧ s.boot.phase = .loading ∧ s.Alone ∧ s.mode = .boot ∧ (∀ x ∈ imgTable s.boot.image, x.kind ≠ 4)) :=
  ⟨⟨on .diagnostic, .port0, by decide +kernel⟩,
   ⟨runs (sets (on .diagnostic) [(F.GLB_DIAG_CTL_seq_run, 1)]) 777777, .port0, by decide +kernel⟩,
   ⟨runs (on .run) 55, .port0, .seqRunStop .port0, by decide +kernel⟩,
   ⟨on .boot, .port0, by decide +kernel⟩,
   ⟨bt BootPhase.reading id (on .boot), .port0, by decide +kernel⟩,
   ⟨on .diagnostic, .port0, by decide +kernel⟩,
   ⟨State.setF (boot BootPhase.reading [] []) F.GLB_BOOT_CTL_go 1, im1, by decide +kernel⟩,
   ⟨boot BootPhase.reading [] [2, 1], [], true, 2, [1], by decide +kernel⟩,
   ⟨boot BootPhase.reading [] [], im1, false, by decide +kernel⟩,
   ⟨boot BootPhase.checking [5] [], [5], by decide +kernel⟩,
   ⟨boot BootPhase.checking imBad [2], imBad, by decide +kernel⟩,
   fun h => ⟨boot .checking im1 [2], im1, by decide +kernel, by decide +kernel, by decide +kernel, by decide +kernel, by unfold State.imgCheck; rw [h]; decide +kernel⟩,
   ⟨boot BootPhase.loading [] [], by decide +kernel⟩⟩

theorem witness_ClockFaultsAndReferences :
    (∃ (s : State), s.pwr.rails = true ∧ s.pwr.porstLow = false ∧ s.pwr.railReset = false ∧ s.pwr.pllOnce = false ∧ s.pwr.pllLocked = false ∧ s.Alone ∧ s.pwr.clkFault = false)
    ∧ (∃ (s : State), s.up = true ∧ s.pwr.clkFault = true ∧ s.Settled)
    ∧ (∃ (s : State) (x : _), x ∈ [(Instr.lockLost, F.CLK_PLL_STAT_lock_lost), (.refLost, F.CLK_PLL_STAT_ref_lost)] ∧ s.live = true ∧ s.pwr.clkFault = false ∧ s.mode.fromConfigure = true ∧ s.mode ≠ .safeBlock ∧ s.FreshCycle)
    ∧ (∃ (s : State) (x : _), x ∈ [(Instr.lockLost, F.CLK_PLL_STAT_lock_lost), (.refLost, F.CLK_PLL_STAT_ref_lost)] ∧ s.live = true ∧ s.pwr.clkFault = false ∧ s.mode = .boot ∧ s.FreshCycle)
    ∧ (∃ (s : State) (x : _), x ∈ [(Instr.lockLost, F.CLK_PLL_STAT_lock_lost), (.refLost, F.CLK_PLL_STAT_ref_lost)] ∧ s.live = true ∧ s.pwr.clkFault = true)
    ∧ (∃ (s : State), s.up = true ∧ (∀ l < 50, s.fb (F.LPHY_STAT_block_lock l) = false) ∧ s.Settled ∧ (s.inPeriod = true → s.seq.gatherDone = true)) :=
  ⟨⟨off0, by decide +kernel⟩,
   ⟨pw (on .run) fun p => { p with clkFault := true }, by decide +kernel⟩,
   ⟨(on .run).setF F.RED_CFG_pair_en 1, (.lockLost, F.CLK_PLL_STAT_lock_lost), by decide +kernel⟩,
   ⟨bt BootPhase.checking id (on .boot), (.refLost, F.CLK_PLL_STAT_ref_lost), by decide +kernel⟩,
   ⟨pw (on .run) fun p => { p with clkFault := true }, (.lockLost, F.CLK_PLL_STAT_lock_lost), by decide +kernel⟩,
   ⟨(on .run).setF F.RED_CFG_pair_en 1, by decide +kernel⟩⟩

theorem witness_SuppliesResetPinAndTemperature :
    (∃ (s : State), s.pwr.rails = true ∧ s.pwr.vbat = true)
    ∧ (∃ (s : State), s.pwr.rails = true ∧ s.pwr.vbat = false)
    ∧ (∃ (s : State), s.mode.powered = true ∧ s.saf.retDirty = false)
    ∧ (∃ (s : State), s.mode.powered = true ∧ s.saf.retDirty = true)
    ∧ (∃ (s : State), s.pwr.porstLow = true)
    ∧ (∃ (s : State), s.pwr.railReset = true ∧ s.pwr.rails = true)
    ∧ (∃ (s : State), s.pwr.rails = false ∧ s.pwr.vbat = true)
    ∧ (∃ (s : State), s.up = true)
    ∧ (∃ (s : State) (code : Int), s.live = true ∧ -2048 ≤ code ∧ code ≤ 2047) :=
  ⟨⟨on .run, by decide +kernel⟩,
   ⟨{ pw (on .run) fun p => { p with vbat := false } with mode := .off }, by decide +kernel⟩,
   ⟨on .run, by decide +kernel⟩,
   ⟨let s := on .run; { s with saf := { s.saf with confirmed := some 5, retDirty := true } }, by decide +kernel⟩,
   ⟨State.reset, by decide +kernel⟩,
   ⟨pw (on .run) fun p => { p with railReset := true }, by decide +kernel⟩,
   ⟨{ pw (on .run) fun p => { p with rails := false } with mode := .dormant }, by decide +kernel⟩,
   ⟨on .run, by decide +kernel⟩,
   ⟨on .run, -2048, by decide +kernel⟩⟩

theorem witness_CommissionAndMuster :
    (∃ (s : State), s.Settled ∧ s.live = true ∧ s.mode = .commission ∧ s.ctl.checkBusy = true ∧ s.retConfirmed ≠ some s.checkValue)
    ∧ (∃ (s : State), s.Settled ∧ s.live = true ∧ s.mode = .commission ∧ s.ctl.checkBusy = true ∧ s.retConfirmed = some s.checkValue ∧ s.inputAsserted = false)
    ∧ (∃ (s : State), s.Settled ∧ s.live = true ∧ s.mode = .commission ∧ s.ctl.checkBusy = true ∧ s.retConfirmed = some s.checkValue ∧ s.inputAsserted = true)
    ∧ (∃ (s : State) (m : Master) (v : W32), s.Settled ∧ s.live = true ∧ s.isOwner m = true ∧ s.mode = .commission ∧ s.fb F.SAF_STAT_check_valid = true ∧ s.ctl.checkBusy = false ∧ v.toNat = s.rd R.SAF_CHECK ∧ s.ctl.pendMatch = none ∧ s.inputAsserted = false)
    ∧ (∃ (s : State) (m : Master) (v : W32), s.Settled ∧ s.live = true ∧ s.isOwner m = true ∧ (s.mode ≠ .commission ∨ s.fb F.SAF_STAT_check_valid = false ∨ v.toNat ≠ s.rd R.SAF_CHECK))
    ∧ (∃ (s : State) (c : Nat), s.Settled ∧ s.live = true ∧ s.mode = .commission ∧ s.ctl.pendMatch = some c ∧ c < 256 ∧ s.inputAsserted = false)
    ∧ (∃ (s : State) (c : Nat), s.Settled ∧ s.live = true ∧ s.mode = .commission ∧ s.ctl.pendMatch = some c ∧ c < 256 ∧ s.inputAsserted = true)
    ∧ (∃ (s : State), s.Settled ∧ s.live = true ∧ s.mode = .muster ∧ s.musterOk = true ∧ s.lockedOut = false)
    ∧ (∃ (s : State), s.Settled ∧ s.live = true ∧ s.mode = .muster ∧ s.musterOk = true ∧ s.lockedOut = true ∧ s.FreshCycle)
    ∧ (∃ (s : State), s.Settled ∧ s.live = true ∧ s.mode = .muster ∧ s.musterOk = false) :=
  ⟨⟨com, by decide +kernel⟩,
   ⟨conf (State.checkValue com) com, by decide +kernel⟩,
   ⟨conf (asrt com).checkValue (asrt com), by decide +kernel⟩,
   ⟨shown, .port0, BitVec.ofNat 32 (State.checkValue com), by decide +kernel⟩,
   ⟨com, .port0, 5, by decide +kernel⟩,
   ⟨cm (fun c => { c with pendMatch := some 4 }) com, 4, by decide +kernel⟩,
   ⟨cm (fun c => { c with pendMatch := some 5 }) (asrt com), 5, by decide +kernel⟩,
   ⟨mu, by decide +kernel⟩,
   ⟨{ mu with saf := { mu.saf with lockout := true } }, by decide +kernel⟩,
   ⟨asrt mu, by decide +kernel⟩⟩

end Modes

namespace Refer

def rqs (c : Nat) (s : State) : State := {s with ctl := {s.ctl with request := some {target := c, forwarded := false, at_ := s.cyc - 1}}}
def tn (s : State) : State := { s with ctl := { s.ctl with blockedAt := some s.cyc } }

theorem witness_ModeRequests_Refer :
    (∃ (s : State) (c : Nat), s.live = true ∧ s.ctl.request.map (fun r => (r.target, r.forwarded)) = some (c, false) ∧ c < 16 ∧ s.seq.running = false ∧ s.mode = .safeBlock ∧ s.trippedNow = true ∧ s.Alone) :=
  ⟨tn (rqs 0 (on .safeBlock)), 0, by decide +kernel⟩

end Refer

namespace Ticks

def rqs (c : Nat) (s : State) : State := {s with ctl := {s.ctl with request := some {target := c, forwarded := false, at_ := s.cyc - 1}}}
def ch (s : State) : State := {s with ctl := {s.ctl with chargeOk := true, chargeRun := 100}}
def r (m : Mode) : State := runs (mapped (on m)) 1234567
def sg (s : State) : State := s.setF F.RED_STAT_sig_match 1
def tick (s : State) : State := {s with ctl := {s.ctl with blockedAt := some (s.advanceTo (s.boundary s.seq.next)).cyc}}
def atT (c : Nat) (s : State) : State := {s with ctl := {s.ctl with request := some {target := c, forwarded := false, at_ := (s.advanceTo (s.boundary s.seq.next)).cyc}}}
def pd (drive sense : Nat) (c : Nat) (s : State) : State := let s := sets s [(F.RED_CFG_pair_en, 1), (F.RED_STAT_drive, drive), (F.RED_STAT_sense, sense), (F.RED_STAT_in_step, 1), (F.RED_STAT_partner_in_step, 1), (F.RED_STAT_eligible, 1)]; {s with pair := {s.pair with request := some (c, 0)}}

theorem witness_ModeRequests_Ticks :
    (∃ (s : State) (w : _), w ∈ s.wayOut ∧ s.AskedAtTick w.2.1 ∧ s.mode.fromMuster = true ∧ s.mode = w.1 ∧ w.2.2.1)
    ∧ (∃ (s : State) (w : _), w ∈ s.refusal ∧ s.AskedAtTick w.2.1 ∧ s.mode.fromMuster = true ∧ s.mode = w.1 ∧ w.2.2.1)
    ∧ (∃ (s : State) (c : Nat), s.AskedAtTick c ∧ c < 16 ∧ s.mode.fromMuster = true ∧ (∀ w ∈ s.wayOut, ¬ (s.mode = w.1 ∧ c = w.2.1)) ∧ s.mode ≠ .shadow ∧ s.ctl.blockedAt ≠ some s.tickCyc)
    ∧ (∃ (s : State) (c : Nat), s.AskedAtTick c ∧ c < 16 ∧ s.mode = .safeBlock ∧ s.ctl.blockedAt = some s.tickCyc)
    ∧ (∃ (s : State) (r : _), s.TickClear ∧ s.paired = false ∧ s.pair.request = none ∧ s.ctl.request = some r ∧ r.at_ = s.tickCyc ∧ s.mode ≠ .shadow)
    ∧ (∃ (s : State) (c : Nat) (w : _), s.Forwarded c ∧ s.holder = true ∧ s.f F.RED_STAT_sense ≠ 2 ∧ w ∈ s.wayOut ∧ s.mode.fromMuster = true ∧ s.mode = w.1 ∧ c = w.2.1 ∧ w.2.2.1)
    ∧ (∃ (s : State) (c : Nat), s.Forwarded c ∧ s.holder = false ∧ s.mode = .shadow ∧ c = 7)
    ∧ (∃ (s : State) (c : Nat), s.Forwarded c ∧ s.holder = false ∧ s.mode = .precharge ∧ c = 7 ∧ s.ctl.chargeOk = true)
    ∧ (∃ (s : State) (c : Nat), s.Forwarded c ∧ s.holder = false ∧ s.mode = .ready ∧ c = 8 ∧ s.pairRefuses = false)
    ∧ (∃ (s : State) (c : Nat), s.Forwarded c ∧ s.holder = false ∧ s.mode = .ready ∧ c = 8 ∧ s.pairRefuses = true) :=
  ⟨⟨rqs 7 (r .run), (.run, 7, True, .ready), by simp [State.wayOut], by decide +kernel⟩,
   ⟨rqs 7 (r .precharge), (.precharge, 7, (rqs 7 (r .precharge)).ctl.chargeOk = false, 5), by and_intros <;> first | decide +kernel | exact by simp [State.refusal] | exact by show (rqs 7 (r .precharge)).ctl.chargeOk = false; decide +kernel ⟩,
   ⟨rqs 15 (r .run), 15, by decide +kernel⟩,
   ⟨tick (rqs 3 (r .safeBlock)), 3, by decide +kernel⟩,
   ⟨atT 7 (r .run), { target := 7, forwarded := false, at_ := (r .run).tickCyc }, by decide +kernel⟩,
   ⟨pd 2 1 7 (r .run), 7, (.run, 7, True, .ready), by and_intros <;> first | decide +kernel | exact by simp [State.wayOut] ⟩,
   ⟨pd 1 2 7 (runs (on .shadow) 1234567), 7, by decide +kernel⟩,
   ⟨pd 1 2 7 (ch (r .precharge)), 7, by decide +kernel⟩,
   ⟨pd 1 2 8 (sg (r .ready)), 8, by decide +kernel⟩,
   ⟨pd 1 2 8 (r .ready), 8, by decide +kernel⟩⟩

end Ticks

namespace Periods

def base (m : Mode) : State := sets (mapped (on m)) [(F.GLB_PERIOD_period_steps, 4000), (F.GLB_GATHER_DEADLINE_deadline_steps, 800), (F.GLB_ORDER_OFFSET_order_offset_steps, 2000), (F.LPHY_STAT_state 0, laneUp), (F.LPHY_STAT_block_lock 0, 1), (F.NCL_LSTAT_disc_step 0, 5)]
/-- period 10 of 20 us running, at offset o ns -/
def per (o : Nat) (s : State) : State := { s with now := { ns := s.boundary 10 + o, frac := 7 }, seq := { s.seq with running := true, started := true, next := 11 } }
def sqq (f : Seq → Seq) (s : State) : State := {s with seq := f s.seq}
def r := per 3 (base .run)
def stp := sqq (fun q => {q with stopPend := true}) r
def pl (s : State) : State := (sqq (fun q => {q with gatherDone := true}) s).modArm 0 (fun a => {a with planned := true})
def slot (tag : List Byte) (time j v : Nat) : W64 := BitVec.ofNat 64 (v + slotCrc tag time v j * 2^56)
def tag (n l c : Nat) : List Byte := leBytes 1 0x13 ++ leBytes 1 0 ++ leBytes 2 n ++ leBytes 1 l ++ leBytes 1 c ++ leBytes 1 0
def fr (n l : Nat) (vs : List Nat) : RxFrame :=
  let tg := tag n l vs.length
  let slots := vs.zipIdx.map (fun (v, j) => slot tg 999 j v)
  let bale := List.replicate 64 (5 : Byte)
  { tag := tg, time := 999, slots := slots, bale := bale, crc := BitVec.ofNat 32 (frameCrc tg 999 (slots.map BitVec.toNat) bale), badBlocks := 0, rx := 0 }
def good := fr 10 0 [0xA5_0F0_1234, 0x11_000_0001 , 0x12_FE0_7777, 0xFF_FFF_1FFFF]
def two (s : State) := sets s [(F.GLB_LANE_MAP_topology 1, 1), (F.GLB_LANE_MAP_count 1, 2), (F.GLB_LANE_MAP_split 1, 2), (F.LPHY_STAT_state 1, laneUp), (F.LPHY_STAT_block_lock 1, 1), (F.NCL_LSTAT_disc_step 1, 5)]
def T (s : State) (o : Nat) : Nat := s.boundary 10 + o
def spl (k : Nat) (s : State) := sets (two s) [(F.GLB_LANE_MAP_topology 0, k),(F.GLB_LANE_MAP_split 0, 2), (F.GLB_LANE_MAP_topology 1, k), (F.GLB_LANE_MAP_split 1, 1), (F.NCL_LSTAT_path_mode 0, 3), (F.NCL_LSTAT_path_mode 1, 3)]
theorem laneAwaited_lt {s : State} {l : Nat} (h : s.laneAwaited l = true) : l < 48 := by
  simp only [State.laneAwaited, State.laneInUse, Bool.and_eq_true, decide_eq_true_eq] at h; exact h.1.1.1


theorem witness_PeriodAndGather :
    (∃ (s : State), s.live = true ∧ (s.seq.running = true ∨ s.seq.startPend = true) ∧ s.seq.stopPend = false ∧ s.paired = false ∧ s.ctl.request = none ∧ s.pair.request = none ∧ s.hif.mboxGo = none ∧ s.tim.late = [])
    ∧ (∃ (s : State), s.live = true ∧ s.seq.running = true ∧ s.seq.stopPend = true ∧ s.ctl.request = none ∧ s.pair.request = none ∧ s.Alone ∧ s.tim.late = [])
    ∧ (∃ (s : State) (l : Nat), s.inPeriod = true ∧ s.seq.launched = false ∧ s.laneSends l = true)
    ∧ (∃ (s : State) (l : Nat), s.inPeriod = true ∧ s.seq.launched = false ∧ s.laneSends l = false ∧ (s.lane l).tx.due = [])
    ∧ (∃ (s : State), s.seq.launched = true)
    ∧ (∃ (s : State), s.inPeriod = true ∧ s.seq.timed = true)
    ∧ (∃ (s : State) (l : Nat), s.inPeriod = true ∧ s.seq.timed = false ∧ (s.lane l).tx.due = [] ∧ s.laneInUse l = true ∧ s.laneCoded l = true ∧ (s.lane l).tx.free ≤ s.cyc ∧ s.now.ns < s.pN + 60 ∧ (s.advanceTo (s.pN + 20)).now.ns < s.pN + 60)
    ∧ (∃ (s : State) (l : Nat), s.inPeriod = true ∧ s.seq.timed = false ∧ (s.lane l).tx.due = [] ∧ (s.laneInUse l = false ∨ s.laneCoded l = false))
    ∧ (∃ (s : State), s.planReady = true ∧ s.hif.mboxGo = none)
    ∧ (∃ (s : State), s.planReady = false)
    ∧ (∃ (s : State) (a : Nat), s.inPeriod = true ∧ s.seq.ordered = false ∧ s.hif.mboxGo = none ∧ a ∈ s.enabledArms ∧ (s.arm a).req = none)
    ∧ (∃ (s : State), s.inPeriod = true ∧ s.seq.ordered = false ∧ s.hif.mboxGo = none ∧ s.seq.planComplete = false)
    ∧ (∃ (s : State), s.inPeriod = true ∧ s.seq.ordered = false ∧ s.hif.mboxGo = none ∧ s.seq.planComplete = true)
    ∧ (∃ (s : State), s.inPeriod = true ∧ s.seq.ordered = true)
    ∧ (∃ (s : State) (l : Fin 48) (rx : Fin 48) (f : RxFrame), s.inPeriod = true ∧ s.laneAwaited l = true ∧ s.gatherRx l rx = true ∧ s.rxDelivers rx = true ∧ gatherWhole f (s.laneCount l) = false ∧ s.Settled ∧ s.laneSplit l = true ∧ s.laneAwaited (partnerLane l) = true ∧ rx = l ∧ (s.lane l).gatherOk = false ∧ (s.lane l).gatherOwn = false ∧ (s.lane l).failOwn = false ∧ (s.lane l).gatherOther = true)
    ∧ (∃ (s : State) (l : Fin 48) (rx : Fin 48) (f : RxFrame), s.inPeriod = true ∧ s.laneAwaited l = true ∧ s.gatherRx l rx = true ∧ s.rxDelivers rx = true ∧ gatherWhole f (s.laneCount l) = false ∧ (s.lane l).copyGood = false ∧ s.Settled)
    ∧ (∃ (s : State) (l : Fin 48) (rx : Fin 48) (f : RxFrame) (at_ : Nat), s.inPeriod = true ∧ s.laneAwaited l = true ∧ s.gatherRx l rx = true ∧ s.rxDelivers rx = true ∧ gatherWhole f (s.laneCount l) = true ∧ s.gatherMine l f = true ∧ (s.lane l).gatherOk = false ∧ (s.lane l).gatherLate = false ∧ (s.lane l).gatherOwn = false ∧ (s.lane l).gatherOther = false ∧ (s.lane l).failOwn = false ∧ (s.lane l).failOther = false ∧ s.pN + s.f F.GLB_GATHER_DEADLINE_deadline_steps * 5 < at_)
    ∧ (∃ (s : State) (l : Fin 48) (rx : Fin 48) (f : RxFrame) (at_ : Nat), s.inPeriod = true ∧ s.laneAwaited l = true ∧ s.gatherRx l rx = true ∧ s.rxDelivers rx = true ∧ gatherWhole f (s.laneCount l) = true ∧ s.gatherMine l f = true ∧ (s.lane l).gatherOk = false ∧ (s.lane l).gatherLate = false ∧ (s.lane l).gatherOwn = false ∧ (s.lane l).gatherOther = false ∧ (s.lane l).failOwn = false ∧ (s.lane l).failOther = false ∧ at_ ≤ s.pN + s.f F.GLB_GATHER_DEADLINE_deadline_steps * 5 ∧ s.mode ≠ .diagnostic ∧ s.Settled ∧ s.laneSplit l = true ∧ rx = l)
    ∧ (∃ (s : State) (l : Fin 48) (rx : Fin 48) (f : RxFrame) (at_ : Nat), s.inPeriod = true ∧ s.laneAwaited l = true ∧ s.gatherRx l rx = true ∧ s.rxDelivers rx = true ∧ gatherWhole f (s.laneCount l) = true ∧ s.gatherMine l f = true ∧ (s.lane l).gatherOk = false ∧ (s.lane l).gatherLate = false ∧ (s.lane l).gatherOwn = false ∧ (s.lane l).gatherOther = false ∧ (s.lane l).failOwn = false ∧ (s.lane l).failOther = false ∧ at_ ≤ s.pN + s.f F.GLB_GATHER_DEADLINE_deadline_steps * 5 ∧ s.mode ≠ .diagnostic ∧ s.Settled ∧ s.laneSplit l = true ∧ rx ≠ l)
    ∧ (∃ (s : State) (l : Fin 48) (rx : Fin 48) (f : RxFrame) (at_ : Nat), s.inPeriod = true ∧ s.laneAwaited l = true ∧ s.gatherRx l rx = true ∧ s.rxDelivers rx = true ∧ gatherWhole f (s.laneCount l) = true ∧ s.gatherMine l f = true ∧ (s.lane l).gatherOk = false ∧ (s.lane l).gatherLate = false ∧ (s.lane l).gatherOwn = false ∧ (s.lane l).gatherOther = false ∧ (s.lane l).failOwn = false ∧ (s.lane l).failOther = false ∧ at_ ≤ s.pN + s.f F.GLB_GATHER_DEADLINE_deadline_steps * 5 ∧ s.mode ≠ .diagnostic ∧ s.Settled ∧ s.laneSplit l = false ∧ s.seq.gatherDone = false ∧ (∀ k, s.laneAwaited k = true → k = l.val ∨ (s.lane k).gatherOk = true))
    ∧ (∃ (s : State) (l : Fin 48) (rx : Fin 48), s.inPeriod = true ∧ (s.laneAwaited l = false ∨ s.gatherRx l rx = false ∨ s.rxDelivers rx = false))
    ∧ (∃ (s : State) (l : Fin 48), s.inPeriod = true ∧ s.seq.deadlinePassed = false ∧ s.laneAwaited l = true ∧ (s.lane l).gatherOk = false ∧ (s.lane l).gatherLate = false)
    ∧ (∃ (s : State) (l : Fin 48), s.inPeriod = true ∧ s.seq.deadlinePassed = false ∧ s.laneAwaited l = true ∧ (s.lane l).gatherOk = false ∧ (s.lane l).copyGood = true ∧ s.laneCount l ≠ 0 ∧ bitOf (s.grnNat (s.headerAddr s.periodFull + 16) 8) l = false)
    ∧ (∃ (s : State), s.inPeriod = true ∧ s.seq.deadlinePassed = true) :=
  ⟨⟨r, by decide +kernel⟩,
   ⟨stp, by decide +kernel⟩,
   ⟨r, 0, by decide +kernel⟩,
   ⟨per 3 (base .shadow), 47, by decide +kernel⟩,
   ⟨sqq (fun q => { q with launched := true }) r, by decide +kernel⟩,
   ⟨sqq (fun q => { q with timed := true }) r, by decide +kernel⟩,
   ⟨r, 0, by decide +kernel⟩,
   ⟨per 3 (base .shadow), 47, by decide +kernel⟩,
   ⟨pl r, by decide +kernel⟩,
   ⟨r, by decide +kernel⟩,
   ⟨r, 0, by decide +kernel⟩,
   ⟨r, by decide +kernel⟩,
   ⟨sqq (fun q => { q with planComplete := true }) r, by decide +kernel⟩,
   ⟨sqq (fun q => { q with ordered := true }) r, by decide +kernel⟩,
   ⟨(spl 2 r).modLane 0 fun x => { x with gatherOther := true }, 0, 0, { good with crc := 5 }, by decide +kernel⟩,
   ⟨spl 2 r, 0, 0, fr 10 0 [1, 2, 3, 4, 5, 6], by decide +kernel⟩,
   ⟨r, 0, 0, good, T r 4001, by decide +kernel⟩,
   ⟨spl 2 r, 0, 0, fr 10 0 [1, 2, 3, 4], T r 3000, by decide +kernel⟩,
   ⟨spl 2 r, 0, 1, good, T r 3000, by decide +kernel⟩,
   ⟨per 30 (base .safeBlock), 0, 0, good, T r 1000, by and_intros <;> first | decide +kernel | exact fun k hk => (show ∀ k < 48, (per 30 (base .safeBlock)).laneAwaited k = true → k = 0 ∨ ((per 30 (base .safeBlock)).lane k).gatherOk = true by decide +kernel) k (laneAwaited_lt hk) hk ⟩,
   ⟨r, 0, 2, by decide +kernel⟩,
   ⟨(spl 2 r).modLane 0 fun x => { x with gatherOther := true }, 0, by decide +kernel⟩,
   ⟨(spl 2 r).modLane 0 fun x => { x with gatherOther := true }, 0, by decide +kernel⟩,
   ⟨sqq (fun q => { q with gatherDone := true, deadlinePassed := true }) r, by decide +kernel⟩⟩

end Periods

namespace Lanes

/-- lanes 0 ring of 4, lanes 2,3 chain of 4+0, lane 5 ring -/
def base (m : Mode) : State := sets (mapped (on m)) [(F.GLB_LANE_MAP_topology 2, 2), (F.GLB_LANE_MAP_topology 3, 2), (F.GLB_LANE_MAP_count 2, 64), (F.GLB_LANE_MAP_count 3, 2), (F.GLB_LANE_MAP_topology 47, 1), (F.GLB_LANE_MAP_count 47, 3)]
def att (l : Nat) (s : State) : State := (sets s [(F.LPHY_STAT_state l, 2), (F.LPHY_STAT_block_lock l, 1), (F.LPHY_STAT_attempts l, 1)]).modLane l (fun x => {x with attempt := true})
def attk (l k : Nat) (s : State) : State := (att l s).setF (F.LPHY_STAT_attempts l) k
def upl (l : Nat) (s : State) : State := sets s [(F.LPHY_STAT_state l, 3), (F.LPHY_STAT_block_lock l, 1)]
def hello (s : State) (l hops : Nat) : RxSet := { payload := BitVec.ofNat 40 ((s.helloPayload l) / 2^8 * 2^8 + hops), crc := BitVec.ofNat 8 (setCrc 4 ((s.helloPayload l) / 2^8 * 2^8 + hops)) }
def b := base .muster
def hz (n : Nat) (code : Nat := 4) : RxSet := {payload := BitVec.ofNat 40 n, crc := BitVec.ofNat 8 (setCrc code (n % 2^40))}
def norefA (s : State) : State := {s with pwr := {s.pwr with lrefA := false}}
def d1 (l n : Nat) (s : State) : State := ((upl l s).setF (F.NCL_LSTAT_disc_step l) 1).modLane l (fun x => {x with echoOut := true, echoAt := 100, echoN := n, echoD := n * 1000000, echoR := n * 5})
def s4 := (upl 0 b).setF (F.NCL_LSTAT_disc_step 0) 4
def ch := (base .run).setF (F.NCL_LSTAT_path_mode 2) 2
def hold (s : State) : State := sets s [(F.RED_CFG_pair_en, 1), (F.RED_STAT_drive, 2), (F.RED_CFG_yield_lane, 1), (F.RED_STAT_partner_in_step, 1)]
def hold' (s : State) : State := {hold s with pair := {s.pair with status := List.replicate 20 (2^48-1)}}
def per (o : Nat) (s : State) : State := { s with now := { ns := s.boundary 10 + o, frac := 7 }, seq := { s.seq with running := true, started := true, next := 11, gatherDone := true } }

theorem witness_LaneTraining :
    (∃ (s : State) (l : Fin 50), s.helloDue l = true ∧ s.laneCoded l = true ∧ (s.lane l).tx.due = [])
    ∧ (∃ (s : State) (l : Fin 50), (s.lane l).attempt = true ∧ (48 ≤ l.val ∨ s.mode = .muster) ∧ (s.lane l).helloNext < (s.lane l).attemptAt + 1250000)
    ∧ (∃ (s : State) (l : Fin 50), s.helloDue l = false)
    ∧ (∃ (s : State) (l : Fin 50) (x : Fin 48) (h : RxSet), l.val < 48 ∧ s.mode = .muster ∧ setWhole 4 h = true ∧ s.rxDelivers l = true ∧ bitsOf h.payload.toNat 13 8 = x ∧ (x.val = l.val ∨ s.isChain x = true ∧ partnerLane x = l.val) ∧ s.laneInUse x = true ∧ (s.lane x).attempt = true ∧ (s.lane x).markerFail = false ∧ bitsOf h.payload.toNat 16 14 = bitsOf (s.helloPayload x) 16 14 ∧ bitsOf h.payload.toNat 25 25 = s.f F.NCL_GCFG_side ∧ bitsOf h.payload.toNat 7 0 < 128)
    ∧ (∃ (s : State) (l : Fin 50) (h : RxSet), (setWhole 4 h = false ∨ s.rxDelivers l = false))
    ∧ (∃ (s : State) (l : Fin 50) (h : RxSet), 48 ≤ l.val ∧ setWhole 4 h = true ∧ s.rxDelivers l = true ∧ (bitsOf h.payload.toNat 13 8 = 48 ∨ bitsOf h.payload.toNat 13 8 = 49) ∧ bitsOf h.payload.toNat 16 14 = 0 ∧ bitsOf h.payload.toNat 7 0 = 1 ∧ s.laneState l = 2)
    ∧ (∃ (s : State) (l : Fin 50), (s.lane l).attempt = true ∧ s.trains l = true ∧ s.f (F.LPHY_STAT_attempts l) ≠ s.f F.LPHY_TRAIN_CFG_hello_attempts)
    ∧ (∃ (s : State) (l : Fin 50), (s.lane l).attempt = true ∧ s.trains l = true ∧ s.f (F.LPHY_STAT_attempts l) = s.f F.LPHY_TRAIN_CFG_hello_attempts ∧ (s.lane l).deadSaid = false ∧ l.val < 48)
    ∧ (∃ (s : State) (l : Fin 50), (s.lane l).attempt = true ∧ s.trains l = true ∧ s.f (F.LPHY_STAT_attempts l) = s.f F.LPHY_TRAIN_CFG_hello_attempts ∧ (s.lane l).deadSaid = false ∧ 48 ≤ l.val)
    ∧ (∃ (s : State) (l : Fin 50), (s.lane l).backoff = true ∧ s.trains l = true)
    ∧ (∃ (s : State) (l : Fin 50), (s.lane l).backoff = false)
    ∧ (∃ (s : State), (s.pwr.rails = false ∨ s.pwr.lanesPowered = false))
    ∧ (∃ (s : State) (l : Fin 50), s.pwr.rails = true ∧ s.pwr.lanesPowered = true ∧ s.laneCoded l = true ∧ s.laneState l ≤ 1)
    ∧ (∃ (s : State) (l : Fin 50), s.pwr.rails = true ∧ s.pwr.lanesPowered = true ∧ 1 < s.laneState l) :=
  ⟨⟨att 0 b, 0, by decide +kernel⟩,
   ⟨att 0 b, 0, by decide +kernel⟩,
   ⟨{ b with pwr := { b.pwr with rails := false } }, 0, by decide +kernel⟩,
   ⟨att 0 b, 0, 0, hello b 0 4, by decide +kernel⟩,
   ⟨{ b with pwr := { b.pwr with rails := false } }, 0, hz 0, by decide +kernel⟩,
   ⟨att 48 b, 48, hz (48 * 256 + 1), by decide +kernel⟩,
   ⟨att 0 b, 0, by decide +kernel⟩,
   ⟨attk 0 8 b, 0, by decide +kernel⟩,
   ⟨attk 48 8 b, 48, by decide +kernel⟩,
   ⟨State.modLane b 7 fun x => { x with backoff := true }, 7, by decide +kernel⟩,
   ⟨{ b with pwr := { b.pwr with rails := false } }, 0, by decide +kernel⟩,
   ⟨{ b with pwr := { b.pwr with rails := false } }, by decide +kernel⟩,
   ⟨State.modLane b 7 fun x => { x with backoff := true }, 7, by decide +kernel⟩,
   ⟨att 0 b, 0, by decide +kernel⟩⟩

theorem witness_EchoAndDiscovery :
    (∃ (s : State) (l : Fin 48), s.laneState l = 3 ∧ s.f (F.NCL_LSTAT_disc_step l) = 1 ∧ (s.lane l).echoN < 15 ∧ (s.lane l).echoOut = true ∧ s.rxDelivers (s.rxLane l) = true)
    ∧ (∃ (s : State) (l : Fin 48), s.laneState l = 3 ∧ s.f (F.NCL_LSTAT_disc_step l) = 1 ∧ (s.lane l).echoN = 15 ∧ (s.lane l).echoD ≤ 15 * (2 ^ 20 - 1) ∧ (s.lane l).echoOut = true ∧ s.rxDelivers (s.rxLane l) = true ∧ s.isChain l = false)
    ∧ (∃ (s : State) (l : Fin 48), (s.laneState l ≠ 3 ∨ s.f (F.NCL_LSTAT_disc_step l) ≠ 1 ∨ 16 ≤ (s.lane l).echoN ∨ s.rxDelivers (s.rxLane l) = false))
    ∧ (∃ (s : State) (l : Fin 48) (c : Nat), s.mode = .muster ∧ s.f (F.NCL_LSTAT_disc_step l) = 4 ∧ c ∈ s.laneCells l ∧ (s.cell c).found = false)
    ∧ (∃ (s : State) (l : Fin 48) (c : Nat), s.mode = .muster ∧ s.f (F.NCL_LSTAT_disc_step l) = 4 ∧ c ∈ s.laneCells l ∧ (s.cell c).found = true ∧ (s.cell c).record = none ∧ (s.cell c).incompatSeen = false)
    ∧ (∃ (s : State) (l : Fin 48), (s.mode ≠ .muster ∨ s.f (F.NCL_LSTAT_disc_step l) ≠ 4))
    ∧ (∃ (s : State) (k : Fin 24) (x : _), x ∈ [2 * k.val, 2 * k.val + 1] ∧ s.isChain x = true ∧ s.f (F.NCL_LSTAT_path_mode x) = 2 ∧ (s.lane x).splitIn = 0 ∧ s.rxDelivers x = true)
    ∧ (∃ (s : State) (k : Fin 24), (∀ x ∈ [2 * k.val, 2 * k.val + 1], s.isChain x = false ∨ (s.lane x).splitIn ≠ 0 ∨ s.rxDelivers x = false)) :=
  ⟨⟨d1 0 0 b, 0, by decide +kernel⟩,
   ⟨d1 0 15 b, 0, by decide +kernel⟩,
   ⟨upl 2 (sets ch [(F.LPHY_STAT_rx_signal 2, 1)]), 0, by decide +kernel⟩,
   ⟨s4, 0, 3, by decide +kernel⟩,
   ⟨s4, 0, 0, by decide +kernel⟩,
   ⟨upl 2 (sets ch [(F.LPHY_STAT_rx_signal 2, 1)]), 0, by decide +kernel⟩,
   ⟨upl 2 (sets ch [(F.LPHY_STAT_rx_signal 2, 1)]), 1, 2, by decide +kernel⟩,
   ⟨d1 0 0 b, 0, by decide +kernel⟩⟩

theorem witness_LocksMarkersAndLostLanes :
    (∃ (s : State) (l : Fin 50) (n : Nat), (s.inPeriod = true → s.seq.gatherDone = true) ∧ s.Settled ∧ s.laneClock l = true ∧ s.fb (F.LPHY_STAT_block_lock l) = false ∧ 64 ≤ n)
    ∧ (∃ (s : State) (l : Fin 50) (n : Nat), (s.inPeriod = true → s.seq.gatherDone = true) ∧ s.Settled ∧ (s.laneClock l = false ∨ n < 64))
    ∧ (∃ (s : State) (x : Fin 48) (n : Nat), (s.inPeriod = true → s.seq.gatherDone = true) ∧ s.Settled ∧ s.fb (F.LPHY_STAT_block_lock x) = true ∧ s.fb (F.LPHY_STAT_rx_signal x) = true ∧ s.laneState x = 3 ∧ 16 ≤ n ∧ s.mode = .muster)
    ∧ (∃ (s : State) (x : Fin 48) (n : Nat), (s.inPeriod = true → s.seq.gatherDone = true) ∧ s.Settled ∧ s.fb (F.LPHY_STAT_block_lock x) = true ∧ s.fb (F.LPHY_STAT_rx_signal x) = true ∧ s.laneState x = 3 ∧ 16 ≤ n ∧ s.mode.laneDownMode = true ∧ s.isChain x = false)
    ∧ (∃ (s : State) (x : Fin 48) (n : Nat), (s.inPeriod = true → s.seq.gatherDone = true) ∧ s.Settled ∧ s.fb (F.LPHY_STAT_block_lock x) = true ∧ s.fb (F.LPHY_STAT_rx_signal x) = true ∧ s.laneState x = 3 ∧ 16 ≤ n ∧ s.mode.laneDownMode = true ∧ s.isChain x = true)
    ∧ (∃ (s : State) (x : Fin 48) (n : Nat), (s.inPeriod = true → s.seq.gatherDone = true) ∧ s.Settled ∧ s.fb (F.LPHY_STAT_block_lock x) = true ∧ 16 ≤ n)
    ∧ (∃ (s : State) (l : Fin 50) (sig : Bool), (s.inPeriod = true → s.seq.gatherDone = true) ∧ s.Settled ∧ s.fb (F.LPHY_STAT_block_lock l) = false ∧ s.up = true ∧ s.fb (F.LPHY_STAT_rx_signal l) = sig)
    ∧ (∃ (s : State) (l : Fin 50) (n : Nat), (s.inPeriod = true → s.seq.gatherDone = true) ∧ s.Settled ∧ s.fb (F.LPHY_STAT_block_lock l) = true ∧ n < 16)
    ∧ (∃ (s : State) (x : Fin 48), (s.inPeriod = true → s.seq.gatherDone = true) ∧ s.Settled ∧ (s.lane x).relock = true ∧ s.fb (F.LPHY_STAT_block_lock x) = false ∧ s.laneState x = 3)
    ∧ (∃ (s : State) (x : Fin 48), (s.inPeriod = true → s.seq.gatherDone = true) ∧ s.Settled ∧ (s.lane x).relock = false)
    ∧ (∃ (s : State) (x : Fin 48) (k : Fin 64) (y : RxSet), (s.inPeriod = true → s.seq.gatherDone = true) ∧ s.Settled ∧ setWhole 5 y = true ∧ s.rxDelivers x = true ∧ bitsOf y.payload.toNat 5 0 = k ∧ s.laneInUse x = true ∧ k.val ≠ x.val ∧ (s.isChain x = true → k.val ≠ partnerLane x) ∧ s.mode.laneDownMode = true ∧ s.laneState x = 3)
    ∧ (∃ (s : State) (x : Fin 48) (k : Fin 64) (y : RxSet), (s.inPeriod = true → s.seq.gatherDone = true) ∧ s.Settled ∧ setWhole 5 y = true ∧ s.rxDelivers x = true ∧ bitsOf y.payload.toNat 5 0 = k ∧ s.laneInUse x = true ∧ k.val ≠ x.val ∧ (s.isChain x = true → k.val ≠ partnerLane x) ∧ s.mode.laneDownMode = false)
    ∧ (∃ (s : State) (x : Fin 48) (y : RxSet), (s.inPeriod = true → s.seq.gatherDone = true) ∧ s.Settled ∧ (setWhole 5 y = false ∨ s.rxDelivers x = false ∨ bitsOf y.payload.toNat 5 0 = x))
    ∧ (∃ (s : State) (x : Fin 48), (s.inPeriod = true → s.seq.gatherDone = true) ∧ s.Settled ∧ s.laneInUse x = true ∧ 2 ≤ s.laneState x ∧ s.laneState x ≤ 5 ∧ s.laneCoded x = true ∧ (s.lane x).tx.due = [])
    ∧ (∃ (s : State) (l : Fin 50) (inF : Bool) (fill : Fin 5), (s.inPeriod = true → s.seq.gatherDone = true) ∧ s.Settled ∧ s.fb (F.LPHY_STAT_block_lock l) = true ∧ inF = false ∧ 3 ≤ fill.val)
    ∧ (∃ (s : State) (l : Fin 50) (inF : Bool) (fill : Fin 5), (s.inPeriod = true → s.seq.gatherDone = true) ∧ s.Settled ∧ s.fb (F.LPHY_STAT_block_lock l) = true ∧ inF = false ∧ fill.val ≤ 1)
    ∧ (∃ (s : State) (l : Fin 50) (inF : Bool) (fill : Fin 5) (i : _), (s.inPeriod = true → s.seq.gatherDone = true) ∧ s.Settled ∧ inF = true ∧ i ∈ [Instr.idleDelete ⟨l, fill, inF⟩, .idleInsert ⟨l, fill, inF⟩])
    ∧ (∃ (s : State) (x : Fin 48), (s.inPeriod = true → s.seq.gatherDone = true) ∧ s.Settled ∧ s.awake = true ∧ s.mode = .safeBlock ∧ s.f F.SAF_LATCH_in_latch = 0 ∧ s.laneCoded x = true)
    ∧ (∃ (s : State) (x : Fin 48), (s.inPeriod = true → s.seq.gatherDone = true) ∧ s.Settled ∧ s.awake = true ∧ s.mode = .safeBlock ∧ s.f F.SAF_LATCH_in_latch = 0 ∧ s.laneCoded x = false)
    ∧ (∃ (s : State), (s.inPeriod = true → s.seq.gatherDone = true) ∧ s.Settled ∧ s.blockTx = false) :=
  ⟨⟨upl 0 b, 1, 70000, by decide +kernel⟩,
   ⟨upl 0 b, 0, 0, by decide +kernel⟩,
   ⟨sets (upl 0 (base .muster)) [(F.LPHY_STAT_rx_signal 0, 1)], 0, 65, by decide +kernel⟩,
   ⟨sets (upl 0 (base .run)) [(F.LPHY_STAT_rx_signal 0, 1)], 0, 17, by decide +kernel⟩,
   ⟨sets (upl 2 (base .run)) [(F.LPHY_STAT_rx_signal 2, 1)], 2, 17, by decide +kernel⟩,
   ⟨upl 0 b, 0, 70000, by decide +kernel⟩,
   ⟨upl 0 b, 1, false, by decide +kernel⟩,
   ⟨upl 0 b, 0, 0, by decide +kernel⟩,
   ⟨hold' ((State.setF (upl 3 (base .run)) (F.LPHY_STAT_block_lock 3) 0).modLane 3 fun x => { x with relock := true }), 3, by decide +kernel⟩,
   ⟨upl 0 b, 0, by decide +kernel⟩,
   ⟨per 55 (upl 0 (base .run)), 0, 63, hz (63 + 7 * 256) 5, by decide +kernel⟩,
   ⟨upl 0 b, 0, 3, hz (3 + 7 * 256) 5, by decide +kernel⟩,
   ⟨upl 0 b, 0, hz (0 + 7 * 256) 5, by decide +kernel⟩,
   ⟨upl 0 b, 0, by decide +kernel⟩,
   ⟨hold' (per 5 (upl 0 (base .run))), 0, false, 3, by decide +kernel⟩,
   ⟨upl 47 (base .safeBlock), 47, false, 1, by decide +kernel⟩,
   ⟨upl 0 b, 0, true, 1, .idleDelete ⟨0, 1, true⟩, by decide +kernel⟩,
   ⟨upl 47 (base .safeBlock), 47, by decide +kernel⟩,
   ⟨norefA (upl 0 (base .safeBlock)), 0, by decide +kernel⟩,
   ⟨upl 0 b, by decide +kernel⟩⟩

end Lanes

namespace Bond

def hz (n : Nat) (code : Nat := 3) : RxSet := {payload := BitVec.ofNat 40 n, crc := BitVec.ofNat 8 (setCrc code (n % 2^40))}
def upl (l : Nat) (s : State) : State := sets s [(F.LPHY_STAT_state l, 3), (F.LPHY_STAT_block_lock l, 1)]
def p := (sets (upl 48 (upl 49 (on .run))) [(F.RED_CFG_pair_en, 1)]).modLane 48 (fun x => {x with mcount := 2^24 - 1, trainedOnce := true})
def bd (k : Int) := sets p [(F.LPHY_MIR_STAT_bonded, 1), (F.LPHY_MIR_STAT_skew, twos 8 k)]
def dg (l m : Nat) (s : State) := sets s [(F.LPHY_DIAG_diag_mode l, m)]
def fm (l : Nat) (o : Int) (c : Int) (s : State) : State := (sets (upl l s) [(F.LPHY_FOM_off_now l, twos 6 o)]).modLane l (fun x => {x with centreOff := c})
def ck (k : Nat) : State := sets (dg 3 1 (on .diagnostic)) [(F.LPHY_DIAG_chk_en 3, 1), (F.LPHY_DIAG_pat_sel 3, k)]
/-- PRBS7, x^7 + x^6 + 1 -/
def pat0 : List Bool := ((List.range 64).foldl (fun (l : List Bool) _ => (l.getD 6 false != l.getD 5 false) :: l) [true,false,true,true,false,false,true]).reverse
def lk (s : State) : State := (s.setF (F.LPHY_STAT_chk_lock 3) 1).modLane 3 (fun x => { x with chk := { x.chk with bits := [true,false,true,true,false,false,true] } })

theorem witness_MirrorBond :
    (∃ (s : State), s.paired = true ∧ s.laneCoded 48 = true ∧ s.laneCoded 49 = true ∧ (s.lane 48).tx.frame = none ∧ (s.lane 49).tx.frame = none)
    ∧ (∃ (s : State), s.paired = false)
    ∧ (∃ (s : State) (x : RxSet) (y : RxSet) (k : Int), (setWhole 5 x = true ∧ setWhole 5 y = true ∧ bitsOf x.payload.toNat 31 8 = bitsOf y.payload.toNat 31 8 ∧ s.rxDelivers 48 = true ∧ s.rxDelivers 49 = true) ∧ ((bitsOf x.payload.toNat 5 0) = 48 ∧ (bitsOf y.payload.toNat 5 0) = 49 ∨ (bitsOf x.payload.toNat 5 0) = 49 ∧ (bitsOf y.payload.toNat 5 0) = 48) ∧ s.fb F.LPHY_MIR_STAT_bonded = false ∧ k.natAbs ≤ 64)
    ∧ (∃ (s : State) (x : RxSet) (y : RxSet) (k : Int), (setWhole 5 x = true ∧ setWhole 5 y = true ∧ bitsOf x.payload.toNat 31 8 = bitsOf y.payload.toNat 31 8 ∧ s.rxDelivers 48 = true ∧ s.rxDelivers 49 = true) ∧ ((bitsOf x.payload.toNat 5 0) = 48 ∧ (bitsOf y.payload.toNat 5 0) = 49 ∨ (bitsOf x.payload.toNat 5 0) = 49 ∧ (bitsOf y.payload.toNat 5 0) = 48) ∧ s.fb F.LPHY_MIR_STAT_bonded = false ∧ 64 < k.natAbs)
    ∧ (∃ (s : State) (x : RxSet) (y : RxSet) (k : Int), (setWhole 5 x = true ∧ setWhole 5 y = true ∧ bitsOf x.payload.toNat 31 8 = bitsOf y.payload.toNat 31 8 ∧ s.rxDelivers 48 = true ∧ s.rxDelivers 49 = true) ∧ ((bitsOf x.payload.toNat 5 0) = 48 ∧ (bitsOf y.payload.toNat 5 0) = 49 ∨ (bitsOf x.payload.toNat 5 0) = 49 ∧ (bitsOf y.payload.toNat 5 0) = 48) ∧ s.fb F.LPHY_MIR_STAT_bonded = true ∧ (k - sx 8 (s.f F.LPHY_MIR_STAT_skew)).natAbs ≤ 4 ∧ k.natAbs ≤ 64)
    ∧ (∃ (s : State) (x : RxSet) (y : RxSet) (k : Int), (setWhole 5 x = true ∧ setWhole 5 y = true ∧ bitsOf x.payload.toNat 31 8 = bitsOf y.payload.toNat 31 8 ∧ s.rxDelivers 48 = true ∧ s.rxDelivers 49 = true) ∧ ((bitsOf x.payload.toNat 5 0) = 48 ∧ (bitsOf y.payload.toNat 5 0) = 49 ∨ (bitsOf x.payload.toNat 5 0) = 49 ∧ (bitsOf y.payload.toNat 5 0) = 48) ∧ s.fb F.LPHY_MIR_STAT_bonded = true ∧ 4 < (k - sx 8 (s.f F.LPHY_MIR_STAT_skew)).natAbs ∧ k.natAbs ≤ 64)
    ∧ (∃ (s : State) (x : RxSet) (y : RxSet), (setWhole 5 x = true ∧ setWhole 5 y = true ∧ bitsOf x.payload.toNat 31 8 = bitsOf y.payload.toNat 31 8 ∧ s.rxDelivers 48 = true ∧ s.rxDelivers 49 = true) ∧ (bitsOf x.payload.toNat 5 0) = 48 ∧ (bitsOf y.payload.toNat 5 0) ≠ 49)
    ∧ (∃ (s : State) (x : RxSet) (y : RxSet), (setWhole 5 x = true ∧ setWhole 5 y = true ∧ bitsOf x.payload.toNat 31 8 = bitsOf y.payload.toNat 31 8 ∧ s.rxDelivers 48 = true ∧ s.rxDelivers 49 = true) ∧ (bitsOf y.payload.toNat 5 0) = 49 ∧ (bitsOf x.payload.toNat 5 0) ≠ 48)
    ∧ (∃ (s : State) (x : RxSet) (y : RxSet), (s.setTaken 48 5 x = false ∨ s.setTaken 49 5 y = false ∨ bitsOf x.payload.toNat 31 8 ≠ bitsOf y.payload.toNat 31 8))
    ∧ (∃ (s : State), s.fb F.LPHY_MIR_STAT_bonded = true)
    ∧ (∃ (s : State), s.fb F.LPHY_MIR_STAT_bonded = false)
    ∧ (∃ (s : State) (h : RxSet) (l : Fin 50), 48 ≤ l.val ∧ s.live = true ∧ s.rxDelivers l = true ∧ setWhole 3 h = true ∧ h.payload.toNat % 16 = 4)
    ∧ (∃ (s : State) (h : RxSet) (l : Fin 50), (setWhole 3 h = false ∨ h.payload.toNat % 16 ≠ 4 ∨ s.rxDelivers l = false)) :=
  ⟨⟨p, by decide +kernel⟩,
   ⟨on .run, by decide +kernel⟩,
   ⟨p, hz ((48, 49).1 + 256 * 7) 5, hz ((48, 49).2 + 256 * 7) 5, -64, by decide +kernel⟩,
   ⟨p, hz ((48, 49).1 + 256 * 7) 5, hz ((48, 49).2 + 256 * 7) 5, -70, by decide +kernel⟩,
   ⟨bd 0, hz ((48, 49).1 + 256 * 7) 5, hz ((48, 49).2 + 256 * 7) 5, -4, by decide +kernel⟩,
   ⟨bd 0, hz ((48, 49).1 + 256 * 7) 5, hz ((48, 49).2 + 256 * 7) 5, -64, by decide +kernel⟩,
   ⟨p, hz ((48, 48).1 + 256 * 7) 5, hz ((48, 48).2 + 256 * 7) 5, by decide +kernel⟩,
   ⟨p, hz ((3, 49).1 + 256 * 7) 5, hz ((3, 49).2 + 256 * 7) 5, by decide +kernel⟩,
   ⟨on .run, hz 0 5, hz 0 5, by decide +kernel⟩,
   ⟨bd (-64), by decide +kernel⟩,
   ⟨p, by decide +kernel⟩,
   ⟨p, hz 4, 48, by decide +kernel⟩,
   ⟨p, hz 4, 0, by decide +kernel⟩⟩

theorem witness_ReceiverAdaptationAndPatterns :
    (∃ (s : State) (l : Fin 50) (ev : Nat) (eh : Nat), s.fb (F.LPHY_STAT_block_lock l) = true ∧ ev < 256 ∧ eh ≤ 64 ∧ ¬ (s.fb (F.LPHY_STAT_frozen l) = false ∧ (s.lane l).resumeAt ≤ (s.lane l).fomAt))
    ∧ (∃ (s : State) (l : Fin 50) (ev : Nat) (eh : Nat) (cv : Int), s.fb (F.LPHY_STAT_block_lock l) = true ∧ ev < 256 ∧ eh ≤ 64 ∧ (s.fb (F.LPHY_STAT_frozen l) = false ∧ (s.lane l).resumeAt ≤ (s.lane l).fomAt) ∧ sx 6 (s.f (F.LPHY_FOM_off_now l)) < cv ∧ sx 6 (s.f (F.LPHY_FOM_off_now l)) + 1 ≤ (s.lane l).centreOff + 8 ∧ (s.lane l).centreOff - 8 ≤ sx 6 (s.f (F.LPHY_FOM_off_now l)) ∧ sx 6 (s.f (F.LPHY_FOM_off_now l)) + 1 ≤ 31)
    ∧ (∃ (s : State) (l : Fin 50) (ev : Nat) (eh : Nat) (cv : Int), s.fb (F.LPHY_STAT_block_lock l) = true ∧ ev < 256 ∧ eh ≤ 64 ∧ (s.fb (F.LPHY_STAT_frozen l) = false ∧ (s.lane l).resumeAt ≤ (s.lane l).fomAt) ∧ sx 6 (s.f (F.LPHY_FOM_off_now l)) < cv ∧ sx 6 (s.f (F.LPHY_FOM_off_now l)) = (s.lane l).centreOff + 8 ∧ s.fb (F.LPHY_STAT_fom_limit l) = false)
    ∧ (∃ (s : State) (l : Fin 50) (ev : Nat) (eh : Nat) (cv : Int), s.fb (F.LPHY_STAT_block_lock l) = true ∧ ev < 256 ∧ eh ≤ 64 ∧ (s.fb (F.LPHY_STAT_frozen l) = false ∧ (s.lane l).resumeAt ≤ (s.lane l).fomAt) ∧ sx 6 (s.f (F.LPHY_FOM_off_now l)) < cv ∧ sx 6 (s.f (F.LPHY_FOM_off_now l)) = (s.lane l).centreOff + 8 ∧ s.fb (F.LPHY_STAT_fom_limit l) = true)
    ∧ (∃ (s : State) (l : Fin 50) (n : Nat), s.fb (F.LPHY_STAT_block_lock l) = true ∧ 8192 ≤ n)
    ∧ (∃ (s : State) (l : Fin 50) (n : Nat), s.fb (F.LPHY_STAT_block_lock l) = true ∧ s.fb (F.LPHY_STAT_frozen l) = true ∧ 256 ≤ n)
    ∧ (∃ (l : Fin 50) (n : Nat) (i : _), n < 256 ∧ i ∈ [Instr.adaptFreeze ⟨l, n⟩, .adaptResume ⟨l, n⟩])
    ∧ (∃ (s : State) (m : Master), s.MayWrite m ∧ s.mode = .configure)
    ∧ (∃ (s : State) (m : Master), s.MayWrite m ∧ s.mode ≠ .configure)
    ∧ (∃ (s : State) (m : Master) (l : Fin 50), s.MayWrite m ∧ s.mode = .diagnostic ∧ (s.f (F.LPHY_DIAG_diag_mode l) = 1 ∨ s.f (F.LPHY_DIAG_diag_mode l) = 2) ∧ (s.lane l).tx.injBits = 0 ∧ (s.lane l).tx.genFrom ≤ s.cyc ∧ 1 ≤ s.f (F.LPHY_DIAG_burst_len l) ∧ s.f (F.LPHY_DIAG_burst_len l) ≤ 64)
    ∧ (∃ (s : State) (m : Master) (l : Fin 50) (i : _), s.MayWrite m ∧ s.mode ≠ .diagnostic ∧ s.f (F.LPHY_DIAG_diag_mode l) = 0 ∧ i ∈ [Instr.injectSingle m l, .injectBurst m l])
    ∧ (∃ (s : State) (l : Fin 50) (bits : List Bool), s.checkerOn l = true ∧ s.fb (F.LPHY_STAT_chk_lock l) = false ∧ s.checkerSeed l (s.checkedBits l bits).1 ≠ none)
    ∧ (∃ (s : State) (l : Fin 50) (bits : List Bool), (s.checkerOn l = false ∨ s.txCarries l = .pattern ∧ s.checkerSeed l bits = none))
    ∧ (∃ (s : State) (l : Fin 50), s.checkerOn l = true ∧ s.fb (F.LPHY_STAT_chk_lock l) = true)
    ∧ (∃ (s : State) (l : Fin 50), (s.checkerOn l = false ∨ s.fb (F.LPHY_STAT_chk_lock l) = false)) :=
  ⟨⟨State.setF (fm 0 8 0 (on .run)) (F.LPHY_STAT_frozen 0) 1, 0, 255, 64, by decide +kernel⟩,
   ⟨fm 0 0 0 (on .run), 0, 255, 64, 7, by decide +kernel⟩,
   ⟨fm 0 8 0 (on .run), 0, 255, 64, 31, by decide +kernel⟩,
   ⟨State.setF (fm 0 8 0 (on .run)) (F.LPHY_STAT_fom_limit 0) 1, 0, 255, 64, 31, by decide +kernel⟩,
   ⟨fm 0 0 0 (on .run), 0, 8192, by decide +kernel⟩,
   ⟨State.setF (fm 0 8 0 (on .run)) (F.LPHY_STAT_frozen 0) 1, 0, 8192, by decide +kernel⟩,
   ⟨5, 255, .adaptFreeze ⟨5, 255⟩, by decide +kernel⟩,
   ⟨on .configure, .port0, by decide +kernel⟩,
   ⟨fm 0 0 0 (on .run), .port0, by decide +kernel⟩,
   ⟨dg 3 1 (on .diagnostic), .port0, 3, by decide +kernel⟩,
   ⟨fm 0 0 0 (on .run), .port0, 0, .injectSingle .port0 0, by decide +kernel⟩,
   ⟨ck 0, 3, pat0, by decide +kernel⟩,
   ⟨fm 0 0 0 (on .run), 0, [], by decide +kernel⟩,
   ⟨lk (ck 0), 3, by decide +kernel⟩,
   ⟨fm 0 0 0 (on .run), 0, by decide +kernel⟩⟩

end Bond

namespace Pwm

def bs (m : Mode) := mapped (on m)
def sel (b s c : List Nat) (t : Option Nat) (q : Int) : Selection := { base := b, swing := s, trim := t, cands := c, mLo := 0, mHi := 4, counts := [1], q := q, clampSeen := false, req := rq }
def pln (x : Selection) (s : State) : State := ({s with plan := {s.plan with queue := [0]}}).modArm 0 (fun a => {a with selection := some x, work := some rq})
def ws : PwmSet := { PwmSet.reset with on := 100, off := 200, per := 1000, dead := 0, minPulse := 0 }
def rn (l : List (Fld × Nat)) (w : PwmSet) (f : Pwm → Pwm) (s : State) : State := (sets s ((F.EDG_PWM_CTL_run 3, 1) :: (F.EDG_PWM_CTL_out_en 3, 1) :: l)).modPwm 3 (fun x => f {x with work := w})
def w0 (on off mp : Nat) : PwmSet := {ws with on := on, off := off, minPulse := mp}
def hand (s : State) : State := let u := s.advanceCyc (s.reloadAt 3); { s with seq := { s.seq with running := true, started := true, next := 11 }, now := ⟨s.boundary 11 + 5 - (u.now.ns - s.now.ns), 0⟩ }
def fl (l : List (Fld × Nat)) (m : Mode) : State := { sets (on m) l with cyc := 100000 }
def fi (g : FltIn → FltIn) (s : State) : State := s.setFlt 5 (g (s.flt 5))
def per (o : Nat) (s : State) : State := { s with now := { ns := s.boundary 10 + o, frac := 0 }, seq := { s.seq with running := true, started := true, next := 11, gatherDone := true } }
def fa := fl [(F.EDG_FLT_CFG_flt_action 5, 1), (F.EDG_FLT_STAT_ch_mask_lo 5, 0x0F), (F.EDG_FLT_CFG_ch_mask_hi 5, 0xF0)] .run
def blk (p : Pwm → Pwm) : State := (sets (rn [] (w0 100 200 0) p fa) [(F.EDG_FLT_CFG_flt_mode 5, 1), (F.EDG_FLT_CFG_blank_ch 5, 3)])

theorem witness_PwmArmsPlansAndEdges :
    (∃ (s : State) (u : Fin 6) (a : Nat) (x : Selection), s.mode.controls = true ∧ s.plan.queue.find? (fun b => s.unitOf b == u.val) = some a ∧ (s.arm a).selection = some x ∧ (∀ d ∈ x.base ++ x.swing ++ x.cands, s.f (F.WIN_CELL_STAT_code d) = 0) ∧ (∀ d, x.trim = some d → d ∈ x.cands))
    ∧ (∃ (s : State), (s.mode.controls = false ∨ s.plan.queue = []))
    ∧ (∃ (s : State) (c : Fin 16), s.live = true ∧ s.Settled ∧ s.fb (F.EDG_PWM_CTL_run c) = true ∧ s.pairedTo c = false ∧ s.f (F.EDG_PWM_CTL_sync_src c) ≠ 3 ∧ s.fb (F.EDG_PWM_CTL_upd_mode c) = true)
    ∧ (∃ (s : State) (c : Fin 16), s.live = true ∧ s.Settled ∧ s.fb (F.EDG_PWM_CTL_run c) = true ∧ s.pairedTo c = false ∧ s.f (F.EDG_PWM_CTL_sync_src c) ≠ 3 ∧ s.fb (F.EDG_PWM_CTL_upd_mode c) = false)
    ∧ (∃ (s : State) (c : Fin 16), s.fb (F.EDG_PWM_CTL_run c) = false)
    ∧ (∃ (s : State) (c : Fin 16) (on : Bool), s.live = true ∧ s.fb (F.EDG_PWM_CTL_run c) = true ∧ s.pairedTo c = false ∧ s.fb (F.EDG_PWM_CTL_pair_en c) = false ∧ s.fb (F.EDG_PWM_CTL_policy c) = false ∧ (s.pwmCh c).work.on ≠ (s.pwmCh c).work.off ∧ (on = true → (s.pwmCh c).work.on + (s.pwmCh c).work.dead < nextInstant (s.pwmCh c).work.on (s.pwmCh c).work.off ((s.pwmCh c).work.per * 32)) ∧ (s.pwmCh c).work.on < (s.pwmCh c).work.per * 32 ∧ (s.pwmCh c).work.off < (s.pwmCh c).work.per * 32 ∧ (s.pwmCh c).passed ≤ (if on then (s.pwmCh c).work.on else (s.pwmCh c).work.off) ∧ (s.pwmCh c).work.minPulse = 0 ∧ (s.pwmCh c).out ≠ on)
    ∧ (∃ (s : State) (c : Fin 16) (on : Bool), s.live = true ∧ s.fb (F.EDG_PWM_CTL_run c) = true ∧ s.pairedTo c = false ∧ s.fb (F.EDG_PWM_CTL_pair_en c) = false ∧ s.fb (F.EDG_PWM_CTL_policy c) = false ∧ (s.pwmCh c).work.on ≠ (s.pwmCh c).work.off ∧ (on = true → (s.pwmCh c).work.on + (s.pwmCh c).work.dead < nextInstant (s.pwmCh c).work.on (s.pwmCh c).work.off ((s.pwmCh c).work.per * 32)) ∧ (s.pwmCh c).work.on < (s.pwmCh c).work.per * 32 ∧ (s.pwmCh c).work.off < (s.pwmCh c).work.per * 32 ∧ (s.pwmCh c).passed ≤ (if on then (s.pwmCh c).work.on else (s.pwmCh c).work.off) ∧ on = true ∧ (s.pwmCh c).work.on < (s.pwmCh c).work.off ∧ (s.pwmCh c).work.off < (s.pwmCh c).work.on + (s.pwmCh c).work.minPulse ∧ (s.pwmCh c).work.dead = 0 ∧ (s.pwmCh c).out = false ∧ (s.advanceCyc (s.compareCyc c true)).maskedCh c = false ∧ s.f (F.EDG_PWM_STAT_pulse_drop c) = 0)
    ∧ (∃ (s : State) (c : Fin 16) (on : Bool), s.compareDue c on = false)
    ∧ (∃ (s : State) (m : Master), s.MayWrite m) :=
  ⟨⟨pln (sel [0] [1] [] none 0) (bs .run), 0, 0, sel [0] [1] [] none 0, by decide +kernel⟩,
   ⟨hand (rn [(F.EDG_PWM_CTL_upd_mode 3, 1), (F.EDG_PWM_COMMIT_commit, 8), (F.EDG_PWM_PER_per 3, 777)] ws id (on .run)), by decide +kernel⟩,
   ⟨hand (rn [(F.EDG_PWM_CTL_upd_mode 3, 1), (F.EDG_PWM_COMMIT_commit, 8), (F.EDG_PWM_PER_per 3, 777)] ws id (on .run)), 3, by decide +kernel⟩,
   ⟨hand (rn [(F.EDG_PWM_COMMIT_commit, 8), (F.EDG_PWM_PER_per 3, 777)] ws id (on .run)), 3, by decide +kernel⟩,
   ⟨on .run, 3, by decide +kernel⟩,
   ⟨rn [] (w0 100 200 0) id (on .run), 3, true, by decide +kernel⟩,
   ⟨rn [] (w0 100 200 101) id (on .run), 3, true, by decide +kernel⟩,
   ⟨rn [] (w0 5 5 0) id (on .run), 3, true, by decide +kernel⟩,
   ⟨rn [] (w0 100 200 0) id (on .run), .port0, by decide +kernel⟩⟩

theorem witness_FaultInputsAndSyncPins :
    (∃ (s : State) (i : Fin 8) (n : Nat) (c : Fin 16), s.live = true ∧ (s.flt i).since = none ∧ (s.flt i).ended ≠ some s.cyc ∧ n ≤ s.cyc ∧ (if s.f (F.EDG_FLT_CFG_flt_mode i) = 2 then s.f (F.EDG_FLT_CFG_filt_len i) + 1 else 3) ≤ n ∧ ¬ (s.f (F.EDG_FLT_CFG_flt_mode i) = 1 ∧ (s.pwmCh (s.f (F.EDG_FLT_CFG_blank_ch i))).wave = true) ∧ (s.f (F.EDG_FLT_CFG_flt_action i) = 1 ∨ (s.f (F.EDG_FLT_CFG_flt_action i) = 0 ∧ (s.fb (F.EDG_FLT_STAT_escalated i) = true ∨ s.f (F.EDG_FLT_CFG_flt_limit i) ≤ min 255 (s.f (F.EDG_FLT_STAT_tally i) + 1)))) ∧ bitOf (s.fltChannels i) c = true)
    ∧ (∃ (s : State) (i : Fin 8) (n : Nat), s.live = true ∧ (s.flt i).since = none ∧ (s.flt i).ended ≠ some s.cyc ∧ n ≤ s.cyc ∧ (if s.f (F.EDG_FLT_CFG_flt_mode i) = 2 then s.f (F.EDG_FLT_CFG_filt_len i) + 1 else 3) ≤ n ∧ ¬ (s.f (F.EDG_FLT_CFG_flt_mode i) = 1 ∧ (s.pwmCh (s.f (F.EDG_FLT_CFG_blank_ch i))).wave = true) ∧ (s.f (F.EDG_FLT_CFG_flt_action i) = 1 ∨ (s.f (F.EDG_FLT_CFG_flt_action i) = 0 ∧ (s.fb (F.EDG_FLT_STAT_escalated i) = true ∨ s.f (F.EDG_FLT_CFG_flt_limit i) ≤ min 255 (s.f (F.EDG_FLT_STAT_tally i) + 1)))) ∧ s.f (F.EDG_FLT_CFG_flt_action i) = 0)
    ∧ (∃ (s : State) (i : Fin 8) (n : Nat) (c : Fin 16), s.live = true ∧ (s.flt i).since = none ∧ (s.flt i).ended ≠ some s.cyc ∧ n ≤ s.cyc ∧ (if s.f (F.EDG_FLT_CFG_flt_mode i) = 2 then s.f (F.EDG_FLT_CFG_filt_len i) + 1 else 3) ≤ n ∧ ¬ (s.f (F.EDG_FLT_CFG_flt_mode i) = 1 ∧ (s.pwmCh (s.f (F.EDG_FLT_CFG_blank_ch i))).wave = true) ∧ s.f (F.EDG_FLT_CFG_flt_action i) = 0 ∧ (¬ (s.f (F.EDG_FLT_CFG_flt_action i) = 1 ∨ (s.f (F.EDG_FLT_CFG_flt_action i) = 0 ∧ (s.fb (F.EDG_FLT_STAT_escalated i) = true ∨ s.f (F.EDG_FLT_CFG_flt_limit i) ≤ min 255 (s.f (F.EDG_FLT_STAT_tally i) + 1))))) ∧ bitOf (s.fltChannels i) c = true)
    ∧ (∃ (s : State) (i : Fin 8) (n : Nat) (c : Fin 16), s.live = true ∧ (s.flt i).since = none ∧ (s.flt i).ended ≠ some s.cyc ∧ n ≤ s.cyc ∧ (if s.f (F.EDG_FLT_CFG_flt_mode i) = 2 then s.f (F.EDG_FLT_CFG_filt_len i) + 1 else 3) ≤ n ∧ ¬ (s.f (F.EDG_FLT_CFG_flt_mode i) = 1 ∧ (s.pwmCh (s.f (F.EDG_FLT_CFG_blank_ch i))).wave = true) ∧ s.f (F.EDG_FLT_CFG_flt_action i) ≠ 2 ∧ bitOf (s.fltChannels i) c = false)
    ∧ (∃ (s : State) (i : Fin 8) (n : Nat), s.live = true ∧ (s.flt i).since = none ∧ (s.flt i).ended ≠ some s.cyc ∧ n ≤ s.cyc ∧ (if s.f (F.EDG_FLT_CFG_flt_mode i) = 2 then s.f (F.EDG_FLT_CFG_filt_len i) + 1 else 3) ≤ n ∧ ¬ (s.f (F.EDG_FLT_CFG_flt_mode i) = 1 ∧ (s.pwmCh (s.f (F.EDG_FLT_CFG_blank_ch i))).wave = true) ∧ s.f (F.EDG_FLT_CFG_flt_action i) = 2)
    ∧ (∃ (s : State) (i : Fin 8) (n : Nat), s.live = true ∧ (s.flt i).since = none ∧ (s.flt i).ended ≠ some s.cyc ∧ n ≤ s.cyc ∧ (if s.f (F.EDG_FLT_CFG_flt_mode i) = 2 then s.f (F.EDG_FLT_CFG_filt_len i) + 1 else 3) ≤ n ∧ ¬ (s.f (F.EDG_FLT_CFG_flt_mode i) = 1 ∧ (s.pwmCh (s.f (F.EDG_FLT_CFG_blank_ch i))).wave = true) ∧ bitOf s.pwmIo.fltSeen i = false)
    ∧ (∃ (s : State) (i : Fin 8) (n : Nat), s.live = true ∧ (s.flt i).since = none ∧ (s.flt i).ended ≠ some s.cyc ∧ n ≤ s.cyc ∧ (if s.f (F.EDG_FLT_CFG_flt_mode i) = 2 then s.f (F.EDG_FLT_CFG_filt_len i) + 1 else 3) ≤ n ∧ ¬ (s.f (F.EDG_FLT_CFG_flt_mode i) = 1 ∧ (s.pwmCh (s.f (F.EDG_FLT_CFG_blank_ch i))).wave = true) ∧ bitOf s.pwmIo.fltSeen i = true)
    ∧ (∃ (s : State) (i : Fin 8) (n : Nat), s.live = true ∧ (s.flt i).since = none ∧ n ≤ s.cyc ∧ (n < (if s.f (F.EDG_FLT_CFG_flt_mode i) = 2 then s.f (F.EDG_FLT_CFG_filt_len i) + 1 else 3) ∨ (s.f (F.EDG_FLT_CFG_flt_mode i) = 1 ∧ (s.pwmCh (s.f (F.EDG_FLT_CFG_blank_ch i))).wave = true)))
    ∧ (∃ (s : State) (i : Fin 8) (c : Fin 16) (f : _), s.live = true ∧ s.compareDue c false = true ∧ s.f (F.EDG_FLT_CFG_flt_mode i) = 1 ∧ s.f (F.EDG_FLT_CFG_blank_ch i) = c ∧ s.fb (F.EDG_FLT_STAT_pin i) = true ∧ (s.flt i).since = some f ∧ f + 3 ≤ s.compareCyc c false ∧ (s.flt i).acted = none)
    ∧ (∃ (s : State) (i : Fin 8), s.live = true ∧ (s.flt i).acted.isSome = true ∧ (s.flt i).since.isSome = true)
    ∧ (∃ (s : State) (m : Master) (i : Fin 8) (j : Nat), s.MayWrite m ∧ (s.flt i).acted ≠ some s.cyc ∧ j ≠ i.val)
    ∧ (∃ (s : State) (m : Master) (i : Fin 8), s.MayWrite m ∧ (s.flt i).acted ≠ some s.cyc ∧ s.fb (F.EDG_FLT_STAT_escalated i) = false)
    ∧ (∃ (s : State) (src : Fin 4) (e : _), s.maskEnd src = some e)
    ∧ (∃ (s : State) (src : Fin 4), s.maskEnd src = none)
    ∧ (∃ (s : State), s.seq.running = true ∧ s.seq.started = true ∧ s.pwmIo.syncOutArmed = true)
    ∧ (∃ (s : State), s.pwmIo.syncOut = true)
    ∧ (∃ (s : State), s.pwmIo.syncOut = false)
    ∧ (∃ (s : State) (n : Nat) (k : Nat), s.live = true ∧ s.Settled ∧ s.fb F.EDG_SYNC_CFG_sync_in_en = true ∧ s.tim.stepAt ≠ some s.cyc ∧ s.now.frac = 0 ∧ s.now.ns = s.boundary n + 4 * k ∧ 8 * k < s.periodNs)
    ∧ (∃ (s : State) (v : _), s.live = true ∧ s.fb F.EDG_SYNC_CFG_sync_in_en = true ∧ s.pwmIo.syncInAt = some v ∧ s.fb F.EDG_SYNC_CAP_sync_lost = false)
    ∧ (∃ (s : State), s.pwmIo.syncInAt = none) :=
  ⟨⟨fa, 5, 4, 12, by decide +kernel⟩,
   ⟨{ fl [(F.EDG_SYNC_CFG_sync_in_en, 1)] .run with pwmIo := { fa.pwmIo with syncInAt := some (2 ^ 50) } }, 5, 3, by decide +kernel⟩,
   ⟨sets fa [(F.EDG_FLT_CFG_flt_limit 5, 4), (F.EDG_FLT_CFG_flt_action 5, 0), (F.EDG_FLT_STAT_tally 5, 2)], 5, 7, 3, by decide +kernel⟩,
   ⟨fa, 5, 3, 4, by decide +kernel⟩,
   ⟨State.setF fa (F.EDG_FLT_CFG_flt_action 5) 2, 5, 3, by decide +kernel⟩,
   ⟨fa, 5, 3, by decide +kernel⟩,
   ⟨{ fa with pwmIo := { fa.pwmIo with hiz := 48, fltSeen := 32 } }, 5, 3, by decide +kernel⟩,
   ⟨fa, 5, 2, by decide +kernel⟩,
   ⟨State.setF (fi (fun x => { x with since := some 99999, acted := none }) (blk fun x => { x with loadAt := 100000, wave := true, out := true })) (F.EDG_FLT_STAT_pin 5) 1, 5, 3, 99999, by decide +kernel⟩,
   ⟨fi (fun x => { x with since := some 99000, acted := some 99002 }) fa, 5, by decide +kernel⟩,
   ⟨fa, .port0, 5, 3, by decide +kernel⟩,
   ⟨fa, .port0, 5, by decide +kernel⟩,
   ⟨{ fa with pwmIo := { fa.pwmIo with masks := [some 7, some 0, some 200000, some 5], syncOutArmed := true } }, 3, 5, by decide +kernel⟩,
   ⟨fa, 3, by decide +kernel⟩,
   ⟨per 300 ({ fa with pwmIo := { fa.pwmIo with masks := [], syncOutArmed := true } }), by decide +kernel⟩,
   ⟨{ fa with pwmIo := { fa.pwmIo with syncOut := true, syncOutFrom := 123456789 } }, by decide +kernel⟩,
   ⟨fa, by decide +kernel⟩,
   ⟨{ fl [(F.EDG_SYNC_CFG_sync_in_en, 1)] .run with pwmIo := { fa.pwmIo with syncInAt := some (2 ^ 50) } }, 0, 0, by decide +kernel⟩,
   ⟨{ fl [(F.EDG_SYNC_CFG_sync_in_en, 1)] .run with pwmIo := { fa.pwmIo with syncInAt := some (2 ^ 50) } }, 2 ^ 50, by decide +kernel⟩,
   ⟨fa, by decide +kernel⟩⟩

end Pwm

namespace Converters

def ad (f : Adc → Adc) (s : State) : State := {s with adc := f s.adc}
def wk := ad (fun a => {a with phase := .working})
def ws := wk (on .run)
def at_ (n : Nat) (s : State) : State := {s with now := ⟨n, 0⟩}
def sl0 : AdcSlice := { cur := none, ended := [], next := 0, round := false, urgent := [], lastEnd := 0 }
def sl (i : Nat) (x : AdcSlice) (s : State) : State := s.modSlice i (fun _ => x)
def cv (ch : Nat) (u : Option Nat) (st un : Nat) : Conv := { ch := ch, urgent := u, start := st, unit := un, stepped := 0 }
def en (l : List Nat) (s : State) : State := sets s (l.map (fun c => (F.ADC_CH_CFG_en c, 1)))
def cf (s : State) := sets s [(F.ADC_CFG_seq_mode, 1)]
def cal (n : Nat) (s : State) := (ad (fun a => {a with calNext := n}) s).setF F.ADC_CAL_cal_en 1
def ur (k u ch src : Nat) (s : State) := sets s [(F.ADC_URG_CFG_en u, 1), (F.ADC_URG_CFG_src u, src), (F.ADC_URG_CFG_ain u, ch), (F.ADC_CH_CFG_slice ch, k)]

theorem witness_ConversionsResultsAndSnapshots :
    (∃ (s : State) (k : Fin 5) (i : Nat) (c : Conv), s.adcWorks = true ∧ s.unitSlice k = some i ∧ (s.slice i).cur = some c)
    ∧ (∃ (s : State) (k : Fin 5), s.unitSlice k = none)
    ∧ (∃ (s : State) (k : Fin 5) (i : Nat) (c : Conv) (code : Int) (ovr : Bool), s.adcWorks = true ∧ i < 4 ∧ (s.slice i).ended = [c] ∧ c.unit = k.val ∧ c.ch < 24 ∧ c.stepped = 0 ∧ (∀ j < 4, j ≠ i → (s.slice j).ended = []) ∧ -32768 ≤ code ∧ code ≤ 32767 ∧ s.Settled ∧ ovr = true)
    ∧ (∃ (s : State), (∀ j < 4, (s.slice j).ended = []))
    ∧ (∃ (s : State) (c : Nat), s.live = true ∧ s.seq.started = true ∧ s.adc.snapPeriod ≠ s.periodFull ∧ c < 24 ∧ tget none s.adc.latest c = none)
    ∧ (∃ (s : State), s.adc.snap ≠ [] ∧ s.adc.snapPeriod = s.periodFull)
    ∧ (∃ (s : State), s.live = true ∧ s.adc.snapDue = true ∧ s.fb F.ADC_SNAP_BASE_snap_en = false)
    ∧ (∃ (s : State), s.adc.snapDue = false) :=
  ⟨⟨sl 2 ({ sl0 with cur := some (cv 6 none 1000 2) }) (at_ 1020 (en [6] ws)), 2, 2, cv 6 none 1000 2, by decide +kernel⟩,
   ⟨ws, 0, by decide +kernel⟩,
   ⟨sl 1 ({ sl0 with ended := [cv 5 (some 3) 1001 4] }) (at_ 1041 ws), 4, 1, cv 5 (some 3) 1001 4, 32767, true, by decide +kernel⟩,
   ⟨ws, by decide +kernel⟩,
   ⟨wk (runs (on .run) 100000), 0, by decide +kernel⟩,
   ⟨ad (fun a => { a with snap := [1], snapPeriod := 10, snapDue := true }) (runs ws 100000), by decide +kernel⟩,
   ⟨ad (fun a => { a with snap := [1], snapPeriod := 10, snapDue := true }) (runs ws 100000), by decide +kernel⟩,
   ⟨wk (runs (on .run) 100000), by decide +kernel⟩⟩

theorem witness_RoundsCalibrationAndUrgent :
    (∃ (s : State) (k : Fin 4) (ch : Nat) (rest : List Nat), s.adcWorks = true ∧ s.economy = true ∧ s.seq.running = false ∧ s.sliceList k = ch :: rest ∧ (s.slice k).cur = none ∧ (s.slice k).urgent = [])
    ∧ (∃ (s : State), (s.adcWorks = false ∨ s.economy = false ∨ s.seq.running = true))
    ∧ (∃ (s : State), s.adcWorks = true ∧ s.fb F.ADC_CAL_cal_en = true ∧ s.adc.calRun = none ∧ s.adc.calPend = none ∧ s.f F.ADC_STAT_stand_in = 7 ∧ s.adc.calNext = 4)
    ∧ (∃ (s : State) (k : Fin 4), s.adcWorks = true ∧ s.fb F.ADC_CAL_cal_en = true ∧ s.adc.calRun = none ∧ s.adc.calPend = none ∧ s.f F.ADC_STAT_stand_in = 7 ∧ s.adc.calNext = k ∧ s.sliceList k ≠ [])
    ∧ (∃ (s : State) (k : Fin 4), s.adcWorks = true ∧ s.fb F.ADC_CAL_cal_en = true ∧ s.adc.calRun = none ∧ s.adc.calPend = none ∧ s.f F.ADC_STAT_stand_in = 7 ∧ s.adc.calNext = k ∧ s.sliceList k = [])
    ∧ (∃ (s : State) (ok : BitVec 5), s.live = true ∧ s.adc.phase = .initial ∧ ok.toNat = 31)
    ∧ (∃ (s : State), s.adcWorks = true ∧ s.adc.calRun = some 4)
    ∧ (∃ (s : State) (m : Master) (k : Fin 4) (u : Fin 4), s.MayWrite m ∧ s.adc.phase = .working ∧ s.f (F.ADC_URG_CFG_src u) = 0 ∧ s.fb (F.ADC_URG_CFG_en u) = true ∧ (∀ j < 4, (s.slice j).urgent = []) ∧ (s.adc.urgCyc ≠ s.cyc ∨ s.adc.urgSlots = []) ∧ s.urgentWaits u = false ∧ s.f (F.ADC_CH_CFG_slice (s.f (F.ADC_URG_CFG_ain u))) = k ∧ (s.slice k).cur = none)
    ∧ (∃ (s : State) (m : Master) (u : Fin 4), s.MayWrite m ∧ s.adc.phase = .working ∧ s.f (F.ADC_URG_CFG_src u) = 0 ∧ s.fb (F.ADC_URG_CFG_en u) = true ∧ s.urgentWaits u = true ∧ (∀ j < 4, (s.slice j).urgent ≠ [] → ∃ c, (s.slice j).cur = some c ∧ c.urgent.isSome = true)) :=
  ⟨⟨cf (en [0, 4, 1] ws), 0, 0, [4], by decide +kernel⟩,
   ⟨en [0] ws, by decide +kernel⟩,
   ⟨cal 4 ws, by decide +kernel⟩,
   ⟨cf (en [0, 4, 1] ws), 0, by decide +kernel⟩,
   ⟨cal 3 ws, 3, by decide +kernel⟩,
   ⟨ad (fun a => { a with phase := AdcPhase.initial }) (on .configure), 31, by decide +kernel⟩,
   ⟨State.setF (ad (fun a => { a with calRun := some 4 }) ws) F.ADC_STAT_cal_count 65535, by decide +kernel⟩,
   ⟨ur 0 0 0 0 ws, .port0, 0, 0, by decide +kernel⟩,
   ⟨sl 1 ({ sl0 with cur := some (cv 0 (some 1) 700 1), urgent := [{ slot := 3, ch := 9, at_ := 0 }] }) (ur 1 3 9 0 (at_ 720 ws)), .port0, 3, by decide +kernel⟩⟩

end Converters

namespace Recorder

def B : State := { mapped (on .run) with cyc := 100000, justAt := 1 }
def silo (k kind base size pre post : Nat) (s : State) : State := sets s [(F.REC_SILO_CFG_kind k, kind), (F.REC_SILO_BASE_base k, base), (F.REC_SILO_BASE_size k, size), (F.REC_SILO_PRE_pre k, pre), (F.REC_SILO_POST_post k, post), (F.REC_SILO_CFG_lane_count k, 1), (F.REC_SILO_CFG_wave_int k, 5)]
def ms (f : Silo → Silo) (k : Nat) (s : State) : State := { s with fr := { s.fr with silos := tput Silo.reset s.fr.silos k (f (s.silo k)) } }
def stt (k v : Nat) (s : State) := sets s [(F.REC_SILO_STAT_state k, v), (F.REC_SILO_CAP_capacity k, s.siloCap k)]
def per (o : Nat) (s : State) : State := { s with now := { ns := s.boundary 10 + o, frac := 7 }, seq := { s.seq with running := true, started := true, next := 11 } }
def a := silo 1 0 0x20 1 10 20 B
def w := silo 1 1 0x20 1 10 20 B
def trg (m : Nat) (s : State) := s.setF (F.REC_SILO_TRIG_trig_mask 1) m
def ti (s : State) := sets s [(F.REC_TRIGIN_en 1, 1)]
def tb (m up pend : Nat) (s : State) := sets s [(F.REC_TB_CFG_tb_en, 1), (F.REC_TB_CFG_tb_master, m), (F.REC_TB_CFG_tb_id, if m = 1 then 0 else 5), (F.REC_TB_STAT_tb_up, up), (F.REC_TB_STAT_pending, pend)]
def bus (f : TrigBus → TrigBus) (s : State) : State := s.modBus f

theorem witness_SilosArmTriggerAndRelease :
    (∃ (s : State) (m : Master) (k : Fin 4), s.MayWrite m ∧ s.siloState k = 0 ∧ s.armRefusal k = 0 ∧ s.siloCap k < 2 ^ 24 ∧ (s.fr.trigSrc = 0 ∨ s.fr.trigCyc ≠ s.cyc) ∧ s.f (F.REC_SILO_PRE_pre k) + s.f (F.REC_SILO_POST_post k) ≤ s.siloCap k ∧ 0 < s.f (F.REC_SILO_POST_post k))
    ∧ (∃ (s : State) (m : Master) (k : Fin 4), s.MayWrite m ∧ s.siloState k = 0 ∧ grnSize < s.siloBase k + s.siloBytes k)
    ∧ (∃ (s : State) (m : Master) (k : Fin 4), s.MayWrite m ∧ s.siloState k ≠ 0)
    ∧ (∃ (s : State) (m : Master) (k : Fin 4), s.MayWrite m ∧ (s.silo k).trigCyc ≠ s.cyc)
    ∧ (∃ (s : State) (m : Master) (k : Fin 4), s.MayWrite m ∧ (s.silo k).trigCyc = s.cyc ∧ (s.siloState k = 2 ∨ s.siloState k = 3))
    ∧ (∃ (s : State) (m : Master) (k : Fin 4), s.MayWrite m ∧ s.siloState k = 1 ∧ (s.silo k).leftCyc ≠ some s.cyc ∧ bitOf (s.f (F.REC_SILO_TRIG_trig_mask k)) 15 = true)
    ∧ (∃ (s : State) (m : Master) (k : Fin 4), s.MayWrite m ∧ bitOf (s.f (F.REC_SILO_TRIG_trig_mask k)) 15 = false)
    ∧ (∃ (s : State) (m : Master) (k : Fin 4), s.MayWrite m ∧ s.siloState k = 4 ∧ s.fb (F.REC_SILO_CTL_auto_rearm k) = false)
    ∧ (∃ (s : State) (m : Master) (k : Fin 4), s.MayWrite m ∧ s.siloState k ≠ 4)
    ∧ (∃ (s : State) (k : Fin 4) (lost : BitVec 4), s.mode.fromConfigure = true ∧ s.seq.running = true ∧ s.seq.started = true ∧ s.siloState k = 1 ∧ s.cellDue k = true ∧ s.f (F.REC_SILO_CAP_capacity k) < 2 ^ 24 ∧ lost.getLsbD k = true)
    ∧ (∃ (s : State), s.seq.running = false)
    ∧ (∃ (s : State) (k : Fin 4), s.mode.fromConfigure = true ∧ s.siloKind k = 1 ∧ s.siloState k = 1)
    ∧ (∃ (s : State) (k : Fin 4), s.siloKind k ≠ 1)
    ∧ (∃ (s : State) (k : Fin 4), s.siloState k = 3 ∧ s.siloBase k + 256 ≤ grnSize)
    ∧ (∃ (s : State) (k : Fin 4), s.siloState k ≠ 3) :=
  ⟨⟨a, .port0, 1, by decide +kernel⟩,
   ⟨silo 1 0 1008 48 2 2 B, .port0, 1, by decide +kernel⟩,
   ⟨stt 1 1 a, .port0, 1, by decide +kernel⟩,
   ⟨a, .port0, 1, by decide +kernel⟩,
   ⟨{ ms (fun x => { x with trigCyc := 100000, trigSeq := 3 }) 1 (stt 1 2 a) with events := [{ code := EvCode.recTrig, source := 0, seq := 3, time := 7, payload := [] }, { code := EvCode.recTrig, source := 0, seq := 2, time := 7, payload := [] }] }, .port0, 1, by decide +kernel⟩,
   ⟨trg 65535 (stt 1 1 a), .port0, 1, by decide +kernel⟩,
   ⟨a, .port0, 1, by decide +kernel⟩,
   ⟨stt 1 4 a, .port0, 1, by decide +kernel⟩,
   ⟨a, .port0, 1, by decide +kernel⟩,
   ⟨per 300 (stt 1 1 a), 1, 15, by decide +kernel⟩,
   ⟨a, by decide +kernel⟩,
   ⟨trg 65535 (stt 1 1 w), 1, by decide +kernel⟩,
   ⟨a, 1, by decide +kernel⟩,
   ⟨stt 1 3 a, 1, by decide +kernel⟩,
   ⟨a, 1, by decide +kernel⟩⟩

theorem witness_TriggerInputsAndBus :
    (∃ (s : State) (i : Fin 4) (k : Fin 4) (b : Bool), s.fb (F.REC_TRIGIN_en i) = true ∧ s.fb (F.REC_TRIGIN_pol i) ≠ b ∧ s.mode.fromConfigure = true ∧ s.fb (F.REC_TRIGIN_STAT_rearming i) = false ∧ s.Settled ∧ s.Quiet ∧ (s.silo k).leftCyc ≠ some s.cyc ∧ s.siloState k = 1 ∧ bitOf (s.f (F.REC_SILO_TRIG_trig_mask k)) i = true)
    ∧ (∃ (s : State) (i : Fin 4) (k : Fin 4) (b : Bool), s.fb (F.REC_TRIGIN_en i) = true ∧ s.fb (F.REC_TRIGIN_pol i) ≠ b ∧ s.mode.fromConfigure = true ∧ s.fb (F.REC_TRIGIN_STAT_rearming i) = false ∧ s.Settled ∧ s.Quiet ∧ (s.silo k).leftCyc ≠ some s.cyc ∧ bitOf (s.f (F.REC_SILO_TRIG_trig_mask k)) i = false)
    ∧ (∃ (s : State) (i : Fin 4) (b : Bool), s.fb (F.REC_TRIGIN_en i) = true ∧ s.fb (F.REC_TRIGIN_pol i) ≠ b ∧ s.mode.fromConfigure = true ∧ s.fb (F.REC_TRIGIN_STAT_rearming i) = true ∧ s.cyc < s.rearmEnd i)
    ∧ (∃ (s : State) (i : Fin 4) (b : Bool), (s.fb (F.REC_TRIGIN_en i) = false ∨ s.fb (F.REC_TRIGIN_pol i) = b))
    ∧ (∃ (s : State) (i : Fin 4), s.fb (F.REC_TRIGIN_STAT_rearming i) = true)
    ∧ (∃ (s : State) (i : Fin 4), s.fb (F.REC_TRIGIN_STAT_rearming i) = false)
    ∧ (∃ (s : State) (line : Nat), s.fb F.REC_TB_CFG_tb_en = true ∧ s.fb F.REC_TB_CFG_tb_master = false ∧ s.fb F.REC_TB_STAT_tb_up = true ∧ line < 8 ∧ s.f F.REC_TB_STAT_pending = 2 ^ line ∧ s.fr.bus.slotAt ≠ 0)
    ∧ (∃ (s : State), s.fb F.REC_TB_CFG_tb_en = true ∧ s.fb F.REC_TB_CFG_tb_master = false ∧ s.f F.REC_TB_STAT_pending = 0 ∧ 0 < s.fr.bus.reqs)
    ∧ (∃ (s : State), s.fb F.REC_TB_CFG_tb_en = true ∧ s.fb F.REC_TB_CFG_tb_master = true ∧ s.f F.REC_TB_STAT_pending = 0 ∧ s.fr.bus.toReply = [])
    ∧ (∃ (s : State) (slot : Fin 8) (msg : BitVec 16), s.fb F.REC_TB_CFG_tb_en = true ∧ slot.val ≠ s.tbId ∧ tbValid slot msg.toNat = false)
    ∧ (∃ (s : State) (k : Fin 4) (slot : Fin 8) (msg : BitVec 16), s.fb F.REC_TB_CFG_tb_en = true ∧ slot.val ≠ s.tbId ∧ tbValid slot msg.toNat = true ∧ bitsOf msg.toNat 2 1 = 1 ∧ s.fb F.REC_TB_STAT_tb_up = true ∧ s.Settled ∧ (s.silo k).leftCyc ≠ some s.cyc ∧ s.siloState k = 1 ∧ bitOf (s.f (F.REC_SILO_TRIG_trig_mask k)) (4 + bitsOf msg.toNat 5 3) = true)
    ∧ (∃ (s : State) (slot : Fin 8) (msg : BitVec 16), s.fb F.REC_TB_CFG_tb_en = true ∧ slot.val ≠ s.tbId ∧ tbValid slot msg.toNat = true ∧ bitsOf msg.toNat 2 1 = 1 ∧ s.fb F.REC_TB_STAT_tb_up = false)
    ∧ (∃ (s : State) (msg : BitVec 16) (p : Nat) (x : Nat) (y : Nat) (z : Nat), s.fb F.REC_TB_CFG_tb_en = true ∧ s.fb F.REC_TB_CFG_tb_master = false ∧ s.fb F.REC_TB_STAT_tb_up = false ∧ s.tbId ≠ 0 ∧ tbValid 0 msg.toNat = true ∧ bitsOf msg.toNat 2 1 = 3 ∧ bitsOf msg.toNat 5 3 = s.tbId ∧ bitsOf msg.toNat 13 6 = p ∧ s.fr.bus.replies = [x, y, z] ∧ x ≤ 63 ∧ y ≤ 63 ∧ z ≤ 63 ∧ p ≤ 63)
    ∧ (∃ (s : State), s.fr.bus.waiting = true)
    ∧ (∃ (s : State), s.fr.bus.waiting = false)
    ∧ (∃ (s : State), s.fb F.REC_TB_CFG_tb_en = false) :=
  ⟨⟨ti (trg 2 (stt 1 1 a)), 1, 1, true, by decide +kernel⟩,
   ⟨ti (trg 65533 (stt 1 1 a)), 1, 1, true, by decide +kernel⟩,
   ⟨let s := (ti a).setF (F.REC_TRIGIN_STAT_rearming 1) 1; { s with fr := { s.fr with trigInAt := [0, 99999, 0, 0] } }, 1, true, by decide +kernel⟩,
   ⟨sets (ti a) [(F.REC_TRIGIN_pol 1, 1)], 1, true, by decide +kernel⟩,
   ⟨(ti a).setF (F.REC_TRIGIN_STAT_rearming 1) 1, 1, by decide +kernel⟩,
   ⟨ti (trg 2 (stt 1 1 a)), 1, by decide +kernel⟩,
   ⟨bus (fun b => { b with slotAt := 99000 }) (tb 0 1 128 a), 7, by decide +kernel⟩,
   ⟨bus (fun b => { b with reqs := 3 }) (tb 0 0 0 a), by decide +kernel⟩,
   ⟨tb 1 0 0 a, by decide +kernel⟩,
   ⟨tb 0 1 128 a, 0, 0#16, by decide +kernel⟩,
   ⟨tb 0 1 0 (trg 65535 (stt 1 1 a)), 1, 3, BitVec.ofNat 16 (tbMessage 1 7 0), by decide +kernel⟩,
   ⟨tb 0 0 0 (trg 16 (stt 1 1 w)), 0, BitVec.ofNat 16 (tbMessage 1 0 0), by decide +kernel⟩,
   ⟨bus (fun b => { b with replies := [0, 0, 0] }) (tb 0 0 0 a), BitVec.ofNat 16 (tbMessage 3 5 0), [0, 0, 0, 0].getD 0 0, [0, 0, 0, 0].getD 1 0, [0, 0, 0, 0].getD 2 0, [0, 0, 0, 0].getD 3 0, by decide +kernel⟩,
   ⟨bus (fun b => { b with waiting := true }) a, by decide +kernel⟩,
   ⟨ti (trg 2 (stt 1 1 a)), by decide +kernel⟩,
   ⟨ti (trg 2 (stt 1 1 a)), by decide +kernel⟩⟩

end Recorder

namespace Safety

def sf (f : Saf → Saf) (s : State) : State := {s with saf := f s.saf}
def prs (f r : Nat) (s : State) : State := sf (fun x => {x with press := some f, rise := some r, confirmed := some 0, lockout := true}) {s with cyc := r}
def rt := sf (fun x => {x with retDirty := true, confirmed := some 7}) (on .run)
def ok := sf (fun x => {x with retBytes := x.retBytes, retDirty := false}) (let s := on .run; {s with saf := {s.saf with retBytes := s.retImage}})

theorem witness_SafetyInputsAndTests :
    (∃ (s : State) (ch : Fin 8) (dur : Nat), s.awake = true ∧ s.Settled ∧ s.FreshCycle ∧ s.fb (F.SAF_IN_CFG_en (ch.val % 4)) = true ∧ bitOf s.saf.window ch = false ∧ bitOf (s.f F.SAF_LATCH_in_latch) ch = false ∧ 20 ≤ dur ∧ (s.mode.controls = true ∨ s.mode = .diagnostic))
    ∧ (∃ (s : State) (ch : Fin 8) (dur : Nat), s.awake = true ∧ s.Settled ∧ s.FreshCycle ∧ s.fb (F.SAF_IN_CFG_en (ch.val % 4)) = true ∧ bitOf s.saf.window ch = false ∧ bitOf (s.f F.SAF_LATCH_in_latch) ch = false ∧ 20 ≤ dur ∧ s.mode = .muster)
    ∧ (∃ (s : State) (ch : Fin 8) (dur : Nat), s.awake = true ∧ (dur < 5 ∨ s.fb (F.SAF_IN_CFG_en (ch.val % 4)) = false ∨ bitOf s.saf.window ch = true))
    ∧ (∃ (s : State) (ch : Fin 8) (dur : Nat), s.awake = true ∧ s.Settled ∧ s.FreshCycle ∧ s.fb (F.SAF_IN_CFG_en (ch.val % 4)) = true ∧ bitOf s.saf.window ch = false ∧ bitOf (s.f F.SAF_LATCH_in_latch) ch = false ∧ 5 ≤ dur ∧ dur < 20)
    ∧ (∃ (s : State) (pair : Fin 4) (pins : BitVec 8) (a : _), s.awake = true ∧ s.fb (F.SAF_IN_CFG_en pair) = true ∧ pins.getLsbD pair ≠ pins.getLsbD (pair.val + 4) ∧ s.saf.window = 0 ∧ s.saf.discFrom.getD pair none = some a)
    ∧ (∃ (s : State) (pair : Fin 4) (pins : BitVec 8), s.awake = true ∧ s.saf.window = 0 ∧ pins.getLsbD pair = pins.getLsbD (pair.val + 4))
    ∧ (∃ (s : State) (pair : Fin 4) (pins : BitVec 8), s.awake = true ∧ s.saf.window = 0 ∧ pins.getLsbD pair ≠ pins.getLsbD (pair.val + 4) ∧ s.saf.discFrom.getD pair none = none ∧ s.fb (F.SAF_IN_CFG_en pair) = true ∧ bitOf (s.f F.SAF_LATCH_disc) pair = false)
    ∧ (∃ (s : State), s.awake = true ∧ s.mode.fromConfigure = true ∧ s.f F.SAF_TEST_CFG_tp_interval ≠ 0 ∧ s.saf.tpPhase = 0)
    ∧ (∃ (s : State), s.f F.SAF_TEST_CFG_tp_interval = 0)
    ∧ (∃ (s : State), s.awake = true ∧ s.saf.tpPhase = 1)
    ∧ (∃ (s : State) (ch : Fin 8) (pins : BitVec 8), s.awake = true ∧ s.Settled ∧ s.saf.tpPhase = 2 ∧ s.saf.window = 2 ^ ch.val ∧ pins.getLsbD ch = false ∧ s.saf.windowSeen = 2 ^ ch.val)
    ∧ (∃ (s : State) (ch : Fin 8) (pins : BitVec 8), s.awake = true ∧ s.Settled ∧ s.saf.tpPhase = 2 ∧ s.saf.window = 2 ^ ch.val ∧ pins.getLsbD ch = false ∧ s.saf.windowSeen = 0 ∧ s.fb F.SAF_TEST_CFG_test_fail_trip = false) :=
  ⟨⟨on .precharge, 5, 20, by decide +kernel⟩,
   ⟨on .muster, 5, 20, by decide +kernel⟩,
   ⟨sets (on .run) [(F.SAF_IN_CFG_test_en 1, 1)], 5, 0, by decide +kernel⟩,
   ⟨on .boot, 5, 5, by decide +kernel⟩,
   ⟨sf (fun x => { x with discFrom := [none, some 400, none, some 999999] }) (on .run), Fin.ofNat 4 1, 32, 400, by decide +kernel⟩,
   ⟨sets (on .run) [(F.SAF_IN_CFG_test_en 1, 1)], Fin.ofNat 4 5, 0, by decide +kernel⟩,
   ⟨sets (on .run) [(F.SAF_IN_CFG_test_en 1, 1)], Fin.ofNat 4 5, 32, by decide +kernel⟩,
   ⟨sets (on .run) [(F.SAF_IN_CFG_test_en 1, 1)], by decide +kernel⟩,
   ⟨(on .run).setF F.SAF_TEST_CFG_tp_interval 0, by decide +kernel⟩,
   ⟨sf (fun x => { x with window := 34, tpPhase := 1, tpStart := 999990 }) (on .run), by decide +kernel⟩,
   ⟨sf (fun x => { x with window := 32, windowSeen := 32, tpPhase := 2, tpStart := 5 }) (on .run), 5, 0, by decide +kernel⟩,
   ⟨sf (fun x => { x with window := 32, windowSeen := 0, tpPhase := 2, tpStart := 999998 }) ((on .run).setF F.SAF_TEST_CFG_test_fail_trip 0), 5, 0, by decide +kernel⟩⟩

theorem witness_EdgeResetLatchesAndHistory :
    (∃ (s : State), s.awake = true ∧ s.Alone ∧ s.saf.press = none)
    ∧ (∃ (s : State) (f : Nat), s.awake = true ∧ s.Alone ∧ s.saf.press = some f ∧ s.cyc < f + pressMax ∧ (∀ x, s.saf.rise = some x → s.cyc < x + releaseWait))
    ∧ (∃ (s : State) (f : Nat) (r : Nat) (pins : BitVec 8), s.awake = true ∧ s.Alone ∧ s.saf.press = some f ∧ s.saf.rise = some r ∧ s.fb F.SAF_RESET_STAT_stuck = false ∧ pressMin ≤ r - f ∧ r - f ≤ pressMax ∧ pins = 0 ∧ s.f F.SAF_TEST_STAT_test_fail = 0 ∧ s.tmActive = false ∧ s.fb F.SAF_STAT_arm_low = false ∧ s.fb F.SAF_STAT_ret_err = false ∧ s.mode = .safeBlock ∧ (s.advanceCyc (r + releaseWait)).FreshCycle ∧ (∀ tc < 192, s.tcState tc = tcDormant ∨ s.tcState tc = tcDisabled) ∧ s.saf.confirmed = some (s.rd R.SAF_CHECK) ∧ s.ctl.fatal = true)
    ∧ (∃ (s : State) (f : Nat) (r : Nat) (pins : BitVec 8), s.awake = true ∧ s.Alone ∧ s.saf.press = some f ∧ s.saf.rise = some r ∧ s.fb F.SAF_RESET_STAT_stuck = false ∧ pressMin ≤ r - f ∧ r - f ≤ pressMax ∧ pins = 0 ∧ s.f F.SAF_TEST_STAT_test_fail = 0 ∧ s.tmActive = false ∧ s.fb F.SAF_STAT_arm_low = false ∧ s.fb F.SAF_STAT_ret_err = false ∧ s.mode = .safeBlock ∧ (s.advanceCyc (r + releaseWait)).FreshCycle ∧ (∀ tc < 192, s.tcState tc = tcDormant ∨ s.tcState tc = tcDisabled) ∧ s.saf.confirmed = some (s.rd R.SAF_CHECK) ∧ s.ctl.fatal = false ∧ s.origin = .diagnostic)
    ∧ (∃ (s : State) (f : Nat) (r : Nat) (pins : BitVec 8), s.awake = true ∧ s.Alone ∧ s.saf.press = some f ∧ s.saf.rise = some r ∧ s.fb F.SAF_RESET_STAT_stuck = false ∧ pressMin ≤ r - f ∧ r - f ≤ pressMax ∧ pins = 0 ∧ s.f F.SAF_TEST_STAT_test_fail = 0 ∧ s.tmActive = false ∧ s.fb F.SAF_STAT_arm_low = false ∧ s.fb F.SAF_STAT_ret_err = false ∧ s.mode = .safeBlock ∧ (s.advanceCyc (r + releaseWait)).FreshCycle ∧ (∀ tc < 192, s.tcState tc = tcDormant ∨ s.tcState tc = tcDisabled) ∧ s.saf.confirmed = some (s.rd R.SAF_CHECK) ∧ s.ctl.fatal = false ∧ s.origin ≠ .diagnostic)
    ∧ (∃ (s : State) (f : Nat) (r : Nat) (pins : BitVec 8), s.awake = true ∧ s.Alone ∧ s.saf.press = some f ∧ s.saf.rise = some r ∧ s.fb F.SAF_RESET_STAT_stuck = false ∧ pressMin ≤ r - f ∧ r - f ≤ pressMax ∧ pins = 0 ∧ s.f F.SAF_TEST_STAT_test_fail = 0 ∧ s.tmActive = false ∧ s.fb F.SAF_STAT_arm_low = false ∧ s.fb F.SAF_STAT_ret_err = false ∧ s.mode = .muster ∧ (s.advanceCyc (r + releaseWait)).FreshCycle)
    ∧ (∃ (s : State) (f : Nat) (r : Nat), s.awake = true ∧ s.Alone ∧ s.saf.press = some f ∧ s.saf.rise = some r ∧ s.fb F.SAF_RESET_STAT_stuck = false ∧ pressMin ≤ r - f ∧ r - f ≤ pressMax ∧ s.mode.controls = true)
    ∧ (∃ (s : State) (f : Nat) (r : Nat) (pins : BitVec 8) (ch : Fin 8), s.awake = true ∧ s.Alone ∧ s.saf.press = some f ∧ s.saf.rise = some r ∧ s.fb F.SAF_RESET_STAT_stuck = false ∧ pressMin ≤ r - f ∧ r - f ≤ pressMax ∧ s.mode = .safeBlock ∧ pins.getLsbD ch = true ∧ s.fb (F.SAF_IN_CFG_en (ch.val % 4)) = true)
    ∧ (∃ (s : State) (f : Nat) (r : Nat), s.awake = true ∧ s.Alone ∧ s.saf.press = some f ∧ s.saf.rise = some r ∧ r - f < pressMin)
    ∧ (∃ (s : State) (f : Nat), s.awake = true ∧ s.Alone ∧ s.saf.press = some f ∧ s.saf.rise = none ∧ s.fb F.SAF_RESET_STAT_stuck = false)
    ∧ (∃ (s : State) (m : Master) (j : Nat), s.justAt ≠ s.cyc ∧ s.MayWrite m ∧ j < 8 ∧ (s.mode = .boot ∨ s.mode = .configure ∨ s.mode = .commission ∨ s.mode = .muster))
    ∧ (∃ (s : State) (m : Master), s.justAt ≠ s.cyc ∧ s.MayWrite m ∧ (s.mode.controls = true ∨ s.mode = .safeBlock ∨ s.mode = .diagnostic))
    ∧ (∃ (s : State) (m : Master) (j : Nat), s.justAt ≠ s.cyc ∧ s.MayWrite m ∧ j < 11)
    ∧ (∃ (s : State) (m : Master) (j : Nat), s.justAt ≠ s.cyc ∧ s.MayWrite m ∧ 11 ≤ j)
    ∧ (∃ (s : State), s.justAt ≠ s.cyc ∧ s.saf.retDirty = true)
    ∧ (∃ (s : State), s.justAt ≠ s.cyc ∧ s.saf.retDirty = false)
    ∧ (∃ (s : State) (bs : List Byte), s.justAt ≠ s.cyc ∧ s.awake = true ∧ retOk bs = false ∧ s.fb F.SAF_STAT_ret_err = false)
    ∧ (∃ (s : State) (bs : List Byte), s.justAt ≠ s.cyc ∧ s.awake = true ∧ retOk bs = true) :=
  ⟨⟨on .boot, by decide +kernel⟩,
   ⟨sf (fun x => { x with press := some 5, rise := none }) (on .boot), 5, by decide +kernel⟩,
   ⟨prs 1000 12501000 ({ mapped (on .safeBlock) with origin := .run, ctl := { (on .safeBlock).ctl with fatal := true } }), 1000, 12501000, 0, by decide +kernel⟩,
   ⟨prs 1000 12501000 ({ on .safeBlock with origin := .diagnostic }), 1000, 12501000, 0, by decide +kernel⟩,
   ⟨prs 1000 12501000 (on .safeBlock), 1000, 12501000, 0, by decide +kernel⟩,
   ⟨prs 1000 12501000 (on .muster), 1000, 12501000, 0, by decide +kernel⟩,
   ⟨prs 1000 12501000 (on .precharge), 1000, 12501000, by decide +kernel⟩,
   ⟨prs 1000 12501000 (on .safeBlock), 1000, 12501000, 32, 5, by decide +kernel⟩,
   ⟨sf (fun x => { x with press := some 5, rise := some 7 }) { on .boot with cyc := 500000 }, 5, 7, by decide +kernel⟩,
   ⟨sf (fun x => { x with press := some 5, rise := none }) (on .boot), 5, by decide +kernel⟩,
   ⟨(on .boot).setF F.SAF_LATCH_in_latch 175, .port0, 0, by decide +kernel⟩,
   ⟨(on .precharge).setF F.SAF_LATCH_in_latch 175, .port0, by decide +kernel⟩,
   ⟨(on .boot).setF F.SAF_LATCH_in_latch 175, .port0, 0, by decide +kernel⟩,
   ⟨(on .boot).setF F.SAF_LATCH_in_latch 175, .port0, 11, by decide +kernel⟩,
   ⟨rt, by decide +kernel⟩,
   ⟨(on .boot).setF F.SAF_LATCH_in_latch 175, by decide +kernel⟩,
   ⟨(on .boot).setF F.SAF_LATCH_in_latch 175, [], by decide +kernel⟩,
   ⟨ok, State.retImage ok, by decide +kernel⟩⟩

end Safety

namespace Redundancy

def pr (f : Pair → Pair) (s : State) : State := {s with pair := f s.pair}
def paird (m : Mode) (drive sense : Nat) : State := sets (mapped (on m)) [(F.RED_CFG_pair_en, 1), (F.RED_STAT_drive, drive), (F.RED_STAT_sense, sense), (F.RED_TF_theta, 77), (F.LPHY_MIR_STAT_bonded, 1)]
def per (o : Nat) (s : State) : State := { s with now := { ns := s.boundary 10 + o, frac := 7 }, seq := { s.seq with running := true, started := true, next := 11, planComplete := true } }
def mf (kind period side : Nat) (blocks : List Nat) : MirFrame :=
  let tag := leBytes 1 (kind*16+1) ++ leBytes 1 (side*8) ++ leBytes 2 period ++ leBytes 2 blocks.length ++ [0]
  let bl := blocks.map (BitVec.ofNat 64)
  { tag := tag, blocks := bl, crc := BitVec.ofNat 32 (crc32c (tag ++ bl.flatMap (fun b => leBytes 8 b.toNat))) }
def st6 (n flags dg : Nat) (l : Nat) := mf 4 10 1 [n + flags * 2^32, dg, 5, 6, 7, l]
def tfF (n t4 : Nat) := mf 4 10 1 [n, 0, 5, (t4 + 2560000) / 256, t4 % 256 * 256, 0]
def fol (t1 t2 t3 run : Nat) (s : State) : State := pr (fun p => {p with partnerTx := some (9, t1), partnerRx := [(9, t2)], ownTx := [(10, 2560077), (9, t3 + 2560000)], tfRun := run}) s
def lk (s : State) : State := s.setF F.RED_STAT_tf_locked 1
def H : State := per 500 (paird .run 2 1)
def N : State := per 500 (sets (paird .shadow 1 2) [(F.RED_STAT_in_step, 1)])
def it (k : Nat) (n : Nat) : MirItem := { kind := k, source := 0, ns := 55, payload := List.replicate n 7, index := none, ord := 0 }
def inp (n k : Nat) := mf 5 n 1 ((n + k * 2^32) :: (List.range 16))
def open' (s : State) := pr (fun p => {p with joinOpen := true, wantSent := 0}) s
def jd (k : Nat) := mf 6 10 1 (List.range k)
def bigMap (s : State) := sets s ((List.range 8).flatMap (fun l => [(F.GLB_LANE_MAP_topology l, 1), (F.GLB_LANE_MAP_count l, 64), (F.GLB_LANE_MAP_split l, 64)]))
def wantS (w : Nat) (s : State) := pr (fun p => {p with statusSeen := true, status := [w * 2^44]}) s
def ent : List Byte := leBytes 1 3 ++ leBytes 1 0 ++ leBytes 2 48 ++ leBytes 4 1 ++ leBytes 4 (grnSize - 48) ++ List.replicate 4 0 ++ (List.range 48).map (fun i => BitVec.ofNat 8 (i + 1))
def dis (s : State) : State := sets s ((List.range 192).map (fun t => (F.SCH_TC_STAT_state t, tcDisabled)))
def mi (it : List MirItem) : MirInput := { period := 10, snapshot := List.replicate 16 0, items := it, flags := 0 }
def eI : MirItem := { kind := 4, source := 0, ns := 9, payload := ent, index := some 3, ord := 1 }

theorem witness_InterlockAndToken :
    (∃ (s : State) (r : Fin 3), s.sense = r)
    ∧ (∃ (s : State) (r : Fin 3), s.sense ≠ r ∧ s.paired = true ∧ s.sense = 2 ∧ r.val = 1 ∧ s.mode = .shadow ∧ s.fb F.RED_STAT_in_step = true ∧ s.frozen = false ∧ s.drive ≠ 2)
    ∧ (∃ (s : State) (r : Fin 3), s.sense ≠ r ∧ s.paired = true ∧ r.val = 2 ∧ s.drive = 2 ∧ (s.side ≠ s.f F.RED_CFG_first_side ∨ s.pair.partnerSide = some s.side))
    ∧ (∃ (s : State) (r : Fin 3), s.sense ≠ r ∧ s.paired = true ∧ r.val = 2 ∧ s.drive = 2 ∧ s.side = s.f F.RED_CFG_first_side ∧ s.pair.partnerSide ≠ some s.side)
    ∧ (∃ (s : State) (r : Fin 3), s.sense ≠ r ∧ (s.paired = false ∨ (s.mode ≠ .shadow ∧ s.drive ≠ 2)))
    ∧ (∃ (s : State), s.paired = true ∧ (s.mode = .muster ∨ s.mode = .precharge ∨ s.mode = .ready) ∧ s.frozen = false ∧ s.sense ≠ 2 ∧ s.drive ≠ 2)
    ∧ (∃ (s : State), (s.paired = false ∨ s.frozen = true ∨ s.sense = 2 ∨ s.drive = 2 ∨ ¬ (s.mode = .muster ∨ s.mode = .precharge ∨ s.mode = .ready)))
    ∧ (∃ (s : State) (a : _) (b : _), s.pair.openAt = some a ∧ s.lostSecond = some b ∧ s.paired = true ∧ s.mode = .shadow ∧ s.fb F.RED_STAT_eligible = true ∧ s.frozen = false ∧ s.pair.stepBefore = true ∧ s.sense = 0 ∧ s.drive ≠ 2)
    ∧ (∃ (s : State), (s.pair.openAt = none ∨ s.lostSecond = none ∨ s.paired = false ∨ s.mode ≠ .shadow ∨ s.fb F.RED_STAT_eligible = false ∨ s.frozen = true ∨ s.pair.stepBefore = false ∨ s.sense ≠ 0 ∨ s.drive = 2))
    ∧ (∃ (s : State) (a : _), s.pair.openAt = some a ∧ s.paired = true ∧ s.sense = 0 ∧ s.bonded = true ∧ s.pair.openBonded = true ∧ s.pair.blockLast.any (fun b => decide (a ≤ b)) = false ∧ s.frozen = false)
    ∧ (∃ (s : State), (s.pair.openAt = none ∨ s.paired = false ∨ s.sense ≠ 0 ∨ s.bonded = false ∨ s.pair.openBonded = false ∨ s.frozen = true))
    ∧ (∃ (s : State) (a : _) (b : _), s.pair.openAt = some a ∧ s.pair.blockLast = some b ∧ a ≤ b)
    ∧ (∃ (s : State), s.sense ≠ 0 ∧ s.frozen = true)
    ∧ (∃ (s : State), (s.sense = 0 ∨ s.frozen = false))
    ∧ (∃ (s : State) (m : Master), s.MayWrite m ∧ s.holder = true)
    ∧ (∃ (s : State) (m : Master), s.MayWrite m ∧ s.holder = false)
    ∧ (∃ (s : State) (m : Master), s.MayWrite m ∧ s.paired = true ∧ s.holder = false)
    ∧ (∃ (s : State) (m : Master), s.MayWrite m ∧ (s.paired = false ∨ s.holder = true)) :=
  ⟨⟨paird .muster 0 0, 0, by decide +kernel⟩,
   ⟨sets (paird .shadow 0 2) [(F.RED_STAT_in_step, 1), (F.RED_STAT_eligible, 1)], 1, by decide +kernel⟩,
   ⟨sets (paird .muster 2 0) [(F.RED_CFG_first_side, 1)], 2, by decide +kernel⟩,
   ⟨paird .muster 2 0, 2, by decide +kernel⟩,
   ⟨paird .muster 0 0, 1, by decide +kernel⟩,
   ⟨paird .muster 0 0, by decide +kernel⟩,
   ⟨sets (paird .muster 0 0) [(F.RED_STAT_frozen, 1)], by decide +kernel⟩,
   ⟨pr (fun p => { p with openAt := some 999700, closedAt := 77, bondAt := some 999900, stepBefore := true }) (sets (paird .shadow 0 0) [(F.RED_STAT_in_step, 1), (F.RED_STAT_eligible, 1), (F.LPHY_MIR_STAT_bonded, 0)]), 999700, 999900, by decide +kernel⟩,
   ⟨paird .muster 0 0, by decide +kernel⟩,
   ⟨pr (fun p => { p with statusCyc := some 300, openAt := some 500, openBonded := true }) (paird .muster 0 0), 500, by decide +kernel⟩,
   ⟨paird .muster 0 0, by decide +kernel⟩,
   ⟨pr (fun p => { p with openAt := some 500, bondAt := some 400, stepBefore := true, openBonded := true, blockAt := some 5000, blockLast := some 5000 }) (sets (runs (paird .muster 0 0) 7777) [(F.RED_STAT_eligible, 1)]), 500, 5000, by decide +kernel⟩,
   ⟨sets (paird .muster 0 1) [(F.RED_STAT_frozen, 1)], by decide +kernel⟩,
   ⟨paird .muster 0 0, by decide +kernel⟩,
   ⟨paird .muster 2 0, .port0, by decide +kernel⟩,
   ⟨paird .muster 0 0, .port0, by decide +kernel⟩,
   ⟨paird .muster 0 0, .port0, by decide +kernel⟩,
   ⟨sets (paird .muster 0 0) [(F.RED_CFG_pair_en, 0)], .port0, by decide +kernel⟩⟩

theorem witness_MirrorFramesAndInputs :
    (∃ (s : State), s.rxLooped 48 = false ∧ s.rxLooped 49 = false ∧ s.fb F.LPHY_MIR_STAT_swapped = false)
    ∧ (∃ (s : State), s.rxLooped 48 = false ∧ s.rxLooped 49 = false ∧ s.fb F.LPHY_MIR_STAT_swapped = true)
    ∧ (∃ (s : State) (x : MirRx), s.paired = true ∧ s.seq.running = true ∧ s.pair.txTurn = false ∧ s.pair.ownTx.any (fun x => x.1 == s.periodFull) = false ∧ s.laneCoded 48 = true ∧ s.laneCoded 49 = true)
    ∧ (∃ (s : State) (x : MirRx), (s.paired = false ∨ s.seq.running = false ∨ s.pair.txTurn = true ∨ s.pair.ownTx.any (fun x => x.1 == s.periodFull) = true))
    ∧ (∃ (s : State) (f : MirFrame) (x : MirRx), s.paired = true ∧ s.bonded = true ∧ (s.takeMirror x).1 = some f ∧ mirValid 4 f = true ∧ f.blocks.length = 6 ∧ s.following = false ∧ s.drive = 2 ∧ s.sense = 2 ∧ bitsOf (fieldAt f.tag 1 1) 3 3 = s.side)
    ∧ (∃ (s : State) (f : MirFrame) (x : MirRx), s.paired = true ∧ s.bonded = true ∧ (s.takeMirror x).1 = some f ∧ mirValid 4 f = true ∧ f.blocks.length = 6 ∧ s.following = false ∧ (s.drive ≠ 2 ∨ s.sense ≠ 2) ∧ bitsOf (fieldAt f.tag 1 1) 3 3 = s.side)
    ∧ (∃ (s : State) (f : MirFrame) (x : MirRx), s.paired = true ∧ s.bonded = true ∧ (s.takeMirror x).1 = some f ∧ mirValid 4 f = true ∧ f.blocks.length = 6 ∧ s.following = false ∧ (s.drive ≠ 2 ∨ s.sense ≠ 2) ∧ bitsOf (word (f.blocks.map BitVec.toNat) 0) 31 0 = s.periodNum ∧ bitOf (word (f.blocks.map BitVec.toNat) 0) 40 = false ∧ s.digestInvalid = false ∧ s.plan.digest = word (f.blocks.map BitVec.toNat) 1)
    ∧ (∃ (s : State) (f : MirFrame) (x : MirRx), s.paired = true ∧ s.bonded = true ∧ (s.takeMirror x).1 = some f ∧ mirValid 4 f = true ∧ f.blocks.length = 6 ∧ s.following = false ∧ (s.drive ≠ 2 ∨ s.sense ≠ 2) ∧ bitsOf (word (f.blocks.map BitVec.toNat) 0) 31 0 = s.periodNum ∧ bitOf (word (f.blocks.map BitVec.toNat) 0) 40 = false ∧ s.digestInvalid = false ∧ s.plan.digest ≠ word (f.blocks.map BitVec.toNat) 1 ∧ s.holder = false)
    ∧ (∃ (s : State) (f : MirFrame) (x : MirRx) (t1 : _) (t2 : _) (t3 : _), s.pair.partnerTx = some (s.periodFull - 1, t1) ∧ s.pair.partnerRx.find? (fun x => x.1 + 1 == s.periodFull) = some (s.periodFull - 1, t2) ∧ s.pair.ownTx.find? (fun x => x.1 + 1 == s.periodFull) = some (s.periodFull - 1, t3) ∧ s.following = true ∧ s.bonded = true ∧ (s.takeMirror x).1 = some f ∧ mirValid 4 f = true ∧ f.blocks.length = 6 ∧ s.drive ≠ 2 ∧ 1 ≤ s.periodFull ∧ bitsOf (word (f.blocks.map BitVec.toNat) 0) 31 0 = s.periodNum ∧ word (f.blocks.map BitVec.toNat) 3 ≠ 0 ∧ (((t2 : Int) - t1) - (((instantOf (word (f.blocks.map BitVec.toNat) 3) * 256 + bitsOf (word (f.blocks.map BitVec.toNat) 4) 15 8) : Int) - t3) - s.asymTerm * 32).natAbs < 2 ^ 36 ∧ 5 * 512 < (((t2 : Int) - t1) - (((instantOf (word (f.blocks.map BitVec.toNat) 3) * 256 + bitsOf (word (f.blocks.map BitVec.toNat) 4) 15 8) : Int) - t3) - s.asymTerm * 32).natAbs ∧ s.fb F.RED_STAT_tf_locked = true)
    ∧ (∃ (s : State) (f : MirFrame) (x : MirRx) (t1 : _) (t2 : _) (t3 : _), s.pair.partnerTx = some (s.periodFull - 1, t1) ∧ s.pair.partnerRx.find? (fun x => x.1 + 1 == s.periodFull) = some (s.periodFull - 1, t2) ∧ s.pair.ownTx.find? (fun x => x.1 + 1 == s.periodFull) = some (s.periodFull - 1, t3) ∧ s.following = true ∧ s.bonded = true ∧ (s.takeMirror x).1 = some f ∧ mirValid 4 f = true ∧ f.blocks.length = 6 ∧ s.drive ≠ 2 ∧ 1 ≤ s.periodFull ∧ bitsOf (word (f.blocks.map BitVec.toNat) 0) 31 0 = s.periodNum ∧ word (f.blocks.map BitVec.toNat) 3 ≠ 0 ∧ (((t2 : Int) - t1) - (((instantOf (word (f.blocks.map BitVec.toNat) 3) * 256 + bitsOf (word (f.blocks.map BitVec.toNat) 4) 15 8) : Int) - t3) - s.asymTerm * 32).natAbs < 2 ^ 36 ∧ (((t2 : Int) - t1) - (((instantOf (word (f.blocks.map BitVec.toNat) 3) * 256 + bitsOf (word (f.blocks.map BitVec.toNat) 4) 15 8) : Int) - t3) - s.asymTerm * 32).natAbs ≤ 5 * 512 ∧ (((t2 : Int) - t1) - (((instantOf (word (f.blocks.map BitVec.toNat) 3) * 256 + bitsOf (word (f.blocks.map BitVec.toNat) 4) 15 8) : Int) - t3) - s.asymTerm * 32).natAbs ≤ 512 ∧ 15 ≤ s.pair.tfRun)
    ∧ (∃ (s : State), (s.paired = false ∨ s.bonded = false))
    ∧ (∃ (s : State) (f : MirFrame) (x : MirRx), s.paired = true ∧ s.bonded = true ∧ ((s.takeMirror x).1 = none ∨ ((s.takeMirror x).1 = some f ∧ (mirValid 4 f = false ∨ f.blocks.length ≠ 6))))
    ∧ (∃ (s : State), s.holder = true ∧ s.seq.running = true ∧ s.pair.input = none ∧ s.pair.mirDone = false ∧ s.laneCoded 48 = true ∧ s.laneCoded 49 = true)
    ∧ (∃ (s : State), (s.holder = false ∨ s.seq.running = false ∨ s.pair.input ≠ none ∨ s.pair.mirDone = true))
    ∧ (∃ (s : State) (f : MirFrame) (x : MirRx), s.paired = true ∧ s.holder = false ∧ s.bonded = true ∧ s.seq.running = true ∧ s.pair.input = none ∧ (s.takeMirror x).1 = some f ∧ mirValid 5 f = true ∧ 17 ≤ f.blocks.length ∧ fieldAt f.tag 2 2 = s.periodFull % 65536 ∧ s.nowUnits ≤ s.mirrorPoint * 2 ^ 32 ∧ s.pair.mirDone = false)
    ∧ (∃ (s : State) (f : MirFrame) (x : MirRx), s.paired = true ∧ s.holder = false ∧ s.bonded = true ∧ s.seq.running = true ∧ s.pair.input = none ∧ (s.takeMirror x).1 = some f ∧ (mirValid 5 f = false ∨ f.blocks.length < 17 ∨ fieldAt f.tag 2 2 ≠ s.periodFull % 65536 ∨ s.mirrorPoint * 2 ^ 32 < s.nowUnits ∨ s.pair.mirDone = true))
    ∧ (∃ (s : State) (e : _) (i : _) (a : _) (k : _) (it : MirItem) (c : MirInput), s.seq.running = true ∧ s.seq.started = true ∧ s.pair.mirDone = false ∧ s.pair.input = some c ∧ c.items = [it] ∧ it.kind = 4 ∧ it.payload = e ∧ it.index = some i ∧ e.length = 64 ∧ fieldAt e 0 1 = 3 ∧ fieldAt e 8 4 = a ∧ fieldAt e 2 2 = k ∧ k ≤ 48 ∧ a + k ≤ grnSize ∧ s.fb F.RED_MIR_BASE_en = false ∧ s.hif.mboxGo = none ∧ s.sched.limitHit = false ∧ (∀ tc < 192, s.tcState tc = tcDisabled))
    ∧ (∃ (s : State), s.seq.running = true ∧ s.seq.started = true ∧ s.pair.mirDone = false ∧ s.paired = true ∧ s.holder = false ∧ s.pair.input = none)
    ∧ (∃ (s : State), (s.seq.running = false ∨ s.seq.started = false ∨ s.pair.mirDone = true))
    ∧ (∃ (s : State) (want : _), want = bitsOf (word s.pair.status 0) 47 44 ∧ s.holder = true ∧ s.seq.running = true ∧ s.pair.status ≠ [] ∧ want < 12 ∧ s.armEnabled want = true ∧ s.laneCoded 48 = true ∧ s.laneCoded 49 = true ∧ ((s.advanceTo (s.pN + s.f F.GLB_ORDER_OFFSET_order_offset_steps * 5 + 1500)).advanceCyc ((s.advanceTo (s.pN + s.f F.GLB_ORDER_OFFSET_order_offset_steps * 5 + 1500)).mirrorFree (s.nInstalled want + 1))).nowUnits * 5 + (2 * s.nInstalled want + 2) * (16 * 2 ^ 32) < (s.pN + s.periodNs + 400) * (5 * 2 ^ 32))
    ∧ (∃ (s : State) (want : _), want = bitsOf (word s.pair.status 0) 47 44 ∧ s.holder = true ∧ s.seq.running = true ∧ s.pair.status ≠ [] ∧ want < 12 ∧ s.armEnabled want = true ∧ s.laneCoded 48 = true ∧ s.laneCoded 49 = true ∧ (s.pN + s.periodNs + 400) * (5 * 2 ^ 32) ≤ ((s.advanceTo (s.pN + s.f F.GLB_ORDER_OFFSET_order_offset_steps * 5 + 1500)).advanceCyc ((s.advanceTo (s.pN + s.f F.GLB_ORDER_OFFSET_order_offset_steps * 5 + 1500)).mirrorFree (s.nInstalled want + 1))).nowUnits * 5 + (2 * s.nInstalled want + 2) * (16 * 2 ^ 32))
    ∧ (∃ (s : State), (s.holder = false ∨ s.seq.running = false ∨ s.pair.status = [] ∨ 12 ≤ bitsOf (word s.pair.status 0) 47 44 ∨ s.armEnabled (bitsOf (word s.pair.status 0) 47 44) = false))
    ∧ (∃ (s : State) (f : MirFrame) (x : MirRx), s.paired = true ∧ s.holder = false ∧ s.bonded = true ∧ (s.takeMirror x).1 = some f ∧ mirValid 6 f = true ∧ s.pair.wantSent < 12 ∧ s.pair.joinOpen = true ∧ f.blocks.length = 2 * s.nInstalled s.pair.wantSent)
    ∧ (∃ (s : State) (f : MirFrame) (x : MirRx), s.paired = true ∧ s.holder = false ∧ s.bonded = true ∧ (s.takeMirror x).1 = some f ∧ (mirValid 6 f = false ∨ 12 ≤ s.pair.wantSent ∨ s.pair.joinOpen = false ∨ f.blocks.length ≠ 2 * s.nInstalled s.pair.wantSent))
    ∧ (∃ (s : State), (s.paired = false ∨ s.holder = true ∨ s.bonded = false))
    ∧ (∃ (s : State) (m : Master) (g : Fin 16), s.MayWrite m ∧ s.holder = true ∧ 6 ≤ g.val ∧ g.val ≤ 8 ∧ s.seq.running = true)
    ∧ (∃ (s : State) (m : Master) (g : Fin 16), s.MayWrite m ∧ s.holder = true ∧ 6 ≤ g.val ∧ g.val ≤ 8 ∧ s.seq.running = false)
    ∧ (∃ (s : State) (m : Master) (g : Fin 16), s.MayWrite m ∧ (s.holder = false ∨ g.val < 6 ∨ 8 < g.val)) :=
  ⟨⟨pr (fun p => { p with partnerRx := [(9, 5000)] }) N, by decide +kernel⟩,
   ⟨State.setF N F.LPHY_MIR_STAT_swapped 1, by decide +kernel⟩,
   ⟨pr (fun p => { p with partnerRx := [(9, 5000)] }) N, have d := distribute (pr (fun p => { p with partnerRx := [(9, 5000)] }) N).pair.rxTurn (tfF 10 102).asBlocks; { mir0 := d.1, mir1 := d.2 }, by decide +kernel⟩,
   ⟨{ per 500 H with seq := { (per 500 H).seq with running := false } }, have d := distribute ({ per 500 H with seq := { (per 500 H).seq with running := false } }).pair.rxTurn (st6 10 0 5 0).asBlocks; { mir0 := d.1, mir1 := d.2 }, by decide +kernel⟩,
   ⟨sets H [(F.RED_STAT_sense, 2)], mf 4 10 0 [10, 0, 1, 2, 3, 4], have d := distribute (sets H [(F.RED_STAT_sense, 2)]).pair.rxTurn (mf 4 10 0 [10, 0, 1, 2, 3, 4]).asBlocks; { mir0 := d.1, mir1 := d.2 }, by decide +kernel⟩,
   ⟨H, mf 4 10 0 [10, 0, 1, 2, 3, 4], have d := distribute H.pair.rxTurn (mf 4 10 0 [10, 0, 1, 2, 3, 4]).asBlocks; { mir0 := d.1, mir1 := d.2 }, by decide +kernel⟩,
   ⟨pr (fun p => { p with partnerRx := [(8, 3), (9, 500000)] }) H, tfF 10 102, have d := distribute (pr (fun p => { p with partnerRx := [(8, 3), (9, 500000)] }) H).pair.rxTurn (tfF 10 102).asBlocks; { mir0 := d.1, mir1 := d.2 }, by decide +kernel⟩,
   ⟨{ N with seq := { N.seq with running := false, planComplete := true }, mode := .run }, st6 10 0 5 0, have d := distribute ({ N with seq := { N.seq with running := false, planComplete := true }, mode := .run }).pair.rxTurn (st6 10 0 5 0).asBlocks; { mir0 := d.1, mir1 := d.2 }, by decide +kernel⟩,
   ⟨fol 100 5000 90 15 (lk N), tfF 10 102, have d := distribute (fol 100 5000 90 15 (lk N)).pair.rxTurn (tfF 10 102).asBlocks; { mir0 := d.1, mir1 := d.2 }, 100, 5000, 2560090, by decide +kernel⟩,
   ⟨fol 100 110 90 15 N, tfF 10 100, have d := distribute (fol 100 110 90 15 N).pair.rxTurn (tfF 10 100).asBlocks; { mir0 := d.1, mir1 := d.2 }, 100, 110, 2560090, by decide +kernel⟩,
   ⟨on .run, by decide +kernel⟩,
   ⟨H, { st6 10 0 77 0 with crc := 0 }, have d := distribute H.pair.rxTurn ({ st6 10 0 77 0 with crc := 0 }).asBlocks; { mir0 := d.1, mir1 := d.2 }, by decide +kernel⟩,
   ⟨pr (fun p => { p with partnerRx := [(8, 3), (9, 500000)] }) H, by decide +kernel⟩,
   ⟨pr (fun p => { p with partnerRx := [(9, 5000)] }) N, by decide +kernel⟩,
   ⟨N, inp 10 0, (fun d => { mir0 := d.1, mir1 := d.2 }) (distribute false (inp 10 0).asBlocks), by decide +kernel⟩,
   ⟨pr (fun p => { p with partnerRx := [(9, 5000)] }) N, tfF 10 102, have d := distribute (pr (fun p => { p with partnerRx := [(9, 5000)] }) N).pair.rxTurn (tfF 10 102).asBlocks; { mir0 := d.1, mir1 := d.2 }, by decide +kernel⟩,
   ⟨dis (pr (fun p => { p with input := some (mi [eI]) }) H), [0x03#8, 0x00#8, 0x30#8, 0x00#8, 0x01#8, 0x00#8, 0x00#8, 0x00#8, 0xd0#8, 0xff#8, 0xff#8, 0x03#8, 0x00#8, 0x00#8, 0x00#8, 0x00#8, 0x01#8, 0x02#8, 0x03#8, 0x04#8, 0x05#8, 0x06#8, 0x07#8, 0x08#8, 0x09#8, 0x0a#8, 0x0b#8, 0x0c#8, 0x0d#8, 0x0e#8, 0x0f#8, 0x10#8, 0x11#8, 0x12#8, 0x13#8, 0x14#8, 0x15#8, 0x16#8, 0x17#8, 0x18#8, 0x19#8, 0x1a#8, 0x1b#8, 0x1c#8, 0x1d#8, 0x1e#8, 0x1f#8, 0x20#8, 0x21#8, 0x22#8, 0x23#8, 0x24#8, 0x25#8, 0x26#8, 0x27#8, 0x28#8, 0x29#8, 0x2a#8, 0x2b#8, 0x2c#8, 0x2d#8, 0x2e#8, 0x2f#8, 0x30#8], 3, 67108816, 48, { kind := 4,  source := 0,  ns := 9,  payload := [0x03#8,        0x00#8,        0x30#8,        0x00#8,        0x01#8,        0x00#8,        0x00#8,        0x00#8,        0xd0#8,        0xff#8,        0xff#8,        0x03#8,        0x00#8,        0x00#8,        0x00#8,        0x00#8,        0x01#8,        0x02#8,        0x03#8,        0x04#8,        0x05#8,        0x06#8,        0x07#8,        0x08#8,        0x09#8,        0x0a#8,        0x0b#8,        0x0c#8,        0x0d#8,        0x0e#8,        0x0f#8,        0x10#8,        0x11#8,        0x12#8,        0x13#8,        0x14#8,        0x15#8,        0x16#8,        0x17#8,        0x18#8,        0x19#8,        0x1a#8,        0x1b#8,        0x1c#8,        0x1d#8,        0x1e#8,        0x1f#8,        0x20#8,        0x21#8,        0x22#8,        0x23#8,        0x24#8,        0x25#8,        0x26#8,        0x27#8,        0x28#8,        0x29#8,        0x2a#8,        0x2b#8,        0x2c#8,        0x2d#8,        0x2e#8,        0x2f#8,        0x30#8],  index := some 3,  ord := 1 }, { period := 10,  snapshot := [0, 0, 0, 0, 0, 0, 0, 0, 0, 0, 0, 0, 0, 0, 0, 0],  items := [{ kind := 4,        source := 0,        ns := 9,        payload := [0x03#8,              0x00#8,              0x30#8,              0x00#8,              0x01#8,              0x00#8,              0x00#8,              0x00#8,              0xd0#8,              0xff#8,              0xff#8,              0x03#8,              0x00#8,              0x00#8,              0x00#8,              0x00#8,              0x01#8,              0x02#8,              0x03#8,              0x04#8,              0x05#8,              0x06#8,              0x07#8,              0x08#8,              0x09#8,              0x0a#8,              0x0b#8,              0x0c#8,              0x0d#8,              0x0e#8,              0x0f#8,              0x10#8,              0x11#8,              0x12#8,              0x13#8,              0x14#8,              0x15#8,              0x16#8,              0x17#8,              0x18#8,              0x19#8,              0x1a#8,              0x1b#8,              0x1c#8,              0x1d#8,              0x1e#8,              0x1f#8,              0x20#8,              0x21#8,              0x22#8,              0x23#8,              0x24#8,              0x25#8,              0x26#8,              0x27#8,              0x28#8,              0x29#8,              0x2a#8,              0x2b#8,              0x2c#8,              0x2d#8,              0x2e#8,              0x2f#8,              0x30#8],        index := some 3,        ord := 1 }],  flags := 0 }, by decide +kernel⟩,
   ⟨pr (fun p => { p with partnerRx := [(9, 5000)] }) N, by decide +kernel⟩,
   ⟨{ per 500 H with seq := { (per 500 H).seq with running := false } }, by decide +kernel⟩,
   ⟨wantS 0 H, 0, by decide +kernel⟩,
   ⟨per 30000 (wantS 0 (bigMap H)), 0, by decide +kernel⟩,
   ⟨pr (fun p => { p with partnerRx := [(9, 5000)] }) N, by decide +kernel⟩,
   ⟨open' N, jd 8, (fun d => { mir0 := d.1, mir1 := d.2 }) (distribute false (jd 8).asBlocks), by decide +kernel⟩,
   ⟨pr (fun p => { p with partnerRx := [(9, 5000)] }) N, tfF 10 102, have d := distribute (pr (fun p => { p with partnerRx := [(9, 5000)] }) N).pair.rxTurn (tfF 10 102).asBlocks; { mir0 := d.1, mir1 := d.2 }, by decide +kernel⟩,
   ⟨pr (fun p => { p with partnerRx := [(8, 3), (9, 500000)] }) H, by decide +kernel⟩,
   ⟨H, .port0, 6, by decide +kernel⟩,
   ⟨{ per 500 H with seq := { (per 500 H).seq with running := false } }, .port0, 8, by decide +kernel⟩,
   ⟨pr (fun p => { p with partnerRx := [(9, 5000)] }) N, .port0, 5, by decide +kernel⟩⟩

end Redundancy

namespace Time

def tm (f : Tim → Tim) (s : State) : State := {s with tim := f s.tim}
def at_ (n fr : Nat) (s : State) : State := {s with now := ⟨n, fr⟩}
def of (d : Int) (s : State) := sets s [(F.TIM_OFS_NS_ofs_ns, twos 32 d)]
def folw (s : State) := sets (runs s 12345678) [(F.RED_CFG_pair_en, 1), (F.RED_STAT_drive, 1)]
def due (s : State) : State := { s with now := ⟨s.boundary 5, 0⟩, seq := { s.seq with running := true, started := true, next := 5 } }
def hold (s : State) := sets s [(F.RED_CFG_pair_en, 1), (F.RED_STAT_drive, 2)]
def sl (r : Int) (s : State) := (tm (fun t => {t with rem := r}) s).setF F.TIM_STAT_slewing 1
def rq13 (fl rate ofs fr : Nat) : List Byte := leBytes 4 9 ++ leBytes 4 rate ++ leBytes 4 ofs ++ leBytes 1 fr ++ leBytes 1 fl ++ leBytes 2 0
def pend (b : List Byte) (s : State) := tm (fun t => {t with reqPend := some b, reqSeq := some 9}) s

theorem witness_TimebaseOffsetsAndSlews :
    (∃ (s : State) (v : W32) (d : Int) (w : _) (j : _), d = sx 32 (s.f F.TIM_OFS_NS_ofs_ns) * 256 + (v.toNat % 256 : Nat) ∧ s.Runs ∧ s.nowUnits < w ∧ s.cyc + j < (s.advanceToU w).cyc)
    ∧ (∃ (s : State) (m : Master) (v : W32) (d : Int), d = sx 32 (s.f F.TIM_OFS_NS_ofs_ns) * 256 + (v.toNat % 256 : Nat) ∧ s.MayWrite m ∧ s.tickDue = true)
    ∧ (∃ (s : State) (m : Master) (v : W32) (d : Int), d = sx 32 (s.f F.TIM_OFS_NS_ofs_ns) * 256 + (v.toNat % 256 : Nat) ∧ s.MayWrite m ∧ s.tickDue = false ∧ s.mode.timEarly = false ∧ s.mode.timMiddle = false ∧ s.f F.TIM_STEP_THR_step_thr * 256 < d.natAbs)
    ∧ (∃ (s : State) (m : Master) (v : W32) (d : Int), d = sx 32 (s.f F.TIM_OFS_NS_ofs_ns) * 256 + (v.toNat % 256 : Nat) ∧ s.MayWrite m ∧ s.tickDue = false ∧ s.mode.timMiddle = true ∧ s.f F.TIM_STEP_THR_step_thr * 256 < d.natAbs ∧ v.getLsbD 29 = false ∧ 4000000 * 256 < d.natAbs)
    ∧ (∃ (s : State) (m : Master) (v : W32) (d : Int), d = sx 32 (s.f F.TIM_OFS_NS_ofs_ns) * 256 + (v.toNat % 256 : Nat) ∧ s.MayWrite m ∧ s.tickDue = false ∧ s.following = true ∧ d.natAbs ≤ s.f F.TIM_STEP_THR_step_thr * 256)
    ∧ (∃ (s : State) (m : Master) (v : W32) (d : Int), d = sx 32 (s.f F.TIM_OFS_NS_ofs_ns) * 256 + (v.toNat % 256 : Nat) ∧ s.MayWrite m ∧ s.tickDue = false ∧ s.following = false ∧ (s.mode.timEarly = true ∨ (s.mode.timMiddle = true ∧ d.natAbs ≤ 4000000 * 256)) ∧ s.f F.TIM_STEP_THR_step_thr * 256 < d.natAbs ∧ v.getLsbD 29 = false ∧ 0 ≤ (s.nowUnits : Int) + d * 2 ^ 24 ∧ s.seq.running = true)
    ∧ (∃ (s : State) (m : Master) (v : W32) (d : Int), d = sx 32 (s.f F.TIM_OFS_NS_ofs_ns) * 256 + (v.toNat % 256 : Nat) ∧ s.MayWrite m ∧ s.tickDue = false ∧ s.following = false ∧ (s.mode.timEarly = true ∨ (s.mode.timMiddle = true ∧ d.natAbs ≤ 4000000 * 256)) ∧ s.f F.TIM_STEP_THR_step_thr * 256 < d.natAbs ∧ v.getLsbD 29 = false ∧ (s.nowUnits : Int) + d * 2 ^ 24 < 0)
    ∧ (∃ (s : State) (m : Master) (v : W32) (d : Int), d = sx 32 (s.f F.TIM_OFS_NS_ofs_ns) * 256 + (v.toNat % 256 : Nat) ∧ s.MayWrite m ∧ s.tickDue = false ∧ s.following = false ∧ (d.natAbs ≤ s.f F.TIM_STEP_THR_step_thr * 256 ∨ (v.getLsbD 29 = true ∧ (s.mode.timEarly = true ∨ s.mode.timMiddle = true))))
    ∧ (∃ (s : State) (m : Master) (v : W32) (d : Int), d = sx 32 (s.f F.TIM_OFS_NS_ofs_ns) * 256 + (v.toNat % 256 : Nat) ∧ s.MayWrite m ∧ s.tickDue = false ∧ s.mode.timEarly = true ∧ s.following = false)
    ∧ (∃ (s : State) (m : Master) (v : W32) (d : Int) (r : _), d = sx 32 (s.f F.TIM_OFS_NS_ofs_ns) * 256 + (v.toNat % 256 : Nat) ∧ s.MayWrite m ∧ s.tickDue = false ∧ ((s.mode.timEarly = false ∧ r = 3) ∨ (s.mode.timEarly = true ∧ s.following = true ∧ r = 4)))
    ∧ (∃ (s : State) (v : W32) (d : Int) (u : Int), d = sx 32 (s.f F.TIM_OFS_NS_ofs_ns) * 256 + (v.toNat % 256 : Nat) ∧ s.live = true ∧ s.fb F.TIM_STAT_slewing = true ∧ s.tim.rem ≠ 0 ∧ s.slewAdj.sign = s.tim.rem.sign ∧ u = (s.nowUnits : Int) + (ceilDiv s.tim.rem.natAbs s.slewAdj.natAbs * s.increment : Nat) + s.tim.rem ∧ 0 ≤ u)
    ∧ (∃ (s : State) (v : W32) (d : Int), d = sx 32 (s.f F.TIM_OFS_NS_ofs_ns) * 256 + (v.toNat % 256 : Nat) ∧ (s.live = false ∨ s.fb F.TIM_STAT_slewing = false ∨ s.tim.rem = 0 ∨ s.slewAdj.sign ≠ s.tim.rem.sign))
    ∧ (∃ (s : State) (v : W32) (d : Int), d = sx 32 (s.f F.TIM_OFS_NS_ofs_ns) * 256 + (v.toNat % 256 : Nat) ∧ s.live = true ∧ s.holder = true ∧ (rateUnits (sx 24 (s.f F.TIM_RATE_rate)) - s.tim.rampQ).natAbs ≤ s.f F.TIM_SLEW_CFG_ramp)
    ∧ (∃ (s : State) (v : W32) (d : Int), d = sx 32 (s.f F.TIM_OFS_NS_ofs_ns) * 256 + (v.toNat % 256 : Nat) ∧ (s.live = false ∨ s.holder = false))
    ∧ (∃ (s : State) (v : W32) (d : Int), d = sx 32 (s.f F.TIM_OFS_NS_ofs_ns) * 256 + (v.toNat % 256 : Nat) ∧ s.tim.reqPend = none)
    ∧ (∃ (s : State) (v : W32) (d : Int) (bs : _), d = sx 32 (s.f F.TIM_OFS_NS_ofs_ns) * 256 + (v.toNat % 256 : Nat) ∧ s.tim.reqPend = some bs ∧ s.following = true)
    ∧ (∃ (s : State) (v : W32) (d : Int) (bs : _), d = sx 32 (s.f F.TIM_OFS_NS_ofs_ns) * 256 + (v.toNat % 256 : Nat) ∧ s.tim.reqPend = some bs ∧ s.following = false ∧ s.tim.ownAt ≠ some s.cyc ∧ fieldAt bs 13 1 = 0)
    ∧ (∃ (s : State) (v : W32) (d : Int) (bs : _), d = sx 32 (s.f F.TIM_OFS_NS_ofs_ns) * 256 + (v.toNat % 256 : Nat) ∧ s.tim.reqPend = some bs ∧ s.following = false ∧ s.tim.ownAt ≠ some s.cyc ∧ fieldAt bs 13 1 = 1)
    ∧ (∃ (s : State) (v : W32) (d : Int) (bs : _), d = sx 32 (s.f F.TIM_OFS_NS_ofs_ns) * 256 + (v.toNat % 256 : Nat) ∧ s.tim.reqPend = some bs ∧ s.following = false ∧ s.tim.ownAt ≠ some s.cyc ∧ fieldAt bs 13 1 = 2 ∧ (sx 32 (fieldAt bs 8 4) * 256 + (fieldAt bs 12 1 : Nat)).natAbs ≤ s.f F.TIM_STEP_THR_step_thr * 256)
    ∧ (∃ (s : State) (v : W32) (d : Int), d = sx 32 (s.f F.TIM_OFS_NS_ofs_ns) * 256 + (v.toNat % 256 : Nat) ∧ s.up = true ∧ s.tim.espHold = none)
    ∧ (∃ (s : State) (v : W32) (d : Int), d = sx 32 (s.f F.TIM_OFS_NS_ofs_ns) * 256 + (v.toNat % 256 : Nat) ∧ (s.up = false ∨ s.tim.espHold ≠ none))
    ∧ (∃ (s : State) (v : W32) (d : Int), d = sx 32 (s.f F.TIM_OFS_NS_ofs_ns) * 256 + (v.toNat % 256 : Nat) ∧ s.live = false ∧ s.tim.espOld.length = 16) :=
  ⟨⟨sl 5 (on .run), 0, sx 32 ((sl 5 (on .run)).f F.TIM_OFS_NS_ofs_ns) * 256, 1, 0, by decide +kernel⟩,
   ⟨of 0 (due (on .boot)), .port0, 0#32, 0 * 256 + ↑(0 % 256), by decide +kernel⟩,
   ⟨of 1000 (at_ 50000000 5 (on .run)), .port0, 255#32, 1000 * 256 + ↑(255 % 256), by decide +kernel⟩,
   ⟨of 4000000 (at_ 50000000 5 (on .muster)), .port0, 255#32, 4000000 * 256 + ↑(255 % 256), by decide +kernel⟩,
   ⟨pend (rq13 1 1374389 2 3) (folw (on .run)), .port0, 0, sx 32 (State.f (pend (rq13 1 1374389 2 3) (folw (on .run))) F.TIM_OFS_NS_ofs_ns) * 256, by decide +kernel⟩,
   ⟨of 1000 (runs (mapped (on .boot)) 12345678), .port0, 255#32, 1000 * 256 + ↑(255 % 256), by decide +kernel⟩,
   ⟨of (-2 ^ 31) (at_ 50000000 5 (on .boot)), .port0, 0#32, -2 ^ 31 * 256 + ↑(0 % 256), by decide +kernel⟩,
   ⟨sl 5 (on .run), .port0, 0, sx 32 ((sl 5 (on .run)).f F.TIM_OFS_NS_ofs_ns) * 256, by decide +kernel⟩,
   ⟨pend (rq13 2 0 (2 ^ 32 - 1000) 255) (on .boot), .port0, 0, sx 32 (State.f (pend (rq13 2 0 (2 ^ 32 - 1000) 255) (on .boot)) F.TIM_OFS_NS_ofs_ns) * 256, by decide +kernel⟩,
   ⟨of 0 (at_ 50000000 5 (on .muster)), .port0, 0#32, 0 * 256 + ↑(0 % 256), 3, by decide +kernel⟩,
   ⟨sl 5 (on .run), 0, sx 32 ((sl 5 (on .run)).f F.TIM_OFS_NS_ofs_ns) * 256, ↑(sl 5 (on .run)).nowUnits + ↑(ceilDiv (sl 5 (on .run)).tim.rem.natAbs (sl 5 (on .run)).slewAdj.natAbs * (sl 5 (on .run)).increment) + (sl 5 (on .run)).tim.rem, by decide +kernel⟩,
   ⟨hold (sl 5 (on .run)), 0, sx 32 ((hold (sl 5 (on .run))).f F.TIM_OFS_NS_ofs_ns) * 256, by decide +kernel⟩,
   ⟨hold (sl 5 (on .run)), 0, sx 32 ((hold (sl 5 (on .run))).f F.TIM_OFS_NS_ofs_ns) * 256, by decide +kernel⟩,
   ⟨sl 5 (on .run), 0, sx 32 ((sl 5 (on .run)).f F.TIM_OFS_NS_ofs_ns) * 256, by decide +kernel⟩,
   ⟨sl 5 (on .run), 0, sx 32 ((sl 5 (on .run)).f F.TIM_OFS_NS_ofs_ns) * 256, by decide +kernel⟩,
   ⟨pend (rq13 1 1374389 2 3) (folw (on .run)), 0, sx 32 (State.f (pend (rq13 1 1374389 2 3) (folw (on .run))) F.TIM_OFS_NS_ofs_ns) * 256, [0x09#8, 0x00#8, 0x00#8, 0x00#8, 0xb5#8, 0xf8#8, 0x14#8, 0x00#8, 0x02#8, 0x00#8, 0x00#8, 0x00#8, 0x03#8, 0x01#8, 0x00#8, 0x00#8], by decide +kernel⟩,
   ⟨pend (rq13 0 1 2 3) (on .run), 0, sx 32 (State.f (pend (rq13 0 1 2 3) (on .run)) F.TIM_OFS_NS_ofs_ns) * 256, [0x09#8, 0x00#8, 0x00#8, 0x00#8, 0x01#8, 0x00#8, 0x00#8, 0x00#8, 0x02#8, 0x00#8, 0x00#8, 0x00#8, 0x03#8, 0x00#8, 0x00#8, 0x00#8], by decide +kernel⟩,
   ⟨pend (rq13 1 (2 ^ 23) 2 3) (on .run), 0, sx 32 (State.f (pend (rq13 1 (2 ^ 23) 2 3) (on .run)) F.TIM_OFS_NS_ofs_ns) * 256, [0x09#8, 0x00#8, 0x00#8, 0x00#8, 0x00#8, 0x00#8, 0x80#8, 0x00#8, 0x02#8, 0x00#8, 0x00#8, 0x00#8, 0x03#8, 0x01#8, 0x00#8, 0x00#8], by decide +kernel⟩,
   ⟨pend (rq13 2 0 1000 0) (on .run), 0, sx 32 (State.f (pend (rq13 2 0 1000 0) (on .run)) F.TIM_OFS_NS_ofs_ns) * 256, [0x09#8, 0x00#8, 0x00#8, 0x00#8, 0x00#8, 0x00#8, 0x00#8, 0x00#8, 0xe8#8, 0x03#8, 0x00#8, 0x00#8, 0x00#8, 0x02#8, 0x00#8, 0x00#8], by decide +kernel⟩,
   ⟨sl 5 (on .run), 0, sx 32 ((sl 5 (on .run)).f F.TIM_OFS_NS_ofs_ns) * 256, by decide +kernel⟩,
   ⟨tm (fun t => { t with espHold := some [1, 2] }) (on .run), 0, sx 32 (State.f (tm (fun t => { t with espHold := some [1, 2] }) (on .run)) F.TIM_OFS_NS_ofs_ns) * 256, by decide +kernel⟩,
   ⟨tm (fun t => { t with espOld := List.replicate 16 5 }) State.reset, 0, sx 32 (State.f (tm (fun t => { t with espOld := List.replicate 16 5 }) State.reset) F.TIM_OFS_NS_ofs_ns) * 256, by decide +kernel⟩⟩

end Time

namespace Ethernet

def eon (s : State) := sets s [(F.TIM_ETH_CFG_en 1, 1), (F.TIM_ETH_RXRING_en 1, 1), (F.TIM_ETH_TXRING_en 1, 1), (F.TIM_ETH_RXRING_base 1, 4096), (F.TIM_ETH_RXRING_log2_len 1, 2), (F.TIM_ETH_TXRING_base 1, 300000), (F.TIM_ETH_TXRING_log2_len 1, 3), (F.TIM_ETH_LAT_rx_lat 1, 0xFFF0), (F.TIM_ETH_LAT_tx_lat 1, 0x8000)]
def e1 := eon (on .run)
def pe (f : EthPort → EthPort) (s : State) : State := s.modEth 1 f
def bc (ty rest : List Nat) (n : Nat) : List Byte := let b := List.replicate 12 0xFF ++ ty ++ rest; (b ++ List.replicate (n - b.length) 0).map (fun (x : Nat) => BitVec.ofNat 8 x)
def plain := bc [8, 6] [1,2,3] 60
def tagged := bc [0x81, 0, 0, 7, 8, 6] [1,2,3,9] 1996
def pause := bc [0x88, 0x08, 0, 1] [] 60
def ann := bc [0x88, 0xF7] ([0x0B, 2, 0, 0, 9] ++ List.replicate 48 0 ++ [1,2,3,4,5,6,7,8]) 90
def svf := bc [0x88, 0xBA, 0x40, 1] (List.range 200) 250
def sv (s : State) := sets s [(F.TIM_SV_CFG_en 15, 1), (F.TIM_SV_CFG_ports 15, 2), (F.TIM_SV_CFG_appid 15, 0x4001), (F.TIM_SV_CFG_slot_units 15, 1), (F.TIM_SV_CFG_log2_depth 15, 3), (F.TIM_SV_BASE_base 15, 0x20000)]
def gm (s : State) := sets s [(F.TIM_ETH_CFG_gm_watch 1, 1), (F.TIM_ETH_CFG_domain 1, 9)]
def putG (s : State) (a : Nat) (bs : List Nat) : State := s.grnWrite a (bs.map (fun (x : Nat) => BitVec.ofNat 8 x))
def A0 := 4096 * 2048
def dsc (a len fl st : Nat) : List Nat := [a % 256, a / 256 % 256, a / 65536 % 256, a / 2^24, len % 256, len / 256, fl, st] ++ List.replicate 24 0
def D0 := 300000 * 32
def dq (d : List Nat) (s : State) := putG s D0 d
def dk (d : List Nat) (s : State) := pe (fun x => {x with txNext := 7}) (putG s (D0 + 7 * 32) d)
def syncF := [0,0,0,0,0,0,0,0,0,0,0,0,0x88,0xF7,0x00] ++ List.replicate 60 0
def delF := [0,0,0,0,0,0,0,0,0,0,0,0,0x88,0xF7,0x01] ++ List.replicate 60 0
def sF (s : State) := putG (putG s 0x900000 syncF) 0x910000 delF

theorem witness_EthernetFramesAndDescriptors :
    (∃ (s : State) (p : Fin 2) (at_ : Nat) (stamp : Nat) (addr : Nat), stamp = ((stampAt at_ : Int) - sx 16 (s.f (F.TIM_ETH_LAT_rx_lat p)) * 32).toNat ∧ addr = s.f (F.TIM_ETH_RXRING_base p) * 2048 + (s.eth p).rxNext % 2 ^ s.f (F.TIM_ETH_RXRING_log2_len p) * 2048 ∧ s.ethOn p = false)
    ∧ (∃ (s : State) (p : Fin 2) (up : Bool) (at_ : Nat) (stamp : Nat) (addr : Nat), stamp = ((stampAt at_ : Int) - sx 16 (s.f (F.TIM_ETH_LAT_rx_lat p)) * 32).toNat ∧ addr = s.f (F.TIM_ETH_RXRING_base p) * 2048 + (s.eth p).rxNext % 2 ^ s.f (F.TIM_ETH_RXRING_log2_len p) * 2048 ∧ s.ethOn p = true ∧ s.fb (F.TIM_ETH_STAT_link p) = true ∧ up = false)
    ∧ (∃ (s : State) (p : Fin 2) (b : Bool) (f : List Byte) (at_ : Nat) (stamp : Nat) (addr : Nat), stamp = ((stampAt at_ : Int) - sx 16 (s.f (F.TIM_ETH_LAT_rx_lat p)) * 32).toNat ∧ addr = s.f (F.TIM_ETH_RXRING_base p) * 2048 + (s.eth p).rxNext % 2 ^ s.f (F.TIM_ETH_RXRING_log2_len p) * 2048 ∧ s.ethOn p = true ∧ (b = false ∨ f.length < 60 ∨ 1996 < f.length))
    ∧ (∃ (s : State) (p : Fin 2) (b : Bool) (f : List Byte) (at_ : Nat) (stamp : Nat) (addr : Nat), stamp = ((stampAt at_ : Int) - sx 16 (s.f (F.TIM_ETH_LAT_rx_lat p)) * 32).toNat ∧ addr = s.f (F.TIM_ETH_RXRING_base p) * 2048 + (s.eth p).rxNext % 2 ^ s.f (F.TIM_ETH_RXRING_log2_len p) * 2048 ∧ s.ethOn p = true ∧ b = true ∧ 60 ≤ f.length ∧ f.length ≤ 1996 ∧ (s.ethAccepts p f = false ∨ beAt f (typeAt f) 4 = 0x88080001))
    ∧ (∃ (s : State) (p : Fin 2) (b : Bool) (f : List Byte) (at_ : Nat) (stamp : Nat) (addr : Nat), stamp = ((stampAt at_ : Int) - sx 16 (s.f (F.TIM_ETH_LAT_rx_lat p)) * 32).toNat ∧ addr = s.f (F.TIM_ETH_RXRING_base p) * 2048 + (s.eth p).rxNext % 2 ^ s.f (F.TIM_ETH_RXRING_log2_len p) * 2048 ∧ s.ethOn p = true ∧ b = true ∧ 60 ≤ f.length ∧ f.length ≤ 1996 ∧ s.ethAccepts p f = true ∧ beAt f (typeAt f) 4 ≠ 0x88080001 ∧ ptpAt f = none ∧ s.svEntry p f = none ∧ s.GrnClean ∧ (s.frameEnd at_ f.length).portBNow = [] ∧ s.fb (F.TIM_ETH_RXRING_en p) = false)
    ∧ (∃ (s : State) (p : Fin 2) (b : Bool) (f : List Byte) (at_ : Nat) (stamp : Nat) (addr : Nat), stamp = ((stampAt at_ : Int) - sx 16 (s.f (F.TIM_ETH_LAT_rx_lat p)) * 32).toNat ∧ addr = s.f (F.TIM_ETH_RXRING_base p) * 2048 + (s.eth p).rxNext % 2 ^ s.f (F.TIM_ETH_RXRING_log2_len p) * 2048 ∧ s.ethOn p = true ∧ b = true ∧ 60 ≤ f.length ∧ f.length ≤ 1996 ∧ s.ethAccepts p f = true ∧ beAt f (typeAt f) 4 ≠ 0x88080001 ∧ ptpAt f = none ∧ s.svEntry p f = none ∧ s.GrnClean ∧ (s.frameEnd at_ f.length).portBNow = [] ∧ s.fb (F.TIM_ETH_RXRING_en p) = true ∧ s.grnByte (addr + 3) ≠ 0)
    ∧ (∃ (s : State) (p : Fin 2) (b : Bool) (f : List Byte) (at_ : Nat) (stamp : Nat) (addr : Nat), stamp = ((stampAt at_ : Int) - sx 16 (s.f (F.TIM_ETH_LAT_rx_lat p)) * 32).toNat ∧ addr = s.f (F.TIM_ETH_RXRING_base p) * 2048 + (s.eth p).rxNext % 2 ^ s.f (F.TIM_ETH_RXRING_log2_len p) * 2048 ∧ s.ethOn p = true ∧ b = true ∧ 60 ≤ f.length ∧ f.length ≤ 1996 ∧ s.ethAccepts p f = true ∧ beAt f (typeAt f) 4 ≠ 0x88080001 ∧ ptpAt f = none ∧ s.svEntry p f = none ∧ s.GrnClean ∧ (s.frameEnd at_ f.length).portBNow = [] ∧ s.fb (F.TIM_ETH_RXRING_en p) = true ∧ s.grnByte (addr + 3) = 0 ∧ addr + 2048 ≤ grnSize)
    ∧ (∃ (s : State) (p : Fin 2) (b : Bool) (f : List Byte) (at_ : Nat) (stamp : Nat) (addr : Nat) (k : _), stamp = ((stampAt at_ : Int) - sx 16 (s.f (F.TIM_ETH_LAT_rx_lat p)) * 32).toNat ∧ addr = s.f (F.TIM_ETH_RXRING_base p) * 2048 + (s.eth p).rxNext % 2 ^ s.f (F.TIM_ETH_RXRING_log2_len p) * 2048 ∧ s.ethOn p = true ∧ b = true ∧ 60 ≤ f.length ∧ f.length ≤ 1996 ∧ s.ethAccepts p f = true ∧ beAt f (typeAt f) 4 ≠ 0x88080001 ∧ s.svEntry p f = some k ∧ s.Quiet ∧ s.mode.fromConfigure = false ∧ s.GrnClean)
    ∧ (∃ (s : State) (p : Fin 2) (b : Bool) (f : List Byte) (at_ : Nat) (stamp : Nat) (addr : Nat) (k : _), stamp = ((stampAt at_ : Int) - sx 16 (s.f (F.TIM_ETH_LAT_rx_lat p)) * 32).toNat ∧ addr = s.f (F.TIM_ETH_RXRING_base p) * 2048 + (s.eth p).rxNext % 2 ^ s.f (F.TIM_ETH_RXRING_log2_len p) * 2048 ∧ s.ethOn p = true ∧ b = true ∧ 60 ≤ f.length ∧ f.length ≤ 1996 ∧ s.ethAccepts p f = true ∧ beAt f (typeAt f) 4 ≠ 0x88080001 ∧ s.svEntry p f = some k ∧ s.Quiet ∧ s.mode.fromConfigure = true)
    ∧ (∃ (s : State) (p : Fin 2) (b : Bool) (f : List Byte) (at_ : Nat) (stamp : Nat) (addr : Nat) (o : _), stamp = ((stampAt at_ : Int) - sx 16 (s.f (F.TIM_ETH_LAT_rx_lat p)) * 32).toNat ∧ addr = s.f (F.TIM_ETH_RXRING_base p) * 2048 + (s.eth p).rxNext % 2 ^ s.f (F.TIM_ETH_RXRING_log2_len p) * 2048 ∧ s.ethOn p = true ∧ b = true ∧ 60 ≤ f.length ∧ f.length ≤ 1996 ∧ s.ethAccepts p f = true ∧ ptpAt f = some o ∧ s.fb (F.TIM_ETH_CFG_gm_watch p) = true ∧ beAt f o 1 % 16 = 0xB ∧ beAt f (o + 4) 1 = s.f (F.TIM_ETH_CFG_domain p) ∧ (s.eth p).gmSeen = true ∧ beAt f (o + 53) 8 ≠ s.rd (R.TIM_GM_LO p) + s.rd (R.TIM_GM_HI p) * 2 ^ 32)
    ∧ (∃ (s : State) (p : Fin 2) (at_ : Nat) (stamp : Nat) (addr : Nat) (ecc : List Ecc) (i : Nat) (e : List Byte), stamp = ((stampAt at_ : Int) - sx 16 (s.f (F.TIM_ETH_LAT_rx_lat p)) * 32).toNat ∧ addr = s.f (F.TIM_ETH_RXRING_base p) * 2048 + (s.eth p).rxNext % 2 ^ s.f (F.TIM_ETH_RXRING_log2_len p) * 2048 ∧ ecc.any Ecc.isDouble = false ∧ s.ethOn p = true ∧ s.fb (F.TIM_ETH_TXRING_en p) = true ∧ (s.eth p).txBusy = none ∧ i = (s.eth p).txNext % 2 ^ s.f (F.TIM_ETH_TXRING_log2_len p) ∧ e = s.grnRead (s.txAddr p i) 32 ∧ s.txAddr p i + 32 ≤ grnSize ∧ (s.advanceCyc ((s.eth p).pollAt + cycPerUs)).portBNow = [] ∧ fieldAt e 7 1 ≠ 1)
    ∧ (∃ (s : State) (p : Fin 2) (at_ : Nat) (stamp : Nat) (addr : Nat) (ecc : List Ecc) (i : Nat) (e : List Byte), stamp = ((stampAt at_ : Int) - sx 16 (s.f (F.TIM_ETH_LAT_rx_lat p)) * 32).toNat ∧ addr = s.f (F.TIM_ETH_RXRING_base p) * 2048 + (s.eth p).rxNext % 2 ^ s.f (F.TIM_ETH_RXRING_log2_len p) * 2048 ∧ ecc.any Ecc.isDouble = false ∧ s.ethOn p = true ∧ s.fb (F.TIM_ETH_TXRING_en p) = true ∧ (s.eth p).txBusy = none ∧ i = (s.eth p).txNext % 2 ^ s.f (F.TIM_ETH_TXRING_log2_len p) ∧ e = s.grnRead (s.txAddr p i) 32 ∧ s.txAddr p i + 32 ≤ grnSize ∧ (s.advanceCyc ((s.eth p).pollAt + cycPerUs)).portBNow = [] ∧ fieldAt e 7 1 = 1 ∧ s.paired = true ∧ s.holder = false ∧ s.fb (F.TIM_ETH_CFG_tx_mute p) = true)
    ∧ (∃ (s : State) (p : Fin 2) (at_ : Nat) (stamp : Nat) (addr : Nat) (ecc : List Ecc) (i : Nat) (e : List Byte), stamp = ((stampAt at_ : Int) - sx 16 (s.f (F.TIM_ETH_LAT_rx_lat p)) * 32).toNat ∧ addr = s.f (F.TIM_ETH_RXRING_base p) * 2048 + (s.eth p).rxNext % 2 ^ s.f (F.TIM_ETH_RXRING_log2_len p) * 2048 ∧ ecc.any Ecc.isDouble = false ∧ s.ethOn p = true ∧ s.fb (F.TIM_ETH_TXRING_en p) = true ∧ (s.eth p).txBusy = none ∧ i = (s.eth p).txNext % 2 ^ s.f (F.TIM_ETH_TXRING_log2_len p) ∧ e = s.grnRead (s.txAddr p i) 32 ∧ s.txAddr p i + 32 ≤ grnSize ∧ (s.advanceCyc ((s.eth p).pollAt + cycPerUs)).portBNow = [] ∧ fieldAt e 7 1 = 1 ∧ (s.paired = false ∨ s.holder = true ∨ s.fb (F.TIM_ETH_CFG_tx_mute p) = false) ∧ (fieldAt e 4 2 < 14 ∨ 1996 < fieldAt e 4 2 ∨ grnSize < fieldAt e 0 4 + fieldAt e 4 2))
    ∧ (∃ (s : State) (p : Fin 2) (at_ : Nat) (stamp : Nat) (addr : Nat) (ecc : List Ecc) (i : Nat) (e : List Byte), stamp = ((stampAt at_ : Int) - sx 16 (s.f (F.TIM_ETH_LAT_rx_lat p)) * 32).toNat ∧ addr = s.f (F.TIM_ETH_RXRING_base p) * 2048 + (s.eth p).rxNext % 2 ^ s.f (F.TIM_ETH_RXRING_log2_len p) * 2048 ∧ ecc.any Ecc.isDouble = false ∧ s.ethOn p = true ∧ s.fb (F.TIM_ETH_TXRING_en p) = true ∧ (s.eth p).txBusy = none ∧ i = (s.eth p).txNext % 2 ^ s.f (F.TIM_ETH_TXRING_log2_len p) ∧ e = s.grnRead (s.txAddr p i) 32 ∧ s.txAddr p i + 32 ≤ grnSize ∧ (s.advanceCyc ((s.eth p).pollAt + cycPerUs)).portBNow = [] ∧ fieldAt e 7 1 = 1 ∧ (s.paired = false ∨ s.holder = true ∨ s.fb (F.TIM_ETH_CFG_tx_mute p) = false) ∧ 14 ≤ fieldAt e 4 2 ∧ fieldAt e 4 2 ≤ 1996 ∧ fieldAt e 0 4 + fieldAt e 4 2 ≤ grnSize ∧ bitOf (fieldAt e 6 1) 1 = true ∧ oneStepOk (s.txBytes e) = false)
    ∧ (∃ (s : State) (p : Fin 2) (at_ : Nat) (stamp : Nat) (addr : Nat) (ecc : List Ecc) (i : Nat) (e : List Byte), stamp = ((stampAt at_ : Int) - sx 16 (s.f (F.TIM_ETH_LAT_rx_lat p)) * 32).toNat ∧ addr = s.f (F.TIM_ETH_RXRING_base p) * 2048 + (s.eth p).rxNext % 2 ^ s.f (F.TIM_ETH_RXRING_log2_len p) * 2048 ∧ ecc.any Ecc.isDouble = false ∧ s.ethOn p = true ∧ s.fb (F.TIM_ETH_TXRING_en p) = true ∧ (s.eth p).txBusy = none ∧ i = (s.eth p).txNext % 2 ^ s.f (F.TIM_ETH_TXRING_log2_len p) ∧ e = s.grnRead (s.txAddr p i) 32 ∧ s.txAddr p i + 32 ≤ grnSize ∧ (s.advanceCyc ((s.eth p).pollAt + cycPerUs)).portBNow = [] ∧ fieldAt e 7 1 = 1 ∧ (s.paired = false ∨ s.holder = true ∨ s.fb (F.TIM_ETH_CFG_tx_mute p) = false) ∧ 14 ≤ fieldAt e 4 2 ∧ fieldAt e 4 2 ≤ 1996 ∧ fieldAt e 0 4 + fieldAt e 4 2 ≤ grnSize ∧ (bitOf (fieldAt e 6 1) 1 = false ∨ oneStepOk (s.txBytes e) = true))
    ∧ (∃ (s : State) (p : Fin 2) (at_ : Nat) (stamp : Nat) (addr : Nat), stamp = ((stampAt at_ : Int) - sx 16 (s.f (F.TIM_ETH_LAT_rx_lat p)) * 32).toNat ∧ addr = s.f (F.TIM_ETH_RXRING_base p) * 2048 + (s.eth p).rxNext % 2 ^ s.f (F.TIM_ETH_RXRING_log2_len p) * 2048 ∧ (s.eth p).txBusy = none)
    ∧ (∃ (s : State) (p : Fin 2) (at_ : Nat) (stamp : Nat) (addr : Nat) (i : _) (e : _), stamp = ((stampAt at_ : Int) - sx 16 (s.f (F.TIM_ETH_LAT_rx_lat p)) * 32).toNat ∧ addr = s.f (F.TIM_ETH_RXRING_base p) * 2048 + (s.eth p).rxNext % 2 ^ s.f (F.TIM_ETH_RXRING_log2_len p) * 2048 ∧ (s.eth p).txBusy = some i ∧ e = s.grnRead (s.txAddr p i) 32 ∧ s.txAddr p i + 32 ≤ grnSize ∧ s.ethOn p = true ∧ s.GrnClean ∧ (s.frameEnd at_ (s.txBytes e).length).portBNow = [] ∧ bitOf (fieldAt e 6 1) 1 = false)
    ∧ (∃ (s : State) (p : Fin 2) (at_ : Nat) (stamp : Nat) (addr : Nat) (i : _) (e : _), stamp = ((stampAt at_ : Int) - sx 16 (s.f (F.TIM_ETH_LAT_rx_lat p)) * 32).toNat ∧ addr = s.f (F.TIM_ETH_RXRING_base p) * 2048 + (s.eth p).rxNext % 2 ^ s.f (F.TIM_ETH_RXRING_log2_len p) * 2048 ∧ (s.eth p).txBusy = some i ∧ e = s.grnRead (s.txAddr p i) 32 ∧ s.txAddr p i + 32 ≤ grnSize ∧ s.ethOn p = true ∧ s.GrnClean ∧ (s.frameEnd at_ (s.txBytes e).length).portBNow = [] ∧ (bitOf (fieldAt e 6 1) 0 = true ∨ bitOf (fieldAt e 6 1) 1 = true))
    ∧ (∃ (s : State) (m : Master) (p : Fin 2) (at_ : Nat) (stamp : Nat) (addr : Nat), stamp = ((stampAt at_ : Int) - sx 16 (s.f (F.TIM_ETH_LAT_rx_lat p)) * 32).toNat ∧ addr = s.f (F.TIM_ETH_RXRING_base p) * 2048 + (s.eth p).rxNext % 2 ^ s.f (F.TIM_ETH_RXRING_log2_len p) * 2048 ∧ s.MayWrite m) :=
  ⟨⟨on .run, 1, 100000, (↑(stampAt 100000) - sx 16 ((on .run).f (F.TIM_ETH_LAT_rx_lat 1)) * 32).toNat, (on .run).f (F.TIM_ETH_RXRING_base 1) * 2048 + ((on .run).eth 1).rxNext % 2 ^ (on .run).f (F.TIM_ETH_RXRING_log2_len 1) * 2048, by decide +kernel⟩,
   ⟨e1.setF (F.TIM_ETH_STAT_link 1) 1, 1, false, 100000, (↑(stampAt 100000) - sx 16 ((e1.setF (F.TIM_ETH_STAT_link 1) 1).f (F.TIM_ETH_LAT_rx_lat 1)) * 32).toNat, (e1.setF (F.TIM_ETH_STAT_link 1) 1).f (F.TIM_ETH_RXRING_base 1) * 2048 + ((e1.setF (F.TIM_ETH_STAT_link 1) 1).eth 1).rxNext % 2 ^ (e1.setF (F.TIM_ETH_STAT_link 1) 1).f (F.TIM_ETH_RXRING_log2_len 1) * 2048, by decide +kernel⟩,
   ⟨sets e1 [(F.TIM_ETH_STAT_link 1, 1), (F.TIM_ETH_CFG_pcs 1, 1)], 1, false, tagged, 100000, (↑(stampAt 100000) - sx 16 ((sets e1 [(F.TIM_ETH_STAT_link 1, 1), (F.TIM_ETH_CFG_pcs 1, 1)]).f (F.TIM_ETH_LAT_rx_lat 1)) * 32).toNat, (sets e1 [(F.TIM_ETH_STAT_link 1, 1), (F.TIM_ETH_CFG_pcs 1, 1)]).f (F.TIM_ETH_RXRING_base 1) * 2048 + ((sets e1 [(F.TIM_ETH_STAT_link 1, 1), (F.TIM_ETH_CFG_pcs 1, 1)]).eth 1).rxNext % 2 ^ (sets e1 [(F.TIM_ETH_STAT_link 1, 1), (F.TIM_ETH_CFG_pcs 1, 1)]).f (F.TIM_ETH_RXRING_log2_len 1) * 2048, by decide +kernel⟩,
   ⟨e1, 1, true, pause, 100000, (↑(stampAt 100000) - sx 16 (e1.f (F.TIM_ETH_LAT_rx_lat 1)) * 32).toNat, e1.f (F.TIM_ETH_RXRING_base 1) * 2048 + (e1.eth 1).rxNext % 2 ^ e1.f (F.TIM_ETH_RXRING_log2_len 1) * 2048, by decide +kernel⟩,
   ⟨e1.setF (F.TIM_ETH_RXRING_en 1) 0, 1, true, plain, 100000, (↑(stampAt 100000) - sx 16 ((e1.setF (F.TIM_ETH_RXRING_en 1) 0).f (F.TIM_ETH_LAT_rx_lat 1)) * 32).toNat, (e1.setF (F.TIM_ETH_RXRING_en 1) 0).f (F.TIM_ETH_RXRING_base 1) * 2048 + ((e1.setF (F.TIM_ETH_RXRING_en 1) 0).eth 1).rxNext % 2 ^ (e1.setF (F.TIM_ETH_RXRING_en 1) 0).f (F.TIM_ETH_RXRING_log2_len 1) * 2048, by decide +kernel⟩,
   ⟨putG e1 (A0 + 3) [1], 1, true, plain, 100000, (↑(stampAt 100000) - sx 16 (State.f (putG e1 (A0 + 3) [1]) (F.TIM_ETH_LAT_rx_lat 1)) * 32).toNat, State.f (putG e1 (A0 + 3) [1]) (F.TIM_ETH_RXRING_base 1) * 2048 + (State.eth (putG e1 (A0 + 3) [1]) 1).rxNext % 2 ^ State.f (putG e1 (A0 + 3) [1]) (F.TIM_ETH_RXRING_log2_len 1) * 2048, by decide +kernel⟩,
   ⟨e1, 1, true, plain, 100000, (↑(stampAt 100000) - sx 16 (e1.f (F.TIM_ETH_LAT_rx_lat 1)) * 32).toNat, e1.f (F.TIM_ETH_RXRING_base 1) * 2048 + (e1.eth 1).rxNext % 2 ^ e1.f (F.TIM_ETH_RXRING_log2_len 1) * 2048, by decide +kernel⟩,
   ⟨sv ({ e1 with mode := .boot }), 1, true, svf, 100000, (↑(stampAt 100000) - sx 16 ((sv ({ e1 with mode := .boot })).f (F.TIM_ETH_LAT_rx_lat 1)) * 32).toNat, (sv ({ e1 with mode := .boot })).f (F.TIM_ETH_RXRING_base 1) * 2048 + ((sv ({ e1 with mode := .boot })).eth 1).rxNext % 2 ^ (sv ({ e1 with mode := .boot })).f (F.TIM_ETH_RXRING_log2_len 1) * 2048, 15, by decide +kernel⟩,
   ⟨sv e1, 1, true, svf, 100000, (↑(stampAt 100000) - sx 16 ((sv e1).f (F.TIM_ETH_LAT_rx_lat 1)) * 32).toNat, (sv e1).f (F.TIM_ETH_RXRING_base 1) * 2048 + ((sv e1).eth 1).rxNext % 2 ^ (sv e1).f (F.TIM_ETH_RXRING_log2_len 1) * 2048, 15, by decide +kernel⟩,
   ⟨pe (fun x => { x with gmSeen := true }) (gm e1), 1, true, ann, 1234567, (↑(stampAt 1234567) - sx 16 (State.f (pe (fun x => { x with gmSeen := true }) (gm e1)) (F.TIM_ETH_LAT_rx_lat 1)) * 32).toNat, State.f (pe (fun x => { x with gmSeen := true }) (gm e1)) (F.TIM_ETH_RXRING_base 1) * 2048 + (State.eth (pe (fun x => { x with gmSeen := true }) (gm e1)) 1).rxNext % 2 ^ State.f (pe (fun x => { x with gmSeen := true }) (gm e1)) (F.TIM_ETH_RXRING_log2_len 1) * 2048, 14, by decide +kernel⟩,
   ⟨e1, 1, 100000, (↑(stampAt 100000) - sx 16 (e1.f (F.TIM_ETH_LAT_rx_lat 1)) * 32).toNat, e1.f (F.TIM_ETH_RXRING_base 1) * 2048 + (e1.eth 1).rxNext % 2 ^ e1.f (F.TIM_ETH_RXRING_log2_len 1) * 2048, [.ok], 0, List.replicate 32 0, by decide +kernel⟩,
   ⟨dk (dsc 9502720 70 2 1) (sF (sets e1 [(F.RED_CFG_pair_en, 1), (F.TIM_ETH_CFG_tx_mute 1, 1)])), 1, 100000, (↑(stampAt 100000) - sx 16 (State.f (dk (dsc 9502720 70 2 1) (sF (sets e1 [(F.RED_CFG_pair_en, 1), (F.TIM_ETH_CFG_tx_mute 1, 1)]))) (F.TIM_ETH_LAT_rx_lat 1)) * 32).toNat, State.f (dk (dsc 9502720 70 2 1) (sF (sets e1 [(F.RED_CFG_pair_en, 1), (F.TIM_ETH_CFG_tx_mute 1, 1)]))) (F.TIM_ETH_RXRING_base 1) * 2048 + (State.eth (dk (dsc 9502720 70 2 1) (sF (sets e1 [(F.RED_CFG_pair_en, 1), (F.TIM_ETH_CFG_tx_mute 1, 1)]))) 1).rxNext % 2 ^ State.f (dk (dsc 9502720 70 2 1) (sF (sets e1 [(F.RED_CFG_pair_en, 1), (F.TIM_ETH_CFG_tx_mute 1, 1)]))) (F.TIM_ETH_RXRING_log2_len 1) * 2048, [.ok], 7, (dsc 0x910000 70 2 1).map (fun (x : Nat) => BitVec.ofNat 8 x), by decide +kernel⟩,
   ⟨dq (dsc 9437184 13 0 1) e1, 1, 100000, (↑(stampAt 100000) - sx 16 (State.f (dq (dsc 9437184 13 0 1) e1) (F.TIM_ETH_LAT_rx_lat 1)) * 32).toNat, State.f (dq (dsc 9437184 13 0 1) e1) (F.TIM_ETH_RXRING_base 1) * 2048 + (State.eth (dq (dsc 9437184 13 0 1) e1) 1).rxNext % 2 ^ State.f (dq (dsc 9437184 13 0 1) e1) (F.TIM_ETH_RXRING_log2_len 1) * 2048, [.ok], 0, (dsc 0x900000 13 0 1).map (fun (x : Nat) => BitVec.ofNat 8 x), by decide +kernel⟩,
   ⟨dk (dsc 9502720 70 2 1) (sF e1), 1, 100000, (↑(stampAt 100000) - sx 16 (State.f (dk (dsc 9502720 70 2 1) (sF e1)) (F.TIM_ETH_LAT_rx_lat 1)) * 32).toNat, State.f (dk (dsc 9502720 70 2 1) (sF e1)) (F.TIM_ETH_RXRING_base 1) * 2048 + (State.eth (dk (dsc 9502720 70 2 1) (sF e1)) 1).rxNext % 2 ^ State.f (dk (dsc 9502720 70 2 1) (sF e1)) (F.TIM_ETH_RXRING_log2_len 1) * 2048, [.ok], 7, (dsc 0x910000 70 2 1).map (fun (x : Nat) => BitVec.ofNat 8 x), by decide +kernel⟩,
   ⟨dq (dsc 9437184 60 0 1) e1, 1, 100000, (↑(stampAt 100000) - sx 16 (State.f (dq (dsc 9437184 60 0 1) e1) (F.TIM_ETH_LAT_rx_lat 1)) * 32).toNat, State.f (dq (dsc 9437184 60 0 1) e1) (F.TIM_ETH_RXRING_base 1) * 2048 + (State.eth (dq (dsc 9437184 60 0 1) e1) 1).rxNext % 2 ^ State.f (dq (dsc 9437184 60 0 1) e1) (F.TIM_ETH_RXRING_log2_len 1) * 2048, [.ok], 0, (dsc 0x900000 60 0 1).map (fun (x : Nat) => BitVec.ofNat 8 x), by decide +kernel⟩,
   ⟨e1, 1, 100000, (↑(stampAt 100000) - sx 16 (e1.f (F.TIM_ETH_LAT_rx_lat 1)) * 32).toNat, e1.f (F.TIM_ETH_RXRING_base 1) * 2048 + (e1.eth 1).rxNext % 2 ^ e1.f (F.TIM_ETH_RXRING_log2_len 1) * 2048, by decide +kernel⟩,
   ⟨pe (fun x => { x with txBusy := some 7 }) (dk (dsc 9437184 70 1 1) (sF e1)), 1, 1, (↑(stampAt 1) - sx 16 (State.f (pe (fun x => { x with txBusy := some 7 }) (dk (dsc 9437184 70 1 1) (sF e1))) (F.TIM_ETH_LAT_rx_lat 1)) * 32).toNat, State.f (pe (fun x => { x with txBusy := some 7 }) (dk (dsc 9437184 70 1 1) (sF e1))) (F.TIM_ETH_RXRING_base 1) * 2048 + (State.eth (pe (fun x => { x with txBusy := some 7 }) (dk (dsc 9437184 70 1 1) (sF e1))) 1).rxNext % 2 ^ State.f (pe (fun x => { x with txBusy := some 7 }) (dk (dsc 9437184 70 1 1) (sF e1))) (F.TIM_ETH_RXRING_log2_len 1) * 2048, 7, (dsc 0x900000 70 1 1).map (fun (x : Nat) => BitVec.ofNat 8 x), by decide +kernel⟩,
   ⟨pe (fun x => { x with txBusy := some 7 }) (dk (dsc 9437184 70 2 1) (sF e1)), 1, 100000, (↑(stampAt 100000) - sx 16 (State.f (pe (fun x => { x with txBusy := some 7 }) (dk (dsc 9437184 70 2 1) (sF e1))) (F.TIM_ETH_LAT_rx_lat 1)) * 32).toNat, State.f (pe (fun x => { x with txBusy := some 7 }) (dk (dsc 9437184 70 2 1) (sF e1))) (F.TIM_ETH_RXRING_base 1) * 2048 + (State.eth (pe (fun x => { x with txBusy := some 7 }) (dk (dsc 9437184 70 2 1) (sF e1))) 1).rxNext % 2 ^ State.f (pe (fun x => { x with txBusy := some 7 }) (dk (dsc 9437184 70 2 1) (sF e1))) (F.TIM_ETH_RXRING_log2_len 1) * 2048, 7, (dsc 0x900000 70 2 1).map (fun (x : Nat) => BitVec.ofNat 8 x), by decide +kernel⟩,
   ⟨e1, .port0, 1, 100000, (↑(stampAt 100000) - sx 16 (e1.f (F.TIM_ETH_LAT_rx_lat 1)) * 32).toNat, e1.f (F.TIM_ETH_RXRING_base 1) * 2048 + (e1.eth 1).rxNext % 2 ^ e1.f (F.TIM_ETH_RXRING_log2_len 1) * 2048, by decide +kernel⟩⟩

end Ethernet

namespace Can

def good (s : State) := sets s [(F.CAN_NBT_tseg1 1, 60), (F.CAN_NBT_tseg2 1, 15), (F.CAN_NBT_sjw 1, 15), (F.CAN_DBT_tseg1 1, 30), (F.CAN_DBT_tseg2 1, 10), (F.CAN_DBT_sjw 1, 10), (F.CAN_DBT_brp 1, 1)]
def cn (f : Can → Can) (s : State) : State := s.modCan 1 f
def e (id ctl : Nat) (feed : Option Nat) : CanEntry := { idWord := id, control := ctl, data := [1,2], feed := feed }
def on1 (m : Mode) := cn (fun c => {c with on := true}) ((good (on m)).setF (F.CAN_CFG_en 1) 1)
def tx (w0 w1 : Nat) (s : State) := sets s [(F.CAN_TXBUF_data 1 0, w0), (F.CAN_TXBUF_data 1 1, w1), (F.CAN_TXBUF_data 1 2, 0x44332211), (F.CAN_TXBUF_data 1 17, 0xAABBCCDD)]
def mute (s : State) := sets s [(F.RED_CFG_pair_en, 1), (F.CAN_CFG_tx_mute 1, 1)]
def que (q : List CanEntry) (s : State) := s.setQueue 1 q
def fA := 200000 * 128
def feed (s : State) := sets s [(F.CAN_TXFEED_en 1, 1), (F.CAN_TXFEED_base 1, 200000), (F.CAN_TXFEED_log2_len 1, 2)]
def putG (s : State) (a : Nat) (bs : List Nat) : State := s.grnWrite a (bs.map (fun (x : Nat) => BitVec.ofNat 8 x))
def fent (id ctl st : Nat) : List Nat := [id % 256, id / 256 % 256, id/65536 % 256, id / 2^24, ctl, 0, 0, st] ++ List.replicate 24 0 ++ [1, 2] ++ List.replicate 94 0
def q2 := [e 5 2 (some fA), e 6 1 none]
def obj (s : State) := sets s [(F.CAN_RXOBJ_en 1 127, 1), (F.CAN_RXOBJ_id 1 127, 0x55), (F.CAN_RXOBJ_en 1 3, 1), (F.CAN_RXOBJ_id 1 3, 0x55), (F.CAN_RXOBJ_ide 1 3, 1), (F.CAN_RX_BASE_base 1, 0x300)]
def y1 : CanRx := { obj := 127, idWord := 0x80000055, control := 0x1F, data := List.replicate 64 9, sof := 12345678901 }
def wr (s : State) : State := cn (fun c => {c with rx := [y1, y1]}) s
def oa := 0x300 * 16384 + 127 * 128

theorem witness_CanQueuesAndCommands :
    (∃ (s : State), s.canClocked = false)
    ∧ (∃ (s : State), s.canClocked = true)
    ∧ (∃ (s : State) (m : Master) (k : Fin 2) (v : W32), s.MayWrite m ∧ v.getLsbD 31 = true ∧ s.fb (F.CAN_CFG_en k) = false ∧ s.canTimingOk k = false)
    ∧ (∃ (s : State) (m : Master) (k : Fin 2) (v : W32), s.MayWrite m ∧ (v.getLsbD 31 = false ∨ s.fb (F.CAN_CFG_en k) = true ∨ s.canTimingOk k = true) ∧ s.canState k < canBusOff)
    ∧ (∃ (s : State) (m : Master) (k : Fin 2) (v : W32), s.MayWrite m ∧ (v.getLsbD 31 = false ∨ s.fb (F.CAN_CFG_en k) = true ∨ s.canTimingOk k = true) ∧ canBusOff ≤ s.canState k)
    ∧ (∃ (s : State) (m : Master) (k : Fin 2), s.MayWrite m ∧ s.canMuted k = true)
    ∧ (∃ (s : State) (m : Master) (k : Fin 2), s.MayWrite m ∧ s.canMuted k = false ∧ canBad (s.rd (R.CAN_TXBUF k 0)) (s.rd (R.CAN_TXBUF k 1) % 256) (s.rd (R.CAN_TXBUF k 1) / 2 ^ 8 % 2 ^ 16 != 0) = true)
    ∧ (∃ (s : State) (m : Master) (k : Fin 2), s.MayWrite m ∧ s.canMuted k = false ∧ canBad (s.rd (R.CAN_TXBUF k 0)) (s.rd (R.CAN_TXBUF k 1) % 256) (s.rd (R.CAN_TXBUF k 1) / 2 ^ 8 % 2 ^ 16 != 0) = false ∧ s.fifoLimit k ≤ (s.canC k).queue.length)
    ∧ (∃ (s : State) (m : Master) (k : Fin 2), s.MayWrite m ∧ s.canMuted k = false ∧ canBad (s.rd (R.CAN_TXBUF k 0)) (s.rd (R.CAN_TXBUF k 1) % 256) (s.rd (R.CAN_TXBUF k 1) / 2 ^ 8 % 2 ^ 16 != 0) = false ∧ (s.canC k).queue.length < s.fifoLimit k)
    ∧ (∃ (s : State) (m : Master) (k : Fin 2), s.MayWrite m ∧ (s.canC k).queue.length ≤ s.pushedNow k)
    ∧ (∃ (s : State) (m : Master) (k : Fin 2) (busy : Bool) (x : _) (q : _), s.MayWrite m ∧ (s.canC k).queue = x :: q ∧ s.pushedNow k < (s.canC k).queue.length ∧ busy = true ∧ s.canOffers k = true)
    ∧ (∃ (s : State) (m : Master) (k : Fin 2) (busy : Bool) (x : _) (q : _) (y : _) (n : _), s.MayWrite m ∧ (s.canC k).queue = x :: q ∧ s.pushedNow k < (s.canC k).queue.length ∧ (busy = false ∨ s.canOffers k = false) ∧ (s.canC k).fullPush = some (s.periphCyc, y, n) ∧ q.length < s.fifoLimit k)
    ∧ (∃ (s : State) (m : Master) (k : Fin 2) (busy : Bool) (x : _) (q : _), s.MayWrite m ∧ (s.canC k).queue = x :: q ∧ s.pushedNow k < (s.canC k).queue.length ∧ (busy = false ∨ s.canOffers k = false) ∧ (s.canC k).fullPush = none ∧ x.feed = none)
    ∧ (∃ (s : State) (m : Master) (k : Fin 2) (busy : Bool), s.MayWrite m ∧ busy = true ∧ s.canOffers k = true)
    ∧ (∃ (s : State) (m : Master) (k : Fin 2) (busy : Bool), s.MayWrite m ∧ (busy = false ∨ s.canOffers k = false) ∧ (s.canC k).fullPush = none ∧ ((s.canC k).queue.drop ((s.canC k).queue.length - s.pushedNow k)).length ≤ 32)
    ∧ (∃ (s : State) (m : Master) (k : Fin 2) (busy : Bool) (y : _) (n : _), s.MayWrite m ∧ (busy = false ∨ s.canOffers k = false) ∧ (s.canC k).fullPush = some (s.periphCyc, y, n) ∧ ((s.canC k).queue.drop ((s.canC k).queue.length - s.pushedNow k)).length < s.fifoLimit k)
    ∧ (∃ (s : State) (k : Fin 2), (s.canWorks k = false ∨ s.fb (F.CAN_TXFEED_en k) = false))
    ∧ (∃ (s : State) (k : Fin 2) (ecc : List Ecc), ecc.any Ecc.isDouble = false ∧ s.canWorks k = true ∧ s.fb (F.CAN_TXFEED_en k) = true ∧ (s.f (F.CAN_TXFEED_base k) * 128 + (s.canC k).feedNext % (2 ^ s.f (F.CAN_TXFEED_log2_len k)) * 128) + 128 ≤ grnSize ∧ (s.advanceCyc ((s.canC k).pollAt + cycPerUs)).portBNow = [] ∧ fieldAt (s.grnRead (s.f (F.CAN_TXFEED_base k) * 128 + (s.canC k).feedNext % (2 ^ s.f (F.CAN_TXFEED_log2_len k)) * 128) 128) 7 1 ≠ 1)
    ∧ (∃ (s : State) (k : Fin 2) (ecc : List Ecc), ecc.any Ecc.isDouble = false ∧ s.canWorks k = true ∧ s.fb (F.CAN_TXFEED_en k) = true ∧ (s.f (F.CAN_TXFEED_base k) * 128 + (s.canC k).feedNext % (2 ^ s.f (F.CAN_TXFEED_log2_len k)) * 128) + 128 ≤ grnSize ∧ (s.advanceCyc ((s.canC k).pollAt + cycPerUs)).portBNow = [] ∧ fieldAt (s.grnRead (s.f (F.CAN_TXFEED_base k) * 128 + (s.canC k).feedNext % (2 ^ s.f (F.CAN_TXFEED_log2_len k)) * 128) 128) 7 1 = 1 ∧ s.canMuted k = true)
    ∧ (∃ (s : State) (k : Fin 2) (ecc : List Ecc), ecc.any Ecc.isDouble = false ∧ s.canWorks k = true ∧ s.fb (F.CAN_TXFEED_en k) = true ∧ (s.f (F.CAN_TXFEED_base k) * 128 + (s.canC k).feedNext % (2 ^ s.f (F.CAN_TXFEED_log2_len k)) * 128) + 128 ≤ grnSize ∧ (s.advanceCyc ((s.canC k).pollAt + cycPerUs)).portBNow = [] ∧ fieldAt (s.grnRead (s.f (F.CAN_TXFEED_base k) * 128 + (s.canC k).feedNext % (2 ^ s.f (F.CAN_TXFEED_log2_len k)) * 128) 128) 7 1 = 1 ∧ s.canMuted k = false ∧ canBad (fieldAt (s.grnRead (s.f (F.CAN_TXFEED_base k) * 128 + (s.canC k).feedNext % (2 ^ s.f (F.CAN_TXFEED_log2_len k)) * 128) 128) 0 4) (fieldAt (s.grnRead (s.f (F.CAN_TXFEED_base k) * 128 + (s.canC k).feedNext % (2 ^ s.f (F.CAN_TXFEED_log2_len k)) * 128) 128) 4 1) (fieldAt (s.grnRead (s.f (F.CAN_TXFEED_base k) * 128 + (s.canC k).feedNext % (2 ^ s.f (F.CAN_TXFEED_log2_len k)) * 128) 128) 5 2 != 0 || fieldAt (s.grnRead (s.f (F.CAN_TXFEED_base k) * 128 + (s.canC k).feedNext % (2 ^ s.f (F.CAN_TXFEED_log2_len k)) * 128) 128) 16 16 != 0 || fieldAt (s.grnRead (s.f (F.CAN_TXFEED_base k) * 128 + (s.canC k).feedNext % (2 ^ s.f (F.CAN_TXFEED_log2_len k)) * 128) 128) 96 32 != 0) = true)
    ∧ (∃ (s : State) (k : Fin 2) (ecc : List Ecc), ecc.any Ecc.isDouble = false ∧ s.canWorks k = true ∧ s.fb (F.CAN_TXFEED_en k) = true ∧ (s.f (F.CAN_TXFEED_base k) * 128 + (s.canC k).feedNext % (2 ^ s.f (F.CAN_TXFEED_log2_len k)) * 128) + 128 ≤ grnSize ∧ (s.advanceCyc ((s.canC k).pollAt + cycPerUs)).portBNow = [] ∧ fieldAt (s.grnRead (s.f (F.CAN_TXFEED_base k) * 128 + (s.canC k).feedNext % (2 ^ s.f (F.CAN_TXFEED_log2_len k)) * 128) 128) 7 1 = 1 ∧ s.canMuted k = false ∧ canBad (fieldAt (s.grnRead (s.f (F.CAN_TXFEED_base k) * 128 + (s.canC k).feedNext % (2 ^ s.f (F.CAN_TXFEED_log2_len k)) * 128) 128) 0 4) (fieldAt (s.grnRead (s.f (F.CAN_TXFEED_base k) * 128 + (s.canC k).feedNext % (2 ^ s.f (F.CAN_TXFEED_log2_len k)) * 128) 128) 4 1) (fieldAt (s.grnRead (s.f (F.CAN_TXFEED_base k) * 128 + (s.canC k).feedNext % (2 ^ s.f (F.CAN_TXFEED_log2_len k)) * 128) 128) 5 2 != 0 || fieldAt (s.grnRead (s.f (F.CAN_TXFEED_base k) * 128 + (s.canC k).feedNext % (2 ^ s.f (F.CAN_TXFEED_log2_len k)) * 128) 128) 16 16 != 0 || fieldAt (s.grnRead (s.f (F.CAN_TXFEED_base k) * 128 + (s.canC k).feedNext % (2 ^ s.f (F.CAN_TXFEED_log2_len k)) * 128) 128) 96 32 != 0) = false ∧ (s.advanceCyc ((s.canC k).pollAt + cycPerUs)).feedFits k = false)
    ∧ (∃ (s : State) (k : Fin 2) (ecc : List Ecc), ecc.any Ecc.isDouble = false ∧ s.canWorks k = true ∧ s.fb (F.CAN_TXFEED_en k) = true ∧ (s.f (F.CAN_TXFEED_base k) * 128 + (s.canC k).feedNext % (2 ^ s.f (F.CAN_TXFEED_log2_len k)) * 128) + 128 ≤ grnSize ∧ (s.advanceCyc ((s.canC k).pollAt + cycPerUs)).portBNow = [] ∧ fieldAt (s.grnRead (s.f (F.CAN_TXFEED_base k) * 128 + (s.canC k).feedNext % (2 ^ s.f (F.CAN_TXFEED_log2_len k)) * 128) 128) 7 1 = 1 ∧ s.canMuted k = false ∧ canBad (fieldAt (s.grnRead (s.f (F.CAN_TXFEED_base k) * 128 + (s.canC k).feedNext % (2 ^ s.f (F.CAN_TXFEED_log2_len k)) * 128) 128) 0 4) (fieldAt (s.grnRead (s.f (F.CAN_TXFEED_base k) * 128 + (s.canC k).feedNext % (2 ^ s.f (F.CAN_TXFEED_log2_len k)) * 128) 128) 4 1) (fieldAt (s.grnRead (s.f (F.CAN_TXFEED_base k) * 128 + (s.canC k).feedNext % (2 ^ s.f (F.CAN_TXFEED_log2_len k)) * 128) 128) 5 2 != 0 || fieldAt (s.grnRead (s.f (F.CAN_TXFEED_base k) * 128 + (s.canC k).feedNext % (2 ^ s.f (F.CAN_TXFEED_log2_len k)) * 128) 128) 16 16 != 0 || fieldAt (s.grnRead (s.f (F.CAN_TXFEED_base k) * 128 + (s.canC k).feedNext % (2 ^ s.f (F.CAN_TXFEED_log2_len k)) * 128) 128) 96 32 != 0) = false ∧ (s.canC k).queue.length < s.fifoLimit k ∧ (s.canC k).pushAt ≠ (s.advanceCyc ((s.canC k).pollAt + cycPerUs)).periphCyc) :=
  ⟨⟨que q2 (on1 .boot), by decide +kernel⟩,
   ⟨cn (fun c => { c with fullPush := some ((que q2 (on1 .run)).periphCyc, e 9 3 none, 5) }) (que q2 (on1 .run)), by decide +kernel⟩,
   ⟨on .run, .port0, 1, 2148597760, by decide +kernel⟩,
   ⟨cn (fun c => { c with fullPush := some ((que q2 (on1 .run)).periphCyc, e 9 3 none, 5) }) (que q2 (on1 .run)), .port0, 1, 5, by decide +kernel⟩,
   ⟨(que q2 (on1 .run)).setF (F.CAN_STAT_state 1) 2, .port0, 1, 2148597760, by decide +kernel⟩,
   ⟨mute (feed (putG (on1 .run) fA (fent 5 1 0))), .port0, 1, by decide +kernel⟩,
   ⟨tx 3221225763 3 (on1 .run), .port0, 1, by decide +kernel⟩,
   ⟨cn (fun c => { c with fullPush := some ((que (List.replicate 32 (e 1 1 none)) (on1 .run)).periphCyc, e 9 3 none, 5) }) (que (List.replicate 32 (e 1 1 none)) (on1 .run)), .port0, 1, by decide +kernel⟩,
   ⟨cn (fun c => { c with fullPush := some ((que q2 (on1 .run)).periphCyc, e 9 3 none, 5) }) (que q2 (on1 .run)), .port0, 1, by decide +kernel⟩,
   ⟨feed (putG (on1 .run) fA (fent 5 1 0)), .port0, 1, by decide +kernel⟩,
   ⟨cn (fun c => { c with fullPush := some ((que q2 (on1 .run)).periphCyc, e 9 3 none, 5) }) (que q2 (on1 .run)), .port0, 1, true, { idWord := 5, control := 2, data := [0x01#8, 0x02#8], feed := some 25600000 }, [{ idWord := 6, control := 1, data := [0x01#8, 0x02#8], feed := none }], by decide +kernel⟩,
   ⟨cn (fun c => { c with fullPush := some ((que q2 (on1 .run)).periphCyc, e 9 3 none, 65536) }) (que q2 (on1 .run)), .port0, 1, false, { idWord := 5, control := 2, data := [0x01#8, 0x02#8], feed := some 25600000 }, [{ idWord := 6, control := 1, data := [0x01#8, 0x02#8], feed := none }], { idWord := 9, control := 3, data := [0x01#8, 0x02#8], feed := none }, 65536, by decide +kernel⟩,
   ⟨tx 1 1 (que (List.replicate 32 (e 1 1 none)) (on1 .run)), .port0, 1, false, { idWord := 1, control := 1, data := [0x01#8, 0x02#8], feed := none }, [{ idWord := 1, control := 1, data := [0x01#8, 0x02#8], feed := none }, { idWord := 1, control := 1, data := [0x01#8, 0x02#8], feed := none }, { idWord := 1, control := 1, data := [0x01#8, 0x02#8], feed := none }, { idWord := 1, control := 1, data := [0x01#8, 0x02#8], feed := none }, { idWord := 1, control := 1, data := [0x01#8, 0x02#8], feed := none }, { idWord := 1, control := 1, data := [0x01#8, 0x02#8], feed := none }, { idWord := 1, control := 1, data := [0x01#8, 0x02#8], feed := none }, { idWord := 1, control := 1, data := [0x01#8, 0x02#8], feed := none }, { idWord := 1, control := 1, data := [0x01#8, 0x02#8], feed := none }, { idWord := 1, control := 1, data := [0x01#8, 0x02#8], feed := none }, { idWord := 1, control := 1, data := [0x01#8, 0x02#8], feed := none }, { idWord := 1, control := 1, data := [0x01#8, 0x02#8], feed := none }, { idWord := 1, control := 1, data := [0x01#8, 0x02#8], feed := none }, { idWord := 1, control := 1, data := [0x01#8, 0x02#8], feed := none }, { idWord := 1, control := 1, data := [0x01#8, 0x02#8], feed := none }, { idWord := 1, control := 1, data := [0x01#8, 0x02#8], feed := none }, { idWord := 1, control := 1, data := [0x01#8, 0x02#8], feed := none }, { idWord := 1, control := 1, data := [0x01#8, 0x02#8], feed := none }, { idWord := 1, control := 1, data := [0x01#8, 0x02#8], feed := none }, { idWord := 1, control := 1, data := [0x01#8, 0x02#8], feed := none }, { idWord := 1, control := 1, data := [0x01#8, 0x02#8], feed := none }, { idWord := 1, control := 1, data := [0x01#8, 0x02#8], feed := none }, { idWord := 1, control := 1, data := [0x01#8, 0x02#8], feed := none }, { idWord := 1, control := 1, data := [0x01#8, 0x02#8], feed := none }, { idWord := 1, control := 1, data := [0x01#8, 0x02#8], feed := none }, { idWord := 1, control := 1, data := [0x01#8, 0x02#8], feed := none }, { idWord := 1, control := 1, data := [0x01#8, 0x02#8], feed := none }, { idWord := 1, control := 1, data := [0x01#8, 0x02#8], feed := none }, { idWord := 1, control := 1, data := [0x01#8, 0x02#8], feed := none }, { idWord := 1, control := 1, data := [0x01#8, 0x02#8], feed := none }, { idWord := 1, control := 1, data := [0x01#8, 0x02#8], feed := none }], by decide +kernel⟩,
   ⟨cn (fun c => { c with fullPush := some ((que q2 (on1 .run)).periphCyc, e 9 3 none, 5) }) (que q2 (on1 .run)), .port0, 1, true, by decide +kernel⟩,
   ⟨feed (putG (on1 .run) fA (fent 5 1 0)), .port0, 1, true, by decide +kernel⟩,
   ⟨cn (fun c => { c with fullPush := some ((que q2 (on1 .run)).periphCyc, e 9 3 none, 65536) }) (que q2 (on1 .run)), .port0, 1, false, { idWord := 9, control := 3, data := [0x01#8, 0x02#8], feed := none }, 65536, by decide +kernel⟩,
   ⟨cn (fun c => { c with fullPush := some ((que q2 (on1 .run)).periphCyc, e 9 3 none, 5) }) (que q2 (on1 .run)), 1, by decide +kernel⟩,
   ⟨feed (putG (on1 .run) fA (fent 5 1 0)), 1, [.ok], by decide +kernel⟩,
   ⟨mute (feed (putG (on1 .run) fA (fent 5 1 1))), 1, [.ok], by decide +kernel⟩,
   ⟨feed (putG (on1 .run) fA (fent 2048 0 1)), 1, [.ok], by decide +kernel⟩,
   ⟨que (List.replicate 32 (e 1 1 none)) (feed (putG (on1 .run) fA (fent 5 1 1))), 1, [.ok], by decide +kernel⟩,
   ⟨feed (putG (on1 .run) fA (fent 5 1 1)), 1, [.ok], by decide +kernel⟩⟩

theorem witness_CanAttemptsFramesAndErrors :
    (∃ (s : State) (k : Fin 2) (tec : Nat), tec = s.f (F.CAN_STAT_tec k) ∧ ((s.canC k).queue = [] ∨ s.canOffers k = false))
    ∧ (∃ (s : State) (k : Fin 2) (x : CanEntry) (q : List CanEntry) (tec : Nat), tec = s.f (F.CAN_STAT_tec k) ∧ (s.canC k).queue = x :: q ∧ s.canOffers k = true ∧ (s.canC k).fullPush = none ∧ s.pushedNow k = 0 ∧ s.portBNow = [] ∧ (s.canC k).flushPend = false ∧ (s.canC k).mode ≠ canLoopback ∧ tec ≤ 256 ∧ tec < 129 ∧ s.f (F.CAN_STAT_rec k) < 128)
    ∧ (∃ (s : State) (k : Fin 2) (x : CanEntry) (q : List CanEntry) (tec : Nat), tec = s.f (F.CAN_STAT_tec k) ∧ (s.canC k).queue = x :: q ∧ s.canOffers k = true ∧ (s.canC k).fullPush = none ∧ s.pushedNow k = 0 ∧ s.portBNow = [] ∧ (s.canC k).flushPend = false ∧ (s.canC k).abortPend = true)
    ∧ (∃ (s : State) (k : Fin 2) (x : CanEntry) (q : List CanEntry) (tec : Nat), tec = s.f (F.CAN_STAT_tec k) ∧ (s.canC k).queue = x :: q ∧ s.canOffers k = true ∧ (s.canC k).fullPush = none ∧ s.pushedNow k = 0 ∧ s.portBNow = [] ∧ (s.canC k).flushPend = true)
    ∧ (∃ (s : State) (k : Fin 2) (see : CanSeen) (x : CanEntry) (q : List CanEntry) (tec : Nat) (p : _), tec = s.f (F.CAN_STAT_tec k) ∧ (s.canC k).queue = x :: q ∧ s.canOffers k = true ∧ (s.canC k).fullPush = none ∧ s.pushedNow k = 0 ∧ s.portBNow = [] ∧ (s.canC k).flushPend = false ∧ (s.canC k).abortPend = false ∧ p ∈ [(CanEnd.stuffErr false, 1), (.formErr, 2), (.crcErr, 6), (.bitErr false true, 4), (.bitErr false false, 5)] ∧ tec + (8 * (1 + see.more)) < 256)
    ∧ (∃ (s : State) (k : Fin 2) (see : CanSeen) (x : CanEntry) (q : List CanEntry) (tec : Nat) (p : _), tec = s.f (F.CAN_STAT_tec k) ∧ (s.canC k).queue = x :: q ∧ s.canOffers k = true ∧ (s.canC k).fullPush = none ∧ s.pushedNow k = 0 ∧ s.portBNow = [] ∧ (s.canC k).flushPend = false ∧ (s.canC k).abortPend = false ∧ p ∈ [(CanEnd.stuffErr false, 1), (.formErr, 2), (.crcErr, 6), (.bitErr false true, 4), (.bitErr false false, 5)] ∧ 256 ≤ tec + (8 * (1 + see.more)) ∧ s.fb (F.CAN_CFG_flush_busoff k) = true)
    ∧ (∃ (s : State) (k : Fin 2) (see : CanSeen) (x : CanEntry) (q : List CanEntry) (tec : Nat), tec = s.f (F.CAN_STAT_tec k) ∧ (s.canC k).queue = x :: q ∧ s.canOffers k = true ∧ (s.canC k).fullPush = none ∧ s.pushedNow k = 0 ∧ s.portBNow = [] ∧ (s.canC k).flushPend = false ∧ (s.canC k).abortPend = false ∧ tec + 8 * see.more < 256)
    ∧ (∃ (s : State) (k : Fin 2) (see : CanSeen) (x : CanEntry) (q : List CanEntry) (tec : Nat), tec = s.f (F.CAN_STAT_tec k) ∧ (s.canC k).queue = x :: q ∧ s.canOffers k = true ∧ (s.canC k).fullPush = none ∧ s.pushedNow k = 0 ∧ s.portBNow = [] ∧ (s.canC k).flushPend = false ∧ (s.canC k).abortPend = false ∧ tec + (8 * (1 + see.more)) < 256 ∧ (s.f (F.CAN_CFG_retry_lim k) = 0 ∨ (s.canC k).ackRun + 1 < s.f (F.CAN_CFG_retry_lim k)))
    ∧ (∃ (s : State) (k : Fin 2) (see : CanSeen) (x : CanEntry) (q : List CanEntry) (tec : Nat), tec = s.f (F.CAN_STAT_tec k) ∧ (s.canC k).queue = x :: q ∧ s.canOffers k = true ∧ (s.canC k).fullPush = none ∧ s.pushedNow k = 0 ∧ s.portBNow = [] ∧ (s.canC k).flushPend = false ∧ (s.canC k).abortPend = false ∧ tec + (8 * (1 + see.more)) < 256 ∧ s.f (F.CAN_CFG_retry_lim k) ≠ 0 ∧ s.f (F.CAN_CFG_retry_lim k) ≤ (s.canC k).ackRun + 1)
    ∧ (∃ (s : State) (k : Fin 2) (see : CanSeen) (x : CanEntry) (q : List CanEntry) (tec : Nat), tec = s.f (F.CAN_STAT_tec k) ∧ (s.canC k).queue = x :: q ∧ s.canOffers k = true ∧ (s.canC k).fullPush = none ∧ s.pushedNow k = 0 ∧ s.portBNow = [] ∧ (s.canC k).flushPend = false ∧ (s.canC k).abortPend = false ∧ tec + (8 * (1 + see.more)) < 256 ∧ (s.canC k).clashRun < 2)
    ∧ (∃ (s : State) (k : Fin 2) (see : CanSeen) (x : CanEntry) (q : List CanEntry) (tec : Nat), tec = s.f (F.CAN_STAT_tec k) ∧ (s.canC k).queue = x :: q ∧ s.canOffers k = true ∧ (s.canC k).fullPush = none ∧ s.pushedNow k = 0 ∧ s.portBNow = [] ∧ (s.canC k).flushPend = false ∧ (s.canC k).abortPend = false ∧ tec + (8 * (1 + see.more)) < 256 ∧ 2 ≤ (s.canC k).clashRun)
    ∧ (∃ (s : State) (k : Fin 2) (tec : Nat), tec = s.f (F.CAN_STAT_tec k) ∧ s.canClocked = true ∧ s.canState k = canRecovering)
    ∧ (∃ (s : State) (k : Fin 2) (tec : Nat), tec = s.f (F.CAN_STAT_tec k) ∧ (s.canClocked = false ∨ s.canState k ≠ canRecovering))
    ∧ (∃ (s : State) (k : Fin 2) (tec : Nat), tec = s.f (F.CAN_STAT_tec k) ∧ (s.canWorks k = false ∨ (s.canC k).mode = canLoopback ∨ canBusOff ≤ s.canState k))
    ∧ (∃ (s : State) (k : Fin 2) (tec : Nat) (err : Option CanRxErr) (e : _), tec = s.f (F.CAN_STAT_tec k) ∧ s.canWorks k = true ∧ (s.canC k).mode ≠ canLoopback ∧ s.canState k < canBusOff ∧ tec < 256 ∧ err = some e)
    ∧ (∃ (s : State) (k : Fin 2) (tec : Nat) (f : CanFrame) (err : Option CanRxErr), tec = s.f (F.CAN_STAT_tec k) ∧ s.canWorks k = true ∧ (s.canC k).mode ≠ canLoopback ∧ s.canState k < canBusOff ∧ tec < 256 ∧ err = none ∧ s.rxObject k f.idWord.toNat = none ∧ (s.canC k).mode ≠ canRestricted ∧ s.f (F.CAN_STAT_rec k) ≤ 127)
    ∧ (∃ (s : State) (k : Fin 2) (tec : Nat) (f : CanFrame) (err : Option CanRxErr) (o : _), tec = s.f (F.CAN_STAT_tec k) ∧ s.canWorks k = true ∧ (s.canC k).mode ≠ canLoopback ∧ s.canState k < canBusOff ∧ tec < 256 ∧ err = none ∧ s.rxObject k f.idWord.toNat = some o)
    ∧ (∃ (s : State) (k : Fin 2) (tec : Nat), tec = s.f (F.CAN_STAT_tec k) ∧ ((s.canC k).rx = [] ∨ s.canClocked = false))
    ∧ (∃ (s : State) (k : Fin 2) (tec : Nat) (y : _) (rest : _), tec = s.f (F.CAN_STAT_tec k) ∧ (s.canC k).rx = y :: rest ∧ (s.f (F.CAN_RX_BASE_base k) * 16384 + y.obj * 128) + 128 ≤ grnSize ∧ s.Quiet ∧ s.canClocked = true ∧ s.GrnClean ∧ s.portBNow = [] ∧ (bitOf (fieldAt (s.grnRead (s.f (F.CAN_RX_BASE_base k) * 16384 + y.obj * 128) 16) 9 1) 0 = false ∨ (s.canC k).lostSeen.contains y.obj = true))
    ∧ (∃ (s : State) (k : Fin 2) (tec : Nat) (y : _) (rest : _), tec = s.f (F.CAN_STAT_tec k) ∧ (s.canC k).rx = y :: rest ∧ (s.f (F.CAN_RX_BASE_base k) * 16384 + y.obj * 128) + 128 ≤ grnSize ∧ s.Quiet ∧ s.canClocked = true ∧ s.GrnClean ∧ s.portBNow = [] ∧ bitOf (fieldAt (s.grnRead (s.f (F.CAN_RX_BASE_base k) * 16384 + y.obj * 128) 16) 9 1) 0 = true ∧ (s.canC k).lostSeen.contains y.obj = false) :=
  ⟨⟨State.setF (cn (fun c => { c with mode := 1 }) (que q2 (on1 .run))) (F.CAN_STAT_tec 1) 0, 1, (State.setF (cn (fun c => { c with mode := 1 }) (que q2 (on1 .run))) (F.CAN_STAT_tec 1) 0).f (F.CAN_STAT_tec 1), by decide +kernel⟩,
   ⟨(que q2 (on1 .run)).setF (F.CAN_STAT_tec 1) 0, 1, e 5 2 (some fA), [e 6 1 none], ((que q2 (on1 .run)).setF (F.CAN_STAT_tec 1) 0).f (F.CAN_STAT_tec 1), by decide +kernel⟩,
   ⟨State.setF (cn (fun c => { c with abortPend := true }) (que q2 (on1 .run))) (F.CAN_STAT_tec 1) 0, 1, e 5 2 (some fA), [e 6 1 none], (State.setF (cn (fun c => { c with abortPend := true }) (que q2 (on1 .run))) (F.CAN_STAT_tec 1) 0).f (F.CAN_STAT_tec 1), by decide +kernel⟩,
   ⟨State.setF (cn (fun c => { c with abortPend := true, flushPend := true }) (que q2 (on1 .run))) (F.CAN_STAT_tec 1) 0, 1, e 5 2 (some fA), [e 6 1 none], (State.setF (cn (fun c => { c with abortPend := true, flushPend := true }) (que q2 (on1 .run))) (F.CAN_STAT_tec 1) 0).f (F.CAN_STAT_tec 1), by decide +kernel⟩,
   ⟨(que q2 (on1 .run)).setF (F.CAN_STAT_tec 1) 0, 1, { tdc := some 77, more := ((que q2 (on1 .run)).setF (F.CAN_STAT_tec 1) 0).f (F.CAN_STAT_tec 1) % 3 }, e 5 2 (some fA), [e 6 1 none], ((que q2 (on1 .run)).setF (F.CAN_STAT_tec 1) 0).f (F.CAN_STAT_tec 1), (.stuffErr false, 1), by decide +kernel⟩,
   ⟨(sets (que q2 (on1 .run)) [(F.CAN_CFG_auto_rec 1, 1), (F.CAN_CFG_flush_busoff 1, 1)]).setF (F.CAN_STAT_tec 1) 247, 1, { tdc := some 77, more := ((sets (que q2 (on1 .run)) [(F.CAN_CFG_auto_rec 1, 1), (F.CAN_CFG_flush_busoff 1, 1)]).setF (F.CAN_STAT_tec 1) 247).f (F.CAN_STAT_tec 1) % 3 }, e 5 2 (some fA), [e 6 1 none], ((sets (que q2 (on1 .run)) [(F.CAN_CFG_auto_rec 1, 1), (F.CAN_CFG_flush_busoff 1, 1)]).setF (F.CAN_STAT_tec 1) 247).f (F.CAN_STAT_tec 1), (.bitErr false false, 5), by decide +kernel⟩,
   ⟨(que q2 (on1 .run)).setF (F.CAN_STAT_tec 1) 0, 1, { tdc := some 77, more := ((que q2 (on1 .run)).setF (F.CAN_STAT_tec 1) 0).f (F.CAN_STAT_tec 1) % 3 }, (((que q2 (on1 .run)).setF (F.CAN_STAT_tec 1) 0).canC 1).queue.headD (e 0 0 none), (((que q2 (on1 .run)).setF (F.CAN_STAT_tec 1) 0).canC 1).queue.tail, ((que q2 (on1 .run)).setF (F.CAN_STAT_tec 1) 0).f (F.CAN_STAT_tec 1), by decide +kernel⟩,
   ⟨(que q2 (on1 .run)).setF (F.CAN_STAT_tec 1) 0, 1, { tdc := some 77, more := ((que q2 (on1 .run)).setF (F.CAN_STAT_tec 1) 0).f (F.CAN_STAT_tec 1) % 3 }, e 5 2 (some fA), [e 6 1 none], ((que q2 (on1 .run)).setF (F.CAN_STAT_tec 1) 0).f (F.CAN_STAT_tec 1), by decide +kernel⟩,
   ⟨State.setF (cn (fun c => { c with ackRun := 4, clashRun := 2 }) ((que q2 (on1 .run)).setF (F.CAN_CFG_retry_lim 1) 5)) (F.CAN_STAT_tec 1) 0, 1, { tdc := some 77, more := (State.setF (cn (fun c => { c with ackRun := 4, clashRun := 2 }) ((que q2 (on1 .run)).setF (F.CAN_CFG_retry_lim 1) 5)) (F.CAN_STAT_tec 1) 0).f (F.CAN_STAT_tec 1) % 3 }, ((State.setF (cn (fun c => { c with ackRun := 4, clashRun := 2 }) ((que q2 (on1 .run)).setF (F.CAN_CFG_retry_lim 1) 5)) (F.CAN_STAT_tec 1) 0).canC 1).queue.headD (e 0 0 none), ((State.setF (cn (fun c => { c with ackRun := 4, clashRun := 2 }) ((que q2 (on1 .run)).setF (F.CAN_CFG_retry_lim 1) 5)) (F.CAN_STAT_tec 1) 0).canC 1).queue.tail, (State.setF (cn (fun c => { c with ackRun := 4, clashRun := 2 }) ((que q2 (on1 .run)).setF (F.CAN_CFG_retry_lim 1) 5)) (F.CAN_STAT_tec 1) 0).f (F.CAN_STAT_tec 1), by decide +kernel⟩,
   ⟨(que q2 (on1 .run)).setF (F.CAN_STAT_tec 1) 0, 1, { tdc := some 77, more := ((que q2 (on1 .run)).setF (F.CAN_STAT_tec 1) 0).f (F.CAN_STAT_tec 1) % 3 }, (((que q2 (on1 .run)).setF (F.CAN_STAT_tec 1) 0).canC 1).queue.headD (e 0 0 none), (((que q2 (on1 .run)).setF (F.CAN_STAT_tec 1) 0).canC 1).queue.tail, ((que q2 (on1 .run)).setF (F.CAN_STAT_tec 1) 0).f (F.CAN_STAT_tec 1), by decide +kernel⟩,
   ⟨State.setF (cn (fun c => { c with ackRun := 4, clashRun := 2 }) ((que q2 (on1 .run)).setF (F.CAN_CFG_retry_lim 1) 5)) (F.CAN_STAT_tec 1) 0, 1, { tdc := some 77, more := (State.setF (cn (fun c => { c with ackRun := 4, clashRun := 2 }) ((que q2 (on1 .run)).setF (F.CAN_CFG_retry_lim 1) 5)) (F.CAN_STAT_tec 1) 0).f (F.CAN_STAT_tec 1) % 3 }, ((State.setF (cn (fun c => { c with ackRun := 4, clashRun := 2 }) ((que q2 (on1 .run)).setF (F.CAN_CFG_retry_lim 1) 5)) (F.CAN_STAT_tec 1) 0).canC 1).queue.headD (e 0 0 none), ((State.setF (cn (fun c => { c with ackRun := 4, clashRun := 2 }) ((que q2 (on1 .run)).setF (F.CAN_CFG_retry_lim 1) 5)) (F.CAN_STAT_tec 1) 0).canC 1).queue.tail, (State.setF (cn (fun c => { c with ackRun := 4, clashRun := 2 }) ((que q2 (on1 .run)).setF (F.CAN_CFG_retry_lim 1) 5)) (F.CAN_STAT_tec 1) 0).f (F.CAN_STAT_tec 1), by decide +kernel⟩,
   ⟨(obj (on1 .run)).setF (F.CAN_STAT_state 1) 3, 1, ((obj (on1 .run)).setF (F.CAN_STAT_state 1) 3).f (F.CAN_STAT_tec 1), by decide +kernel⟩,
   ⟨(que q2 (on1 .run)).setF (F.CAN_STAT_tec 1) 0, 1, ((que q2 (on1 .run)).setF (F.CAN_STAT_tec 1) 0).f (F.CAN_STAT_tec 1), by decide +kernel⟩,
   ⟨State.setF (cn (fun c => { c with mode := 2 }) (que q2 (on1 .run))) (F.CAN_STAT_tec 1) 0, 1, (State.setF (cn (fun c => { c with mode := 2 }) (que q2 (on1 .run))) (F.CAN_STAT_tec 1) 0).f (F.CAN_STAT_tec 1), by decide +kernel⟩,
   ⟨(que q2 (on1 .run)).setF (F.CAN_STAT_tec 1) 0, 1, ((que q2 (on1 .run)).setF (F.CAN_STAT_tec 1) 0).f (F.CAN_STAT_tec 1), some { code := 3, more := 0 }, { code := 3, more := 0 }, by decide +kernel⟩,
   ⟨(que q2 (on1 .run)).setF (F.CAN_STAT_tec 1) 0, 1, ((que q2 (on1 .run)).setF (F.CAN_STAT_tec 1) 0).f (F.CAN_STAT_tec 1), { idWord := 0x20000055#32, control := 0x03#8, data := [0x01#8, 0x02#8, 0x03#8] }, none, by decide +kernel⟩,
   ⟨obj (on1 .run), 1, (obj (on1 .run)).f (F.CAN_STAT_tec 1), { idWord := 0x20000055, control := 3, data := [1, 2, 3] }, none, 3, by decide +kernel⟩,
   ⟨(que q2 (on1 .run)).setF (F.CAN_STAT_tec 1) 0, 1, ((que q2 (on1 .run)).setF (F.CAN_STAT_tec 1) 0).f (F.CAN_STAT_tec 1), by decide +kernel⟩,
   ⟨wr (obj (on1 .run)), 1, State.f (wr (obj (on1 .run))) (F.CAN_STAT_tec 1), y1, [y1], by decide +kernel⟩,
   ⟨wr (putG (obj (on1 .run)) oa [255, 255, 255, 255, 0, 0, 0, 0, 0, 1]), 1, State.f (wr (putG (obj (on1 .run)) oa [255, 255, 255, 255, 0, 0, 0, 0, 0, 1])) (F.CAN_STAT_tec 1), y1, [y1], by decide +kernel⟩⟩

end Can

namespace Granary

def g (s : State) := sets s [(F.GRN_STAT_init_done, 1), (F.GRN_CFG_scrub_int, 3)]

theorem witness_GranaryErrorsAndScrub :
    (∃ (s : State) (bank : Fin 32), (∀ w ∈ s.eccWb, grnBank (w * 8) ≠ bank))
    ∧ (∃ (s : State) (bank : Fin 32) (w : _) (pre : _) (post : _), s.eccWb = pre ++ w :: post ∧ (∀ x ∈ pre, grnBank (x * 8) ≠ bank) ∧ grnBank (w * 8) = bank)
    ∧ (∃ (s : State), s.live = false)
    ∧ (∃ (s : State), (s.live = false ∨ s.fb F.GRN_STAT_init_done = false ∨ s.f F.GRN_CFG_scrub_int = 0))
    ∧ (∃ (s : State), s.live = true ∧ s.fb F.GRN_STAT_init_done = true ∧ s.f F.GRN_CFG_scrub_int ≠ 0 ∧ s.scrubWord ∉ s.grnBad ∧ s.eccCorrAt = none)
    ∧ (∃ (s : State), s.live = true ∧ s.fb F.GRN_STAT_init_done = true ∧ s.f F.GRN_CFG_scrub_int ≠ 0 ∧ s.scrubWord ∉ s.grnBad ∧ s.scrubWord < 8388608) :=
  ⟨⟨{ on .run with eccWb := [0] }, 31, by decide +kernel⟩,
   ⟨{ on .run with eccWb := [0, 0, 8388607] }, 0, 0, [], [0, 8388607], by decide +kernel⟩,
   ⟨State.reset, by decide +kernel⟩,
   ⟨(on .run).setF F.GRN_STAT_init_done 0, by decide +kernel⟩,
   ⟨g (on .run), by decide +kernel⟩,
   ⟨{ sets (on .run) [(F.GRN_STAT_init_done, 1), (F.GRN_CFG_scrub_int, 1)] with scrubWord := 8388607 }, by decide +kernel⟩⟩

end Granary

namespace Whole

theorem witness_CommandsRunFromTheFront :
    (∃ (c : Instr) (rest : List Instr) (s : State), s.pending = c :: rest)
    ∧ (∃ (s : State), s.pending = [])
    ∧ (∃ (s : State), s.awake = false)
    ∧ (∃ (s : State), s.awake = true)
    ∧ (∃ (s : State), s.live = false) :=
  ⟨⟨.lockLost, [.refLost], { on .run with pending := [.lockLost, .refLost] }, by decide +kernel⟩,
   ⟨on .run, by decide +kernel⟩,
   ⟨State.reset, by decide +kernel⟩,
   ⟨on .run, by decide +kernel⟩,
   ⟨State.reset, by decide +kernel⟩⟩

theorem witness_StepKeepsTheStateSound :
    (∃ (s : State) (t : State), s.Sound ∧ step s = .next t) :=
  ⟨{ on .run with pending := [.granaryInitDone] }, _, by unfold State.Sound State.Canonical State.SeqInRange; decide +kernel, rfl⟩

theorem witness_StepTakesOneCommand :
    (∃ (c : Instr) (s : State) (t : State), exec c s = .next t)
    ∧ (∃ (s : State) (t : State), step s = .next t) :=
  ⟨⟨.granaryInitDone, on .run, _, rfl⟩,
   ⟨{ on .run with pending := [.granaryInitDone] }, _, rfl⟩⟩

end Whole

end Sys2Proof.Tests
end

section
/-! SUPPORT. What every operation of the block does to the invariant of the memories and to the queue: a state that an operation makes
`Follows` the one it came from, and every row of the table answers such a state. One lemma for each operation of the model, in the order of
the model's files; each proof names the operations that the definition is made of. -/

namespace Sys2Proof.Machine

/-- `s` has come from `s₀` by operations of the block: it is sound where `s₀` was, and the same commands wait. -/
def State.Follows (s s₀ : State) : Prop := (s₀.Sound → s.Sound) ∧ s.pending = s₀.pending

/-- The outcome is a next state, and one that follows `s₀`. -/
def State.Answers (s₀ : State) (o : Host.Outcome State Fault Refusal) : Prop := ∃ t, o = .next t ∧ t.Follows s₀

variable {s t s₀ : State}

theorem State.Follows.refl : s.Follows s := ⟨id, rfl⟩

/-- What keeps the sound state and the queue may come next. -/
theorem State.Follows.of_sound (h : s.Follows s₀) (hs : s.Sound → t.Sound) (hp : t.pending = s.pending) : t.Follows s₀ :=
  ⟨fun h₀ => hs (h.1 h₀), hp.trans h.2⟩

/-- An update of fields that soundness does not speak of. -/
theorem State.Follows.same {now cyc just justAt seq mode origin ctl pwr boot snaps rdata poisoned events grnBad eccWb portB dmExt engReads
    eccCorrAt scrubWord scrubCyc lanes cells arms units plan pwm pwmIo engines pm tasks sched adc fr saf hif tim can pair freeCtr}
    (h : s.Follows s₀) :
    ({ s with now, cyc, just, justAt, seq, mode, origin, ctl, pwr, boot, snaps, rdata, poisoned, events, grnBad, eccWb, portB, dmExt,
              engReads, eccCorrAt, scrubWord, scrubCyc, lanes, cells, arms, units, plan, pwm, pwmIo, engines, pm, tasks, sched, adc, fr,
              saf, hif, tim, can, pair, freeCtr } : State).Follows s₀ :=
  h

theorem State.Follows.ite {c : Prop} [Decidable c] (hs : s.Follows s₀) (ht : t.Follows s₀) :
    (if c then s else t).Follows s₀ := by
  split
  exacts [hs, ht]

theorem State.Follows.foldl {ι : Type} {is : List ι} {g : State → ι → State} (h : s.Follows s₀)
    (hg : ∀ {t i}, t.Follows s₀ → (g t i).Follows s₀) : (is.foldl g s).Follows s₀ :=
  List.foldlRecOn is g (motive := fun t => t.Follows s₀) h fun _ ht _ _ => hg ht

theorem State.Answers.next (h : s.Follows s₀) : s₀.Answers (.next s) := ⟨s, rfl, h⟩

theorem State.Answers.ite {c : Prop} [Decidable c] {o o' : Host.Outcome State Fault Refusal} (h : s₀.Answers o)
    (h' : s₀.Answers o') : s₀.Answers (if c then o else o') := by
  split
  exacts [h, h']

/-! ### Registers, time, events, the granary and host memory -/

theorem State.Follows.wr {off v : Nat} (h : s.Follows s₀) : (s.wr off v).Follows s₀ := h.of_sound (fun hs => hs.wr off v) rfl

theorem State.Follows.setF {x : Fld} {v : Nat} (h : s.Follows s₀) : (s.setF x v).Follows s₀ := h.wr

theorem State.Follows.note {off mask : Nat} (h : s.Follows s₀) : (s.note off mask).Follows s₀ := h.same

theorem State.Follows.orF {x : Fld} {m : Nat} (h : s.Follows s₀) : (s.orF x m).Follows s₀ := h.setF.note

theorem State.Follows.mark {x : Fld} (h : s.Follows s₀) : (s.mark x).Follows s₀ := h.orF

theorem State.Follows.putRc {x : Fld} {v : Nat} (h : s.Follows s₀) : (s.putRc x v).Follows s₀ := h.setF.note

theorem State.Follows.putWorst {x : Fld} {v : Nat} (h : s.Follows s₀) : (s.putWorst x v).Follows s₀ := .ite h.setF.note h

theorem State.Follows.bumpF {x : Fld} {k : Nat} (h : s.Follows s₀) : (s.bumpF x k).Follows s₀ := h.putRc

theorem State.Follows.clearBits {off hi lo m : Nat} (h : s.Follows s₀) : (s.clearBits off hi lo m).Follows s₀ := h.wr

theorem State.Follows.setLane {l : Nat} {v : Lane} (h : s.Follows s₀) : (s.setLane l v).Follows s₀ := h.same

theorem State.Follows.modLane {l : Nat} {g : Lane → Lane} (h : s.Follows s₀) : (s.modLane l g).Follows s₀ := h.setLane

theorem State.Follows.setCell {c : Nat} {v : Cell} (h : s.Follows s₀) : (s.setCell c v).Follows s₀ := h.same

theorem State.Follows.modCell {c : Nat} {g : Cell → Cell} (h : s.Follows s₀) : (s.modCell c g).Follows s₀ := h.setCell

theorem State.Follows.setArm {a : Nat} {v : Arm} (h : s.Follows s₀) : (s.setArm a v).Follows s₀ := h.same

theorem State.Follows.modArm {a : Nat} {g : Arm → Arm} (h : s.Follows s₀) : (s.modArm a g).Follows s₀ := h.setArm

theorem State.Follows.modUnit {u : Nat} {g : WinUnit → WinUnit} (h : s.Follows s₀) : (s.modUnit u g).Follows s₀ := h.same

theorem State.Follows.modPwm {c : Nat} {g : Pwm → Pwm} (h : s.Follows s₀) : (s.modPwm c g).Follows s₀ := h.same

theorem State.Follows.modCan {k : Nat} {g : Can → Can} (h : s.Follows s₀) : (s.modCan k g).Follows s₀ := h.same

theorem State.Follows.modPair {g : Pair → Pair} (h : s.Follows s₀) : (s.modPair g).Follows s₀ := h.same

theorem State.Follows.free (h : s.Follows s₀) : (s.free).2.Follows s₀ := h.same

theorem State.Follows.slewAfter {k : Nat} (h : s.Follows s₀) : (s.slewAfter k).Follows s₀ := .ite h (.ite h.setF.same h.same)

theorem State.Follows.cycles {k : Nat} (h : s.Follows s₀) : (s.cycles k).Follows s₀ := .ite h.slewAfter.same h.same

theorem State.Follows.coreTick (h : s.Follows s₀) : s.coreTick.Follows s₀ := h.cycles

theorem State.Follows.advanceToU {u : Nat} (h : s.Follows s₀) : (s.advanceToU u).Follows s₀ := .ite h.cycles h

theorem State.Follows.advanceTo {ns : Nat} (h : s.Follows s₀) : (s.advanceTo ns).Follows s₀ := h.advanceToU

theorem State.Follows.advanceCyc {c : Nat} (h : s.Follows s₀) : (s.advanceCyc c).Follows s₀ := .ite h.cycles h

theorem State.Follows.raiseP {code : EvCode} {source : Nat} {payload : List Byte} (h : s.Follows s₀) :
    (s.raiseP code source payload).Follows s₀ := h.of_sound (fun hs => hs.raiseP code source payload) rfl

theorem State.Follows.raise {code : EvCode} {unit aux value : Nat} (h : s.Follows s₀) : (s.raise code unit aux value).Follows s₀ :=
  h.raiseP

theorem State.Follows.raiseFrom {code : EvCode} {source unit aux value : Nat} (h : s.Follows s₀) :
    (s.raiseFrom code source unit aux value).Follows s₀ := h.raiseP

theorem State.Follows.raiseClampFrom {source origin off lo req applied : Nat} (h : s.Follows s₀) :
    (s.raiseClampFrom source origin off lo req applied).Follows s₀ := h.raiseP

theorem State.Follows.raiseClamp {origin off lo req applied : Nat} (h : s.Follows s₀) :
    (s.raiseClamp origin off lo req applied).Follows s₀ := h.raiseClampFrom

theorem State.Follows.raiseOnce {bit : Fld} {code : EvCode} {unit aux value : Nat} (h : s.Follows s₀) :
    (s.raiseOnce bit code unit aux value).Follows s₀ := .ite h.mark h.mark.raise

theorem State.Follows.grnWrite {a : Nat} {bs : List Byte} (h : s.Follows s₀) : (s.grnWrite a bs).Follows s₀ :=
  h.of_sound (fun hs => hs.grnWrite a bs) (by unfold State.grnWrite; split <;> rfl)

theorem State.Follows.hostWrite {port addr : Nat} {bs : List Byte} (h : s.Follows s₀) : (s.hostWrite port addr bs).Follows s₀ :=
  h.of_sound (fun hs => hs.hostWrite port addr bs) rfl

theorem State.Follows.forEach {is : List Nat} {g : State → Nat → State} (h : s.Follows s₀)
    (hg : ∀ {t i}, t.Follows s₀ → (g t i).Follows s₀) : (s.forEach is g).Follows s₀ := h.foldl hg

/-! ### Checked reads of the granary, and its ports -/

theorem State.Follows.eccCorr {aux a : Nat} (h : s.Follows s₀) : (s.eccCorr aux a).Follows s₀ :=
  .ite h.bumpF.same.raise.same h.bumpF.same

theorem State.Follows.eccUncorr {aux a : Nat} (h : s.Follows s₀) : (s.eccUncorr aux a).Follows s₀ := h.bumpF.setF.setF.raise

theorem State.Follows.grnSpoil {a : Nat} {i j : Fin 64} (h : s.Follows s₀) : (s.grnSpoil a i j).Follows s₀ :=
  h.of_sound (fun hs => ⟨hs.1.grnSpoil a i j, by unfold State.SeqInRange State.grnSpoil; simp only; split <;> exact hs.2⟩)
    (by unfold State.grnSpoil; simp only; split <;> rfl)

theorem State.Follows.grnCheckBy {req : Nat → Nat} {a n : Nat} {eccs : List Ecc} (h : s.Follows s₀) :
    (s.grnCheckBy req a n eccs).2.Follows s₀ := by
  unfold State.grnCheckBy
  extract_lets +onlyGivenNames _ s1 _ s2 s3
  have h1 : s1.Follows s₀ := h.foldl fun ht => by split; exacts [ht.grnSpoil, ht]
  have h2 : s2.Follows s₀ := h1.forEach fun ht => ht.eccUncorr
  have h3 : s3.Follows s₀ := h2.foldl fun ht => .ite ht.eccCorr ht
  exact h3

theorem State.Follows.grnCheck {aux a n : Nat} {eccs : List Ecc} (h : s.Follows s₀) : (s.grnCheck aux a n eccs).2.Follows s₀ :=
  h.grnCheckBy

theorem State.Follows.grnSee {aux a n : Nat} (h : s.Follows s₀) : (s.grnSee aux a n).Follows s₀ := h.grnCheck

theorem State.Follows.grnWait (h : s.Follows s₀) : s.grnWait.Follows s₀ := .ite h h.setF

theorem State.Follows.grnWriteB {a : Nat} {bs : List Byte} (h : s.Follows s₀) : (s.grnWriteB a bs).Follows s₀ :=
  .ite h.grnWrite.same h.grnWrite

theorem State.Follows.grnWriteA {a : Nat} {bs : List Byte} (h : s.Follows s₀) : (s.grnWriteA a bs).Follows s₀ :=
  h.grnWrite.foldl fun ht => ht.grnWrite

/-! ### The lane and arm map -/

theorem State.Follows.mapCheck (h : s.Follows s₀) : s.mapCheck.Follows s₀ := by
  unfold State.mapCheck
  extract_lets +onlyGivenNames s1
  have h1 : s1.Follows s₀ := h.forEach fun ht => ht.setF
  split <;> exact h1.wr

/-! ### Lane states, the transmitter, sets and frames -/

theorem State.Follows.setLaneState {l v : Nat} (h : s.Follows s₀) : (s.setLaneState l v).Follows s₀ := h.setF

theorem State.Follows.sendNow {l : Nat} {xs : List TxSet} (h : s.Follows s₀) : (s.sendNow l xs).Follows s₀ := .ite h.modLane h

theorem State.Follows.sendBlocks {cls : Nat} (h : s.Follows s₀) : (s.sendBlocks cls).Follows s₀ := h.forEach fun ht => ht.sendNow

theorem State.Follows.cutOrders (h : s.Follows s₀) : s.cutOrders.Follows s₀ := .ite (h.forEach (fun ht => ht.modLane)) h

theorem State.Follows.openJoin (h : s.Follows s₀) : s.openJoin.Follows s₀ := h.setF.same

theorem State.Follows.bondLost (h : s.Follows s₀) : s.bondLost.Follows s₀ := .ite h.same.openJoin h.same

theorem State.Follows.putFrames {l : Nat} {fs : List TxFrame} (h : s.Follows s₀) : (s.putFrames l fs).2.Follows s₀ := h.modLane

theorem State.Follows.showU {c u : Nat} (h : s.Follows s₀) : (s.showU c u).Follows s₀ := h.wr

theorem State.Follows.showW {c w : Nat} (h : s.Follows s₀) : (s.showW c w).Follows s₀ := h.wr

theorem State.Follows.showAssigned {l : Nat} {d : TxSet} (h : s.Follows s₀) : (s.showAssigned l d).Follows s₀ :=
  .ite h.showW h.showU

theorem regs_wf_filter_some (p : Nat × BitVec 32 → Bool) (t : List (Nat × BitVec 32)) (lo : Nat)
    (h : Registers.wf (some lo) t = true) : Registers.wf (some lo) (t.filter p) = true := by
  induction t generalizing lo with
  | nil => rfl
  | cons q t ih =>
    simp only [Registers.wf, Bool.and_eq_true, decide_eq_true_eq] at h
    rw [List.filter_cons]; split
    · simp only [Registers.wf, Bool.and_eq_true, decide_eq_true_eq]
      exact ⟨h.1, ih q.1 h.2⟩
    · exact ih lo (regs_wf_lower (Nat.le_of_lt h.1.1) h.2)

/-- A register table from which entries are taken out is canonical still. -/
theorem regs_wf_filter (p : Nat × BitVec 32 → Bool) (t : List (Nat × BitVec 32)) (h : Registers.wf none t = true) :
    Registers.wf none (t.filter p) = true := by
  induction t with
  | nil => rfl
  | cons q t ih =>
    simp only [Registers.wf, Bool.and_eq_true, decide_eq_true_eq] at h
    rw [List.filter_cons]; split
    · simp only [Registers.wf, Bool.and_eq_true, decide_eq_true_eq]
      exact ⟨h.1, regs_wf_filter_some p t q.1 h.2⟩
    · exact ih (regs_wf_of_none h.2)

theorem State.Follows.hideAssigned {gone : Nat → Bool → Bool} (h : s.Follows s₀) : (s.hideAssigned gone).Follows s₀ :=
  h.of_sound (fun hs => ⟨⟨hs.1.1, hs.1.2.1, hs.1.2.2.1, regs_wf_filter _ _ hs.1.2.2.2.1, hs.1.2.2.2.2⟩, hs.2⟩) rfl

theorem State.Follows.hideLane {l : Nat} (h : s.Follows s₀) : (s.hideLane l).Follows s₀ := h.hideAssigned

theorem State.Follows.assignSent {l a : Nat} (h : s.Follows s₀) : (s.assignSent l a).Follows s₀ := h.setF.setF.modLane

theorem State.Follows.flushOne {l : Nat} (h : s.Follows s₀) : (s.flushOne l).Follows s₀ := by
  unfold State.flushOne
  extract_lets +onlyGivenNames _
  split
  · exact h
  · exact .ite (.ite (.assignSent (.ite h.modLane.showAssigned h.modLane)) (.ite h.modLane.showAssigned h.modLane)) h

theorem State.Follows.flushLane {l : Nat} (h : s.Follows s₀) : (s.flushLane l).Follows s₀ := h.foldl fun ht => ht.flushOne

theorem State.Follows.flushSets (h : s.Follows s₀) : s.flushSets.Follows s₀ := h.forEach fun ht => ht.flushLane

theorem State.Follows.dropDiscovery (h : s.Follows s₀) : s.dropDiscovery.Follows s₀ := h.forEach fun ht => ht.modLane

theorem State.Follows.sendDue {l rank : Nat} {xs : List TxSet} (h : s.Follows s₀) : (s.sendDue l rank xs).Follows s₀ :=
  .ite h.modLane.flushLane h

theorem State.Follows.diagNormal {l : Nat} (h : s.Follows s₀) : (s.diagNormal l).Follows s₀ := .ite h.setF.setLaneState h.setF

theorem State.Follows.diagRestore (h : s.Follows s₀) : s.diagRestore.Follows s₀ := h.forEach fun ht => .ite ht ht.diagNormal

/-! ### The winnow engine -/

theorem State.Follows.fixCell {c : Nat} (h : s.Follows s₀) : (s.fixCell c).Follows s₀ :=
  .ite h.modCell.setF.setF.setF.raise h.modCell.setF.setF.setF

theorem State.Follows.fixCodes (h : s.Follows s₀) : s.fixCodes.Follows s₀ :=
  (h.forEach (fun ht => ht.forEach (fun ht => ht.fixCell))).forEach (fun ht => ht.setF)

theorem State.Follows.writeCounts {a : Nat} (h : s.Follows s₀) : (s.writeCounts a).Follows s₀ := h.setF.setF.setF.setF

theorem State.Follows.startUnit {u : Nat} (h : s.Follows s₀) : (s.startUnit u).Follows s₀ := by
  unfold State.startUnit
  split
  · exact h.modUnit.modArm
  · exact h

theorem State.Follows.readyArm {a : Nat} (h : s.Follows s₀) : (s.readyArm a).Follows s₀ := by
  unfold State.readyArm
  extract_lets +onlyGivenNames _ s1
  have h1 : s1.Follows s₀ := h.modArm
  split
  · exact .ite h1.modArm.modUnit.startUnit h1
  · exact h1.startUnit

theorem State.Follows.armRequest {ws : List Nat} (h : s.Follows s₀) : (s.armRequest ws).Follows s₀ := by
  unfold State.armRequest
  split
  · exact h
  · exact .ite (.raise (.ite h.mark.setF h)) (.ite h.mark.raise (.ite h.mark.raise (.ite h.modArm.readyArm h.modArm)))

theorem State.Follows.winnowStart (h : s.Follows s₀) : s.winnowStart.Follows s₀ :=
  .ite ((h.forEach (fun ht => .ite ht.modArm ht)).forEach (fun ht => ht.startUnit)) h

theorem State.Follows.tryRanking {u : Nat} (h : s.Follows s₀) : (s.tryRanking u).Follows s₀ :=
  .ite (.modUnit (.ite h (h.forEach (fun ht => ht.modArm)))) h

theorem execSelectionHandover_answers {u : Fin 6} (h : s.Follows s₀) : s₀.Answers (execSelectionHandover u s) := by
  unfold execSelectionHandover
  split
  · exact .next h
  · split
    · exact .next h.modUnit
    · extract_lets +onlyGivenNames _ s1 s2 s3 _ s4 s5 s6 _ s7
      have h1 : s1.Follows s₀ := .ite h.raiseOnce h
      have h2 : s2.Follows s₀ := .ite h1.mark h1
      have h3 : s3.Follows s₀ := .ite h2.grnWriteA h2
      have h4 : s4.2.Follows s₀ := h3.free
      have h5 : s5.Follows s₀ := h4.modUnit
      have h6 : s6.Follows s₀ := h5.modArm
      have h7 : s7.Follows s₀ := h6.same
      exact .next h7.startUnit.tryRanking

theorem State.Follows.writeRank {a : Nat} {sel : Selection} (h : s.Follows s₀) : (s.writeRank a sel).Follows s₀ := h.grnWriteA.setF

theorem execRankComplete_answers {u : Fin 6} (h : s.Follows s₀) : s₀.Answers (execRankComplete u s) := by
  unfold execRankComplete
  extract_lets +onlyGivenNames _
  split
  · exact .next (h.foldl (fun ht => ht.writeRank)).modUnit
  · exact .ite (.next (h.foldl (fun ht => ht.writeRank)).modUnit) (.next h)

theorem State.Follows.clearSelections (h : s.Follows s₀) : s.clearSelections.Follows s₀ :=
  ((h.forEach (fun ht => ht.modUnit)).forEach (fun ht => ht.modArm)).same

theorem State.Follows.driftCheck {c : Nat} (h : s.Follows s₀) : (s.driftCheck c).Follows s₀ :=
  .ite (.ite h h.modCell.raise) (.ite h.modCell h)

theorem State.Follows.initTally {c cNom : Nat} (h : s.Follows s₀) : (s.initTally c cNom).Follows s₀ :=
  .driftCheck (.setF (.ite h.modCell h.modCell.setF.modCell))

theorem State.Follows.correctTally {c : Nat} (h : s.Follows s₀) : (s.correctTally c).Follows s₀ :=
  .driftCheck (.ite h.setF.modCell.modCell.raise h.setF.modCell)

theorem State.Follows.tallyCell {c : Nat} {iPrev : Int} (h : s.Follows s₀) : (s.tallyCell c iPrev).Follows s₀ :=
  .ite (.ite (.ite h.modCell.correctTally h.modCell) h) h

theorem execTallyUpdate_answers {u : Fin 6} (h : s.Follows s₀) : s₀.Answers (execTallyUpdate u s) := by
  unfold execTallyUpdate
  split
  · extract_lets +onlyGivenNames s1
    have h1 : s1.Follows s₀ := h.modUnit
    split
    · exact .next (h1.forEach (fun ht => by split; exacts [ht.forEach (fun ht => ht.tallyCell), ht]))
    · exact .next h1
  · exact .next h

theorem State.Follows.assignUnits {report : State → Nat → Nat → Nat → State} (h : s.Follows s₀)
    (hreport : ∀ {t a b c}, t.Follows s₀ → (report t a b c).Follows s₀) : (s.assignUnits report).Follows s₀ := by
  unfold State.assignUnits
  extract_lets +onlyGivenNames _ _ _ s1 _
  have h1 : s1.Follows s₀ := h.forEach fun ht => ht.setF
  refine List.foldlRecOn _ _ (motive := fun p : State × List Nat => p.1.Follows s₀) h1 fun p hp a _ => ?_
  dsimp only; split
  · exact hreport hp.setF
  · exact hp

/-! ### The edge planner -/

theorem execArmPlanDone_answers {u : Fin 6} (h : s.Follows s₀) : s₀.Answers (execArmPlanDone u s) := by
  unfold execArmPlanDone
  split
  · exact .next h
  · extract_lets +onlyGivenNames _ s1
    have h1 : s1.Follows s₀ := h.same
    split
    · exact .next h1
    · extract_lets +onlyGivenNames _ _ _ s2 s3 s4 s5 s6
      have h2 : s2.Follows s₀ := h1.same
      have h3 : s3.Follows s₀ := h2.modArm
      have h4 : s4.Follows s₀ := h3.bumpF.bumpF
      have h5 : s5.Follows s₀ := h4.bumpF.bumpF
      have h6 : s6.Follows s₀ := .ite h5.mark h5
      exact .next (.ite h6.mark.raise h6)

theorem State.Follows.commandCell {c : Nat} {p : PlanSlot} (h : s.Follows s₀) : (s.commandCell c p).Follows s₀ := h.modCell

/-! ### Local PWM -/

theorem State.Follows.keepStart {off old : Nat} (h : s.Follows s₀) : (s.keepStart off old).Follows s₀ := h.same

theorem State.Follows.updateDrive (h : s.Follows s₀) : s.updateDrive.Follows s₀ :=
  .ite (h.forEach (fun ht => .ite ht.modPwm ht)) (h.forEach (fun ht => ht.modPwm))

theorem State.Follows.pwmHiZ (h : s.Follows s₀) : s.pwmHiZ.Follows s₀ := h.forEach fun ht => ht.modPwm

theorem State.Follows.startMask {src : Nat} (h : s.Follows s₀) : (s.startMask src).Follows s₀ := .ite h h.same

theorem State.Follows.startBypass {e : Nat} (h : s.Follows s₀) : (s.startBypass e).Follows s₀ := .ite h h.same

theorem execMaskExpire_answers {src : Fin 4} (h : s.Follows s₀) : s₀.Answers (execMaskExpire src s) := by
  unfold execMaskExpire
  split
  · exact .next h
  · exact .next h.advanceCyc.same

theorem State.Follows.setFlt {i : Nat} {x : FltIn} (h : s.Follows s₀) : (s.setFlt i x).Follows s₀ := h.same

theorem State.Follows.fltPin {i : Nat} {on : Bool} {len : Nat} (h : s.Follows s₀) : (s.fltPin i on len).Follows s₀ := by
  unfold State.fltPin
  extract_lets +onlyGivenNames s1
  have h1 : s1.Follows s₀ := h.setF
  split
  · exact h1.setFlt
  · exact h1
  · exact h1.setFlt

theorem State.Follows.setFltPins {pins : Nat} (h : s.Follows s₀) : (s.setFltPins pins).Follows s₀ := h.forEach fun ht => ht.fltPin

theorem State.Follows.fltTell {i tally : Nat} (h : s.Follows s₀) : (s.fltTell i tally).Follows s₀ := h.same.setFlt.raise

theorem State.Follows.fltAct {i : Nat} (h : s.Follows s₀) : (s.fltAct i).Follows s₀ := by
  unfold State.fltAct
  extract_lets +onlyGivenNames _ s1 _ s2 _ _ s3 _ s4 _ s5
  have h1 : s1.Follows s₀ := h.setFlt
  have h2 : s2.Follows s₀ := h1.setF
  have h3 : s3.Follows s₀ := .ite h2.setF h2
  have h4 : s4.Follows s₀ := h3.setF.startMask
  have h5 : s5.Follows s₀ := .ite h4.same.pwmHiZ (h4.forEach (fun ht => ht.modPwm))
  exact .ite h5 h5.fltTell

theorem State.Follows.fltCheck {i : Nat} (h : s.Follows s₀) : (s.fltCheck i).Follows s₀ := .ite h.fltAct h

theorem execFaultInputAssert_answers {i : Fin 8} {cycles : Nat} (h : s.Follows s₀) :
    s₀.Answers (execFaultInputAssert i cycles s) := by
  unfold execFaultInputAssert
  split
  · exact .next h
  · split
    · exact .next h.fltPin
    · extract_lets +onlyGivenNames s1
      have h1 : s1.Follows s₀ := by unfold s1; split; exacts [h.advanceCyc, h]
      exact .next h1.fltPin.fltCheck

theorem State.Follows.fltClear {i : Nat} (h : s.Follows s₀) : (s.fltClear i).Follows s₀ := by
  unfold State.fltClear
  extract_lets +onlyGivenNames _
  split
  · exact .ite h.setF h.setF.fltTell
  · extract_lets +onlyGivenNames s1 _ s2 _ s3
    have h1 : s1.Follows s₀ := h.setF.setF
    have h2 : s2.Follows s₀ := h1.same
    have h3 : s3.Follows s₀ := .ite h2.setFlt h2
    exact .ite (.ite (h3.forEach (fun ht => ht.modPwm)) h3) (h3.setF.forEach (fun ht => ht.modPwm)).same.updateDrive

theorem State.Follows.pulseDrop {c : Nat} (h : s.Follows s₀) : (s.pulseDrop c).Follows s₀ := .ite h (.ite h.bumpF.raise h.bumpF)

theorem State.Follows.edge {c : Nat} {level : Bool} {t : Int} {minP : Nat} {stretch : Bool} (h : s.Follows s₀) :
    (s.edge c level t minP stretch).Follows s₀ := .modPwm (.ite h.pulseDrop h)

theorem State.Follows.activate {c onT offT n dead minP : Nat} {stretch : Bool} (h : s.Follows s₀) :
    (s.activate c onT offT n dead minP stretch).Follows s₀ := .ite h (.ite h.pulseDrop (.ite h.edge.startBypass h.edge))

theorem State.Follows.deactivate {c onT offT n dead minP : Nat} {stretch : Bool} (h : s.Follows s₀) :
    (s.deactivate c onT offT n dead minP stretch).Follows s₀ := .ite h (.ite h.pulseDrop h.edge)

theorem State.Follows.blankEnd {c : Nat} (h : s.Follows s₀) : (s.blankEnd c).Follows s₀ := h.forEach fun ht => .ite ht.fltCheck ht

theorem State.Follows.releaseCycle {c pins : Nat} (h : s.Follows s₀) : (s.releaseCycle c pins).Follows s₀ :=
  h.modPwm.forEach fun ht => .ite ht.setF ht

theorem State.Follows.loadWave {c : Nat} {k : PwmSet} {complement : Bool} {start : Nat} (h : s.Follows s₀) :
    (s.loadWave c k complement start).Follows s₀ := .ite h.modPwm.activate (.ite h.modPwm.deactivate.blankEnd h.modPwm)

theorem State.Follows.reloadOne {c start pins at_ : Nat} (h : s.Follows s₀) : (s.reloadOne c start pins at_).Follows s₀ :=
  .releaseCycle (.ite h.modPwm.loadWave h.modPwm.loadWave)

theorem State.Follows.reloadPair {c start pins at_ : Nat} (h : s.Follows s₀) : (s.reloadPair c start pins at_).Follows s₀ :=
  .ite h.reloadOne.reloadOne h.reloadOne

theorem State.Follows.reloadFrom {n c start pins at_ : Nat} (h : s.Follows s₀) :
    (State.reloadFrom n s c start pins at_).Follows s₀ := by
  induction n generalizing s c start with
  | zero => exact h.reloadPair
  | succ n ih => exact h.reloadPair.forEach fun ht => ih ht

theorem State.Follows.lagChain {c lag : Nat} (h : s.Follows s₀) : (s.lagChain c lag).Follows s₀ := h.forEach fun ht => ht.modPwm

theorem State.Follows.syncLoad {src : Nat} (h : s.Follows s₀) : (s.syncLoad src).Follows s₀ :=
  h.forEach fun ht => ht.lagChain.reloadFrom

theorem State.Follows.compareAt {c : Nat} {isOn : Bool} (h : s.Follows s₀) : (s.compareAt c isOn).Follows s₀ := by
  unfold State.compareAt
  extract_lets +onlyGivenNames _ _ s1 _ _ s2 _ _ _
  have h1 : s1.Follows s₀ := h.modPwm
  have h2 : s2.Follows s₀ := .ite h1.modPwm h1
  split
  · exact .activate (.ite h2.deactivate.blankEnd h2)
  · exact .ite h2.deactivate.blankEnd.activate h2.deactivate.blankEnd

theorem State.Follows.commitTransfer (h : s.Follows s₀) : s.commitTransfer.Follows s₀ :=
  .ite h (h.same.setF.forEach (fun ht => ht.modPwm))

theorem State.Follows.forceWritten {c : Nat} (h : s.Follows s₀) : (s.forceWritten c).Follows s₀ := h.modPwm.updateDrive

theorem execDlCalibrate_answers {inRange : Bool} {code : Fin 128} (h : s.Follows s₀) :
    s₀.Answers (execDlCalibrate inRange code s) :=
  .ite (.ite (.next h.advanceCyc.same.setF.setF.setF) (.next h.advanceCyc.same.setF.setF.mark.raise)) (.next h)

theorem execSyncOutPulse_answers (h : s.Follows s₀) : s₀.Answers (execSyncOutPulse s) := .ite (.next h.advanceToU.same) (.next h)

theorem execSyncOutEnd_answers (h : s.Follows s₀) : s₀.Answers (execSyncOutEnd s) := .ite (.next h.advanceToU.same) (.next h)

theorem execSyncInTimeout_answers (h : s.Follows s₀) : s₀.Answers (execSyncInTimeout s) := by
  unfold execSyncInTimeout
  split
  · exact .ite (.next h.advanceToU.same.raiseOnce) (.next h)
  · exact .next h

/-! ### The sequencing of the analog front end -/

theorem State.Follows.modSlice {k : Nat} {g : AdcSlice → AdcSlice} (h : s.Follows s₀) : (s.modSlice k g).Follows s₀ := h.same

theorem State.Follows.calBegin {u : Option Nat} (h : s.Follows s₀) : (s.calBegin u).Follows s₀ := h.same

theorem State.Follows.transfer {k : Nat} (h : s.Follows s₀) : (s.transfer k).Follows s₀ := .ite h.same.calBegin.setF (.ite h.setF h)

theorem State.Follows.startConv {k t ch : Nat} {u : Option Nat} (h : s.Follows s₀) : (s.startConv k t ch u).Follows s₀ := h.modSlice

theorem State.Follows.startSeq {k t : Nat} (h : s.Follows s₀) : (s.startSeq k t).Follows s₀ := by
  unfold State.startSeq
  split
  · exact .ite h.startConv.modSlice h
  · split
    · exact h.modSlice
    · extract_lets +onlyGivenNames s1
      have h1 : s1.Follows s₀ := .ite h h.transfer
      split
      · exact h1
      · exact .ite h1.startConv.modSlice h1.modSlice

theorem State.Follows.startNext {k t : Nat} (h : s.Follows s₀) : (s.startNext k t).Follows s₀ := by
  unfold State.startNext
  split
  · exact h
  · split
    · exact h.modSlice.startConv
    · exact .ite h.startSeq h

theorem State.Follows.adcResume (h : s.Follows s₀) : s.adcResume.Follows s₀ := h.forEach fun ht => ht.startNext

theorem State.Follows.roundStart {k : Nat} (h : s.Follows s₀) : (s.roundStart k).Follows s₀ := .ite h.transfer.modSlice.startNext h

theorem State.Follows.roundsStart (h : s.Follows s₀) : s.roundsStart.Follows s₀ := h.same.forEach fun ht => ht.roundStart

theorem State.Follows.adcPeriod (h : s.Follows s₀) : s.adcPeriod.Follows s₀ := .ite h.roundsStart h

theorem State.Follows.roundsFollow (h : s.Follows s₀) : s.roundsFollow.Follows s₀ := (h.forEach (fun ht => ht.modSlice)).adcResume

theorem State.Follows.adcBegin (h : s.Follows s₀) : s.adcBegin.Follows s₀ := .ite h.same h.same.roundsFollow

theorem State.Follows.adcCfgWritten (h : s.Follows s₀) : s.adcCfgWritten.Follows s₀ := .ite h.adcResume h.roundsFollow

theorem State.Follows.adcOff (h : s.Follows s₀) : s.adcOff.Follows s₀ :=
  (h.setF.same.forEach (fun ht => ht.wr.wr)).forEach (fun ht => ht.wr.wr)

theorem State.Follows.adcInitialCal (h : s.Follows s₀) : s.adcInitialCal.Follows s₀ := h.setF.same

theorem State.Follows.urgentLost {u : Nat} (h : s.Follows s₀) : (s.urgentLost u).Follows s₀ := .ite h.bumpF.raise h.bumpF

theorem State.Follows.urgentSlice {k : Nat} (h : s.Follows s₀) : (s.urgentSlice k).Follows s₀ := by
  unfold State.urgentSlice
  extract_lets +onlyGivenNames _
  split
  · exact h
  · split
    · exact h.startNext
    · exact .ite h.modSlice.startNext h

theorem State.Follows.urgentTie {us : List Nat} {k : Nat} (h : s.Follows s₀) : (s.urgentTie us k).Follows s₀ :=
  .urgentSlice (.ite (h.forEach (fun ht => ht.modSlice)) (h.forEach (fun ht => ht.modSlice)).same)

theorem State.Follows.urgentTogether {us : List Nat} (h : s.Follows s₀) : (s.urgentTogether us).Follows s₀ :=
  .same (.forEach (.ite h.same h) (fun ht => ht.urgentTie))

theorem State.Follows.urgentRequests {slots : List Nat} (h : s.Follows s₀) : (s.urgentRequests slots).Follows s₀ :=
  .ite h (.ite (h.forEach (fun ht => ht.urgentLost)) (h.forEach (fun ht => ht.urgentLost)).urgentTogether)

theorem State.Follows.urgentPwm {src ch : Nat} (h : s.Follows s₀) : (s.urgentPwm src ch).Follows s₀ := h.urgentRequests

theorem State.Follows.urgentReload {chs : List Nat} (h : s.Follows s₀) : (s.urgentReload chs).Follows s₀ := h.urgentRequests

theorem State.Follows.syncEvent {src : Nat} (h : s.Follows s₀) : (s.syncEvent src).Follows s₀ := h.syncLoad.urgentReload

theorem State.Follows.runWritten {c old : Nat} (h : s.Follows s₀) : (s.runWritten c old).Follows s₀ :=
  .ite h.lagChain.reloadFrom.urgentReload h

theorem State.Follows.limitSees {c k : Nat} {code : Int} (h : s.Follows s₀) : (s.limitSees c k code).1.Follows s₀ := by
  unfold State.limitSees
  split
  · exact h
  · extract_lets +onlyGivenNames _ _ _ _ s1
    have h1 : s1.Follows s₀ := h.same
    split
    · exact h1
    · extract_lets +onlyGivenNames s2
      have h2 : s2.Follows s₀ := h1.setF
      split
      · exact h2.orF.raise
      · exact h2

theorem State.Follows.zeroSees {z c : Nat} {code : Int} (h : s.Follows s₀) : (s.zeroSees z c code).Follows s₀ :=
  .ite h (.ite h (.ite h.same h.same.startMask))

theorem State.Follows.overRange {c : Nat} (h : s.Follows s₀) : (s.overRange c).Follows s₀ := .ite h.orF h.orF.raise

theorem State.Follows.takeSnapshot (h : s.Follows s₀) : s.takeSnapshot.Follows s₀ := h.same

/-! ### Engine memories and the task scheduler -/

theorem State.Follows.modEng {e : Nat} {g : Engine → Engine} (h : s.Follows s₀) : (s.modEng e g).Follows s₀ := h.same

theorem State.Follows.modTask {tc : Nat} {g : Machine.Task → Machine.Task} (h : s.Follows s₀) : (s.modTask tc g).Follows s₀ :=
  h.same

theorem State.Follows.setTcState {tc v : Nat} (h : s.Follows s₀) : (s.setTcState tc v).Follows s₀ := h.setF

theorem State.Follows.setEngState {e v c : Nat} (h : s.Follows s₀) : (s.setEngState e v c).Follows s₀ := h.modEng.setF

theorem State.Follows.pmPut {e pc v : Nat} (h : s.Follows s₀) : (s.pmPut e pc v).Follows s₀ := h.same

theorem State.Follows.dmCorrected {e : Nat} {eccs : List Ecc} (h : s.Follows s₀) : (s.dmCorrected e eccs).Follows s₀ :=
  .ite h h.bumpF

theorem State.Follows.dmPut {e a : Nat} {bs : List Byte} (h : s.Follows s₀) : (s.dmPut e a bs).Follows s₀ :=
  h.of_sound (fun hs => hs.dmPut e a bs) rfl

theorem State.Follows.dmStore {e a : Nat} {bs : List Byte} (h : s.Follows s₀) : (s.dmStore e a bs).Follows s₀ :=
  h.dmPut.foldl fun ht => ht.dmPut

theorem State.Follows.noteRead {e : Nat} {addr : Option Nat} {dest : ReadDest} (h : s.Follows s₀) :
    (s.noteRead e addr dest).Follows s₀ := h.same

theorem State.Follows.reread {e : Nat} {hit : CycRead → Bool} (h : s.Follows s₀) : (s.reread e hit).Follows s₀ := by
  unfold State.reread
  extract_lets +onlyGivenNames _
  split
  · exact h
  · exact h.same.modEng

theorem State.Follows.rereadGen {e : Nat} (h : s.Follows s₀) : (s.rereadGen e).Follows s₀ := h.reread

theorem State.Follows.dmExtern {e a : Nat} {bs : List Byte} (h : s.Follows s₀) : (s.dmExtern e a bs).Follows s₀ :=
  .ite h.dmPut.same.reread.modEng.setF.mark.raise.rereadGen h.dmPut.same.reread

theorem State.Follows.noteDepth {e : Nat} (h : s.Follows s₀) : (s.noteDepth e).Follows s₀ := h.modEng

theorem State.Follows.traceAt {p kind tc arg wait : Nat} (h : s.Follows s₀) : (s.traceAt p kind tc arg wait).Follows s₀ :=
  .ite (.ite h.modEng.modEng h.modEng.bumpF) h

theorem State.Follows.trace {kind tc arg wait : Nat} (h : s.Follows s₀) : (s.trace kind tc arg wait).Follows s₀ := h.traceAt

theorem State.Follows.traceDrain {e : Nat} (h : s.Follows s₀) : (s.traceDrain e).Follows s₀ := by
  unfold State.traceDrain
  split
  · exact h
  · exact h.modEng.grnWriteA.setF

theorem State.Follows.slotPlan {p e : Nat} (h : s.Follows s₀) : (s.slotPlan p e).Follows s₀ :=
  .ite h (.ite h.modEng (.ite h h.modEng))

theorem State.Follows.choose {p e : Nat} (h : s.Follows s₀) : (State.choose p s e).Follows s₀ := by
  unfold State.choose
  split
  · exact h.slotPlan
  · exact .ite h.modEng.setEngState.setF.setTcState h.slotPlan

theorem State.Follows.plans (h : s.Follows s₀) : s.plans.Follows s₀ := h.same

theorem State.Follows.freeEngine {e v : Nat} (h : s.Follows s₀) : (s.freeEngine e v).Follows s₀ := h.setEngState.setF.modEng

theorem State.Follows.overrunCause (h : s.Follows s₀) : s.overrunCause.Follows s₀ :=
  .ite h (.ite (.ite h.same.setF.bumpF.mark.same h.same.setF.bumpF.mark) h.same.setF.bumpF)

theorem State.Follows.dropInstance {tc st : Nat} (h : s.Follows s₀) : (s.dropInstance tc st).Follows s₀ :=
  h.setTcState.modTask.modEng

theorem State.Follows.abortTask {tc : Nat} (h : s.Follows s₀) : (s.abortTask tc).Follows s₀ := by
  unfold State.abortTask
  extract_lets +onlyGivenNames _ _ _ s1 s2 s3 s4
  have h1 : s1.Follows s₀ := .ite h.modEng.freeEngine h
  have h2 : s2.Follows s₀ := h1.dropInstance
  have h3 : s3.Follows s₀ := h2.mark.bumpF
  have h4 : s4.Follows s₀ := h3.raise.trace
  exact .ite h4.overrunCause h4

theorem State.Follows.makeReadyAt {p tc : Nat} (h : s.Follows s₀) : (s.makeReadyAt p tc).Follows s₀ :=
  h.setTcState.modTask.noteDepth

theorem State.Follows.makeReady {tc : Nat} (h : s.Follows s₀) : (s.makeReady tc).Follows s₀ := h.makeReadyAt

theorem State.Follows.trigger {tc evt : Nat} (h : s.Follows s₀) : (s.trigger tc evt).Follows s₀ := by
  unfold State.trigger
  extract_lets +onlyGivenNames _
  split
  · exact h
  · extract_lets +onlyGivenNames s1 s2 _
    have h1 : s1.Follows s₀ := .ite h h.abortTask
    have h2 : s2.Follows s₀ := h1.modTask
    exact .ite h2.makeReady.trace h2.setTcState.modTask.trace

theorem State.Follows.resume {p : Nat} {evts : List Nat} {tc : Nat} (h : s.Follows s₀) : (State.resume p evts s tc).Follows s₀ :=
  .ite h.makeReadyAt.traceAt h

theorem State.Follows.decided (h : s.Follows s₀) : s.decided.Follows s₀ := by
  unfold State.decided
  split
  · exact h
  · exact (h.same.forEach (fun ht => ht.resume)).forEach (fun ht => ht.choose)

theorem State.Follows.catchUp (h : s.Follows s₀) : s.catchUp.Follows s₀ := .ite h.decided h

theorem State.Follows.noteEvent {evt : Nat} (h : s.Follows s₀) : (s.noteEvent evt).Follows s₀ := h.same

theorem State.Follows.schedEvent {evt : Nat} (h : s.Follows s₀) : (s.schedEvent evt).Follows s₀ :=
  .plans (.ite (h.catchUp.noteEvent.forEach (fun ht => ht.trigger)) h.catchUp.noteEvent)

theorem State.Follows.withdrawSched {evt : Nat} (h : s.Follows s₀) : (s.withdrawSched evt).Follows s₀ :=
  .ite (h.same.forEach (fun ht => .ite ht.dropInstance ht)) h

theorem State.Follows.expire (h : s.Follows s₀) : s.expire.Follows s₀ := h.forEach fun ht => ht.makeReady.trace

theorem State.Follows.storeStats (h : s.Follows s₀) : s.storeStats.Follows s₀ :=
  h.forEach fun ht => .ite ht.modEng.setF.putWorst.setF.putWorst ht.modEng

theorem State.Follows.schedPeriod (h : s.Follows s₀) : s.schedPeriod.Follows s₀ := by
  unfold State.schedPeriod
  extract_lets +onlyGivenNames s1 s2 _ s3 s4 _ s5
  have h1 : s1.Follows s₀ := h.catchUp
  have h2 : s2.Follows s₀ := .ite h1 h1.setF
  have h3 : s3.Follows s₀ := h2.same
  have h4 : s4.Follows s₀ := h3.setF.storeStats.noteEvent
  have h5 : s5.Follows s₀ := .ite (h4.expire.forEach (fun ht => ht.trigger)) h4
  exact h5.plans

theorem State.Follows.dropAll (h : s.Follows s₀) : s.dropAll.Follows s₀ :=
  (h.catchUp.forEach (fun ht => ht.dropInstance)).forEach (fun ht => ht.freeEngine)

theorem State.Follows.emptyDelays (h : s.Follows s₀) : s.emptyDelays.Follows s₀ := h.forEach fun ht => .ite ht.dropInstance ht

theorem State.Follows.stopForFatal (h : s.Follows s₀) : s.stopForFatal.Follows s₀ := by
  unfold State.stopForFatal
  extract_lets +onlyGivenNames s1 s2 s3
  have h1 : s1.Follows s₀ := h.catchUp
  have h2 : s2.Follows s₀ := h1.forEach fun ht => ht.dropInstance
  have h3 : s3.Follows s₀ := h2.forEach fun ht => ht.freeEngine
  exact .ite h3.setTcState.setF h3.makeReady.modTask.plans.setF

/-! ### The fault recorder -/

theorem State.Follows.modSilo {k : Nat} {g : Silo → Silo} (h : s.Follows s₀) : (s.modSilo k g).Follows s₀ := h.same

theorem State.Follows.withdrawEvent {seq : Nat} (h : s.Follows s₀) : (s.withdrawEvent seq).Follows s₀ :=
  .ite (h.of_sound (fun hs => ⟨hs.1, Nat.mod_lt _ (by norm_num)⟩) rfl) h

theorem State.Follows.amendEvent {seq : Nat} {payload : List Byte} (h : s.Follows s₀) : (s.amendEvent seq payload).Follows s₀ :=
  h.same

theorem State.Follows.siloFull {k : Nat} (h : s.Follows s₀) : (s.siloFull k).Follows s₀ := .ite h.setF h

theorem State.Follows.siloLine {k hit : Nat} (h : s.Follows s₀) : (s.siloLine k hit).Follows s₀ := .ite h.setF.modSilo h

theorem State.Follows.siloAccept {k hit t ord : Nat} (h : s.Follows s₀) : (s.siloAccept k hit t ord).Follows s₀ :=
  h.setF.modSilo.raise.siloLine.siloFull

theorem State.Follows.siloMerge {k hit t : Nat} (h : s.Follows s₀) : (s.siloMerge k hit t).Follows s₀ :=
  h.modSilo.amendEvent.siloLine.siloFull

theorem State.Follows.siloTrigger {k src t : Nat} (h : s.Follows s₀) : (s.siloTrigger k src t).1.Follows s₀ := by
  unfold State.siloTrigger
  extract_lets +onlyGivenNames _ _
  split
  · exact h
  · split
    · exact h.siloAccept
    · split
      · exact h.siloMerge
      · split
        · exact h.modSilo
        · exact h

theorem State.Follows.recTriggerIn {ks : List Nat} {src t : Nat} (h : s.Follows s₀) : (s.recTriggerIn ks src t).Follows s₀ := by
  unfold State.recTriggerIn
  extract_lets +onlyGivenNames _ _ s1 s2
  have h2 : s2.1.Follows s₀ :=
    List.foldlRecOn ks _ (motive := fun p : State × Bool => p.1.Follows s₀) h.same fun _ hp _ _ => hp.siloTrigger
  exact .ite h2.schedEvent h2

theorem State.Follows.recTrigger {src t : Nat} (h : s.Follows s₀) : (s.recTrigger src t).Follows s₀ := h.recTriggerIn

theorem State.Follows.siloTriggerOne {k src t : Nat} (h : s.Follows s₀) : (s.siloTriggerOne k src t).Follows s₀ :=
  .ite h.siloTrigger.schedEvent h.siloTrigger

theorem State.Follows.siloArm {k : Nat} (h : s.Follows s₀) : (s.siloArm k).Follows s₀ := by
  unfold State.siloArm
  extract_lets +onlyGivenNames _
  split
  · exact h.setF.setF.raise
  · extract_lets +onlyGivenNames _ _ _ _ _ s1 s2 _ s3 s4 s5
    have h1 : s1.Follows s₀ := .ite h.raiseClamp h
    have h2 : s2.Follows s₀ := .ite h1.raiseClamp h1
    have h3 : s3.Follows s₀ := .ite h2.mark h2
    have h4 : s4.Follows s₀ := h3.setF.setF
    have h5 : s5.Follows s₀ := h4.setF.grnWrite
    exact h5.modSilo

theorem State.Follows.siloArmFirst {k : Nat} (h : s.Follows s₀) : (s.siloArmFirst k).Follows s₀ :=
  .ite (h.siloArm.foldl (fun ht => ht.siloTriggerOne)) h.siloArm

theorem State.Follows.putEntry {k t : Nat} {bs : List Byte} {lost : Bool} (h : s.Follows s₀) :
    (s.putEntry k t bs lost).Follows s₀ :=
  .ite h (.siloFull (.modSilo (.setF (.ite (.ite h.bumpF.modSilo.raise h.bumpF.modSilo) h.grnWrite))))

theorem State.Follows.cellSee {k : Nat} (h : s.Follows s₀) : (s.cellSee k).Follows s₀ := h.forEach fun ht => ht.grnSee

theorem execCellEntryWrite_answers {lost : BitVec 4} (h : s.Follows s₀) : s₀.Answers (execCellEntryWrite lost s) :=
  .ite (.next (h.forEach (fun ht => ht.cellSee.putEntry.modSilo))) (.next h)

theorem execWaveTick_answers {k : Fin 4} {lost : Bool} (h : s.Follows s₀) : s₀.Answers (execWaveTick k lost s) :=
  .ite (.next h.advanceTo.putEntry.modSilo) (.next h)

theorem execRecordDone_answers {k : Fin 4} (h : s.Follows s₀) : s₀.Answers (execRecordDone k s) :=
  .ite (.next h.grnWrite.setF.raise) (.next h)

theorem State.Follows.siloLeaves {k : Nat} (h : s.Follows s₀) : (s.siloLeaves k).Follows s₀ := h.modSilo

theorem State.Follows.siloRelease {k : Nat} (h : s.Follows s₀) : (s.siloRelease k).Follows s₀ :=
  .ite (.ite h.siloLeaves.siloArm h.siloLeaves.setF) h

theorem State.Follows.siloDisarm {k : Nat} (h : s.Follows s₀) : (s.siloDisarm k).Follows s₀ := by
  unfold State.siloDisarm
  extract_lets +onlyGivenNames _ _
  split
  · exact h.siloLeaves.setF
  · exact .ite (.setF (.withdrawEvent (.siloLeaves (.ite (.ite h.setF h) (.withdrawSched (.ite h.setF h)))))) h

theorem State.Follows.siloCtl {k : Nat} {arm release sw disarm : Bool} (h : s.Follows s₀) :
    (s.siloCtl k arm release sw disarm).Follows s₀ := by
  unfold State.siloCtl
  extract_lets +onlyGivenNames s1 s2 s3
  have h1 : s1.Follows s₀ := .ite h.siloArmFirst h
  have h2 : s2.Follows s₀ := .ite h1.siloRelease h1
  have h3 : s3.Follows s₀ := .ite h2.siloDisarm h2
  exact .ite h3.siloTriggerOne h3

theorem State.Follows.silosIdle (h : s.Follows s₀) : s.silosIdle.Follows s₀ := h.forEach fun ht => ht.setF

theorem State.Follows.recStep (h : s.Follows s₀) : s.recStep.Follows s₀ := h.forEach fun ht => .ite ht ht.modSilo

theorem State.Follows.recEvent {e : Event} {lost : Nat} (h : s.Follows s₀) : (s.recEvent e lost).Follows s₀ :=
  .forEach (.ite h.recTriggerIn h) fun ht => .ite ht.putEntry ht

theorem State.Follows.modBus {g : TrigBus → TrigBus} (h : s.Follows s₀) : (s.modBus g).Follows s₀ := h.same

theorem State.Follows.tbConfigured (h : s.Follows s₀) : s.tbConfigured.Follows s₀ := .setF (.setF (.setF (.modBus (.ite h.setF h))))

/-! ### The safety path -/

theorem State.Follows.retChanged (h : s.Follows s₀) : s.retChanged.Follows s₀ := h.same

theorem State.Follows.faultHist {x : Fld} (h : s.Follows s₀) : (s.faultHist x).Follows s₀ := h.mark.retChanged

theorem State.Follows.retFlush (h : s.Follows s₀) : s.retFlush.Follows s₀ := .ite h.same h

theorem State.Follows.retentionCheck (h : s.Follows s₀) : s.retentionCheck.Follows s₀ :=
  .ite h.retFlush.setF.same.wr h.retFlush.setF.same.wr

theorem execRetentionWrite_answers (h : s.Follows s₀) : s₀.Answers (execRetentionWrite s) := .next h.retFlush

theorem execRetentionReadback_answers {bytes : List Byte} (h : s.Follows s₀) : s₀.Answers (execRetentionReadback bytes s) :=
  .ite (.next (.ite h.advanceCyc.same (.ite h.advanceCyc.same h.advanceCyc.same.setF.raise))) (.next h)

theorem State.Follows.refuseMode {target reason : Nat} (h : s.Follows s₀) : (s.refuseMode target reason).Follows s₀ :=
  h.setF.setF.raise

theorem State.Follows.musterLapse (h : s.Follows s₀) : s.musterLapse.Follows s₀ := .ite h.same h

theorem State.Follows.setModeFrom {old dest : Mode} {cause : Nat} (h : s.Follows s₀) : (s.setModeFrom old dest cause).Follows s₀ :=
  .schedEvent (.updateDrive (.raise (.same (.ite h.wr.dropDiscovery.same h.wr))))

theorem State.Follows.setMode {dest : Mode} {cause : Nat} (h : s.Follows s₀) : (s.setMode dest cause).Follows s₀ := h.setModeFrom

theorem State.Follows.setDrive {v : Nat} (h : s.Follows s₀) : (s.setDrive v).Follows s₀ := h.setF.updateDrive

theorem State.Follows.injStop {e : Nat} (h : s.Follows s₀) : (s.injStop e).Follows s₀ := h.setF.setF

theorem State.Follows.canLeaveDiag (h : s.Follows s₀) : s.canLeaveDiag.Follows s₀ :=
  h.forEach fun ht => .ite (.ite ht.setF.modCan ht.setF) ht

theorem State.Follows.showSignature (h : s.Follows s₀) : s.showSignature.Follows s₀ := h.wr

theorem State.Follows.leaveConfigure (h : s.Follows s₀) : s.leaveConfigure.Follows s₀ :=
  (h.assignUnits (fun ht => ht.raiseClamp)).showSignature

theorem State.Follows.enginesTo {v : Nat} (h : s.Follows s₀) : (s.enginesTo v).Follows s₀ := h.forEach fun ht => ht.freeEngine

theorem State.Follows.runInSafeBlock (h : s.Follows s₀) : s.runInSafeBlock.Follows s₀ :=
  .forEach (.ite h.same h.same) fun ht => .ite ht.freeEngine ht

theorem State.Follows.enterSafeBlock {cause cls : Nat} {fatal : Bool} (h : s.Follows s₀) :
    (s.enterSafeBlock cause cls fatal).Follows s₀ := by
  unfold State.enterSafeBlock
  extract_lets +onlyGivenNames s1 s2 s3 _ _ s4 s5 s6 s7
  have h1 : s1.Follows s₀ := .ite h.canLeaveDiag h
  have h2 : s2.Follows s₀ := .ite h1.leaveConfigure h1
  have h3 : s3.Follows s₀ := h2.runInSafeBlock
  have h4 : s4.Follows s₀ := h3.same
  have h5 : s5.Follows s₀ := h4.clearSelections.retChanged.setF
  have h6 : s6.Follows s₀ := h5.forEach fun ht => ht.setF.injStop
  have h7 : s7.Follows s₀ := h6.setMode.recTrigger
  exact h7.schedEvent

theorem State.Follows.recordTrip {order detail : Nat} (h : s.Follows s₀) : (s.recordTrip order detail).Follows s₀ :=
  h.wr.wr.wr.raise.same.bumpF.faultHist

theorem State.Follows.amendTrip {g : TrigNote} {order detail : Nat} (h : s.Follows s₀) :
    (s.amendTrip g order detail).Follows s₀ := by
  unfold State.amendTrip
  extract_lets +onlyGivenNames s1 s2 s3 _ _ s4 s5
  have h1 : s1.Follows s₀ := h.wr
  have h2 : s2.Follows s₀ := h1.amendEvent
  have h3 : s3.Follows s₀ := .ite h2 h2.setF
  have h4 : s4.Follows s₀ := h3.same
  have h5 : s5.Follows s₀ := h4.faultHist
  split
  · exact h5
  · exact .ite h5.setF.amendEvent.same h5

theorem State.Follows.blockReaction {cls : Nat} (h : s.Follows s₀) : (s.blockReaction cls).Follows s₀ :=
  h.pwmHiZ.same.diagRestore.sendBlocks.cutOrders

theorem State.Follows.reaction {cls : Nat} (h : s.Follows s₀) : (s.reaction cls).Follows s₀ := .blockReaction (.ite h.setDrive h)

theorem State.Follows.undoEntry {new : Mode} (h : s.Follows s₀) : (s.undoEntry new).Follows s₀ := by
  have keeps : (s.undoEntry new).evSeq = s.evSeq ∧ (s.undoEntry new).pending = s.pending := by
    unfold State.undoEntry; split
    · exact ⟨rfl, rfl⟩
    · split
      · exact ⟨rfl, rfl⟩
      · split <;> exact ⟨rfl, rfl⟩
  exact h.of_sound (fun hs => ⟨hs.1.undoEntry new, keeps.1.trans_lt hs.2⟩) keeps.2

theorem State.Follows.withdrawEval {enters : Mode → Bool} (h : s.Follows s₀) : (s.withdrawEval enters).Follows s₀ := by
  unfold State.withdrawEval
  split
  · exact h
  · exact .ite h.undoEntry.same.withdrawEvent.wr.refuseMode h

theorem State.Follows.blockWith {from_ : Mode} {cause : Nat} (h : s.Follows s₀) : (s.blockWith from_ cause).Follows s₀ :=
  .ite h.withdrawEval.free.blockReaction.enterSafeBlock h.withdrawEval

theorem State.Follows.tripBlock {order : Nat} (h : s.Follows s₀) : (s.tripBlock order).Follows s₀ :=
  .ite h.enterSafeBlock.same.stopForFatal h.enterSafeBlock.same

theorem State.Follows.trip {order detail : Nat} (h : s.Follows s₀) : (s.trip order detail).Follows s₀ := by
  unfold State.trip
  extract_lets +onlyGivenNames s1 _
  have h1 : s1.Follows s₀ := h.withdrawEval
  split
  · exact .ite h1.same.reaction.recordTrip.tripBlock h1.same.reaction.recordTrip.recTrigger
  · extract_lets +onlyGivenNames _ s2 s3
    have h2 : s2.Follows s₀ := .ite h1.reaction h1
    have h3 : s3.Follows s₀ := .ite h2.sendBlocks.amendTrip h2
    exact .ite h3.tripBlock h3

theorem State.Follows.fatalError {order eng code pc : Nat} (h : s.Follows s₀) : (s.fatalError order eng code pc).Follows s₀ :=
  .ite h.trip (.ite h.same.trip.same.stopForFatal h.same.trip)

theorem State.Follows.overrunTrip (h : s.Follows s₀) : s.overrunTrip.Follows s₀ := .ite (.ite h.same.trip h.same) h

theorem State.Follows.occur {evt : Nat} (h : s.Follows s₀) : (s.occur evt).Follows s₀ := h.schedEvent.overrunTrip

theorem State.Follows.setPins {pins : Nat} (h : s.Follows s₀) : (s.setPins pins).Follows s₀ := h.setF.same

theorem State.Follows.latchChannels {chs : List Nat} (h : s.Follows s₀) : (s.latchChannels chs).Follows s₀ := by
  unfold State.latchChannels
  dsimp only; split
  · exact h
  · exact h.orF.trip

/-! ### Ownership, rings, telemetry and DMA -/

theorem State.Follows.modHif {g : Hif → Hif} (h : s.Follows s₀) : (s.modHif g).Follows s₀ := h.same

theorem State.Follows.setDoorbell {p off v : Nat} (h : s.Follows s₀) : (s.setDoorbell p off v).Follows s₀ := h.modHif

theorem State.Follows.msix {p v : Nat} (h : s.Follows s₀) : (s.msix p v).Follows s₀ := .ite h.modHif h

theorem State.Follows.ownChange {new cause : Nat} (h : s.Follows s₀) : (s.ownChange new cause).Follows s₀ :=
  h.setF.setF.setF.modHif.raise.msix.msix

theorem State.Follows.tieWon {m : Nat} {losers : List Nat} (h : s.Follows s₀) : (s.tieWon m losers).Follows s₀ := h.modHif

theorem State.Follows.resolveClaims (h : s.Follows s₀) : s.resolveClaims.Follows s₀ := by
  unfold State.resolveClaims
  split
  · exact h
  · exact h.tieWon.setF.ownChange

theorem State.Follows.claimPend {m : Nat} (h : s.Follows s₀) : (s.claimPend m).Follows s₀ := .ite h h.setF.raiseFrom

theorem State.Follows.claimFree {m : Nat} (h : s.Follows s₀) : (s.claimFree m).Follows s₀ := h.ownChange.same

theorem State.Follows.claimBack {m k : Nat} (h : s.Follows s₀) : (s.claimBack m k).Follows s₀ := h.setF.withdrawEvent

theorem State.Follows.claimTie {m : Nat} {x : FreeClaim} (h : s.Follows s₀) : (s.claimTie m x).Follows s₀ := by
  unfold State.claimTie
  extract_lets +onlyGivenNames _
  split
  · exact h
  · exact ((h.setF.amendEvent.foldl (fun ht => ht.claimBack)).forEach (fun ht => ht.claimPend)).modHif

theorem State.Follows.claim {m : Nat} (h : s.Follows s₀) : (s.claim m).Follows s₀ := by
  unfold State.claim
  extract_lets +onlyGivenNames _
  split
  · exact h.claimFree
  · split
    · exact .ite (.ite h h.claimTie) (.ite h h.claimPend)
    · exact .ite h h.claimPend

theorem State.Follows.ownLapse {why : Nat} (h : s.Follows s₀) : (s.ownLapse why).Follows s₀ :=
  .ite h h.raise.modHif.ownChange.resolveClaims

theorem State.Follows.keepalive {m : Nat} (h : s.Follows s₀) : (s.keepalive m).Follows s₀ := .ite h.modHif h

theorem State.Follows.ownGo (h : s.Follows s₀) : s.ownGo.Follows s₀ := .ite h (.ite h.mark h.modHif)

theorem State.Follows.setRing {k : Nat} {v : Machine.Ring} (h : s.Follows s₀) : (s.setRing k v).Follows s₀ := h.modHif

theorem State.Follows.statusDue {p : Nat} (h : s.Follows s₀) : (s.statusDue p).Follows s₀ := .ite h.modHif h

theorem State.Follows.ringAdvance {p r key : Nat} (h : s.Follows s₀) : (s.ringAdvance p r key).Follows s₀ :=
  .statusDue (.ite h.setRing h.setRing.setF)

theorem State.Follows.ringEnabled {p r : Nat} (h : s.Follows s₀) : (s.ringEnabled p r).Follows s₀ :=
  .ite (h.setF.forEach (fun ht => ht.setRing)).statusDue (.ite h.setF h.setF.setRing.statusDue)

theorem State.Follows.eventToRing {p : Nat} {e : Event} (h : s.Follows s₀) : (s.eventToRing p e).Follows s₀ :=
  .ite h (.ite h.bumpF.setRing (.ite h.hostWrite.ringAdvance.modHif.msix h.hostWrite.ringAdvance.modHif))

theorem execEventWrite_answers {lost : BitVec 4} (h : s.Follows s₀) : s₀.Answers (execEventWrite lost s) := by
  unfold execEventWrite
  split
  · exact .next h
  · exact .next h.same.eventToRing.eventToRing.recEvent.overrunTrip

theorem execEventVectorTimeout_answers {p : Fin 2} (h : s.Follows s₀) : s₀.Answers (execEventVectorTimeout p s) :=
  .next (.ite h.advanceCyc.modHif.msix h)

theorem execStatusBlockWrite_answers {p : Fin 2} (h : s.Follows s₀) : s₀.Answers (execStatusBlockWrite p s) :=
  .next (.ite h.hostWrite.modHif h)

theorem State.Follows.dbRefused {p off : Nat} (h : s.Follows s₀) : (s.dbRefused p off).Follows s₀ := h.raise

theorem State.Follows.headDoorbell {p r a v : Nat} (h : s.Follows s₀) : (s.headDoorbell p r a v).Follows s₀ :=
  .ite h (.ite h.setDoorbell.dbRefused h.setDoorbell.setRing)

theorem execEventHeadDoorbell_answers {p : Fin 2} {v : W32} (h : s.Follows s₀) : s₀.Answers (execEventHeadDoorbell p v s) :=
  .next h.headDoorbell

theorem execTelHeadDoorbell_answers {p : Fin 2} {a : Fin 12} {v : W32} (h : s.Follows s₀) :
    s₀.Answers (execTelHeadDoorbell p a v s) := .next h.headDoorbell

theorem execDumpHeadDoorbell_answers {p : Fin 2} {v : W32} (h : s.Follows s₀) : s₀.Answers (execDumpHeadDoorbell p v s) :=
  .next h.headDoorbell

theorem execCmdDoorbell_answers {p : Fin 2} {v : W32} (h : s.Follows s₀) : s₀.Answers (execCmdDoorbell p v s) :=
  .next h.headDoorbell

theorem State.Follows.laneSee {l : Nat} (h : s.Follows s₀) : (s.laneSee l).Follows s₀ :=
  .ite (.grnSee (.ite h.grnSee h)) (.ite h.grnSee h)

theorem State.Follows.telStart (h : s.Follows s₀) : s.telStart.Follows s₀ :=
  h.forEach fun ht => .ite (ht.forEach (fun ht => (ht.forEach (fun ht => ht.laneSee)).modHif)) ht

theorem State.Follows.telDrop {r : TelRec} (h : s.Follows s₀) : (s.telDrop r).Follows s₀ :=
  .ite h.bumpF.setRing h.bumpF.setRing.modHif.raise

theorem State.Follows.telLate (h : s.Follows s₀) : s.telLate.Follows s₀ := h.modHif.foldl fun ht => ht.telDrop

theorem execTelRecordWritten_answers {p : Fin 2} {a : Fin 12} (h : s.Follows s₀) : s₀.Answers (execTelRecordWritten p a s) := by
  unfold execTelRecordWritten
  split
  · exact .next h
  · exact .ite (.next h.modHif) (.ite (.next h.modHif.telDrop) (.next h.modHif.hostWrite.ringAdvance.msix))

theorem State.Follows.stopRings {p : Nat} (h : s.Follows s₀) : (s.stopRings p).Follows s₀ := (h.forEach (fun ht => ht.setF)).modHif

theorem execPortLinkUp_answers {p : Fin 2} {speed : Fin 4} {width : Fin 9} (h : s.Follows s₀) :
    s₀.Answers (execPortLinkUp p speed width s) := .ite (.next h) (.next h.setF.setF.setF)

theorem State.Follows.modDma {c : Nat} {g : DmaCh → DmaCh} (h : s.Follows s₀) : (s.modDma c g).Follows s₀ := h.modHif

theorem State.Follows.dmaRun {c : Nat} (h : s.Follows s₀) : (s.dmaRun c).Follows s₀ := h.setF.modDma

theorem State.Follows.dmaStart {c : Nat} (h : s.Follows s₀) : (s.dmaStart c).Follows s₀ := .ite h (.ite h.setF (.ite h h.dmaRun))

theorem execDmaDoorbell_answers {p : Fin 2} {c : Fin 16} {v : W32} (h : s.Follows s₀) : s₀.Answers (execDmaDoorbell p c v s) :=
  .ite (.next h) (.ite (.next h.setDoorbell.dbRefused) (.next h.setDoorbell.dmaStart))

theorem State.Follows.dmak {e c : Nat} (h : s.Follows s₀) : (s.dmak e c).Follows s₀ :=
  .ite (.ite h.modHif h.raiseFrom) (.ite h.dmaStart h.raiseFrom)

theorem State.Follows.dmaHalt {c addr : Nat} (h : s.Follows s₀) : (s.dmaHalt c addr).Follows s₀ := h.setF.setF.mark.raise

theorem State.Follows.dmaCur {c addr : Nat} (h : s.Follows s₀) : (s.dmaCur c addr).Follows s₀ := h.wr.wr

theorem execDmaDescriptorFetch_answers {c : Fin 16} {bytes : List Byte} {ok : Bool} {eccs : List Ecc} (h : s.Follows s₀) :
    s₀.Answers (execDmaDescriptorFetch c bytes ok eccs s) := by
  unfold execDmaDescriptorFetch
  extract_lets +onlyGivenNames _
  split
  · exact .next h
  · extract_lets +onlyGivenNames _ s1
    have h1 : s1.Follows s₀ := h.dmaCur
    split
    · exact .ite (.next h1.grnWait.grnCheckBy.dmaHalt) (.next h1.grnWait.grnCheckBy.modDma)
    · exact .ite (.next h1.dmaHalt) (.next h1.modDma)

theorem State.Follows.dmDma {e a n : Nat} {eccs : List Ecc} (h : s.Follows s₀) : (s.dmDma e a n eccs).2.Follows s₀ := by
  induction n generalizing s a eccs with
  | zero => exact h
  | succ n ih => exact ih (by split; exacts [h.free, h])

theorem State.Follows.descData {c : Nat} {d data : List Byte} {err : Bool} {eccs : List Ecc} (h : s.Follows s₀) :
    (s.descData c d data err eccs).2.2.Follows s₀ := by
  unfold State.descData
  extract_lets +onlyGivenNames _ _ _ _
  split
  · split <;> exact h
  · split
    · extract_lets +onlyGivenNames s1
      have h1 : s1.2.Follows s₀ := h.grnWait.grnCheckBy
      split <;> exact h1
    · exact h.dmCorrected.dmDma

theorem State.Follows.dmWords {e a n : Nat} {bs : List Byte} (h : s.Follows s₀) : (s.dmWords e a n bs).Follows s₀ := by
  induction n generalizing s a bs with
  | zero => exact h
  | succ n ih => exact .ite h (ih h.dmExtern)

theorem State.Follows.spaceWrite {p space a : Nat} {bs : List Byte} (h : s.Follows s₀) : (s.spaceWrite p space a bs).Follows s₀ :=
  .ite h.hostWrite (.ite h.grnWait.grnWriteB h.dmWords)

theorem State.Follows.dmaDeliver {c p space a : Nat} {bs : List Byte} (h : s.Follows s₀) :
    (s.dmaDeliver c p space a bs).Follows s₀ := (h.spaceWrite.foldl (fun ht => ht.spaceWrite)).modHif

theorem State.Follows.dmaPiece {space src off n : Nat} {eccs : List Ecc} (h : s.Follows s₀) :
    (s.dmaPiece space src off n eccs).2.2.1.Follows s₀ := by
  unfold State.dmaPiece
  extract_lets +onlyGivenNames _
  split
  · extract_lets +onlyGivenNames _ s1 _
    have h1 : s1.2.Follows s₀ := h.grnCheckBy
    split <;> exact h1
  · exact h.dmCorrected.dmDma

theorem State.Follows.dmaCopy {c p space src dst sw dw len n off : Nat} {eccs : List Ecc} (h : s.Follows s₀) :
    (s.dmaCopy c p space src dst sw dw len n off eccs).2.Follows s₀ := by
  induction n generalizing s off eccs with
  | zero => exact h
  | succ n ih =>
    unfold State.dmaCopy
    dsimp only; split
    · exact h.dmaPiece.dmaDeliver
    · exact ih h.dmaPiece.dmaDeliver

theorem State.Follows.dmaEndRun {c : Nat} (h : s.Follows s₀) : (s.dmaEndRun c).Follows s₀ := .ite h.setF.dmaRun h.setF

theorem State.Follows.dmaEnd {c : Nat} {data : List Byte} {err : Bool} {eccs : List Ecc} (h : s.Follows s₀) :
    (s.dmaEnd c data err eccs).Follows s₀ := by
  unfold State.dmaEnd
  extract_lets +onlyGivenNames _
  split
  · exact h
  · extract_lets +onlyGivenNames _ _ _ _ _ s1 _ s2 s3 s4 s5 s6 s7 s8 s9
    have h1 : s1.2.2.Follows s₀ := h.descData
    have h2 : s2.2.Follows s₀ := by unfold s2; split; exacts [h, by split; exacts [h.grnWait.dmaCopy, h1.dmaDeliver]]
    have h3 : s3.Follows s₀ := h2
    have h4 : s4.Follows s₀ := .ite h3.grnWriteB h3.hostWrite
    have h5 : s5.Follows s₀ := .ite h4.bumpF h4.bumpF
    have h6 : s6.Follows s₀ := .ite h5.raise h5
    have h7 : s7.Follows s₀ := h6.raise
    have h8 : s8.Follows s₀ := .ite (.ite h7.schedEvent h7.msix) h6
    have h9 : s9.Follows s₀ := h8.modDma
    exact .ite h9.dmaEndRun (.ite h9.mark.raise.dmaEndRun h9.modDma)

theorem execDmaDescriptorEnd_answers {c : Fin 16} {data : List Byte} {err : Bool} {eccs : List Ecc} (h : s.Follows s₀) :
    s₀.Answers (execDmaDescriptorEnd c data err eccs s) := .next (.ite h.dmaEnd.overrunTrip h)

theorem State.Follows.dmaDisable {c : Nat} (h : s.Follows s₀) : (s.dmaDisable c).Follows s₀ := .modDma (.setF (.ite h.modHif h))

theorem execDmaDisableDone_answers {c : Fin 16} (h : s.Follows s₀) : s₀.Answers (execDmaDisableDone c s) :=
  .ite (.next h.free.free.setF.setF.putRc.putRc) (.next h)

theorem State.Follows.portDown {p : Nat} (h : s.Follows s₀) : (s.portDown p).Follows s₀ := by
  unfold State.portDown
  extract_lets +onlyGivenNames s1 s2 s3 _ s4 s5 s6
  have h1 : s1.Follows s₀ := h.bumpF.setF
  have h2 : s2.Follows s₀ := h1.setF.setF
  have h3 : s3.Follows s₀ := h2.raise
  have h4 : s4.Follows s₀ := h3.setF
  have h5 : s5.Follows s₀ := h4.stopRings
  have h6 : s6.Follows s₀ := h5.forEach fun ht => .ite ht.dmaCur.modDma.dmaHalt ht
  exact .ite h6.ownLapse h6

theorem execPortDown_answers {p : Fin 2} (h : s.Follows s₀) : s₀.Answers (execPortDown p s) := .next (.ite h.portDown h)

theorem execClaim_answers {p : Fin 2} {v : W32} (h : s.Follows s₀) : s₀.Answers (execClaim p v s) :=
  .ite (.next h) (.next (.ite h.setDoorbell.claim h.setDoorbell))

theorem execKeepalive_answers {p : Fin 2} {v : W32} (h : s.Follows s₀) : s₀.Answers (execKeepalive p v s) :=
  .ite (.next h) (.next (.ite h.setDoorbell.keepalive h.setDoorbell))

theorem State.Follows.mspiEnd {discarded : Bool} (h : s.Follows s₀) : (s.mspiEnd discarded).Follows s₀ := h.modHif

theorem execMspiClaim_answers (h : s.Follows s₀) : s₀.Answers (execMspiClaim s) := .next (.ite h.claim.mspiEnd h)

theorem execMspiKeepalive_answers (h : s.Follows s₀) : s₀.Answers (execMspiKeepalive s) := .next (.ite h.keepalive.mspiEnd h)

theorem execLeaseExpire_answers (h : s.Follows s₀) : s₀.Answers (execLeaseExpire s) := .ite (.next h) (.next h.advanceCyc.ownLapse)

/-! ### Corrections of the timebase -/

theorem State.Follows.modTim {g : Tim → Tim} (h : s.Follows s₀) : (s.modTim g).Follows s₀ := h.same

theorem State.Follows.timRefuse {source reason : Nat} {ofs : Int} (h : s.Follows s₀) : (s.timRefuse source reason ofs).Follows s₀ :=
  h.setF.mark.bumpF.raise

theorem State.Follows.adcStep {d : Int} (h : s.Follows s₀) : (s.adcStep d).Follows s₀ := h.forEach fun ht => ht.modSlice

theorem State.Follows.stepTo {v : Nat} (h : s.Follows s₀) : (s.stepTo v).Follows s₀ := by
  unfold State.stepTo
  extract_lets +onlyGivenNames _ s1 s2 s3 s4
  have h1 : s1.Follows s₀ := h.adcStep.modTim
  have h2 : s2.Follows s₀ := h1.same
  have h3 : s3.Follows s₀ := h2.modTim.setF.mark
  have h4 : s4.Follows s₀ := h3.bumpF.emptyDelays.recStep
  exact .adcResume (.ite h4.same h4)

theorem State.Follows.stepBy {source : Nat} {d : Int} (h : s.Follows s₀) : (s.stepBy source d).Follows s₀ :=
  .ite h.timRefuse h.stepTo

theorem State.Follows.slewBy {d : Int} (h : s.Follows s₀) : (s.slewBy d).Follows s₀ := h.modTim.setF

theorem State.Follows.offsetRequest {source : Nat} {d : Int} {force : Bool} (h : s.Follows s₀) :
    (s.offsetRequest source d force).Follows s₀ := .ite h.timRefuse (.ite h.timRefuse (.ite h.timRefuse (.ite h.stepBy h.slewBy)))

theorem State.Follows.absoluteSet {source : Nat} (h : s.Follows s₀) : (s.absoluteSet source).Follows s₀ :=
  .ite h.timRefuse (.ite h.timRefuse h.stepTo)

theorem State.Follows.timRequest {r : TimReq} (h : s.Follows s₀) : (s.timRequest r).Follows s₀ := by
  unfold State.timRequest
  split
  · exact h.offsetRequest
  · exact h.absoluteSet

theorem State.Follows.ownerRequest {r : TimReq} (h : s.Follows s₀) : (s.ownerRequest r).Follows s₀ :=
  .ite h.modTim.modTim h.modTim.timRequest

theorem State.Follows.lateRequests (h : s.Follows s₀) : s.lateRequests.Follows s₀ := h.modTim.foldl fun ht => ht.timRequest

theorem State.Follows.offsetGo {source : Nat} (h : s.Follows s₀) : (s.offsetGo source).Follows s₀ := h.ownerRequest

theorem State.Follows.setGo {source : Nat} (h : s.Follows s₀) : (s.setGo source).Follows s₀ := h.ownerRequest

theorem execSlewEnd_answers (h : s.Follows s₀) : s₀.Answers (execSlewEnd s) := .ite (.next h.cycles) (.next h)

theorem execRampUpdate_answers (h : s.Follows s₀) : s₀.Answers (execRampUpdate s) := .ite (.next h.advanceCyc.modTim) (.next h)

theorem State.Follows.timRecord (h : s.Follows s₀) : s.timRecord.Follows s₀ := by
  unfold State.timRecord
  dsimp only; split
  · split
    · exact h.grnCheck.modTim
    · exact .ite h.grnCheck.modTim h.grnCheck.modTim.modTim
  · exact h

theorem State.Follows.rateWrite {origin v : Nat} (h : s.Follows s₀) : (s.rateWrite origin v).Follows s₀ :=
  .ite h.setF h.setF.raiseClamp

theorem execTimRequestApply_answers (h : s.Follows s₀) : s₀.Answers (execTimRequestApply s) := by
  unfold execTimRequestApply
  split
  · exact .next h
  · extract_lets +onlyGivenNames s1
    have h1 : s1.Follows s₀ := h.modTim
    split
    · exact .next h1
    · extract_lets +onlyGivenNames s2 _ s3
      have h2 : s2.Follows s₀ := .ite h1.coreTick h1
      have h3 : s3.Follows s₀ := .ite h2.rateWrite h2
      exact .next (.ite h3.offsetRequest h3)

theorem State.Follows.espFreeze (h : s.Follows s₀) : s.espFreeze.Follows s₀ := .ite h.modTim h

theorem execEspHold_answers (h : s.Follows s₀) : s₀.Answers (execEspHold s) := .next h.same.espFreeze

theorem execEspHoldRelease_answers (h : s.Follows s₀) : s₀.Answers (execEspHoldRelease s) := .next h.same.modTim

/-! ### The redundant pair -/

theorem State.Follows.checkSignature (h : s.Follows s₀) : s.checkSignature.Follows s₀ := .ite h (.ite h.setF h.setF.raiseOnce)

theorem State.Follows.ilkRest (h : s.Follows s₀) : s.ilkRest.Follows s₀ := h.setDrive

theorem State.Follows.claimToken (h : s.Follows s₀) : s.claimToken.Follows s₀ := h.setDrive.wr.modTim

theorem State.Follows.takeover {path : Nat} (h : s.Follows s₀) : (s.takeover path).Follows s₀ := h.claimToken.mark.bumpF.raise

theorem State.Follows.claimFirst (h : s.Follows s₀) : s.claimFirst.Follows s₀ := .ite h.claimToken h

theorem State.Follows.releaseOnEntry (h : s.Follows s₀) : s.releaseOnEntry.Follows s₀ := by
  unfold State.releaseOnEntry
  split
  · exact .ite h.setDrive h
  · exact .ite h.setDrive h
  · exact .ite h.setDrive h
  · exact .ite h.setDrive h
  · exact h

theorem State.Follows.ilkClash (h : s.Follows s₀) : s.ilkClash.Follows s₀ := .ite (.ite h.mark.setDrive.raise h.mark) h

theorem execIlkInChange_answers {reading : Fin 3} (h : s.Follows s₀) : s₀.Answers (execIlkInChange reading s) :=
  .ite (.next h) (.ite (.next h.setF.modPair.updateDrive.takeover) (.next h.setF.modPair.updateDrive.ilkClash))

theorem execAbsentClaim_answers (h : s.Follows s₀) : s₀.Answers (execAbsentClaim s) :=
  .ite (.next h.advanceCyc.claimToken) (.next h)

theorem execLostClaim_answers (h : s.Follows s₀) : s₀.Answers (execLostClaim s) := by
  unfold execLostClaim
  split
  · exact .ite (.next h.advanceCyc.takeover) (.next h)
  · exact .next h

theorem execIlkOpen_answers (h : s.Follows s₀) : s₀.Answers (execIlkOpen s) := by
  unfold execIlkOpen
  split
  · exact .ite (.next h.advanceCyc.setF.mark.raise) (.next h)
  · exact .next h

theorem execFrozenClear_answers (h : s.Follows s₀) : s₀.Answers (execFrozenClear s) := .next (.ite h h.advanceCyc.setF)

theorem State.Follows.sendShare {l : Nat} {bs : List MirBlock} (h : s.Follows s₀) : (s.sendShare l bs).Follows s₀ :=
  .ite h.modLane h

theorem State.Follows.sendMirror {kind : Nat} {blocks : List Nat} (h : s.Follows s₀) : (s.sendMirror kind blocks).Follows s₀ :=
  h.sendShare.sendShare.modPair

theorem State.Follows.takeMirror {x : MirRx} (h : s.Follows s₀) : (s.takeMirror x).2.Follows s₀ := by
  unfold State.takeMirror
  extract_lets +onlyGivenNames _ _ _ _ _ _
  split <;> exact h.modPair

theorem execStatusFrameLaunch_answers (h : s.Follows s₀) : s₀.Answers (execStatusFrameLaunch s) :=
  .ite (.next h.advanceTo.advanceCyc.free.sendMirror.modPair) (.next h)

theorem State.Follows.followLaw (h : s.Follows s₀) : s.followLaw.Follows s₀ := h.free.modTim

theorem State.Follows.tfStep {d theta : Int} (h : s.Follows s₀) : (s.tfStep d theta).Follows s₀ := by
  unfold State.tfStep
  extract_lets +onlyGivenNames _ s1 s2 _ s3
  have h1 : s1.Follows s₀ := h.wr.setF
  have h2 : s2.Follows s₀ := .ite (.ite h1.timRefuse h1.stepBy) h1.followLaw
  have h3 : s3.Follows s₀ := h2.modPair
  exact .ite (.ite h3.setF.mark.raise h3) (.ite h3.setF h3)

theorem State.Follows.tfFollow {n t4 : Nat} (h : s.Follows s₀) : (s.tfFollow n t4).Follows s₀ := by
  unfold State.tfFollow
  split
  · split
    · exact .ite h.tfStep h
    · exact h
  · exact h

theorem State.Follows.compareDigest {theirs : Nat} (h : s.Follows s₀) : (s.compareDigest theirs).Follows s₀ := by
  unfold State.compareDigest
  extract_lets +onlyGivenNames _ s1 s2 s3
  have h1 : s1.Follows s₀ := h.wr.wr
  have h2 : s2.Follows s₀ := h1.wr.wr
  have h3 : s3.Follows s₀ := h2.wr.modPair
  exact .ite h3.bumpF (.ite h3.setF.mark.bumpF.raise h3.setF.mark.bumpF.raise.setF.openJoin)

theorem State.Follows.statusArrived {f : MirFrame} {t : Nat} (h : s.Follows s₀) : (s.statusArrived f t).Follows s₀ := by
  unfold State.statusArrived
  split
  · exact h
  · extract_lets +onlyGivenNames _ _ _ _ _ s1 s2 s3 s4 s5 s6 _ s7
    have h1 : s1.Follows s₀ := h.modPair
    have h2 : s2.Follows s₀ := h1.setF.setF
    have h3 : s3.Follows s₀ := h2.wr
    have h4 : s4.Follows s₀ := .ite h3.mark h3
    have h5 : s5.Follows s₀ := h4.ilkClash.checkSignature
    have h6 : s6.Follows s₀ := .ite h5.compareDigest h5
    have h7 : s7.Follows s₀ := h6.tfFollow
    exact h7.modPair

theorem execStatusFrame_answers {x : MirRx} {t : Nat} (h : s.Follows s₀) : s₀.Answers (execStatusFrame x t s) := by
  unfold execStatusFrame
  split
  · exact .next h
  · extract_lets +onlyGivenNames s1
    have h1 : s1.2.Follows s₀ := h.takeMirror
    split
    · exact .next h1.statusArrived
    · exact .next h1

theorem State.Follows.capture {it : MirItem} (h : s.Follows s₀) : (s.capture it).Follows s₀ := .ite h.modPair h

theorem State.Follows.formInput (h : s.Follows s₀) : s.formInput.Follows s₀ := h.bumpF.modPair

theorem execInputFrameLaunch_answers (h : s.Follows s₀) : s₀.Answers (execInputFrameLaunch s) := by
  unfold execInputFrameLaunch
  split
  · extract_lets +onlyGivenNames s1
    have h1 : s1.Follows s₀ := h.advanceTo.formInput
    split
    · exact .next h1
    · exact .next h1.advanceCyc.sendMirror
  · exact .next h

theorem State.Follows.mirLate (h : s.Follows s₀) : s.mirLate.Follows s₀ := h.modPair.mark.bumpF.raise

theorem State.Follows.inputArrived {f : MirFrame} (h : s.Follows s₀) : (s.inputArrived f).Follows s₀ := .ite h.mirLate h.modPair

theorem execInputFrame_answers {x : MirRx} (h : s.Follows s₀) : s₀.Answers (execInputFrame x s) := by
  unfold execInputFrame
  split
  · exact .next h
  · extract_lets +onlyGivenNames s1
    have h1 : s1.2.Follows s₀ := h.takeMirror
    split
    · exact .next h1.inputArrived
    · exact .next h1.mirLate

theorem execJoinFrameLaunch_answers (h : s.Follows s₀) : s₀.Answers (execJoinFrameLaunch s) :=
  .ite (.ite (.next h.advanceTo.advanceCyc.sendMirror.modPair) (.next h)) (.next h)

theorem State.Follows.joinArrived {f : MirFrame} (h : s.Follows s₀) : (s.joinArrived f).Follows s₀ := .ite h h.modPair

theorem execJoinFrame_answers {x : MirRx} (h : s.Follows s₀) : s₀.Answers (execJoinFrame x s) := by
  unfold execJoinFrame
  split
  · exact .next h
  · extract_lets +onlyGivenNames s1
    have h1 : s1.2.Follows s₀ := h.takeMirror
    split
    · exact .next h1.joinArrived
    · exact .next h1

theorem State.Follows.adoptCell {c : Nat} {r : List Byte} (h : s.Follows s₀) : (s.adoptCell c r).Follows s₀ :=
  h.modCell.setF.setF.setF.setF.driftCheck.setF

theorem State.Follows.joinAdopt (h : s.Follows s₀) : s.joinAdopt.Follows s₀ := by
  unfold State.joinAdopt
  extract_lets +onlyGivenNames s1 s2
  have h1 : s1.Follows s₀ := by unfold s1; split; exacts [h.forEach (fun ht => ht.modCell), h]
  have h2 : s2.Follows s₀ := h1.modPair
  split
  · exact h2
  · extract_lets +onlyGivenNames s3
    have h3 : s3.Follows s₀ := h2.modPair
    split
    · exact h3
    · exact .ite (h3.foldl (fun ht => ht.adoptCell)).modPair.setF.modPair (h3.foldl (fun ht => ht.adoptCell)).modPair

theorem State.Follows.pairStatus (h : s.Follows s₀) : s.pairStatus.Follows s₀ := by
  unfold State.pairStatus
  extract_lets +onlyGivenNames s1
  have h1 : s1.Follows s₀ := .ite h h.setF
  exact .ite h1.modPair (.ite h1.bumpF.modPair.mark.raise.modPair h1.bumpF.modPair)

theorem State.Follows.pairStep (h : s.Follows s₀) : s.pairStep.Follows s₀ := .ite h.setF h.setF.setF

theorem State.Follows.pairHandover (h : s.Follows s₀) : s.pairHandover.Follows s₀ :=
  .modPair (.ite (.ite h.setDrive h.mark.raise) h)

theorem State.Follows.pairPeriod {wasRunning : Bool} (h : s.Follows s₀) : (s.pairPeriod wasRunning).Follows s₀ :=
  .ite (.modPair (.pairHandover (.pairStep (.ite h.modPair.pairStatus h.modPair)))) h.modPair

/-! ### The CAN FD controllers -/

theorem State.Follows.setQueue {k : Nat} {q : List CanEntry} (h : s.Follows s₀) : (s.setQueue k q).Follows s₀ := h.modCan.setF

theorem State.Follows.feedBack {e : CanEntry} {st : Nat} {sof : Option Nat} (h : s.Follows s₀) :
    (s.feedBack e st sof).Follows s₀ := by
  unfold State.feedBack
  split
  · exact h
  · extract_lets +onlyGivenNames s1
    have h1 : s1.Follows s₀ := by unfold s1; split; exacts [h.grnWriteA, h]
    exact h1.grnWriteA

theorem State.Follows.pushEntry {k : Nat} {e : CanEntry} (h : s.Follows s₀) : (s.pushEntry k e).Follows s₀ :=
  .ite h.bumpF.modCan h.setQueue.modCan

theorem State.Follows.pushAgain {k : Nat} (h : s.Follows s₀) : (s.pushAgain k).Follows s₀ := by
  unfold State.pushAgain
  split
  · exact h
  · exact .ite h.modCan.putRc.pushEntry h.modCan

theorem State.Follows.feedEntry {k : Nat} {e : CanEntry} (h : s.Follows s₀) : (s.feedEntry k e).Follows s₀ :=
  .ite h.setQueue h.setQueue.bumpF

theorem State.Follows.canPush {k : Nat} (h : s.Follows s₀) : (s.canPush k).Follows s₀ := .ite h.bumpF (.ite h.bumpF h.pushEntry)

theorem execCanFeedPoll_answers {k : Fin 2} {eccs : List Ecc} (h : s.Follows s₀) : s₀.Answers (execCanFeedPoll k eccs s) := by
  unfold execCanFeedPoll
  split
  · exact .next h
  · extract_lets +onlyGivenNames _ _ _ s1 s2 s3 _
    have h1 : s1.Follows s₀ := h.advanceCyc
    have h2 : s2.Follows s₀ := h1.modCan
    have h3 : s3.Follows s₀ := h2.grnWait.grnCheck
    split
    · exact .next h3
    · exact .ite (.next h3.modCan.feedBack) (.ite (.next h3.modCan.feedBack) (.next (.ite h3.modCan.feedEntry h3)))

theorem State.Follows.dropHead {k : Nat} (h : s.Follows s₀) : (s.dropHead k).Follows s₀ := h.setQueue.modCan.pushAgain

theorem State.Follows.emptyQueue {k : Nat} {count : Bool} (h : s.Follows s₀) : (s.emptyQueue k count).Follows s₀ := by
  unfold State.emptyQueue
  extract_lets +onlyGivenNames _ _ s1 s2
  have h1 : s1.Follows s₀ := h.foldl fun ht => ht.feedBack
  have h2 : s2.Follows s₀ := .ite h1.bumpF h1
  exact h2.setQueue.modCan.pushAgain

theorem State.Follows.abortHead {k : Nat} (h : s.Follows s₀) : (s.abortHead k).Follows s₀ := by
  unfold State.abortHead
  split
  · exact h.modCan
  · exact h.feedBack.bumpF.dropHead

theorem State.Follows.canAbort {k : Nat} {busy : Bool} (h : s.Follows s₀) : (s.canAbort k busy).Follows s₀ :=
  .ite h (.ite h.modCan h.abortHead)

theorem State.Follows.canFlush {k : Nat} {busy : Bool} (h : s.Follows s₀) : (s.canFlush k busy).Follows s₀ :=
  .ite h.modCan h.emptyQueue

theorem State.Follows.canTakeOver {k : Nat} (h : s.Follows s₀) : (s.canTakeOver k).Follows s₀ := h.modCan

theorem State.Follows.busOff {k : Nat} (h : s.Follows s₀) : (s.busOff k).Follows s₀ :=
  .canTakeOver (.setF (.ite h.mark.raise.emptyQueue h.mark.raise))

theorem State.Follows.canErrState {k through : Nat} (h : s.Follows s₀) : (s.canErrState k through).Follows s₀ :=
  .ite h (.ite h.busOff (.ite (.ite h.setF.raise h) h.setF))

theorem State.Follows.txError {k code : Nat} {free : Bool} {more : Nat} (h : s.Follows s₀) :
    (s.txError k code free more).Follows s₀ := .ite h.setF h.setF.setF.canErrState

theorem State.Follows.canReceive {k idWord control : Nat} {data : List Byte} {sof : Nat} (h : s.Follows s₀) :
    (s.canReceive k idWord control data sof).Follows s₀ := by
  unfold State.canReceive
  split
  · exact h.bumpF
  · exact h.modCan

theorem State.Follows.rxGood {k : Nat} (h : s.Follows s₀) : (s.rxGood k).Follows s₀ :=
  .ite h (.ite h.setF.canErrState h.free.setF.canErrState)

theorem execCanFrameReceived_answers {k : Fin 2} {f : CanFrame} {sof : Nat} {err : Option CanRxErr} (h : s.Follows s₀) :
    s₀.Answers (execCanFrameReceived k f sof err s) := by
  unfold execCanFrameReceived
  split
  · exact .next h
  · extract_lets +onlyGivenNames _
    split
    · exact .next (.ite h.setF h.setF.bumpF.canErrState)
    · exact .next (.canReceive (.ite h h.rxGood))

theorem execCanObjectWrite_answers {k : Fin 2} (h : s.Follows s₀) : s₀.Answers (execCanObjectWrite k s) := by
  unfold execCanObjectWrite
  split
  · exact .next h
  · split
    · exact .next h
    · extract_lets +onlyGivenNames _ s1 _ _ _ _ _ s2 s3 s4 s5 s6 _
      have h1 : s1.Follows s₀ := h.grnWait.grnSee
      have h2 : s2.Follows s₀ := h1.modCan
      have h3 : s3.Follows s₀ := h2.grnWriteA
      have h4 : s4.Follows s₀ := h3.bumpF
      have h5 : s5.Follows s₀ := h4.bumpF
      have h6 : s6.Follows s₀ := .ite (.ite h5 h5.raise) h4
      exact .next h6.capture.occur

theorem State.Follows.endHead {k : Nat} {e : CanEntry} {st : Nat} {sof : Option Nat} (h : s.Follows s₀) :
    (s.endHead k e st sof).Follows s₀ := h.feedBack.dropHead

theorem State.Follows.canSent {k : Nat} {e : CanEntry} {sof : Nat} (h : s.Follows s₀) : (s.canSent k e sof).Follows s₀ := by
  unfold State.canSent
  extract_lets +onlyGivenNames _ _ s1 s2
  have h1 : s1.Follows s₀ := h.endHead.bumpF
  have h2 : s2.Follows s₀ := .ite h1.canReceive h1
  exact .ite h2 h2.setF.canErrState

theorem State.Follows.canAckErr {k : Nat} {e : CanEntry} {dominant : Bool} {more : Nat} (h : s.Follows s₀) :
    (s.canAckErr k e dominant more).Follows s₀ :=
  .ite (.raise (.mark (.endHead (.ite h.txError h.txError.modCan)))) (.ite h.txError h.txError.modCan)

theorem State.Follows.canClash {k : Nat} {e : CanEntry} {code more : Nat} (h : s.Follows s₀) :
    (s.canClash k e code more).Follows s₀ :=
  .ite (.raise (.mark (.endHead (.ite h.txError h.txError.modCan)))) (.ite h.txError h.txError.modCan)

theorem State.Follows.canOther {k code : Nat} {free : Bool} {more : Nat} (h : s.Follows s₀) :
    (s.canOther k code free more).Follows s₀ := h.txError.modCan

theorem State.Follows.tdcTaken {k : Nat} {e : CanEntry} {how : CanEnd} {seen : CanSeen} (h : s.Follows s₀) :
    (s.tdcTaken k e how seen).Follows s₀ := by
  unfold State.tdcTaken
  extract_lets +onlyGivenNames _
  split
  · exact .ite h.setF h
  · exact h

theorem execCanTxAttemptEnd_answers {k : Fin 2} {how : CanEnd} {sof : Nat} {seen : CanSeen} (h : s.Follows s₀) :
    s₀.Answers (execCanTxAttemptEnd k how sof seen s) := by
  unfold execCanTxAttemptEnd
  split
  · exact .next h
  · split
    · exact .next h
    · extract_lets +onlyGivenNames s1 s2 s3
      have h1 : s1.Follows s₀ := h.tdcTaken
      have h2 : s2.Follows s₀ := by
        unfold s2
        split
        exacts [h1.canSent, h1, h1.canAckErr, h1.canOther, h1.canOther, h1.canOther, h1.canClash, h1.canOther]
      have h3 : s3.Follows s₀ := .ite h2.abortHead h2
      exact .next (.ite h3.emptyQueue h3)

theorem execCanModeApply_answers {k : Fin 2} (h : s.Follows s₀) : s₀.Answers (execCanModeApply k s) := .next (.ite h.canTakeOver h)

theorem State.Follows.canCfgWritten {k : Nat} (h : s.Follows s₀) : (s.canCfgWritten k).Follows s₀ := .ite h.canTakeOver h

theorem State.Follows.canRecover {k : Nat} (h : s.Follows s₀) : (s.canRecover k).Follows s₀ := .ite h.setF h

theorem execCanRecoveryDone_answers {k : Fin 2} (h : s.Follows s₀) : s₀.Answers (execCanRecoveryDone k s) :=
  .next (.ite h.setF.setF.setF h)

theorem State.Follows.canBoot (h : s.Follows s₀) : s.canBoot.Follows s₀ :=
  h.forEach fun ht => ht.setF.setQueue.setF.setF.setF.modCan

/-! ### The Ethernet ports -/

theorem State.Follows.modEth {p : Nat} {g : EthPort → EthPort} (h : s.Follows s₀) : (s.modEth p g).Follows s₀ := h.modTim

theorem State.Follows.frameEnd {t n : Nat} (h : s.Follows s₀) : (s.frameEnd t n).Follows s₀ := h.advanceTo

theorem State.Follows.gmWatch {p : Nat} {f : List Byte} (h : s.Follows s₀) : (s.gmWatch p f).Follows s₀ := by
  unfold State.gmWatch
  split
  · exact h
  · exact .ite (.ite h.wr.wr.modEth (.ite h h.wr.wr.modEth.mark.raise)) h

theorem State.Follows.svStore {p k : Nat} {f : List Byte} {t : Nat} (h : s.Follows s₀) : (s.svStore p k f t).Follows s₀ :=
  .occur (.capture (.ite h.modTim.grnWriteA.setF.bumpF h.modTim.grnWriteA.setF))

theorem State.Follows.rxRing {p : Nat} {f : List Byte} {t : Nat} (h : s.Follows s₀) : (s.rxRing p f t).Follows s₀ :=
  .ite h (.ite h.grnSee.bumpF (.ite h.grnSee.grnWriteA.modEth.capture h.grnSee.grnWriteA.modEth))

theorem execEthFrameReceived_answers {p : Fin 2} {frame : List Byte} {fcsOk : Bool} {t : Nat} (h : s.Follows s₀) :
    s₀.Answers (execEthFrameReceived p frame fcsOk t s) := by
  unfold execEthFrameReceived
  split
  · exact .next h
  · extract_lets +onlyGivenNames s1
    have h1 : s1.Follows s₀ := h.frameEnd
    split
    · exact .next h1.bumpF
    · split
      · exact .next h1
      · split
        · exact .next h1
        · extract_lets +onlyGivenNames _ s2
          have h2 : s2.Follows s₀ := h1.grnWait.gmWatch
          split
          · exact .next (.ite h2.svStore h2)
          · exact .next h2.rxRing

theorem State.Follows.txReturn {p i st : Nat} (h : s.Follows s₀) : (s.txReturn p i st).Follows s₀ := h.grnWriteA

theorem execTxDescriptorPoll_answers {p : Fin 2} {eccs : List Ecc} (h : s.Follows s₀) :
    s₀.Answers (execTxDescriptorPoll p eccs s) := by
  unfold execTxDescriptorPoll
  extract_lets +onlyGivenNames _
  split
  · exact .next h
  · extract_lets +onlyGivenNames _ _ s1 s2 s3 _
    have h1 : s1.Follows s₀ := h.advanceCyc
    have h2 : s2.Follows s₀ := h1.modEth
    have h3 : s3.Follows s₀ := h2.grnWait.grnCheck
    split
    · exact .next h3
    · extract_lets +onlyGivenNames s4 _
      have h4 : s4.Follows s₀ := h3.modEth
      exact .ite (.next h4.txReturn.bumpF) (.ite (.next h4.txReturn.bumpF) (.ite (.next h4.txReturn.bumpF) (.next h4.modEth)))

theorem State.Follows.txSee {p i : Nat} (h : s.Follows s₀) : (s.txSee p i).Follows s₀ := h.grnSee.grnSee

theorem execEthFrameSent_answers {p : Fin 2} {t : Nat} (h : s.Follows s₀) : s₀.Answers (execEthFrameSent p t s) := by
  unfold execEthFrameSent
  split
  · exact .next h
  · exact .ite (.next h) (.next (.txReturn (.ite h.txSee.frameEnd.modEth.grnWriteA h.txSee.frameEnd.modEth)))

theorem execEthLinkChange_answers {p : Fin 2} {up : Bool} {ability : BitVec 16} (h : s.Follows s₀) :
    s₀.Answers (execEthLinkChange p up ability s) := by
  unfold execEthLinkChange
  split
  · exact .next h
  · extract_lets +onlyGivenNames _ _ s1 s2 s3
    have h1 : s1.Follows s₀ := h.setF.setF
    have h2 : s2.Follows s₀ := h1.setF.modEth
    have h3 : s3.Follows s₀ := .ite h2.mark h2
    exact .next (.ite h3.raise h3)

theorem State.Follows.anRestart {p : Nat} (h : s.Follows s₀) : (s.anRestart p).Follows s₀ := h.setF.modEth

/-! ### Training, discovery, markers, the bond and diagnostics of the lanes -/

theorem State.Follows.startTraining {l : Nat} (h : s.Follows s₀) : (s.startTraining l).Follows s₀ :=
  .ite h.setLaneState.setF.modLane.setF.setF.setF.setF.hideLane h.setLaneState.setF.modLane

theorem State.Follows.sendSet {l rank : Nat} {x : TxSet} (h : s.Follows s₀) : (s.sendSet l rank x).Follows s₀ :=
  .ite h.sendNow h.sendDue

theorem execHelloSend_answers {l : Fin 50} (h : s.Follows s₀) : s₀.Answers (execHelloSend l s) :=
  .ite (.next h.advanceCyc.modLane.sendSet) (.next h)

theorem State.Follows.musterSequencer (h : s.Follows s₀) : s.musterSequencer.Follows s₀ := .ite h.same h

theorem State.Follows.launchMeasure {l : Nat} (h : s.Follows s₀) : (s.launchMeasure l).Follows s₀ :=
  .ite (h.forEach (fun ht => ht.modLane)) h

theorem State.Follows.cellLaneTrained {x rx hops : Nat} (h : s.Follows s₀) : (s.cellLaneTrained x rx hops).Follows s₀ := by
  unfold State.cellLaneTrained
  extract_lets +onlyGivenNames s1 _ _ s2 s3 s4 _ s5 s6 s7
  have h1 : s1.Follows s₀ := h.setLaneState.modLane
  have h2 : s2.Follows s₀ := h1.setF
  have h3 : s3.Follows s₀ := .ite h2.setF h2
  have h4 : s4.Follows s₀ := h3.setF.setF
  have h5 : s5.Follows s₀ := .ite h4 (h4.forEach (fun ht => ht.modCell))
  have h6 : s6.Follows s₀ := h5.forEach fun ht => ht.modCell
  have h7 : s7.Follows s₀ := .ite h6.raise h6
  exact h7.launchMeasure

theorem State.Follows.mirrorHello {l hops lane dirTopo : Nat} (h : s.Follows s₀) : (s.mirrorHello l hops lane dirTopo).Follows s₀ :=
  .ite (.ite h.modLane.setLaneState.modLane h.modLane) h

theorem execHelloReceived_answers {l : Fin 50} {x : RxSet} (h : s.Follows s₀) : s₀.Answers (execHelloReceived l x s) :=
  .ite (.next h) (.ite (.next h.mirrorHello) (.ite (.next h.cellLaneTrained.musterSequencer) (.next h)))

theorem execTrainingTimeout_answers {l : Fin 50} (h : s.Follows s₀) : s₀.Answers (execTrainingTimeout l s) := by
  unfold execTrainingTimeout
  split
  · exact .next h
  · extract_lets +onlyGivenNames s1 s2 _ _ s3
    have h1 : s1.Follows s₀ := h.advanceCyc
    have h2 : s2.Follows s₀ := h1.modLane
    have h3 : s3.Follows s₀ := .ite h2.modLane.mark.raise h2
    exact .ite (.next h3.setLaneState.launchMeasure.musterSequencer) (.next h3.modLane)

theorem execTrainingRetry_answers {l : Fin 50} (h : s.Follows s₀) : s₀.Answers (execTrainingRetry l s) :=
  .ite (.next h.advanceCyc.modLane.setF) (.next h)

theorem State.Follows.laneTimingCheck {l : Nat} (h : s.Follows s₀) : (s.laneTimingCheck l).Follows s₀ :=
  .ite h.modLane.raise (.ite h.modLane.raise h.modLane)

theorem State.Follows.echoDone {l d n : Nat} (h : s.Follows s₀) : (s.echoDone l d n).Follows s₀ := by
  unfold State.echoDone
  extract_lets +onlyGivenNames _ s1 s2 _ s3
  have h1 : s1.Follows s₀ := h.setF.setF
  have h2 : s2.Follows s₀ := .ite h1.mark.raise h1
  have h3 : s3.Follows s₀ := .ite h2.mark.raise h2
  exact h3.setF

theorem State.Follows.echoRecord {l d rsum : Nat} (h : s.Follows s₀) : (s.echoRecord l d rsum).Follows s₀ := h.modLane

theorem State.Follows.echoCheck {l : Nat} (h : s.Follows s₀) : (s.echoCheck l).Follows s₀ :=
  .ite h.launchMeasure (.ite (.ite h h.echoDone.echoDone.musterSequencer) h.echoDone.musterSequencer)

theorem execEchoMeasureReturn_answers {l : Fin 48} {d rsum : Fin 1048576} (h : s.Follows s₀) :
    s₀.Answers (execEchoMeasureReturn l d rsum s) := by
  unfold execEchoMeasureReturn
  split
  · extract_lets +onlyGivenNames s1
    have h1 : s1.Follows s₀ := .ite h h.advanceCyc.flushSets.advanceCyc.launchMeasure
    exact .ite (.next h1.advanceCyc.echoRecord.echoCheck) (.next h1)
  · exact .next h

theorem State.Follows.sendAssign {l : Nat} {xs : List TxSet} (h : s.Follows s₀) : (s.sendAssign l xs).Follows s₀ :=
  .ite h.assignSent h.sendDue

theorem State.Follows.assignRing {l : Nat} (h : s.Follows s₀) : (s.assignRing l).Follows s₀ := h.sendAssign

theorem State.Follows.echoDelta {c : Nat} (h : s.Follows s₀) : (s.echoDelta c).2.Follows s₀ := by
  unfold State.echoDelta
  split
  · exact h
  · exact h.free

theorem State.Follows.assignChain {k : Nat} (h : s.Follows s₀) : (s.assignChain k).Follows s₀ := by
  unfold State.assignChain
  extract_lets +onlyGivenNames _ _ _ _ _ _ s1
  have h1 : s1.1.Follows s₀ :=
    List.foldlRecOn _ _ (motive := fun p : State × List TxSet × List TxSet => p.1.Follows s₀) h fun _ hp _ _ => hp.echoDelta
  exact h1.forEach fun ht => ht.sendAssign

theorem State.Follows.assignLane {l : Nat} (h : s.Follows s₀) : (s.assignLane l).Follows s₀ :=
  .ite (.ite h h.assignChain) h.assignRing

theorem State.Follows.discoveryPeriod {l : Nat} (h : s.Follows s₀) : (s.discoveryPeriod l).Follows s₀ :=
  .ite h.assignLane (.ite (.ite h.modLane.setF.assignLane h.modLane) h)

theorem State.Follows.finishDiscovery {l : Nat} (h : s.Follows s₀) : (s.finishDiscovery l).Follows s₀ := by
  unfold State.finishDiscovery
  refine ((h.forEach fun {t c} ht => ?_).setF.setF).laneTimingCheck
  dsimp only; split
  · exact ht.modCell
  · split
    · exact ht
    · exact .ite ht.modCell ht.modCell.raise

theorem execDiscoveryTimeout_answers {l : Fin 48} (h : s.Follows s₀) : s₀.Answers (execDiscoveryTimeout l s) :=
  .ite (.next h.advanceCyc.finishDiscovery) (.next h)

theorem execChainSplit_answers {k : Fin 24} {j : Fin 128} (h : s.Follows s₀) : s₀.Answers (execChainSplit k j s) :=
  .ite (.next h.modLane.modLane.raise) (.next h)

theorem State.Follows.takeDown {l cause : Nat} (h : s.Follows s₀) : (s.takeDown l cause).Follows s₀ := by
  unfold State.takeDown
  extract_lets +onlyGivenNames s1 s2
  have h1 : s1.Follows s₀ := h.setLaneState.raise.modLane
  have h2 : s2.Follows s₀ := .ite h1.mark h1
  exact .ite h2.setF.updateDrive.modLane h2

theorem State.Follows.gatherLate {l : Nat} (h : s.Follows s₀) : (s.gatherLate l).Follows s₀ := h.mark.setF.bumpF.modLane.raise

theorem State.Follows.unbond (h : s.Follows s₀) : s.unbond.Follows s₀ := .ite h.setF.mark.raise.bondLost h

theorem State.Follows.noSigTake {l : Nat} (h : s.Follows s₀) : (s.noSigTake l).Follows s₀ := h.setF.modLane

theorem State.Follows.signalIs {l : Nat} {signal : Bool} {blocks : Nat} (h : s.Follows s₀) :
    (s.signalIs l signal blocks).Follows s₀ := .ite h h.setF.modLane.setF

theorem execBlockLockAcquired_answers {valid : BlockRun} (h : s.Follows s₀) : s₀.Answers (execBlockLockAcquired valid s) :=
  .ite (.next h.signalIs.setF.setF.modLane) (.next h)

theorem State.Follows.lockLost {l : Nat} (h : s.Follows s₀) : (s.lockLost l).Follows s₀ := by
  unfold State.lockLost
  extract_lets +onlyGivenNames _ s1
  have h1 : s1.Follows s₀ := .ite h.mark h
  split
  · exact .ite h1.unbond.startTraining h1.unbond
  · exact .ite h1 (.ite h1.startTraining (.ite (.ite h1.modLane h1.takeDown) h1))

theorem execIdleDelete_answers {x : ElasticFill} (h : s.Follows s₀) : s₀.Answers (execIdleDelete x s) :=
  .ite (.ite (.next h.bumpF.modLane) (.next h.modLane)) (.next h)

theorem execIdleInsert_answers {x : ElasticFill} (h : s.Follows s₀) : s₀.Answers (execIdleInsert x s) :=
  .ite (.ite (.next h.bumpF.modLane) (.next h.modLane)) (.next h)

theorem execMarkerSend_answers {l : Fin 48} (h : s.Follows s₀) : s₀.Answers (execMarkerSend l s) :=
  .ite (.next h.advanceCyc.flushLane.modLane.sendSet) (.next h)

theorem State.Follows.restartShares (h : s.Follows s₀) : s.restartShares.Follows s₀ := .ite h.modPair h.modLane.modLane.modPair

theorem execMirrorMarkerPair_answers (h : s.Follows s₀) : s₀.Answers (execMirrorMarkerPair s) :=
  .ite (.next h.advanceCyc.restartShares.sendSet.sendSet.modLane) (.next h)

theorem State.Follows.miswired {l lane : Nat} (h : s.Follows s₀) : (s.miswired l lane).Follows s₀ := .ite h h.mark.raise

theorem State.Follows.bond {crossed : Bool} {skew : Int} (h : s.Follows s₀) : (s.bond crossed skew).Follows s₀ :=
  h.setF.setF.same.setF.raise

theorem State.Follows.alignPair (h : s.Follows s₀) : s.alignPair.Follows s₀ := h.same

theorem execMirrorMarkerReceived_answers {m0 m1 : RxSet} {skew : Int} (h : s.Follows s₀) :
    s₀.Answers (execMirrorMarkerReceived m0 m1 skew s) := by
  unfold execMirrorMarkerReceived
  extract_lets +onlyGivenNames _ _ _ _
  split
  · exact .next h
  · split
    · exact .next h.miswired.miswired
    · extract_lets +onlyGivenNames _ s1
      have h1 : s1.Follows s₀ := .ite h.mark.raise h
      exact .ite (.next (.ite h1.unbond h1.alignPair)) (.ite (.next h1) (.next h1.alignPair.bond))

theorem execMirrorMarkerTimeout_answers (h : s.Follows s₀) : s₀.Answers (execMirrorMarkerTimeout s) := .next h.unbond

theorem execFomMeasure_answers {l : Fin 50} {eyeV eyeH : Nat} {centreV centreH : Int} (h : s.Follows s₀) :
    s₀.Answers (execFomMeasure l eyeV eyeH centreV centreH s) := by
  unfold execFomMeasure
  split
  · exact .next h
  · extract_lets +onlyGivenNames _ s1 s2 s3
    have h1 : s1.Follows s₀ := h.advanceCyc
    have h2 : s2.Follows s₀ := h1.modLane
    have h3 : s3.Follows s₀ := h2.setF.setF
    exact .ite (.next h3) (.next (.ite h3.setF.setF.raiseOnce h3.setF.setF))

theorem execAdaptFreeze_answers {idles : BlockRun} (h : s.Follows s₀) : s₀.Answers (execAdaptFreeze idles s) :=
  .next (.ite h.setF h)

theorem execAdaptResume_answers {others : BlockRun} (h : s.Follows s₀) : s₀.Answers (execAdaptResume others s) :=
  .next (.ite h.setF.modLane h)

theorem State.Follows.eqRxWritten {l : Nat} (h : s.Follows s₀) : (s.eqRxWritten l).Follows s₀ := h.setF.setF.modLane

theorem State.Follows.inject {l bits : Nat} {burst : Bool} (h : s.Follows s₀) : (s.inject l bits burst).Follows s₀ := by
  unfold State.inject
  extract_lets +onlyGivenNames _
  split
  · exact h
  · split
    · exact .ite h.modLane h
    · exact h
    · exact h.modLane
    · exact h.free.modLane

theorem State.Follows.freeBits {n : Nat} (h : s.Follows s₀) : (State.freeBits n s).2.Follows s₀ :=
  List.foldlRecOn _ _ (motive := fun p : List Bool × State => p.2.Follows s₀) h fun _ hp _ _ => hp.free

theorem State.Follows.startPattern {l : Nat} (h : s.Follows s₀) : (s.startPattern l).Follows s₀ := by
  unfold State.startPattern
  extract_lets +onlyGivenNames _ s1 _
  have h1 : s1.2.Follows s₀ := by unfold s1; split; exacts [h, h.freeBits]
  exact h1.modLane

theorem State.Follows.checkedBits {l : Nat} {bits : List Bool} (h : s.Follows s₀) : (s.checkedBits l bits).2.Follows s₀ := by
  unfold State.checkedBits
  split
  · exact h.freeBits
  · exact h

theorem execCheckerLock_answers {x : RxBits} (h : s.Follows s₀) : s₀.Answers (execCheckerLock x s) := by
  unfold execCheckerLock
  extract_lets +onlyGivenNames _
  split
  · extract_lets +onlyGivenNames s1 s2
    have h1 : s1.2.Follows s₀ := h.checkedBits
    have h2 : s2.Follows s₀ := h1
    split
    · exact .next h2.setF.modLane
    · exact .next h2
  · exact .next h

theorem State.Follows.countChecked {l errs nbits : Nat} (h : s.Follows s₀) : (s.countChecked l errs nbits).Follows s₀ :=
  h.bumpF.wr.wr

theorem execCheckerLoss_answers {l : Fin 50} {bit : Bool} {more : List Bool} (h : s.Follows s₀) :
    s₀.Answers (execCheckerLoss l bit more s) :=
  .ite (.next (.ite h.checkedBits.countChecked.modLane.setF h.checkedBits.countChecked.modLane)) (.next h)

theorem execBlockBeacon_answers (h : s.Follows s₀) : s₀.Answers (execBlockBeacon s) :=
  .ite (.next (h.forEach (fun ht => .ite ht.sendNow.setLaneState ht))) (.next h)

/-! ### Mode changes -/

theorem State.Follows.stopSequencer (h : s.Follows s₀) : s.stopSequencer.Follows s₀ :=
  (h.forEach (fun ht => ht.modLane)).same.adcResume

theorem State.Follows.stopWork (h : s.Follows s₀) : s.stopWork.Follows s₀ := h.stopSequencer.dropAll.enginesTo

theorem State.Follows.lanesToBeacon (h : s.Follows s₀) : s.lanesToBeacon.Follows s₀ := by
  unfold State.lanesToBeacon
  extract_lets +onlyGivenNames _ s1
  have h1 : s1.Follows s₀ := h.forEach fun ht => ht.setLaneState.modLane
  exact .ite h1.setF.bondLost h1

theorem State.Follows.leaveDiagnostic (h : s.Follows s₀) : s.leaveDiagnostic.Follows s₀ := h.diagRestore.canLeaveDiag.setF

theorem State.Follows.musterBegin (h : s.Follows s₀) : s.musterBegin.Follows s₀ := by
  unfold State.musterBegin
  extract_lets +onlyGivenNames s1 s2 s3 s4
  have h1 : s1.Follows s₀ := h.enginesTo
  have h2 : s2.Follows s₀ := (h1.forEach (fun ht => ht.modCell)).hideAssigned
  have h3 : s3.Follows s₀ := h2.forEach fun ht => ht.startTraining.setF
  have h4 : s4.Follows s₀ := .ite (h3.forEach (fun ht => .ite ht ht.startTraining)) h3
  exact h4.claimFirst

theorem State.Follows.bootBegin {source : Nat} {p : BootPhase} (h : s.Follows s₀) : (s.bootBegin source p).Follows s₀ :=
  h.setF.setF.same

theorem State.Follows.bootNext (h : s.Follows s₀) : s.bootNext.Follows s₀ := by
  unfold State.bootNext
  split
  · exact h.same.bootBegin
  · exact .ite h.setF.same.bootBegin h.setF.same

theorem State.Follows.bootStart (h : s.Follows s₀) : s.bootStart.Follows s₀ := h.same.bootNext

theorem State.Follows.bootGo (h : s.Follows s₀) : s.bootGo.Follows s₀ := by
  unfold State.bootGo
  split
  · exact h.setF
  · split
    · exact .ite h.setF h.setF.bootBegin
    · exact h.setF
    · exact h.setF

theorem State.Follows.enterBoot {old : Mode} {cause : Nat} (h : s.Follows s₀) : (s.enterBoot old cause).Follows s₀ :=
  h.stopWork.lanesToBeacon.setModeFrom.same.retentionCheck.canBoot.adcOff.silosIdle.releaseOnEntry.bootStart

theorem State.Follows.modeBegin (h : s.Follows s₀) : s.modeBegin.Follows s₀ := by
  unfold State.modeBegin
  split
  · exact h.same.adcInitialCal.releaseOnEntry
  · exact h.same.releaseOnEntry
  · exact h.same.musterBegin
  · exact h.openJoin
  · exact h.setF.releaseOnEntry
  · exact h

theorem State.Follows.enterMode {dest : Mode} {cause : Nat} (h : s.Follows s₀) : (s.enterMode dest cause).Follows s₀ := by
  unfold State.enterMode
  extract_lets +onlyGivenNames _ s1 s2
  have h1 : s1.Follows s₀ := .ite h.leaveConfigure h
  have h2 : s2.Follows s₀ := .ite h1.leaveDiagnostic h1
  split
  · exact h2.enterBoot
  · exact h2.stopWork.lanesToBeacon.setMode.modeBegin
  · exact h2.stopWork.setMode.modeBegin
  · exact h2.setMode.modeBegin

/-- A state may remember, for a mode entry that is taken back, the registers that it has now (R49). -/
theorem State.Follows.remember {c : ModeCtl} (ht : t.Follows s₀) (h : s.Follows s₀) :
    ({ t with ctl := c, undo := some s.undoOf } : State).Follows s₀ :=
  ⟨fun h₀ =>
    have ⟨⟨hg, hm, hd, hr, _⟩, hq⟩ := ht.1 h₀
    ⟨⟨hg, hm, hd, hr, by simpa [State.undoOf] using (h.1 h₀).1.2.2.2.1⟩, hq⟩, ht.2⟩

theorem State.Follows.evalRequest {target cause : Nat} {forwarded : Bool} (h : s.Follows s₀) :
    (s.evalRequest target cause forwarded).Follows s₀ := by
  unfold State.evalRequest
  split
  · exact h.refuseMode
  · split
    · exact h.enterMode.remember h
    · exact .ite h.refuseMode.raise h.refuseMode

theorem State.Follows.requestWritten {master source target : Nat} (h : s.Follows s₀) :
    (s.requestWritten master source target).Follows s₀ := by
  unfold State.requestWritten
  extract_lets +onlyGivenNames s1 _
  have h1 : s1.Follows s₀ := by unfold s1; split; exacts [h.refuseMode, h]
  exact .ite h1.same.refuseMode.raiseFrom (.ite h1.same.capture h1.same)

theorem State.Follows.evalNow (h : s.Follows s₀) : s.evalNow.Follows s₀ := by
  unfold State.evalNow
  split
  · exact h
  · exact .ite h h.same.evalRequest

theorem State.Follows.evalBoundary (h : s.Follows s₀) : s.evalBoundary.Follows s₀ := by
  unfold State.evalBoundary
  extract_lets +onlyGivenNames s1 _ s2
  have h1 : s1.Follows s₀ := h.modPair
  have h2 : s2.Follows s₀ := by
    unfold s2
    split
    exacts [h, .ite (.evalRequest (.ite h1.same h1)) (.ite (.ite h1.same h1) (.evalRequest (.ite h1.same h1)))]
  split
  · exact .ite h2 h2.same.evalRequest
  · exact h2

theorem State.Follows.checkMatched {cause : Nat} (h : s.Follows s₀) : (s.checkMatched cause).Follows s₀ :=
  .ite h.same.refuseMode h.enterMode

theorem State.Follows.confirmWritten {v : Nat} (h : s.Follows s₀) : (s.confirmWritten v).Follows s₀ :=
  .ite (.ite h.same.retChanged h.same.retChanged.checkMatched) h.bumpF.raise

theorem State.Follows.coldReset (h : s.Follows s₀) : s.coldReset.Follows s₀ :=
  h.of_sound (fun hs => ⟨⟨rfl, hs.1.2.1, rfl, rfl, rfl⟩, show 0 < 2 ^ 32 by norm_num⟩) rfl

theorem State.Follows.retMarkBit {x : Fld} (h : s.Follows s₀) : (s.retMarkBit x).Follows s₀ := h.same

theorem State.Follows.railsFall (h : s.Follows s₀) : s.railsFall.Follows s₀ := by
  unfold State.railsFall
  split
  · exact .coldReset (.ite (.faultHist (.ite h.faultHist h)) (.ite h.faultHist h))
  · exact .ite h.coldReset.retMarkBit h.coldReset

theorem State.Follows.resetEnd {sel : Nat} {pcieBif : Bool} (h : s.Follows s₀) : (s.resetEnd sel pcieBif).Follows s₀ :=
  h.coldReset.setF.setF.setF.mapCheck.retentionCheck.same

theorem State.Follows.clockFault (h : s.Follows s₀) : s.clockFault.Follows s₀ :=
  .ite h (.ite h.same.fatalError.setF.setF.setF.same h.same.fatalError)

theorem State.Follows.idleTick (h : s.Follows s₀) : s.idleTick.Follows s₀ :=
  .ite (h.coreTick.catchUp.flushSets.forEach (fun ht => ht.launchMeasure)) h

/-! ### Register writes and reads -/

theorem State.Follows.incWrite {w : WSrc} {off v : Nat} (h : s.Follows s₀) : (s.incWrite w off v).Follows s₀ :=
  .ite (.raiseClampFrom (.ite h.wr.wr.raiseClampFrom h.wr.wr)) (.ite h.wr.wr.raiseClampFrom h.wr.wr)

theorem State.Follows.pmNext {e : Nat} (h : s.Follows s₀) : (s.pmNext e).Follows s₀ := h.setF

theorem State.Follows.dmNext {e : Nat} (h : s.Follows s₀) : (s.dmNext e).Follows s₀ := .ite h.setF h

theorem State.Follows.lockedOutWrite {w : WSrc} {off : Nat} (h : s.Follows s₀) : (s.lockedOutWrite w off).Follows s₀ :=
  h.bumpF.raiseFrom

theorem State.Follows.pmWrite {w : WSrc} {e off v : Nat} (h : s.Follows s₀) : (s.pmWrite w e off v).Follows s₀ :=
  .ite h.pmPut.pmNext (.pmNext (.ite h.lockedOutWrite h))

theorem State.Follows.mem_some (h : s.Follows s₀) : ∀ u ∈ some s, u.Follows s₀ := by
  rintro _ ⟨⟩
  exact h

theorem State.Follows.mem_ite {c : Prop} [Decidable c] {o o' : Option State} (h : ∀ u ∈ o, u.Follows s₀)
    (h' : ∀ u ∈ o', u.Follows s₀) : ∀ u ∈ (if c then o else o'), u.Follows s₀ := by
  split
  exacts [h, h']

/-- A write that ends aside of its register's fields answers a state that follows. -/
theorem State.Follows.writeAside {w : WSrc} {reg : Reg} {i off v : Nat} (h : s.Follows s₀) :
    ∀ u ∈ s.writeAside w reg i off v, u.Follows s₀ := by
  unfold State.writeAside
  split
  · exact h.pmWrite.mem_some
  · exact h.dmExtern.dmNext.mem_some
  · exact mem_ite h.incWrite.mem_some (mem_ite h.lockedOutWrite.mem_some h.mem_some)
  · exact mem_ite h.incWrite.mem_some (mem_ite h.lockedOutWrite.mem_some h.mem_some)
  · exact mem_ite h.mark.mem_some (fun _ hu => nomatch hu)
  · exact mem_ite h.raiseFrom.mem_some (fun _ hu => nomatch hu)

theorem State.Follows.writeField {w : WSrc} {reg : Reg} {i j off v : Nat} {fd : FieldDef} (h : s.Follows s₀) :
    (State.writeField w reg i j off v s fd).Follows s₀ := by
  unfold State.writeField
  extract_lets +onlyGivenNames _ _
  split
  · exact .ite h.wr (.ite h.wr.raiseClamp h.wr.raiseClampFrom)
  · exact .ite (.ite h.wr (.ite h.wr.raiseClamp h.wr.raiseClampFrom)) h
  · exact h.clearBits
  · exact h

theorem State.Follows.evtRaised {w : WSrc} {code : Nat} (h : s.Follows s₀) : (s.evtRaised w code).Follows s₀ :=
  .ite h.raiseClampFrom (.ite h.raiseFrom (.ite h.capture h.capture.occur))

theorem State.Follows.strayBack {e : Nat} (h : s.Follows s₀) : (s.strayBack e).Follows s₀ := by
  unfold State.strayBack
  split
  · exact .ite (h.modEng.foldl (fun ht => ht.withdrawEvent)).setF.setF h
  · exact h

theorem State.Follows.coefGen {e : Nat} {open_ close : Bool} (h : s.Follows s₀) : (s.coefGen e open_ close).Follows s₀ :=
  .ite (.ite h.setF.setF.rereadGen.modEng h) (.ite h.strayBack.setF.setF.rereadGen h)

theorem State.Follows.diagWritten {l old v : Nat} (h : s.Follows s₀) : (s.diagWritten l old v).Follows s₀ := by
  unfold State.diagWritten
  extract_lets +onlyGivenNames s1 s2 s3 s4 _ s5
  have h1 : s1.Follows s₀ := .ite h.inject h
  have h2 : s2.Follows s₀ := .ite h1.inject h1
  have h3 : s3.Follows s₀ := .ite h2.wr.wr h2
  have h4 : s4.Follows s₀ := .ite h3 h3.setF
  have h5 : s5.Follows s₀ := .ite h4.startPattern h4
  exact .ite h5 (.ite h5.diagNormal (.ite h5 h5.modLane.setLaneState))

theorem State.Follows.seqRunWritten {old : Nat} (h : s.Follows s₀) : (s.seqRunWritten old).Follows s₀ :=
  .ite h (.ite (.ite h.same h.enginesTo.same) (.ite h.same h.enginesTo.same))

theorem State.Follows.inCfgWritten {i old : Nat} (h : s.Follows s₀) : (s.inCfgWritten i old).Follows s₀ := .ite h.latchChannels h

theorem State.Follows.testCfgWritten {old : Nat} (h : s.Follows s₀) : (s.testCfgWritten old).Follows s₀ := .ite h.latchChannels h

theorem State.Follows.latchesCleared (h : s.Follows s₀) : s.latchesCleared.Follows s₀ := .ite h h.same

theorem State.Follows.limitsCleared {c : Nat} (h : s.Follows s₀) : (s.limitsCleared c).Follows s₀ := h.same

theorem State.Follows.chCfgWritten {c old : Nat} (h : s.Follows s₀) : (s.chCfgWritten c old).Follows s₀ :=
  .adcResume (.ite h.limitsCleared.same h.limitsCleared)

theorem State.Follows.tcCfgWritten {tc old : Nat} (h : s.Follows s₀) : (s.tcCfgWritten tc old).Follows s₀ := .ite h h.setTcState

theorem State.Follows.fwdWritten {w : WSrc} {target : Nat} (h : s.Follows s₀) : (s.fwdWritten w target).Follows s₀ :=
  .ite h.capture h.raiseFrom

theorem State.Follows.canCmd {k v : Nat} {busy : Bool} (h : s.Follows s₀) : (s.canCmd k v busy).Follows s₀ := by
  unfold State.canCmd
  extract_lets +onlyGivenNames s1 s2 s3
  have h1 : s1.Follows s₀ := .ite h.canPush h
  have h2 : s2.Follows s₀ := .ite h1.canAbort h1
  have h3 : s3.Follows s₀ := .ite h2.canFlush h2
  exact .ite h3.canRecover h3

theorem State.Follows.canCmdFree {k v : Nat} (h : s.Follows s₀) : (s.canCmdFree k v).Follows s₀ := .ite h.free.canCmd h.canCmd

theorem State.Follows.postWrite {w : WSrc} {reg : Reg} {i j off old v : Nat} (h : s.Follows s₀) :
    (s.postWrite w reg i j off old v).Follows s₀ := by
  unfold State.postWrite
  split
  · exact .ite h.mapCheck h
  · exact .ite h.mapCheck h
  · exact .ite h.mapCheck h
  · exact .ite h.mapCheck h
  · exact .ite h.mapCheck h
  · exact .ite h.mapCheck h
  · exact h.requestWritten
  · exact .ite h.bootGo h
  · exact h.seqRunWritten
  · exact .ite h.eqRxWritten h
  · exact h.diagWritten
  · exact .ite h.modCell h
  · extract_lets +onlyGivenNames s1 _ _ s2
    have h1 : s1.Follows s₀ := .ite h.modCell h
    have h2 : s2.Follows s₀ := .ite h1 h1.modCell
    exact .ite h2 h2.setF
  · exact .ite h.setF h
  · exact h.forceWritten.runWritten
  · exact h.keepStart
  · exact h.keepStart
  · exact h.keepStart
  · exact h.keepStart
  · exact h.keepStart
  · exact h.setF.keepStart
  · exact .ite h.fltClear h
  · exact h.keepStart
  · exact h.coefGen
  · exact .ite h.setF.modEng h
  · exact h.evtRaised
  · exact h.wr
  · exact h.tcCfgWritten
  · exact .ite h.adcCfgWritten h
  · exact h.urgentRequests
  · exact .ite h.chCfgWritten h
  · exact .ite h.limitsCleared h
  · exact h.tbConfigured
  · exact h.siloCtl
  · exact .ite h h.latchesCleared
  · exact .ite h.inCfgWritten h
  · exact .ite h.testCfgWritten h
  · exact h.confirmWritten
  · exact .ite (.ite h.setF h) (.retChanged (.ite h.setF h))
  · exact .ite h.ilkRest h
  · exact .ite (.modPair (.ite h.openJoin h)) (.ite h.openJoin h)
  · exact h.fwdWritten
  · exact .ite h.ownGo h
  · exact h.modHif
  · exact .ite h h.raiseClamp
  · exact .ite h.ringEnabled h
  · exact .ite h.setF h
  · exact .ite h.dmaDisable h
  · exact .ite h.setF.modHif h
  · exact .ite h.modTim h
  · exact .ite (.setGo (.ite h.offsetGo h)) (.ite h.offsetGo h)
  · exact .ite (.modEth (.ite h.anRestart h)) (.ite h.anRestart h)
  · exact .ite h.modTim h
  · exact .ite h.same h
  · exact h.canCfgWritten
  · exact h.canCmdFree
  · exact h

theorem State.Follows.writeReg {w : WSrc} {off v0 : Nat} (h : s.Follows s₀) : (s.writeReg w off v0).Follows s₀ := by
  unfold State.writeReg
  split
  · exact h
  · split
    · exact h
    · split
      · next ht => exact h.writeAside _ ht
      · exact .postWrite (.foldl (.ite h.lockedOutWrite h) fun ht => ht.writeField)

theorem State.Follows.masterWrite32 {m : Master} {addr v : Nat} (h : s.Follows s₀) : (s.masterWrite32 m addr v).Follows s₀ :=
  .ite h (.ite h.bumpF.raiseFrom h.writeReg)

theorem State.Follows.narrowWrite {m : Master} {addr : Nat} (h : s.Follows s₀) : (s.narrowWrite m addr).Follows s₀ :=
  h.bumpF.raiseFrom

theorem State.Follows.masterWrite {m : Master} {addr size v : Nat} (h : s.Follows s₀) : (s.masterWrite m addr size v).Follows s₀ :=
  .ite h (.ite h.masterWrite32.masterWrite32 (.ite h.masterWrite32 h.narrowWrite))

theorem State.Follows.ownerWrite {m : Master} {off v : Nat} (h : s.Follows s₀) : (s.ownerWrite m off v).Follows s₀ := h.masterWrite

theorem State.Follows.readEffects {m : Master} {d : RegDef} {i j off first count : Nat} (h : s.Follows s₀) :
    (s.readEffects m d i j off first count).Follows s₀ := by
  unfold State.readEffects
  extract_lets +onlyGivenNames s1 s2 s3
  have h1 : s1.Follows s₀ := h.forEach fun ht => by split; exacts [ht.same, ht]
  have h2 : s2.Follows s₀ := .ite h1.noSigTake h1
  have h3 : s3.Follows s₀ := h2.foldl fun ht => .ite ht.clearBits ht
  split
  · exact h3.pmNext
  · exact h3.dmNext
  · exact h3.same
  · exact .ite h3.same h3
  · exact .ite h3.modHif h3
  · exact h3

theorem State.Follows.readWord {m : Master} {addr first count : Nat} (h : s.Follows s₀) :
    (s.readWord m addr first count).2.Follows s₀ := by
  unfold State.readWord
  extract_lets +onlyGivenNames _
  split
  · exact h
  · split
    · exact h
    · split
      · exact h
      · exact h.readEffects

theorem State.Follows.masterRead {m : Master} {addr size : Nat} (h : s.Follows s₀) : (s.masterRead m addr size).2.Follows s₀ := by
  unfold State.masterRead
  split
  · exact h
  · split
    · exact h.readWord.readWord
    · split
      · exact h.readWord
      · exact h

theorem State.Follows.answer {r : List Byte × State} (h : r.2.Follows s₀) : (State.answer r).Follows s₀ := h.same

/-! ### Command entries -/

theorem State.Follows.cmdDone {master : Nat} {e : List Byte} {status index : Nat} {at_ : Option Nat} (h : s.Follows s₀) :
    (s.cmdDone master e status index at_).Follows s₀ := by
  unfold State.cmdDone
  split
  · extract_lets +onlyGivenNames s1
    have h1 : s1.Follows s₀ := h.raiseP
    split
    · exact h1
    · exact h1.same
  · exact h

theorem State.Follows.cmdComplete {master : Nat} {e : List Byte} {status index : Nat} {at_ : Option Nat} (h : s.Follows s₀) :
    (s.cmdComplete master e status index at_).Follows s₀ := .ite h.cmdDone.setF.setF h.cmdDone

theorem State.Follows.cmdWrites {w : WSrc} {e : List Byte} {k n : Nat} (h : s.Follows s₀) : (s.cmdWrites w e k n).Follows s₀ := by
  induction n generalizing s k with
  | zero => exact h
  | succ n ih => exact ih h.writeReg

theorem State.Follows.cmdApply {w : WSrc} {e : List Byte} (h : s.Follows s₀) : (s.cmdApply w e).Follows s₀ :=
  .ite h.cmdWrites.occur (.ite h.dmWords.occur (.ite h.grnWait.grnWrite.occur (.ite h.occur h)))

theorem State.Follows.cmdRun {master : Nat} {e : List Byte} {index : Nat} (h : s.Follows s₀) :
    (s.cmdRun master e index).Follows s₀ := h.cmdApply.cmdComplete

theorem State.Follows.cmdCapture {source master : Nat} {e : List Byte} {index : Nat} (h : s.Follows s₀) :
    (s.cmdCapture source master e index).Follows s₀ := by
  unfold State.cmdCapture
  extract_lets +onlyGivenNames s1 _ _
  have h1 : s1.Follows s₀ := h.modHif
  split
  · exact h1.raiseFrom.cmdComplete
  · exact .ite h1.cmdComplete (.ite (.ite h1.capture h1.cmdRun) (.ite h1.modHif h1.cmdComplete))

theorem State.Follows.mboxRun (h : s.Follows s₀) : s.mboxRun.Follows s₀ := by
  unfold State.mboxRun
  split
  · exact h
  · exact .ite h h.modHif.cmdCapture

theorem State.Follows.itemApply {it : MirItem} (h : s.Follows s₀) : (s.itemApply it).Follows s₀ := by
  unfold State.itemApply
  split
  · split
    · exact h.cmdRun
    · exact h.cmdApply
  · split
    · extract_lets +onlyGivenNames _
      split
      · extract_lets +onlyGivenNames s1
        have h1 : s1.Follows s₀ := by unfold s1; split; exacts [.ite h h.refuseMode, h]
        exact h1.modPair
      · exact h
    · exact .ite h.occur h

theorem State.Follows.flushCaptured (h : s.Follows s₀) : s.flushCaptured.Follows s₀ :=
  .ite h (h.modPair.foldl (fun ht => ht.itemApply))

theorem State.Follows.settle (h : s.Follows s₀) : s.settle.Follows s₀ :=
  h.catchUp.overrunTrip.flushCaptured.mboxRun.overrunTrip.musterLapse

theorem State.Follows.applyInput {c : MirInput} (h : s.Follows s₀) : (s.applyInput c).Follows s₀ := by
  unfold State.applyInput
  extract_lets +onlyGivenNames s1 s2 s3
  have h1 : s1.Follows s₀ := .ite h.grnWriteB.occur h
  have h2 : s2.Follows s₀ := .ite h1.grnWriteB h1
  have h3 : s3.Follows s₀ := h2.foldl fun ht => ht.itemApply
  exact .ite h3.occur h3

theorem execMirrorPoint_answers (h : s.Follows s₀) : s₀.Answers (execMirrorPoint s) := by
  unfold execMirrorPoint
  split
  · extract_lets +onlyGivenNames s1 s2 s3
    have h1 : s1.Follows s₀ := h.advanceTo
    have h2 : s2.Follows s₀ := .ite h1.formInput h1
    have h3 : s3.Follows s₀ := h2.modPair
    split
    · exact .next h3
    · exact .next h3.applyInput.settle
  · exact .next h

theorem State.Follows.cmdFetch {p kind : Nat} {bytes : List Byte} (h : s.Follows s₀) : (s.cmdFetch p kind bytes).Follows s₀ :=
  .ite h h.setRing.setF.statusDue.msix.cmdCapture.settle

theorem execCmdNop_answers {p : Fin 2} {entry : List Byte} (h : s.Follows s₀) : s₀.Answers (execCmdNop p entry s) :=
  .next h.cmdFetch

theorem execCmdWrite_answers {p : Fin 2} {entry : List Byte} (h : s.Follows s₀) : s₀.Answers (execCmdWrite p entry s) :=
  .next h.cmdFetch

theorem execCmdWriteDm_answers {p : Fin 2} {entry : List Byte} (h : s.Follows s₀) : s₀.Answers (execCmdWriteDm p entry s) :=
  .next h.cmdFetch

theorem execCmdWriteGrn_answers {p : Fin 2} {entry : List Byte} (h : s.Follows s₀) : s₀.Answers (execCmdWriteGrn p entry s) :=
  .next h.cmdFetch

theorem execCmdEvent_answers {p : Fin 2} {entry : List Byte} (h : s.Follows s₀) : s₀.Answers (execCmdEvent p entry s) :=
  .next h.cmdFetch

theorem execCmdFence_answers {p : Fin 2} {entry : List Byte} (h : s.Follows s₀) : s₀.Answers (execCmdFence p entry s) :=
  .next h.cmdFetch

theorem execFenceComplete_answers (h : s.Follows s₀) : s₀.Answers (execFenceComplete s) := by
  unfold execFenceComplete
  split
  · exact .next h
  · exact .next h.modHif.cmdComplete

theorem execHandoverComplete_answers (h : s.Follows s₀) : s₀.Answers (execHandoverComplete s) := by
  unfold execHandoverComplete
  split
  · exact .next h
  · extract_lets +onlyGivenNames _ _
    split
    · exact .next h
    · extract_lets +onlyGivenNames s1
      have h1 : s1.Follows s₀ := h.modHif
      exact .ite (.next h1.ownChange.resolveClaims.settle) (.ite (.next h1.setF.ownChange.settle) (.next h1.settle))

/-! ### Rows of the analog front end -/

theorem execAdcConversionEnd_answers {k : Fin 5} (h : s.Follows s₀) : s₀.Answers (execAdcConversionEnd k s) := by
  unfold execAdcConversionEnd
  split
  · split
    · exact .next h
    · split
      · exact .next h
      · exact .next h.advanceTo.modSlice.startNext
  · exact .next h

theorem State.Follows.limitsSee {c : Nat} {code : Int} (h : s.Follows s₀) : (s.limitsSee c code).2.Follows s₀ :=
  h.limitSees.limitSees

theorem State.Follows.limitsAct {acts : List Nat} (h : s.Follows s₀) : (s.limitsAct acts).Follows s₀ := by
  unfold State.limitsAct
  extract_lets +onlyGivenNames s1
  have h1 : s1.Follows s₀ := .ite h h.recTrigger
  split
  · exact h1
  · exact .ite h1.trip h1

theorem State.Follows.settleStep {unit : Nat} {ovr : Bool} (h : s.Follows s₀) : (s.settleStep unit ovr).2.Follows s₀ := h.same

theorem State.Follows.storeResult {c : Conv} {word : Nat} (h : s.Follows s₀) : (s.storeResult c word).Follows s₀ := by
  unfold State.storeResult
  extract_lets +onlyGivenNames _ _ s1 _ _ s2
  have h1 : s1.Follows s₀ := h.wr.wr
  have h2 : s2.Follows s₀ := h1.same
  split
  · exact h2.wr.wr.bumpF
  · exact h2.same

theorem State.Follows.readAgain {ch : Nat} (h : s.Follows s₀) : (s.readAgain ch).Follows s₀ := by
  unfold State.readAgain
  split
  · exact h
  · exact .ite h.readWord.same h

theorem execAdcResult_answers {k : Fin 5} {code : Int} {ovr : Bool} (h : s.Follows s₀) :
    s₀.Answers (execAdcResult k code ovr s) := by
  unfold execAdcResult
  split
  · split
    · exact .next h
    · split
      · exact .next h
      · extract_lets +onlyGivenNames s1 _ s2 s3 s4 s5 s6
        have h1 : s1.Follows s₀ := h.modSlice.advanceTo
        have h2 : s2.2.Follows s₀ := h1.settleStep
        have h3 : s3.Follows s₀ := h2.storeResult.readAgain
        have h4 : s4.Follows s₀ := .ite h3.overRange h3
        have h5 : s5.Follows s₀ := h4.forEach fun ht => ht.zeroSees
        have h6 : s6.2.Follows s₀ := h5.limitsSee
        exact .next h6.limitsAct.settle
  · exact .next h

theorem execAdcRoundTrigger_answers (h : s.Follows s₀) : s₀.Answers (execAdcRoundTrigger s) :=
  .ite (.next h.advanceCyc.roundsStart) (.next h)

theorem State.Follows.transferIdle {k : Nat} (h : s.Follows s₀) : (s.transferIdle k).Follows s₀ := .ite h.transfer h

theorem execAdcCalStart_answers (h : s.Follows s₀) : s₀.Answers (execAdcCalStart s) :=
  .ite (.ite (.next h.advanceCyc.same.calBegin.setF) (.next h.advanceCyc.same.same.transferIdle)) (.next h)

theorem State.Follows.calEnd {ok u : Nat} (h : s.Follows s₀) : (State.calEnd ok s u).Follows s₀ := .ite h.setF h.setF.mark.raise

theorem State.Follows.calWait (h : s.Follows s₀) : s.calWait.Follows s₀ := h.advanceCyc

theorem execAdcCalDone_answers {ok : BitVec 5} (h : s.Follows s₀) : s₀.Answers (execAdcCalDone ok s) := by
  unfold execAdcCalDone
  split
  · exact .next (h.calWait.forEach (fun ht => ht.calEnd)).adcBegin
  · split
    · split
      · exact .next h
      · exact .next (.ite h.calWait.same.calEnd.setF h.calWait.same.calEnd.transferIdle)
    · exact .next h

theorem execAdcSnapshot_answers (h : s.Follows s₀) : s₀.Answers (execAdcSnapshot s) :=
  .ite (.next h.advanceTo.takeSnapshot) (.next h)

theorem execSnapshotRecordDone_answers (h : s.Follows s₀) : s₀.Answers (execSnapshotRecordDone s) :=
  .ite (.ite (.next h.advanceTo.same.grnWriteA.occur.settle) (.next h.advanceTo.same)) (.next h)

/-! ### Instructions of the field engines -/

theorem State.Follows.engFault {e code : Nat} (h : s.Follows s₀) : (s.engFault e code).Follows s₀ := by
  unfold State.engFault
  extract_lets _ _ tc _ s1 s2
  have h1 : s1.Follows s₀ := h.catchUp.setF.setF.raiseFrom.freeEngine
  have h2 : s2.Follows s₀ := by
    unfold s2
    generalize tc = x
    cases x
    · exact h1
    · exact h1.dropInstance
  exact .ite h1.dropInstance.setF h2.fatalError

/-- What the meaning of a row may be: where the word fetched is the row's, an operation of the block. -/
def State.RowKeeps (s₀ : State) : Option (State → State) → Prop
  | none => True
  | some g => ∀ {t}, t.Follows s₀ → (g t).Follows s₀

/-- A word fetched is run by the meaning `k` of its row, or by none. -/
theorem State.Follows.issued {e : Nat} {i : Option EngInstr} {k : EngInstr → Option (State → State)} (h : s.Follows s₀)
    (ht : t.Follows s₀) (hk : ∀ i, s₀.RowKeeps (k i)) :
    (match i with
      | none => t.engFault e 1
      | some i => match k i with
        | none => s
        | some g => g t).Follows s₀ := by
  cases i with
  | none => exact ht.engFault
  | some i =>
    have hi := hk i
    dsimp only
    cases hki : k i with
    | none => exact h
    | some g => rw [hki] at hi; exact hi ht

theorem State.Follows.issue {e : Nat} {fetch : Ecc} {k : EngInstr → Option (State → State)} (h : s.Follows s₀)
    (hk : ∀ i, s₀.RowKeeps (k i)) : (s.issue e fetch k).Follows s₀ := by
  unfold State.issue
  split
  · exact h
  · dsimp only; split
    · exact h.engFault
    · exact h.issued h.bumpF hk
    · exact h.issued h hk

theorem State.Follows.retire {e : Nat} {u : Alu} (h : s.Follows s₀) : (s.retire e u).Follows s₀ :=
  .modEng (.ite (.bumpF (.ite h.bumpF h)) (.ite h.bumpF h))

theorem State.Follows.arith {e : Nat} {g : EngCtx → Alu} (h : s.Follows s₀) : (s.arith e g).Follows s₀ := h.retire

theorem State.Follows.plain {e : Nat} {g : EngCtx → EngCtx} (h : s.Follows s₀) : (s.plain e g).Follows s₀ := h.arith

theorem State.Follows.jump {e : Nat} {g : EngCtx → EngCtx} (h : s.Follows s₀) : (s.jump e g).Follows s₀ := h.modEng

theorem State.Follows.dmChecked {e : Nat} {eccs : List Ecc} {k : State → State} (h : s.Follows s₀)
    (hk : ∀ {t}, t.Follows s₀ → (k t).Follows s₀) :
    (s.dmChecked e eccs k).Follows s₀ := .ite h.engFault (hk h.dmCorrected)

theorem State.Follows.dmUse {e a n align : Nat} {eccs : List Ecc} {k : State → State} (h : s.Follows s₀)
    (hk : ∀ {t}, t.Follows s₀ → (k t).Follows s₀) :
    (s.dmUse e a n align eccs k).Follows s₀ := .ite h.engFault (.ite h.engFault (h.dmChecked (fun ht => hk ht)))

theorem State.Follows.memUse {e : Nat} {m : MemArg} {k : Nat → EngCtx → State} (h : s.Follows s₀)
    (hk : ∀ {a c}, (k a c).Follows s₀) : (s.memUse e m k).Follows s₀ := by
  unfold State.memUse
  dsimp only; split
  · exact h.engFault
  · exact hk

theorem execNop_answers {e : Fin 12} {fetch : Ecc} (h : s.Follows s₀) : s₀.Answers (execNop e fetch s) :=
  .next (h.issue fun _ => by split; exacts [fun ht => ht.plain, trivial])

theorem execMul_answers {e : Fin 12} {fetch : Ecc} (h : s.Follows s₀) : s₀.Answers (execMul e fetch s) :=
  .next (h.issue fun _ => by split; exacts [fun ht => ht.arith, trivial])

theorem execMac_answers {e : Fin 12} {fetch : Ecc} (h : s.Follows s₀) : s₀.Answers (execMac e fetch s) :=
  .next (h.issue fun _ => by split; exacts [fun ht => ht.arith, trivial])

theorem execMsu_answers {e : Fin 12} {fetch : Ecc} (h : s.Follows s₀) : s₀.Answers (execMsu e fetch s) :=
  .next (h.issue fun _ => by split; exacts [fun ht => ht.arith, trivial])

theorem execMac2_answers {e : Fin 12} {fetch : Ecc} (h : s.Follows s₀) : s₀.Answers (execMac2 e fetch s) :=
  .next (h.issue fun _ => by split; exacts [fun ht => ht.arith, trivial])

theorem State.Follows.macd {e : Nat} {ap : Bool} {xp xq : Fin 8} {sat : Bool} {data : List Ecc} (h : s.Follows s₀) :
    (s.macd e ap xp xq sat data).Follows s₀ := .ite h.engFault (.ite h.engFault (h.dmUse (fun ht => ht.retire)))

theorem execMacd_answers {e : Fin 12} {fetch : Ecc} {data : List Ecc} (h : s.Follows s₀) :
    s₀.Answers (execMacd e fetch data s) :=
  .next (h.issue fun _ => by split; exacts [fun ht => ht.macd, trivial])

theorem execAdda_answers {e : Fin 12} {fetch : Ecc} (h : s.Follows s₀) : s₀.Answers (execAdda e fetch s) :=
  .next (h.issue fun _ => by split; exacts [fun ht => ht.arith, trivial])

theorem execSuba_answers {e : Fin 12} {fetch : Ecc} (h : s.Follows s₀) : s₀.Answers (execSuba e fetch s) :=
  .next (h.issue fun _ => by split; exacts [fun ht => ht.arith, trivial])

theorem execSha_answers {e : Fin 12} {fetch : Ecc} (h : s.Follows s₀) : s₀.Answers (execSha e fetch s) :=
  .next (h.issue fun _ => by split; exacts [fun ht => ht.arith, trivial])

theorem execAbsa_answers {e : Fin 12} {fetch : Ecc} (h : s.Follows s₀) : s₀.Answers (execAbsa e fetch s) :=
  .next (h.issue fun _ => by split; exacts [fun ht => ht.arith, trivial])

theorem execNega_answers {e : Fin 12} {fetch : Ecc} (h : s.Follows s₀) : s₀.Answers (execNega e fetch s) :=
  .next (h.issue fun _ => by split; exacts [fun ht => ht.arith, trivial])

theorem execLda_answers {e : Fin 12} {fetch : Ecc} (h : s.Follows s₀) : s₀.Answers (execLda e fetch s) :=
  .next (h.issue fun _ => by split; exacts [fun ht => ht.arith, trivial])

theorem execRnd_answers {e : Fin 12} {fetch : Ecc} (h : s.Follows s₀) : s₀.Answers (execRnd e fetch s) :=
  .next (h.issue fun _ => by split; exacts [fun ht => ht.arith, trivial])

theorem execExt_answers {e : Fin 12} {fetch : Ecc} (h : s.Follows s₀) : s₀.Answers (execExt e fetch s) :=
  .next (h.issue fun _ => by split; exacts [fun ht => ht.arith, trivial])

theorem execClampa_answers {e : Fin 12} {fetch : Ecc} (h : s.Follows s₀) : s₀.Answers (execClampa e fetch s) :=
  .next (h.issue fun _ => by split; exacts [fun ht => ht.arith, fun ht => ht.plain, trivial])

theorem execAdd_answers {e : Fin 12} {fetch : Ecc} (h : s.Follows s₀) : s₀.Answers (execAdd e fetch s) :=
  .next (h.issue fun _ => by split; exacts [fun ht => ht.arith, trivial])

theorem execSub_answers {e : Fin 12} {fetch : Ecc} (h : s.Follows s₀) : s₀.Answers (execSub e fetch s) :=
  .next (h.issue fun _ => by split; exacts [fun ht => ht.arith, trivial])

theorem execAnd_answers {e : Fin 12} {fetch : Ecc} (h : s.Follows s₀) : s₀.Answers (execAnd e fetch s) :=
  .next (h.issue fun _ => by split; exacts [fun ht => ht.plain, trivial])

theorem execOr_answers {e : Fin 12} {fetch : Ecc} (h : s.Follows s₀) : s₀.Answers (execOr e fetch s) :=
  .next (h.issue fun _ => by split; exacts [fun ht => ht.plain, trivial])

theorem execXor_answers {e : Fin 12} {fetch : Ecc} (h : s.Follows s₀) : s₀.Answers (execXor e fetch s) :=
  .next (h.issue fun _ => by split; exacts [fun ht => ht.plain, trivial])

theorem execAndn_answers {e : Fin 12} {fetch : Ecc} (h : s.Follows s₀) : s₀.Answers (execAndn e fetch s) :=
  .next (h.issue fun _ => by split; exacts [fun ht => ht.plain, trivial])

theorem execShl_answers {e : Fin 12} {fetch : Ecc} (h : s.Follows s₀) : s₀.Answers (execShl e fetch s) :=
  .next (h.issue fun _ => by split; exacts [fun ht => ht.plain, trivial])

theorem execShr_answers {e : Fin 12} {fetch : Ecc} (h : s.Follows s₀) : s₀.Answers (execShr e fetch s) :=
  .next (h.issue fun _ => by split; exacts [fun ht => ht.plain, trivial])

theorem execSar_answers {e : Fin 12} {fetch : Ecc} (h : s.Follows s₀) : s₀.Answers (execSar e fetch s) :=
  .next (h.issue fun _ => by split; exacts [fun ht => ht.plain, trivial])

theorem execCmp_answers {e : Fin 12} {fetch : Ecc} (h : s.Follows s₀) : s₀.Answers (execCmp e fetch s) :=
  .next (h.issue fun _ => by split; exacts [fun ht => ht.plain, trivial])

theorem execMov_answers {e : Fin 12} {fetch : Ecc} (h : s.Follows s₀) : s₀.Answers (execMov e fetch s) :=
  .next (h.issue fun _ => by split; exacts [fun ht => ht.plain, trivial])

theorem execMovi_answers {e : Fin 12} {fetch : Ecc} (h : s.Follows s₀) : s₀.Answers (execMovi e fetch s) :=
  .next (h.issue fun _ => by split; exacts [fun ht => ht.plain, trivial])

theorem execSincos_answers {e : Fin 12} {fetch : Ecc} (h : s.Follows s₀) : s₀.Answers (execSincos e fetch s) :=
  .next (h.issue fun _ => by split; exacts [fun ht => ht.plain, trivial])

theorem State.Follows.tbl {e : Nat} {dd ds : Fin 16} {t : Nat} {data : List Ecc} (h : s.Follows s₀) :
    (s.tbl e dd ds t data).Follows s₀ := .ite h.engFault (h.dmUse (fun ht => ht.plain))

theorem execTbl_answers {e : Fin 12} {fetch : Ecc} {data : List Ecc} (h : s.Follows s₀) : s₀.Answers (execTbl e fetch data s) :=
  .next (h.issue fun _ => by split; exacts [fun ht => ht.tbl, trivial])

theorem execXli_answers {e : Fin 12} {fetch : Ecc} (h : s.Follows s₀) : s₀.Answers (execXli e fetch s) :=
  .next (h.issue fun _ => by split; exacts [fun ht => ht.plain, trivial])

theorem execXlh_answers {e : Fin 12} {fetch : Ecc} (h : s.Follows s₀) : s₀.Answers (execXlh e fetch s) :=
  .next (h.issue fun _ => by split; exacts [fun ht => ht.plain, trivial])

theorem execXadd_answers {e : Fin 12} {fetch : Ecc} (h : s.Follows s₀) : s₀.Answers (execXadd e fetch s) :=
  .next (h.issue fun _ => by split; exacts [fun ht => ht.plain, trivial])

theorem execXaddd_answers {e : Fin 12} {fetch : Ecc} (h : s.Follows s₀) : s₀.Answers (execXaddd e fetch s) :=
  .next (h.issue fun _ => by split; exacts [fun ht => ht.plain, trivial])

theorem execLd_answers {e : Fin 12} {fetch : Ecc} {data : List Ecc} (h : s.Follows s₀) : s₀.Answers (execLd e fetch data s) :=
  .next (h.issue fun _ => by split; exacts [fun ht => ht.memUse (ht.dmUse (fun ht => ht.retire.noteRead)), trivial])

theorem execSt_answers {e : Fin 12} {fetch : Ecc} (h : s.Follows s₀) : s₀.Answers (execSt e fetch s) :=
  .next (h.issue fun _ => by split; exacts [fun ht => ht.memUse (ht.dmUse (fun ht => ht.dmStore.retire)), trivial])

theorem execLdac_answers {e : Fin 12} {fetch : Ecc} {data : List Ecc} (h : s.Follows s₀) :
    s₀.Answers (execLdac e fetch data s) :=
  .next (h.issue fun _ => by split; exacts [fun ht => ht.memUse (ht.dmUse (fun ht => ht.retire.noteRead)), trivial])

theorem execStac_answers {e : Fin 12} {fetch : Ecc} (h : s.Follows s₀) : s₀.Answers (execStac e fetch s) :=
  .next (h.issue fun _ => by split; exacts [fun ht => ht.memUse (ht.dmUse (fun ht => ht.dmStore.retire)), trivial])

theorem execLdg_answers {e : Fin 12} {fetch : Ecc} (h : s.Follows s₀) : s₀.Answers (execLdg e fetch s) :=
  .next (h.issue fun _ => by split; exacts [fun ht => ht.memUse (.ite ht.engFault ht.modEng), trivial])

theorem execLdgReturn_answers {e : Fin 12} {ecc : Ecc} (h : s.Follows s₀) : s₀.Answers (execLdgReturn e ecc s) := by
  unfold execLdgReturn
  split
  · split
    · exact .next h
    · exact .ite (.next h.grnWait.grnCheck.modEng.engFault) (.next h.grnWait.grnCheck.modEng.retire)
  · exact .next h

theorem State.Follows.post {e a : Nat} {bs : List Byte} {k : State → State} (h : s.Follows s₀)
    (hk : ∀ {t}, t.Follows s₀ → (k t).Follows s₀) :
    (s.post e a bs k).Follows s₀ := .ite h (hk h.modEng)

theorem execStg_answers {e : Fin 12} {fetch : Ecc} (h : s.Follows s₀) : s₀.Answers (execStg e fetch s) :=
  .next (h.issue fun _ => by split; exacts [fun ht => ht.memUse (.ite ht.engFault (ht.post (fun ht => ht.retire))), trivial])

theorem execWriteBufferDrain_answers {e : Fin 12} (h : s.Follows s₀) : s₀.Answers (execWriteBufferDrain e s) := by
  unfold execWriteBufferDrain
  split
  · exact .next (.ite h.traceDrain h)
  · exact .next (.ite h.modEng.grnWait.grnWriteA h)

theorem execBr_answers {e : Fin 12} {fetch : Ecc} (h : s.Follows s₀) : s₀.Answers (execBr e fetch s) :=
  .next (h.issue fun _ => by split; exacts [fun ht => ht.jump, trivial])

theorem execJmp_answers {e : Fin 12} {fetch : Ecc} (h : s.Follows s₀) : s₀.Answers (execJmp e fetch s) :=
  .next (h.issue fun _ => by split; exacts [fun ht => ht.jump, trivial])

theorem execCall_answers {e : Fin 12} {fetch : Ecc} (h : s.Follows s₀) : s₀.Answers (execCall e fetch s) :=
  .next (h.issue fun _ => by split; exacts [fun ht => .ite ht.engFault ht.jump, trivial])

theorem execRet_answers {e : Fin 12} {fetch : Ecc} (h : s.Follows s₀) : s₀.Answers (execRet e fetch s) := by
  refine .next (h.issue fun i => ?_)
  split
  · intro t ht
    dsimp only; split
    · exact ht.engFault
    · exact ht.jump
  · trivial

theorem execLoop_answers {e : Fin 12} {fetch : Ecc} (h : s.Follows s₀) : s₀.Answers (execLoop e fetch s) :=
  .next (h.issue fun _ => by split; exacts [fun ht => .ite ht.engFault ht.jump, trivial])

theorem State.Follows.yieldTask {e : Nat} (h : s.Follows s₀) : (s.yieldTask e).Follows s₀ := by
  unfold State.yieldTask
  extract_lets +onlyGivenNames s1
  have h1 : s1.Follows s₀ := h.catchUp
  split
  · exact h1
  · exact .ite h1.freeEngine.dropInstance.trace.setF.raise h1.freeEngine.dropInstance.trace.plans

theorem execYield_answers {e : Fin 12} {fetch : Ecc} (h : s.Follows s₀) : s₀.Answers (execYield e fetch s) :=
  .next (h.issue fun _ => by split; exacts [fun ht => .ite ht.yieldTask ht, trivial])

theorem State.Follows.waitTask {e evt : Nat} (h : s.Follows s₀) : (s.waitTask e evt).Follows s₀ := by
  unfold State.waitTask
  extract_lets +onlyGivenNames s1
  have h1 : s1.Follows s₀ := h.catchUp
  split
  · exact h1
  · exact h1.freeEngine.setTcState.modTask.trace.plans

theorem execWait_answers {e : Fin 12} {fetch : Ecc} (h : s.Follows s₀) : s₀.Answers (execWait e fetch s) :=
  .next (h.issue fun _ => by split; exacts [fun ht => ht.waitTask, trivial])

theorem execSig_answers {e : Fin 12} {fetch : Ecc} (h : s.Follows s₀) : s₀.Answers (execSig e fetch s) :=
  .next (h.issue fun _ => by split; exacts [fun ht => ht.modEng, trivial])

theorem execSigEvent_answers {e : Fin 12} (h : s.Follows s₀) : s₀.Answers (execSigEvent e s) := by
  unfold execSigEvent
  split
  · split
    · exact .next h.modEng.occur.settle
    · split
      · exact .next h
      · exact .ite (.next h.modEng.occur.settle) (.next h)
  · exact .next h

theorem State.Follows.send {e unit : Nat} {xp : Fin 8} {data : List Ecc} (h : s.Follows s₀) : (s.send e unit xp data).Follows s₀ :=
  .ite h (h.dmUse (fun ht => ht.modEng.plain))

theorem execSendWinnow_answers {e : Fin 12} {fetch : Ecc} {data : List Ecc} (h : s.Follows s₀) :
    s₀.Answers (execSendWinnow e fetch data s) :=
  .next (h.issue fun _ => by split; exacts [by split; exacts [fun ht => ht.send, trivial], trivial])

theorem execSendEdgePlanner_answers {e : Fin 12} {fetch : Ecc} {data : List Ecc} (h : s.Follows s₀) :
    s₀.Answers (execSendEdgePlanner e fetch data s) :=
  .next (h.issue fun _ => by split; exacts [by split; exacts [fun ht => ht.send, trivial], trivial])

theorem execDmak_answers {e : Fin 12} {fetch : Ecc} (h : s.Follows s₀) : s₀.Answers (execDmak e fetch s) :=
  .next (h.issue fun _ => by split; exacts [fun ht => ht.dmak.plain, trivial])

theorem execMvs_answers {e : Fin 12} {fetch : Ecc} (h : s.Follows s₀) : s₀.Answers (execMvs e fetch s) :=
  .next (h.issue fun _ => by split; exacts [fun ht => .ite ht.plain.noteRead ht.plain, trivial])

theorem execMsv_answers {e : Fin 12} {fetch : Ecc} (h : s.Follows s₀) : s₀.Answers (execMsv e fetch s) :=
  .next (h.issue fun _ => by split; exacts [fun ht => ht.plain, trivial])

theorem execInj_answers {e : Fin 12} {fetch : Ecc} (h : s.Follows s₀) : s₀.Answers (execInj e fetch s) :=
  .next (h.issue fun _ => by split; exacts [fun ht => .ite ht.arith ht.plain, trivial])

theorem State.Follows.capture8 {e ch v : Nat} (h : s.Follows s₀) : (s.capture8 e ch v).Follows s₀ :=
  .ite h.plain (h.post (fun ht => .plain (.ite ht.setF (.ite ht.setF ht.setF.mark.modEng))))

theorem execCap_answers {e : Fin 12} {fetch : Ecc} (h : s.Follows s₀) : s₀.Answers (execCap e fetch s) :=
  .next (h.issue fun _ => by split; exacts [fun ht => ht.capture8, trivial])

theorem execTrap_answers {e : Fin 12} {fetch : Ecc} (h : s.Follows s₀) : s₀.Answers (execTrap e fetch s) :=
  .next (h.issue fun _ => by split; exacts [fun ht => ht.raiseFrom.plain, trivial])

theorem execTrapFault_answers {e : Fin 12} {fetch : Ecc} (h : s.Follows s₀) : s₀.Answers (execTrapFault e fetch s) :=
  .next (h.issue fun _ => by split; exacts [fun ht => ht.engFault, trivial])

/-! ### Rows of the first part of a period -/

theorem execGatherLaunch_answers (h : s.Follows s₀) : s₀.Answers (execGatherLaunch s) := by
  unfold execGatherLaunch
  split
  · exact .next (h.advanceTo.flushSets.forEach (fun ht => .ite ht.putFrames.modLane.modLane ht.putFrames.modLane)).same
  · exact .next h

theorem State.Follows.timeSet {l : Nat} (h : s.Follows s₀) : (s.timeSet l).Follows s₀ := .ite h.free h.free.modLane

theorem execTimeSetLaunch_answers (h : s.Follows s₀) : s₀.Answers (execTimeSetLaunch s) :=
  .ite (.next (h.advanceTo.flushSets.forEach (fun ht => ht.timeSet)).same) (.next h)

theorem State.Follows.headerBegin {n : Nat} (h : s.Follows s₀) : (s.headerBegin n).Follows s₀ := h.grnWrite

theorem State.Follows.storeGather {l : Nat} {slots : List Nat} {bale : List Byte} (h : s.Follows s₀) :
    (s.storeGather l slots bale).Follows s₀ := h.grnWrite.grnWrite

theorem State.Follows.storeSlots {l : Nat} {slots : List (Nat × Nat)} (h : s.Follows s₀) : (s.storeSlots l slots).Follows s₀ :=
  h.foldl fun ht => ht.grnWrite

theorem State.Follows.headerBit {off l : Nat} (h : s.Follows s₀) : (s.headerBit off l).Follows s₀ := h.grnWrite

theorem State.Follows.takeRecord {l c : Nat} {b : List Byte} (h : s.Follows s₀) : (s.takeRecord l c b).Follows s₀ :=
  .ite (.ite h.modCell.initTally h.modCell) h

theorem State.Follows.turnSamples (h : s.Follows s₀) : s.turnSamples.Follows s₀ := .ite h (h.forEach (fun ht => ht.modCell)).same

theorem State.Follows.onceCell {c : Nat} {now seen : Bool} {code : EvCode} {mark : Bool → Cell → Cell} (h : s.Follows s₀) :
    (s.onceCell c now seen code mark).Follows s₀ := .modCell (.ite h.raise h)

theorem State.Follows.takeSlot {l c w : Nat} (h : s.Follows s₀) : (s.takeSlot l c w).Follows s₀ := by
  unfold State.takeSlot
  extract_lets +onlyGivenNames _ s1 s2 s3 s4
  have h1 : s1.Follows s₀ := .ite h.mark h
  have h2 : s2.Follows s₀ := h1.onceCell
  have h3 : s3.Follows s₀ := h2.onceCell
  have h4 : s4.Follows s₀ := .ite h3.modCell h3
  exact .ite h4 h4.modCell

theorem State.Follows.takeSlots {l : Nat} {xs : List (Nat × Nat)} (h : s.Follows s₀) : (s.takeSlots l xs).Follows s₀ :=
  h.foldl fun ht => ht.takeSlot

theorem State.Follows.ocTally {c : Nat} (h : s.Follows s₀) : (s.ocTally c).Follows s₀ := .ite (.ite h.setF.setF.setF.raise h.setF) h

theorem State.Follows.espArmsTake (h : s.Follows s₀) : s.espArmsTake.Follows s₀ := h.same

theorem State.Follows.gatherDone (h : s.Follows s₀) : s.gatherDone.Follows s₀ := by
  unfold State.gatherDone
  extract_lets +onlyGivenNames s1 _ s2 s3 s4 s5 s6
  have h1 : s1.Follows s₀ := h.turnSamples
  have h2 : s2.Follows s₀ := h1.same
  have h3 : s3.Follows s₀ := h2.joinAdopt.fixCodes.espArmsTake
  have h4 : s4.Follows s₀ := h3.forEach fun ht => ht.ocTally
  have h5 : s5.Follows s₀ := h4.forEach fun ht => .ite ht.finishDiscovery ht.discoveryPeriod
  have h6 : s6.Follows s₀ := h5.clearSelections.winnowStart.telStart
  exact h6.occur

theorem State.Follows.gatherCheck (h : s.Follows s₀) : s.gatherCheck.Follows s₀ := .ite h.gatherDone h

theorem State.Follows.gatherMissed {l : Nat} (h : s.Follows s₀) : (s.gatherMissed l).Follows s₀ := .ite h h.gatherLate

theorem State.Follows.countInvalid {l : Nat} (h : s.Follows s₀) : (s.countInvalid l).Follows s₀ := h.bumpF

theorem State.Follows.gatherTally {l : Nat} (h : s.Follows s₀) : (s.gatherTally l).Follows s₀ :=
  .ite h.countInvalid h.countInvalid.mark

theorem State.Follows.gatherComplete {l : Nat} (h : s.Follows s₀) : (s.gatherComplete l).Follows s₀ :=
  h.modLane.headerBit.gatherTally

theorem State.Follows.copyFailed {l rx : Nat} (h : s.Follows s₀) : (s.copyFailed l rx).Follows s₀ :=
  .ite h.modLane (.ite h.modLane.gatherComplete.gatherCheck h.modLane.gatherMissed)

theorem State.Follows.gatherGood {l rx : Nat} {f : RxFrame} (h : s.Follows s₀) : (s.gatherGood l rx f).Follows s₀ := by
  unfold State.gatherGood
  extract_lets +onlyGivenNames _ _ _ _ _ s1 s2 s3 s4 s5 s6 s7
  have h1 : s1.Follows s₀ := .ite h.storeGather h.storeSlots
  have h2 : s2.Follows s₀ := h1.turnSamples.modLane
  have h3 : s3.Follows s₀ := .ite (.takeRecord (.headerBit (.ite h2 h2.grnWrite))) h2
  have h4 : s4.Follows s₀ := h3.takeSlots
  have h5 : s5.Follows s₀ := h4.grnWrite
  have h6 : s6.Follows s₀ := .ite h5.gatherComplete h5
  have h7 : s7.Follows s₀ := .ite h6.blockWith h6
  exact h7.gatherCheck

theorem State.Follows.storeDiscarded {l : Nat} {f : RxFrame} (h : s.Follows s₀) : (s.storeDiscarded l f).Follows s₀ :=
  .ite h h.storeGather

theorem execGatherFrame_answers {l : Fin 48} {f : RxFrame} {t : Nat} (h : s.Follows s₀) : s₀.Answers (execGatherFrame l f t s) := by
  unfold execGatherFrame
  extract_lets +onlyGivenNames _
  split
  · extract_lets +onlyGivenNames s1 s2 _
    have h1 : s1.Follows s₀ := h.advanceTo
    have h2 : s2.Follows s₀ := h1.bumpF
    split
    · exact .next (.settle (.ite h2.bumpF.modLane h2.bumpF.modLane.storeDiscarded.copyFailed))
    · exact .ite (.next h2) (.ite (.next h2.storeDiscarded.gatherMissed) (.next h2.gatherGood.settle))
  · exact .next h

theorem execGatherDeadline_answers {started : BitVec 48} (h : s.Follows s₀) : s₀.Answers (execGatherDeadline started s) := by
  unfold execGatherDeadline
  split
  · extract_lets +onlyGivenNames s1 _ s2 _ s3 s4 s5 s6
    have h1 : s1.Follows s₀ := h.advanceTo
    have h2 : s2.Follows s₀ := h1.same
    have h3 : s3.Follows s₀ := h2.forEach fun ht => ht.gatherTally
    have h4 : s4.Follows s₀ := h3.forEach fun ht => ht.gatherMissed
    have h5 : s5.Follows s₀ := h4.forEach fun ht => .ite ht.modLane.takeDown ht.modLane
    have h6 : s6.Follows s₀ := h5.telLate
    exact .next (.ite h6 h6.gatherDone)
  · exact .next h

theorem State.Follows.mirrorBroken (h : s.Follows s₀) : s.mirrorBroken.Follows s₀ := .ite h.mirLate h

theorem State.Follows.storeCut {l : Nat} {slots : List W64} (h : s.Follows s₀) : (s.storeCut l slots).Follows s₀ :=
  .ite h h.grnWrite

theorem State.Follows.dropLock {l : Nat} {signal : Bool} {cut : Option (List W64)} (h : s.Follows s₀) :
    (s.dropLock l signal cut).Follows s₀ := by
  unfold State.dropLock
  extract_lets +onlyGivenNames s1 _
  have h1 : s1.Follows s₀ := h.noSigTake.setF.setF
  split
  · exact h1.lockLost
  · split
    · exact h1.mirrorBroken.lockLost
    · extract_lets +onlyGivenNames s2 s3 s4
      have h2 : s2.Follows s₀ := h1.bumpF.modLane
      have h3 : s3.Follows s₀ := .ite h2.storeCut h2
      have h4 : s4.Follows s₀ := h3.lockLost
      exact .ite h4.copyFailed h4

theorem execBlockLockLost_answers {l : Fin 50} {badSync : Nat} {signal : Bool} {inFrame : Option (List W64)} (h : s.Follows s₀) :
    s₀.Answers (execBlockLockLost l badSync signal inFrame s) := by
  unfold execBlockLockLost
  extract_lets +onlyGivenNames s1
  have h1 : s1.Follows s₀ := h.bumpF
  exact .ite (.next (.ite h1.signalIs h1)) (.ite (.next h1.dropLock.gatherCheck.settle) (.next h1))

theorem execChainRelockTimeout_answers {l : Fin 48} (h : s.Follows s₀) : s₀.Answers (execChainRelockTimeout l s) :=
  .ite (.next h.advanceCyc.takeDown.gatherCheck.settle) (.next h)

theorem execMarkerReceived_answers {l : Fin 48} {x : RxSet} (h : s.Follows s₀) : s₀.Answers (execMarkerReceived l x s) := by
  unfold execMarkerReceived
  extract_lets +onlyGivenNames _
  split
  · exact .next h
  · extract_lets +onlyGivenNames s1 s2
    have h1 : s1.Follows s₀ := h.mark.raise
    have h2 : s2.Follows s₀ := .ite h1.modLane h1
    exact .ite (.next h2.takeDown.gatherCheck.settle) (.next h2)

theorem State.Follows.chargePeriod (h : s.Follows s₀) : s.chargePeriod.Follows s₀ := .ite h.same h.same

theorem State.Follows.countArm {a : Nat} (h : s.Follows s₀) : (s.countArm a).Follows s₀ :=
  .ite h.writeCounts.raiseOnce h.writeCounts

theorem execAvailabilityCheck_answers (h : s.Follows s₀) : s₀.Answers (execAvailabilityCheck s) := by
  unfold execAvailabilityCheck
  split
  · dsimp only; split
    · exact .ite (.next ((h.same.forEach fun ht => ht.countArm).setF.chargePeriod.trip.forEach fun ht => ht.raise))
        (.next (h.same.forEach fun ht => ht.countArm).setF.chargePeriod)
    · exact .next (h.same.forEach fun ht => ht.countArm).setF.chargePeriod
  · exact .next h

theorem execChargeOk_answers (h : s.Follows s₀) : s₀.Answers (execChargeOk s) := .ite (.next h.same) (.next h)

/-! ### Rows of the granary -/

theorem execEccWriteback_answers {bank : Fin 32} (h : s.Follows s₀) : s₀.Answers (execEccWriteback bank s) := by
  unfold execEccWriteback
  split
  · exact .next h
  · exact .next h.same

theorem execGranaryInitDone_answers (h : s.Follows s₀) : s₀.Answers (execGranaryInitDone s) := .next (.ite h.setF h)

theorem execPatrolScrub_answers {ecc : Ecc} (h : s.Follows s₀) : s₀.Answers (execPatrolScrub ecc s) :=
  .ite (.next h.advanceCyc.grnCheck.same) (.next h)

/-! ### Rows of supplies, resets, clocks, requests and the boot sources -/

theorem execPllLock_answers (h : s.Follows s₀) : s₀.Answers (execPllLock s) := by
  unfold execPllLock
  split
  · exact .next h
  · extract_lets +onlyGivenNames _ _ _ s1 s2 s3
    have h1 : s1.Follows s₀ := h.same
    have h2 : s2.Follows s₀ := .ite h1.enterBoot.espFreeze h1
    have h3 : s3.Follows s₀ := .ite h2.raise h2
    exact .next (.settle (.ite h3.bootStart h3))

theorem execRefLost_answers (h : s.Follows s₀) : s₀.Answers (execRefLost s) := .ite (.next h.same.mark.clockFault) (.next h.same)

theorem execLockLost_answers (h : s.Follows s₀) : s₀.Answers (execLockLost s) :=
  .ite (.next h.modTim.same.mark.clockFault) (.next h)

theorem execLrefLost_answers {x : RefLoss} (h : s.Follows s₀) : s₀.Answers (execLrefLost x s) :=
  .ite (.next (h.same.mark.raise.forEach (fun ht => ht.dropLock)).gatherCheck.settle) (.next h.same)

theorem execLrefReturn_answers {b : Bool} (h : s.Follows s₀) : s₀.Answers (execLrefReturn b s) := .next h.same

theorem execPorstAssert_answers (h : s.Follows s₀) : s₀.Answers (execPorstAssert s) := .ite (.next h.coldReset.same) (.next h.same)

theorem execPorstRelease_answers {bootSel : Fin 4} {pcieBif : Bool} (h : s.Follows s₀) :
    s₀.Answers (execPorstRelease bootSel pcieBif s) := .ite (.next h.same.resetEnd) (.next h)

theorem execRailFault_answers {rail : Fin 7} (h : s.Follows s₀) : s₀.Answers (execRailFault rail s) :=
  .ite (.next h.railsFall.same.resetEnd) (.next h)

theorem execRailRecover_answers (h : s.Follows s₀) : s₀.Answers (execRailRecover s) := .next (.ite h.same.resetEnd h.same)

theorem execRailWarn_answers {x : RailRange} (h : s.Follows s₀) : s₀.Answers (execRailWarn x s) :=
  .ite (.next h) (.ite (.next h.setF) (.next h.orF.setF))

theorem execMainRailsRemoved_answers (h : s.Follows s₀) : s₀.Answers (execMainRailsRemoved s) :=
  .ite (.ite (.next h.railsFall.setF.setF.same.same) (.next h.railsFall.setF.setF.same.same)) (.next h)

theorem execAllPowerRemoved_answers (h : s.Follows s₀) : s₀.Answers (execAllPowerRemoved s) := .next h.coldReset.same

theorem execVbatApplied_answers (h : s.Follows s₀) : s₀.Answers (execVbatApplied s) := .next (.ite h.same.same h.same)

theorem execDieTempMeasure_answers {code : Int} (h : s.Follows s₀) : s₀.Answers (execDieTempMeasure code s) := by
  unfold execDieTempMeasure
  split
  · extract_lets +onlyGivenNames s1 _ s2 _ s3 s4 _ s5 s6
    have h1 : s1.Follows s₀ := h.advanceCyc
    have h2 : s2.Follows s₀ := h1.same
    have h3 : s3.Follows s₀ := h2.setF
    have h4 : s4.Follows s₀ := h3.setF.putWorst
    have h5 : s5.Follows s₀ := .ite h3 h4.same
    have h6 : s6.Follows s₀ := .ite h5.mark h5
    exact .next (.ite h6.mark h6)
  · exact .next h

theorem State.Follows.askMode {m : Master} {target : Nat} (h : s.Follows s₀) : (s.askMode m target).Follows s₀ :=
  h.ownerWrite.settle

theorem execRequestBoot_answers {m : Master} (h : s.Follows s₀) : s₀.Answers (execRequestBoot m s) := .next h.askMode

theorem execRequestConfigure_answers {m : Master} (h : s.Follows s₀) : s₀.Answers (execRequestConfigure m s) := .next h.askMode

theorem execRequestCommission_answers {m : Master} (h : s.Follows s₀) : s₀.Answers (execRequestCommission m s) := .next h.askMode

theorem execRequestPrecharge_answers {m : Master} (h : s.Follows s₀) : s₀.Answers (execRequestPrecharge m s) := .next h.askMode

theorem execRequestReady_answers {m : Master} (h : s.Follows s₀) : s₀.Answers (execRequestReady m s) := .next h.askMode

theorem execRequestRun_answers {m : Master} (h : s.Follows s₀) : s₀.Answers (execRequestRun m s) := .next h.askMode

theorem execRequestDiagnostic_answers {m : Master} (h : s.Follows s₀) : s₀.Answers (execRequestDiagnostic m s) := .next h.askMode

theorem execModeRequestEval_answers (h : s.Follows s₀) : s₀.Answers (execModeRequestEval s) := .next (.ite h.evalNow.settle h)

theorem execSeqRunStart_answers {m : Master} (h : s.Follows s₀) : s₀.Answers (execSeqRunStart m s) := .next h.ownerWrite.settle

theorem execSeqRunStop_answers {m : Master} (h : s.Follows s₀) : s₀.Answers (execSeqRunStop m s) := .next h.ownerWrite.settle

theorem execBootReadDone_answers {answered : Bool} {image : List Byte} (h : s.Follows s₀) :
    s₀.Answers (execBootReadDone answered image s) := .ite (.ite (.next h.same) (.next h.setF.bootNext)) (.next h)

theorem execBootGo_answers {m : Master} (h : s.Follows s₀) : s₀.Answers (execBootGo m s) := .next h.ownerWrite.settle

theorem execBootCheckDone_answers (h : s.Follows s₀) : s₀.Answers (execBootCheckDone s) := by
  unfold execBootCheckDone
  split
  · extract_lets +onlyGivenNames _ _ s1 _ _
    have h1 : s1.Follows s₀ := .ite h.grnWait h
    exact .ite (.next h1.setF.setF.same) (.next (.ite h1.setF.setF.setF.same h1.setF.bootNext))
  · exact .next h

theorem State.Follows.pmLoad {e a : Nat} {bs : List Byte} (h : s.Follows s₀) : (s.pmLoad e a bs).Follows s₀ := by
  induction bs generalizing s a with
  | nil => exact h
  | cons b bs ih => exact ih h.pmPut

theorem State.Follows.loadSection {im : List Byte} {x : Section} (h : s.Follows s₀) : (State.loadSection im s x).Follows s₀ :=
  .ite h.pmLoad (.ite h.dmWords (.ite h.grnWait.grnWrite h))

theorem State.Follows.bootPair {off v : Nat} (h : s.Follows s₀) : (s.bootPair off v).Follows s₀ := .ite h.raise h.writeReg

theorem State.Follows.bootPairs {bs : List Byte} {n : Nat} (h : s.Follows s₀) : (s.bootPairs bs n).Follows s₀ := by
  induction n generalizing s bs with
  | zero => exact h
  | succ n ih => exact ih h.bootPair

theorem execBootLoadDone_answers (h : s.Follows s₀) : s₀.Answers (execBootLoadDone s) := by
  unfold execBootLoadDone
  split
  · extract_lets +onlyGivenNames _ _ s1 s2 s3 s4 s5 s6
    have h1 : s1.Follows s₀ := h.foldl fun ht => ht.loadSection
    have h2 : s2.Follows s₀ := h1.wr.setF
    have h3 : s3.Follows s₀ := h2.setF
    have h4 : s4.Follows s₀ := h3.same
    have h5 : s5.Follows s₀ := h4.enterMode
    have h6 : s6.Follows s₀ := h5.foldl fun ht => ht.bootPairs
    exact .next h6.settle
  · exact .next h

theorem execCheckValueDone_answers (h : s.Follows s₀) : s₀.Answers (execCheckValueDone s) :=
  .ite (.next (.settle (.ite h.wr.setF.same.checkMatched h.wr.setF.same))) (.next h)

theorem execSafConfirm_answers {m : Master} {value : W32} (h : s.Follows s₀) : s₀.Answers (execSafConfirm m value s) :=
  .next h.ownerWrite.settle

theorem execPendingMusterEntry_answers (h : s.Follows s₀) : s₀.Answers (execPendingMusterEntry s) := by
  unfold execPendingMusterEntry
  split
  · exact .next h
  · exact .next (.ite h.enterMode.settle h)

theorem execMusterDone_answers (h : s.Follows s₀) : s₀.Answers (execMusterDone s) :=
  .ite (.next (.ite h.same.blockWith.settle h.same)) (.next h)

/-! ### The period tick, the plan and the injection generators -/

theorem State.Follows.injStart {e : Nat} (h : s.Follows s₀) : (s.injStart e).Follows s₀ := h.setF.setF.modEng

theorem State.Follows.injTick {e : Nat} (h : s.Follows s₀) : (s.injTick e).Follows s₀ :=
  .ite h.injStop (.ite h.modEng (.ite h.injStart h))

theorem State.Follows.injSample {e : Nat} {g : Int} (h : s.Follows s₀) : (s.injSample e g).Follows s₀ := h.setF

theorem State.Follows.injPrbs {e : Nat} (h : s.Follows s₀) : (s.injPrbs e).Follows s₀ := h.modEng.injSample

theorem State.Follows.injChirp {e : Nat} (h : s.Follows s₀) : (s.injChirp e).Follows s₀ :=
  .ite (.ite h.injSample.modEng.injStop.setF.setF.raise.occur h.injSample.modEng) h.injSample.modEng

theorem State.Follows.injTones {e : Nat} (h : s.Follows s₀) : (s.injTones e).Follows s₀ :=
  .ite h.modEng.injSample.mark h.modEng.injSample

theorem execInjUpdate_answers {e : Fin 12} (h : s.Follows s₀) : s₀.Answers (execInjUpdate e s) :=
  .ite (.next (.ite h.modEng.injPrbs (.ite h.modEng.injChirp h.modEng.injTones))) (.next h)

theorem State.Follows.periodStats (h : s.Follows s₀) : s.periodStats.Follows s₀ := by
  unfold State.periodStats
  extract_lets +onlyGivenNames s1 s2
  have h1 : s1.Follows s₀ := by unfold s1; split; exacts [h, h.setF.putWorst]
  have h2 : s2.Follows s₀ := by unfold s2; split; exacts [h1, h1.setF.putWorst]
  exact h2.forEach fun ht => ht.setF.putWorst.modUnit

theorem State.Follows.periodBegin {n : Nat} (h : s.Follows s₀) : (s.periodBegin n).Follows s₀ :=
  (h.same.same.forEach (fun ht => ht.modLane)).headerBegin

theorem State.Follows.laneBoundary (h : s.Follows s₀) : s.laneBoundary.Follows s₀ := by
  unfold State.laneBoundary
  exact h.forEach fun ht => .ite (.ite ht.modLane ht) (.ite (.setF (.setF (.modLane (.ite ht.modLane ht)))) (.modLane (.ite ht.modLane ht)))

theorem State.Follows.entitlementMode {entitled : Bool} (h : s.Follows s₀) : (s.entitlementMode entitled).Follows s₀ := by
  unfold State.entitlementMode
  split
  · exact .ite h h.enterMode
  · exact .ite h.enterMode.modPair h
  · exact h

theorem State.Follows.periodWork (h : s.Follows s₀) : s.periodWork.Follows s₀ :=
  (h.laneBoundary.same.timRecord.forEach (fun ht => ht.injTick)).adcPeriod.commitTransfer.syncEvent.same

theorem State.Follows.stopTick (h : s.Follows s₀) : s.stopTick.Follows s₀ :=
  .ite h.evalBoundary.stopSequencer.dropAll.enginesTo h.evalBoundary

theorem State.Follows.tick {n : Nat} (h : s.Follows s₀) : (s.tick n).Follows s₀ := by
  unfold State.tick
  extract_lets +onlyGivenNames _ _ s1 s2 s3
  have h1 : s1.Follows s₀ := .ite h.periodStats h
  have h2 : s2.Follows s₀ := h1.periodBegin.pairPeriod
  have h3 : s3.Follows s₀ := h2.schedPeriod.overrunTrip.entitlementMode.evalBoundary.overrunTrip
  exact .ite h3.periodWork h3

theorem execPeriodTick_answers (h : s.Follows s₀) : s₀.Answers (execPeriodTick s) := by
  unfold execPeriodTick
  split
  · extract_lets +onlyGivenNames _ s1
    have h1 : s1.Follows s₀ := h.advanceTo.flushSets.catchUp
    exact .ite (.next (.settle (.lateRequests (.stopTick (.ite h1.periodStats h1))))) (.next h1.tick.lateRequests.settle)
  · exact .next h

theorem State.Follows.takeSend {e unit : Nat} (h : s.Follows s₀) : (s.takeSend e unit).2.Follows s₀ := by
  unfold State.takeSend
  split
  · exact h
  · exact h.modEng

theorem State.Follows.deliverArm {e : Nat} (h : s.Follows s₀) : (s.deliverArm e).Follows s₀ := by
  unfold State.deliverArm
  extract_lets +onlyGivenNames s1
  have h1 : s1.2.Follows s₀ := h.takeSend
  split
  · exact h
  · exact h1.armRequest

theorem execArmRequest_answers {e : Fin 12} (h : s.Follows s₀) : s₀.Answers (execArmRequest e s) :=
  .next (h.foldl (fun ht => ht.deliverArm)).deliverArm

theorem execPlanComplete_answers (h : s.Follows s₀) : s₀.Answers (execPlanComplete s) :=
  .ite (.next h.same.same.occur.settle) (.next h)

theorem State.Follows.flagMissing (h : s.Follows s₀) : s.flagMissing.Follows s₀ := h.forEach fun ht => .ite ht.mark ht

theorem State.Follows.closeRequests (h : s.Follows s₀) : s.closeRequests.Follows s₀ := h.forEach fun ht => ht.modArm

theorem State.Follows.latePlan (h : s.Follows s₀) : s.latePlan.Follows s₀ := h.mark.bumpF.same.overrunCause

theorem State.Follows.launchOrders (h : s.Follows s₀) : s.launchOrders.Follows s₀ := by
  unfold State.launchOrders
  extract_lets +onlyGivenNames _ _ s1 s2
  have h1 : s1.Follows s₀ := h.forEach fun ht => ht.putFrames.modLane
  have h2 : s2.Follows s₀ := h1.forEach fun ht => ht.modLane
  exact h2.forEach fun ht => .ite (ht.forEach (fun ht => ht.commandCell)) (ht.forEach (fun ht => ht.commandCell))

theorem State.Follows.diagSlots (h : s.Follows s₀) : s.diagSlots.Follows s₀ := h.forEach fun ht => ht.free.same

theorem execOrderLaunch_answers (h : s.Follows s₀) : s₀.Answers (execOrderLaunch s) := by
  unfold execOrderLaunch
  split
  · extract_lets +onlyGivenNames s1 _ s2 s3 _ s4 s5 s6 s7 s8
    have h1 : s1.Follows s₀ := h.advanceTo.flushSets
    have h2 : s2.Follows s₀ := h1.flagMissing
    have h3 : s3.Follows s₀ := h2.closeRequests
    have h4 : s4.Follows s₀ := h3.same
    have h5 : s5.Follows s₀ := .ite h4 h4.latePlan.overrunTrip
    have h6 : s6.Follows s₀ := .ite h5.diagSlots h5
    have h7 : s7.Follows s₀ := h6.launchOrders
    have h8 : s8.Follows s₀ := .ite (h7.forEach (fun ht => ht.tryRanking)) h7
    exact .next h8.occur.settle
  · exact .next h

/-! ### Rows of the local PWM -/

theorem execPwmReload_answers {c : Fin 16} {fltPins : BitVec 8} (h : s.Follows s₀) : s₀.Answers (execPwmReload c fltPins s) := by
  unfold execPwmReload
  split
  · extract_lets +onlyGivenNames _ s1 s2 s3
    have h1 : s1.Follows s₀ := h.advanceCyc.setFltPins
    have h2 : s2.Follows s₀ := .ite h1.commitTransfer h1
    have h3 : s3.Follows s₀ := h2.lagChain
    exact .next h3.reloadFrom.urgentReload.settle
  · exact .next h

theorem execPwmCompare_answers {c : Fin 16} {isOn : Bool} (h : s.Follows s₀) : s₀.Answers (execPwmCompare c isOn s) :=
  .ite (.next (.ite h.advanceCyc.compareAt.urgentPwm h.advanceCyc.compareAt)) (.next h)

theorem execSyncInEdge_answers (h : s.Follows s₀) : s₀.Answers (execSyncInEdge s) :=
  .ite (.next (.settle (.syncEvent (.cycles (.ite h.setF.same.occur h))))) (.next h)

theorem State.Follows.applyRecord {e : Nat} {ws : List Nat} (h : s.Follows s₀) : (s.applyRecord e ws).Follows s₀ :=
  (h.foldl (fun ht => ht.writeReg)).same

theorem State.Follows.deliverEdges {e : Nat} (h : s.Follows s₀) : (s.deliverEdges e).Follows s₀ := by
  unfold State.deliverEdges
  extract_lets +onlyGivenNames s1
  have h1 : s1.2.Follows s₀ := h.takeSend
  split
  · exact h
  · exact .ite h1 (.ite h1.applyRecord h1.raise)

theorem execEdgeRecord_answers {e : Fin 12} (h : s.Follows s₀) : s₀.Answers (execEdgeRecord e s) :=
  .next (h.foldl (fun ht => ht.deliverEdges)).deliverEdges

/-! ### Rows of the recorder -/

theorem execTrigInEdge_answers {i : Fin 4} {rising : Bool} (h : s.Follows s₀) : s₀.Answers (execTrigInEdge i rising s) :=
  .ite (.next h.setF) (.ite (.next h.setF.bumpF) (.next h.setF.same.setF.recTrigger.settle))

theorem execTrigInRearm_answers {i : Fin 4} (h : s.Follows s₀) : s₀.Answers (execTrigInRearm i s) :=
  .ite (.next h.advanceCyc.setF) (.next h)

theorem execTbSlotSend_answers (h : s.Follows s₀) : s₀.Answers (execTbSlotSend s) := by
  unfold execTbSlotSend
  extract_lets +onlyGivenNames _ _
  split
  · exact .next h
  · extract_lets +onlyGivenNames s1 s2 s3
    have h1 : s1.Follows s₀ := .ite h h.advanceCyc
    have h2 : s2.Follows s₀ := h1.modBus
    have h3 : s3.Follows s₀ := .ite h2.setF h2
    split
    · exact .next h3.setF.bumpF.modBus
    · split
      · split <;> exact .next h3.modBus
      · exact .ite (.next h3.modBus) (.next h3.modBus)

theorem State.Follows.tbLink {rs : List Nat} (h : s.Follows s₀) : (s.tbLink rs).Follows s₀ := by
  unfold State.tbLink
  extract_lets +onlyGivenNames _ _ s1 _ s2 s3
  have h1 : s1.Follows s₀ := h.modBus
  have h2 : s2.Follows s₀ := .ite h1 h1.setF.setF.raise
  have h3 : s3.Follows s₀ := .ite h2.mark.raise h2
  exact .ite h3.mark.raise.modBus h3

theorem State.Follows.tbLost (h : s.Follows s₀) : s.tbLost.Follows s₀ := h.modBus.setF.setF.mark.raise

theorem State.Follows.tbSlot0 (h : s.Follows s₀) : s.tbSlot0.Follows s₀ := .ite h.modBus.modBus h.modBus

theorem execTbMessageReceived_answers {slot : Fin 8} {msg : BitVec 16} {rt : Nat} (h : s.Follows s₀) :
    s₀.Answers (execTbMessageReceived slot msg rt s) := by
  unfold execTbMessageReceived
  extract_lets +onlyGivenNames _ _
  split
  · exact .next h
  · split
    · exact .ite (.next (.ite h.bumpF.modBus.tbLost h.bumpF.modBus)) (.next h.bumpF)
    · extract_lets +onlyGivenNames s1 _ _
      have h1 : s1.Follows s₀ := .ite h.tbSlot0 h
      split
      · exact .next (.ite h1.recTrigger.settle h1)
      · exact .ite (.next (.ite h1.modBus h1)) (.ite (.next (.ite h1.setF.modBus.tbLink h1.setF.modBus)) (.next h1))

theorem execTbRelink_answers (h : s.Follows s₀) : s₀.Answers (execTbRelink s) := .ite (.next h.advanceCyc.modBus) (.next h)

theorem execTbClkLoss_answers (h : s.Follows s₀) : s₀.Answers (execTbClkLoss s) := .ite (.next (.ite h.tbLost h.modBus)) (.next h)

/-! ### Rows that are accesses of a master -/

theorem execRegisterWrite_answers {m : Master} {addr size : Nat} {value : BitVec 64} (h : s.Follows s₀) :
    s₀.Answers (execRegisterWrite m addr size value s) := .next h.masterWrite.settle

theorem execReadClear_answers {m : Master} {addr size : Nat} (h : s.Follows s₀) : s₀.Answers (execReadClear m addr size s) :=
  .next h.masterRead.answer

theorem execSnapshotRead_answers {m : Master} {addr size : Nat} (h : s.Follows s₀) : s₀.Answers (execSnapshotRead m addr size s) :=
  .next h.masterRead.answer

theorem State.Follows.fieldWrite {m : Master} {x : Fld} {v : Nat} (h : s.Follows s₀) : (s.fieldWrite m x v).Follows s₀ :=
  h.ownerWrite.settle

theorem State.Follows.wordWrite {m : Master} {off v : Nat} (h : s.Follows s₀) : (s.wordWrite m off v).Follows s₀ :=
  h.ownerWrite.settle

theorem execEqRxWrite_answers {m : Master} {l : Fin 50} {value : W32} (h : s.Follows s₀) : s₀.Answers (execEqRxWrite m l value s) :=
  .next h.wordWrite

theorem execInjectSingle_answers {m : Master} {l : Fin 50} (h : s.Follows s₀) : s₀.Answers (execInjectSingle m l s) :=
  .next h.fieldWrite

theorem execInjectBurst_answers {m : Master} {l : Fin 50} (h : s.Follows s₀) : s₀.Answers (execInjectBurst m l s) :=
  .next h.fieldWrite

theorem execCellRetire_answers {m : Master} {c : Fin 3072} {retire : Bool} (h : s.Follows s₀) :
    s₀.Answers (execCellRetire m c retire s) := .next h.fieldWrite

theorem execCellRelease_answers {m : Master} {c : Fin 3072} (h : s.Follows s₀) : s₀.Answers (execCellRelease m c s) :=
  .next h.fieldWrite

theorem execOcTallyClear_answers {m : Master} {c : Fin 3072} (h : s.Follows s₀) : s₀.Answers (execOcTallyClear m c s) :=
  .next h.fieldWrite

theorem execPwmCommit_answers {m : Master} {channels : BitVec 16} (h : s.Follows s₀) : s₀.Answers (execPwmCommit m channels s) :=
  .next h.wordWrite

theorem execPwmForceActive_answers {m : Master} {c : Fin 16} (h : s.Follows s₀) : s₀.Answers (execPwmForceActive m c s) :=
  .next h.fieldWrite

theorem execPwmForceInactive_answers {m : Master} {c : Fin 16} (h : s.Follows s₀) : s₀.Answers (execPwmForceInactive m c s) :=
  .next h.fieldWrite

theorem execPwmForceRelease_answers {m : Master} {c : Fin 16} (h : s.Follows s₀) : s₀.Answers (execPwmForceRelease m c s) :=
  .next h.fieldWrite

theorem execFaultInputClear_answers {m : Master} {i : Fin 8} {pin : Bool} (h : s.Follows s₀) :
    s₀.Answers (execFaultInputClear m i pin s) := .next (.fieldWrite (.ite h.fltPin h))

theorem execPmDataWrite_answers {m : Master} {e : Fin 12} {value : W32} (h : s.Follows s₀) :
    s₀.Answers (execPmDataWrite m e value s) := .next h.wordWrite

theorem State.Follows.windowRead {m : Master} {off : Nat} {corr : Fld} {ecc : Ecc} (h : s.Follows s₀) :
    (s.windowRead m off corr ecc).Follows s₀ := by
  unfold State.windowRead
  split
  · exact h.masterRead.answer
  · split
    · exact h.masterRead.answer
    · exact h.bumpF.masterRead.answer
    · exact .answer h.free.masterRead

theorem execPmDataRead_answers {m : Master} {e : EngRead} (h : s.Follows s₀) : s₀.Answers (execPmDataRead m e s) :=
  .next h.windowRead

theorem execDmDataWrite_answers {m : Master} {e : Fin 12} {value : W32} (h : s.Follows s₀) :
    s₀.Answers (execDmDataWrite m e value s) := .next h.wordWrite

theorem execDmDataRead_answers {m : Master} {e : EngRead} (h : s.Follows s₀) : s₀.Answers (execDmDataRead m e s) :=
  .next h.windowRead

theorem execCoefOpen_answers {m : Master} {e : Fin 12} (h : s.Follows s₀) : s₀.Answers (execCoefOpen m e s) := .next h.wordWrite

theorem execCoefClose_answers {m : Master} {e : Fin 12} (h : s.Follows s₀) : s₀.Answers (execCoefClose m e s) := .next h.wordWrite

theorem execInjEnable_answers {m : Master} {e : Fin 12} (h : s.Follows s₀) : s₀.Answers (execInjEnable m e s) := .next h.fieldWrite

theorem execInjDisable_answers {m : Master} {e : Fin 12} (h : s.Follows s₀) : s₀.Answers (execInjDisable m e s) :=
  .next h.fieldWrite

theorem execEvtRaise_answers {m : Master} {code : BitVec 8} (h : s.Follows s₀) : s₀.Answers (execEvtRaise m code s) :=
  .next h.wordWrite

theorem execUrgentRequest_answers {m : Master} {slots : BitVec 4} (h : s.Follows s₀) : s₀.Answers (execUrgentRequest m slots s) :=
  .next h.wordWrite

theorem execSiloArm_answers {m : Master} {k : Fin 4} (h : s.Follows s₀) : s₀.Answers (execSiloArm m k s) := .next h.fieldWrite

theorem execSiloDisarm_answers {m : Master} {k : Fin 4} (h : s.Follows s₀) : s₀.Answers (execSiloDisarm m k s) := .next h.fieldWrite

theorem execSwTrig_answers {m : Master} {k : Fin 4} (h : s.Follows s₀) : s₀.Answers (execSwTrig m k s) := .next h.fieldWrite

theorem execSiloRelease_answers {m : Master} {k : Fin 4} (h : s.Follows s₀) : s₀.Answers (execSiloRelease m k s) :=
  .next h.fieldWrite

theorem execSafeLatchClear_answers {m : Master} {mask pins : BitVec 8} (h : s.Follows s₀) :
    s₀.Answers (execSafeLatchClear m mask pins s) := .next (.wordWrite (.ite h.setPins h))

theorem execFaultHistClear_answers {m : Master} {mask : W32} (h : s.Follows s₀) : s₀.Answers (execFaultHistClear m mask s) :=
  .next h.wordWrite

theorem execTripCountClear_answers {m : Master} (h : s.Follows s₀) : s₀.Answers (execTripCountClear m s) := .next h.wordWrite

theorem execHandover_answers {m : Master} (h : s.Follows s₀) : s₀.Answers (execHandover m s) := .next h.wordWrite

theorem execRejoin_answers {m : Master} (h : s.Follows s₀) : s₀.Answers (execRejoin m s) := .next h.wordWrite

theorem execFwdRequest_answers {m : Master} {target : Fin 16} (h : s.Follows s₀) : s₀.Answers (execFwdRequest m target s) :=
  .next h.wordWrite

theorem execOwnerHandover_answers {m : Master} {dest : Fin 3} (h : s.Follows s₀) : s₀.Answers (execOwnerHandover m dest s) :=
  .next h.wordWrite

theorem execOwnerRelease_answers {m : Master} (h : s.Follows s₀) : s₀.Answers (execOwnerRelease m s) := .next h.wordWrite

theorem execRingEnable_answers {m : Master} {p : Fin 2} {r : Fin 5} {value : W32} (h : s.Follows s₀) :
    s₀.Answers (execRingEnable m p r value s) := .next h.wordWrite

theorem execMailboxGo_answers {m : Master} (h : s.Follows s₀) : s₀.Answers (execMailboxGo m s) := .next h.wordWrite

theorem execDmaDisable_answers {m : Master} {c : Fin 16} (h : s.Follows s₀) : s₀.Answers (execDmaDisable m c s) :=
  .next h.fieldWrite

theorem execOffsetRequest_answers {m : Master} {value : W32} (h : s.Follows s₀) : s₀.Answers (execOffsetRequest m value s) :=
  .next h.wordWrite

theorem execAbsoluteSet_answers {m : Master} (h : s.Follows s₀) : s₀.Answers (execAbsoluteSet m s) := .next h.fieldWrite

theorem execAnRestart_answers {m : Master} {p : Fin 2} (h : s.Follows s₀) : s₀.Answers (execAnRestart m p s) := .next h.fieldWrite

theorem execCanEnable_answers {m : Master} {k : Fin 2} {value : W32} (h : s.Follows s₀) : s₀.Answers (execCanEnable m k value s) :=
  .next h.wordWrite

theorem execCanPush_answers {m : Master} {k : Fin 2} (h : s.Follows s₀) : s₀.Answers (execCanPush m k s) := .next h.wordWrite

theorem State.Follows.canCmdWrite {m : Master} {k v : Nat} {busy : Bool} (h : s.Follows s₀) :
    (s.canCmdWrite m k v busy).Follows s₀ := .ite h.canCmd.settle h.wordWrite

theorem execCanAbortHead_answers {m : Master} {k : Fin 2} {busy : Bool} (h : s.Follows s₀) :
    s₀.Answers (execCanAbortHead m k busy s) := .next h.canCmdWrite

theorem execCanFlush_answers {m : Master} {k : Fin 2} {busy : Bool} (h : s.Follows s₀) : s₀.Answers (execCanFlush m k busy s) :=
  .next h.canCmdWrite

theorem execCanRecover_answers {m : Master} {k : Fin 2} (h : s.Follows s₀) : s₀.Answers (execCanRecover m k s) := .next h.wordWrite

theorem State.Follows.grnMasterRead {m : Master} {a n : Nat} {eccs : List Ecc} (h : s.Follows s₀) :
    (s.grnMasterRead m a n eccs).2.2.Follows s₀ := h.grnWait.grnCheckBy

theorem State.Follows.grnMasterWrite {m : Master} {a : Nat} {bs : List Byte} (h : s.Follows s₀) :
    (s.grnMasterWrite m a bs).Follows s₀ := .ite h.grnWait.grnWriteB h.bumpF.raiseFrom

theorem execBar2Read_answers {m : Master} {addr n : Nat} {eccs : List Ecc} (h : s.Follows s₀) :
    s₀.Answers (execBar2Read m addr n eccs s) := .ite (.next h.grnMasterRead.same) (.next h)

theorem execBar2Write_answers {m : Master} {addr : Nat} {data : List Byte} (h : s.Follows s₀) :
    s₀.Answers (execBar2Write m addr data s) := .ite (.next h.grnMasterWrite) (.next h)

theorem State.Follows.mspiReads {addr n : Nat} (h : s.Follows s₀) : (s.mspiReads addr n).2.Follows s₀ := by
  induction n generalizing s addr with
  | zero => exact h
  | succ n ih => exact ih h.masterRead

theorem execMspiRead_answers {addr : BitVec 24} {words : Nat} (h : s.Follows s₀) : s₀.Answers (execMspiRead addr words s) :=
  .next h.mspiReads.answer.mspiEnd

theorem State.Follows.mspiWrites {addr : Nat} {ws : List W32} (h : s.Follows s₀) : (s.mspiWrites addr ws).Follows s₀ := by
  induction ws generalizing s addr with
  | nil => exact h
  | cons w ws ih => exact ih h.masterWrite

theorem State.Follows.mspiPartial {before : State} {addr bits : Nat} (h : s.Follows s₀) : (s.mspiPartial before addr bits).Follows s₀ :=
  .mspiEnd (.ite h h.narrowWrite)

theorem execMspiWrite_answers {addr : BitVec 24} {data : List W32} {bits : Nat} (h : s.Follows s₀) :
    s₀.Answers (execMspiWrite addr data bits s) := .ite (.next h.mspiWrites.mspiPartial.settle) (.next h)

theorem execMspiReadGrn_answers {addr : BitVec 32} {n : Nat} {eccs : List Ecc} (h : s.Follows s₀) :
    s₀.Answers (execMspiReadGrn addr n eccs s) := .ite (.next h.grnMasterRead.same.mspiEnd) (.next h)

theorem State.Follows.mspiGrnWrites {a : Nat} {ws : List W32} (h : s.Follows s₀) : (s.mspiGrnWrites a ws).Follows s₀ := by
  induction ws generalizing s a with
  | nil => exact h
  | cons w ws ih => exact ih h.grnMasterWrite

theorem execMspiWriteGrn_answers {addr : BitVec 32} {data : List W32} {bits : Nat} (h : s.Follows s₀) :
    s₀.Answers (execMspiWriteGrn addr data bits s) := .ite (.next h.mspiGrnWrites.mspiPartial) (.next h)

theorem execMspiStatus_answers (h : s.Follows s₀) : s₀.Answers (execMspiStatus s) := .next (.ite h.same.mspiEnd h)

/-! ### Rows of the safety path -/

theorem State.Follows.qualifies {dur : Nat} (h : s.Follows s₀) : (s.qualifies dur).2.Follows s₀ := by
  unfold State.qualifies
  split
  · exact h
  · split
    · exact h
    · exact h.free

theorem execSafetyInputAssert_answers {ch : Fin 8} {dur : Nat} {pins : BitVec 8} (h : s.Follows s₀) :
    s₀.Answers (execSafetyInputAssert ch dur pins s) := by
  unfold execSafetyInputAssert
  split
  · exact .ite (.next (.ite h.setPins.qualifies.latchChannels.settle h.setPins.qualifies)) (.next h.setPins)
  · exact .next h

theorem execSafeDiscrep_answers {pair : Fin 4} {pins : BitVec 8} (h : s.Follows s₀) : s₀.Answers (execSafeDiscrep pair pins s) := by
  unfold execSafeDiscrep
  split
  · extract_lets +onlyGivenNames s1
    have h1 : s1.Follows s₀ := h.setPins
    split
    · exact .ite (.next h1.advanceCyc.orF.raise.faultHist) (.next h1)
    · exact .next h1
  · exact .next h

theorem execTestPulseStart_answers (h : s.Follows s₀) : s₀.Answers (execTestPulseStart s) :=
  .ite (.next h.advanceCyc.same) (.next h)

theorem execTestPulseEnd_answers {pins : BitVec 8} (h : s.Follows s₀) : s₀.Answers (execTestPulseEnd pins s) :=
  .ite (.next h.advanceCyc.setPins.same) (.next h)

theorem State.Follows.testResult {pins ch : Nat} (h : s.Follows s₀) : (State.testResult pins s ch).Follows s₀ :=
  .ite h.setF h.setF.bumpF.raise.faultHist

theorem State.Follows.windowOver (h : s.Follows s₀) : s.windowOver.Follows s₀ := h.same

theorem execTestRecoveryEnd_answers {pins : BitVec 8} (h : s.Follows s₀) : s₀.Answers (execTestRecoveryEnd pins s) := by
  unfold execTestRecoveryEnd
  split
  · exact .next (h.advanceCyc.forEach (fun ht => ht.testResult)).windowOver.setPins.latchChannels.settle
  · exact .next h

theorem State.Follows.pressStuck (h : s.Follows s₀) : s.pressStuck.Follows s₀ := h.setF.mark.raise.faultHist

theorem execResetStuck_answers (h : s.Follows s₀) : s₀.Answers (execResetStuck s) := by
  unfold execResetStuck
  split
  · exact .next h
  · exact .next (.ite h.advanceCyc.pressStuck h)

theorem State.Follows.resetAccepted (h : s.Follows s₀) : s.resetAccepted.Follows s₀ :=
  .ite h.bumpF.setF.same.retChanged.enterMode h.bumpF.setF.latchesCleared

theorem State.Follows.pressEnd {f r : Nat} {trig : Bool} (h : s.Follows s₀) : (s.pressEnd f r trig).Follows s₀ :=
  .ite h.same.setF.setF (.ite h.same.setF.setF.resetAccepted.settle h.same.setF.setF.setF.bumpF.raise)

theorem execResetRelease_answers {pins : BitVec 8} {trig : Bool} (h : s.Follows s₀) :
    s₀.Answers (execResetRelease pins trig s) := by
  unfold execResetRelease
  split
  · exact .ite (.next h.advanceCyc.setPins.pressEnd) (.next h)
  · exact .next h

theorem execResetPinFall_answers (h : s.Follows s₀) : s₀.Answers (execResetPinFall s) := by
  unfold execResetPinFall
  split
  · extract_lets +onlyGivenNames s1 s2
    have h1 : s1.Follows s₀ := by unfold s1; split; exacts [.ite h.pressEnd h, h]
    have h2 : s2.Follows s₀ := h1.setF
    split
    · exact .next h2.same
    · exact .next (.ite h2.same.pressStuck h2.same)
  · exact .next h

theorem execResetPinRise_answers (h : s.Follows s₀) : s₀.Answers (execResetPinRise s) :=
  .ite (.next (.ite h.setF.same h.setF)) (.next h)

theorem execBlockSetRepeat_answers (h : s.Follows s₀) : s₀.Answers (execBlockSetRepeat s) :=
  .next (.ite (h.forEach (fun ht => ht.sendNow)) h)

theorem execMirrorBlockSet_answers {x : LaneSet} (h : s.Follows s₀) : s₀.Answers (execMirrorBlockSet x s) :=
  .next (.ite h.modPair h)

/-! ### Rows of the scheduler and of the dump record -/

theorem execSchedulerTick_answers (h : s.Follows s₀) : s₀.Answers (execSchedulerTick s) :=
  .ite (.next h.advanceToU.catchUp.setF.expire.plans) (.next h)

theorem State.Follows.slotLoaded {e : Nat} (h : s.Follows s₀) : (s.slotLoaded e).Follows s₀ := by
  unfold State.slotLoaded
  split
  · exact h
  · exact h.advanceCyc.catchUp.modEng.plans

theorem execSlotLoad_answers {e : Fin 12} (h : s.Follows s₀) : s₀.Answers (execSlotLoad e s) :=
  .ite (.next h.decided.slotLoaded) (.next h)

theorem State.Follows.runTask {e tc kind : Nat} (h : s.Follows s₀) : (s.runTask e tc kind).Follows s₀ := by
  unfold State.runTask
  extract_lets +onlyGivenNames _ _ s1 s2 s3 s4
  have h1 : s1.Follows s₀ := h.setTcState
  have h2 : s2.Follows s₀ := h1.setEngState.setF
  have h3 : s3.Follows s₀ := h2.modEng.slotPlan
  have h4 : s4.Follows s₀ := .ite h3.bumpF h3
  exact h4.trace

theorem execDispatch_answers {e : Fin 12} (h : s.Follows s₀) : s₀.Answers (execDispatch e s) := by
  unfold execDispatch
  extract_lets +onlyGivenNames s1
  have h1 : s1.Follows s₀ := h.decided
  split
  · exact .next h1
  · exact .ite (.next h1.advanceCyc.runTask) (.next h1)

theorem State.Follows.stageDump (h : s.Follows s₀) : s.stageDump.Follows s₀ := .ite h.grnWriteA.grnWriteA.grnWriteA h

theorem State.Follows.dumpTo {p : Nat} (h : s.Follows s₀) : (s.dumpTo p).Follows s₀ := .ite h h.hostWrite.ringAdvance.msix.raise

theorem State.Follows.freeEccs {n : Nat} (h : s.Follows s₀) : (s.freeEccs n).2.Follows s₀ := h.same

theorem execDumpCopyDone_answers (h : s.Follows s₀) : s₀.Answers (execDumpCopyDone s) := by
  unfold execDumpCopyDone
  split
  · extract_lets _ _ _ s1 s2 s3 s4 s5
    have h3 : s3.Follows s₀ :=
      List.foldlRecOn _ _ (motive := fun p : State × List Ecc => p.1.Follows s₀) h.freeEccs.grnCheck fun _ hp _ _ => hp.grnCheck
    have h5 : s5.Follows s₀ := h3.grnWriteA.forEach fun ht => ht.dumpTo
    exact .next h5.modHif
  · exact .next h

theorem State.Follows.stageOnce (h : s.Follows s₀) : s.stageOnce.Follows s₀ := .ite h.stageDump.modHif h

theorem State.Follows.fatalChoose (h : s.Follows s₀) : s.fatalChoose.Follows s₀ :=
  .ite h.decided h.decided.slotPlan.slotLoaded.decided

theorem execFatalDispatch_answers (h : s.Follows s₀) : s₀.Answers (execFatalDispatch s) :=
  .ite (.ite (.next h.stageOnce.fatalChoose.advanceCyc.setF.same.runTask) (.next h.stageOnce)) (.next h)

theorem execFatalTimeout_answers (h : s.Follows s₀) : s₀.Answers (execFatalTimeout s) := by
  unfold execFatalTimeout
  split
  · extract_lets +onlyGivenNames s1 s2 s3
    have h1 : s1.Follows s₀ := h.advanceCyc.catchUp
    have h2 : s2.Follows s₀ := .ite h1.freeEngine h1.setEngState
    have h3 : s3.Follows s₀ := h2.dropInstance.setF
    exact .next h3.raise
  · exact .next h

/-! ### The dispatch -/

theorem exec_answers {c : Instr} (h : s.Follows s₀) : s₀.Answers (exec c s) := by
  cases c
  exacts [execRegisterWrite_answers h, execReadClear_answers h, execSnapshotRead_answers h, execPllLock_answers h,
    execRefLost_answers h, execLockLost_answers h, execLrefLost_answers h, execPeriodTick_answers h,
    execGatherLaunch_answers h, execTimeSetLaunch_answers h, execGatherFrame_answers h, execGatherDeadline_answers h,
    execAvailabilityCheck_answers h, execChargeOk_answers h, execOrderLaunch_answers h, execRequestBoot_answers h,
    execRequestConfigure_answers h, execRequestCommission_answers h, execRequestPrecharge_answers h,
    execRequestReady_answers h, execRequestRun_answers h, execRequestDiagnostic_answers h, execModeRequestEval_answers h,
    execSeqRunStart_answers h, execSeqRunStop_answers h, execAllPowerRemoved_answers h, execVbatApplied_answers h,
    execMainRailsRemoved_answers h, execPorstAssert_answers h, execPorstRelease_answers h, execRailFault_answers h,
    execRailRecover_answers h, execRailWarn_answers h, execBlockBeacon_answers h, execBootReadDone_answers h,
    execBootGo_answers h, execBootCheckDone_answers h, execBootLoadDone_answers h, execCheckValueDone_answers h,
    execSafConfirm_answers h, execPendingMusterEntry_answers h, execMusterDone_answers h, execHelloSend_answers h,
    execHelloReceived_answers h, execTrainingTimeout_answers h, execTrainingRetry_answers h,
    execEchoMeasureReturn_answers h, execDiscoveryTimeout_answers h, execChainSplit_answers h,
    execBlockSetRepeat_answers h, execMarkerSend_answers h, execMarkerReceived_answers h, execBlockLockAcquired_answers h,
    execBlockLockLost_answers h, execChainRelockTimeout_answers h, execIdleDelete_answers h, execIdleInsert_answers h,
    execMirrorMarkerPair_answers h, execMirrorMarkerReceived_answers h, execMirrorMarkerTimeout_answers h,
    execMirrorBlockSet_answers h, execFomMeasure_answers h, execAdaptFreeze_answers h, execAdaptResume_answers h,
    execEqRxWrite_answers h, execInjectSingle_answers h, execInjectBurst_answers h, execCheckerLock_answers h,
    execCheckerLoss_answers h, execArmRequest_answers h, execSelectionHandover_answers h, execRankComplete_answers h,
    execTallyUpdate_answers h, execCellRetire_answers h, execCellRelease_answers h, execArmPlanDone_answers h,
    execPlanComplete_answers h, execOcTallyClear_answers h, execPwmReload_answers h, execPwmCompare_answers h,
    execPwmCommit_answers h, execPwmForceActive_answers h, execPwmForceInactive_answers h, execPwmForceRelease_answers h,
    execDlCalibrate_answers h, execMaskExpire_answers h, execFaultInputAssert_answers h, execFaultInputClear_answers h,
    execSyncOutPulse_answers h, execSyncOutEnd_answers h, execSyncInEdge_answers h, execSyncInTimeout_answers h,
    execEdgeRecord_answers h, execNop_answers h, execMul_answers h, execMac_answers h, execMsu_answers h,
    execMac2_answers h, execMacd_answers h, execAdda_answers h, execSuba_answers h, execSha_answers h, execAbsa_answers h,
    execNega_answers h, execLda_answers h, execRnd_answers h, execExt_answers h, execClampa_answers h, execAdd_answers h,
    execSub_answers h, execAnd_answers h, execOr_answers h, execXor_answers h, execAndn_answers h, execShl_answers h,
    execShr_answers h, execSar_answers h, execCmp_answers h, execMov_answers h, execMovi_answers h, execSincos_answers h,
    execTbl_answers h, execXli_answers h, execXlh_answers h, execXadd_answers h, execXaddd_answers h, execLd_answers h,
    execSt_answers h, execLdac_answers h, execStac_answers h, execLdg_answers h, execLdgReturn_answers h,
    execStg_answers h, execWriteBufferDrain_answers h, execBr_answers h, execJmp_answers h, execCall_answers h,
    execRet_answers h, execLoop_answers h, execYield_answers h, execWait_answers h, execSig_answers h,
    execSigEvent_answers h, execSendWinnow_answers h, execSendEdgePlanner_answers h, execDmak_answers h, execMvs_answers h,
    execMsv_answers h, execInj_answers h, execCap_answers h, execTrap_answers h, execTrapFault_answers h,
    execPmDataWrite_answers h, execPmDataRead_answers h, execDmDataWrite_answers h, execDmDataRead_answers h,
    execCoefOpen_answers h, execCoefClose_answers h, execInjEnable_answers h, execInjDisable_answers h,
    execInjUpdate_answers h, execSchedulerTick_answers h, execSlotLoad_answers h, execDispatch_answers h,
    execEvtRaise_answers h, execFatalDispatch_answers h, execFatalTimeout_answers h, execAdcResult_answers h,
    execAdcConversionEnd_answers h, execAdcRoundTrigger_answers h, execAdcCalStart_answers h, execAdcCalDone_answers h,
    execUrgentRequest_answers h, execAdcSnapshot_answers h, execSnapshotRecordDone_answers h, execSiloArm_answers h,
    execSiloDisarm_answers h, execSwTrig_answers h, execSiloRelease_answers h, execCellEntryWrite_answers h,
    execWaveTick_answers h, execRecordDone_answers h, execTrigInEdge_answers h, execTrigInRearm_answers h,
    execTbSlotSend_answers h, execTbMessageReceived_answers h, execTbRelink_answers h, execTbClkLoss_answers h,
    execSafetyInputAssert_answers h, execSafeDiscrep_answers h, execTestPulseStart_answers h, execTestPulseEnd_answers h,
    execTestRecoveryEnd_answers h, execResetPinFall_answers h, execResetPinRise_answers h, execResetRelease_answers h,
    execResetStuck_answers h, execSafeLatchClear_answers h, execFaultHistClear_answers h, execTripCountClear_answers h,
    execRetentionWrite_answers h, execRetentionReadback_answers h, execIlkInChange_answers h, execAbsentClaim_answers h,
    execLostClaim_answers h, execIlkOpen_answers h, execFrozenClear_answers h, execStatusFrameLaunch_answers h,
    execStatusFrame_answers h, execInputFrameLaunch_answers h, execInputFrame_answers h, execMirrorPoint_answers h,
    execJoinFrameLaunch_answers h, execJoinFrame_answers h, execHandover_answers h, execRejoin_answers h,
    execFwdRequest_answers h, execPortDown_answers h, execClaim_answers h, execKeepalive_answers h,
    execOwnerHandover_answers h, execOwnerRelease_answers h, execHandoverComplete_answers h, execLeaseExpire_answers h,
    execMspiRead_answers h, execMspiWrite_answers h, execMspiReadGrn_answers h, execMspiWriteGrn_answers h,
    execMspiStatus_answers h, execMspiClaim_answers h, execMspiKeepalive_answers h, execCmdDoorbell_answers h,
    execEventHeadDoorbell_answers h, execTelHeadDoorbell_answers h, execDumpHeadDoorbell_answers h,
    execRingEnable_answers h, execCmdNop_answers h, execCmdWrite_answers h, execCmdWriteDm_answers h,
    execCmdWriteGrn_answers h, execCmdEvent_answers h, execCmdFence_answers h, execFenceComplete_answers h,
    execMailboxGo_answers h, execEventWrite_answers h, execEventVectorTimeout_answers h, execStatusBlockWrite_answers h,
    execTelRecordWritten_answers h, execDumpCopyDone_answers h, execDmaDoorbell_answers h,
    execDmaDescriptorFetch_answers h, execDmaDescriptorEnd_answers h, execDmaDisable_answers h,
    execDmaDisableDone_answers h, execBar2Read_answers h, execBar2Write_answers h, execOffsetRequest_answers h,
    execAbsoluteSet_answers h, execSlewEnd_answers h, execRampUpdate_answers h, execTimRequestApply_answers h,
    execEthLinkChange_answers h, execAnRestart_answers h, execEthFrameReceived_answers h, execTxDescriptorPoll_answers h,
    execEthFrameSent_answers h, execEspHold_answers h, execEspHoldRelease_answers h, execCanEnable_answers h,
    execCanModeApply_answers h, execCanPush_answers h, execCanFeedPoll_answers h, execCanAbortHead_answers h,
    execCanFlush_answers h, execCanRecover_answers h, execCanTxAttemptEnd_answers h, execCanRecoveryDone_answers h,
    execCanFrameReceived_answers h, execCanObjectWrite_answers h, execEccWriteback_answers h,
    execGranaryInitDone_answers h, execPatrolScrub_answers h, execDieTempMeasure_answers h, execPortLinkUp_answers h,
    execLrefReturn_answers h]

/-- A step takes the front command off the queue; but for that, what it answers follows the state. -/
theorem step_answers (s : State) : State.Answers { s with pending := s.pending.tail } (step s) := by
  unfold step
  split
  · next h =>
    have hs : ({ s with pending := s.pending.tail } : State) = s := by rw [h]; cases s; cases h; rfl
    rw [hs]
    exact .next State.Follows.refl.idleTick
  · next h =>
    rw [h]
    exact exec_answers .refl

end Sys2Proof.Machine
end

section
/-! What every step keeps. -/

namespace Sys2Proof.Machine

/-- Settles O58: every row's outcome is a next state, and so is the tick of an empty queue. -/
theorem everyCommandAnswersANextState : Obligations.EveryCommandAnswersANextState := by
  unfold Obligations.EveryCommandAnswersANextState
  constructor
  · intro c s
    obtain ⟨t, ht, _⟩ := exec_answers (c := c) (s := s) .refl
    exact ⟨t, ht⟩
  · intro s
    obtain ⟨t, ht, _⟩ := step_answers s
    exact ⟨t, ht⟩

/-- Settles O59: the state that a step answers has come by operations each of which keeps the sound state. -/
theorem stepKeepsTheStateSound : Obligations.StepKeepsTheStateSound := by
  unfold Obligations.StepKeepsTheStateSound
  intro s t hs hstep
  obtain ⟨u, hu, hsound, _⟩ := step_answers s
  rw [hstep] at hu
  cases hu
  exact hsound hs

end Sys2Proof.Machine
end

section
/-! SUPPORT. A write that is discarded ends like every command with what follows it at once, and there muster_done falls in MUSTER
where a condition of it has ceased to hold (R55): the state in which that refutes "changes nothing". -/

namespace Sys2Proof.Machine
set_option maxRecDepth 100000

/-- A running device in MUSTER, its muster_done up and its first safety input asserted, so that R55 has muster_done fall. -/
def musterAsserted : State :=
  { State.reset with mode := .muster, ctl := { State.reset.ctl with musterDone := true },
                     pwr := { State.reset.pwr with porstLow := false, pllLocked := true, pllOnce := true } }
    |>.setF (F.SAF_IN_CFG_en 0) 1 |>.setF F.SAF_STAT_in_now 1

theorem musterAsserted_live : musterAsserted.live = true := by decide +kernel

theorem musterAsserted_settled : musterAsserted.Settled := by decide +kernel

theorem musterAsserted_musterDone : musterAsserted.ctl.musterDone = true := rfl

theorem settle_musterAsserted_musterDone : musterAsserted.settle.ctl.musterDone = false := by decide +kernel

theorem settle_narrowWrite_musterAsserted_musterDone :
    (musterAsserted.narrowWrite .port0 0).settle.ctl.musterDone = false := by decide +kernel

theorem narrowWrite_musterDone (s : State) (m : Master) (addr : Nat) :
    (s.narrowWrite m addr).ctl.musterDone = s.ctl.musterDone := by simp [State.narrowWrite]

theorem exec_unprivileged_musterAsserted :
    exec (.registerWrite .port0 0 4 0) musterAsserted = .next musterAsserted.settle := rfl

theorem exec_narrow_musterAsserted :
    exec (.registerWrite .port0 0 1 0) musterAsserted = .next (musterAsserted.narrowWrite .port0 0).settle := rfl

end Sys2Proof.Machine
end

section
/-! Writes that are discarded (R6 to R8). -/

open Sys2Proof.Machine

namespace Sys2Proof

/-- Refutes O17: a write through the unprivileged view is followed at once by the fall of muster_done, where R55 has it fall. -/
theorem not_writesByOthersAreDiscarded : ¬ Obligations.WritesByOthersAreDiscarded := by
  unfold Obligations.WritesByOthersAreDiscarded
  intro h
  obtain ⟨hview, -⟩ := h musterAsserted .port0 .mspiClaim 0 0 musterAsserted_live musterAsserted_settled
  have hsame : musterAsserted.settle = musterAsserted :=
    Host.Outcome.next.inj (exec_unprivileged_musterAsserted.symm.trans (hview rfl (by decide)))
  have hfall := settle_musterAsserted_musterDone
  rw [hsame, musterAsserted_musterDone] at hfall
  exact absurd hfall (by decide)

/-- Refutes O18: a write of one byte is followed at once by the fall of muster_done, where R55 has it fall. -/
theorem not_accessWidthAndAlignment : ¬ Obligations.AccessWidthAndAlignment := by
  unfold Obligations.AccessWidthAndAlignment
  intro h
  obtain ⟨hnarrow, -⟩ := h musterAsserted .port0 0 1 0 musterAsserted_live musterAsserted_settled
  have hsame : (musterAsserted.narrowWrite .port0 0).settle = musterAsserted.narrowWrite .port0 0 :=
    Host.Outcome.next.inj (exec_narrow_musterAsserted.symm.trans (hnarrow (.inl rfl)))
  have hfall := settle_narrowWrite_musterAsserted_musterDone
  rw [hsame, narrowWrite_musterDone, musterAsserted_musterDone] at hfall
  exact absurd hfall (by decide)

end Sys2Proof
end

section
/-! SUPPORT. Reads of one word by a master (R8, R9, R12). -/

namespace Sys2Proof.Machine

/-! ### The access -/

theorem State.masterRead_word {s : State} {m : Master} {addr : Nat} (hlive : s.live = true) (hlt : addr < 2 * privBase)
    (hal : addr % 4 = 0) : s.masterRead m addr 4 = (leBytes 4 (s.readWord m addr 0 4).1, (s.readWord m addr 0 4).2) := by
  simp [State.masterRead, hlive, hlt.not_ge, hal, leBytes]

/-- A read of one word answers the word, and leaves the state that `readWord` does. -/
theorem exec_snapshotRead_word {s : State} {m : Master} {addr : Nat} (hlive : s.live = true) (hlt : addr < 2 * privBase)
    (hal : addr % 4 = 0) :
    exec (.snapshotRead m addr 4) s
      = .next { (s.readWord m addr 0 4).2 with rdata := leBytes 4 (s.readWord m addr 0 4).1, poisoned := false } := by
  simp only [exec, execSnapshotRead, State.answer, State.masterRead_word hlive hlt hal]

theorem exec_readClear_word {s : State} {m : Master} {addr : Nat} (hlive : s.live = true) (hlt : addr < 2 * privBase)
    (hal : addr % 4 = 0) :
    exec (.readClear m addr 4) s
      = .next { (s.readWord m addr 0 4).2 with rdata := leBytes 4 (s.readWord m addr 0 4).1, poisoned := false } := by
  simp only [exec, execReadClear, State.answer, State.masterRead_word hlive hlt hal]

/-! ### The word -/

section
variable {s : State} {m : Master} {off first count i j : Nat} {d : RegDef}

theorem State.readWord_of_lookup (hlook : lookup off = some (d, i, j)) (hoff : off < privBase) (hpriv : d.priv = false)
    (hhigh : isSnapHigh d.reg = false) :
    s.readWord m off first count = (s.visible d.reg i j off, s.readEffects m d i j off first count) := by
  simp [State.readWord, Nat.mod_eq_of_lt hoff, hlook, hpriv, hhigh]

/-- A high half reads as the master's snapshot of it. -/
theorem State.readWord_snapHigh (hlook : lookup off = some (d, i, j)) (hoff : off < privBase) (hpriv : d.priv = false)
    (hhigh : isSnapHigh d.reg = true) :
    s.readWord m off first count = ((tget 0 s.snaps (snapKey m off)).toNat, s) := by
  simp [State.readWord, Nat.mod_eq_of_lt hoff, hlook, hpriv, hhigh]

end

theorem leBytes_mod (n v : Nat) : leBytes n (v % 2 ^ (8 * n)) = leBytes n v := by
  induction n generalizing v with
  | zero => rfl
  | succ n ih =>
    have hlow : BitVec.ofNat 8 (v % 2 ^ (8 * (n + 1))) = BitVec.ofNat 8 v := by
      apply BitVec.eq_of_toNat_eq
      simp only [BitVec.toNat_ofNat]
      exact Nat.mod_mod_of_dvd v (pow_dvd_pow 2 (by omega))
    have hhigh : v % 2 ^ (8 * (n + 1)) / 256 = v / 256 % 2 ^ (8 * n) := by
      rw [show 2 ^ (8 * (n + 1)) = 256 * 2 ^ (8 * n) by rw [Nat.mul_succ, Nat.pow_add]; omega]
      exact Nat.mod_mul_right_div_self ..
    simp only [leBytes, hlow, hhigh, ih]

/-! ### Snapshots -/

/-- A master takes the snapshot of a value. -/
def State.snap (s : State) (m : Master) (off v : Nat) : State :=
  { s with snaps := tput 0 s.snaps (snapKey m off) (BitVec.ofNat 32 v) }

theorem State.snap_same (s : State) (m : Master) (off v : Nat) :
    (tget 0 (s.snap m off v).snaps (snapKey m off)).toNat = v % 2 ^ 32 := by
  simp [State.snap]

theorem State.snap_ne (s : State) (m : Master) {off key : Nat} (v : Nat) (h : key ≠ snapKey m off) :
    tget 0 (s.snap m off v).snaps key = tget 0 s.snaps key := by
  simp [State.snap, tget_tput_ne _ _ _ h]

theorem masterNum_injective : Function.Injective masterNum := by
  intro k m h
  cases k <;> cases m <;> simp_all [masterNum]

theorem snapKey_ne {m k : Master} {a b : Nat} (ha : a < 2 ^ 24) (hb : b < 2 ^ 24) (hkm : k ≠ m) : snapKey k a ≠ snapKey m b := by
  have hnum : masterNum k ≠ masterNum m := masterNum_injective.ne hkm
  unfold snapKey
  omega

theorem lookup_TIM_NOW_NS :
    lookup R.TIM_NOW_NS = some (⟨.TIM_NOW_NS, 0xF0000, 1, 0, 1, 0, false, 0, [⟨29, 0, .snap, .none⟩]⟩, 0, 0) := rfl

theorem lookup_TIM_NOW_SEC_LO :
    lookup R.TIM_NOW_SEC_LO = some (⟨.TIM_NOW_SEC_LO, 0xF0004, 1, 0, 1, 0, false, 0, [⟨31, 0, .snap, .none⟩]⟩, 0, 0) := rfl

theorem lookup_TIM_NOW_SEC_HI :
    lookup R.TIM_NOW_SEC_HI
      = some (⟨.TIM_NOW_SEC_HI, 0xF0008, 1, 0, 1, 0, false, 0, [⟨23, 16, .snap, .none⟩, ⟨15, 0, .snap, .none⟩]⟩, 0, 0) := rfl

theorem lookup_GLB_PERIOD_POS_LO :
    lookup R.GLB_PERIOD_POS_LO = some (⟨.GLB_PERIOD_POS_LO, 0x120, 1, 0, 1, 0, false, 0, [⟨16, 0, .snap, .none⟩]⟩, 0, 0) := rfl

theorem lookup_GLB_PERIOD_POS_HI :
    lookup R.GLB_PERIOD_POS_HI = some (⟨.GLB_PERIOD_POS_HI, 0x124, 1, 0, 1, 0, false, 0, [⟨31, 0, .snap, .none⟩]⟩, 0, 0) := rfl

/-- A read of the nanoseconds takes the snapshots of both upper words. -/
theorem State.readWord_TIM_NOW_NS (s : State) (m : Master) :
    s.readWord m R.TIM_NOW_NS 0 4
      = (s.now.ns % nsPerSec, (s.snap m R.TIM_NOW_SEC_LO (s.now.ns / nsPerSec % 2 ^ 32)).snap m R.TIM_NOW_SEC_HI
          (s.now.ns / nsPerSec / 2 ^ 32 % 2 ^ 16 + s.now.frac / 2 ^ 24 * 2 ^ 16)) := by
  rw [State.readWord_of_lookup lookup_TIM_NOW_NS (by decide) rfl rfl]
  rfl

theorem State.readWord_TIM_NOW_SEC_LO (s : State) (m : Master) :
    s.readWord m R.TIM_NOW_SEC_LO 0 4 = ((tget 0 s.snaps (snapKey m R.TIM_NOW_SEC_LO)).toNat, s) :=
  State.readWord_snapHigh lookup_TIM_NOW_SEC_LO (by decide) rfl rfl

theorem State.readWord_GLB_PERIOD_POS_LO (s : State) (m : Master) :
    s.readWord m R.GLB_PERIOD_POS_LO 0 4 = (min 0x1FFFF (s.now.ns - s.pN), s.snap m R.GLB_PERIOD_POS_HI s.periodNum) := by
  rw [State.readWord_of_lookup lookup_GLB_PERIOD_POS_LO (by decide) rfl rfl]
  rfl

theorem State.readWord_GLB_PERIOD_POS_HI (s : State) (m : Master) :
    s.readWord m R.GLB_PERIOD_POS_HI 0 4 = ((tget 0 s.snaps (snapKey m R.GLB_PERIOD_POS_HI)).toNat, s) :=
  State.readWord_snapHigh lookup_GLB_PERIOD_POS_HI (by decide) rfl rfl

/-! ### Clearing reads -/

theorem lookup_NCL_ERRCNT (l : Fin 48) :
    lookup (R.NCL_ERRCNT l)
      = some ((⟨.NCL_ERRCNT, 0xA0008, 48, 0x400, 1, 0, false, 0, [⟨31, 16, .rc, .none⟩, ⟨15, 0, .rc, .none⟩]⟩ : RegDef), (l : Nat), 0) := by
  fin_cases l <;> rfl

theorem bitsOf_and (a b hi lo : Nat) : bitsOf (a &&& b) hi lo = bitsOf a hi lo &&& bitsOf b hi lo := by
  simp only [bitsOf, ← Nat.shiftRight_eq_div_pow, Nat.shiftRight_and_distrib, Nat.and_mod_two_pow]

/-- A field that is cleared whole keeps the bits that the device has set in the same cycle (R11). -/
theorem State.rd_clearBits_all (s : State) (off : Nat) {hi lo : Nat} (hlo : lo ≤ hi) (hhi : hi < 32) :
    (s.clearBits off hi lo (2 ^ (hi + 1 - lo) - 1)).rd off
      = setBits (s.rd off) hi lo (bitsOf (s.rd off &&& s.justSet off) hi lo) := by
  have hall : bitsOf (s.rd off) hi lo &&& 2 ^ (hi + 1 - lo) - 1 = bitsOf (s.rd off) hi lo := by
    rw [Nat.and_two_pow_sub_one_eq_mod, Nat.mod_eq_of_lt (bitsOf_lt _ hi lo)]
  have hle : bitsOf (s.rd off) hi lo &&& bitsOf (s.justSet off) hi lo ≤ bitsOf (s.rd off) hi lo := Nat.and_le_left
  simp only [State.clearBits, hall, State.rd_wr_same, bitsOf_and, Nat.sub_sub_self hle]
  exact Nat.mod_eq_of_lt (setBits_lt hhi hlo (s.rd_lt off))

theorem State.justSet_clearBits (s : State) (off hi lo m off' : Nat) : (s.clearBits off hi lo m).justSet off' = s.justSet off' := by
  simp [State.justSet]

theorem State.rd_clearBits_ne (s : State) {off off' : Nat} (hi lo m : Nat) (h : off' ≠ off) :
    (s.clearBits off hi lo m).rd off' = s.rd off' := s.rd_wr_ne _ h

/-- Both counts of a register of two 16-bit RC fields are cleared. -/
def State.clearHalves (s : State) (off : Nat) : State :=
  (s.clearBits off 31 16 (2 ^ 16 - 1)).clearBits off 15 0 (2 ^ 16 - 1)

theorem eq_of_bitsOf_halves {a b : Nat} (ha : a < 2 ^ 32) (hb : b < 2 ^ 32) (hhigh : bitsOf a 31 16 = bitsOf b 31 16)
    (hlow : bitsOf a 15 0 = bitsOf b 15 0) : a = b := by
  simp only [bitsOf, Nat.reduceAdd, Nat.reduceSub, Nat.reducePow, Nat.div_one, pow_zero] at hhigh hlow
  omega

theorem State.rd_clearHalves_same (s : State) (off : Nat) : (s.clearHalves off).rd off = (s.rd off &&& s.justSet off) := by
  have hrd := (s.clearBits off 31 16 (2 ^ 16 - 1)).rd_clearBits_all off (hi := 15) (lo := 0) (by omega) (by omega)
  have hone := s.rd_clearBits_all off (hi := 31) (lo := 16) (by omega) (by omega)
  refine eq_of_bitsOf_halves (State.rd_lt ..) (Nat.and_le_left.trans_lt (s.rd_lt off)) ?_ ?_
  · rw [State.clearHalves, hrd, bitsOf_setBits_above _ _ _ _ (by omega) (by omega), hone, bitsOf_setBits_same]
    exact Nat.mod_eq_of_lt (bitsOf_lt ..)
  · rw [State.clearHalves, hrd, bitsOf_setBits_same, Nat.mod_eq_of_lt (bitsOf_lt ..), bitsOf_and, bitsOf_and,
      State.justSet_clearBits, hone, bitsOf_setBits_below _ _ _ _ (by omega)]

theorem State.rd_clearHalves_ne (s : State) (off : Nat) {off' : Nat} (h : off' ≠ off) : (s.clearHalves off).rd off' = s.rd off' := by
  rw [State.clearHalves, State.rd_clearBits_ne _ _ _ _ h, State.rd_clearBits_ne _ _ _ _ h]

theorem State.clearHalves_events (s : State) (off : Nat) : (s.clearHalves off).events = s.events := by simp [State.clearHalves]

theorem R.NCL_ERRCNT_word (l : Fin 48) : R.NCL_ERRCNT l < privBase ∧ R.NCL_ERRCNT l % 4 = 0 := by
  have := l.isLt
  unfold R.NCL_ERRCNT privBase
  omega

theorem State.readWord_NCL_ERRCNT (s : State) (m : Master) (l : Fin 48) :
    s.readWord m (R.NCL_ERRCNT l) 0 4 = (s.rd (R.NCL_ERRCNT l), s.clearHalves (R.NCL_ERRCNT l)) := by
  rw [State.readWord_of_lookup (lookup_NCL_ERRCNT l) (R.NCL_ERRCNT_word l).1 rfl rfl]
  rfl

end Sys2Proof.Machine
end

section
/-! Snapshots and clearing reads (R9, R11, R12). -/

open Sys2Proof.Machine

namespace Sys2Proof

/-- Settles O20: a low half's read takes the snapshots of the upper halves for its master alone, and a clearing read clears both counts. -/
theorem snapshotsAndReadClear : Obligations.SnapshotsAndReadClear := by
  unfold Obligations.SnapshotsAndReadClear
  intro s u m k l hs hu
  refine ⟨⟨_, exec_snapshotRead_word hs (by decide) (by decide), ?_⟩, ⟨_, exec_snapshotRead_word hs (by decide) (by decide), ?_⟩,
    fun hnone => ⟨_, exec_snapshotRead_word hs (by decide) (by decide), ?_⟩, ?_⟩
  · rw [State.readWord_TIM_NOW_NS]
    refine ⟨rfl, rfl, fun hkm off hoff => ?_, fun hsnaps => ⟨_, exec_snapshotRead_word hu (by decide) (by decide), ?_⟩⟩
    · exact (State.snap_ne _ _ _ (snapKey_ne hoff (by decide) hkm)).trans (State.snap_ne _ _ _ (snapKey_ne hoff (by decide) hkm))
    · have hkeys : snapKey m R.TIM_NOW_SEC_LO ≠ snapKey m R.TIM_NOW_SEC_HI := by unfold snapKey; simp [R.TIM_NOW_SEC_LO, R.TIM_NOW_SEC_HI]
      simp only [State.readWord_TIM_NOW_SEC_LO, hsnaps, State.snap_ne _ _ _ hkeys, State.snap_same, Nat.mod_mod]
  · rw [State.readWord_GLB_PERIOD_POS_LO]
    refine ⟨rfl, fun hsnaps => ⟨_, exec_snapshotRead_word hu (by decide) (by decide), ?_⟩⟩
    simp only [State.readWord_GLB_PERIOD_POS_HI, hsnaps, State.snap_same]
    exact leBytes_mod 4 s.periodNum
  · simp only [State.readWord_GLB_PERIOD_POS_HI, hnone]
    rfl
  · obtain ⟨hlt, hal⟩ := R.NCL_ERRCNT_word l
    refine ⟨_, exec_readClear_word hs (by omega) hal, ?_⟩
    rw [State.readWord_NCL_ERRCNT]
    exact ⟨rfl, s.rd_clearHalves_same (R.NCL_ERRCNT l), fun off hoff => s.rd_clearHalves_ne (R.NCL_ERRCNT l) hoff, s.clearHalves_events (R.NCL_ERRCNT l)⟩

end Sys2Proof
end

section
/-! SUPPORT. A once sweep that completes in the cycle of a trip which takes a mode change of that cycle back (R49): the event of the
mode change, raised before, is withdrawn, and the events raised since are one fewer than the sweep has raised. -/

namespace Sys2Proof.Machine
set_option maxRecDepth 100000

/-- An update that is due of a chirp. -/
theorem exec_injUpdate_chirp {s : State} {e : Fin 12} (hlive : s.live = true) (hrun : s.fb (F.ENG_INJ_STAT_running e) = true)
    (htick : (s.eng e).inj.tickLeft = 0) (hkind : (s.eng e).inj.kind = 1) :
    exec (.injUpdate e) s
      = .next ((s.modEng e (fun x => { x with inj := { x.inj with tickLeft := (s.eng e).inj.div } })).injChirp e) := by
  simp [exec, execInjUpdate, hlive, hrun, htick, hkind]

/-- READY was entered in this cycle, its event is not yet written, an overrun limit has been reached in the same cycle, and the once
sweep of engine 0 is at its last update. -/
def sweepEndInTrip : State :=
  ({ State.reset with
     mode := .ready
     pwr := { State.reset.pwr with porstLow := false, pllLocked := true, pllOnce := true }
     ctl := { State.reset.ctl with evald := some { cyc := 0, target := 5, old := .precharge, new := .ready, log := 0, seq := 0 } }
     sched := { State.reset.sched with limitHit := true }
     events := [{ code := .modeChange, source := 0, seq := 0, time := 0, payload := [] }]
     evSeq := 1 }
    |>.modEng 0 (fun x => { x with inj := { Inj.reset with kind := 1, once := true } }))
    |>.setF (F.ENG_INJ_STAT_running 0) 1

theorem sweepEndInTrip_live : sweepEndInTrip.live = true := by decide +kernel

theorem sweepEndInTrip_running : sweepEndInTrip.fb (F.ENG_INJ_STAT_running (0 : Fin 12)) = true := by decide +kernel

theorem sweepEndInTrip_inj : (sweepEndInTrip.eng (0 : Fin 12)).inj = { Inj.reset with kind := 1, once := true } := by decide +kernel

/-- The trip withdraws the mode change's event, and INJ_DONE stands where it stood. -/
theorem injDone_not_raised_sweepEndInTrip :
    .injDone ∉ sweepEndInTrip.raised
      ((sweepEndInTrip.modEng (0 : Fin 12) (fun x => { x with inj := { x.inj with tickLeft := 1 } })).injChirp (0 : Fin 12)) := by decide +kernel

end Sys2Proof.Machine
end

section
/-! The windows into the engine memories, and the injection generators (R222, R231 to R233, R235, R236). -/

open Sys2Proof.Machine

namespace Sys2Proof

/-- Refutes O13: where event 0x0F of a completed sweep makes the trip of an overrun limit, and the trip takes back a mode change of
the same cycle, INJ_DONE is not among the events past those that stood before. -/
theorem not_engineMemoryWindowsAndInjection : ¬ Obligations.EngineMemoryWindowsAndInjection := by
  unfold Obligations.EngineMemoryWindowsAndInjection
  intro h
  obtain ⟨-, -, -, -, -, honce, -⟩ := h.2 sweepEndInTrip .port0 0
  have hinj := sweepEndInTrip_inj
  have hkind : (sweepEndInTrip.eng (0 : Fin 12)).inj.kind = 1 := by rw [hinj]
  have htick : (sweepEndInTrip.eng (0 : Fin 12)).inj.tickLeft = 0 := by rw [hinj]; rfl
  obtain ⟨t, ht, -, -, hdone⟩ := honce ⟨sweepEndInTrip_live, sweepEndInTrip_running, htick⟩ hkind (by rw [hinj]; rfl) (by rw [hinj])
  rw [exec_injUpdate_chirp (e := 0) sweepEndInTrip_live sweepEndInTrip_running htick hkind, hinj] at ht
  rw [← Host.Outcome.next.inj ht] at hdone
  exact injDone_not_raised_sweepEndInTrip hdone

end Sys2Proof
end

section
/-! SUPPORT. A write of the maintenance SPI on which an edge record of the same cycle stands (R227). -/

namespace Sys2Proof.Machine
set_option maxRecDepth 100000

/-- A running device that the maintenance SPI owns, where a record of this cycle has written ENG_PM_ADDR of engine 0. -/
def pmAddrRecorded : State :=
  { State.reset with pwr := { State.reset.pwr with porstLow := false, pllLocked := true, pllOnce := true },
                     pwmIo := { State.reset.pwmIo with recAt := 0, recs := [R.ENG_PM_ADDR 0] } }
    |>.setF F.HIF_OWN_STAT_owner 2

theorem pmAddrRecorded_live : pmAddrRecorded.live = true := by decide +kernel

theorem pmAddrRecorded_settled : pmAddrRecorded.Settled := by decide +kernel

theorem pmAddrRecorded_isOwner : pmAddrRecorded.isOwner .mspi = true := by decide +kernel

/-- What an SPI write of one word answers while the device runs. -/
theorem exec_mspiWrite_word {s : State} {addr : BitVec 24} {v : W32} (hlive : s.live = true) :
    exec (.mspiWrite addr [v] 0) s
      = .next ((s.mspiWrites addr.toNat [v]).mspiPartial s ((addr.toNat + 4) % 2 ^ 24) 0).settle := by
  simp [exec, execMspiWrite, hlive]

theorem pmAddr_of_mspiWrite_pmAddrRecorded :
    (((pmAddrRecorded.mspiWrites 0x860010 [1]).mspiPartial pmAddrRecorded 0x860014 0).settle).f (F.ENG_PM_ADDR_addr (0 : Fin 12)) = 0 := by
  decide +kernel

end Sys2Proof.Machine
end

section
/-! BAR2 and the maintenance SPI (R368, R375, R449). -/

open Sys2Proof.Machine

namespace Sys2Proof

/-- Refutes O29: the SPI's write of ENG_PM_ADDR is overruled where the state holds a record of that register made in the same cycle,
which the statement does not exclude. -/
theorem not_granaryWindowsAndMaintenanceSpi : ¬ Obligations.GranaryWindowsAndMaintenanceSpi := by
  unfold Obligations.GranaryWindowsAndMaintenanceSpi
  intro h
  obtain ⟨-, -, -, -, -, -, -, -, hwrite, -⟩ :=
    h pmAddrRecorded .mspi 0 0 0 [] 0x860010 0 1 0 0 pmAddrRecorded_live pmAddrRecorded_settled
  obtain ⟨t, ht, haddr, -⟩ := hwrite 0 pmAddrRecorded_isOwner (by decide)
  rw [exec_mspiWrite_word pmAddrRecorded_live] at ht
  rw [← Host.Outcome.next.inj ht] at haddr
  exact absurd (pmAddr_of_mspiWrite_pmAddrRecorded.symm.trans haddr) (by decide)

end Sys2Proof
end

section
/-! SUPPORT. What follows a write at once is nothing but the fall of muster_done, where the state is settled; the writes of the locked
timing registers (R9, R10, R13). -/

namespace Sys2Proof.Machine

/-! ### What follows a write in a settled state -/

theorem State.Settled.catchUp {s : State} (h : s.Settled) : s.catchUp = s := by
  obtain ⟨-, -, hplan, -⟩ := h
  simp [State.catchUp, hplan]

theorem State.Settled.overrunTrip {s : State} (h : s.Settled) : s.overrunTrip = s := by
  obtain ⟨-, hlimit, -, -⟩ := h
  simp [State.overrunTrip, hlimit]

theorem State.Settled.mboxRun {s : State} (h : s.Settled) : s.mboxRun = s := by
  obtain ⟨hmbox, -, -, -⟩ := h
  simp [State.mboxRun, hmbox]

theorem State.Settled.flushCaptured {s : State} (h : s.Settled) : s.flushCaptured = s := by
  obtain ⟨-, -, -, hrun | ⟨hdeferred, hlast, hnow⟩⟩ := h
  · simp [State.flushCaptured, hrun]
  · have hpair : { s.pair with deferred := [], capLast := [], capNow := [] } = s.pair := by
      generalize s.pair = p at hdeferred hlast hnow ⊢
      cases p
      simp_all only
    simp [State.flushCaptured, State.modPair, hdeferred, hlast, hnow, hpair]

theorem State.Settled.settle {s : State} (h : s.Settled) : s.settle = s.musterLapse := by
  rw [State.settle, h.catchUp, h.overrunTrip, h.flushCaptured, h.mboxRun, h.overrunTrip]

theorem State.musterLapse_keeps (s : State) : s.musterLapse.regs = s.regs ∧ s.musterLapse.events = s.events := by
  unfold State.musterLapse
  split <;> exact ⟨rfl, rfl⟩

/-- A settled state's registers and events stand when what follows a write has happened. -/
theorem State.Settled.settle_keeps {s : State} (h : s.Settled) : s.settle.regs = s.regs ∧ s.settle.events = s.events := by
  rw [h.settle]
  exact s.musterLapse_keeps

/-! ### Operations on registers and events alone -/

theorem State.RegsOnly.refl (s : State) : s.RegsOnly s := rfl

theorem State.RegsOnly.trans {s t u : State} (h : s.RegsOnly t) (h' : t.RegsOnly u) : s.RegsOnly u := by
  unfold State.RegsOnly at *
  rw [h] at h'
  exact h'

theorem State.RegsOnly.wr {s t : State} (h : s.RegsOnly t) (off v : Nat) : s.RegsOnly (t.wr off v) := h.trans rfl

theorem State.RegsOnly.setF {s t : State} (h : s.RegsOnly t) (x : Fld) (v : Nat) : s.RegsOnly (t.setF x v) := h.wr ..

theorem State.RegsOnly.bumpF {s t : State} (h : s.RegsOnly t) (x : Fld) (k : Nat) : s.RegsOnly (t.bumpF x k) := h.trans rfl

theorem State.RegsOnly.raiseP {s t : State} (h : s.RegsOnly t) (c : EvCode) (src : Nat) (p : List Byte) :
    s.RegsOnly (t.raiseP c src p) := h.trans rfl

theorem State.RegsOnly.lockedOutWrite {s t : State} (h : s.RegsOnly t) (w : WSrc) (off : Nat) : s.RegsOnly (t.lockedOutWrite w off) :=
  (h.bumpF _ _).raiseP ..

theorem State.RegsOnly.forEach {s t : State} {g : State → Nat → State} (is : List Nat) (h : s.RegsOnly t)
    (hg : ∀ u i, s.RegsOnly u → s.RegsOnly (g u i)) : s.RegsOnly (t.forEach is g) := by
  unfold State.forEach
  induction is generalizing t with
  | nil => exact h
  | cons i is ih => exact ih (hg t i h)

/-- n_installed is shown per arm (R40). -/
def State.showInstalled (s : State) (arms : List Nat) : State :=
  s.forEach arms (fun s a => s.setF (F.GLB_ARM_STAT_n_installed a) (min (s.nInstalled a) 1023))

/-- The map's evaluation shows n_installed, and its result in GLB_MAP_STAT. -/
theorem State.mapCheck_eq (s : State) : ∃ v, s.mapCheck = (s.showInstalled (upto 12)).wr R.GLB_MAP_STAT v := by
  unfold State.mapCheck
  dsimp only
  split
  · exact ⟨_, rfl⟩
  · exact ⟨_, rfl⟩

theorem State.showInstalled_cons (s : State) (a : Nat) (arms : List Nat) :
    s.showInstalled (a :: arms) = (s.setF (F.GLB_ARM_STAT_n_installed a) (min (s.nInstalled a) 1023)).showInstalled arms := rfl

theorem State.showInstalled_events (s : State) (arms : List Nat) : (s.showInstalled arms).events = s.events := by
  induction arms generalizing s with
  | nil => rfl
  | cons a arms ih => simp [State.showInstalled_cons, ih]

theorem State.showInstalled_rd (s : State) (arms : List Nat) {off : Nat} (h : ∀ a, off ≠ R.GLB_ARM_STAT a) :
    (s.showInstalled arms).rd off = s.rd off := by
  induction arms generalizing s with
  | nil => rfl
  | cons a arms ih => rw [State.showInstalled_cons, ih, s.rd_setF_ne (F.GLB_ARM_STAT_n_installed a) _ (h a)]

theorem State.mapCheck_events (s : State) : s.mapCheck.events = s.events := by
  obtain ⟨v, hv⟩ := s.mapCheck_eq
  simp [hv, State.showInstalled_events]

theorem State.mapCheck_rd (s : State) {off : Nat} (hmap : off ≠ R.GLB_MAP_STAT) (harm : ∀ a, off ≠ R.GLB_ARM_STAT a) :
    s.mapCheck.rd off = s.rd off := by
  obtain ⟨v, hv⟩ := s.mapCheck_eq
  rw [hv, State.rd_wr_ne _ _ hmap, s.showInstalled_rd _ harm]

theorem State.RegsOnly.mapCheck {s t : State} (h : s.RegsOnly t) : s.RegsOnly t.mapCheck := by
  obtain ⟨v, hv⟩ := t.mapCheck_eq
  rw [hv]
  exact (h.forEach _ fun u a hu => hu.setF _ _).wr ..

theorem State.RegsOnly.settled {s t : State} (h : s.RegsOnly t) (hs : s.Settled) : t.Settled := by
  rw [h]
  exact hs

/-! ### The writes -/

/-- The registers of the control period, which have no rule of their own for what they store. -/
def timingRegs : List Reg :=
  [.GLB_PERIOD, .GLB_GATHER_DEADLINE, .GLB_ORDER_OFFSET, .GLB_EDGE_OFFSET, .GLB_ORIGIN_NS, .GLB_ORIGIN_SEC_LO, .GLB_ORIGIN_SEC_HI,
    .NCL_CELL_LIMIT]

theorem mem_timingRegs {reg : Reg} :
    reg ∈ timingRegs ↔ reg = .GLB_PERIOD ∨ reg = .GLB_GATHER_DEADLINE ∨ reg = .GLB_ORDER_OFFSET ∨ reg = .GLB_EDGE_OFFSET
      ∨ reg = .GLB_ORIGIN_NS ∨ reg = .GLB_ORIGIN_SEC_LO ∨ reg = .GLB_ORIGIN_SEC_HI ∨ reg = .NCL_CELL_LIMIT := by
  simp [timingRegs]

section
variable {s : State} {w : WSrc} {reg : Reg} {i j off v old : Nat}

theorem State.premask_timingReg (h : reg ∈ timingRegs) : s.premask reg i off v = v := by
  obtain rfl | rfl | rfl | rfl | rfl | rfl | rfl | rfl := mem_timingRegs.mp h <;> rfl

theorem State.writeAside_timingReg (h : reg ∈ timingRegs) : s.writeAside w reg i off v = none := by
  obtain rfl | rfl | rfl | rfl | rfl | rfl | rfl | rfl := mem_timingRegs.mp h <;> rfl

/-- Outside CONFIGURE their write starts nothing: the map is evaluated in CONFIGURE alone. -/
theorem State.postWrite_timingReg (h : reg ∈ timingRegs) (hmode : s.mode ≠ .configure) :
    s.postWrite w reg i j off old v = s := by
  obtain rfl | rfl | rfl | rfl | rfl | rfl | rfl | rfl := mem_timingRegs.mp h
  exacts [if_neg hmode, if_neg hmode, if_neg hmode, if_neg hmode, rfl, rfl, rfl, rfl]

theorem State.postWrite_GLB_PERIOD (hmode : s.mode = .configure) : s.postWrite w .GLB_PERIOD i j off old v = s.mapCheck := if_pos hmode

theorem State.writeField_rwl {fd : FieldDef} (hacc : fd.acc = .rwl) (hmode : s.mode ≠ .configure) :
    State.writeField w reg i j off v s fd = s := by
  simp [State.writeField, hacc, hmode]

/-- Outside CONFIGURE the fields of a locked register keep their values. -/
theorem State.foldl_writeField_rwl {fds : List FieldDef} (hacc : ∀ fd ∈ fds, fd.acc = .rwl) (hmode : s.mode ≠ .configure) :
    fds.foldl (State.writeField w reg i j off v) s = s := by
  induction fds with
  | nil => rfl
  | cons fd fds ih =>
    rw [List.foldl_cons, State.writeField_rwl (hacc fd (by simp)) hmode, ih fun x hx => hacc x (by simp [hx])]

theorem State.recordStands_of_nil (h : s.pwmIo.recs = []) : s.recordStands w off = false := by simp [State.recordStands, h]

theorem State.lockedOutWrite_mode : (s.lockedOutWrite w off).mode = s.mode := by simp [State.lockedOutWrite]

/-- A write of a locked timing register outside CONFIGURE reports a value that differs, and stores nothing. -/
theorem State.writeReg_locked {d : RegDef} (hlook : lookup off = some (d, i, j)) (hreg : d.reg ∈ timingRegs)
    (hacc : ∀ fd ∈ d.fields, fd.acc = .rwl) (hrecs : s.pwmIo.recs = []) (hmode : s.mode ≠ .configure) :
    s.writeReg w off v = if s.lockDiffers d off (v % 2 ^ 32) then s.lockedOutWrite w off else s := by
  have hmode' : (if s.lockDiffers d off (v % 2 ^ 32) then s.lockedOutWrite w off else s).mode ≠ .configure := by
    split
    · rwa [State.lockedOutWrite_mode]
    · exact hmode
  simp only [State.writeReg, State.recordStands_of_nil hrecs, hlook, State.writeAside_timingReg hreg, State.premask_timingReg hreg,
    Bool.false_eq_true, if_false, State.foldl_writeField_rwl hacc hmode', State.postWrite_timingReg hreg hmode']

/-! ### The access -/

theorem State.masterWrite32_owner {m : Master} (howner : s.isOwner m = true) :
    s.masterWrite32 m (privBase + off) v = s.writeReg (WSrc.ofMaster m) off v := by
  simp [State.masterWrite32, howner]

/-- The owner's write of a word through the privileged view, and what follows it. -/
theorem exec_registerWrite_owner {m : Master} {x : BitVec 64} (hlive : s.live = true) (howner : s.isOwner m = true) (hal : off % 4 = 0)
    (hx : x.toNat < 2 ^ 32) :
    exec (.registerWrite m (privBase + off) 4 x) s = .next (s.writeReg (WSrc.ofMaster m) off x.toNat).settle := by
  have hal' : (privBase + off) % 4 = 0 := by unfold privBase; omega
  have hmod : x.toNat % 4294967296 = x.toNat := Nat.mod_eq_of_lt hx
  simp [exec, execRegisterWrite, State.masterWrite, hlive, hal', hmod, State.masterWrite32_owner howner]

end

/-! ### Counts and events -/

theorem State.f_bumpF_same (s : State) (x : Fld) (k : Nat) (h : x.ok) :
    (s.bumpF x k).f x = satAdd (s.f x) k (2 ^ (x.hi + 1 - x.lo) - 1) := by
  have hle : satAdd (s.f x) k (2 ^ (x.hi + 1 - x.lo) - 1) ≤ 2 ^ (x.hi + 1 - x.lo) - 1 := by unfold satAdd; split <;> omega
  have hpos : 0 < 2 ^ (x.hi + 1 - x.lo) := by positivity
  rw [State.bumpF, State.putRc, State.f_note, State.f_setF_same _ _ _ h, Nat.mod_eq_of_lt (by omega)]

theorem State.bumpF_events (s : State) (x : Fld) (k : Nat) : (s.bumpF x k).events = s.events := by simp

theorem State.raised_of_events {s t : State} (h : t.events = s.events) : s.raised t = [] := by simp [State.raised, h]

theorem State.raised_of_append {s t : State} {es : List Event} (h : t.events = s.events ++ es) : s.raised t = es.map Event.code := by
  simp [State.raised, h]

section
variable {s : State} {w : WSrc} {off : Nat}

theorem State.lockedOutWrite_rd {off' : Nat} (h : off' ≠ R.HIF_ACC_CNT) : (s.lockedOutWrite w off).rd off' = s.rd off' :=
  s.rd_setF_ne F.HIF_ACC_CNT_locked _ h

theorem State.lockedOutWrite_locked :
    (s.lockedOutWrite w off).f F.HIF_ACC_CNT_locked = min 255 (s.f F.HIF_ACC_CNT_locked + 1) := by
  have hbump := s.f_bumpF_same F.HIF_ACC_CNT_locked 1 ⟨by decide, by decide⟩
  rw [State.f_of_regs (show (s.lockedOutWrite w off).regs = (s.bumpF F.HIF_ACC_CNT_locked 1).regs from rfl), hbump,
    show 2 ^ (F.HIF_ACC_CNT_locked.hi + 1 - F.HIF_ACC_CNT_locked.lo) - 1 = 255 from rfl, satAdd]
  split <;> omega

theorem State.lockedOutWrite_raised : s.raised (s.lockedOutWrite w off) = [.writeLocked] := by
  unfold State.lockedOutWrite State.raiseFrom
  rw [State.raised_of_append ((State.raiseP_events ..).trans (congrArg (· ++ _) (s.bumpF_events ..)))]
  rfl

end

/-! ### The fields of the timing registers -/

/-- A field of a timing register, all of whose fields are locked outside CONFIGURE. -/
def Fld.timing (x : Fld) : Prop :=
  x.off % 4 = 0 ∧ x.off ≠ R.HIF_ACC_CNT ∧ ∃ d : RegDef, lookup x.off = some (d, 0, 0) ∧ d.reg ∈ timingRegs
    ∧ (∀ fd ∈ d.fields, fd.acc = .rwl) ∧ ∃ fd ∈ d.fields, fd.hi = x.hi ∧ fd.lo = x.lo

theorem Fld.timing_of_mem {x : Fld}
    (h : x ∈ [F.GLB_PERIOD_period_steps, F.GLB_GATHER_DEADLINE_deadline_steps, F.GLB_ORDER_OFFSET_order_offset_steps,
      F.GLB_EDGE_OFFSET_edge_offset_steps, F.GLB_ORIGIN_NS_origin_ns, F.GLB_ORIGIN_SEC_LO_origin_sec_lo,
      F.GLB_ORIGIN_SEC_HI_origin_sec_hi, F.NCL_CELL_LIMIT_max_min_insert]) : x.timing := by
  simp only [List.mem_cons, List.not_mem_nil, or_false] at h
  obtain rfl | rfl | rfl | rfl | rfl | rfl | rfl | rfl := h <;>
    exact ⟨rfl, by decide, _, rfl, by decide, by decide, by decide⟩

/-- The value of a locked field differs where the word differs in it. -/
theorem State.lockDiffers_of_field {s : State} {d : RegDef} {fd : FieldDef} {off v : Nat} (hmem : fd ∈ d.fields) (hacc : fd.acc = .rwl)
    (hmode : s.mode ≠ .configure) (hne : bitsOf v fd.hi fd.lo ≠ bitsOf (s.rd off) fd.hi fd.lo) : s.lockDiffers d off v = true := by
  simp only [State.lockDiffers, Bool.and_eq_true, bne_iff_ne, List.any_eq_true, beq_iff_eq]
  exact ⟨hmode, fd, hmem, hacc, hne⟩

theorem State.lockDiffers_present (s : State) (d : RegDef) (off : Nat) : s.lockDiffers d off (s.rd off) = false := by
  simp [State.lockDiffers]

/-! ### GLB_PERIOD in CONFIGURE -/

theorem lookup_GLB_PERIOD :
    lookup R.GLB_PERIOD = some (⟨.GLB_PERIOD, 0x100, 1, 0, 1, 0, false, 0x7D0, [⟨14, 0, .rwl, .range 1000 20000⟩]⟩, 0, 0) := rfl

theorem nclamp_eq_max_min (x lo hi : Nat) (h : lo ≤ hi) : nclamp x lo hi = max lo (min hi x) := by
  unfold nclamp
  split
  · omega
  · split <;> omega

/-- The period field takes the nearest value of its range, and a clamp is reported. -/
def State.periodStore (s : State) (w : WSrc) (x : Nat) : State :=
  let y := nclamp x 1000 20000
  let t := s.setF F.GLB_PERIOD_period_steps y
  if y = x then t else t.raiseClampFrom w.source w.origin R.GLB_PERIOD 0 x y

theorem State.writeReg_GLB_PERIOD {s : State} {w : WSrc} {v : Nat} (hmode : s.mode = .configure) (hrecs : s.pwmIo.recs = []) :
    s.writeReg w R.GLB_PERIOD v = (s.periodStore w (bitsOf (v % 2 ^ 32) 14 0)).mapCheck := by
  have hdiff (d : RegDef) (off x : Nat) : s.lockDiffers d off x = false := by simp [State.lockDiffers, hmode]
  have hmode' (x : Nat) : (s.periodStore w x).mode = .configure := by
    unfold State.periodStore
    dsimp only
    split <;> simp [hmode]
  have hfield (x : Nat) : State.writeField w .GLB_PERIOD 0 0 R.GLB_PERIOD x s ⟨14, 0, .rwl, .range 1000 20000⟩
      = s.periodStore w (bitsOf x 14 0) := if_pos hmode
  have hreg : Reg.GLB_PERIOD ∈ timingRegs := by decide
  simp only [State.writeReg, State.recordStands_of_nil hrecs, lookup_GLB_PERIOD, State.writeAside_timingReg hreg,
    State.premask_timingReg hreg, hdiff, Bool.false_eq_true, if_false, List.foldl_cons, List.foldl_nil, hfield,
    State.postWrite_GLB_PERIOD (hmode' _)]

theorem State.RegsOnly.periodStore {s t : State} (h : s.RegsOnly t) (w : WSrc) (x : Nat) : s.RegsOnly (t.periodStore w x) := by
  unfold State.periodStore
  dsimp only
  split
  · exact h.setF ..
  · exact (h.setF ..).raiseP ..

theorem State.f_periodStore (s : State) (w : WSrc) (x : Nat) :
    (s.periodStore w x).f F.GLB_PERIOD_period_steps = nclamp x 1000 20000 := by
  have hlt : nclamp x 1000 20000 < 2 ^ 15 := by rw [nclamp_eq_max_min _ _ _ (by omega)]; omega
  have hset : (s.setF F.GLB_PERIOD_period_steps (nclamp x 1000 20000)).f F.GLB_PERIOD_period_steps = nclamp x 1000 20000 :=
    (s.f_setF_same _ _ ⟨by decide, by decide⟩).trans (Nat.mod_eq_of_lt hlt)
  unfold State.periodStore
  dsimp only
  split
  · exact hset
  · exact (State.f_of_regs (by simp) _).trans hset

theorem State.raised_periodStore (s : State) (w : WSrc) (x : Nat) :
    s.raised (s.periodStore w x) = if nclamp x 1000 20000 = x then [] else [.clamp] := by
  have hset : (s.setF F.GLB_PERIOD_period_steps (nclamp x 1000 20000)).events = s.events := by simp
  unfold State.periodStore
  dsimp only
  split
  · exact State.raised_of_events hset
  · rw [State.raiseClampFrom, State.raised_of_append ((State.raiseP_events ..).trans (congrArg (· ++ _) hset))]
    rfl

end Sys2Proof.Machine
end

section
/-! The locked timing registers (R9, R10, R13). -/

open Sys2Proof.Machine

namespace Sys2Proof

/-- Outside CONFIGURE a timing register keeps its word, and a field that would change is reported and counted. -/
theorem registerWrite_timing_locked {s : State} {m : Master} {v : BitVec 64} {x : Fld} (h : s.MayWrite m) (hv : v.toNat < 2 ^ 32)
    (hx : x.timing) (hmode : s.mode ≠ .configure) :
    ∃ t, exec (.registerWrite m (privBase + x.off) 4 v) s = .next t ∧ t.rd x.off = s.rd x.off
      ∧ (bitsOf v.toNat x.hi x.lo ≠ s.f x →
          .writeLocked ∈ s.raised t ∧ t.f F.HIF_ACC_CNT_locked = min 255 (s.f F.HIF_ACC_CNT_locked + 1))
      ∧ (v.toNat = s.rd x.off → s.raised t = []) := by
  obtain ⟨hlive, howner, hsettled, hrecs⟩ := h
  obtain ⟨hal, hother, d, hlook, hreg, hacc, fd, hfd, hhi, hlo⟩ := hx
  rw [exec_registerWrite_owner hlive howner hal hv, State.writeReg_locked hlook hreg hacc hrecs hmode, Nat.mod_eq_of_lt hv]
  refine ⟨_, rfl, ?_⟩
  cases hdiff : s.lockDiffers d x.off v.toNat with
  | true =>
    rw [if_pos rfl]
    obtain ⟨hregs, hevents⟩ := (((State.RegsOnly.refl s).lockedOutWrite (WSrc.ofMaster m) x.off).settled hsettled).settle_keeps
    refine ⟨?_, fun _ => ⟨?_, ?_⟩, fun hsame => ?_⟩
    · rw [State.rd_of_regs hregs, State.lockedOutWrite_rd hother]
    · rw [State.raised, hevents, ← State.raised, State.lockedOutWrite_raised]
      exact List.mem_singleton_self _
    · rw [State.f_of_regs hregs, State.lockedOutWrite_locked]
    · rw [hsame, State.lockDiffers_present] at hdiff
      exact absurd hdiff (by decide)
  | false =>
    rw [if_neg (by decide)]
    obtain ⟨hregs, hevents⟩ := hsettled.settle_keeps
    refine ⟨State.rd_of_regs hregs _, fun hne => ?_, fun _ => State.raised_of_events hevents⟩
    rw [← hhi, ← hlo, State.f, ← hhi, ← hlo] at hne
    rw [State.lockDiffers_of_field hfd (hacc fd hfd) hmode hne] at hdiff
    exact absurd hdiff (by decide)

/-- In CONFIGURE the period takes the nearest value of its range, and a value out of it is reported. -/
theorem registerWrite_period_configure {s : State} {m : Master} {v : BitVec 64} (h : s.MayWrite m) (hv : v.toNat < 2 ^ 32)
    (hmode : s.mode = .configure) :
    ∃ t, exec (.registerWrite m (privBase + R.GLB_PERIOD) 4 v) s = .next t
      ∧ t.f F.GLB_PERIOD_period_steps = nclamp (v.toNat % 2 ^ 15) 1000 20000
      ∧ s.raised t = if nclamp (v.toNat % 2 ^ 15) 1000 20000 = v.toNat % 2 ^ 15 then [] else [.clamp] := by
  obtain ⟨hlive, howner, hsettled, hrecs⟩ := h
  have hfield : bitsOf (v.toNat % 2 ^ 32) 14 0 = v.toNat % 2 ^ 15 := by
    rw [Nat.mod_eq_of_lt hv]
    simp [bitsOf]
  rw [exec_registerWrite_owner hlive howner (by decide) hv, State.writeReg_GLB_PERIOD hmode hrecs, hfield]
  obtain ⟨hregs, hevents⟩ :=
    (((State.RegsOnly.refl s).periodStore (WSrc.ofMaster m) (v.toNat % 2 ^ 15)).mapCheck.settled hsettled).settle_keeps
  refine ⟨_, rfl, ?_, ?_⟩
  · have harm (a : Nat) : R.GLB_PERIOD ≠ R.GLB_ARM_STAT a := by unfold R.GLB_PERIOD R.GLB_ARM_STAT; omega
    rw [State.f_of_regs hregs, ← State.f_periodStore s (WSrc.ofMaster m)]
    exact congrArg (bitsOf · 14 0) (State.mapCheck_rd _ (by decide) harm)
  · rw [State.raised, hevents, State.mapCheck_events, ← State.raised, State.raised_periodStore]

/-- Settles O19: the registers' writes are those of the two cases, outside CONFIGURE and in it. -/
theorem lockedTimingRegisters : Obligations.LockedTimingRegisters := by
  unfold Obligations.LockedTimingRegisters
  intro s m v h hv
  refine ⟨fun x hx hmode => registerWrite_timing_locked h hv (Fld.timing_of_mem hx) hmode, fun hmode => ?_⟩
  obtain ⟨t, ht, hf, hraised⟩ := registerWrite_period_configure h hv hmode
  have hclamp := nclamp_eq_max_min (v.toNat % 2 ^ 15) 1000 20000 (by omega)
  refine ⟨t, ht, hf.trans hclamp, fun hlow hhigh => ?_, fun hout => ?_⟩
  · rw [hraised, if_pos (by omega)]
    exact List.not_mem_nil
  · rw [hraised, if_neg (by omega)]
    exact List.mem_singleton_self _

end Sys2Proof
end

section
/-! The reset state (R22, R371, R408, R453). -/

namespace Sys2Proof
open Sys2Proof.Machine

/-- Settles O57: the register table, the memories and the queues of the reset state are empty, and an empty table is canonical. -/
theorem resetState : Obligations.ResetState := by
  unfold Obligations.ResetState
  refine ⟨⟨⟨rfl, rfl, rfl, rfl, rfl⟩, Nat.two_pow_pos 32⟩, fun off => ?_, by decide, by decide, by decide, rfl, fun a => ?_, rfl, rfl,
    ⟨rfl, rfl, rfl, rfl, rfl, rfl⟩, rfl⟩
  · rw [State.rd, State.reset, tget_nil, BitVec.toNat_ofNat]
  · rw [State.grnByte, State.reset, tget_nil]

end Sys2Proof
end

section
/-! SUPPORT. A chain whose one lane is trained and whose other one is in training, at a GATHER launch. -/

namespace Sys2Proof.Machine
set_option maxRecDepth 100000

/-- In MUSTER, with the sequencer running: of the broken chain of lanes 0 and 1, lane 0 has trained as one half of it and has its path
delay, and lane 1 still trains. -/
def halfTrainedChain : State :=
  { State.reset with
    mode := .muster
    pwr := { State.reset.pwr with porstLow := false, pllLocked := true, pllOnce := true }
    seq := { State.reset.seq with running := true, started := true, next := 1 } }
    |>.setF (F.GLB_LANE_MAP_topology 0) 2 |>.setF (F.GLB_LANE_MAP_count 0) 4 |>.setF (F.GLB_LANE_MAP_topology 1) 2
    |>.setF (F.LPHY_STAT_state 0) laneUp |>.setF (F.LPHY_STAT_state 1) laneTraining
    |>.setF (F.NCL_LSTAT_path_mode 0) 3 |>.setF (F.NCL_LSTAT_disc_step 0) 2

theorem halfTrainedChain_inPeriod : halfTrainedChain.inPeriod = true := by decide +kernel

theorem halfTrainedChain_laneSends : halfTrainedChain.laneSends 1 = false := by decide +kernel

theorem halfTrainedChain_lane : halfTrainedChain.lane 1 = Lane.reset := rfl

/-- The lane as the next state has it. -/
def nextLane (o : Host.Outcome State Fault Refusal) (l : Nat) : Lane :=
  match o with
  | .next t => t.lane l
  | _ => Lane.reset

/-- A frame for the lane that trains has left, on the lane that is trained. -/
theorem gatherSent_gatherLaunch_halfTrainedChain : (nextLane (exec .gatherLaunch halfTrainedChain) 1).gatherSent = true := by
  decide +kernel

end Sys2Proof.Machine
end

section
/-! Period boundaries, GATHER frames and the deadline (R23 to R29, R82, R93, R109, R447). -/

open Sys2Proof.Machine

namespace Sys2Proof

/-- Refutes O35: in split mode a trained lane sends its partner's GATHER frame too, and that the frame has left is noted on the partner
lane, which does not send. -/
theorem not_periodAndGather : ¬ Obligations.PeriodAndGather := by
  unfold Obligations.PeriodAndGather
  intro h
  obtain ⟨-, -, hlaunch, -⟩ := h.1 halfTrainedChain 1 0
  obtain ⟨t, ht, -, -, -, -, halone⟩ := hlaunch halfTrainedChain_inPeriod rfl
  have hsame : t.lane 1 = Lane.reset := halone halfTrainedChain_laneSends rfl
  have hsent : (t.lane 1).gatherSent = true := by
    have := gatherSent_gatherLaunch_halfTrainedChain
    rwa [ht] at this
  rw [hsame] at hsent
  exact absurd hsent (by decide)

end Sys2Proof
end

section
/-! SUPPORT. The loss of a lane reference in the cycle of a trip which takes a mode change of that cycle back (R49). -/

namespace Sys2Proof.Machine
set_option maxRecDepth 100000

/-- The events raised up to the next state. -/
def State.raisedBy (s : State) (o : Host.Outcome State Fault Refusal) : List EvCode :=
  match o with
  | .next t => s.raised t
  | _ => []

/-- The trip withdraws the mode change's event, and LREF_LOST stands where it stood. -/
theorem lrefLost_not_raised_sweepEndInTrip :
    .lrefLost ∉ sweepEndInTrip.raisedBy (exec (.lrefLost ⟨false, []⟩) sweepEndInTrip) := by
  decide +kernel

end Sys2Proof.Machine
end

section
/-! Clock faults and the references of the lanes (R19 to R21, R477). -/

open Sys2Proof.Machine

namespace Sys2Proof

/-- Refutes O32: where a reference is lost in the cycle of an overrun trip, and the trip takes back a mode change of the same cycle,
LREF_LOST is not among the events past those that stood before. -/
theorem not_clockFaultsAndReferences : ¬ Obligations.ClockFaultsAndReferences := by
  unfold Obligations.ClockFaultsAndReferences
  intro h
  obtain ⟨-, -, -, hlost, -⟩ := h sweepEndInTrip false
  obtain ⟨t, ht, -, hraised, -⟩ := hlost [] rfl
  have habsent := lrefLost_not_raised_sweepEndInTrip
  rw [ht] at habsent
  exact habsent hraised

end Sys2Proof
end

section
/-! SUPPORT. What passing time, a MEASURE launch and the end of a lane's measurements leave alone (R98, R410). -/

namespace Sys2Proof.Machine

/-! ### Time that passes -/

theorem State.f_of_rd {s t : State} {x : Fld} (h : t.rd x.off = s.rd x.off) : t.f x = s.f x := by rw [State.f, State.f, h]

/-- Of the registers, passing time changes TIM_STAT alone, in which the end of a slew shows. -/
theorem State.slewAfter_rd (s : State) (k : Nat) {off : Nat} (h : off ≠ R.TIM_STAT) : (s.slewAfter k).rd off = s.rd off := by
  unfold State.slewAfter
  simp only
  split
  · rfl
  · split
    · exact s.rd_setF_ne _ _ h
    · rfl

theorem State.advanceCyc_rd (s : State) (c : Nat) {off : Nat} (h : off ≠ R.TIM_STAT) : (s.advanceCyc c).rd off = s.rd off := by
  unfold State.advanceCyc State.cycles
  split
  · split
    · exact s.slewAfter_rd _ h
    · rfl
  · rfl

theorem State.slewAfter_keeps (s : State) (k : Nat) :
    (s.slewAfter k).lanes = s.lanes ∧ (s.slewAfter k).cells = s.cells ∧ (s.slewAfter k).events = s.events := by
  unfold State.slewAfter
  simp only
  split
  · exact ⟨rfl, rfl, rfl⟩
  · split <;> exact ⟨rfl, rfl, rfl⟩

theorem State.advanceCyc_keeps (s : State) (c : Nat) :
    (s.advanceCyc c).lanes = s.lanes ∧ (s.advanceCyc c).cells = s.cells ∧ (s.advanceCyc c).events = s.events := by
  unfold State.advanceCyc State.cycles
  split
  · split
    · exact s.slewAfter_keeps _
    · exact ⟨rfl, rfl, rfl⟩
  · exact ⟨rfl, rfl, rfl⟩

@[simp] theorem State.advanceCyc_lane (s : State) (c l : Nat) : (s.advanceCyc c).lane l = s.lane l := by
  rw [State.lane, (s.advanceCyc_keeps c).1, State.lane]

@[simp] theorem State.advanceCyc_cell (s : State) (c k : Nat) : (s.advanceCyc c).cell k = s.cell k := by
  rw [State.cell, (s.advanceCyc_keeps c).2.1, State.cell]

@[simp] theorem State.advanceCyc_events (s : State) (c : Nat) : (s.advanceCyc c).events = s.events := (s.advanceCyc_keeps c).2.2

/-! ### A MEASURE launch -/

/-- What a MEASURE launch leaves alone: the registers, the events, the count of cycles, and what each lane has measured. -/
def State.MeasureFrame (s t : State) : Prop :=
  t.regs = s.regs ∧ t.events = s.events ∧ t.cyc = s.cyc
    ∧ ∀ l, (t.lane l).echoN = (s.lane l).echoN ∧ (t.lane l).echoD = (s.lane l).echoD ∧ (t.lane l).echoR = (s.lane l).echoR

theorem State.MeasureFrame.refl (s : State) : s.MeasureFrame s := ⟨rfl, rfl, rfl, fun _ => ⟨rfl, rfl, rfl⟩⟩

/-- A lane takes new values of which its measurements are none. -/
theorem State.MeasureFrame.modLane {s t : State} (h : s.MeasureFrame t) {l : Nat} {g : Lane → Lane}
    (hg : ∀ x, (g x).echoN = x.echoN ∧ (g x).echoD = x.echoD ∧ (g x).echoR = x.echoR) : s.MeasureFrame (t.modLane l g) := by
  obtain ⟨hregs, hevents, hcyc, hlane⟩ := h
  refine ⟨hregs, hevents, hcyc, fun j => ?_⟩
  obtain ⟨hN, hD, hR⟩ := hg (t.lane l)
  by_cases hj : j = l
  · subst hj
    rw [State.lane_modLane, hN, hD, hR]
    exact hlane j
  · rw [State.lane_modLane_ne _ _ hj]
    exact hlane j

theorem State.launchMeasure_frame (s : State) (l : Nat) : s.MeasureFrame (s.launchMeasure l) := by
  unfold State.launchMeasure
  simp only
  split
  · exact List.foldlRecOn _ _ (State.MeasureFrame.refl s) fun _ ht _ _ => ht.modLane fun _ => ⟨rfl, rfl, rfl⟩
  · exact State.MeasureFrame.refl s

/-! ### The end of a lane's measurements -/

theorem State.musterSequencer_regs (s : State) : s.musterSequencer.regs = s.regs := by
  unfold State.musterSequencer
  simp only
  split <;> rfl

theorem State.rd_mark_ne (s : State) (x : Fld) {off : Nat} (h : off ≠ x.off) : (s.mark x).rd off = s.rd off := s.rd_setF_ne _ _ h

@[simp] theorem State.lane_raise (s : State) (c : EvCode) (u a v l : Nat) : (s.raise c u a v).lane l = s.lane l := rfl

@[simp] theorem State.cell_raise (s : State) (c : EvCode) (u a v k : Nat) : (s.raise c u a v).cell k = s.cell k := rfl

theorem State.events_raise_grown (s : State) (c : EvCode) (u a v : Nat) : s.events <+: (s.raise c u a v).events := List.prefix_append _ _

@[simp] theorem State.rd_raise (s : State) (c : EvCode) (u a v off : Nat) : (s.raise c u a v).rd off = s.rd off := rfl

/-- Step 2 ends in the registers of the lane's delays and of its discovery alone. -/
theorem State.echoDone_rd (s : State) (l d n : Nat) {off : Nat} (hR : off ≠ R.NCL_PATH_R l) (hS : off ≠ R.NCL_LSTAT l) :
    (s.echoDone l d n).rd off = (s.setF (F.NCL_PATH_D_d l) (roundDiv d n)).rd off := by
  unfold State.echoDone
  simp only
  rw [State.rd_setF_ne _ _ _ hS]
  split <;> split <;>
    simp only [State.rd_raise, State.rd_mark_ne _ (F.NCL_LSTAT_echo_spread l) hS, State.rd_mark_ne _ (F.NCL_LSTAT_seg_mismatch l) hS,
      State.rd_setF_ne _ (F.NCL_PATH_R_rsum l) _ hR]

theorem State.f_echoDone_delay (s : State) (l d n : Nat) : (s.echoDone l d n).f (F.NCL_PATH_D_d l) = roundDiv d n % 2 ^ 20 := by
  rw [State.f_of_rd (s := s.setF (F.NCL_PATH_D_d l) (roundDiv d n)), State.f_setF_same _ _ _ (by simp [Fld.ok, F.NCL_PATH_D_d])]
  · rfl
  · exact s.echoDone_rd l d n (by simp [F.NCL_PATH_D_d, R.NCL_PATH_D, R.NCL_PATH_R]) (by simp [F.NCL_PATH_D_d, R.NCL_PATH_D, R.NCL_LSTAT])

theorem State.f_echoDone_step (s : State) (l d n : Nat) : (s.echoDone l d n).f (F.NCL_LSTAT_disc_step l) = 2 := by
  unfold State.echoDone
  simp only
  rw [State.f_setF_same]
  · rfl
  · simp [Fld.ok, F.NCL_LSTAT_disc_step]

theorem State.laneState_echoDone (s : State) (l : Fin 48) (d n : Nat) : (s.echoDone l d n).laneState l = s.laneState l := by
  have hoff : ∀ l : Fin 48, R.LPHY_STAT l ≠ R.NCL_PATH_R l ∧ R.LPHY_STAT l ≠ R.NCL_LSTAT l ∧ R.LPHY_STAT l ≠ R.NCL_PATH_D l := by
    decide
  obtain ⟨hR, hS, hD⟩ := hoff l
  exact State.f_of_rd ((s.echoDone_rd l d n hR hS).trans (s.rd_setF_ne _ _ hD))

/-- A sixteenth of a sum of sixteen delays, ties up. -/
theorem roundDiv_sixteen (d : Nat) : roundDiv d 16 = (d + 8) / 16 := by
  unfold roundDiv
  omega

/-! ### A MEASURE set that returns (R98) -/

/-- The receiver of a lane that measures takes the return of a set under way. -/
theorem exec_echoMeasureReturn_under_way {s : State} {l : Fin 48} (d r : Fin 1048576) (hup : s.laneState l = 3)
    (hstep : s.f (F.NCL_LSTAT_disc_step l) = 1) (hn : (s.lane l).echoN < 16) (hrx : s.rxDelivers (s.rxLane l) = true)
    (hout : (s.lane l).echoOut = true) :
    exec (.echoMeasureReturn l d r) s
      = .next (((s.advanceCyc ((s.lane l).echoAt + ceilDiv (d.val * 10) 128)).echoRecord l d r).echoCheck l) := by
  have hmeasures : s.laneState l = laneUp ∧ s.f (F.NCL_LSTAT_disc_step l) = 1 ∧ (s.lane l).echoN < 16 ∧ s.rxDelivers (s.rxLane l) = true :=
    ⟨hup, hstep, hn, hrx⟩
  simp only [exec, execEchoMeasureReturn, if_pos hmeasures, hout, if_true]

theorem exec_echoMeasureReturn_idle {s : State} {l : Fin 48} (d r : Fin 1048576)
    (h : s.laneState l ≠ 3 ∨ s.f (F.NCL_LSTAT_disc_step l) ≠ 1 ∨ 16 ≤ (s.lane l).echoN ∨ s.rxDelivers (s.rxLane l) = false) :
    exec (.echoMeasureReturn l d r) s = .next s := by
  have hnot : ¬(s.laneState l = laneUp ∧ s.f (F.NCL_LSTAT_disc_step l) = 1 ∧ (s.lane l).echoN < 16 ∧ s.rxDelivers (s.rxLane l) = true) := by
    rintro ⟨hup, hstep, hn, hrx⟩
    rcases h with h | h | h | h
    · exact h hup
    · exact h hstep
    · omega
    · rw [hrx] at h
      cases h
  simp only [exec, execEchoMeasureReturn, if_neg hnot]

theorem State.echoRecord_lane (s : State) (l d r : Nat) :
    ((s.echoRecord l d r).lane l).echoN = (s.lane l).echoN + 1 ∧ ((s.echoRecord l d r).lane l).echoD = (s.lane l).echoD + d
      ∧ ((s.echoRecord l d r).lane l).echoR = (s.lane l).echoR + r := by
  simp [State.echoRecord]

/-- A measurement before the sixteenth is recorded, and nothing but the next launch follows. -/
theorem State.echoCheck_early {s : State} {l : Nat} (h : (s.lane l).echoN < 16) : s.echoCheck l = s.launchMeasure l := if_pos h

/-- The sixteenth measurement of a lane that is no chain lane ends step 2 with the lane's own sum. -/
theorem State.echoCheck_ring {s : State} {l : Nat} (hn : (s.lane l).echoN = 16) (hring : s.isChain l = false) :
    s.echoCheck l = (s.echoDone l (s.lane l).echoD 16).musterSequencer := by
  simp [State.echoCheck, hn, hring]

/-- A return before the sixteenth: the measurement and the time it takes. -/
theorem echoMeasureReturn_early {s : State} {l : Fin 48} (d r : Fin 1048576) (hup : s.laneState l = 3)
    (hstep : s.f (F.NCL_LSTAT_disc_step l) = 1) (hn : (s.lane l).echoN < 15) (hout : (s.lane l).echoOut = true)
    (hrx : s.rxDelivers (s.rxLane l) = true) :
    ∃ t, exec (.echoMeasureReturn l d r) s = .next t ∧ (t.lane l).echoN = (s.lane l).echoN + 1
      ∧ (t.lane l).echoD = (s.lane l).echoD + d ∧ (t.lane l).echoR = (s.lane l).echoR + r
      ∧ s.cyc ≤ t.cyc ∧ (s.lane l).echoAt * 128 + d * 10 ≤ t.cyc * 128 ∧ State.SameRegs s t ∧ t.events = s.events := by
  set at_ := (s.lane l).echoAt + ceilDiv (d.val * 10) 128 with hat
  set u := (s.advanceCyc at_).echoRecord l d r with hu
  obtain ⟨hN, hD, hR⟩ := (s.advanceCyc at_).echoRecord_lane l d r
  rw [← hu, State.advanceCyc_lane] at hN hD hR
  obtain ⟨hregs, hevents, hcyc, hlane⟩ := u.launchMeasure_frame l
  obtain ⟨hN', hD', hR'⟩ := hlane l
  have hcycle : (u.launchMeasure l).cyc = max s.cyc at_ := hcyc.trans (s.advanceCyc_cyc at_)
  refine ⟨u.launchMeasure l, ?_, hN'.trans hN, hD'.trans hD, hR'.trans hR, ?_, ?_, fun off hoff => ?_, ?_⟩
  · rw [exec_echoMeasureReturn_under_way d r hup hstep (by omega) hrx hout, ← hat, ← hu, State.echoCheck_early (by omega)]
  · omega
  · rw [hcycle, hat, ceilDiv]
    omega
  · exact (State.rd_of_regs hregs off).trans (s.advanceCyc_rd at_ hoff)
  · exact hevents.trans (s.advanceCyc_events at_)

/-- Passing time moves no lane to another place of the map or to another state. -/
theorem State.advanceCyc_isChain (s : State) (c : Nat) (l : Fin 48) : (s.advanceCyc c).isChain l = s.isChain l := by
  have hoff : ∀ l : Fin 48, R.GLB_LANE_MAP l ≠ R.TIM_STAT ∧ R.GLB_LANE_MAP (partnerLane l) ≠ R.TIM_STAT := by decide
  obtain ⟨hl, hp⟩ := hoff l
  simp only [State.isChain, State.topology, State.f_of_rd (x := F.GLB_LANE_MAP_topology l) (s.advanceCyc_rd c hl),
    State.f_of_rd (x := F.GLB_LANE_MAP_topology (partnerLane l)) (s.advanceCyc_rd c hp)]

theorem State.advanceCyc_laneState (s : State) (c : Nat) (l : Fin 48) : (s.advanceCyc c).laneState l = s.laneState l := by
  have hoff : ∀ l : Fin 48, R.LPHY_STAT l ≠ R.TIM_STAT := by decide
  exact State.f_of_rd (s.advanceCyc_rd c (hoff l))

/-- The sixteenth return of a ring: its delay is the mean of the sixteen. -/
theorem echoMeasureReturn_sixteenth {s : State} {l : Fin 48} (d r : Fin 1048576) (hup : s.laneState l = 3)
    (hstep : s.f (F.NCL_LSTAT_disc_step l) = 1) (hn : (s.lane l).echoN = 15) (hsum : (s.lane l).echoD ≤ 15 * (2 ^ 20 - 1))
    (hout : (s.lane l).echoOut = true) (hrx : s.rxDelivers (s.rxLane l) = true) (hring : s.isChain l = false) :
    ∃ t, exec (.echoMeasureReturn l d r) s = .next t ∧ t.f (F.NCL_LSTAT_disc_step l) = 2
      ∧ t.f (F.NCL_PATH_D_d l) = ((s.lane l).echoD + d + 8) / 16 ∧ t.laneState l = 3 := by
  set at_ := (s.lane l).echoAt + ceilDiv (d.val * 10) 128
  set u := (s.advanceCyc at_).echoRecord l d r with hu
  obtain ⟨hN, hD, -⟩ := (s.advanceCyc at_).echoRecord_lane l d r
  rw [← hu, State.advanceCyc_lane] at hN hD
  have hring' : u.isChain l = false := (s.advanceCyc_isChain at_ l).trans hring
  have hregs := (u.echoDone l (u.lane l).echoD 16).musterSequencer_regs
  refine ⟨(u.echoDone l (u.lane l).echoD 16).musterSequencer, ?_, ?_, ?_, ?_⟩
  · rw [exec_echoMeasureReturn_under_way d r hup hstep (by omega) hrx hout, State.echoCheck_ring (by omega) hring']
  · rw [State.f_of_regs hregs, State.f_echoDone_step]
  · have := d.isLt
    rw [State.f_of_regs hregs, State.f_echoDone_delay, hD, roundDiv_sixteen, Nat.mod_eq_of_lt (by omega)]
  · exact (State.f_of_regs hregs _).trans ((u.laneState_echoDone l _ _).trans ((s.advanceCyc_laneState at_ l).trans hup))

end Sys2Proof.Machine
end

section
/-! SUPPORT. What the end of discovery does to the cells of a lane (R103 to R105), and the times of R37, which it leaves alone. -/

namespace Sys2Proof.Machine

/-! ### The cells of the lane -/

/-- Why a found cell cannot be used when discovery ends, as the aux field of CELL_INCOMPAT (R104, R105). -/
def Cell.incompat (x : Cell) : Option Nat :=
  match x.record with
  | none => some 1
  | some rec => if !rec.compatible then some 0 else if !x.timeOk then some 2 else none

/-- The end of discovery on one cell. -/
def State.closeCell (s : State) (c : Nat) : State :=
  if !(s.cell c).found then s.modCell c (fun x => { x with unavail := true })
  else match (s.cell c).incompat with
    | none => s
    | some aux =>
      let t := s.modCell c (fun x => { x with unavail := true, incompatSeen := true })
      if (s.cell c).incompatSeen then t else t.raise .cellIncompat c aux 0

/-- The cell after it. -/
def Cell.closed (x : Cell) : Cell :=
  if !x.found then { x with unavail := true }
  else if x.incompat.isSome then { x with unavail := true, incompatSeen := true } else x

/-- Discovery ends with its cells one after another, and with the registers and the timing check of the lane. -/
theorem State.finishDiscovery_eq (s : State) (l : Nat) :
    ∃ n, s.finishDiscovery l = (((s.forEach (s.laneCells l) State.closeCell).setF (F.NCL_LSTAT_cells_compat l) n).setF
      (F.NCL_LSTAT_disc_step l) 5).laneTimingCheck l := ⟨_, rfl⟩

theorem State.closeCell_cell (s : State) (c : Nat) : (s.closeCell c).cell c = (s.cell c).closed := by
  unfold State.closeCell Cell.closed
  split
  · exact s.cell_modCell c _
  · cases (s.cell c).incompat with
    | none => rfl
    | some aux => dsimp only; split <;> simp

theorem State.closeCell_cell_ne (s : State) {c j : Nat} (h : j ≠ c) : (s.closeCell c).cell j = s.cell j := by
  unfold State.closeCell
  split
  · exact s.cell_modCell_ne _ h
  · cases (s.cell c).incompat with
    | none => rfl
    | some aux => dsimp only; split <;> simp [State.cell_modCell_ne _ _ h]

theorem State.raised_raise {s t : State} (h : t.events = s.events) (c : EvCode) (u a v : Nat) : s.raised (t.raise c u a v) = [c] :=
  State.raised_of_append ((State.raiseP_events ..).trans (congrArg (· ++ _) h))

/-- A found cell without a record is reported, once. -/
theorem State.closeCell_reports {s : State} {c : Nat} (hfound : (s.cell c).found = true) (hrec : (s.cell c).record = none)
    (hseen : (s.cell c).incompatSeen = false) : .cellIncompat ∈ s.raised (s.closeCell c) := by
  have hraise : s.closeCell c
      = (s.modCell c (fun x => { x with unavail := true, incompatSeen := true })).raise .cellIncompat c 1 0 := by
    simp [State.closeCell, hfound, Cell.incompat, hrec, hseen]
  rw [hraise, State.raised_raise]
  · exact List.mem_singleton_self _
  · rfl

/-- What the end of discovery on a cell leaves alone: the registers, the lanes, the count of cycles and the records of the cells; events
are added to those that wait. -/
def State.CloseFrame (s t : State) : Prop :=
  t.regs = s.regs ∧ t.lanes = s.lanes ∧ t.cyc = s.cyc ∧ s.events <+: t.events ∧ ∀ c, (t.cell c).record = (s.cell c).record

theorem State.CloseFrame.refl (s : State) : s.CloseFrame s := ⟨rfl, rfl, rfl, List.prefix_rfl, fun _ => rfl⟩

theorem State.CloseFrame.trans {s t u : State} (h : s.CloseFrame t) (h' : t.CloseFrame u) : s.CloseFrame u := by
  obtain ⟨hregs, hlanes, hcyc, hevents, hrec⟩ := h
  obtain ⟨hregs', hlanes', hcyc', hevents', hrec'⟩ := h'
  exact ⟨hregs'.trans hregs, hlanes'.trans hlanes, hcyc'.trans hcyc, hevents.trans hevents', fun c => (hrec' c).trans (hrec c)⟩

theorem State.CloseFrame.raise {s t : State} (h : s.CloseFrame t) (c : EvCode) (u a v : Nat) : s.CloseFrame (t.raise c u a v) := by
  obtain ⟨hregs, hlanes, hcyc, hevents, hrec⟩ := h
  exact ⟨hregs, hlanes, hcyc, hevents.trans (t.events_raise_grown c u a v), hrec⟩

theorem State.CloseFrame.modCell (s : State) (c : Nat) {g : Cell → Cell} (hg : ∀ x, (g x).record = x.record) :
    s.CloseFrame (s.modCell c g) := by
  refine ⟨rfl, rfl, rfl, List.prefix_rfl, fun j => ?_⟩
  by_cases hj : j = c
  · rw [hj, State.cell_modCell, hg]
  · rw [State.cell_modCell_ne _ _ hj]

theorem State.closeCell_frame (s : State) (c : Nat) : s.CloseFrame (s.closeCell c) := by
  unfold State.closeCell
  split
  · exact .modCell s c fun _ => rfl
  · cases (s.cell c).incompat with
    | none => exact .refl s
    | some aux =>
      have hmark : s.CloseFrame (s.modCell c (fun x => { x with unavail := true, incompatSeen := true })) :=
        .modCell s c fun _ => rfl
      dsimp only
      split
      · exact hmark
      · exact hmark.raise ..

theorem State.closeCells_frame (s : State) (cs : List Nat) : s.CloseFrame (s.forEach cs State.closeCell) :=
  List.foldlRecOn cs _ (State.CloseFrame.refl s) fun t ht c _ => ht.trans (t.closeCell_frame c)

theorem State.closeCells_cell_of_not_mem (s : State) {cs : List Nat} {c : Nat} (h : c ∉ cs) :
    (s.forEach cs State.closeCell).cell c = s.cell c :=
  List.foldlRecOn (motive := fun t : State => t.cell c = s.cell c) cs _ rfl fun t ht _ hj =>
    (t.closeCell_cell_ne (ne_of_mem_of_not_mem hj h).symm).trans ht

/-- Each cell of a list that names no cell twice ends as it would alone. -/
theorem State.closeCells_cell (s : State) {cs : List Nat} {c : Nat} (hc : c ∈ cs) (hnd : cs.Nodup) :
    (s.forEach cs State.closeCell).cell c = (s.cell c).closed := by
  induction cs generalizing s with
  | nil => cases hc
  | cons x xs ih =>
    obtain ⟨hx, hxs⟩ := List.nodup_cons.mp hnd
    rcases List.mem_cons.mp hc with rfl | hc
    · exact ((s.closeCell c).closeCells_cell_of_not_mem hx).trans (s.closeCell_cell c)
    · exact (ih _ hc hxs).trans (congrArg _ (s.closeCell_cell_ne (ne_of_mem_of_not_mem hc hx)))

/-- An event raised since a later state has been raised since an earlier one. -/
theorem State.mem_raised_of_later {s t u : State} {c : EvCode} (h : s.events <+: t.events) (hc : c ∈ t.raised u) : c ∈ s.raised u :=
  List.map_subset _ (List.drop_subset_drop_left _ h.length_le) hc

/-- An event raised stays raised while events are added. -/
theorem State.mem_raised_of_grown {s t u : State} {c : EvCode} (h : t.events <+: u.events) (hc : c ∈ s.raised t) : c ∈ s.raised u :=
  List.map_subset _ (h.drop _).subset hc

/-- A found cell of the list without a record is reported, once. -/
theorem State.closeCells_reports (s : State) {cs : List Nat} {c : Nat} (hc : c ∈ cs) (hnd : cs.Nodup)
    (hfound : (s.cell c).found = true) (hrec : (s.cell c).record = none) (hseen : (s.cell c).incompatSeen = false) :
    .cellIncompat ∈ s.raised (s.forEach cs State.closeCell) := by
  induction cs generalizing s with
  | nil => cases hc
  | cons x xs ih =>
    obtain ⟨hx, hxs⟩ := List.nodup_cons.mp hnd
    rcases List.mem_cons.mp hc with rfl | hc
    · obtain ⟨-, -, -, hgrow, -⟩ := (s.closeCell c).closeCells_frame xs
      exact State.mem_raised_of_grown hgrow (State.closeCell_reports hfound hrec hseen)
    · obtain ⟨-, -, -, hgrow, -⟩ := s.closeCell_frame x
      have hcell := s.closeCell_cell_ne (ne_of_mem_of_not_mem hc hx)
      exact State.mem_raised_of_later hgrow
        (ih (s.closeCell x) hc hxs (by rw [hcell, hfound]) (by rw [hcell, hrec]) (by rw [hcell, hseen]))

/-! ### The times of R37 -/

/-- Nothing that the predicted times of lane l rest on differs: the lane, the records of the cells, and the registers but for TIM_STAT and
the end of discovery in NCL_LSTAT. -/
structure State.SamePath (s t : State) (l : Nat) : Prop where
  lane : t.lane l = s.lane l
  record : ∀ c, (t.cell c).record = (s.cell c).record
  rd : ∀ off, off ≠ R.TIM_STAT → off ≠ R.NCL_LSTAT l → t.rd off = s.rd off
  found : t.f (F.NCL_LSTAT_cells_found l) = s.f (F.NCL_LSTAT_cells_found l)
  mode : t.f (F.NCL_LSTAT_path_mode l) = s.f (F.NCL_LSTAT_path_mode l)

section
variable {s t : State} {l : Nat}

theorem State.SamePath.f (h : s.SamePath t l) {x : Fld} (hT : x.off ≠ R.TIM_STAT) (hS : x.off ≠ R.NCL_LSTAT l) : t.f x = s.f x :=
  State.f_of_rd (h.rd _ hT hS)

theorem State.SamePath.map (h : s.SamePath t l) {k hi lo : Nat} (hk : k < 48) : t.f ⟨R.GLB_LANE_MAP k, hi, lo⟩ = s.f ⟨R.GLB_LANE_MAP k, hi, lo⟩ :=
  h.f (by unfold R.GLB_LANE_MAP R.TIM_STAT; dsimp only; omega) (by unfold R.GLB_LANE_MAP R.NCL_LSTAT; dsimp only; omega)

theorem State.SamePath.isChain (h : s.SamePath t l) (k : Nat) : t.isChain k = s.isChain k := by
  unfold State.isChain State.topology
  by_cases hk : k < 48
  · have hp : partnerLane k < 48 := by unfold partnerLane; split <;> omega
    rw [show t.f (F.GLB_LANE_MAP_topology k) = _ from h.map hk, show t.f (F.GLB_LANE_MAP_topology (partnerLane k)) = _ from h.map hp]
    rfl
  · simp [hk]

theorem State.SamePath.laneCount (h : s.SamePath t l) (k : Nat) : t.laneCount k = s.laneCount k := by
  unfold State.laneCount State.laneInUse State.topology
  by_cases hk : k < 48
  · rw [show t.f (F.GLB_LANE_MAP_topology k) = _ from h.map hk, show t.f (F.GLB_LANE_MAP_count k) = _ from h.map hk]
    rfl
  · simp [hk]

theorem State.SamePath.pathCells (h : s.SamePath t l) (k : Nat) : t.pathCells k = s.pathCells k := by
  simp only [State.pathCells, h.isChain, h.laneCount]

theorem State.SamePath.pathCell (h : s.SamePath t l) (k i : Nat) : t.pathCell k i = s.pathCell k i := by
  simp only [State.pathCell, h.isChain, h.pathCells]

theorem State.SamePath.laneSplit (h : s.SamePath t l) : t.laneSplit l = s.laneSplit l := by
  simp only [State.laneSplit, h.isChain, h.mode]

theorem State.SamePath.laneCells (h : s.SamePath t l) (k : Nat) : t.laneCells k = s.laneCells k := by
  simp only [State.laneCells, h.laneCount]

theorem State.SamePath.residence (h : s.SamePath t l) (c : Nat) : t.residence l c = s.residence l c := by
  have hsum : t.f (F.NCL_PATH_R_rsum l) = s.f (F.NCL_PATH_R_rsum l) :=
    h.f (by simp only [F.NCL_PATH_R_rsum, R.NCL_PATH_R, R.TIM_STAT]; omega) (by simp only [F.NCL_PATH_R_rsum, R.NCL_PATH_R, R.NCL_LSTAT]; omega)
  simp only [State.residence, h.record, hsum, h.found]

theorem State.SamePath.segDelay (h : s.SamePath t l) (i : Nat) : t.segDelay l i = s.segDelay l i := by
  have hseg (k j : Nat) (hj : j ≤ 64) : t.f (F.NCL_SEG_seg_delay k j) = s.f (F.NCL_SEG_seg_delay k j) :=
    h.f (by simp only [F.NCL_SEG_seg_delay, R.NCL_SEG, R.TIM_STAT]; omega) (by simp only [F.NCL_SEG_seg_delay, R.NCL_SEG, R.NCL_LSTAT]; omega)
  have hindex : t.segIndex l i = s.segIndex l i := by simp only [State.segIndex, h.isChain, h.pathCells]
  unfold State.segDelay
  rw [hindex, h.isChain]
  split
  · next hi => exact hseg _ _ hi
  · rfl

theorem State.SamePath.segments (h : s.SamePath t l) : t.segments l = s.segments l := by
  have hcells : t.ringCells l = s.ringCells l := by simp only [State.ringCells, h.isChain, h.laneCount, h.found]
  unfold State.segments
  rw [hcells, funext h.segDelay]

theorem State.SamePath.ringDelay (h : s.SamePath t l) (i : Nat) : t.ringDelay l i = s.ringDelay l i := by
  simp only [State.ringDelay, h.lane, h.segments, h.residence, h.pathCell]

/-- The words of NCL_ASSIGN are those of no other register. -/
theorem State.SamePath.assigned (h : s.SamePath t l) (c : Nat) :
    t.rd (if l % 2 = 0 then R.NCL_ASSIGN (c / 64) (c % 64) else R.NCL_ASSIGN_W (c / 64) (c % 64))
      = s.rd (if l % 2 = 0 then R.NCL_ASSIGN (c / 64) (c % 64) else R.NCL_ASSIGN_W (c / 64) (c % 64)) := by
  split <;> apply h.rd <;> simp only [R.NCL_ASSIGN, R.NCL_ASSIGN_W, R.TIM_STAT, R.NCL_LSTAT] <;> omega

theorem State.SamePath.lastDelay (h : s.SamePath t l) : t.lastDelay l = s.lastDelay l := by
  simp only [State.lastDelay, h.isChain, h.laneSplit, h.pathCells, h.pathCell, h.assigned, h.ringDelay]

theorem State.SamePath.predicted (h : s.SamePath t l) : t.predicted l = s.predicted l := by
  have hdelay : t.f (F.NCL_PATH_D_d l) = s.f (F.NCL_PATH_D_d l) :=
    h.f (by simp only [F.NCL_PATH_D_d, R.NCL_PATH_D, R.TIM_STAT]; omega) (by simp only [F.NCL_PATH_D_d, R.NCL_PATH_D, R.NCL_LSTAT]; omega)
  have horder : t.f F.GLB_ORDER_OFFSET_order_offset_steps = s.f F.GLB_ORDER_OFFSET_order_offset_steps :=
    h.f (by decide) (by simp only [F.GLB_ORDER_OFFSET_order_offset_steps, R.GLB_ORDER_OFFSET, R.NCL_LSTAT]; omega)
  simp only [State.predicted, hdelay, horder, h.pathCells, h.lastDelay]

/-- The limits of R37. -/
theorem State.SamePath.limits (h : s.SamePath t l) :
    t.f F.GLB_GATHER_DEADLINE_deadline_steps = s.f F.GLB_GATHER_DEADLINE_deadline_steps
      ∧ t.f F.GLB_EDGE_OFFSET_edge_offset_steps = s.f F.GLB_EDGE_OFFSET_edge_offset_steps :=
  ⟨h.f (by decide) (by simp only [F.GLB_GATHER_DEADLINE_deadline_steps, R.GLB_GATHER_DEADLINE, R.NCL_LSTAT]; omega),
    h.f (by decide) (by simp only [F.GLB_EDGE_OFFSET_edge_offset_steps, R.GLB_EDGE_OFFSET, R.NCL_LSTAT]; omega)⟩

theorem State.SamePath.trans {u : State} (h : s.SamePath t l) (h' : t.SamePath u l) : s.SamePath u l where
  lane := h'.lane.trans h.lane
  record c := (h'.record c).trans (h.record c)
  rd off hT hS := (h'.rd off hT hS).trans (h.rd off hT hS)
  found := h'.found.trans h.found
  mode := h'.mode.trans h.mode

theorem State.advanceCyc_samePath (s : State) (c l : Nat) : s.SamePath (s.advanceCyc c) l :=
  have hstat : R.NCL_LSTAT l ≠ R.TIM_STAT := by simp only [R.NCL_LSTAT, R.TIM_STAT]; omega
  { lane := s.advanceCyc_lane c l
    record := fun k => congrArg Cell.record (s.advanceCyc_cell c k)
    rd := fun _ hT _ => s.advanceCyc_rd c hT
    found := State.f_of_rd (s.advanceCyc_rd c hstat)
    mode := State.f_of_rd (s.advanceCyc_rd c hstat) }

theorem State.CloseFrame.samePath (h : s.CloseFrame t) : s.SamePath t l := by
  obtain ⟨hregs, hlanes, -, -, hrec⟩ := h
  exact { lane := by rw [State.lane, State.lane, hlanes]
          record := hrec
          rd := fun off _ _ => State.rd_of_regs hregs off
          found := State.f_of_regs hregs _
          mode := State.f_of_regs hregs _ }

/-- A field of NCL_LSTAT takes a value, apart from the cells found and the path mode. -/
theorem State.setF_samePath (s : State) {x : Fld} (v : Nat) (hoff : x.off = R.NCL_LSTAT l) (hok : x.ok)
    (hfound : x.apart (F.NCL_LSTAT_cells_found l)) (hmode : x.apart (F.NCL_LSTAT_path_mode l)) : s.SamePath (s.setF x v) l where
  lane := rfl
  record _ := rfl
  rd _ _ hS := s.rd_setF_ne _ _ (hoff ▸ hS)
  found := s.f_setF_apart x _ v hok hfound
  mode := s.f_setF_apart x _ v hok hmode

end

/-! ### The end of discovery (R103 to R105, R37) -/

theorem State.laneTimingCheck_frame (s : State) (l : Nat) :
    (s.laneTimingCheck l).regs = s.regs ∧ (s.laneTimingCheck l).cells = s.cells ∧ (s.laneTimingCheck l).cyc = s.cyc
      ∧ s.events <+: (s.laneTimingCheck l).events := by
  have hraise (b : Bool) (v : Nat) :
      let t := (s.modLane l (fun x => { x with timingOk := b })).raise .laneTiming l 0 v
      t.regs = s.regs ∧ t.cells = s.cells ∧ t.cyc = s.cyc ∧ s.events <+: t.events :=
    ⟨by simp, by simp, by simp, State.events_raise_grown (s.modLane l _) ..⟩
  unfold State.laneTimingCheck
  dsimp only
  split
  · exact hraise ..
  · split
    · exact hraise ..
    · simp

/-- The lane passes where both times of R37 keep within their limits. -/
theorem State.laneTimingCheck_timingOk (s : State) (l : Nat) :
    ((s.laneTimingCheck l).lane l).timingOk = decide ((s.predicted l).1 ≤ s.f F.GLB_GATHER_DEADLINE_deadline_steps * 5 * 80
      ∧ (s.predicted l).2 ≤ s.f F.GLB_EDGE_OFFSET_edge_offset_steps * 5 * 80) := by
  unfold State.laneTimingCheck pathUnit
  dsimp only
  split
  · next hgather =>
    rw [State.lane_raise, State.lane_modLane]
    exact (decide_eq_false (by omega)).symm
  · split
    · next hedge =>
      rw [State.lane_raise, State.lane_modLane]
      exact (decide_eq_false (by omega)).symm
    · rw [State.lane_modLane]
      exact (decide_eq_true (by omega)).symm

theorem Cell.closed_of_not_found {x : Cell} (h : x.found = false) : x.closed.unavail = true := by
  simp [Cell.closed, h]

theorem Cell.closed_of_no_record {x : Cell} (h : x.found = true) (hrec : x.record = none) : x.closed.unavail = true := by
  simp [Cell.closed, Cell.incompat, h, hrec]

theorem Cell.closed_of_ready {x : Cell} {rec : CapRec} (h : x.found = true) (hrec : x.record = some rec) (hok : rec.compatible = true)
    (htime : x.timeOk = true) : x.closed = x := by
  simp [Cell.closed, Cell.incompat, h, hrec, hok, htime]

theorem State.laneCells_nodup (s : State) (l : Nat) : (s.laneCells l).Nodup :=
  List.nodup_range.map fun _ _ h => Nat.add_left_cancel h

/-- What the end of discovery makes of a lane: its step, the timing check, and its cells. -/
theorem State.finishDiscovery_spec (s : State) (l : Nat) :
    let t := s.finishDiscovery l
    t.f (F.NCL_LSTAT_disc_step l) = 5 ∧ t.cyc = s.cyc
      ∧ (t.lane l).timingOk = decide ((s.predicted l).1 ≤ s.f F.GLB_GATHER_DEADLINE_deadline_steps * 5 * 80
          ∧ (s.predicted l).2 ≤ s.f F.GLB_EDGE_OFFSET_edge_offset_steps * 5 * 80)
      ∧ ∀ c ∈ s.laneCells l, t.cell c = (s.cell c).closed
        ∧ ((s.cell c).found = true → (s.cell c).record = none → (s.cell c).incompatSeen = false → .cellIncompat ∈ s.raised t) := by
  obtain ⟨n, hfinish⟩ := s.finishDiscovery_eq l
  set v := s.forEach (s.laneCells l) State.closeCell with hv
  set w := (v.setF (F.NCL_LSTAT_cells_compat l) n).setF (F.NCL_LSTAT_disc_step l) 5 with hw
  have hframe : s.CloseFrame v := s.closeCells_frame _
  have hpath : s.SamePath w l :=
    (hframe.samePath.trans (v.setF_samePath n rfl (by simp [Fld.ok, F.NCL_LSTAT_cells_compat])
      (.inr (.inr (by simp [F.NCL_LSTAT_cells_compat, F.NCL_LSTAT_cells_found])))
      (.inr (.inr (by simp [F.NCL_LSTAT_cells_compat, F.NCL_LSTAT_path_mode]))))).trans
    (State.setF_samePath _ 5 rfl (by simp [Fld.ok, F.NCL_LSTAT_disc_step])
      (.inr (.inr (by simp [F.NCL_LSTAT_disc_step, F.NCL_LSTAT_cells_found])))
      (.inr (.inr (by simp [F.NCL_LSTAT_disc_step, F.NCL_LSTAT_path_mode]))))
  obtain ⟨-, -, hcyc, -, -⟩ := hframe
  obtain ⟨hregs, hcells, hcyc', hevents⟩ := w.laneTimingCheck_frame l
  obtain ⟨hwevents, hwcells, hwcyc⟩ : w.events = v.events ∧ w.cells = v.cells ∧ w.cyc = v.cyc := by simp [hw]
  rw [hwevents] at hevents
  rw [hwcells] at hcells
  rw [hwcyc] at hcyc'
  rw [hfinish]
  refine ⟨?_, hcyc'.trans hcyc, ?_, fun c hc => ⟨?_, fun hfound hrec hseen => ?_⟩⟩
  · rw [State.f_of_regs hregs, hw, State.f_setF_same _ _ _ (by simp [Fld.ok, F.NCL_LSTAT_disc_step])]
    rfl
  · obtain ⟨hdeadline, hedge⟩ := hpath.limits
    rw [State.laneTimingCheck_timingOk, hpath.predicted, hdeadline, hedge]
  · rw [State.cell, hcells]
    exact s.closeCells_cell hc (s.laneCells_nodup l)
  · exact State.mem_raised_of_grown hevents (s.closeCells_reports hc (s.laneCells_nodup l) hfound hrec hseen)

theorem exec_discoveryTimeout_waiting {s : State} {l : Fin 48} (hmode : s.mode = .muster) (hstep : s.f (F.NCL_LSTAT_disc_step l) = 4) :
    exec (.discoveryTimeout l) s = .next ((s.advanceCyc ((s.lane l).assignAt + 1250000)).finishDiscovery l) := by
  simp [exec, execDiscoveryTimeout, hmode, hstep, cycPerMs]

theorem exec_discoveryTimeout_idle {s : State} {l : Fin 48} (h : s.mode ≠ .muster ∨ s.f (F.NCL_LSTAT_disc_step l) ≠ 4) :
    exec (.discoveryTimeout l) s = .next s := by
  simp only [exec, execDiscoveryTimeout]
  exact if_neg (by simpa [imp_iff_not_or] using h)

/-! ### A frame that comes back on its own lane (R96) -/

theorem exec_chainSplit_found {s : State} {k : Fin 24} {j : Fin 128} (h : (s.mayReturn (2 * k) || s.mayReturn (2 * k + 1)) = true) :
    exec (.chainSplit k j) s
      = .next (((s.modLane (2 * k) (fun x => { x with splitIn := 2, splitPos := j })).modLane (2 * k + 1)
          (fun x => { x with splitIn := 2, splitPos := j })).raise .chainSplit (2 * k) j 0) := by
  simp only [exec, execChainSplit, h, if_true]

theorem exec_chainSplit_idle {s : State} {k : Fin 24} {j : Fin 128} (h : (s.mayReturn (2 * k) || s.mayReturn (2 * k + 1)) = false) :
    exec (.chainSplit k j) s = .next s := by
  simp [exec, execChainSplit, h]

theorem chainSplit_found {s : State} {k : Fin 24} {j : Fin 128} {x : Nat} (hx : x ∈ [2 * k.val, 2 * k.val + 1])
    (h : s.mayReturn x = true) :
    ∃ t, exec (.chainSplit k j) s = .next t ∧ s.raised t = [.chainSplit] ∧ (t.lane (2 * k)).splitIn = 2
      ∧ (t.lane (2 * k + 1)).splitIn = 2 ∧ (t.lane (2 * k)).splitPos = j ∧ t.regs = s.regs := by
  have hfound : (s.mayReturn (2 * k) || s.mayReturn (2 * k + 1)) = true := by
    rcases List.mem_pair.mp hx with rfl | rfl <;> simp [h]
  refine ⟨_, exec_chainSplit_found hfound, State.raised_raise (by simp) .., ?_⟩
  have hne : 2 * k.val ≠ 2 * k.val + 1 := by omega
  simp [State.lane_modLane_ne _ _ hne]

end Sys2Proof.Machine
end

section
/-! ECHO measurements, discovery and broken chains (R37, R96, R98, R99, R103, R104). -/

open Sys2Proof.Machine

namespace Sys2Proof

/-- Settles O37, row by row: an ECHO return before the sixteenth and the sixteenth, the end of the wait for time_ok, and a frame that comes
back on its own lane. -/
theorem echoAndDiscovery : Obligations.EchoAndDiscovery := by
  unfold Obligations.EchoAndDiscovery
  intro s l d r k j c
  refine ⟨fun hup hstep hn hout hrx => echoMeasureReturn_early d r hup hstep hn hout hrx,
    fun hup hstep hn hsum hout hrx hring => echoMeasureReturn_sixteenth d r hup hstep hn hsum hout hrx hring,
    exec_echoMeasureReturn_idle d r, fun hmode hstep => ?_, exec_discoveryTimeout_idle, fun x hx hchain hthrough hsplit hrx => ?_,
    fun h => exec_chainSplit_idle ?_⟩
  · set u := s.advanceCyc ((s.lane l).assignAt + 1250000) with hu
    have hpath : s.SamePath u l := s.advanceCyc_samePath _ l
    obtain ⟨hstep', hcyc, htiming, hcells⟩ := u.finishDiscovery_spec l
    obtain ⟨hdeadline, hedge⟩ := hpath.limits
    rw [hpath.predicted, hdeadline, hedge] at htiming
    have hcell (hc : c ∈ s.laneCells l) := hcells c (by rwa [hpath.laneCells])
    rw [State.advanceCyc_cell] at hcell
    refine ⟨u.finishDiscovery l, exec_discoveryTimeout_waiting hmode hstep, hstep', hcyc.trans (s.advanceCyc_cyc _), htiming,
      fun hc hfound => ?_, fun hc hfound hrec => ⟨?_, fun hseen => ?_⟩, fun rec hc hfound hrec hok htime => ?_⟩
    · rw [(hcell hc).1, Cell.closed_of_not_found hfound]
    · rw [(hcell hc).1, Cell.closed_of_no_record hfound hrec]
    · have hevents : s.events <+: u.events := by rw [hu, State.advanceCyc_events]
      exact State.mem_raised_of_later hevents ((hcell hc).2 hfound hrec hseen)
    · rw [(hcell hc).1, Cell.closed_of_ready hfound hrec hok htime]
  · exact chainSplit_found hx (by simp [State.mayReturn, hchain, hthrough, hsplit, hrx])
  · have hidle (x : Nat) (hx : x ∈ [2 * k.val, 2 * k.val + 1]) : s.mayReturn x = false := by
      rcases h x hx with h | h | h <;> simp [State.mayReturn, h]
    rw [hidle _ (by simp), hidle _ (by simp)]
    rfl

end Sys2Proof
end

section
/-! SUPPORT. An arm whose one cell is lost with a lane that the holder has yielded (R365), when its cells are counted. -/

namespace Sys2Proof.Machine
set_option maxRecDepth 100000

/-- The state that an outcome answers. -/
def nextState (o : Host.Outcome State Fault Refusal) : State :=
  match o with
  | .next t => t
  | _ => State.reset

/-- In RUN, at the availability check of a period: arm 0 needs one cell, and its only one is lost with lane 0, which is yielded. -/
def yieldedArm : State :=
  { State.reset with
    mode := .run
    pwr := { State.reset.pwr with porstLow := false, pllLocked := true, pllOnce := true }
    seq := { State.reset.seq with running := true, started := true, next := 1, gatherDone := true } }
    |>.setF (F.GLB_LANE_MAP_topology 0) 1 |>.setF (F.GLB_LANE_MAP_count 0) 1 |>.setF (F.GLB_ARM_CFG_arm_enable 0) 1
    |>.setF (F.GLB_ARM_CFG_n_required 0) 1 |>.modLane 0 (fun x => { x with yielded := true })

theorem yieldedArm_counts :
    yieldedArm.inPeriod = true ∧ yieldedArm.seq.gatherDone = true ∧ yieldedArm.seq.availDone = false ∧ yieldedArm.mode.countsCells = true
      ∧ (0 : Fin 12).val ∈ yieldedArm.enabledArms ∧ yieldedArm.nInstalled (0 : Fin 12) < 1024 ∧ yieldedArm.mode.controls = true := by
  decide +kernel

/-- No cell is available, and the mode stays: a yielded cell makes no trip. -/
theorem availabilityCheck_yieldedArm :
    (nextState (exec .availabilityCheck yieldedArm)).f (F.GLB_ARM_STAT_n_available (0 : Fin 12))
        < yieldedArm.f (F.GLB_ARM_CFG_n_required (0 : Fin 12))
      ∧ (nextState (exec .availabilityCheck yieldedArm)).mode = .run := by
  decide +kernel

end Sys2Proof.Machine
end

section
/-! Availability, charge and retiring (R56, R149, R152 to R154, R187). -/

open Sys2Proof.Machine

namespace Sys2Proof

/-- Refutes O2: of an arm below n_required by the cells of a yielded lane alone, the partner commands the missing cells, and the check makes
no trip. -/
theorem not_availabilityTripsChargeAndRetiring : ¬ Obligations.AvailabilityTripsChargeAndRetiring := by
  unfold Obligations.AvailabilityTripsChargeAndRetiring
  intro h
  obtain ⟨hcheck, -⟩ := h.1 yieldedArm 0
  obtain ⟨hperiod, hgather, havail, hmode, harm, hcells, hcontrols⟩ := yieldedArm_counts
  obtain ⟨t, ht, -, -, -, -, -, htrip, -⟩ := hcheck hperiod hgather havail hmode harm hcells
  obtain ⟨hlow, hrun⟩ := availabilityCheck_yieldedArm
  rw [ht] at hlow hrun
  obtain ⟨hblock, -⟩ := htrip hcontrols hlow
  exact absurd (hblock.symm.trans hrun) (by decide)

end Sys2Proof
end

section
/-! SUPPORT. A write of SAF_CONFIRM on which an edge record of the same cycle stands (R227). -/

namespace Sys2Proof.Machine
set_option maxRecDepth 100000

/-- A running device in BOOT that the maintenance SPI owns, where a record of this cycle has written SAF_CONFIRM. -/
def confirmRecorded : State :=
  { State.reset with pwr := { State.reset.pwr with porstLow := false, pllLocked := true, pllOnce := true },
                     pwmIo := { State.reset.pwmIo with recAt := 0, recs := [R.SAF_CONFIRM] } }
    |>.setF F.HIF_OWN_STAT_owner 2

theorem confirmRecorded_settled : confirmRecorded.Settled := by decide +kernel

theorem confirmRecorded_live : confirmRecorded.live = true := by decide +kernel

theorem confirmRecorded_isOwner : confirmRecorded.isOwner .mspi = true := by decide +kernel

theorem confirmRecorded_mode : confirmRecorded.mode ≠ .commission := by decide +kernel

/-- The record's value stands, and the confirmation is not seen. -/
theorem raisedBy_safConfirm_confirmRecorded :
    confirmRecorded.raisedBy (exec (.safConfirm .mspi 0) confirmRecorded) = [] := by decide +kernel

end Sys2Proof.Machine
end

section
/-! The check value, its confirmation, and MUSTER (R51, R54, R55, R332). -/

open Sys2Proof.Machine

namespace Sys2Proof

/-- Refutes O34: a confirmation is overruled, without CHECK_MISMATCH, where the state holds a record of SAF_CONFIRM made in the same cycle,
which the statement does not exclude. -/
theorem not_commissionAndMuster : ¬ Obligations.CommissionAndMuster := by
  unfold Obligations.CommissionAndMuster
  intro h
  obtain ⟨-, -, -, hwrong, -⟩ := h confirmRecorded .mspi 0 0 confirmRecorded_settled confirmRecorded_live
  obtain ⟨t, ht, -, hraised, -⟩ := hwrong confirmRecorded_isOwner (.inl confirmRecorded_mode)
  have hnone := raisedBy_safConfirm_confirmRecorded
  rw [ht] at hnone
  exact absurd (hraised.symm.trans hnone) (by decide)

end Sys2Proof
end

section
/-! SUPPORT. One-bit fields, and what passing time leaves alone. -/

namespace Sys2Proof.Machine

/-! ### One-bit fields -/

section
variable {s t : State} {x y : Fld}

theorem State.fb_of_rd (h : t.rd x.off = s.rd x.off) : t.fb x = s.fb x := by rw [State.fb, State.f_of_rd h, State.fb]

theorem State.fb_of_regs (h : t.regs = s.regs) (x : Fld) : t.fb x = s.fb x := State.fb_of_rd (State.rd_of_regs h _)

theorem State.fb_mark_same (s : State) (h : x.ok) (hb : x.hi = x.lo) : (s.mark x).fb x = true := by
  rw [State.fb, s.f_mark_same x h hb]
  rfl

theorem State.fb_setF_bit (s : State) (h : x.ok) (hb : x.hi = x.lo) (b : Bool) : (s.setF x (b2n b)).fb x = b := by
  rw [State.fb, s.f_setF_same x _ h, hb, Nat.add_sub_cancel_left]
  cases b <;> rfl

theorem State.fb_setF_apart (s : State) (v : Nat) (h : x.ok) (hxy : x.apart y) : (s.setF x v).fb y = s.fb y := by
  rw [State.fb, s.f_setF_apart x y v h hxy, State.fb]

theorem State.fb_mark_apart (s : State) (h : x.ok) (hxy : x.apart y) : (s.mark x).fb y = s.fb y := s.fb_setF_apart _ h hxy

end

/-! ### Time that passes -/

/-- Nothing but the timebase, the count of cycles, the slew and the register table differs. -/
def State.TimeOnly (s t : State) : Prop := t = { s with now := t.now, cyc := t.cyc, tim := t.tim, regs := t.regs }

theorem State.slewAfter_timeOnly (s : State) (k : Nat) : s.TimeOnly (s.slewAfter k) := by
  unfold State.slewAfter
  dsimp only
  split
  · rfl
  · split <;> rfl

theorem State.cycles_timeOnly (s : State) (k : Nat) : s.TimeOnly (s.cycles k) := by
  unfold State.cycles
  dsimp only
  split
  · unfold State.TimeOnly
    dsimp only
    rw [s.slewAfter_timeOnly k]
  · rfl

theorem State.advanceCyc_timeOnly (s : State) (c : Nat) : s.TimeOnly (s.advanceCyc c) := by
  unfold State.advanceCyc
  split
  · exact s.cycles_timeOnly _
  · rfl

theorem State.advanceTo_timeOnly (s : State) (ns : Nat) : s.TimeOnly (s.advanceTo ns) := by
  unfold State.advanceTo State.advanceToU
  split
  · exact s.cycles_timeOnly _
  · rfl

theorem State.laneCoded_of_keeps {s t : State} {l : Nat} (hpwr : t.pwr = s.pwr) (hrd : t.rd (R.LPHY_DIAG l) = s.rd (R.LPHY_DIAG l)) :
    t.laneCoded l = s.laneCoded l := by
  have hmode : t.f (F.LPHY_DIAG_diag_mode l) = s.f (F.LPHY_DIAG_diag_mode l) := State.f_of_rd hrd
  simp only [State.laneCoded, State.laneClock, State.txCarries, hpwr, hmode]

theorem State.TimeOnly.pwr {s t : State} (h : s.TimeOnly t) : t.pwr = s.pwr := by rw [h]

theorem State.advanceCyc_laneCoded (s : State) (c l : Nat) : (s.advanceCyc c).laneCoded l = s.laneCoded l :=
  State.laneCoded_of_keeps (s.advanceCyc_timeOnly c).pwr
    (s.advanceCyc_rd c (by simp only [R.LPHY_DIAG, R.TIM_STAT]; omega))

end Sys2Proof.Machine
end

section
/-! SUPPORT. The mirror lanes: marker pairs that leave, arrive and fail to arrive, and the bond (R121 to R123). -/

namespace Sys2Proof.Machine

/-! ### Sets that leave at once -/

theorem State.sendNow_sets {s : State} {l : Nat} (xs : List TxSet) (h : s.laneCoded l = true) : ((s.sendNow l xs).lane l).sets = xs := by
  simp [State.sendNow, h]

theorem State.sendNow_lane_ne (s : State) {l j : Nat} (xs : List TxSet) (h : j ≠ l) : (s.sendNow l xs).lane j = s.lane j := by
  unfold State.sendNow
  split
  · exact s.lane_modLane_ne _ h
  · rfl

/-- The lanes change alone: what a transmitter may send, its time and the mirror link are as before. -/
def State.LanesOnly (s t : State) : Prop := t = { s with lanes := t.lanes }

section
variable {s t u : State}

theorem State.LanesOnly.trans (h : s.LanesOnly t) (h' : t.LanesOnly u) : s.LanesOnly u := by
  unfold State.LanesOnly at *
  rw [h] at h'
  exact h'

theorem State.sendNow_lanesOnly (s : State) (l : Nat) (xs : List TxSet) : s.LanesOnly (s.sendNow l xs) := by
  unfold State.sendNow
  split <;> rfl

theorem State.LanesOnly.cyc (h : s.LanesOnly t) : t.cyc = s.cyc := by rw [h]

theorem State.LanesOnly.pair (h : s.LanesOnly t) : t.pair = s.pair := by rw [h]

theorem State.LanesOnly.laneCoded (h : s.LanesOnly t) (l : Nat) : t.laneCoded l = s.laneCoded l :=
  State.laneCoded_of_keeps (by rw [h]) (by rw [h]; rfl)

end

/-! ### A marker pair that leaves (R121) -/

theorem State.mcount_modLane_tx (s : State) (j l : Nat) (x : LaneTx) :
    ((s.modLane j (fun z => { z with tx := x })).lane l).mcount = (s.lane l).mcount := by
  by_cases hl : l = j
  · rw [hl, State.lane_modLane]
  · rw [State.lane_modLane_ne _ _ hl]

/-- The new distribution leaves the registers, the supplies, the time and the marker counts alone. -/
theorem State.restartShares_keeps (s : State) :
    s.restartShares.regs = s.regs ∧ s.restartShares.pwr = s.pwr ∧ s.restartShares.cyc = s.cyc
      ∧ ∀ l, (s.restartShares.lane l).mcount = (s.lane l).mcount := by
  have hpair (u : State) (g : Pair → Pair) (l : Nat) : (u.modPair g).lane l = u.lane l := rfl
  unfold State.restartShares
  simp only
  split
  · simp [hpair]
  · simp only [hpair, State.mcount_modLane_tx]
    simp

theorem takeTurns_zero (turn : Bool) (as bs : List MirBlock) : takeTurns 0 turn as bs = [] := by
  unfold takeTurns
  rfl

/-- Between frames the distribution starts again with MIR0. -/
theorem State.restartShares_txTurn {s : State} (h : (s.lane 48).tx.frame = none) (h' : (s.lane 49).tx.frame = none) :
    s.restartShares.pair.txTurn = false := by
  simp [State.restartShares, LaneTx.shareOut, h, h', takeTurns_zero, State.modPair]

theorem State.sendSet_marker {s : State} {l : Nat} (x : TxSet) (h : 48 ≤ l) : s.sendSet l 5 x = s.sendNow l [x] := if_pos ⟨h, rfl⟩

theorem exec_mirrorMarkerPair_unpaired {s : State} (h : s.paired = false) : exec .mirrorMarkerPair s = .next s := by
  simp [exec, execMirrorMarkerPair, h]

theorem exec_mirrorMarkerPair_paired {s : State} (h : s.paired = true) :
    exec .mirrorMarkerPair s
      = (let u := (s.advanceCyc ((s.lane 48).tx.markAt + 65536)).restartShares
         let n := (u.lane 48).mcount
         let v := (u.sendNow 48 [mkSet 5 (markPayload 48 n)]).sendNow 49 [mkSet 5 (markPayload 49 n)]
         .next (v.modLane 48 (fun x => { x with mcount := (n + 1) % 2 ^ 24, tx := { x.tx with markAt := v.cyc } }))) := by
  simp only [exec, execMirrorMarkerPair, h, if_true, State.sendSet_marker _ (Nat.le_refl 48), State.sendSet_marker _ (Nat.le_succ 48), markCycles]

/-- The pair leaves both lanes with the count of MIR0, a marker interval after the one before. -/
theorem mirrorMarkerPair_leaves {s : State} (h : s.paired = true) (h48 : s.laneCoded 48 = true) (h49 : s.laneCoded 49 = true) :
    ∃ t, exec .mirrorMarkerPair s = .next t ∧ (t.lane 48).mcount = ((s.lane 48).mcount + 1) % 2 ^ 24
      ∧ t.cyc = max s.cyc ((s.lane 48).tx.markAt + 65536)
      ∧ ((s.lane 48).tx.frame = none → (s.lane 49).tx.frame = none → t.pair.txTurn = false)
      ∧ (t.lane 48).sets = [mkSet 5 (48 + (s.lane 48).mcount % 2 ^ 24 * 256)]
      ∧ (t.lane 49).sets = [mkSet 5 (49 + (s.lane 48).mcount % 2 ^ 24 * 256)] := by
  rw [exec_mirrorMarkerPair_paired h]
  set a := s.advanceCyc ((s.lane 48).tx.markAt + 65536) with ha
  obtain ⟨hregs, hpwr, hcyc, hcount⟩ := a.restartShares_keeps
  have hn : (a.restartShares.lane 48).mcount = (s.lane 48).mcount := by rw [hcount, ha, State.advanceCyc_lane]
  have hcoded (l : Nat) : a.restartShares.laneCoded l = s.laneCoded l :=
    (State.laneCoded_of_keeps hpwr (State.rd_of_regs hregs _)).trans (s.advanceCyc_laneCoded _ l)
  have hturn (hf : (s.lane 48).tx.frame = none) (hf' : (s.lane 49).tx.frame = none) : a.restartShares.pair.txTurn = false :=
    State.restartShares_txTurn (by rw [ha, State.advanceCyc_lane, hf]) (by rw [ha, State.advanceCyc_lane, hf'])
  dsimp only
  rw [hn]
  set u := a.restartShares
  set v := u.sendNow 48 [mkSet 5 (markPayload 48 (s.lane 48).mcount)] with hv
  set w := v.sendNow 49 [mkSet 5 (markPayload 49 (s.lane 48).mcount)] with hw
  have hvu : u.LanesOnly v := u.sendNow_lanesOnly 48 _
  have hwu : u.LanesOnly w := hvu.trans (v.sendNow_lanesOnly 49 _)
  have hfirst : (w.lane 48).sets = [mkSet 5 (markPayload 48 (s.lane 48).mcount)] := by
    rw [hw, v.sendNow_lane_ne _ (by decide), hv, State.sendNow_sets _ ((hcoded 48).trans h48)]
  have hsecond : (w.lane 49).sets = [mkSet 5 (markPayload 49 (s.lane 48).mcount)] := by
    rw [hw, State.sendNow_sets _ ((hvu.laneCoded 49).trans ((hcoded 49).trans h49))]
  have hcyc' : w.cyc = max s.cyc ((s.lane 48).tx.markAt + 65536) := by rw [hwu.cyc, hcyc, ha, State.advanceCyc_cyc]
  have hpair : w.pair = u.pair := hwu.pair
  clear_value w
  refine ⟨_, rfl, by rw [State.lane_modLane], by simpa using hcyc', fun hf hf' => ?_, ?_, ?_⟩
  · simpa [hpair] using hturn hf hf'
  · simpa [markPayload] using hfirst
  · simpa [State.lane_modLane_ne, markPayload] using hsecond

/-! ### A marker pair that arrives (R122, R123) -/

section
variable {s : State} {x y : RxSet} (k : Int)

theorem exec_mirrorMarkerReceived_untaken
    (h : s.setTaken 48 5 x = false ∨ s.setTaken 49 5 y = false ∨ bitsOf x.payload.toNat 31 8 ≠ bitsOf y.payload.toNat 31 8) :
    exec (.mirrorMarkerReceived x y k) s = .next s := by
  have hcond : (!s.setTaken 48 5 x || !s.setTaken 49 5 y || bitsOf x.payload.toNat 31 8 != bitsOf y.payload.toNat 31 8) = true := by
    simpa [or_assoc] using h
  simp only [exec, execMirrorMarkerReceived, hcond, if_true]

/-- Both receivers take the sets of a pair of one count. -/
def State.PairTaken (s : State) (x y : RxSet) : Prop :=
  (!s.setTaken 48 5 x || !s.setTaken 49 5 y || bitsOf x.payload.toNat 31 8 != bitsOf y.payload.toNat 31 8) = false

theorem State.pairTaken_of_whole (h : setWhole 5 x = true ∧ setWhole 5 y = true ∧ bitsOf x.payload.toNat 31 8 = bitsOf y.payload.toNat 31 8
    ∧ s.rxDelivers 48 = true ∧ s.rxDelivers 49 = true) : s.PairTaken x y := by
  obtain ⟨hx, hy, hcount, h48, h49⟩ := h
  simp [State.PairTaken, State.setTaken, hx, hy, hcount, h48, h49]

theorem exec_mirrorMarkerReceived_miswired (h : s.PairTaken x y)
    (hs : ¬ (bitsOf x.payload.toNat 5 0 = 48 ∧ bitsOf y.payload.toNat 5 0 = 49))
    (hc : ¬ (bitsOf x.payload.toNat 5 0 = 49 ∧ bitsOf y.payload.toNat 5 0 = 48)) :
    exec (.mirrorMarkerReceived x y k) s
      = .next ((s.miswired 48 (bitsOf x.payload.toNat 5 0)).miswired 49 (bitsOf y.payload.toNat 5 0)) := by
  have hs' : (bitsOf x.payload.toNat 5 0 == 48 && bitsOf y.payload.toNat 5 0 == 49) = false := by simpa using hs
  have hc' : (bitsOf x.payload.toNat 5 0 == 49 && bitsOf y.payload.toNat 5 0 == 48) = false := by simpa using hc
  unfold State.PairTaken at h
  simp only [exec, execMirrorMarkerReceived, h, hs', hc', Bool.false_eq_true, if_false, Bool.not_false, Bool.and_self, if_true]

/-- A skew of more than 64 blocks is reported. -/
def State.skewReported (s : State) (k : Int) : State :=
  if 64 < k.natAbs then (s.mark F.LPHY_MIR_STAT_skew_err).raise .mirSkew 0 0 (twos 64 k) else s

/-- What a straight or exchanged pair does: a skew that is too large is reported, and the bond formed, kept or dropped. -/
theorem exec_mirrorMarkerReceived_named (h : s.PairTaken x y)
    (hlanes : bitsOf x.payload.toNat 5 0 = 48 ∧ bitsOf y.payload.toNat 5 0 = 49
      ∨ bitsOf x.payload.toNat 5 0 = 49 ∧ bitsOf y.payload.toNat 5 0 = 48) :
    exec (.mirrorMarkerReceived x y k) s
      = .next (if (s.skewReported k).fb F.LPHY_MIR_STAT_bonded then
            (if 4 < (k - sx 8 ((s.skewReported k).f F.LPHY_MIR_STAT_skew)).natAbs then (s.skewReported k).unbond
             else (s.skewReported k).alignPair)
          else if 64 < k.natAbs then s.skewReported k
          else (s.skewReported k).alignPair.bond (decide (bitsOf x.payload.toNat 5 0 = 49)) k) := by
  have hnamed : (!(bitsOf x.payload.toNat 5 0 == 48 && bitsOf y.payload.toNat 5 0 == 49)
      && !decide (bitsOf x.payload.toNat 5 0 = 49)) = false := by
    rcases hlanes with ⟨ha, hb⟩ | ⟨ha, hb⟩ <;> rw [ha, hb] <;> rfl
  have hcrossed : (bitsOf x.payload.toNat 5 0 == 49 && bitsOf y.payload.toNat 5 0 == 48)
      = decide (bitsOf x.payload.toNat 5 0 = 49) := by
    rcases hlanes with ⟨ha, hb⟩ | ⟨ha, hb⟩ <;> rw [ha, hb] <;> rfl
  unfold State.PairTaken at h
  simp only [exec, execMirrorMarkerReceived, h, hnamed, hcrossed, Bool.false_eq_true, if_false, decide_eq_true_eq, gt_iff_lt]
  rw [← State.skewReported]
  split
  · rfl
  · split <;> rfl

end

/-! ### The bond (R122, R123) -/

/-- A code of `w` bits reads as the number it was made of. -/
theorem sx_twos {w : Nat} {k : Int} (h : -(2 ^ w : Nat) ≤ 2 * k) (h' : 2 * k < (2 ^ w : Nat)) (hw : w ≠ 0) :
    sx w (twos w k % 2 ^ w) = k := by
  have htwo : 2 ^ w = 2 * 2 ^ (w - 1) := by rw [← Nat.pow_succ', Nat.succ_eq_add_one, Nat.sub_add_cancel (Nat.one_le_iff_ne_zero.mpr hw)]
  have hpos : 0 < 2 ^ (w - 1) := Nat.two_pow_pos _
  unfold sx twos
  rw [htwo] at h h' ⊢
  generalize 2 ^ (w - 1) = m at *
  dsimp only
  by_cases hk : 0 ≤ k
  · have hmod : k % ((2 * m : Nat) : Int) = k := Int.emod_eq_of_lt hk (by omega)
    rw [hmod, Nat.mod_mod, Nat.mod_eq_of_lt (by omega), if_neg (by omega)]
    omega
  · have hmod : k % ((2 * m : Nat) : Int) = k + (2 * m : Nat) := by
      rw [← Int.add_emod_right, Int.emod_eq_of_lt (by omega) (by omega)]
    rw [hmod, Nat.mod_mod, Nat.mod_eq_of_lt (by omega), if_pos (by omega)]
    omega

section
variable {s : State} {x : Fld}

theorem State.rd_withPair (s : State) (p : Pair) (off : Nat) : { s with pair := p }.rd off = s.rd off := rfl

/-- The loss is noted for the Lost path; a join that opens writes join_done alone, and raises nothing. -/
theorem State.bondLost_keeps (s : State) : s.bondLost.events = s.events ∧ s.bondLost.pair.bondAt = some s.cyc
    ∧ (R.RED_STAT ≠ x.off → s.bondLost.rd x.off = s.rd x.off) := by
  unfold State.bondLost State.openJoin
  simp only
  split
  · refine ⟨by simp, rfl, fun h => ?_⟩
    rw [State.rd_withPair, State.rd_setF_ne _ _ _ h.symm, State.rd_withPair]
  · exact ⟨rfl, rfl, fun _ => rfl⟩

theorem State.unbond_idle (h : s.fb F.LPHY_MIR_STAT_bonded = false) : s.unbond = s := by simp [State.unbond, h]

/-- A bond that is dropped leaves its sticky bit and MIR_UNBOND, and its instant. -/
theorem State.unbond_bonded (h : s.fb F.LPHY_MIR_STAT_bonded = true) : s.unbond.fb F.LPHY_MIR_STAT_bonded = false
    ∧ s.unbond.fb F.LPHY_MIR_STAT_bond_lost = true ∧ s.raised s.unbond = [.mirUnbond] ∧ s.unbond.pair.bondAt = some s.cyc := by
  set u := (((s.setF F.LPHY_MIR_STAT_bonded 0).mark F.LPHY_MIR_STAT_bond_lost).raise .mirUnbond 0 0 0) with hu
  have hs : s.unbond = u.bondLost := by simp [State.unbond, h, hu]
  have hcyc : u.cyc = s.cyc := by simp [hu]
  rw [hs]
  refine ⟨?_, ?_, ?_, (u.bondLost_keeps (x := F.LPHY_MIR_STAT_bonded)).2.1.trans (by rw [hcyc])⟩
  · rw [State.fb_of_rd (u.bondLost_keeps.2.2 (by decide)), hu, State.fb_of_rd (State.rd_raise ..),
      State.fb_mark_apart _ ⟨by decide, by decide⟩ (.inr (by decide))]
    exact State.fb_setF_bit _ ⟨by decide, by decide⟩ rfl false
  · rw [State.fb_of_rd (u.bondLost_keeps.2.2 (by decide)), hu, State.fb_of_rd (State.rd_raise ..),
      State.fb_mark_same _ ⟨by decide, by decide⟩ rfl]
  · rw [State.raised, (u.bondLost_keeps (x := F.LPHY_MIR_STAT_bonded)).1]
    exact State.raised_raise (by simp) ..

/-- A skew within the limit is not reported; one beyond is, and leaves the bond alone. -/
theorem State.skewReported_within {k : Int} (h : k.natAbs ≤ 64) : s.skewReported k = s := if_neg (by omega)

theorem State.skewReported_wide {k : Int} (h : 64 < k.natAbs) : (s.skewReported k).fb F.LPHY_MIR_STAT_bonded = s.fb F.LPHY_MIR_STAT_bonded
    ∧ (s.skewReported k).fb F.LPHY_MIR_STAT_skew_err = true ∧ s.raised (s.skewReported k) = [.mirSkew] := by
  rw [State.skewReported, if_pos h]
  refine ⟨?_, ?_, State.raised_raise (by simp) ..⟩
  · rw [State.fb_of_rd (State.rd_raise ..), State.fb_mark_apart _ ⟨by decide, by decide⟩ (.inr (by decide))]
  · rw [State.fb_of_rd (State.rd_raise ..), State.fb_mark_same _ ⟨by decide, by decide⟩ rfl]

/-- A bond that forms shows its skew and whether the lanes are exchanged. -/
theorem State.bond_spec (crossed : Bool) {k : Int} (h : k.natAbs ≤ 64) : (s.bond crossed k).fb F.LPHY_MIR_STAT_bonded = true
    ∧ sx 8 ((s.bond crossed k).f F.LPHY_MIR_STAT_skew) = k ∧ (s.bond crossed k).fb F.LPHY_MIR_STAT_swapped = crossed
    ∧ s.raised (s.bond crossed k) = [.mirBond] := by
  set a := s.setF F.LPHY_MIR_STAT_swapped (b2n crossed) with ha
  set b := a.setF F.LPHY_MIR_STAT_skew (twos 8 k) with hb
  set c : State := { b with pair := { b.pair with bondAt := none } } with hc
  have hregs : c.regs = b.regs := rfl
  have hbond : s.bond crossed k = (c.setF F.LPHY_MIR_STAT_bonded 1).raise .mirBond 0 0 (twos 64 k) := rfl
  rw [hbond]
  refine ⟨?_, ?_, ?_, State.raised_raise (by simp [hc, hb, ha]) ..⟩
  · rw [State.fb_of_rd (State.rd_raise ..)]
    exact State.fb_setF_bit _ ⟨by decide, by decide⟩ rfl true
  · rw [State.f_of_rd (State.rd_raise ..), State.f_setF_apart _ _ _ _ ⟨by decide, by decide⟩ (.inr (by decide)), State.f_of_regs hregs,
      hb, State.f_setF_same _ _ _ ⟨by decide, by decide⟩]
    exact sx_twos (w := 8) (by omega) (by omega) (by decide)
  · rw [State.fb_of_rd (State.rd_raise ..), State.fb_setF_apart _ _ ⟨by decide, by decide⟩ (.inr (by decide)), State.fb_of_regs hregs,
      hb, State.fb_setF_apart a _ ⟨by decide, by decide⟩ (.inr (by decide)), ha, State.fb_setF_bit _ ⟨by decide, by decide⟩ rfl]

/-- A lane whose field is another one's is reported. -/
theorem State.miswired_other {l n : Nat} (h : n ≠ l) : (s.miswired l n).fb (F.LPHY_STAT_miswire l) = true
    ∧ (∀ off, off ≠ R.LPHY_STAT l → (s.miswired l n).rd off = s.rd off) ∧ s.raised (s.miswired l n) = [.laneMiswire] := by
  rw [State.miswired, if_neg h]
  refine ⟨?_, fun off hoff => s.rd_mark_ne _ hoff, State.raised_raise (by simp) ..⟩
  rw [State.fb_of_rd (State.rd_raise ..), State.fb_mark_same _ ⟨by simp [F.LPHY_STAT_miswire], by simp [F.LPHY_STAT_miswire]⟩ rfl]

theorem State.miswired_own (s : State) (l : Nat) : s.miswired l l = s := if_pos rfl

end

/-! ### A BLOCK set on a mirror lane (R354) -/

theorem exec_mirrorBlockSet_noted {s : State} {l : Fin 50} {h : RxSet} (hl : 48 ≤ l.val) (hlive : s.live = true)
    (hrx : s.rxDelivers l = true) (hwhole : setWhole 3 h = true) (hcls : h.payload.toNat % 16 = 4) :
    exec (.mirrorBlockSet ⟨l, h⟩) s
      = .next (s.modPair (fun p => { p with blockAt := some (p.blockAt.getD s.cyc), blockLast := some s.cyc })) := by
  simp [exec, execMirrorBlockSet, hl, hlive, hrx, hwhole, hcls]

theorem exec_mirrorBlockSet_idle {s : State} {l : Fin 50} {h : RxSet}
    (hno : setWhole 3 h = false ∨ h.payload.toNat % 16 ≠ 4 ∨ s.rxDelivers l = false) :
    exec (.mirrorBlockSet ⟨l, h⟩) s = .next s := by
  rcases hno with hno | hno | hno <;> simp [exec, execMirrorBlockSet, hno]

end Sys2Proof.Machine
end

section
/-! Markers and bond of the mirror link (R121 to R123, R354). -/

open Sys2Proof.Machine

namespace Sys2Proof

/-- Settles O39, row by row: a marker pair that leaves, one that arrives, one that fails to, and a BLOCK set. -/
theorem mirrorBond : Obligations.MirrorBond := by
  unfold Obligations.MirrorBond
  intro s x y k h a b whole
  have htaken (hw : whole) : s.PairTaken x y := State.pairTaken_of_whole hw
  refine ⟨fun hp h48 h49 => mirrorMarkerPair_leaves hp h48 h49, fun hp => exec_mirrorMarkerPair_unpaired hp,
    fun hw hlanes => ⟨fun hb hk => ?_, fun hb hk => ?_, fun hb hnear hk => ?_, fun hb hfar hk => ?_⟩, fun hw ha hb => ?_,
    fun hw hb ha => ?_, fun hno => exec_mirrorMarkerReceived_untaken k hno, fun hb => ?_, fun hb => ?_,
    fun l hl hlive hrx hset hcls => exec_mirrorBlockSet_noted hl hlive hrx hset hcls, fun l hno => exec_mirrorBlockSet_idle hno⟩
  · refine ⟨_, exec_mirrorMarkerReceived_named k (htaken hw) hlanes, ?_⟩
    rw [State.skewReported_within hk, hb, if_neg (by decide), if_neg (by omega)]
    exact State.bond_spec _ hk
  · obtain ⟨hbond, herr, hraised⟩ := State.skewReported_wide (s := s) hk
    refine ⟨_, exec_mirrorMarkerReceived_named k (htaken hw) hlanes, ?_⟩
    rw [hbond, hb, if_neg (by decide), if_pos hk]
    exact ⟨hbond.trans hb, herr, hraised⟩
  · rw [exec_mirrorMarkerReceived_named k (htaken hw) hlanes, State.skewReported_within hk, hb, if_pos rfl, if_neg (by omega)]
    rfl
  · refine ⟨_, exec_mirrorMarkerReceived_named k (htaken hw) hlanes, ?_⟩
    rw [State.skewReported_within hk, hb, if_pos rfl, if_pos hfar]
    exact State.unbond_bonded hb
  · obtain ⟨hset, hregs, hraised⟩ := State.miswired_other (s := s) (l := 49) hb
    have hcross : ¬ (a = 49 ∧ b = 48) := fun hc => absurd (ha.symm.trans hc.1) (by decide)
    refine ⟨_, exec_mirrorMarkerReceived_miswired k (htaken hw) (fun hs => hb hs.2) hcross, ?_⟩
    rw [show bitsOf x.payload.toNat 5 0 = 48 from ha, State.miswired_own]
    exact ⟨hset, hregs _ (by decide), hraised⟩
  · obtain ⟨hset, hregs, hraised⟩ := State.miswired_other (s := s) (l := 48) ha
    have hcross : ¬ (a = 49 ∧ b = 48) := fun hc => absurd (hb.symm.trans hc.2) (by decide)
    refine ⟨_, exec_mirrorMarkerReceived_miswired k (htaken hw) (fun hs => ha hs.1) hcross, ?_⟩
    rw [show bitsOf y.payload.toNat 5 0 = 49 from hb, State.miswired_own]
    exact ⟨hset, hregs _ (by decide), hraised⟩
  · obtain ⟨hbond, hlost, hraised, -⟩ := State.unbond_bonded hb
    exact ⟨_, rfl, hbond, hlost, hraised⟩
  · exact congrArg Host.Outcome.next (State.unbond_idle hb)

end Sys2Proof
end

section
/-! SUPPORT. Reset and supplies: what the register table, the retention domain and the straps hold after them (R45, R59, R334, R458). -/

namespace Sys2Proof.Machine

/-! ### Field values -/

theorem State.f_lt (s : State) (x : Fld) : s.f x < 2 ^ (x.hi + 1 - x.lo) := bitsOf_lt ..

section
variable {x : Fld}

/-- A field given its own value of before. -/
theorem State.f_setF_value (s : State) {v : Nat} (h : x.ok) (hv : v < 2 ^ (x.hi + 1 - x.lo)) : (s.setF x v).f x = v := by
  rw [s.f_setF_same x v h, Nat.mod_eq_of_lt hv]

theorem State.f_orF_same (s : State) (m : Nat) (h : x.ok) : (s.orF x m).f x = (s.f x ||| m) % 2 ^ (x.hi + 1 - x.lo) := by
  rw [State.orF, State.f_note, State.f_setF_same _ _ _ h]

end

theorem bitOf_eq_testBit (v b : Nat) : bitOf v b = v.testBit b := by
  rw [Nat.testBit_eq_decide_div_mod_eq, bitOf]
  rfl

/-- A set bit reads 1 and leaves the others as they are. -/
theorem bitOf_or_pow (v r k : Nat) : bitOf (v ||| 2 ^ r) k = (bitOf v k || decide (r = k)) := by
  rw [bitOf_eq_testBit, bitOf_eq_testBit, Nat.testBit_or, Nat.testBit_two_pow]

/-- A bit of the low `w` taken out of a value that has no others. -/
theorem bitOf_and_sub {v w r : Nat} (hv : v < 2 ^ w) (hr : r < w) (k : Nat) :
    bitOf (v &&& (2 ^ w - 1 - 2 ^ r)) k = (bitOf v k && decide (r ≠ k)) := by
  have hmask : 2 ^ w - 1 - 2 ^ r = 2 ^ w - (2 ^ r + 1) := by omega
  rw [bitOf_eq_testBit, bitOf_eq_testBit, Nat.testBit_and, hmask, Nat.testBit_two_pow_sub_succ (Nat.pow_lt_pow_right (by decide) hr),
    Nat.testBit_two_pow]
  by_cases hk : k < w
  · simp [hk]
  · have hwk : 2 ^ w ≤ 2 ^ k := Nat.pow_le_pow_right (by decide) (Nat.le_of_not_lt hk)
    simp [Nat.testBit_lt_two_pow (hv.trans_le hwk)]

/-! ### What runs from the clocks -/

theorem State.not_live_of_unlocked {s : State} (h : s.pwr.pllLocked = false) : s.live = false := by simp [State.live, h]

/-! ### Reset -/

section
variable (s : State)

/-- The rails that fall leave the reset state, with the supplies as they were; the retained word alone may take a bit. -/
theorem State.railsFall_keeps : s.railsFall.regs = [] ∧ s.railsFall.grn = [] ∧ s.railsFall.pwr.railOut = s.pwr.railOut
    ∧ s.railsFall.pwr.vbat = s.pwr.vbat ∧ s.railsFall.mode = .boot := by
  have hcold (u : State) : u.coldReset.regs = [] ∧ u.coldReset.grn = [] ∧ u.coldReset.pwr.railOut = u.pwr.railOut
      ∧ u.coldReset.pwr.vbat = u.pwr.vbat ∧ u.coldReset.mode = .boot := ⟨rfl, rfl, rfl, rfl, rfl⟩
  have hhist (u : State) (x : Fld) : (u.faultHist x).pwr = u.pwr := by simp [State.faultHist, State.retChanged]
  unfold State.railsFall
  simp only
  split
  · rename_i hawake
    have hfall (u : State) (h : u.pwr = s.pwr) : u.coldReset.regs = [] ∧ u.coldReset.grn = [] ∧ u.coldReset.pwr.railOut = s.pwr.railOut
        ∧ u.coldReset.pwr.vbat = s.pwr.vbat ∧ u.coldReset.mode = .boot := h ▸ hcold u
    apply hfall
    repeat' split
    all_goals simp [hhist]
  · split
    · exact hcold s
    · exact hcold s

/-- The check of the retention domain writes the fault-history word, SAF_STAT and its working copy. -/
theorem State.retentionCheck_keeps : s.retentionCheck.pwr = s.pwr ∧ s.retentionCheck.grn = s.grn
    ∧ ∀ off, off ≠ R.SAF_STAT → off ≠ R.SAF_FAULT_HIST → s.retentionCheck.rd off = s.rd off := by
  have hflush : s.retFlush.pwr = s.pwr ∧ s.retFlush.grn = s.grn ∧ s.retFlush.regs = s.regs := by
    unfold State.retFlush
    split <;> exact ⟨rfl, rfl, rfl⟩
  obtain ⟨hpwr, hgrn, hregs⟩ := hflush
  unfold State.retentionCheck
  simp only
  split
  all_goals
    refine ⟨by simpa using hpwr, by simpa using hgrn, fun off hstat hhist => ?_⟩
    rw [State.rd_wr_ne _ _ hhist]
    exact (s.retFlush.rd_setF_ne F.SAF_STAT_ret_err 0 hstat).trans (State.rd_of_regs hregs off)

theorem State.mapCheck_keeps : s.mapCheck.pwr = s.pwr ∧ s.mapCheck.grn = s.grn := by
  have h : s.mapCheck = _ := (State.RegsOnly.refl s).mapCheck
  rw [h]
  exact ⟨rfl, rfl⟩

/-- Of the arms shown, none has the register. -/
theorem State.showInstalled_rd_of_notMem {arms : List Nat} {off : Nat} (h : ∀ a ∈ arms, off ≠ R.GLB_ARM_STAT a) :
    (s.showInstalled arms).rd off = s.rd off := by
  induction arms generalizing s with
  | nil => rfl
  | cons a arms ih =>
    rw [State.showInstalled_cons, ih _ fun b hb => h b (List.mem_cons_of_mem _ hb),
      s.rd_setF_ne (F.GLB_ARM_STAT_n_installed a) _ (h a List.mem_cons_self)]

theorem State.mapCheck_rd_above {off : Nat} (h : R.GLB_MAP_STAT < off) : s.mapCheck.rd off = s.rd off := by
  obtain ⟨v, hv⟩ := s.mapCheck_eq
  rw [hv, State.rd_wr_ne _ _ (Nat.ne_of_gt h), s.showInstalled_rd_of_notMem fun a ha => ?_]
  have ha' : a < 12 := List.mem_range.mp ha
  simp only [R.GLB_MAP_STAT, R.GLB_ARM_STAT] at h ⊢
  omega

variable (sel : Nat) (pb : Bool)

/-- The straps in the register table of a reset. -/
def State.strapped (s : State) (sel : Nat) (pb : Bool) : State :=
  ((s.coldReset.setF F.GLB_BOOT_STAT_boot_sel sel).setF F.GLB_BOOT_STAT_sel_reserved (b2n (decide (sel = 3)))).setF F.HIF_CFG_bif (b2n pb)

/-- The test-pulse outputs hold their supply level. -/
def State.tpHold (s : State) : State := { s with saf := { s.saf with tpLevelA := true, tpLevelB := true } }

theorem State.tpHold_keeps : s.tpHold.pwr = s.pwr ∧ s.tpHold.grn = s.grn ∧ ∀ off, s.tpHold.rd off = s.rd off := ⟨rfl, rfl, fun _ => rfl⟩

theorem State.resetEnd_eq : s.resetEnd sel pb = (s.strapped sel pb).mapCheck.retentionCheck.tpHold := by
  unfold State.resetEnd State.strapped State.tpHold
  simp only

theorem State.strapped_keeps : (s.strapped sel pb).pwr = s.coldReset.pwr ∧ (s.strapped sel pb).grn = [] := ⟨rfl, rfl⟩

/-- The checks at the end of a reset leave the supplies and the straps as they are. -/
theorem State.resetEnd_keeps : (s.resetEnd sel pb).pwr = s.coldReset.pwr ∧ (s.resetEnd sel pb).grn = []
    ∧ (s.resetEnd sel pb).rd R.GLB_BOOT_STAT = (s.strapped sel pb).rd R.GLB_BOOT_STAT
    ∧ (s.resetEnd sel pb).rd R.HIF_CFG = (s.strapped sel pb).rd R.HIF_CFG := by
  rw [s.resetEnd_eq]
  obtain ⟨hpwr, hgrn, hrd⟩ := (s.strapped sel pb).mapCheck.retentionCheck.tpHold_keeps
  obtain ⟨hpwr1, hgrn1, hrd1⟩ := (s.strapped sel pb).mapCheck.retentionCheck_keeps
  obtain ⟨hpwr2, hgrn2⟩ := (s.strapped sel pb).mapCheck_keeps
  obtain ⟨hpwr3, hgrn3⟩ := s.strapped_keeps sel pb
  have hboot : ∀ a, R.GLB_BOOT_STAT ≠ R.GLB_ARM_STAT a := fun a => by simp only [R.GLB_BOOT_STAT, R.GLB_ARM_STAT]; omega
  rw [hpwr, hpwr1, hpwr2, hpwr3, hgrn, hgrn1, hgrn2, hgrn3, hrd, hrd, hrd1 _ (by decide) (by decide), hrd1 _ (by decide) (by decide),
    State.mapCheck_rd _ (by decide) hboot, State.mapCheck_rd_above _ (by decide)]
  exact ⟨rfl, rfl, rfl, rfl⟩

/-- The supplies stay as they are, and the PLL has to lock again. -/
theorem State.resetEnd_pwr : (s.resetEnd sel pb).pwr.rails = s.pwr.rails ∧ (s.resetEnd sel pb).pwr.porstLow = s.pwr.porstLow
    ∧ (s.resetEnd sel pb).pwr.railReset = s.pwr.railReset ∧ (s.resetEnd sel pb).pwr.railOut = s.pwr.railOut
    ∧ (s.resetEnd sel pb).live = false := by
  have hcold : s.coldReset.pwr.rails = s.pwr.rails ∧ s.coldReset.pwr.porstLow = s.pwr.porstLow ∧ s.coldReset.pwr.railReset = s.pwr.railReset
      ∧ s.coldReset.pwr.railOut = s.pwr.railOut ∧ s.coldReset.pwr.pllLocked = false := ⟨rfl, rfl, rfl, rfl, rfl⟩
  obtain ⟨hpwr, -⟩ := s.resetEnd_keeps sel pb
  rw [← hpwr] at hcold
  obtain ⟨hrails, hporst, hreset, hout, hlock⟩ := hcold
  exact ⟨hrails, hporst, hreset, hout, State.not_live_of_unlocked hlock⟩

/-- BOOT_SEL as sampled, and its reserved value. -/
theorem State.resetEnd_bootSel (h : sel < 4) : (s.resetEnd sel pb).f F.GLB_BOOT_STAT_boot_sel = sel
    ∧ (s.resetEnd sel pb).fb F.GLB_BOOT_STAT_sel_reserved = decide (sel = 3) := by
  obtain ⟨-, -, hrd, -⟩ := s.resetEnd_keeps sel pb
  have hbif (u : State) (y : Fld) (hy : y.off = R.GLB_BOOT_STAT) : (u.setF F.HIF_CFG_bif (b2n pb)).f y = u.f y :=
    State.f_setF_apart _ _ _ _ ⟨by decide, by decide⟩ (.inl (hy ▸ by decide))
  constructor
  · rw [State.f_of_rd (x := F.GLB_BOOT_STAT_boot_sel) hrd, State.strapped, hbif _ _ rfl,
      State.f_setF_apart _ _ _ _ ⟨by decide, by decide⟩ (.inr (by decide)),
      State.f_setF_value _ ⟨by decide, by decide⟩ h]
  · rw [State.fb_of_rd (x := F.GLB_BOOT_STAT_sel_reserved) hrd, State.fb, State.strapped, hbif _ _ rfl]
    exact State.fb_setF_bit _ ⟨by decide, by decide⟩ rfl _

theorem State.resetEnd_bif : (s.resetEnd sel pb).fb F.HIF_CFG_bif = pb := by
  obtain ⟨-, -, -, hrd⟩ := s.resetEnd_keeps sel pb
  rw [State.fb_of_rd (x := F.HIF_CFG_bif) hrd]
  exact State.fb_setF_bit _ ⟨by decide, by decide⟩ rfl _

end

/-! ### Supplies -/

section
variable {s : State} {r : Fin 7}

/-- Without main rails: DORMANT with VBAT, else OFF with nothing retained. -/
def State.unsupplied (s : State) : State :=
  if s.pwr.vbat then
    { s with pwr := { s.pwr with rails := false, railReset := false, railOut := 0 }, tim := { s.tim with espHold := none }, mode := .dormant }
  else
    { s with pwr := { s.pwr with rails := false, railReset := false, railOut := 0 }, tim := { s.tim with espHold := none }, mode := .off,
             saf := { s.saf with retBytes := [] } }

theorem State.unsupplied_keeps (s : State) : s.unsupplied.pwr.rails = false ∧ s.unsupplied.grn = s.grn ∧ s.unsupplied.regs = s.regs
    ∧ (s.pwr.vbat = true → s.unsupplied.mode = .dormant) ∧ (s.pwr.vbat = false → s.unsupplied.mode = .off ∧ s.unsupplied.saf.retBytes = []) := by
  unfold State.unsupplied
  cases s.pwr.vbat with
  | true => exact ⟨rfl, rfl, rfl, fun _ => rfl, nofun⟩
  | false => exact ⟨rfl, rfl, rfl, nofun, fun _ => ⟨rfl, rfl⟩⟩

theorem exec_mainRailsRemoved_eq (h : s.pwr.rails = true) : exec .mainRailsRemoved s
    = .next ((s.railsFall.setF F.GLB_BOOT_STAT_boot_sel s.bootSel).setF F.HIF_CFG_bif (b2n (s.fb F.HIF_CFG_bif))).unsupplied := by
  simp only [exec, execMainRailsRemoved, h, if_true, State.unsupplied]
  split <;> rfl

theorem exec_mainRailsRemoved_rails (h : s.pwr.rails = true) :
    ∃ t, exec .mainRailsRemoved s = .next t ∧ t.pwr.rails = false ∧ t.grn = []
      ∧ (∀ off, off ≠ R.GLB_BOOT_STAT → off ≠ R.HIF_CFG → t.rd off = State.reset.rd off)
      ∧ (s.pwr.vbat = true → t.mode = .dormant) ∧ (s.pwr.vbat = false → t.mode = .off ∧ t.saf.retBytes = []) := by
  obtain ⟨hregs, hgrn, -, hvbat, -⟩ := s.railsFall_keeps
  have hrd (off : Nat) : s.railsFall.rd off = State.reset.rd off := by rw [State.rd, hregs]; rfl
  refine ⟨_, exec_mainRailsRemoved_eq h, ?_⟩
  obtain ⟨hrails, hgrn', hregs', hdormant, hoff⟩ :=
    ((s.railsFall.setF F.GLB_BOOT_STAT_boot_sel s.bootSel).setF F.HIF_CFG_bif (b2n (s.fb F.HIF_CFG_bif))).unsupplied_keeps
  simp only [State.setF_keeps] at hgrn' hdormant hoff
  rw [hvbat] at hdormant hoff
  refine ⟨hrails, hgrn'.trans hgrn, fun off h1 h2 => ?_, hdormant, hoff⟩
  rw [State.rd_of_regs hregs', State.rd_setF_ne _ _ _ h2, State.rd_setF_ne _ _ _ h1, hrd]

theorem exec_porstAssert_powered (h : s.mode.powered = true) :
    ∃ t, exec .porstAssert s = .next t ∧ t.live = false ∧ t.regs = [] ∧ t.grn = [] ∧ t.dm = [] ∧ t.pm = []
      ∧ (s.saf.retDirty = false → t.saf.retBytes = s.saf.retBytes) ∧ (s.saf.retDirty = true → t.saf.retBytes = s.retImage) := by
  refine ⟨_, if_pos h, State.not_live_of_unlocked rfl, rfl, rfl, rfl, rfl, fun hd => ?_, fun hd => ?_⟩
  · exact if_neg (by simp [hd])
  · exact if_pos hd

theorem exec_porstRelease_low (sel : Fin 4) (pb : Bool) (h : s.pwr.porstLow = true) :
    ∃ t, exec (.porstRelease sel pb) s = .next t ∧ t.pwr.porstLow = false ∧ t.live = false
      ∧ t.f F.GLB_BOOT_STAT_boot_sel = sel ∧ (t.fb F.GLB_BOOT_STAT_sel_reserved = true ↔ sel = 3) ∧ t.fb F.HIF_CFG_bif = pb := by
  have hexec : exec (.porstRelease sel pb) s
      = .next ({ s with pwr := { s.pwr with porstLow := false, rails := true } }.resetEnd sel pb) := if_pos h
  obtain ⟨-, hporst, -, -, hlive⟩ := { s with pwr := { s.pwr with porstLow := false, rails := true } }.resetEnd_pwr sel pb
  obtain ⟨hsel, hres⟩ := { s with pwr := { s.pwr with porstLow := false, rails := true } }.resetEnd_bootSel sel.val pb sel.isLt
  refine ⟨_, hexec, hporst, hlive, hsel, ?_, State.resetEnd_bif _ _ pb⟩
  rw [hres, decide_eq_true_eq, Fin.ext_iff]
  rfl

theorem exec_railFault_rails (r : Fin 7) (h : s.pwr.rails = true) :
    ∃ t, exec (.railFault r) s = .next t ∧ t.pwr.railReset = true ∧ t.live = false
      ∧ t.f F.GLB_BOOT_STAT_boot_sel = s.f F.GLB_BOOT_STAT_boot_sel ∧ t.grn = [] ∧ bitOf t.pwr.railOut r = true := by
  have hexec : exec (.railFault r) s = .next ({ s.railsFall with pwr := { s.railsFall.pwr with
      railReset := true, railOut := s.railsFall.pwr.railOut ||| 2 ^ r.val } }.resetEnd s.bootSel (s.fb F.HIF_CFG_bif)) := if_pos h
  generalize s.railsFall = u at hexec
  obtain ⟨-, -, hreset, hout, hlive⟩ := { u with pwr := { u.pwr with
      railReset := true, railOut := u.pwr.railOut ||| 2 ^ r.val } }.resetEnd_pwr s.bootSel (s.fb F.HIF_CFG_bif)
  obtain ⟨hsel, -⟩ := { u with pwr := { u.pwr with
      railReset := true, railOut := u.pwr.railOut ||| 2 ^ r.val } }.resetEnd_bootSel s.bootSel (s.fb F.HIF_CFG_bif) (s.f_lt F.GLB_BOOT_STAT_boot_sel)
  refine ⟨_, hexec, hreset, hlive, hsel, (State.resetEnd_keeps _ _ _).2.1, ?_⟩
  rw [hout, bitOf_or_pow]
  simp

theorem exec_railRecover_dormant (h : s.pwr.rails = false) (hvbat : s.pwr.vbat = true) :
    ∃ t, exec .railRecover s = .next t ∧ t.pwr.rails = true ∧ t.pwr.railReset = false
      ∧ t.pwr.railOut = 0 ∧ t.live = false ∧ t.grn = [] ∧ t.f F.GLB_BOOT_STAT_boot_sel = s.f F.GLB_BOOT_STAT_boot_sel
      ∧ t.fb F.HIF_CFG_bif = s.fb F.HIF_CFG_bif := by
  have hback : (!s.pwr.rails && s.pwr.vbat) = true := by rw [h, hvbat]; rfl
  have hexec : exec .railRecover s = .next ({ s with pwr := { s.pwr with rails := true, railReset := false, railOut := 0 } }.resetEnd s.bootSel
      (s.fb F.HIF_CFG_bif)) := congrArg Host.Outcome.next (if_pos hback)
  obtain ⟨hrails, -, hreset, hout, hlive⟩ := { s with pwr := { s.pwr with rails := true, railReset := false, railOut := 0 } }.resetEnd_pwr s.bootSel
    (s.fb F.HIF_CFG_bif)
  obtain ⟨hsel, -⟩ := { s with pwr := { s.pwr with rails := true, railReset := false, railOut := 0 } }.resetEnd_bootSel s.bootSel
    (s.fb F.HIF_CFG_bif) (s.f_lt F.GLB_BOOT_STAT_boot_sel)
  exact ⟨_, hexec, hrails, hreset, hout, hlive, (State.resetEnd_keeps _ _ _).2.1, hsel, State.resetEnd_bif _ _ _⟩

/-! ### Rail monitor -/

theorem exec_railWarn_within (r : Fin 7) (h : s.up = true) :
    ∃ t, exec (.railWarn ⟨r, true⟩) s = .next t ∧ bitOf (t.f F.GLB_RAIL_STAT_ok) r = true
      ∧ (∀ k, k ≠ r.val → bitOf (t.f F.GLB_RAIL_STAT_ok) k = bitOf (s.f F.GLB_RAIL_STAT_ok) k)
      ∧ t.f F.GLB_RAIL_STAT_warn = s.f F.GLB_RAIL_STAT_warn ∧ t.events = s.events ∧ (∀ off, off ≠ R.GLB_RAIL_STAT → t.rd off = s.rd off) := by
  have hval : s.f F.GLB_RAIL_STAT_ok ||| 2 ^ r.val < 2 ^ 7 :=
    Nat.or_lt_two_pow (s.f_lt F.GLB_RAIL_STAT_ok) (Nat.pow_lt_pow_right (by decide) r.isLt)
  have hok := s.f_setF_value (x := F.GLB_RAIL_STAT_ok) ⟨by decide, by decide⟩ hval
  have hexec : exec (.railWarn ⟨r, true⟩) s = .next (s.setF F.GLB_RAIL_STAT_ok (s.f F.GLB_RAIL_STAT_ok ||| 2 ^ r.val)) := by
    simp [exec, execRailWarn, h]
  refine ⟨_, hexec, ?_, fun k hk => ?_,
    State.f_setF_apart _ _ _ _ ⟨by decide, by decide⟩ (.inr (by decide)), by simp, fun off hoff => s.rd_setF_ne _ _ hoff⟩
  · rw [hok, bitOf_or_pow]
    simp
  · rw [hok, bitOf_or_pow, decide_eq_false (Ne.symm hk), Bool.or_false]

theorem exec_railWarn_outside (r : Fin 7) (h : s.up = true) :
    ∃ t, exec (.railWarn ⟨r, false⟩) s = .next t ∧ t.f F.GLB_RAIL_STAT_warn = (s.f F.GLB_RAIL_STAT_warn ||| 2 ^ r.val)
      ∧ bitOf (t.f F.GLB_RAIL_STAT_ok) r = false ∧ (∀ k, k ≠ r.val → bitOf (t.f F.GLB_RAIL_STAT_ok) k = bitOf (s.f F.GLB_RAIL_STAT_ok) k)
      ∧ t.events = s.events ∧ t.mode = s.mode ∧ (∀ off, off ≠ R.GLB_RAIL_STAT → t.rd off = s.rd off) := by
  have hwarn : s.f F.GLB_RAIL_STAT_warn ||| 2 ^ r.val < 2 ^ 7 :=
    Nat.or_lt_two_pow (s.f_lt F.GLB_RAIL_STAT_warn) (Nat.pow_lt_pow_right (by decide) r.isLt)
  have hval : s.f F.GLB_RAIL_STAT_ok &&& (2 ^ 7 - 1 - 2 ^ r.val) < 2 ^ 7 :=
    Nat.and_lt_two_pow _ (Nat.lt_of_le_of_lt (Nat.sub_le ..) (by decide))
  have hbits (k : Nat) := bitOf_and_sub (w := 7) (s.f_lt F.GLB_RAIL_STAT_ok) r.isLt k
  set u := s.orF F.GLB_RAIL_STAT_warn (2 ^ r.val) with hu
  have hok := u.f_setF_value (x := F.GLB_RAIL_STAT_ok) ⟨by decide, by decide⟩ hval
  have hexec : exec (.railWarn ⟨r, false⟩) s = .next (u.setF F.GLB_RAIL_STAT_ok (s.f F.GLB_RAIL_STAT_ok &&& (2 ^ 7 - 1 - 2 ^ r.val))) := by
    simp [exec, execRailWarn, h, hu]
  refine ⟨_, hexec, ?_, ?_, fun k hk => ?_, ?_, ?_,
    fun off hoff => ?_⟩
  · rw [State.f_setF_apart _ _ _ _ ⟨by decide, by decide⟩ (.inr (by decide)), State.f_orF_same _ _ ⟨by decide, by decide⟩]
    exact Nat.mod_eq_of_lt hwarn
  · exact (congrArg (bitOf · r) hok).trans (by rw [hbits]; simp)
  · exact (congrArg (bitOf · k) hok).trans (by rw [hbits]; simp [Ne.symm hk])
  · simp [hu]
  · simp [hu]
  · rw [State.rd_setF_ne _ _ _ hoff]
    exact s.rd_setF_ne F.GLB_RAIL_STAT_warn _ hoff

end

/-! ### Die temperature (R470) -/

section
variable (s : State)

/-- A sticky bit that a condition sets. -/
def State.markWhere (s : State) (p : Bool) (x : Fld) : State := if p then s.mark x else s

/-- A register of the device takes new values, and nothing but the note of the die temperature is written outside the table. -/
def State.OnlyReg (s t : State) (off : Nat) : Prop := t.cyc = s.cyc ∧ t.mode = s.mode ∧ t.events = s.events ∧ ∀ o, o ≠ off → t.rd o = s.rd o

theorem State.OnlyReg.trans {s t u : State} {off : Nat} (h : s.OnlyReg t off) (h' : t.OnlyReg u off) : s.OnlyReg u off := by
  obtain ⟨hcyc, hmode, hevents, hrd⟩ := h
  obtain ⟨hcyc', hmode', hevents', hrd'⟩ := h'
  exact ⟨hcyc'.trans hcyc, hmode'.trans hmode, hevents'.trans hevents, fun o ho => (hrd' o ho).trans (hrd o ho)⟩

theorem State.setF_onlyReg (x : Fld) (v : Nat) : s.OnlyReg (s.setF x v) x.off :=
  ⟨by simp, by simp, by simp, fun _ ho => s.rd_setF_ne x v ho⟩

theorem State.markWhere_onlyReg (p : Bool) (x : Fld) : s.OnlyReg (s.markWhere p x) x.off := by
  unfold State.markWhere
  split
  · exact ⟨by simp, by simp, by simp, fun _ ho => s.rd_mark_ne x ho⟩
  · exact ⟨rfl, rfl, rfl, fun _ _ => rfl⟩

theorem State.markWhere_pwr (p : Bool) (x : Fld) : (s.markWhere p x).pwr = s.pwr := by
  unfold State.markWhere
  split <;> simp

theorem State.fb_markWhere_same {p : Bool} {x : Fld} (h : x.ok) (hb : x.hi = x.lo) : (s.markWhere p x).fb x = (s.fb x || p) := by
  cases p with
  | true => rw [Bool.or_true]; exact s.fb_mark_same h hb
  | false => rw [Bool.or_false]; rfl

theorem State.f_markWhere_apart {p : Bool} {x y : Fld} (h : x.ok) (hxy : x.apart y) : (s.markWhere p x).f y = s.f y := by
  cases p with
  | true => exact s.f_mark_apart x y h hxy
  | false => rfl

/-- The largest code since the field was read. -/
def State.worstTemp (s : State) (k : Int) : State :=
  if s.pwr.tempSeen && decide (k < sx 12 (s.f F.GLB_DIE_TEMP_worst)) then s
  else { ((s.setF F.GLB_DIE_TEMP_worst 0).putWorst F.GLB_DIE_TEMP_worst (twos 12 k)) with pwr := { s.pwr with tempSeen := true } }

/-- A new largest code replaces the whole field. -/
theorem State.putWorst_zeroed (v : Nat) : (s.setF F.GLB_DIE_TEMP_worst 0).putWorst F.GLB_DIE_TEMP_worst v
    = ((s.setF F.GLB_DIE_TEMP_worst 0).setF F.GLB_DIE_TEMP_worst v).note F.GLB_DIE_TEMP_worst.off (v % 2 ^ 12 * 2 ^ 16) := by
  have hzero : (s.setF F.GLB_DIE_TEMP_worst 0).f F.GLB_DIE_TEMP_worst = 0 := State.f_setF_value _ ⟨by decide, by decide⟩ (by decide)
  rw [State.putWorst, hzero, if_pos (Nat.zero_le _)]
  rfl

theorem State.f_tempSeen (p : Power) (x : Fld) : { s with pwr := p }.f x = s.f x := rfl

theorem State.tempSeen_onlyReg (p : Power) (off : Nat) : s.OnlyReg { s with pwr := p } off := ⟨rfl, rfl, rfl, fun _ _ => rfl⟩

theorem State.note_onlyReg (o m off : Nat) : s.OnlyReg (s.note o m) off := ⟨rfl, rfl, rfl, fun _ _ => rfl⟩

theorem State.worstTemp_onlyReg (k : Int) : s.OnlyReg (s.worstTemp k) R.GLB_DIE_TEMP := by
  unfold State.worstTemp
  split
  · exact ⟨rfl, rfl, rfl, fun _ _ => rfl⟩
  · rw [State.putWorst_zeroed]
    exact (((s.setF_onlyReg F.GLB_DIE_TEMP_worst 0).trans (State.setF_onlyReg _ F.GLB_DIE_TEMP_worst _)).trans
      (State.note_onlyReg ..)).trans (State.tempSeen_onlyReg ..)

theorem State.worstTemp_seen (k : Int) : (s.worstTemp k).pwr.tempSeen = true := by
  unfold State.worstTemp
  split
  · rename_i h
    exact (Bool.and_eq_true_iff.mp h).1
  · rfl

theorem State.f_worstTemp_apart {x : Fld} (k : Int) (h : F.GLB_DIE_TEMP_worst.apart x) : (s.worstTemp k).f x = s.f x := by
  unfold State.worstTemp
  split
  · rfl
  · rw [State.putWorst_zeroed, State.f_tempSeen, State.f_note, State.f_setF_apart _ _ _ _ ⟨by decide, by decide⟩ h,
      State.f_setF_apart _ _ _ _ ⟨by decide, by decide⟩ h]

theorem State.worstTemp_shows {k : Int} (h : -2048 ≤ k) (h' : k ≤ 2047) :
    sx 12 ((s.worstTemp k).f F.GLB_DIE_TEMP_worst) = (if s.pwr.tempSeen then max (sx 12 (s.f F.GLB_DIE_TEMP_worst)) k else k) := by
  unfold State.worstTemp
  by_cases hless : (s.pwr.tempSeen && decide (k < sx 12 (s.f F.GLB_DIE_TEMP_worst))) = true
  · obtain ⟨hseen, hk⟩ := Bool.and_eq_true_iff.mp hless
    rw [if_pos hless, if_pos hseen, max_eq_left (le_of_lt (of_decide_eq_true hk))]
  · have hval : sx 12 (twos 12 k % 2 ^ 12) = k := sx_twos (by omega) (by omega) (by decide)
    have hmax : (if s.pwr.tempSeen then max (sx 12 (s.f F.GLB_DIE_TEMP_worst)) k else k) = k := by
      split
      · rename_i hseen
        rw [hseen, Bool.true_and, decide_eq_true_eq] at hless
        exact max_eq_right (not_lt.mp hless)
      · rfl
    rw [if_neg hless, hmax, State.putWorst_zeroed, State.f_tempSeen, State.f_note, State.f_setF_same _ _ _ ⟨by decide, by decide⟩]
    exact hval

/-- A code as the register shows it. -/
def State.tempShown (s : State) (k : Int) : State :=
  (((s.setF F.GLB_DIE_TEMP_now (twos 12 k)).worstTemp k).markWhere (decide (420 ≤ k)) F.GLB_DIE_TEMP_hot_seen).markWhere (decide (460 ≤ k))
    F.GLB_DIE_TEMP_over_seen

theorem State.tempShown_onlyReg (k : Int) : s.OnlyReg (s.tempShown k) R.GLB_DIE_TEMP := by
  have hnow := s.setF_onlyReg F.GLB_DIE_TEMP_now (twos 12 k)
  have hworst := hnow.trans (State.worstTemp_onlyReg _ k)
  exact (hworst.trans (State.markWhere_onlyReg _ _ F.GLB_DIE_TEMP_hot_seen)).trans (State.markWhere_onlyReg _ _ F.GLB_DIE_TEMP_over_seen)

theorem State.tempShown_seen (k : Int) : (s.tempShown k).pwr.tempSeen = true := by
  rw [State.tempShown, State.markWhere_pwr, State.markWhere_pwr, State.worstTemp_seen]

theorem State.tempShown_fields {k : Int} (h : -2048 ≤ k) (h' : k ≤ 2047) : sx 12 ((s.tempShown k).f F.GLB_DIE_TEMP_now) = k
    ∧ sx 12 ((s.tempShown k).f F.GLB_DIE_TEMP_worst) = (if s.pwr.tempSeen then max (sx 12 (s.f F.GLB_DIE_TEMP_worst)) k else k)
    ∧ (s.tempShown k).fb F.GLB_DIE_TEMP_hot_seen = (s.fb F.GLB_DIE_TEMP_hot_seen || decide (420 ≤ k))
    ∧ (s.tempShown k).fb F.GLB_DIE_TEMP_over_seen = (s.fb F.GLB_DIE_TEMP_over_seen || decide (460 ≤ k)) := by
  have hnow : sx 12 (twos 12 k % 2 ^ 12) = k := sx_twos (by omega) (by omega) (by decide)
  set a := s.setF F.GLB_DIE_TEMP_now (twos 12 k)
  have hkeep (x : Fld) (hx : F.GLB_DIE_TEMP_now.apart x) : a.f x = s.f x := State.f_setF_apart _ _ _ _ ⟨by decide, by decide⟩ hx
  have hmarks (u : State) (x : Fld) (hx : F.GLB_DIE_TEMP_hot_seen.apart x) (hx' : F.GLB_DIE_TEMP_over_seen.apart x) :
      ((u.markWhere (decide (420 ≤ k)) F.GLB_DIE_TEMP_hot_seen).markWhere (decide (460 ≤ k)) F.GLB_DIE_TEMP_over_seen).f x = u.f x := by
    rw [State.f_markWhere_apart _ ⟨by decide, by decide⟩ hx', State.f_markWhere_apart _ ⟨by decide, by decide⟩ hx]
  have hflag (x : Fld) (hw : F.GLB_DIE_TEMP_worst.apart x) (hn : F.GLB_DIE_TEMP_now.apart x) : (a.worstTemp k).fb x = s.fb x := by
    rw [State.fb, State.f_worstTemp_apart _ _ hw, hkeep x hn, State.fb]
  refine ⟨?_, ?_, ?_, ?_⟩
  · rw [State.tempShown, hmarks _ _ (.inr (by decide)) (.inr (by decide)), State.f_worstTemp_apart _ _ (.inr (by decide))]
    exact (congrArg (sx 12) (State.f_setF_same _ F.GLB_DIE_TEMP_now _ ⟨by decide, by decide⟩)).trans hnow
  · rw [State.tempShown, hmarks _ _ (.inr (by decide)) (.inr (by decide)), State.worstTemp_shows _ h h', hkeep _ (.inr (by decide))]
    simp
  · rw [State.tempShown, State.fb, State.f_markWhere_apart _ ⟨by decide, by decide⟩ (.inr (by decide)), ← State.fb,
      State.fb_markWhere_same _ ⟨by decide, by decide⟩ rfl, hflag _ (.inr (by decide)) (.inr (by decide))]
  · rw [State.tempShown, State.fb_markWhere_same _ ⟨by decide, by decide⟩ rfl, State.fb,
      State.f_markWhere_apart _ ⟨by decide, by decide⟩ (.inr (by decide)), ← State.fb, hflag _ (.inr (by decide)) (.inr (by decide))]

/-- Time has passed to an instant, which is noted for the next measurement. -/
def State.tempTimed (s : State) (c : Nat) : State :=
  { s.advanceCyc c with pwr := { (s.advanceCyc c).pwr with tempAt := (s.advanceCyc c).cyc } }

theorem State.tempTimed_keeps (c : Nat) : (s.tempTimed c).cyc = max s.cyc c ∧ (s.tempTimed c).mode = s.mode
    ∧ (s.tempTimed c).events = s.events ∧ (s.tempTimed c).pwr.tempSeen = s.pwr.tempSeen
    ∧ ∀ off, off ≠ R.TIM_STAT → (s.tempTimed c).rd off = s.rd off := by
  have htime := s.advanceCyc_timeOnly c
  have hcyc := s.advanceCyc_cyc c
  have hrd (off : Nat) (hoff : off ≠ R.TIM_STAT) := s.advanceCyc_rd c hoff
  unfold State.tempTimed
  generalize s.advanceCyc c = u at *
  have hkeep : u.mode = s.mode ∧ u.events = s.events ∧ u.pwr = s.pwr := by rw [htime]; exact ⟨rfl, rfl, rfl⟩
  obtain ⟨hmode, hevents, hpwr⟩ := hkeep
  exact ⟨hcyc, hmode, hevents, congrArg (·.tempSeen) hpwr, hrd⟩

theorem exec_dieTempMeasure_live {k : Int} (hlive : s.live = true) (h : -2048 ≤ k) (h' : k ≤ 2047) :
    exec (.dieTempMeasure k) s = .next ((s.tempTimed (s.pwr.tempAt + 62500)).tempShown k) := by
  have hk : iclamp k (-2048) 2047 = k := by rw [iclamp, if_neg (by omega), if_neg (by omega)]
  simp only [exec, execDieTempMeasure, hlive, if_true, hk, State.tempShown, State.markWhere, decide_eq_true_eq, ge_iff_le, cycPerUs]
  rfl

end

end Sys2Proof.Machine
end

section
/-! Supplies, the reset pin and the die temperature (R45, R59, R334, R458, R470). -/

open Sys2Proof.Machine

namespace Sys2Proof

/-- Settles O33, row by row: what the supplies, PORST_N and the rail monitor leave, and a temperature measured. -/
theorem suppliesResetPinAndTemperature : Obligations.SuppliesResetPinAndTemperature := by
  unfold Obligations.SuppliesResetPinAndTemperature
  refine ⟨fun s r sel pb => ⟨⟨_, rfl, rfl, rfl, rfl, rfl, rfl, rfl⟩, ?_, exec_mainRailsRemoved_rails, exec_porstAssert_powered,
    exec_porstRelease_low sel pb, exec_railFault_rails r, fun _ hrails => ?_, exec_railRecover_dormant, exec_railWarn_within r,
    exec_railWarn_outside r⟩, fun s code hlive hlo hhi => ?_⟩
  · refine ⟨_, rfl, ?_⟩
    by_cases hmode : s.mode = .off <;> simp [hmode]
  · simp [exec, execRailRecover, hrails]
  · set u := s.tempTimed (s.pwr.tempAt + 62500)
    obtain ⟨hcyc, hmode, hevents, hseen, hrd⟩ := s.tempTimed_keeps (s.pwr.tempAt + 62500)
    obtain ⟨hcyc', hmode', hevents', hrd'⟩ := u.tempShown_onlyReg code
    obtain ⟨hnow, hworst, hhot, hover⟩ := u.tempShown_fields hlo hhi
    have htemp : u.rd R.GLB_DIE_TEMP = s.rd R.GLB_DIE_TEMP := hrd _ (by decide)
    rw [hseen, State.f_of_rd (x := F.GLB_DIE_TEMP_worst) htemp] at hworst
    rw [State.fb_of_rd (x := F.GLB_DIE_TEMP_hot_seen) htemp] at hhot
    rw [State.fb_of_rd (x := F.GLB_DIE_TEMP_over_seen) htemp] at hover
    exact ⟨_, exec_dieTempMeasure_live s hlive hlo hhi, hnow, hworst, u.tempShown_seen code, hhot, hover, hcyc'.trans hcyc,
      hmode'.trans hmode, hevents'.trans hevents, fun off h1 h2 => (hrd' off h1).trans (hrd off h2)⟩

end Sys2Proof
end

section
/-! SUPPORT. Arm requests and edge records as they arrive from the engines (R145, R146, R225 to R227). -/

namespace Sys2Proof.Machine

/-! ### The record taken -/

/-- An engine whose records are all delivered. -/
def State.unsent (s : State) (e : Nat) : State := s.modEng e (fun x => { x with sends := [] })

section
variable {s : State} {e unit : Nat} {bs : List Byte}

theorem State.Sent.takeSend (h : s.Sent e unit bs) : s.takeSend e unit = (some bs, s.unsent e) := by
  obtain ⟨hsends, -⟩ := h
  obtain ⟨r, hr, hone⟩ := List.map_eq_singleton_iff.mp hsends
  obtain ⟨rfl, rfl⟩ := Prod.mk.inj hone
  simp [State.takeSend, State.unsent, State.modEng, hr]

theorem State.unsent_sends (s : State) (e : Nat) : ((s.unsent e).eng e).sends = [] := by simp [State.unsent]

theorem exec_armRequest_sent {e : Fin 12} (h : s.Sent e 0 bs) :
    exec (.armRequest e) s = .next ((s.unsent e).armRequest (wordsOf bs)) := by
  simp only [exec, execArmRequest, h.2, List.foldl_nil, State.deliverArm, h.takeSend]
  rfl

theorem exec_edgeRecord_sent {e : Fin 12} (h : s.Sent e 1 bs) : exec (.edgeRecord e) s
    = .next (if s.mode = .safeBlock then s.unsent e
        else if edgeRecordOk (wordsOf bs) then (s.unsent e).applyRecord e (wordsOf bs)
        else (s.unsent e).raise .sendBad e 0 0) := by
  simp only [exec, execEdgeRecord, h.2, List.foldl_nil, State.deliverEdges, h.takeSend, beq_iff_eq]
  rfl

end

/-! ### Arm requests (R145, R146) -/

/-- The waiting requests, the registers, the events and the engines stand: only what runs of the units differs. -/
def State.ReqsKept (s t : State) : Prop :=
  t.events = s.events ∧ t.regs = s.regs ∧ t.engines = s.engines ∧ ∀ b, (t.arm b).req = (s.arm b).req

section
variable {s t u : State}

theorem State.ReqsKept.refl (s : State) : s.ReqsKept s := ⟨rfl, rfl, rfl, fun _ => rfl⟩

theorem State.ReqsKept.trans (h : s.ReqsKept t) (h' : t.ReqsKept u) : s.ReqsKept u := by
  obtain ⟨hev, hregs, heng, hreq⟩ := h
  obtain ⟨hev', hregs', heng', hreq'⟩ := h'
  exact ⟨hev'.trans hev, hregs'.trans hregs, heng'.trans heng, fun b => (hreq' b).trans (hreq b)⟩

theorem State.modUnit_reqsKept (s : State) (k : Nat) (g : WinUnit → WinUnit) : s.ReqsKept (s.modUnit k g) := ⟨rfl, rfl, rfl, fun _ => rfl⟩

theorem State.modArm_reqsKept (s : State) (a : Nat) {g : Arm → Arm} (hg : ∀ x, (g x).req = x.req) : s.ReqsKept (s.modArm a g) := by
  refine ⟨by simp, by simp, by simp, fun b => ?_⟩
  by_cases hb : b = a
  · rw [hb, State.arm_modArm, hg]
  · rw [State.arm_modArm_ne _ _ hb]

theorem State.startUnit_reqsKept (s : State) (k : Nat) : s.ReqsKept (s.startUnit k) := by
  unfold State.startUnit
  split
  · exact (s.modUnit_reqsKept k _).trans (State.modArm_reqsKept _ _ fun _ => rfl)
  · exact .refl s

theorem State.readyArm_reqsKept (s : State) (a : Nat) : s.ReqsKept (s.readyArm a) := by
  have hready : s.ReqsKept (s.modArm a (fun x => { x with readyAt := s.cyc + 1 })) := s.modArm_reqsKept a fun _ => rfl
  unfold State.readyArm
  simp only
  generalize s.modArm a _ = t at hready ⊢
  cases (t.unit (s.unitOf a)).busy with
  | none => exact hready.trans (t.startUnit_reqsKept _)
  | some b =>
    dsimp only
    split
    · have hgive : t.ReqsKept (t.modArm b (fun x => { x with started := false, work := none })) := t.modArm_reqsKept b fun _ => rfl
      exact ((hready.trans hgive).trans (State.modUnit_reqsKept ..)).trans (State.startUnit_reqsKept ..)
    · exact hready

end

section
variable {s : State} {ws : List Nat}

theorem State.armRequest_uncontrolled (h : s.mode.controls = false) : s.armRequest ws = s := by simp [State.armRequest, h]

/-- A record that fails R145 is reported; the arm it names shows its reason. -/
theorem State.armRequest_bad (hmode : s.mode.controls = true) (hbad : s.reqBadReason ws ≠ 0) :
    s.armRequest ws = (if bitsOf (word ws 0) 19 16 < 12 then
        (s.mark (F.WIN_ARM_FLAGS_req_bad (bitsOf (word ws 0) 19 16))).setF (F.WIN_ARM_FLAGS_bad_reason (bitsOf (word ws 0) 19 16))
          (s.reqBadReason ws)
      else s).raise .reqBad (bitsOf (word ws 0) 19 16) (s.reqBadReason ws) 0 := by
  simp only [State.armRequest, hmode, Bool.not_true, Bool.false_eq_true, if_false, if_pos hbad]

theorem State.armRequest_stale (hmode : s.mode.controls = true) (hbad : s.reqBadReason ws = 0)
    (hn : bitsOf (word ws 0) 15 0 ≠ s.requestPeriod % 2 ^ 16) :
    s.armRequest ws = (s.mark (F.WIN_ARM_FLAGS_req_stale (bitsOf (word ws 0) 19 16))).raise .reqStale (bitsOf (word ws 0) 19 16) 0 0 := by
  simp only [State.armRequest, hmode, Bool.not_true, Bool.false_eq_true, if_false, hbad, ne_eq, not_true_eq_false]
  exact if_pos hn

/-- The arm a record names has its request. -/
def State.takeReq (s : State) (ws : List Nat) : State :=
  s.modArm (bitsOf (word ws 0) 19 16) (fun x => { x with
    req := some (mkReq ws s.requestPeriod), work := if x.started && s.atGather then some (mkReq ws s.requestPeriod) else x.work })

theorem State.takeReq_arm (s : State) (ws : List Nat) :
    ((s.takeReq ws).arm (bitsOf (word ws 0) 19 16)).req = some (mkReq ws s.requestPeriod) := by simp [State.takeReq]

theorem State.takeReq_arm_ne (s : State) (ws : List Nat) {b : Nat} (h : b ≠ bitsOf (word ws 0) 19 16) : (s.takeReq ws).arm b = s.arm b :=
  State.arm_modArm_ne _ _ h

theorem State.takeReq_keeps (s : State) (ws : List Nat) :
    (s.takeReq ws).events = s.events ∧ (s.takeReq ws).regs = s.regs ∧ (s.takeReq ws).engines = s.engines := by simp [State.takeReq]

/-- A request of the period's window is the arm's; what starts by it keeps every request. -/
theorem State.armRequest_taken (hmode : s.mode.controls = true) (hbad : s.reqBadReason ws = 0)
    (hn : bitsOf (word ws 0) 15 0 = s.requestPeriod % 2 ^ 16) (hstart : (s.arm (bitsOf (word ws 0) 19 16)).started = false) :
    (s.takeReq ws).ReqsKept (s.armRequest ws) := by
  have heq : s.armRequest ws = if (s.takeReq ws).seq.started && (s.takeReq ws).seq.gatherDone && !(s.takeReq ws).seq.ordered
      && ((s.takeReq ws).arm (bitsOf (word ws 0) 19 16)).readyAt == 0 then (s.takeReq ws).readyArm (bitsOf (word ws 0) 19 16)
      else s.takeReq ws := by
    have hn' : ¬ bitsOf (word ws 0) 15 0 ≠ s.requestPeriod % 65536 := not_not.mpr hn
    simp only [State.armRequest, hmode, Bool.not_true, Bool.false_eq_true, if_false, hbad, ne_eq, not_true_eq_false, hn', hstart,
      Bool.false_and]
    rfl
  rw [heq]
  split
  · exact State.readyArm_reqsKept ..
  · exact .refl _

end

theorem WIN_ARM_FLAGS_ok (a : Nat) :
    (F.WIN_ARM_FLAGS_req_bad a).ok ∧ (F.WIN_ARM_FLAGS_bad_reason a).ok ∧ (F.WIN_ARM_FLAGS_req_stale a).ok := by
  simp [Fld.ok, F.WIN_ARM_FLAGS_req_bad, F.WIN_ARM_FLAGS_bad_reason, F.WIN_ARM_FLAGS_req_stale]

/-- A faulty request is reported, and the arm shows its flag and reason. -/
def State.reqBadShown (s : State) (a r : Nat) : State :=
  ((s.mark (F.WIN_ARM_FLAGS_req_bad a)).setF (F.WIN_ARM_FLAGS_bad_reason a) r).raise .reqBad a r 0

theorem State.reqBadShown_flags (s : State) (a : Nat) {r : Nat} (h : r < 256) :
    (s.reqBadShown a r).fb (F.WIN_ARM_FLAGS_req_bad a) = true ∧ (s.reqBadShown a r).f (F.WIN_ARM_FLAGS_bad_reason a) = r := by
  obtain ⟨hbad, hreason, -⟩ := WIN_ARM_FLAGS_ok a
  have hapart : (F.WIN_ARM_FLAGS_bad_reason a).apart (F.WIN_ARM_FLAGS_req_bad a) :=
    .inr (.inl (by simp [F.WIN_ARM_FLAGS_req_bad, F.WIN_ARM_FLAGS_bad_reason]))
  unfold State.reqBadShown
  rw [State.fb_of_rd (x := F.WIN_ARM_FLAGS_req_bad a) (State.rd_raise ..), State.fb_setF_apart _ _ hreason hapart,
    State.fb_mark_same _ hbad rfl, State.f_of_rd (x := F.WIN_ARM_FLAGS_bad_reason a) (State.rd_raise ..), State.f_setF_value _ hreason h]
  exact ⟨rfl, rfl⟩

theorem State.reqBadShown_keeps {s t : State} (h : t.events = s.events) (a r : Nat) :
    (t.reqBadShown a r).arms = t.arms ∧ s.raised (t.reqBadShown a r) = [.reqBad] :=
  ⟨by simp [State.reqBadShown], State.raised_raise (by simpa using h) ..⟩

/-- A disabled arm, or one the device does not have, comes before every other reason. -/
theorem State.reqBadReason_unarmed {s : State} {ws : List Nat}
    (h : 12 ≤ bitsOf (word ws 0) 19 16 ∨ s.armEnabled (bitsOf (word ws 0) 19 16) = false) : s.reqBadReason ws = 1 := if_pos h

/-- The engines are no part of what a request is checked against. -/
theorem State.unsent_keeps (s : State) (e : Nat) (ws : List Nat) : (s.unsent e).reqBadReason ws = s.reqBadReason ws
    ∧ (s.unsent e).requestPeriod = s.requestPeriod ∧ (s.unsent e).mode = s.mode ∧ (s.unsent e).arms = s.arms
    ∧ (s.unsent e).events = s.events ∧ (s.unsent e).regs = s.regs := by
  refine ⟨?_, ?_, ?_, ?_, ?_, ?_⟩ <;> simp [State.unsent] <;> rfl

theorem State.arm_of_arms {s t : State} (h : t.arms = s.arms) (a : Nat) : t.arm a = s.arm a := by rw [State.arm, h, State.arm]

/-! ### Edge records (R226, R227) -/

/-- A record that asks for the period of its channel alone. -/
theorem edgeWrites_period {ws : List Nat} (h : word ws 0 = 2 ^ 9 + bitsOf (word ws 0) 3 0) :
    edgeWrites ws = [(R.EDG_PWM_PER (bitsOf (word ws 0) 3 0), word ws 3, bitsOf (word ws 3) 31 24)] := by
  have hc : bitsOf (word ws 0) 3 0 < 16 := bitsOf_lt ..
  have hbit (b : Nat) : bitOf (word ws 0) b = bitOf (2 ^ 9 + bitsOf (word ws 0) 3 0) b := by rw [← h]
  simp only [edgeWrites, hbit]
  generalize bitsOf (word ws 0) 3 0 = c at hc
  interval_cases c <;> rfl

theorem edgeRecordOk_period {ws : List Nat} (h : word ws 0 = 2 ^ 9 + bitsOf (word ws 0) 3 0) (hper : word ws 3 < 2 ^ 24) :
    edgeRecordOk ws = true := by
  have hc : bitsOf (word ws 0) 3 0 < 16 := bitsOf_lt ..
  have hhigh : bitsOf (word ws 3) 31 24 = 0 := by unfold bitsOf; omega
  have hlow : bitsOf (word ws 0) 7 4 = 0 ∧ bitsOf (word ws 0) 31 14 = 0 := by
    unfold bitsOf at *
    omega
  simp [edgeRecordOk, edgeWrites_period h, hhigh, hlow]

theorem edgeRecordOk_reserved {ws : List Nat} (h : bitsOf (word ws 0) 7 4 ≠ 0 ∨ bitsOf (word ws 0) 31 14 ≠ 0) :
    edgeRecordOk ws = false := by
  rcases h with h | h <;> simp [edgeRecordOk, h]

theorem lookup_EDG_PWM_PER (c : Fin 16) : lookup (R.EDG_PWM_PER c)
    = some (⟨.EDG_PWM_PER, 0x91004, 16, 0x40, 1, 0x0, false, 0x1, [⟨23, 0, .rw, .range 1 16777215⟩]⟩, c.val, 0) := by
  fin_cases c <;> rfl

/-- The write of a period within its range stores it, and starts nothing but the note of the shadow's earlier value. -/
theorem State.writeReg_EDG_PWM_PER (s : State) (e : Nat) {c v : Nat} (hc : c < 16) (hlo : 1 ≤ v) (hhi : v < 2 ^ 24) :
    s.writeReg (WSrc.edge e) (R.EDG_PWM_PER c) v
      = (s.setF (F.EDG_PWM_PER_per c) v).keepStart (R.EDG_PWM_PER c) (s.rd (R.EDG_PWM_PER c)) := by
  have hv : v % 2 ^ 32 = v := Nat.mod_eq_of_lt (by omega)
  have hx : bitsOf v 23 0 = v := by unfold bitsOf; omega
  have hy : nclamp v 1 16777215 = v := by rw [nclamp, if_neg (by omega), if_neg (by omega)]
  have hrec : s.recordStands (WSrc.edge e) (R.EDG_PWM_PER c) = false := rfl
  have haside : s.writeAside (WSrc.edge e) .EDG_PWM_PER c (R.EDG_PWM_PER c) v = none := rfl
  have hlock (d : RegDef) (h : d.fields = [⟨23, 0, .rw, .range 1 16777215⟩]) : s.lockDiffers d (R.EDG_PWM_PER c) v = false := by
    simp [State.lockDiffers, h]
  have hfield : State.writeField (WSrc.edge e) .EDG_PWM_PER c 0 (R.EDG_PWM_PER c) v s ⟨23, 0, .rw, .range 1 16777215⟩
      = s.setF (F.EDG_PWM_PER_per c) v := by
    have hclamp : s.clampField .EDG_PWM_PER c 0 v ⟨23, 0, .rw, .range 1 16777215⟩ v = v := hy
    simp only [State.writeField, hx, hclamp, if_true]
    rfl
  simp only [State.writeReg, hrec, lookup_EDG_PWM_PER ⟨c, hc⟩, hv, haside, Bool.false_eq_true, if_false]
  rw [show s.premask .EDG_PWM_PER c (R.EDG_PWM_PER c) v = v from rfl, hlock _ rfl, if_neg (by decide), List.foldl_cons, List.foldl_nil,
    hfield]
  rfl

/-- A record that writes the period of its channel leaves every other register and the events as they are. -/
theorem State.applyRecord_period (s : State) (e : Nat) {ws : List Nat} (h : word ws 0 = 2 ^ 9 + bitsOf (word ws 0) 3 0)
    (hlo : 1 ≤ word ws 3) (hhi : word ws 3 < 2 ^ 24) :
    (s.applyRecord e ws).regs = (s.setF (F.EDG_PWM_PER_per (bitsOf (word ws 0) 3 0)) (word ws 3)).regs
      ∧ (s.applyRecord e ws).events = s.events ∧ (s.applyRecord e ws).engines = s.engines := by
  have hwrite := s.writeReg_EDG_PWM_PER e (bitsOf_lt (word ws 0) 3 0) hlo hhi
  simp only [State.applyRecord, edgeWrites_period h, List.foldl_cons, List.foldl_nil, hwrite]
  exact ⟨rfl, rfl, rfl⟩

end Sys2Proof.Machine
end

section
/-! Arm requests and edge records of an engine (R43, R144 to R146, R225 to R227). -/

open Sys2Proof.Machine

namespace Sys2Proof

/-- Settles O14, row by row: an arm request taken, faulty, stale and discarded, and an edge record applied, refused and discarded. -/
theorem recordsOfAnEngine : Obligations.RecordsOfAnEngine := by
  unfold Obligations.RecordsOfAnEngine
  intro s e bs ws a
  obtain ⟨hreason, hperiod, hmode, harms, hevents, hregs⟩ := s.unsent_keeps e ws
  have hsends := s.unsent_sends e
  have harm := State.arm_of_arms harms
  have heng {t : State} (h : t.engines = (s.unsent e).engines) : (t.eng e).sends = [] := by rw [State.eng, h]; exact hsends
  refine ⟨fun hsent hctl hok hn hstart => ?_, fun hsent hctl hno => ?_, fun hsent hctl hok hn => ?_, fun hsent hctl => ?_,
    fun hsent hblock h0 hhi hlo => ?_, fun hsent hblock hres => ?_, fun hsent hblock => ?_⟩
  · obtain ⟨hev, hrg, hen, hreq⟩ := State.armRequest_taken (s := s.unsent e) (ws := ws) (hmode ▸ hctl) (hreason.trans hok) (hperiod ▸ hn)
      (by rw [harm]; exact hstart)
    obtain ⟨hev', hrg', hen'⟩ := (s.unsent e).takeReq_keeps ws
    have htaken : (((s.unsent e).armRequest ws).arm a).req = some (mkReq ws s.requestPeriod) :=
      (hreq a).trans (((s.unsent e).takeReq_arm ws).trans (by rw [hperiod]))
    refine ⟨_, exec_armRequest_sent hsent, ?_, ?_, heng (hen.trans hen'), hev.trans (hev'.trans hevents), hrg.trans (hrg'.trans hregs),
      fun b hb => (hreq b).trans (by rw [State.takeReq_arm_ne _ _ hb, harm])⟩
    · exact congrArg (Option.map ArmReq.period) htaken
    · exact congrArg (Option.map ArmReq.level0) htaken
  · have hone : (s.unsent e).reqBadReason ws = 1 := hreason.trans (State.reqBadReason_unarmed hno)
    refine ⟨_, exec_armRequest_sent hsent, ?_⟩
    rw [State.armRequest_bad (hmode ▸ hctl) (by rw [hone]; decide), hone]
    by_cases ha : a < 12
    · rw [if_pos ha, ← State.reqBadShown]
      obtain ⟨hkept, hraised⟩ := State.reqBadShown_keeps hevents a 1
      exact ⟨hkept.trans harms, hraised, fun _ => State.reqBadShown_flags _ a (by decide)⟩
    · rw [if_neg ha]
      exact ⟨harms, State.raised_raise hevents .., fun h => absurd h ha⟩
  · refine ⟨_, exec_armRequest_sent hsent, ?_⟩
    rw [State.armRequest_stale (hmode ▸ hctl) (hreason.trans hok) (hperiod ▸ hn)]
    refine ⟨by simpa using harms, State.raised_raise (by simpa using hevents) .., ?_⟩
    rw [State.fb_of_rd (x := F.WIN_ARM_FLAGS_req_stale a) (State.rd_raise ..), State.fb_mark_same _ (WIN_ARM_FLAGS_ok a).2.2 rfl]
  · refine ⟨_, exec_armRequest_sent hsent, ?_⟩
    rw [State.armRequest_uncontrolled (hmode ▸ hctl)]
    exact ⟨harms, hevents, hsends⟩
  · obtain ⟨hrg, hev, hen⟩ := (s.unsent e).applyRecord_period e h0 hlo hhi
    refine ⟨_, exec_edgeRecord_sent hsent, ?_⟩
    rw [if_neg hblock, if_pos (edgeRecordOk_period h0 hhi)]
    refine ⟨heng hen, fun off hoff => ?_, hev.trans hevents, ?_⟩
    · rw [State.rd_of_regs hrg, State.rd_setF_ne _ _ _ hoff, State.rd_of_regs hregs]
    · rw [State.f_of_regs hrg, State.f_setF_value _ (by simp [Fld.ok, F.EDG_PWM_PER_per]) hhi]
  · refine ⟨_, exec_edgeRecord_sent hsent, ?_⟩
    rw [if_neg hblock, edgeRecordOk_reserved (ws := wordsOf bs) hres, if_neg (by decide)]
    exact ⟨hregs, State.raised_raise hevents .., hsends⟩
  · refine ⟨_, exec_edgeRecord_sent hsent, ?_⟩
    rw [if_pos hblock]
    exact ⟨hregs, hevents, hsends⟩

end Sys2Proof
end

section
/-! SUPPORT. Training of the lanes: the HELLO that leaves and the one that comes back, the attempts, and the beacons (R44, R124 to R127). -/

namespace Sys2Proof.Machine

/-! ### A set that leaves in its turn -/

theorem State.helloPayload_of {s t : State} {l : Nat} (hside : t.f F.NCL_GCFG_side = s.f F.NCL_GCFG_side)
    (hseen : (t.lane l).helloSeen = (s.lane l).helloSeen) (hchain : t.isChain l = s.isChain l) (hcells : t.pathCells l = s.pathCells l) :
    t.helloPayload l = s.helloPayload l := by
  simp only [State.helloPayload, hside, hseen, hchain, hcells]

theorem State.modLane_helloPayload (s : State) {l : Nat} {g : Lane → Lane} (h : (g (s.lane l)).helloSeen = (s.lane l).helloSeen) :
    (s.modLane l g).helloPayload l = s.helloPayload l :=
  State.helloPayload_of rfl (by rw [State.lane_modLane, h]) rfl rfl

theorem State.advanceCyc_helloPayload (s : State) (c l : Nat) : (s.advanceCyc c).helloPayload l = s.helloPayload l :=
  have h := s.advanceCyc_samePath c l
  State.helloPayload_of (h.f (by decide) (by simp only [F.NCL_GCFG_side, R.NCL_GCFG, R.NCL_LSTAT]; omega)) (congrArg Lane.helloSeen h.lane)
    (h.isChain l) (h.pathCells l)

/-- The only set that waits on a lane leaves or still waits; it is neither an ASSIGN set nor does it change anything else. -/
theorem State.flushOne_single {s : State} {l : Nat} {d : DueSet} (hdue : (s.lane l).tx.due = [d]) (hcode : d.set.code ≠ 2) :
    s.LanesOnly (s.flushOne l) ∧ ((s.flushOne l).lane l).helloNext = (s.lane l).helloNext
      ∧ (((s.flushOne l).lane l).sets = [d.set] ∨ ((s.flushOne l).lane l).tx.due = [d]) := by
  have hnext : nextDue (s.lane l).tx.due = some d := by
    rw [hdue]
    rfl
  unfold State.flushOne
  simp only [hnext, hcode, if_false, false_and]
  split
  · exact ⟨rfl, by rw [State.lane_modLane], .inl (by rw [State.lane_modLane])⟩
  · exact ⟨rfl, rfl, .inr hdue⟩

/-- Where none waits, a set that falls due leaves or waits. -/
theorem State.sendDue_alone {s : State} {l rank : Nat} {x : TxSet} (hcoded : s.laneCoded l = true) (hdue : (s.lane l).tx.due = [])
    (hcode : x.code ≠ 2) :
    s.LanesOnly (s.sendDue l rank [x]) ∧ ((s.sendDue l rank [x]).lane l).helloNext = (s.lane l).helloNext
      ∧ (((s.sendDue l rank [x]).lane l).sets = [x] ∨ ((s.sendDue l rank [x]).lane l).tx.due = [{ rank := rank, since := s.cyc, set := x }]) := by
  set u := s.modLane l (fun y => { y with tx := { y.tx with due := y.tx.due ++ [{ rank := rank, since := s.cyc, set := x }] } }) with hu
  have hlane : (u.lane l).tx.due = [{ rank := rank, since := s.cyc, set := x }] := by rw [hu, State.lane_modLane, hdue, List.nil_append]
  have heq : s.sendDue l rank [x] = u.flushOne l := by
    unfold State.sendDue
    rw [if_pos hcoded]
    change u.flushLane l = _
    rw [State.flushLane, hlane]
    rfl
  obtain ⟨hframe, hnext, hsent⟩ := State.flushOne_single hlane hcode
  rw [heq]
  exact ⟨State.LanesOnly.trans (show s.LanesOnly u from rfl) hframe, by rw [hnext, hu, State.lane_modLane], hsent⟩

@[simp] theorem State.lane_setF (s : State) (x : Fld) (v l : Nat) : (s.setF x v).lane l = s.lane l := rfl

@[simp] theorem State.lane_mark (s : State) (x : Fld) (l : Nat) : (s.mark x).lane l = s.lane l := rfl

theorem State.LanesOnly.events {s t : State} (h : s.LanesOnly t) : t.events = s.events := by rw [h]

theorem State.sendSet_waiting (s : State) {l rank : Nat} (x : TxSet) (h : rank ≠ 5) : s.sendSet l rank x = s.sendDue l rank [x] :=
  if_neg fun hc => h hc.2

/-! ### A HELLO that leaves (R124) -/

theorem State.helloDue_of_attempt {s : State} {l : Nat} (h : (s.lane l).attempt = true) (htrains : 48 ≤ l ∨ s.mode = .muster)
    (htime : (s.lane l).helloNext < (s.lane l).attemptAt + 1250000) : s.helloDue l = true := by
  have hstrains : s.trains l = true := by
    rcases htrains with h | h <;> simp [State.trains, h]
  simp [State.helloDue, hstrains, h, cycPerMs, htime]

theorem exec_helloSend_idle {s : State} {l : Fin 50} (h : s.helloDue l = false) : exec (.helloSend l) s = .next s := by
  simp [exec, execHelloSend, h]

theorem helloSend_leaves {s : State} {l : Fin 50} (h : s.helloDue l = true) (hcoded : s.laneCoded l = true) (hdue : (s.lane l).tx.due = []) :
    ∃ t, exec (.helloSend l) s = .next t ∧ t.cyc = max s.cyc (s.lane l).helloNext
      ∧ (t.lane l).helloNext = (s.lane l).helloNext + 12500 ∧ t.events = s.events
      ∧ ((t.lane l).sets = [mkSet 4 (s.helloPayload l)]
        ∨ (t.lane l).tx.due = [{ rank := 6, since := t.cyc, set := mkSet 4 (s.helloPayload l) }]) := by
  set a := s.advanceCyc (s.lane l).helloNext with ha
  set u := a.modLane l (fun x => { x with helloNext := (s.lane l).helloNext + 20 * cycPerUs }) with hu
  have hpayload : u.helloPayload l = s.helloPayload l :=
    (a.modLane_helloPayload rfl).trans (s.advanceCyc_helloPayload _ l)
  have hcoded' : u.laneCoded l = true := (s.advanceCyc_laneCoded _ l).trans hcoded
  have hdue' : (u.lane l).tx.due = [] := by rw [hu, State.lane_modLane, ha, State.advanceCyc_lane, hdue]
  have hevents : u.events = s.events := by simp [hu, ha]
  have hcyc : u.cyc = max s.cyc (s.lane l).helloNext := by simp [hu, ha, State.advanceCyc_cyc]
  have hnext : (u.lane l).helloNext = (s.lane l).helloNext + 12500 := by simp [hu, cycPerUs]
  have hexec : exec (.helloSend l) s = .next (u.sendDue l 6 [mkSet 4 (s.helloPayload l)]) := by
    simp only [exec, execHelloSend, h, if_true, State.sendSet_waiting _ _ (show (6 : Nat) ≠ 5 by decide), ← ha, ← hu, hpayload]
  clear_value u
  obtain ⟨hframe, hkept, hsent⟩ :=
    State.sendDue_alone (rank := 6) (x := mkSet 4 (s.helloPayload l)) hcoded' hdue' (show (4 : Nat) ≠ 2 by decide)
  refine ⟨_, hexec, hframe.cyc.trans hcyc, hkept.trans hnext, hframe.events.trans hevents, ?_⟩
  rwa [hframe.cyc]

/-! ### The map of the lanes (R38, R39) -/

/-- No lane has another place in the map. -/
def State.SameMap (s t : State) : Prop := ∀ k < 48, t.rd (R.GLB_LANE_MAP k) = s.rd (R.GLB_LANE_MAP k)

section
variable {s t u : State}

theorem State.SameMap.trans (h : s.SameMap t) (h' : t.SameMap u) : s.SameMap u := fun k hk => (h' k hk).trans (h k hk)

theorem State.SameMap.topology (h : s.SameMap t) {k : Nat} (hk : k < 48) : t.topology k = s.topology k :=
  State.f_of_rd (x := F.GLB_LANE_MAP_topology k) (h k hk)

theorem partnerLane_lt {k : Nat} (hk : k < 48) : partnerLane k < 48 := by
  unfold partnerLane
  split <;> omega

theorem State.SameMap.isChain (h : s.SameMap t) (k : Nat) : t.isChain k = s.isChain k := by
  unfold State.isChain
  by_cases hk : k < 48
  · rw [h.topology hk, h.topology (partnerLane_lt hk)]
  · simp [hk]

theorem State.SameMap.laneCount (h : s.SameMap t) (k : Nat) : t.laneCount k = s.laneCount k := by
  unfold State.laneCount State.laneInUse
  by_cases hk : k < 48
  · rw [h.topology hk, State.f_of_rd (x := F.GLB_LANE_MAP_count k) (h k hk)]
  · simp [hk]

theorem State.SameMap.pathCells (h : s.SameMap t) (k : Nat) : t.pathCells k = s.pathCells k := by
  simp only [State.pathCells, h.isChain, h.laneCount]

theorem State.SameMap.pathCell (h : s.SameMap t) (k i : Nat) : t.pathCell k i = s.pathCell k i := by
  simp only [State.pathCell, h.isChain, h.pathCells]

theorem State.sameMap_of_regs (h : t.regs = s.regs) : s.SameMap t := fun _ _ => State.rd_of_regs h _

theorem State.SameMap.setF (h : s.SameMap t) {x : Fld} (v : Nat) (hx : 0x2C0 ≤ x.off) : s.SameMap (t.setF x v) := fun k hk =>
  (t.rd_setF_ne x v (by simp only [R.GLB_LANE_MAP]; omega)).trans (h k hk)

end

/-! ### The cells found (R103, R105) -/

/-- The cells change alone. -/
def State.CellsOnly (s t : State) : Prop := t = { s with cells := t.cells }

section
variable {s t u : State}

theorem State.CellsOnly.trans (h : s.CellsOnly t) (h' : t.CellsOnly u) : s.CellsOnly u := by
  unfold State.CellsOnly at *
  rw [h] at h'
  exact h'

theorem State.CellsOnly.regs (h : s.CellsOnly t) : t.regs = s.regs := by rw [h]

theorem State.CellsOnly.lane (h : s.CellsOnly t) (l : Nat) : t.lane l = s.lane l := by
  rw [h]
  rfl

theorem State.CellsOnly.events (h : s.CellsOnly t) : t.events = s.events := by rw [h]

end

/-- The cells at some places of a lane's path take new values. -/
def State.modPath (s : State) (x : Nat) (is : List Nat) (g : Cell → Cell) : State :=
  s.forEach is (fun s i => s.modCell (s.pathCell x i) g)

theorem State.modPath_cons (s : State) (x i : Nat) (is : List Nat) (g : Cell → Cell) :
    s.modPath x (i :: is) g = (s.modCell (s.pathCell x i) g).modPath x is g := rfl

theorem State.modPath_cellsOnly (s : State) (x : Nat) (is : List Nat) (g : Cell → Cell) : s.CellsOnly (s.modPath x is g) := by
  induction is generalizing s with
  | nil => rfl
  | cons i is ih => exact State.CellsOnly.trans (show s.CellsOnly (s.modCell (s.pathCell x i) g) from rfl) (ih _)

/-- What `g` makes true of a cell, and no later `g` takes back, is true of each cell in the end. -/
theorem State.modPath_cell {x : Nat} {is : List Nat} {g : Cell → Cell} {p : Cell → Prop} (hg : ∀ c, p (g c)) (s : State) :
    (∀ k, p (s.cell k) → p ((s.modPath x is g).cell k)) ∧ ∀ i ∈ is, p ((s.modPath x is g).cell (s.pathCell x i)) := by
  induction is generalizing s with
  | nil => exact ⟨fun _ h => h, nofun⟩
  | cons i is ih =>
    have hhead : p ((s.modCell (s.pathCell x i) g).cell (s.pathCell x i)) := by
      rw [State.cell_modCell]
      exact hg _
    have hmap : s.SameMap (s.modCell (s.pathCell x i) g) := State.sameMap_of_regs rfl
    obtain ⟨hkeep, hmem⟩ := ih (s.modCell (s.pathCell x i) g)
    rw [State.modPath_cons]
    refine ⟨fun k hk => hkeep k ?_, fun j hj => ?_⟩
    · by_cases hki : k = s.pathCell x i
      · exact hki ▸ hhead
      · rwa [State.cell_modCell_ne _ _ hki]
    · rcases List.mem_cons.mp hj with rfl | hj
      · exact hkeep _ hhead
      · rw [← hmap.pathCell]
        exact hmem j hj

/-! ### A MEASURE launch and the start of the sequencer -/

theorem State.launchMeasure_lane (s : State) (l j : Nat) :
    ((s.launchMeasure l).lane j).attempt = (s.lane j).attempt ∧ ((s.launchMeasure l).lane j).backoff = (s.lane j).backoff := by
  unfold State.launchMeasure
  simp only
  split
  · refine List.foldlRecOn (motive := fun t : State => (t.lane j).attempt = (s.lane j).attempt ∧ (t.lane j).backoff = (s.lane j).backoff)
      _ _ ⟨rfl, rfl⟩ fun t ht k _ => ?_
    by_cases hk : j = k
    · rw [← hk, State.lane_modLane]
      exact ht
    · rw [State.lane_modLane_ne _ _ hk]
      exact ht
  · exact ⟨rfl, rfl⟩

theorem State.launchMeasure_cells (s : State) (l : Nat) : (s.launchMeasure l).cells = s.cells := by
  unfold State.launchMeasure
  simp only
  split
  · exact List.foldlRecOn (motive := fun t : State => t.cells = s.cells) _ _ rfl fun t ht _ _ => ht
  · rfl

/-- The sequencer alone may start. -/
theorem State.musterSequencer_seqOnly (s : State) : s.musterSequencer = { s with seq := s.musterSequencer.seq } := by
  unfold State.musterSequencer
  simp only
  split <;> rfl

theorem State.musterSequencer_keeps (s : State) :
    s.musterSequencer.events = s.events ∧ s.musterSequencer.cells = s.cells ∧ ∀ l, s.musterSequencer.lane l = s.lane l := by
  rw [s.musterSequencer_seqOnly]
  exact ⟨rfl, rfl, fun _ => rfl⟩

/-! ### A HELLO that comes back (R125) -/

/-- The registers of a lane that is trained: its state, and what its path is found to be. -/
def State.pathShown (s : State) (x mode hops : Nat) (breakAt : Option Nat) : State :=
  let s := (s.setLaneState x laneUp).modLane x (fun y => { y with attempt := false, trainedOnce := true, missRun := 0 })
  let s := s.setF (F.NCL_LSTAT_path_mode x) mode
  let s := match breakAt with
    | some b => s.setF (F.NCL_LSTAT_break_pos x) b
    | none => s
  (s.setF (F.NCL_LSTAT_cells_found x) hops).setF (F.NCL_LSTAT_disc_step x) 1

/-- The break of a chain is shown, where there is one: nothing but NCL_LSTAT changes. -/
theorem State.breakShown_keeps (s : State) (x : Nat) (b : Option Nat) :
    let t := match b with
      | some b => s.setF (F.NCL_LSTAT_break_pos x) b
      | none => s
    t.lane x = s.lane x ∧ t.events = s.events ∧ ∀ off, off ≠ R.NCL_LSTAT x → t.rd off = s.rd off := by
  cases b with
  | none => exact ⟨rfl, rfl, fun _ _ => rfl⟩
  | some b => exact ⟨s.lane_setF .., by simp, fun off ho => s.rd_setF_ne (F.NCL_LSTAT_break_pos x) b ho⟩

theorem State.SameMap.of_rd {s t : State} {x : Nat} (h : ∀ off, off ≠ R.NCL_LSTAT x → t.rd off = s.rd off) : s.SameMap t :=
  fun k hk => h _ (by simp only [R.GLB_LANE_MAP, R.NCL_LSTAT]; omega)

theorem State.pathShown_spec (s : State) {x : Nat} (mode hops : Nat) (b : Option Nat) (hops_lt : hops < 128) :
    let t := s.pathShown x mode hops b
    t.laneState x = 3 ∧ (t.lane x).attempt = false ∧ t.f (F.NCL_LSTAT_cells_found x) = hops ∧ t.f (F.NCL_LSTAT_disc_step x) = 1
      ∧ t.events = s.events ∧ s.SameMap t := by
  have hne : R.LPHY_STAT x ≠ R.NCL_LSTAT x := by simp only [R.LPHY_STAT, R.NCL_LSTAT]; omega
  have hup : (s.setLaneState x laneUp).f (F.LPHY_STAT_state x) = 3 := s.f_setF_same _ _ (by simp [Fld.ok, F.LPHY_STAT_state])
  have hupMap : s.SameMap (s.setLaneState x laneUp) :=
    State.SameMap.setF (fun _ _ => rfl) _ (by simp only [F.LPHY_STAT_state, R.LPHY_STAT]; omega)
  have hupEvents : (s.setLaneState x laneUp).events = s.events := by simp [State.setLaneState]
  unfold State.pathShown
  extract_lets u v w t
  set r := s.setLaneState x laneUp
  have hulane : (u.lane x).attempt = false := by rw [State.lane_modLane]
  have huregs : u.regs = r.regs := by simp [u, r]
  have huevents : u.events = r.events := by simp [u, r]
  have hurd (off : Nat) (ho : off ≠ R.NCL_LSTAT x) : v.rd off = r.rd off :=
    (u.rd_setF_ne (F.NCL_LSTAT_path_mode x) mode ho).trans (State.rd_of_regs huregs off)
  have hvlane : v.lane x = u.lane x := u.lane_setF ..
  have hvevents : v.events = r.events := by simp [v, huevents]
  obtain ⟨hwlane, hwevents, hwrd⟩ := v.breakShown_keeps x b
  have htrd (off : Nat) (ho : off ≠ R.NCL_LSTAT x) : t.rd off = r.rd off :=
    ((State.rd_setF_ne _ (F.NCL_LSTAT_disc_step x) _ ho).trans (State.rd_setF_ne _ (F.NCL_LSTAT_cells_found x) _ ho)).trans
      ((hwrd off ho).trans (hurd off ho))
  have htlane : t.lane x = w.lane x := by simp [t]
  have htevents : t.events = w.events := by simp [t]
  refine ⟨(State.f_of_rd (x := F.LPHY_STAT_state x) (htrd _ hne)).trans hup, ?_, ?_, ?_, ?_, hupMap.trans (State.SameMap.of_rd htrd)⟩
  · rw [htlane, hwlane, hvlane, hulane]
  · rw [State.f_setF_apart _ _ _ _ (by simp [Fld.ok, F.NCL_LSTAT_disc_step])
      (.inr (.inr (by simp [F.NCL_LSTAT_disc_step, F.NCL_LSTAT_cells_found]))),
      State.f_setF_same _ _ _ (by simp [Fld.ok, F.NCL_LSTAT_cells_found])]
    exact Nat.mod_eq_of_lt hops_lt
  · exact State.f_setF_same _ _ _ (by simp [Fld.ok, F.NCL_LSTAT_disc_step])
  · rw [htevents, hwevents, hvevents, hupEvents]

/-- A lane is trained by its registers, by the cells of its path that were found before, and by those found now. -/
theorem State.cellLaneTrained_eq (s : State) (x rx hops : Nat) :
    ∃ mode b is, s.cellLaneTrained x rx hops
      = (let u := s.pathShown x mode hops b
         let v := u.modPath x is (fun c => { c with found := false, record := none })
         let w := v.modPath x (upto (min hops (v.pathCells x)))
          (fun c => { c with found := true, record := none, timeOk := false, age := 0x3FFFFF })
         (if hops ≠ w.pathCells x then w.raise .cellCount x 0 hops else w).launchMeasure x) := by
  unfold State.cellLaneTrained
  extract_lets +onlyGivenNames s₁ chain broken s₂ s₃ s₄ shared s₅
  refine ⟨if broken then 3 else if chain then 2 else 1,
    if broken then some (if x % 2 = 0 then hops - 1 else s₂.pathCells x - 1 - hops) else none,
    if shared then [] else upto (s₄.pathCells x), ?_⟩
  have hshown : s.pathShown x (if broken then 3 else if chain then 2 else 1) hops
      (if broken then some (if x % 2 = 0 then hops - 1 else s₂.pathCells x - 1 - hops) else none) = s₄ := by
    simp only [State.pathShown, s₄, s₃, s₂, s₁]
    cases broken <;> rfl
  have hcells : s₄.modPath x (if shared then [] else upto (s₄.pathCells x)) (fun c => { c with found := false, record := none }) = s₅ := by
    simp only [s₅]
    cases shared <;> rfl
  simp only [hshown, hcells]
  rfl

theorem State.raised_launchMeasure (s u : State) (l : Nat) : s.raised (u.launchMeasure l).musterSequencer = s.raised u := by
  obtain ⟨-, hevents, -, -⟩ := u.launchMeasure_frame l
  rw [State.raised, (u.launchMeasure l).musterSequencer_keeps.1, hevents, State.raised]

/-- The trained lane, its count of cells, and the cells found. -/
theorem State.cellLaneTrained_spec (s : State) (x rx hops : Nat) (hlt : hops < 128) :
    let t := (s.cellLaneTrained x rx hops).musterSequencer
    t.laneState x = 3 ∧ (t.lane x).attempt = false ∧ t.f (F.NCL_LSTAT_cells_found x) = hops ∧ t.f (F.NCL_LSTAT_disc_step x) = 1
      ∧ s.raised t = (if hops = s.pathCells x then [] else [.cellCount])
      ∧ ∀ i < min hops (s.pathCells x), (t.cell (s.pathCell x i)).found = true := by
  obtain ⟨mode, b, is, heq⟩ := s.cellLaneTrained_eq x rx hops
  rw [heq]
  dsimp only
  obtain ⟨hstate, hlane, hfound, hstep, hevents, hmap⟩ := s.pathShown_spec (x := x) mode hops b hlt
  set u := s.pathShown x mode hops b
  have hvu := u.modPath_cellsOnly x is (fun c => { c with found := false, record := none })
  set v := u.modPath x is (fun c => { c with found := false, record := none })
  have hvmap : s.SameMap v := hmap.trans (State.sameMap_of_regs hvu.regs)
  have hwv := v.modPath_cellsOnly x (upto (min hops (v.pathCells x)))
    (fun c => { c with found := true, record := none, timeOk := false, age := 0x3FFFFF })
  have hcells := (State.modPath_cell (x := x) (is := upto (min hops (v.pathCells x)))
    (g := fun c => { c with found := true, record := none, timeOk := false, age := 0x3FFFFF }) (p := fun c => c.found = true) (fun _ => rfl) v).2
  set w := v.modPath x (upto (min hops (v.pathCells x))) (fun c => { c with found := true, record := none, timeOk := false, age := 0x3FFFFF })
  have hwu : u.CellsOnly w := hvu.trans hwv
  have hwpath : w.pathCells x = s.pathCells x := (hmap.trans (State.sameMap_of_regs hwu.regs)).pathCells x
  rw [hvmap.pathCells] at hcells
  rw [hwpath]
  have hraise : (if hops ≠ s.pathCells x then w.raise .cellCount x 0 hops else w).regs = w.regs
      ∧ (if hops ≠ s.pathCells x then w.raise .cellCount x 0 hops else w).lane x = w.lane x
      ∧ (if hops ≠ s.pathCells x then w.raise .cellCount x 0 hops else w).cells = w.cells
      ∧ s.raised (if hops ≠ s.pathCells x then w.raise .cellCount x 0 hops else w) = (if hops = s.pathCells x then [] else [.cellCount]) := by
    have hwevents : w.events = s.events := hwu.events.trans hevents
    by_cases h : hops = s.pathCells x
    · simp [h, State.raised_of_events hwevents]
    · simp only [ne_eq, h, not_false_eq_true, if_true, if_false]
      exact ⟨rfl, rfl, rfl, State.raised_raise hwevents ..⟩
  obtain ⟨hregs, hlane', hcells', hraised⟩ := hraise
  set r := if hops ≠ s.pathCells x then w.raise .cellCount x 0 hops else w
  obtain ⟨hmregs, -, -, -⟩ := r.launchMeasure_frame x
  obtain ⟨-, hqcells, hqlane⟩ := (r.launchMeasure x).musterSequencer_keeps
  have htregs : (r.launchMeasure x).musterSequencer.regs = u.regs :=
    (State.musterSequencer_regs _).trans (hmregs.trans (hregs.trans hwu.regs))
  refine ⟨(State.f_of_regs htregs _).trans hstate, ?_, (State.f_of_regs htregs _).trans hfound, (State.f_of_regs htregs _).trans hstep, ?_,
    fun i hi => ?_⟩
  · rw [hqlane, (r.launchMeasure_lane x x).1, hlane', hwu.lane, hlane]
  · rw [State.raised_launchMeasure, hraised]
  · have := hcells i (List.mem_range.mpr hi)
    rw [hvmap.pathCell] at this
    rwa [State.cell, hqcells, r.launchMeasure_cells, hcells']

theorem exec_helloReceived_untaken {s : State} {l : Fin 50} {h : RxSet} (hu : setWhole 4 h = false ∨ s.rxDelivers l = false) :
    exec (.helloReceived l h) s = .next s := by
  have hcond : (!setWhole 4 h || !s.rxDelivers l) = true := by
    rcases hu with hu | hu <;> simp [hu]
  simp only [exec, execHelloReceived, hcond, if_true]

theorem exec_helloReceived_cell {s : State} {l : Fin 50} {x : Fin 48} {h : RxSet} (hl : l.val < 48) (hmode : s.mode = .muster)
    (hwhole : setWhole 4 h = true) (hrx : s.rxDelivers l = true) (hlane : bitsOf h.payload.toNat 13 8 = x)
    (hsender : x.val = l.val ∨ s.isChain x = true ∧ partnerLane x = l.val) (huse : s.laneInUse x = true)
    (hattempt : (s.lane x).attempt = true) (hmark : (s.lane x).markerFail = false)
    (hsent : bitsOf h.payload.toNat 16 14 = bitsOf (s.helloPayload x) 16 14) (hside : bitsOf h.payload.toNat 25 25 = s.f F.NCL_GCFG_side) :
    exec (.helloReceived l h) s = .next (s.cellLaneTrained x l (bitsOf h.payload.toNat 7 0)).musterSequencer := by
  have hsender' : s.helloSender l x = true := by
    rcases hsender with hs | ⟨hs, hp⟩
    · simp [State.helloSender, ← hs, huse]
    · simp [State.helloSender, huse, hs, hp]
  have htrains : s.trains l = true := by simp [State.trains, hmode]
  simp [exec, execHelloReceived, hwhole, hrx, hlane, hsender', htrains, hattempt, hmark, hsent, hside, Nat.not_le.mpr hl]

theorem helloReceived_mirror {s : State} {l : Fin 50} {h : RxSet} (hl : 48 ≤ l.val) (hwhole : setWhole 4 h = true)
    (hrx : s.rxDelivers l = true) (hlane : bitsOf h.payload.toNat 13 8 = 48 ∨ bitsOf h.payload.toNat 13 8 = 49)
    (hdir : bitsOf h.payload.toNat 16 14 = 0) (hhops : bitsOf h.payload.toNat 7 0 = 1) (hstate : s.laneState l = 2) :
    ∃ t, exec (.helloReceived l h) s = .next t ∧ t.laneState l = 3 ∧ (t.lane l).helloSeen = true ∧ (t.lane l).attempt = false
      ∧ t.events = s.events := by
  have hexec : exec (.helloReceived l h) s = .next (((s.modLane l (fun x => { x with helloSeen := true })).setLaneState l laneUp).modLane l
      (fun x => { x with attempt := false, backoff := false, trainedOnce := true })) := by
    simp [exec, execHelloReceived, State.mirrorHello, hwhole, hrx, hlane, hdir, hhops, hstate, hl, laneTraining]
  have hup : ((s.modLane l (fun x => { x with helloSeen := true })).setLaneState l laneUp).f (F.LPHY_STAT_state l) = 3 :=
    State.f_setF_same _ _ _ (by simp [Fld.ok, F.LPHY_STAT_state])
  refine ⟨_, hexec, (State.f_of_regs (by simp) _).trans hup, ?_, ?_, by simp [State.setLaneState]⟩
  · rw [State.lane_modLane, State.setLaneState, State.lane_setF, State.lane_modLane]
  · rw [State.lane_modLane]

/-! ### Attempts (R126, R127) -/

theorem LPHY_STAT_ne_TIM_STAT (l : Nat) : R.LPHY_STAT l ≠ R.TIM_STAT := by
  simp only [R.LPHY_STAT, R.TIM_STAT]
  omega

/-- The state in which an attempt of lane `l` ends, in cycle `c`. -/
def State.attemptOver (s : State) (l c : Nat) : State :=
  (s.advanceCyc c).modLane l (fun x => { x with attempt := false, attemptAt := (s.advanceCyc c).cyc })

theorem State.attemptOver_spec (s : State) (l c : Nat) :
    let t := s.attemptOver l c
    (t.lane l).attempt = false ∧ (t.lane l).backoff = (s.lane l).backoff ∧ (t.lane l).deadSaid = (s.lane l).deadSaid
      ∧ t.cyc = max s.cyc c ∧ State.SameRegs s t ∧ t.events = s.events := by
  have hlane : (s.attemptOver l c).lane l = { s.lane l with attempt := false, attemptAt := (s.advanceCyc c).cyc } := by
    rw [State.attemptOver, State.lane_modLane, State.advanceCyc_lane]
  dsimp only
  rw [hlane]
  exact ⟨rfl, rfl, rfl, s.advanceCyc_cyc c, fun off hoff => s.advanceCyc_rd c hoff, s.advanceCyc_events c⟩

theorem State.SameRegs.attempts {s t : State} (h : State.SameRegs s t) (l : Nat) :
    t.f (F.LPHY_STAT_attempts l) = s.f (F.LPHY_STAT_attempts l)
      ∧ t.f F.LPHY_TRAIN_CFG_hello_attempts = s.f F.LPHY_TRAIN_CFG_hello_attempts ∧ t.laneState l = s.laneState l :=
  ⟨State.f_of_rd (x := F.LPHY_STAT_attempts l) (h _ (LPHY_STAT_ne_TIM_STAT l)),
    State.f_of_rd (x := F.LPHY_TRAIN_CFG_hello_attempts) (h _ (by decide)),
    State.f_of_rd (x := F.LPHY_STAT_state l) (h _ (LPHY_STAT_ne_TIM_STAT l))⟩

/-- The lane is said to be dead, once. -/
def State.saidDead (s : State) (l : Nat) : State :=
  ((s.modLane l (fun x => { x with deadSaid := true })).mark (F.LPHY_STAT_dead l)).raise .laneDead l 0 0

theorem exec_trainingTimeout_waits {s : State} {l : Fin 50} (h : (s.lane l).attempt = true) (htrains : s.trains l = true)
    (hmore : s.f (F.LPHY_STAT_attempts l) ≠ s.f F.LPHY_TRAIN_CFG_hello_attempts) :
    exec (.trainingTimeout l) s = .next ((s.attemptOver l ((s.lane l).attemptAt + 1250000)).modLane l (fun x => { x with backoff := true })) := by
  obtain ⟨-, -, -, -, hregs, -⟩ := s.attemptOver_spec l ((s.lane l).attemptAt + 1250000)
  obtain ⟨hk, hmax, -⟩ := hregs.attempts l
  unfold State.attemptOver at hk hmax
  simp [exec, execTrainingTimeout, h, htrains, cycPerMs, hk, hmax, hmore, State.attemptOver]

theorem exec_trainingTimeout_last {s : State} {l : Fin 50} (h : (s.lane l).attempt = true) (htrains : s.trains l = true)
    (hlast : s.f (F.LPHY_STAT_attempts l) = s.f F.LPHY_TRAIN_CFG_hello_attempts) (hsaid : (s.lane l).deadSaid = false) :
    exec (.trainingTimeout l) s
      = (let u := (s.attemptOver l ((s.lane l).attemptAt + 1250000)).saidDead l
         .next (if l.val < 48 then ((u.setLaneState l laneDead).launchMeasure (partnerLane l)).musterSequencer
          else u.modLane l (fun x => { x with backoff := true }))) := by
  obtain ⟨-, -, hsaid', -, hregs, -⟩ := s.attemptOver_spec l ((s.lane l).attemptAt + 1250000)
  obtain ⟨hk, hmax, -⟩ := hregs.attempts l
  rw [hsaid] at hsaid'
  rw [← hlast] at hmax
  have hover : (s.advanceCyc ((s.lane l).attemptAt + 2 * cycPerMs)).modLane l (fun x => { x with
      attempt := false, attemptAt := (s.advanceCyc ((s.lane l).attemptAt + 2 * cycPerMs)).cyc })
      = s.attemptOver l ((s.lane l).attemptAt + 1250000) := by simp only [State.attemptOver, cycPerMs]
  have hdied (u : State) : ((u.modLane l (fun x => { x with deadSaid := true })).mark (F.LPHY_STAT_dead l)).raise .laneDead l 0 0
      = u.saidDead l := rfl
  simp only [exec, execTrainingTimeout, h, htrains, hover, hk, hmax, hsaid', hdied, Bool.not_true, Bool.or_self, Bool.false_eq_true, if_false,
    decide_true, Bool.not_false, Bool.and_self, if_true, Bool.true_and, decide_eq_true_eq]
  split <;> rfl

theorem State.saidDead_spec (s : State) (l : Nat) :
    (s.saidDead l).fb (F.LPHY_STAT_dead l) = true ∧ s.raised (s.saidDead l) = [.laneDead] ∧ (s.saidDead l).laneState l = s.laneState l
      ∧ ((s.saidDead l).lane l).attempt = (s.lane l).attempt ∧ ((s.saidDead l).lane l).backoff = (s.lane l).backoff := by
  have hok : (F.LPHY_STAT_dead l).ok := by simp [Fld.ok, F.LPHY_STAT_dead]
  unfold State.saidDead
  set u := s.modLane l (fun x => { x with deadSaid := true }) with hu
  have hregs : (((u.mark (F.LPHY_STAT_dead l)).raise .laneDead l 0 0)).regs = (u.mark (F.LPHY_STAT_dead l)).regs := by simp
  have hevents : (u.mark (F.LPHY_STAT_dead l)).events = s.events := by simp [hu]
  have hlane : u.lane l = { s.lane l with deadSaid := true } := by rw [hu, State.lane_modLane]
  have hstate : (u.mark (F.LPHY_STAT_dead l)).f (F.LPHY_STAT_state l) = s.f (F.LPHY_STAT_state l) :=
    (u.f_mark_apart _ _ hok (.inr (.inl (by simp [F.LPHY_STAT_dead, F.LPHY_STAT_state])))).trans (State.f_of_regs (by simp [hu]) _)
  have hdead : (u.mark (F.LPHY_STAT_dead l)).fb (F.LPHY_STAT_dead l) = true := u.fb_mark_same hok rfl
  have hmarked : (u.mark (F.LPHY_STAT_dead l)).lane l = u.lane l := u.lane_mark ..
  generalize u.mark (F.LPHY_STAT_dead l) = v at *
  refine ⟨(State.fb_of_regs hregs _).trans hdead, State.raised_raise hevents .., (State.f_of_regs hregs _).trans hstate, ?_, ?_⟩ <;>
    rw [State.lane_raise, hmarked, hlane]

theorem State.raised_setF (s u : State) (x : Fld) (v : Nat) : s.raised (u.setF x v) = s.raised u := by simp [State.raised]

theorem State.modLane_backoff (s : State) (l : Nat) :
    ((s.modLane l (fun x => { x with backoff := true })).lane l).attempt = (s.lane l).attempt
      ∧ ((s.modLane l (fun x => { x with backoff := true })).lane l).backoff = true := by
  rw [State.lane_modLane]
  exact ⟨rfl, rfl⟩

theorem trainingTimeout_waits {s : State} {l : Fin 50} (h : (s.lane l).attempt = true) (htrains : s.trains l = true)
    (hmore : s.f (F.LPHY_STAT_attempts l) ≠ s.f F.LPHY_TRAIN_CFG_hello_attempts) :
    ∃ t, exec (.trainingTimeout l) s = .next t ∧ (t.lane l).attempt = false ∧ (t.lane l).backoff = true
      ∧ t.cyc = max s.cyc ((s.lane l).attemptAt + 1250000) ∧ State.SameRegs s t ∧ t.events = s.events := by
  obtain ⟨hattempt, -, -, hcyc, hregs, hevents⟩ := s.attemptOver_spec l ((s.lane l).attemptAt + 1250000)
  rw [exec_trainingTimeout_waits h htrains hmore]
  generalize s.attemptOver l ((s.lane l).attemptAt + 1250000) = u at *
  obtain ⟨hattempt', hbackoff⟩ := u.modLane_backoff l
  exact ⟨_, rfl, hattempt'.trans hattempt, hbackoff, by simp [hcyc], fun off ho => (State.rd_of_regs (by simp) off).trans (hregs off ho),
    by simp [hevents]⟩

theorem trainingTimeout_last {s : State} {l : Fin 50} (h : (s.lane l).attempt = true) (htrains : s.trains l = true)
    (hlast : s.f (F.LPHY_STAT_attempts l) = s.f F.LPHY_TRAIN_CFG_hello_attempts) (hsaid : (s.lane l).deadSaid = false) :
    ∃ t, exec (.trainingTimeout l) s = .next t ∧ (t.lane l).attempt = false ∧ t.fb (F.LPHY_STAT_dead l) = true
      ∧ s.raised t = [.laneDead] ∧ (l.val < 48 → t.laneState l = 5 ∧ (t.lane l).backoff = (s.lane l).backoff)
      ∧ (48 ≤ l.val → (t.lane l).backoff = true ∧ t.laneState l = s.laneState l) := by
  obtain ⟨hattempt, hbackoff, -, -, hregs, hevents⟩ := s.attemptOver_spec l ((s.lane l).attemptAt + 1250000)
  obtain ⟨-, -, hstate⟩ := hregs.attempts l
  obtain ⟨hdead, hraised, hstate', hattempt', hbackoff'⟩ := (s.attemptOver l ((s.lane l).attemptAt + 1250000)).saidDead_spec l
  rw [State.raised, hevents, ← State.raised] at hraised
  rw [exec_trainingTimeout_last h htrains hlast hsaid]
  dsimp only
  generalize s.attemptOver l ((s.lane l).attemptAt + 1250000) = r at *
  generalize r.saidDead l = u at *
  by_cases hl : l.val < 48
  · rw [if_pos hl]
    have hok : (F.LPHY_STAT_state l).ok := by simp [Fld.ok, F.LPHY_STAT_state]
    have hdead' : (u.setLaneState l laneDead).fb (F.LPHY_STAT_dead l) = true :=
      (u.fb_setF_apart _ hok (.inr (.inr (by simp [F.LPHY_STAT_dead, F.LPHY_STAT_state])))).trans hdead
    have hstate'' : (u.setLaneState l laneDead).f (F.LPHY_STAT_state l) = 5 := u.f_setF_same _ _ hok
    have hraised' : s.raised (u.setLaneState l laneDead) = [.laneDead] := (State.raised_setF ..).trans hraised
    have hlane : (u.setLaneState l laneDead).lane l = u.lane l := u.lane_setF ..
    set v := u.setLaneState l laneDead
    obtain ⟨hmregs, -, -, -⟩ := v.launchMeasure_frame (partnerLane l)
    obtain ⟨-, -, hqlane⟩ := (v.launchMeasure (partnerLane l)).musterSequencer_keeps
    obtain ⟨hmattempt, hmbackoff⟩ := v.launchMeasure_lane (partnerLane l) l
    have hregs' : (v.launchMeasure (partnerLane l)).musterSequencer.regs = v.regs := (State.musterSequencer_regs _).trans hmregs
    refine ⟨_, rfl, ?_, ?_, ?_, fun _ => ⟨?_, ?_⟩, fun h' => absurd hl (by omega)⟩
    · rw [hqlane, hmattempt, hlane, hattempt', hattempt]
    · rw [State.fb_of_regs hregs', hdead']
    · rw [State.raised_launchMeasure, hraised']
    · rw [← hstate'']
      exact State.f_of_regs hregs' _
    · rw [hqlane, hmbackoff, hlane, hbackoff', hbackoff]
  · rw [if_neg hl]
    obtain ⟨hwattempt, hwbackoff⟩ := u.modLane_backoff l
    have hregs' : (u.modLane l (fun x => { x with backoff := true })).regs = u.regs := by simp
    exact ⟨_, rfl, hwattempt.trans (hattempt'.trans hattempt), (State.fb_of_regs hregs' _).trans hdead, by simpa [State.raised] using hraised,
      fun h' => absurd h' hl, fun _ => ⟨hwbackoff, (State.f_of_regs hregs' _).trans (hstate'.trans hstate)⟩⟩

theorem backoffCycles_eq (k : Nat) : backoffCycles k = min (2 ^ k) 100 * 625000 := by
  unfold backoffCycles cycPerMs
  split
  · next hk =>
    have : 2 ^ 7 ≤ 2 ^ k := Nat.pow_le_pow_right (by decide) hk
    rw [Nat.min_eq_right (by omega)]
  · next hk =>
    have : 2 ^ k ≤ 2 ^ 6 := Nat.pow_le_pow_right (by decide) (by omega)
    rw [Nat.min_eq_left (by omega)]

theorem exec_trainingRetry_idle {s : State} {l : Fin 50} (h : (s.lane l).backoff = false) : exec (.trainingRetry l) s = .next s := by
  simp [exec, execTrainingRetry, h]

/-- The state in which the next attempt of lane `l` starts, in cycle `c`, but for the count of attempts. -/
def State.attemptBegun (s : State) (l c : Nat) : State :=
  (s.advanceCyc c).modLane l (fun x => { x with
    backoff := false, attempt := true, markerFail := false, attemptAt := (s.advanceCyc c).cyc, helloNext := (s.advanceCyc c).cyc })

theorem State.attemptBegun_spec (s : State) (l c : Nat) :
    let t := s.attemptBegun l c
    (t.lane l).attempt = true ∧ (t.lane l).backoff = false ∧ t.cyc = max s.cyc c ∧ t.events = s.events
      ∧ (s.advanceCyc c).f (F.LPHY_STAT_attempts l) = s.f (F.LPHY_STAT_attempts l) := by
  refine ⟨?_, ?_, by simp [State.attemptBegun, State.advanceCyc_cyc], by simp [State.attemptBegun],
    State.f_of_rd (x := F.LPHY_STAT_attempts l) (s.advanceCyc_rd c (LPHY_STAT_ne_TIM_STAT l))⟩ <;>
    rw [State.attemptBegun, State.lane_modLane]

theorem exec_trainingRetry_starts {s : State} {l : Fin 50} (h : (s.lane l).backoff = true) (htrains : s.trains l = true) :
    exec (.trainingRetry l) s
      = (let c := (s.lane l).attemptAt + min (2 ^ s.f (F.LPHY_STAT_attempts l)) 100 * 625000
         .next ((s.attemptBegun l c).setF (F.LPHY_STAT_attempts l) (satInc ((s.advanceCyc c).f (F.LPHY_STAT_attempts l)) 255))) := by
  simp only [exec, execTrainingRetry, h, htrains, backoffCycles_eq, Bool.and_self, if_true, State.attemptBegun]

theorem trainingRetry_starts {s : State} {l : Fin 50} (h : (s.lane l).backoff = true) (htrains : s.trains l = true) :
    ∃ t, exec (.trainingRetry l) s = .next t ∧ (t.lane l).attempt = true ∧ (t.lane l).backoff = false
      ∧ t.cyc = max s.cyc ((s.lane l).attemptAt + min (2 ^ s.f (F.LPHY_STAT_attempts l)) 100 * 625000)
      ∧ t.f (F.LPHY_STAT_attempts l) = min 255 (s.f (F.LPHY_STAT_attempts l) + 1) ∧ t.events = s.events := by
  rw [exec_trainingRetry_starts h htrains]
  dsimp only
  generalize (s.lane l).attemptAt + min (2 ^ s.f (F.LPHY_STAT_attempts l)) 100 * 625000 = c
  obtain ⟨hattempt, hbackoff, hcyc, hevents, hk⟩ := s.attemptBegun_spec l c
  have hcount : satInc (s.f (F.LPHY_STAT_attempts l)) 255 = min 255 (s.f (F.LPHY_STAT_attempts l) + 1) := by
    unfold satInc
    split <;> omega
  refine ⟨_, rfl, by rw [State.lane_setF, hattempt], by rw [State.lane_setF, hbackoff], by simp [hcyc], ?_, by simp [hevents]⟩
  rw [hk, State.f_setF_same _ _ _ (by simp [Fld.ok, F.LPHY_STAT_attempts]), hcount]
  exact Nat.mod_eq_of_lt (by simp only [F.LPHY_STAT_attempts]; omega)

/-! ### Beacons (R44) -/

/-- A beacon leaves an untrained lane. -/
def State.beaconOn (s : State) (l : Nat) : State :=
  if s.laneClock l && decide (s.laneState l ≤ laneBeacon) then
    (s.sendNow l [blockSet 4 (s.f F.RED_STAT_sense == 0)]).setLaneState l laneBeacon
  else s

theorem exec_blockBeacon_unpowered {s : State} (h : s.pwr.rails = false ∨ s.pwr.lanesPowered = false) : exec .blockBeacon s = .next s := by
  have hcond : (s.pwr.rails && s.pwr.lanesPowered) = false := by
    rcases h with h | h <;> simp [h]
  simp only [exec, execBlockBeacon, hcond, Bool.false_eq_true, if_false]

theorem exec_blockBeacon_powered {s : State} (h : s.pwr.rails = true) (h' : s.pwr.lanesPowered = true) :
    exec .blockBeacon s = .next (s.forEach allLanes State.beaconOn) := by
  simp only [exec, execBlockBeacon, h, h', Bool.and_self, if_true]
  rfl

/-- What the beacons of other lanes leave of lane `j`: it, its state and what its transmitter and its beacon rest on. -/
structure State.Beaconed (s t : State) (j : Nat) : Prop where
  lane : t.lane j = s.lane j
  rd : ∀ off, (∀ l, l ≠ j → off ≠ R.LPHY_STAT l) → t.rd off = s.rd off
  pwr : t.pwr = s.pwr

section
variable {s t u : State} {j : Nat}

theorem State.Beaconed.refl (s : State) (j : Nat) : s.Beaconed s j := ⟨rfl, fun _ _ => rfl, rfl⟩

theorem State.Beaconed.trans (h : s.Beaconed t j) (h' : t.Beaconed u j) : s.Beaconed u j :=
  ⟨h'.lane.trans h.lane, fun off ho => (h'.rd off ho).trans (h.rd off ho), h'.pwr.trans h.pwr⟩

theorem State.Beaconed.laneState (h : s.Beaconed t j) : t.laneState j = s.laneState j :=
  State.f_of_rd (x := F.LPHY_STAT_state j) (h.rd _ fun l hl => by simp only [R.LPHY_STAT, F.LPHY_STAT_state]; omega)

theorem State.Beaconed.laneCoded (h : s.Beaconed t j) : t.laneCoded j = s.laneCoded j :=
  State.laneCoded_of_keeps h.pwr (h.rd _ fun l _ => by simp only [R.LPHY_STAT, R.LPHY_DIAG]; omega)

theorem State.Beaconed.sense (h : s.Beaconed t j) : t.f F.RED_STAT_sense = s.f F.RED_STAT_sense :=
  State.f_of_rd (x := F.RED_STAT_sense) (h.rd _ fun l _ => by simp only [R.LPHY_STAT, R.RED_STAT, F.RED_STAT_sense]; omega)

theorem State.beaconOn_beaconed (s : State) {l : Nat} (h : j ≠ l) : s.Beaconed (s.beaconOn l) j := by
  unfold State.beaconOn
  split
  · have hlanes := s.sendNow_lanesOnly l [blockSet 4 (s.f F.RED_STAT_sense == 0)]
    have hlane := s.sendNow_lane_ne [blockSet 4 (s.f F.RED_STAT_sense == 0)] h
    set v := s.sendNow l [blockSet 4 (s.f F.RED_STAT_sense == 0)]
    refine ⟨hlane, fun off ho => (v.rd_setF_ne _ _ (ho l h.symm)).trans (State.rd_of_regs ?_ off), ?_⟩
    · rw [hlanes]
    · change v.pwr = s.pwr
      rw [hlanes]
  · exact .refl s j

theorem State.beacons_beaconed (s : State) {ls : List Nat} (h : j ∉ ls) : s.Beaconed (s.forEach ls State.beaconOn) j := by
  induction ls generalizing s with
  | nil => exact .refl s j
  | cons l ls ih =>
    have hj : j ≠ l ∧ j ∉ ls := by simpa using h
    exact (s.beaconOn_beaconed hj.1).trans (ih _ hj.2)

theorem State.beaconOn_events (s : State) (l : Nat) : (s.beaconOn l).events = s.events := by
  unfold State.beaconOn
  split
  · exact (s.sendNow_lanesOnly l _).events
  · rfl

theorem State.beacons_events (s : State) (ls : List Nat) : (s.forEach ls State.beaconOn).events = s.events :=
  List.foldlRecOn (motive := fun t : State => t.events = s.events) _ _ rfl fun t ht l _ => (t.beaconOn_events l).trans ht

/-- A lane's beacon is the one that leaves when its turn comes. -/
theorem State.beacons_lane (s : State) {ls : List Nat} (h : j ∈ ls) (hnodup : ls.Nodup) :
    ∃ t, s.Beaconed t j ∧ (t.beaconOn j).Beaconed (s.forEach ls State.beaconOn) j := by
  obtain ⟨as, bs, rfl⟩ := List.append_of_mem h
  have hnot : j ∉ as ∧ j ∉ bs := by
    rw [List.nodup_append] at hnodup
    obtain ⟨-, hbs, hne⟩ := hnodup
    exact ⟨fun ha => hne j ha j List.mem_cons_self rfl, (List.nodup_cons.mp hbs).1⟩
  refine ⟨s.forEach as State.beaconOn, s.beacons_beaconed hnot.1, ?_⟩
  have happend : s.forEach (as ++ j :: bs) State.beaconOn = ((s.forEach as State.beaconOn).beaconOn j).forEach bs State.beaconOn := by
    simp [State.forEach]
  rw [happend]
  exact State.beacons_beaconed _ hnot.2

theorem State.beaconOn_trained (h : 1 < s.laneState j) : s.beaconOn j = s := by
  simp [State.beaconOn, laneBeacon, Nat.not_le.mpr h]

theorem State.beaconOn_untrained (h : s.laneState j ≤ 1) (hcoded : s.laneCoded j = true) :
    ((s.beaconOn j).lane j).sets = [blockSet 4 (s.f F.RED_STAT_sense == 0)] := by
  have hclock : s.laneClock j = true := (Bool.and_eq_true_iff.mp hcoded).1
  simp only [State.beaconOn, hclock, laneBeacon, h, decide_true, Bool.and_self, if_true]
  exact State.sendNow_sets _ hcoded

end

theorem blockBeacon_sent {s : State} (l : Fin 50) (h : s.pwr.rails = true) (h' : s.pwr.lanesPowered = true) :
    ∃ t, exec .blockBeacon s = .next t ∧ t.events = s.events
      ∧ (s.laneCoded l = true → s.laneState l ≤ 1 →
          (t.lane l).sets = [mkSet 3 (4 + b2n (s.f F.RED_STAT_sense == 0) * 16 + 0xB10CB10C * 256)])
      ∧ (1 < s.laneState l → t.lane l = s.lane l ∧ t.laneState l = s.laneState l) := by
  obtain ⟨u, hsu, hut⟩ := s.beacons_lane (j := l) (ls := allLanes) (List.mem_range.mpr l.isLt) List.nodup_range
  refine ⟨_, exec_blockBeacon_powered h h', s.beacons_events _, fun hcoded hstate => ?_, fun hstate => ?_⟩
  · rw [hut.lane, State.beaconOn_untrained (by rwa [hsu.laneState]) (by rwa [hsu.laneCoded]), hsu.sense]
    rfl
  · rw [State.beaconOn_trained (by rwa [hsu.laneState])] at hut
    exact ⟨hut.lane.trans hsu.lane, hut.laneState.trans hsu.laneState⟩

end Sys2Proof.Machine
end

section
/-! Training of the lanes (R44, R90, R106, R124 to R127). -/

open Sys2Proof.Machine

namespace Sys2Proof

/-- Settles O36, row by row: the HELLO that leaves, the one that comes back on a cell lane and on a mirror lane, the end of an attempt and
of the wait after it, and the beacons. -/
theorem laneTraining : Obligations.LaneTraining := by
  unfold Obligations.LaneTraining
  intro s l x h
  refine ⟨helloSend_leaves, State.helloDue_of_attempt, exec_helloSend_idle,
    fun hl hmode hwhole hrx hlane hsender huse hattempt hmark hsent hside hhops => ?_, exec_helloReceived_untaken, helloReceived_mirror,
    trainingTimeout_waits, trainingTimeout_last, trainingRetry_starts, exec_trainingRetry_idle, exec_blockBeacon_unpowered, blockBeacon_sent l⟩
  exact ⟨_, exec_helloReceived_cell hl hmode hwhole hrx hlane hsender huse hattempt hmark hsent hside,
    s.cellLaneTrained_spec x l _ hhops⟩

end Sys2Proof
end

section
/-! SUPPORT. What the scheduler's work changes: its own registers and those of the engines, the tasks, the engines and the events. -/

namespace Sys2Proof.Machine

/-- The registers that the scheduler writes: those of the scheduler and of the engines, but for the configurations of the tasks. -/
def schedReg (off : Nat) : Prop := 0x50000 ≤ off ∧ off < 0x70000 ∧ (off < 0x51000 ∨ 0x52800 ≤ off ∨ off % 32 ≠ 0)

theorem schedReg_tc {tc : Nat} (h : tc < 192) : schedReg (R.SCH_TC_STAT tc) ∧ ¬ schedReg (R.SCH_TC_CFG tc) := by
  simp only [schedReg, R.SCH_TC_STAT, R.SCH_TC_CFG]
  omega

theorem schedReg_eng {e : Nat} (h : e < 12) : schedReg (R.ENG_STAT e) ∧ schedReg (R.ENG_TASK e) ∧ schedReg (R.SCH_TRACE_IDX e)
    ∧ schedReg (R.SCH_LOAD e) ∧ schedReg (R.SCH_DEPTH e) := by
  simp only [schedReg, R.ENG_STAT, R.ENG_TASK, R.SCH_TRACE_IDX, R.SCH_LOAD, R.SCH_DEPTH]
  omega

theorem schedReg_global : schedReg R.SCH_STAT ∧ schedReg R.SCH_OVR_CNT := by
  simp only [schedReg, R.SCH_STAT, R.SCH_OVR_CNT]
  omega

theorem engOf_lt {tc : Nat} (h : tc < 192) : engOf tc < 12 := by
  unfold engOf
  omega

/-- `s` has come from `s₀` by work of the scheduler. -/
structure State.Scheduled (s s₀ : State) : Prop where
  frame : s = { s₀ with regs := s.regs, just := s.just, justAt := s.justAt, events := s.events, evSeq := s.evSeq, sched := s.sched,
                        tasks := s.tasks, engines := s.engines }
  events : s₀.events <+: s.events
  limit : s.sched.limitHit = s₀.sched.limitHit
  regs : ∀ off, ¬ schedReg off → s.rd off = s₀.rd off

/-- No task is critical (R254). -/
def State.Uncritical (s : State) : Prop := ∀ tc < 192, s.fb (F.SCH_TC_CFG_crit tc) = false

section
variable {s t s₀ : State}

theorem State.Scheduled.refl (s : State) : s.Scheduled s := ⟨rfl, List.prefix_rfl, rfl, fun _ _ => rfl⟩

theorem State.Scheduled.trans (h : t.Scheduled s) (h' : s.Scheduled s₀) : t.Scheduled s₀ := by
  obtain ⟨hframe, hevents, hlimit, hregs⟩ := h
  obtain ⟨hframe', hevents', hlimit', hregs'⟩ := h'
  refine ⟨?_, hevents'.trans hevents, hlimit.trans hlimit', fun off ho => (hregs off ho).trans (hregs' off ho)⟩
  rw [hframe'] at hframe
  exact hframe

theorem State.Scheduled.ite {c : Prop} [Decidable c] (hs : s.Scheduled s₀) (ht : t.Scheduled s₀) : (if c then s else t).Scheduled s₀ := by
  split
  exacts [hs, ht]

theorem State.Scheduled.forEach {is : List Nat} {g : State → Nat → State} (h : s.Scheduled s₀)
    (hg : ∀ i ∈ is, ∀ t, t.Scheduled s₀ → (g t i).Scheduled s₀) : (s.forEach is g).Scheduled s₀ := by
  unfold State.forEach
  induction is generalizing s with
  | nil => exact h
  | cons i is ih => exact ih (hg i List.mem_cons_self s h) fun j hj => hg j (List.mem_cons_of_mem i hj)

/-! ### Operations -/

theorem State.Scheduled.wr {off : Nat} (v : Nat) (h : s.Scheduled s₀) (ho : schedReg off) : (s.wr off v).Scheduled s₀ :=
  .trans ⟨rfl, List.prefix_rfl, rfl, fun o hno => s.rd_wr_ne v fun (he : o = off) => hno (he ▸ ho)⟩ h

theorem State.Scheduled.setF {x : Fld} {v : Nat} (h : s.Scheduled s₀) (hx : schedReg x.off) : (s.setF x v).Scheduled s₀ := h.wr _ hx

theorem State.Scheduled.note {off m : Nat} (h : s.Scheduled s₀) : (s.note off m).Scheduled s₀ :=
  .trans ⟨rfl, List.prefix_rfl, rfl, fun _ _ => rfl⟩ h

theorem State.Scheduled.mark {x : Fld} (h : s.Scheduled s₀) (hx : schedReg x.off) : (s.mark x).Scheduled s₀ := (h.setF hx).note

theorem State.Scheduled.bumpF {x : Fld} {k : Nat} (h : s.Scheduled s₀) (hx : schedReg x.off) : (s.bumpF x k).Scheduled s₀ := (h.setF hx).note

theorem State.Scheduled.putWorst {x : Fld} {v : Nat} (h : s.Scheduled s₀) (hx : schedReg x.off) : (s.putWorst x v).Scheduled s₀ :=
  .ite (h.setF hx).note h

theorem State.Scheduled.modEng {e : Nat} {g : Engine → Engine} (h : s.Scheduled s₀) : (s.modEng e g).Scheduled s₀ :=
  .trans ⟨rfl, List.prefix_rfl, rfl, fun _ _ => rfl⟩ h

theorem State.Scheduled.modTask {tc : Nat} {g : Task → Task} (h : s.Scheduled s₀) : (s.modTask tc g).Scheduled s₀ :=
  .trans ⟨rfl, List.prefix_rfl, rfl, fun _ _ => rfl⟩ h

theorem State.Scheduled.raise {c : EvCode} {u a v : Nat} (h : s.Scheduled s₀) : (s.raise c u a v).Scheduled s₀ :=
  .trans ⟨rfl, s.events_raise_grown c u a v, rfl, fun _ _ => rfl⟩ h

/-- The scheduler's notes change, but for an overrun limit that is reached. -/
theorem State.Scheduled.withSched {x : Sched} (h : s.Scheduled s₀) (hx : x.limitHit = s.sched.limitHit) :
    { s with sched := x }.Scheduled s₀ := .trans ⟨rfl, List.prefix_rfl, hx, fun _ _ => rfl⟩ h

theorem State.Scheduled.plans (h : s.Scheduled s₀) : s.plans.Scheduled s₀ := h.withSched rfl

theorem State.Scheduled.noteEvent {evt : Nat} (h : s.Scheduled s₀) : (s.noteEvent evt).Scheduled s₀ := h.withSched rfl

theorem State.Scheduled.setTcState {tc v : Nat} (h : s.Scheduled s₀) (htc : tc < 192) : (s.setTcState tc v).Scheduled s₀ :=
  h.setF (schedReg_tc htc).1

theorem State.Scheduled.setEngState {e v c : Nat} (h : s.Scheduled s₀) (he : e < 12) : (s.setEngState e v c).Scheduled s₀ :=
  h.modEng.setF (schedReg_eng he).1

theorem State.Scheduled.freeEngine {e v : Nat} (h : s.Scheduled s₀) (he : e < 12) : (s.freeEngine e v).Scheduled s₀ :=
  ((h.setEngState he).setF (schedReg_eng he).2.1).modEng

theorem State.Scheduled.dropInstance {tc st : Nat} (h : s.Scheduled s₀) (htc : tc < 192) : (s.dropInstance tc st).Scheduled s₀ := by
  unfold State.dropInstance
  exact (h.setTcState htc).modTask.modEng

theorem State.Scheduled.traceAt {p kind tc arg wait : Nat} (h : s.Scheduled s₀) (htc : tc < 192) :
    (s.traceAt p kind tc arg wait).Scheduled s₀ := by
  unfold State.traceAt
  extract_lets +onlyGivenNames e rec16 s1
  have h1 : s1.Scheduled s₀ := h.modEng
  exact .ite (.ite h1.modEng (h1.bumpF (schedReg_eng (engOf_lt htc)).2.2.1)) h

theorem State.Scheduled.trace {kind tc arg wait : Nat} (h : s.Scheduled s₀) (htc : tc < 192) : (s.trace kind tc arg wait).Scheduled s₀ :=
  h.traceAt htc

theorem State.Scheduled.makeReadyAt {p tc : Nat} (h : s.Scheduled s₀) (htc : tc < 192) : (s.makeReadyAt p tc).Scheduled s₀ := by
  unfold State.makeReadyAt State.noteDepth
  exact (h.setTcState htc).modTask.modEng

theorem State.Scheduled.uncritical (h : s.Scheduled s₀) (hc : s₀.Uncritical) : s.Uncritical := fun tc htc =>
  (State.fb_of_rd (h.regs _ (schedReg_tc htc).2)).trans (hc tc htc)

theorem State.Scheduled.abortTask {tc : Nat} (h : s.Scheduled s₀) (hc : s₀.Uncritical) (htc : tc < 192) : (s.abortTask tc).Scheduled s₀ := by
  unfold State.abortTask
  extract_lets +onlyGivenNames e running pc s1 s2 s3 s4
  have h1 : s1.Scheduled s₀ := .ite (h.modEng.freeEngine (engOf_lt htc)) h
  have h3 : s3.Scheduled s₀ := ((h1.dropInstance htc).mark (schedReg_tc htc).1).bumpF (schedReg_tc htc).1
  have h4 : s4.Scheduled s₀ := h3.raise.trace htc
  rw [h4.uncritical hc tc htc]
  exact h4

theorem State.Scheduled.trigger {tc evt : Nat} (h : s.Scheduled s₀) (hc : s₀.Uncritical) (htc : tc < 192) :
    (s.trigger tc evt).Scheduled s₀ := by
  unfold State.trigger
  extract_lets +onlyGivenNames st s1 s2 d
  have h1 : s1.Scheduled s₀ := .ite h (h.abortTask hc htc)
  have h2 : s2.Scheduled s₀ := h1.modTask
  exact .ite h (.ite ((h2.makeReadyAt htc).trace htc) ((h2.setTcState htc).modTask.trace htc))

theorem State.Scheduled.resume {p tc : Nat} {evts : List Nat} (h : s.Scheduled s₀) (htc : tc < 192) :
    (State.resume p evts s tc).Scheduled s₀ := .ite ((h.makeReadyAt htc).traceAt htc) h

/-! ### The choice of a task -/

theorem State.headTask_lt {e tc : Nat} (he : e < 12) (h : s.headTask e = some tc) : tc < 192 := by
  have hmem : tc ∈ s.readyTasks e := by
    have hfold : ∀ (l : List Nat) (b : Option Nat), l.foldl (fun h tc => match h with
        | none => some tc
        | some k => if s.before tc k then some tc else some k) b = some tc → tc ∈ l ∨ b = some tc := by
      intro l
      induction l with
      | nil => exact fun b hb => .inr hb
      | cons x l ih =>
        intro b hb
        rcases ih _ hb with hl | hl
        · exact .inl (List.mem_cons_of_mem x hl)
        · cases b with
          | none => exact .inl (List.mem_cons.mpr (.inl (Option.some.inj hl).symm))
          | some k =>
            dsimp only at hl
            split at hl
            · exact .inl (List.mem_cons.mpr (.inl (Option.some.inj hl).symm))
            · exact .inr hl
    exact (hfold _ _ h).resolve_right nofun
  obtain ⟨i, hi, rfl⟩ := List.mem_map.mp (List.mem_filter.mp hmem).1
  have := List.mem_range.mp hi
  omega

theorem State.Scheduled.slotPlan {p e : Nat} (h : s.Scheduled s₀) : (s.slotPlan p e).Scheduled s₀ :=
  .ite h (.ite h.modEng (.ite h h.modEng))

theorem State.Scheduled.choose {p e : Nat} (h : s.Scheduled s₀) (he : e < 12) : (State.choose p s e).Scheduled s₀ := by
  unfold State.choose
  split
  · exact h.slotPlan
  · rename_i tc htc
    exact .ite (((h.modEng.setEngState he).setF (schedReg_eng he).2.1).setTcState (State.headTask_lt he htc)) h.slotPlan

theorem lt_of_mem_allTasks {tc : Nat} (h : tc ∈ allTasks) : tc < 192 := List.mem_range.mp h

theorem lt_of_mem_allEngines {e : Nat} (h : e ∈ allEngines) : e < 12 := List.mem_range.mp h

theorem State.Scheduled.decided (h : s.Scheduled s₀) : s.decided.Scheduled s₀ := by
  have hnone : { s with sched := { s.sched with planAt := none } }.Scheduled s₀ := h.withSched rfl
  unfold State.decided
  split
  · exact h
  · exact (hnone.forEach fun tc htc _ ht => ht.resume (lt_of_mem_allTasks htc)).forEach
      fun e he _ ht => ht.choose (lt_of_mem_allEngines he)

theorem State.Scheduled.catchUp (h : s.Scheduled s₀) : s.catchUp.Scheduled s₀ := .ite h.decided h

/-! ### Events and ticks -/

theorem State.Scheduled.schedEvent_idle {evt : Nat} (h : s.Scheduled s₀) (hr : (s.catchUp.noteEvent evt).releases = false) :
    (s.schedEvent evt).Scheduled s₀ := by
  unfold State.schedEvent
  simp only [hr, Bool.false_eq_true, if_false]
  exact h.catchUp.noteEvent.plans

theorem State.Scheduled.schedEvent {evt : Nat} (h : s.Scheduled s₀) (hc : s₀.Uncritical) : (s.schedEvent evt).Scheduled s₀ :=
  .plans (.ite (h.catchUp.noteEvent.forEach fun _ htc _ ht => ht.trigger hc (lt_of_mem_allTasks (List.mem_filter.mp htc).1))
    h.catchUp.noteEvent)

theorem State.Scheduled.expire (h : s.Scheduled s₀) : s.expire.Scheduled s₀ :=
  h.forEach fun _ htc _ ht => (ht.makeReadyAt (lt_of_mem_allTasks (List.mem_filter.mp htc).1)).trace
    (lt_of_mem_allTasks (List.mem_filter.mp htc).1)

theorem State.Scheduled.storeStats (h : s.Scheduled s₀) : s.storeStats.Scheduled s₀ := by
  refine h.forEach fun e he t ht => ?_
  obtain ⟨-, -, -, hload, hdepth⟩ := schedReg_eng (lt_of_mem_allEngines he)
  exact .ite ((((ht.modEng.setF hload).putWorst hload).setF hdepth).putWorst hdepth) ht.modEng

theorem State.Scheduled.schedPeriod (h : s.Scheduled s₀) (hc : s₀.Uncritical) : s.schedPeriod.Scheduled s₀ := by
  unfold State.schedPeriod
  extract_lets +onlyGivenNames s1 s2 _ s3 s4
  have h2 : s2.Scheduled s₀ := .ite h.catchUp (h.catchUp.setF schedReg_global.1)
  have h3 : s3.Scheduled s₀ := h2.withSched rfl
  have h4 : s4.Scheduled s₀ := (h3.setF schedReg_global.1).storeStats.noteEvent
  exact .plans (.ite (h4.expire.forEach fun _ htc _ ht => ht.trigger hc (lt_of_mem_allTasks (List.mem_filter.mp htc).1)) h4)

theorem State.Scheduled.dropAll (h : s.Scheduled s₀) : s.dropAll.Scheduled s₀ :=
  (h.catchUp.forEach fun _ htc _ ht => ht.dropInstance (lt_of_mem_allTasks htc)).forEach
    fun _ he _ ht => ht.freeEngine (lt_of_mem_allEngines he)

theorem State.Scheduled.enginesTo {v : Nat} (h : s.Scheduled s₀) : (s.enginesTo v).Scheduled s₀ :=
  h.forEach fun _ he _ ht => ht.freeEngine (lt_of_mem_allEngines he)

end

end Sys2Proof.Machine
end

section
/-! SUPPORT. What the work of a mode's entry leaves alone: the mode, the pending request, the first registers of GLB (the log among them),
what waits to be applied, the boot and the data memories; events are added to those that wait. -/

namespace Sys2Proof.Machine

/-- The end of the registers of GLB that the work of the blocks does not write: the mode's, the log's, the boot's, and the image's. -/
def lowRegs : Nat := 48

theorem high {b k : Nat} (h : lowRegs ≤ b) : lowRegs ≤ b + k := Nat.le_add_right_of_le h

/-- No captured input waits for a mirror point. -/
def State.NoneWaits (s : State) : Prop := s.pair.deferred = [] ∧ s.pair.capLast = [] ∧ s.pair.capNow = []

/-- `s` has come from `s₀` by work that is no change of mode. -/
structure State.Stays (s s₀ : State) : Prop where
  mode : s.mode = s₀.mode
  cyc : s.cyc = s₀.cyc
  request : s.ctl.request = s₀.ctl.request
  blocked : s.ctl.blockedAt = s₀.ctl.blockedAt
  limit : s.sched.limitHit = s₀.sched.limitHit
  mbox : s.hif.mboxGo = s₀.hif.mboxGo
  waits : s₀.NoneWaits → s.NoneWaits
  idle : s₀.seq.running = false → s.seq.running = false
  boot : s.boot = s₀.boot
  dm : s.dm = s₀.dm
  events : s₀.events <+: s.events
  low : ∀ off < lowRegs, s.rd off = s₀.rd off

section
variable {s t s₀ : State}

theorem State.Stays.refl (s : State) : s.Stays s :=
  ⟨rfl, rfl, rfl, rfl, rfl, rfl, id, id, rfl, rfl, List.prefix_rfl, fun _ _ => rfl⟩

theorem State.Stays.trans (h : t.Stays s) (h' : s.Stays s₀) : t.Stays s₀ :=
  ⟨h.mode.trans h'.mode, h.cyc.trans h'.cyc, h.request.trans h'.request, h.blocked.trans h'.blocked, h.limit.trans h'.limit,
    h.mbox.trans h'.mbox, h.waits ∘ h'.waits, h.idle ∘ h'.idle, h.boot.trans h'.boot, h.dm.trans h'.dm, h'.events.trans h.events,
    fun off ho => (h.low off ho).trans (h'.low off ho)⟩

theorem State.Stays.ite {c : Prop} [Decidable c] (hs : s.Stays s₀) (ht : t.Stays s₀) : (if c then s else t).Stays s₀ := by
  split
  exacts [hs, ht]

theorem State.Stays.foldl {ι : Type} {is : List ι} {g : State → ι → State} (h : s.Stays s₀)
    (hg : ∀ {t i}, t.Stays s₀ → (g t i).Stays s₀) : (is.foldl g s).Stays s₀ :=
  List.foldlRecOn is g (motive := fun t => t.Stays s₀) h fun _ ht _ _ => hg ht

theorem State.Stays.forEach {is : List Nat} {g : State → Nat → State} (h : s.Stays s₀)
    (hg : ∀ {t i}, t.Stays s₀ → (g t i).Stays s₀) : (s.forEach is g).Stays s₀ := h.foldl hg

/-- An update of fields that the relation does not speak of. -/
theorem State.Stays.same {now just justAt origin pwr snaps rdata poisoned evSeq grn grnBad eccWb portB dmExt engReads eccCorrAt scrubWord
    scrubCyc hostMem lanes cells arms units plan pwm pwmIo engines pm tasks adc fr saf tim can undo freeCtr} (h : s.Stays s₀) :
    ({ s with now, just, justAt, origin, pwr, snaps, rdata, poisoned, evSeq, grn, grnBad, eccWb, portB, dmExt, engReads, eccCorrAt,
              scrubWord, scrubCyc, hostMem, lanes, cells, arms, units, plan, pwm, pwmIo, engines, pm, tasks, adc, fr, saf, tim, can,
              undo, freeCtr } : State).Stays s₀ :=
  ⟨h.mode, h.cyc, h.request, h.blocked, h.limit, h.mbox, h.waits, h.idle, h.boot, h.dm, h.events, h.low⟩

theorem State.Stays.withCtl {c : ModeCtl} (h : s.Stays s₀) (hr : c.request = s.ctl.request) (hb : c.blockedAt = s.ctl.blockedAt) :
    { s with ctl := c }.Stays s₀ :=
  ⟨h.mode, h.cyc, hr.trans h.request, hb.trans h.blocked, h.limit, h.mbox, h.waits, h.idle, h.boot, h.dm, h.events, h.low⟩

theorem State.Stays.withSeq {x : Seq} (h : s.Stays s₀) (hx : s.seq.running = false → x.running = false) : { s with seq := x }.Stays s₀ :=
  ⟨h.mode, h.cyc, h.request, h.blocked, h.limit, h.mbox, h.waits, fun h₀ => hx (h.idle h₀), h.boot, h.dm, h.events, h.low⟩

theorem State.Stays.withPair {p : Pair} (h : s.Stays s₀) (hp : s.NoneWaits → p.deferred = [] ∧ p.capLast = [] ∧ p.capNow = []) :
    { s with pair := p }.Stays s₀ :=
  ⟨h.mode, h.cyc, h.request, h.blocked, h.limit, h.mbox, fun h₀ => hp (h.waits h₀), h.idle, h.boot, h.dm, h.events, h.low⟩

theorem State.Stays.modPair {g : Pair → Pair} (h : s.Stays s₀)
    (hg : s.NoneWaits → (g s.pair).deferred = [] ∧ (g s.pair).capLast = [] ∧ (g s.pair).capNow = []) : (s.modPair g).Stays s₀ :=
  h.withPair hg

theorem State.Stays.of_scheduled (h : s.Scheduled s₀) : s.Stays s₀ := by
  obtain ⟨hframe, hevents, hlimit, hregs⟩ := h
  have hlow : ∀ off < lowRegs, s.rd off = s₀.rd off := fun off ho => hregs off fun hs => by
    obtain ⟨hs, -⟩ := hs
    unfold lowRegs at ho
    omega
  have hsame : s.mode = s₀.mode ∧ s.cyc = s₀.cyc ∧ s.ctl = s₀.ctl ∧ s.hif = s₀.hif ∧ s.pair = s₀.pair ∧ s.seq = s₀.seq
      ∧ s.boot = s₀.boot ∧ s.dm = s₀.dm := by
    rw [hframe]
    exact ⟨rfl, rfl, rfl, rfl, rfl, rfl, rfl, rfl⟩
  obtain ⟨hmode, hcyc, hctl, hhif, hpair, hseq, hboot, hdm⟩ := hsame
  exact ⟨hmode, hcyc, by rw [hctl], by rw [hctl], hlimit, by rw [hhif], by unfold State.NoneWaits; rw [hpair]; exact id,
    by rw [hseq]; exact id, hboot, hdm, hevents, hlow⟩

theorem State.Scheduled.stays (h : t.Scheduled s) (h' : s.Stays s₀) : t.Stays s₀ := (State.Stays.of_scheduled h).trans h'

/-! ### Registers, tables and events -/

theorem State.Stays.wr {off v : Nat} (h : s.Stays s₀) (ho : lowRegs ≤ off := by exact high (by decide)) : (s.wr off v).Stays s₀ :=
  ⟨h.mode, h.cyc, h.request, h.blocked, h.limit, h.mbox, h.waits, h.idle, h.boot, h.dm, h.events,
    fun o hlow => (s.rd_wr_ne v (Nat.ne_of_lt (Nat.lt_of_lt_of_le hlow ho))).trans (h.low o hlow)⟩

theorem State.Stays.setF {x : Fld} {v : Nat} (h : s.Stays s₀) (hx : lowRegs ≤ x.off := by exact high (by decide)) :
    (s.setF x v).Stays s₀ := h.wr hx

theorem State.Stays.note {off m : Nat} (h : s.Stays s₀) : (s.note off m).Stays s₀ := h.same

theorem State.Stays.mark {x : Fld} (h : s.Stays s₀) (hx : lowRegs ≤ x.off := by exact high (by decide)) : (s.mark x).Stays s₀ :=
  (h.setF hx).note

theorem State.Stays.bumpF {x : Fld} {k : Nat} (h : s.Stays s₀) (hx : lowRegs ≤ x.off := by exact high (by decide)) :
    (s.bumpF x k).Stays s₀ := (h.setF hx).note

theorem State.Stays.raiseP {c : EvCode} {src : Nat} {p : List Byte} (h : s.Stays s₀) : (s.raiseP c src p).Stays s₀ :=
  ⟨h.mode, h.cyc, h.request, h.blocked, h.limit, h.mbox, h.waits, h.idle, h.boot, h.dm, h.events.trans (List.prefix_append _ _), h.low⟩

theorem State.Stays.raise {c : EvCode} {u a v : Nat} (h : s.Stays s₀) : (s.raise c u a v).Stays s₀ := h.raiseP

theorem State.Stays.raiseClamp {origin off lo req applied : Nat} (h : s.Stays s₀) : (s.raiseClamp origin off lo req applied).Stays s₀ :=
  h.raiseP

theorem State.Stays.modLane {l : Nat} {g : Lane → Lane} (h : s.Stays s₀) : (s.modLane l g).Stays s₀ := h.same

theorem State.Stays.modPwm {c : Nat} {g : Pwm → Pwm} (h : s.Stays s₀) : (s.modPwm c g).Stays s₀ := h.same

theorem State.Stays.modCan {k : Nat} {g : Can → Can} (h : s.Stays s₀) : (s.modCan k g).Stays s₀ := h.same

theorem State.Stays.modSlice {k : Nat} {g : AdcSlice → AdcSlice} (h : s.Stays s₀) : (s.modSlice k g).Stays s₀ := h.same

/-! ### Lanes and the mirror link -/

theorem State.Stays.setLaneState {l v : Nat} (h : s.Stays s₀) : (s.setLaneState l v).Stays s₀ := h.setF

theorem State.Stays.openJoin (h : s.Stays s₀) : s.openJoin.Stays s₀ := (h.setF (by decide)).withPair id

theorem State.Stays.bondLost (h : s.Stays s₀) : s.bondLost.Stays s₀ := by
  have h1 : { s with pair := { s.pair with bondAt := some s.cyc } }.Stays s₀ := h.withPair id
  exact .ite h1.openJoin h1

theorem State.Stays.dropDiscovery (h : s.Stays s₀) : s.dropDiscovery.Stays s₀ := h.forEach fun ht => ht.modLane

theorem State.Stays.diagNormal {l : Nat} (h : s.Stays s₀) : (s.diagNormal l).Stays s₀ := .ite h.setF.setLaneState h.setF

theorem State.Stays.diagRestore (h : s.Stays s₀) : s.diagRestore.Stays s₀ := h.forEach fun ht => .ite ht ht.diagNormal

theorem State.Stays.lanesToBeacon (h : s.Stays s₀) : s.lanesToBeacon.Stays s₀ := by
  unfold State.lanesToBeacon
  extract_lets +onlyGivenNames _ s1
  have h1 : s1.Stays s₀ := h.forEach fun ht => ht.setLaneState.modLane
  exact .ite (h1.setF (by decide)).bondLost h1

/-! ### The interlock and the pins -/

theorem State.Stays.updateDrive (h : s.Stays s₀) : s.updateDrive.Stays s₀ :=
  .ite (h.forEach fun ht => .ite ht.modPwm ht) (h.forEach fun ht => ht.modPwm)

theorem State.Stays.setDrive {v : Nat} (h : s.Stays s₀) : (s.setDrive v).Stays s₀ := (h.setF (by decide)).updateDrive

theorem State.Stays.releaseOnEntry (h : s.Stays s₀) : s.releaseOnEntry.Stays s₀ := by
  unfold State.releaseOnEntry
  split
  · exact .ite h.setDrive h
  · exact .ite h.setDrive h
  · exact .ite h.setDrive h
  · exact .ite h.setDrive h
  · exact h

/-! ### The front end -/

theorem State.Stays.calBegin {u : Option Nat} (h : s.Stays s₀) : (s.calBegin u).Stays s₀ := h.same

theorem State.Stays.transfer {k : Nat} (h : s.Stays s₀) : (s.transfer k).Stays s₀ := by
  have h1 : { s with adc := { s.adc with calPend := none } }.Stays s₀ := h.same
  exact .ite (h1.calBegin.setF (by decide)) (.ite (h.setF (by decide)) h)

theorem State.Stays.startConv {k t ch : Nat} {u : Option Nat} (h : s.Stays s₀) : (s.startConv k t ch u).Stays s₀ := by
  unfold State.startConv
  exact h.modSlice

theorem State.Stays.startSeq {k t : Nat} (h : s.Stays s₀) : (s.startSeq k t).Stays s₀ := by
  unfold State.startSeq
  split
  · exact .ite h.startConv.modSlice h
  · refine .ite h.modSlice ?_
    extract_lets +onlyGivenNames s1
    have h1 : s1.Stays s₀ := .ite h h.transfer
    split
    · exact h1
    · exact .ite h1.startConv.modSlice h1.modSlice

theorem State.Stays.startNext {k t : Nat} (h : s.Stays s₀) : (s.startNext k t).Stays s₀ := by
  unfold State.startNext
  split
  · exact h
  · split
    · exact h.modSlice.startConv
    · exact .ite h.startSeq h

theorem State.Stays.adcResume (h : s.Stays s₀) : s.adcResume.Stays s₀ := h.forEach fun ht => ht.startNext

theorem State.Stays.adcInitialCal (h : s.Stays s₀) : s.adcInitialCal.Stays s₀ := .same (h.setF (by decide))

theorem State.Stays.adcOff (h : s.Stays s₀) : s.adcOff.Stays s₀ := by
  have h1 : { s.setF F.ADC_STAT_stand_in 7 with adc := Adc.reset }.Stays s₀ := .same (h.setF (by decide))
  exact (h1.forEach fun ht => ht.wr.wr).forEach fun ht => ht.wr.wr

/-! ### Leaving a mode -/

theorem State.Stays.assignUnits {report : State → Nat → Nat → Nat → State} (h : s.Stays s₀)
    (hreport : ∀ {t a b c}, t.Stays s₀ → (report t a b c).Stays s₀) : (s.assignUnits report).Stays s₀ := by
  unfold State.assignUnits
  extract_lets +onlyGivenNames _ _ _ s1 _
  have h1 : s1.Stays s₀ := h.forEach fun ht => ht.setF
  refine List.foldlRecOn _ _ (motive := fun p : State × List Nat => p.1.Stays s₀) h1 fun p hp a _ => ?_
  dsimp only
  split
  · exact hreport hp.setF
  · exact hp

theorem State.Stays.leaveConfigure (h : s.Stays s₀) : s.leaveConfigure.Stays s₀ := (h.assignUnits fun ht => ht.raiseClamp).wr (by decide)

theorem State.Stays.canLeaveDiag (h : s.Stays s₀) : s.canLeaveDiag.Stays s₀ := h.forEach fun ht => .ite (.ite ht.setF.modCan ht.setF) ht

theorem State.Stays.leaveDiagnostic (h : s.Stays s₀) : s.leaveDiagnostic.Stays s₀ := h.diagRestore.canLeaveDiag.setF (by decide)

theorem State.Stays.stopSequencer (h : s.Stays s₀) : s.stopSequencer.Stays s₀ := by
  unfold State.stopSequencer
  extract_lets +onlyGivenNames s1
  have h1 : s1.Stays s₀ := h.forEach fun ht => ht.modLane
  have h2 : { s1 with ctl := { s1.ctl with chargeRun := 0 } }.Stays s₀ := h1.withCtl rfl rfl
  have h3 : { s1 with ctl := { s1.ctl with chargeRun := 0 }, seq := State.reset.seq }.Stays s₀ := h2.withSeq fun _ => rfl
  exact State.Stays.adcResume h3.same

theorem State.Stays.stopWork (h : s.Stays s₀) : s.stopWork.Stays s₀ :=
  (State.Scheduled.refl _).dropAll.enginesTo.stays h.stopSequencer

/-- The sequencer is stopped with the work. -/
theorem State.stopWork_stopped (s : State) : s.stopWork.seq.running = false := by
  have h1 : s.stopSequencer.seq.running = false := by
    unfold State.stopSequencer
    exact (State.Stays.adcResume (.refl _)).idle rfl
  exact (State.Scheduled.refl _).dropAll.enginesTo.stays (.refl _) |>.idle h1

end

/-! ### A change of mode (R50) -/

/-- MUSTER, where it is left, leaves its sets and muster_done. -/
def State.leftMuster (s : State) (old : Mode) : State :=
  if old == .muster then { s.dropDiscovery with ctl := { s.ctl with musterDone := s.musterDone } } else s

/-- The log, the event and the pins of a change of mode; the scheduler event MODE follows. -/
def State.modeLogged (s : State) (old dest : Mode) (cause : Nat) : State :=
  let s := (s.wr R.GLB_MODE_LOG (setBits (s.rd R.GLB_MODE_LOG) 15 0 (modeCode old + modeCode dest * 16 + cause * 256))).leftMuster old
  { s with mode := dest, pwmIo := { s.pwmIo with safeHiZ := s.pwmIo.safeHiZ && dest == Mode.safeBlock } }.raise
    .modeChange (modeCode dest) cause (modeCode old)

theorem State.setModeFrom_eq (s : State) (old dest : Mode) (cause : Nat) :
    s.setModeFrom old dest cause = (s.modeLogged old dest cause).updateDrive.schedEvent 0x08 := rfl

/-- `t` has come from `s` by a change to a mode, and nothing that the change is no part of is lost. -/
structure State.Enters (s t : State) (old dest : Mode) (cause : Nat) : Prop where
  mode : t.mode = dest
  log : t.rd R.GLB_MODE_LOG = setBits (s.rd R.GLB_MODE_LOG) 15 0 (modeCode old + modeCode dest * 16 + cause * 256)
  change : .modeChange ∈ s.raised t
  events : s.events <+: t.events
  cyc : t.cyc = s.cyc
  request : t.ctl.request = s.ctl.request
  limit : t.sched.limitHit = s.sched.limitHit
  mbox : t.hif.mboxGo = s.hif.mboxGo
  waits : s.NoneWaits → t.NoneWaits
  idle : s.seq.running = false → t.seq.running = false
  dm : t.dm = s.dm
  boot : dest ≠ .boot → t.boot = s.boot
  low : dest ≠ .boot → ∀ off < lowRegs, off ≠ R.GLB_MODE_LOG → t.rd off = s.rd off

end Sys2Proof.Machine
end

section
/-! SUPPORT. Every change of mode but the entry of MUSTER, and what follows a command where nothing waits. -/

namespace Sys2Proof.Machine

section
variable {s t u s₀ : State} {old dest : Mode} {cause : Nat}

theorem State.Enters.stays (h : s.Enters t old dest cause) (ht : u.Stays t) : s.Enters u old dest cause where
  mode := ht.mode.trans h.mode
  log := (ht.low _ (by decide)).trans h.log
  change := State.mem_raised_of_grown ht.events h.change
  events := h.events.trans ht.events
  cyc := ht.cyc.trans h.cyc
  request := ht.request.trans h.request
  limit := ht.limit.trans h.limit
  mbox := ht.mbox.trans h.mbox
  waits := ht.waits ∘ h.waits
  idle := ht.idle ∘ h.idle
  dm := ht.dm.trans h.dm
  boot hd := ht.boot.trans (h.boot hd)
  low hd off ho hne := (ht.low off ho).trans (h.low hd off ho hne)

theorem State.Stays.enters (hs : s.Stays s₀) (h : s.Enters t old dest cause) : s₀.Enters t old dest cause where
  mode := h.mode
  log := by rw [h.log, hs.low _ (by decide)]
  change := State.mem_raised_of_later hs.events h.change
  events := hs.events.trans h.events
  cyc := h.cyc.trans hs.cyc
  request := h.request.trans hs.request
  limit := h.limit.trans hs.limit
  mbox := h.mbox.trans hs.mbox
  waits := h.waits ∘ hs.waits
  idle := h.idle ∘ hs.idle
  dm := h.dm.trans hs.dm
  boot hd := (h.boot hd).trans hs.boot
  low hd off ho hne := (h.low hd off ho hne).trans (hs.low off ho)

/-! ### The log, the event and the scheduler event MODE -/

theorem State.leftMuster_stays (s : State) (old : Mode) : (s.leftMuster old).Stays s :=
  have h := (State.Stays.refl s).dropDiscovery
  .ite (h.withCtl h.request.symm h.blocked.symm) (.refl s)

theorem State.leftMuster_regs (s : State) (old : Mode) : (s.leftMuster old).regs = s.regs := by
  have h : s.dropDiscovery.regs = s.regs := List.foldlRecOn (motive := fun t : State => t.regs = s.regs) _ _ rfl fun t ht _ _ => ht
  unfold State.leftMuster
  split
  exacts [h, rfl]

/-- The mode and the safety path's hold on the pins change, and the change is reported. -/
theorem State.Stays.changed {r : State} {b : Bool} (h : t.Stays r) (hr : s.events = r.events) :
    let u := { t with mode := dest, pwmIo := { t.pwmIo with safeHiZ := b } }.raise .modeChange (modeCode dest) cause (modeCode old)
    u.mode = dest ∧ u.cyc = r.cyc ∧ u.ctl.request = r.ctl.request ∧ u.sched.limitHit = r.sched.limitHit ∧ u.hif.mboxGo = r.hif.mboxGo
      ∧ (r.NoneWaits → u.NoneWaits) ∧ (r.seq.running = false → u.seq.running = false) ∧ u.dm = r.dm ∧ u.boot = r.boot
      ∧ s.events <+: u.events ∧ .modeChange ∈ s.raised u ∧ ∀ off < lowRegs, u.rd off = r.rd off := by
  have hgrown : s.events <+: t.events := hr ▸ h.events
  have hone := State.raised_raise (s := t) (t := { t with mode := dest, pwmIo := { t.pwmIo with safeHiZ := b } }) rfl .modeChange
    (modeCode dest) cause (modeCode old)
  exact ⟨rfl, h.cyc, h.request, h.limit, h.mbox, h.waits, h.idle, h.dm, h.boot, hgrown.trans (List.prefix_append _ _),
    State.mem_raised_of_later hgrown (hone ▸ List.mem_singleton_self _), h.low⟩

theorem State.modeLogged_enters (s : State) (old dest : Mode) (cause : Nat) : s.Enters (s.modeLogged old dest cause) old dest cause := by
  unfold State.modeLogged
  set v := setBits (s.rd R.GLB_MODE_LOG) 15 0 (modeCode old + modeCode dest * 16 + cause * 256) with hv
  have hlog : (s.wr R.GLB_MODE_LOG v).rd R.GLB_MODE_LOG = v := by
    rw [State.rd_wr_same, hv, Nat.mod_eq_of_lt (setBits_lt (by decide) (by decide) (s.rd_lt _))]
  obtain ⟨hmode, hcyc, hrequest, hlimit, hmbox, hwaits, hidle, hdm, hboot, hevents, hchange, hlow⟩ :=
    ((s.wr R.GLB_MODE_LOG v).leftMuster_stays old).changed (s := s) (old := old) (dest := dest) (cause := cause)
      (b := ((s.wr R.GLB_MODE_LOG v).leftMuster old).pwmIo.safeHiZ && dest == Mode.safeBlock) rfl
  exact ⟨hmode, (hlow _ (by decide)).trans hlog, hchange, hevents, hcyc, hrequest, hlimit, hmbox, hwaits, hidle, hdm, fun _ => hboot,
    fun _ off ho hne => (hlow off ho).trans (s.rd_wr_ne v hne)⟩

theorem State.updateDrive_regs (s : State) : s.updateDrive.regs = s.regs := by
  unfold State.updateDrive
  split
  · exact List.foldlRecOn (motive := fun t : State => t.regs = s.regs) _ _ rfl fun t ht c _ => by
      split
      exacts [ht, ht]
  · exact List.foldlRecOn (motive := fun t : State => t.regs = s.regs) _ _ rfl fun t ht _ _ => ht

theorem State.modeLogged_rd (s : State) (old dest : Mode) (cause : Nat) {off : Nat} (h : off ≠ R.GLB_MODE_LOG) :
    (s.modeLogged old dest cause).rd off = s.rd off := by
  unfold State.modeLogged
  set v := setBits (s.rd R.GLB_MODE_LOG) 15 0 (modeCode old + modeCode dest * 16 + cause * 256)
  exact (State.rd_of_regs ((s.wr R.GLB_MODE_LOG v).leftMuster_regs old) off).trans (s.rd_wr_ne v h)

/-- The scheduler event MODE releases nothing, or no task that it releases is critical. -/
def State.QuietChange (s : State) (dest : Mode) : Prop := dest.fromMuster = false ∨ s.seq.running = false ∨ s.Uncritical

/-- A scheduler event that finds nothing to release, or no critical task, is work of the scheduler. -/
theorem State.schedEvent_stays {evt : Nat} (h : s.mode.fromMuster = false ∨ s.seq.running = false ∨ s.Uncritical) :
    (s.schedEvent evt).Stays s := by
  refine State.Stays.of_scheduled ?_
  have hc : (s.catchUp.noteEvent evt).Scheduled s := (State.Scheduled.refl s).catchUp.noteEvent
  have hsame : (s.catchUp.noteEvent evt).mode = s.mode ∧ (s.catchUp.noteEvent evt).seq = s.seq := by
    rw [hc.frame]
    exact ⟨rfl, rfl⟩
  rcases h with h | h | h
  · exact (State.Scheduled.refl s).schedEvent_idle (by simp [State.releases, hsame.1, h])
  · exact (State.Scheduled.refl s).schedEvent_idle (by simp [State.releases, hsame.2, h])
  · exact (State.Scheduled.refl s).schedEvent h

theorem State.setModeFrom_enters (old : Mode) (h : s.QuietChange dest) : s.Enters (s.setModeFrom old dest cause) old dest cause := by
  have hl := s.modeLogged_enters old dest cause
  have hrd {off : Nat} (ho : off ≠ R.GLB_MODE_LOG) : (s.modeLogged old dest cause).rd off = s.rd off := s.modeLogged_rd old dest cause ho
  rw [State.setModeFrom_eq]
  generalize s.modeLogged old dest cause = v at *
  have hu : v.updateDrive.Stays v := (State.Stays.refl v).updateDrive
  refine (hl.stays hu).stays (State.schedEvent_stays ?_)
  rcases h with h | h | h
  · exact .inl (by rw [hu.mode, hl.mode, h])
  · exact .inr (.inl (hu.idle (hl.idle h)))
  · refine .inr (.inr fun tc htc => (State.fb_of_regs v.updateDrive_regs _).trans ((State.fb_of_rd (hrd ?_)).trans (h tc htc)))
    simp only [F.SCH_TC_CFG_crit, R.SCH_TC_CFG, R.GLB_MODE_LOG]
    omega

theorem State.setMode_enters (h : s.QuietChange dest) : s.Enters (s.setMode dest cause) s.mode dest cause := State.setModeFrom_enters s.mode h

/-! ### What a mode begins with -/

theorem State.modeBegin_stays (h : s.mode ≠ .muster) : s.modeBegin.Stays s := by
  unfold State.modeBegin
  split
  · have h1 : { s with ctl := { s.ctl with fatal := false, musterDone := false, checkBusy := false, pendMatch := none } }.Stays s :=
      (State.Stays.refl s).withCtl rfl rfl
    exact h1.adcInitialCal.releaseOnEntry
  · have h1 : { s with ctl := { s.ctl with checkBusy := true, pendMatch := none } }.Stays s := (State.Stays.refl s).withCtl rfl rfl
    exact h1.releaseOnEntry
  · next hm => exact absurd hm h
  · exact (State.Stays.refl s).openJoin
  · exact ((State.Stays.refl s).setF (by decide)).releaseOnEntry
  · exact .refl s

/-! ### Entry to BOOT -/

theorem State.Stays.canBoot (h : s.Stays s₀) : s.canBoot.Stays s₀ := h.forEach fun ht => ht.setF.modCan.setF.setF.setF.setF.modCan

theorem State.Stays.silosIdle (h : s.Stays s₀) : s.silosIdle.Stays s₀ := h.forEach fun ht => ht.setF

theorem State.Stays.retentionCheck (h : s.Stays s₀) : s.retentionCheck.Stays s₀ := by
  unfold State.retentionCheck
  extract_lets +onlyGivenNames s1 bs s2
  have h1 : s1.Stays s₀ := .ite h.same h
  have h2 : s2.Stays s₀ := h1.setF (by decide)
  split
  · have h3 : { s2 with ctl := { s2.ctl with retValid := true } }.Stays s₀ := h2.withCtl rfl rfl
    exact State.Stays.wr (.same h3) (by decide)
  · have h3 : { s2 with ctl := { s2.ctl with retValid := false } }.Stays s₀ := h2.withCtl rfl rfl
    exact State.Stays.wr (.same h3) (by decide)

/-- The boot and its status change alone. -/
structure State.BootOnly (s t : State) : Prop where
  frame : t = { s with regs := t.regs, boot := t.boot }
  rd : ∀ off, off ≠ R.GLB_BOOT_STAT → t.rd off = s.rd off

theorem State.BootOnly.trans (h : s.BootOnly t) (h' : t.BootOnly u) : s.BootOnly u := by
  refine ⟨?_, fun off ho => (h'.rd off ho).trans (h.rd off ho)⟩
  have hf := h'.frame
  rw [h.frame] at hf
  exact hf

theorem State.BootOnly.setF {x : Fld} (v : Nat) (hx : x.off = R.GLB_BOOT_STAT) : s.BootOnly (s.setF x v) :=
  ⟨rfl, fun _ ho => s.rd_setF_ne _ _ (hx ▸ ho)⟩

theorem State.BootOnly.withBoot (b : Boot) : s.BootOnly { s with boot := b } := ⟨rfl, fun _ _ => rfl⟩

theorem State.BootOnly.ite {c : Prop} [Decidable c] (ht : s.BootOnly t) (hu : s.BootOnly u) : s.BootOnly (if c then t else u) := by
  split
  exacts [ht, hu]

theorem State.bootBegin_bootOnly (s : State) (source : Nat) (p : BootPhase) : s.BootOnly (s.bootBegin source p) :=
  ((State.BootOnly.setF _ rfl).trans (.setF _ rfl)).trans (.withBoot _)

theorem State.bootNext_bootOnly (s : State) : s.BootOnly s.bootNext := by
  unfold State.bootNext
  split
  · exact (State.BootOnly.withBoot _).trans (State.bootBegin_bootOnly ..)
  · have h : s.BootOnly { s.setF F.GLB_BOOT_STAT_busy 0 with boot := { s.boot with phase := .idle, image := [] } } :=
      (State.BootOnly.setF _ rfl).trans (.withBoot _)
    exact .ite (h.trans (State.bootBegin_bootOnly ..)) h

theorem State.bootStart_bootOnly (s : State) : s.BootOnly s.bootStart := (State.BootOnly.withBoot _).trans (State.bootNext_bootOnly _)

theorem State.Enters.bootOnly (h : s.Enters t old .boot cause) (ht : t.BootOnly u) : s.Enters u old .boot cause := by
  obtain ⟨hframe, hrd⟩ := ht
  have hlog := (hrd _ (by decide)).trans h.log
  generalize u.regs = rs at hframe
  generalize u.boot = b at hframe
  subst hframe
  exact
    { mode := h.mode, log := hlog, change := h.change, events := h.events, cyc := h.cyc, request := h.request, limit := h.limit
      mbox := h.mbox, waits := h.waits, idle := h.idle, dm := h.dm, boot := fun hd => absurd rfl hd, low := fun hd => absurd rfl hd }

theorem State.enterBoot_enters (s : State) (old : Mode) (cause : Nat) : s.Enters (s.enterBoot old cause) old .boot cause := by
  unfold State.enterBoot
  extract_lets +onlyGivenNames s1 s2 _ s3
  have h1 : s1.Stays s := (State.Stays.refl s).stopWork.lanesToBeacon
  have h2 : s.Enters s2 old .boot cause := h1.enters (State.setModeFrom_enters old (.inl rfl))
  have h3 : s3.Stays s2 := (State.Stays.refl s2).withCtl rfl rfl
  exact (h2.stays h3.retentionCheck.canBoot.adcOff.silosIdle.releaseOnEntry).bootOnly (State.bootStart_bootOnly _)

/-! ### Every entry but MUSTER's -/

/-- No critical task is released at the change: the change stops the sequencer or the modes that release, or finds it stopped; and what
leaves CONFIGURE or DIAGNOSTIC does the first or the second. -/
def State.QuietEntry (s : State) (dest : Mode) : Prop :=
  dest.fromMuster = false ∨ dest = .diagnostic ∨ s.seq.running = false ∨ (s.Uncritical ∧ s.mode ≠ .configure ∧ s.mode ≠ .diagnostic)

theorem State.enterMode_enters (cause : Nat) (hm : dest ≠ .muster) (hq : s.QuietEntry dest) :
    s.Enters (s.enterMode dest cause) s.mode dest cause := by
  unfold State.enterMode
  extract_lets old s1 s2
  have h1 : s1.Stays s := .ite (State.Stays.refl s).leaveConfigure (.refl s)
  have h2 : s2.Stays s := .ite h1.leaveDiagnostic h1
  have hmode : s2.mode = s.mode := h2.mode
  have hother : s.mode ≠ .configure → s.mode ≠ .diagnostic → s2 = s := fun hc hd => by
    have hc' : (old == Mode.configure) = false := by simpa [old] using hc
    have hd' : (old == Mode.diagnostic) = false := by simpa [old] using hd
    simp [s2, s1, hc', hd']
  clear_value s2
  have hstopped : s2.stopWork.seq.running = false := s2.stopWork_stopped
  split
  · exact h2.enters (s2.enterBoot_enters old cause)
  · have hw : s2.stopWork.lanesToBeacon.Stays s := h2.stopWork.lanesToBeacon
    have he := State.setMode_enters (s := s2.stopWork.lanesToBeacon) (dest := .configure) (cause := cause) (.inl rfl)
    rw [hw.mode] at he
    exact (hw.enters he).stays (State.modeBegin_stays (by rw [he.mode]; decide))
  · have hw : s2.stopWork.Stays s := h2.stopWork
    have he := State.setMode_enters (s := s2.stopWork) (dest := .diagnostic) (cause := cause) (.inr (.inl hstopped))
    rw [hw.mode] at he
    exact (hw.enters he).stays (State.modeBegin_stays (by rw [he.mode]; decide))
  · next hb hc hd =>
    have hquiet : s2.QuietChange dest := by
      rcases hq with hq | hq | hq | ⟨hq, hnc, hnd⟩
      · exact .inl hq
      · exact absurd hq hd
      · exact .inr (.inl (h2.idle hq))
      · rw [hother hnc hnd]
        exact .inr (.inr hq)
    have he := State.setMode_enters (s := s2) (cause := cause) hquiet
    rw [hmode] at he
    exact (h2.enters he).stays (State.modeBegin_stays (by rw [he.mode]; exact hm))

/-! ### What follows a command -/

theorem State.overrunTrip_idle (h : s.sched.limitHit = false) : s.overrunTrip = s := by simp [State.overrunTrip, h]

theorem State.mboxRun_idle (h : s.hif.mboxGo = none) : s.mboxRun = s := by simp [State.mboxRun, h]

theorem State.flushCaptured_stays (h : s.NoneWaits) : s.flushCaptured.Stays s := by
  obtain ⟨hdeferred, hlast, hnow⟩ := h
  unfold State.flushCaptured
  split
  · exact .refl s
  · simp only [hdeferred, hlast, hnow, List.append_nil, List.filter_nil, List.foldl_nil]
    exact (State.Stays.refl s).modPair fun _ => ⟨rfl, rfl, rfl⟩

/-- Where no overrun trip is due and nothing waits, what follows a command changes no mode. -/
theorem State.settle_stays (hlimit : s.sched.limitHit = false) (hmbox : s.hif.mboxGo = none) (hwaits : s.NoneWaits) : s.settle.Stays s := by
  have h1 : s.catchUp.Stays s := State.Stays.of_scheduled (State.Scheduled.refl s).catchUp
  have h2 : s.catchUp.flushCaptured.Stays s := (State.flushCaptured_stays (h1.waits hwaits)).trans h1
  unfold State.settle
  rw [State.overrunTrip_idle (h1.limit.trans hlimit)]
  generalize s.catchUp.flushCaptured = t at h2
  rw [State.mboxRun_idle (h2.mbox.trans hmbox), State.overrunTrip_idle (h2.limit.trans hlimit)]
  exact .ite (h2.withCtl rfl rfl) h2

end

end Sys2Proof.Machine
end

section
/-! SUPPORT. The writes of GLB_DIAG_CTL and GLB_BOOT_CTL by the owner (R58, R64). -/

namespace Sys2Proof.Machine

/-! ### The write of a word -/

theorem State.ownerWrite_eq {s : State} {m : Master} {off v : Nat} (hlive : s.live = true) (howner : s.isOwner m = true) (hal : off % 4 = 0)
    (hv : v < 2 ^ 32) : s.ownerWrite m off v = s.writeReg (WSrc.ofMaster m) off v := by
  have hal' : (privBase + off) % 4 = 0 := by unfold privBase; omega
  have hmod : v % 4294967296 = v := Nat.mod_eq_of_lt hv
  simp [State.ownerWrite, State.masterWrite, hlive, hal', hmod, State.masterWrite32_owner howner]

/-- A field that holds any value is stored as it is written. -/
theorem State.writeField_plain (s : State) (w : WSrc) (reg : Reg) (i j off v hi lo : Nat) :
    State.writeField w reg i j off v s ⟨hi, lo, .rw, .none⟩ = s.setF ⟨off, hi, lo⟩ (bitsOf v hi lo) := by
  simp [State.writeField, State.clampField, State.setF]

theorem lookup_GLB_DIAG_CTL :
    lookup R.GLB_DIAG_CTL = some (⟨.GLB_DIAG_CTL, 0x30, 1, 0, 1, 0, false, 0, [⟨0, 0, .rw, .none⟩]⟩, 0, 0) := rfl

theorem lookup_GLB_BOOT_CTL :
    lookup R.GLB_BOOT_CTL = some (⟨.GLB_BOOT_CTL, 0x24, 1, 0, 1, 0, true, 0, [⟨0, 0, .w1s, .none⟩]⟩, 0, 0) := rfl

/-- What a register write may not find: a waiting input for a stopped sequencer, the mailbox, an overrun trip, a decision. -/
theorem State.Settled.of_eq {s t : State} (h : s.Settled) (hhif : t.hif = s.hif) (hsched : t.sched = s.sched)
    (hrun : t.seq.running = s.seq.running) (hpair : t.pair = s.pair) : t.Settled := by
  unfold State.Settled
  rwa [hhif, hsched, hrun, hpair]

theorem State.musterLapse_ctlOnly (s : State) : s.musterLapse = { s with ctl := s.musterLapse.ctl } := by
  unfold State.musterLapse
  split <;> rfl

/-- What follows a write in a settled state leaves all but muster_done. -/
theorem State.Settled.settle_rest {s : State} (h : s.Settled) :
    s.settle.regs = s.regs ∧ s.settle.events = s.events ∧ s.settle.seq = s.seq ∧ s.settle.boot = s.boot ∧ s.settle.mode = s.mode := by
  rw [h.settle, s.musterLapse_ctlOnly]
  exact ⟨rfl, rfl, rfl, rfl, rfl⟩

/-! ### The run bit of DIAGNOSTIC (R58) -/

theorem F_GLB_DIAG_CTL_seq_run_ok : F.GLB_DIAG_CTL_seq_run.ok := ⟨by decide, by decide⟩

theorem State.fb_eq_bitOf (s : State) (off b : Nat) : s.fb ⟨off, b, b⟩ = bitOf (s.rd off) b := by
  have h : bitsOf (s.rd off) b b = s.rd off / 2 ^ b % 2 := by rw [bitsOf, Nat.add_sub_cancel_left, pow_one]
  rw [State.fb, State.f, h, bitOf]
  rcases Nat.mod_two_eq_zero_or_one (s.rd off / 2 ^ b) with h | h <;> rw [h] <;> rfl

/-- In DIAGNOSTIC the run bit takes the written value; in every other mode it is kept. -/
theorem State.writeReg_GLB_DIAG_CTL {s : State} {w : WSrc} (hrecs : s.pwmIo.recs = []) {v : Nat} (hv : v < 2) :
    s.writeReg w R.GLB_DIAG_CTL v
      = (s.setF F.GLB_DIAG_CTL_seq_run (if s.mode = .diagnostic then v else s.f F.GLB_DIAG_CTL_seq_run)).seqRunWritten (s.rd R.GLB_DIAG_CTL) := by
  have hmod : v % 2 ^ 32 = v := Nat.mod_eq_of_lt (by omega)
  have haside : s.writeAside w .GLB_DIAG_CTL 0 R.GLB_DIAG_CTL v = none := rfl
  have hlock (d : RegDef) (x : Nat) (h : d.fields = [⟨0, 0, .rw, .none⟩]) : s.lockDiffers d R.GLB_DIAG_CTL x = false := by
    simp [State.lockDiffers, h]
  have hbit : bitsOf (s.premask .GLB_DIAG_CTL 0 R.GLB_DIAG_CTL v) 0 0
      = if s.mode = .diagnostic then v else s.f F.GLB_DIAG_CTL_seq_run := by
    have hpre : s.premask .GLB_DIAG_CTL 0 R.GLB_DIAG_CTL v = if s.mode = .diagnostic then v else s.keep R.GLB_DIAG_CTL 0 0 v := rfl
    rw [hpre]
    split
    · unfold bitsOf
      omega
    · rw [State.keep, bitsOf_setBits_same]
      exact Nat.mod_eq_of_lt (bitsOf_lt ..)
  simp only [State.writeReg, State.recordStands_of_nil hrecs, lookup_GLB_DIAG_CTL, hmod, haside, Bool.false_eq_true, if_false]
  rw [hlock _ _ rfl, if_neg (by decide), List.foldl_cons, List.foldl_nil, State.writeField_plain, hbit]
  rfl

/-- The registers and the engines change alone, and of the registers none but the scheduler's and the engines'. -/
structure State.EnginesOnly (s t : State) : Prop where
  frame : t = { s with regs := t.regs, engines := t.engines }
  rd : ∀ off, ¬ schedReg off → t.rd off = s.rd off

theorem State.EnginesOnly.trans {s t u : State} (h : s.EnginesOnly t) (h' : t.EnginesOnly u) : s.EnginesOnly u := by
  refine ⟨?_, fun off ho => (h'.rd off ho).trans (h.rd off ho)⟩
  have hf := h'.frame
  rw [h.frame] at hf
  exact hf

theorem State.EnginesOnly.modEng (s : State) (e : Nat) (g : Engine → Engine) : s.EnginesOnly (s.modEng e g) := ⟨rfl, fun _ _ => rfl⟩

theorem State.EnginesOnly.setF (s : State) {x : Fld} (v : Nat) (hx : schedReg x.off) : s.EnginesOnly (s.setF x v) :=
  ⟨rfl, fun _ ho => s.rd_setF_ne _ _ fun he => ho (he ▸ hx)⟩

theorem State.enginesTo_enginesOnly (s : State) (v : Nat) : s.EnginesOnly (s.enginesTo v) := by
  refine List.foldlRecOn (motive := fun t : State => s.EnginesOnly t) _ _ ⟨rfl, fun _ _ => rfl⟩ fun t ht e he => ht.trans ?_
  obtain ⟨hstat, htask, -⟩ := schedReg_eng (lt_of_mem_allEngines he)
  exact (((State.EnginesOnly.modEng _ e _).trans (.setF _ _ hstat)).trans (.setF _ _ htask)).trans (.modEng _ e _)

theorem not_schedReg_GLB_DIAG_CTL : ¬ schedReg R.GLB_DIAG_CTL := by
  simp only [schedReg, R.GLB_DIAG_CTL]
  omega

theorem State.firstBoundary_setF_seq_run (s : State) (v : Nat) : (s.setF F.GLB_DIAG_CTL_seq_run v).firstBoundary = s.firstBoundary := by
  have hrd {off : Nat} (h : off ≠ R.GLB_DIAG_CTL) : (s.setF F.GLB_DIAG_CTL_seq_run v).rd off = s.rd off := s.rd_setF_ne _ _ h
  have hnow : (s.setF F.GLB_DIAG_CTL_seq_run v).now = s.now := rfl
  have hperiod : (s.setF F.GLB_DIAG_CTL_seq_run v).periodNs = s.periodNs := by
    rw [State.periodNs, State.f_of_rd (x := F.GLB_PERIOD_period_steps) (hrd (by decide)), State.periodNs]
  have horigin : (s.setF F.GLB_DIAG_CTL_seq_run v).originNs = s.originNs := by
    rw [State.originNs, State.f_of_rd (x := F.GLB_ORIGIN_SEC_LO_origin_sec_lo) (hrd (by decide)),
      State.f_of_rd (x := F.GLB_ORIGIN_SEC_HI_origin_sec_hi) (hrd (by decide)),
      State.f_of_rd (x := F.GLB_ORIGIN_NS_origin_ns) (hrd (by decide)), State.originNs]
  simp only [State.firstBoundary, hnow, hperiod, horigin]

section
variable {s : State} {m : Master}

theorem State.MayWrite.diagCtl (h : s.MayWrite m) {v : Nat} (hv : v < 2) :
    s.ownerWrite m R.GLB_DIAG_CTL v
      = (s.setF F.GLB_DIAG_CTL_seq_run (if s.mode = .diagnostic then v else s.f F.GLB_DIAG_CTL_seq_run)).seqRunWritten (s.rd R.GLB_DIAG_CTL) := by
  obtain ⟨hlive, howner, -, hrecs⟩ := h
  rw [State.ownerWrite_eq hlive howner (by decide) (by omega), State.writeReg_GLB_DIAG_CTL hrecs hv]

/-- In DIAGNOSTIC the written run bit starts the engines and the stopped sequencer. -/
theorem seqRunStart_diagnostic (h : s.MayWrite m) (hmode : s.mode = .diagnostic) (hrun : s.fb F.GLB_DIAG_CTL_seq_run = false)
    (hstop : s.seq.running = false) :
    ∃ t, exec (.seqRunStart m) s = .next t ∧ t.fb F.GLB_DIAG_CTL_seq_run = true ∧ t.seq.startPend = true
      ∧ t.seq.next = s.firstBoundary ∧ t.seq.running = false ∧ t.events = s.events := by
  set u := s.setF F.GLB_DIAG_CTL_seq_run 1 with hu
  have hold : bitOf (s.rd R.GLB_DIAG_CTL) 0 = false := by rw [← State.fb_eq_bitOf]; exact hrun
  have hset : u.fb F.GLB_DIAG_CTL_seq_run = true := s.fb_setF_bit F_GLB_DIAG_CTL_seq_run_ok rfl true
  have hfirst : u.firstBoundary = s.firstBoundary := s.firstBoundary_setF_seq_run 1
  have hkeep : u.mode = s.mode ∧ u.seq = s.seq ∧ u.events = s.events ∧ u.hif = s.hif ∧ u.sched = s.sched ∧ u.pair = s.pair := by simp [hu]
  have hwrite : s.ownerWrite m R.GLB_DIAG_CTL 1
      = { u.enginesTo engIdle with seq := { u.seq with startPend := true, next := u.firstBoundary } } := by
    rw [h.diagCtl (by decide), if_pos hmode, ← hu]
    simp [State.seqRunWritten, hset, hkeep.1, hmode, hold, hkeep.2.1, hstop]
  obtain ⟨hmode', hseq, hevents, hhif, hsched, hpair⟩ := hkeep
  clear_value u
  obtain ⟨hframe, hregs⟩ := u.enginesTo_enginesOnly engIdle
  have hsame : (u.enginesTo engIdle).events = s.events ∧ (u.enginesTo engIdle).hif = s.hif ∧ (u.enginesTo engIdle).sched = s.sched
      ∧ (u.enginesTo engIdle).pair = s.pair := by
    rw [hframe]
    exact ⟨hevents, hhif, hsched, hpair⟩
  have hbit : (u.enginesTo engIdle).fb F.GLB_DIAG_CTL_seq_run = true := (State.fb_of_rd (hregs _ not_schedReg_GLB_DIAG_CTL)).trans hset
  generalize u.enginesTo engIdle = v at *
  obtain ⟨hvevents, hvhif, hvsched, hvpair⟩ := hsame
  obtain ⟨-, -, hsettled, -⟩ := h
  have hsettled' : ({ v with seq := { u.seq with startPend := true, next := u.firstBoundary } } : State).Settled :=
    hsettled.of_eq hvhif hvsched (by rw [hseq]) hvpair
  obtain ⟨htregs, htevents, htseq, -, -⟩ := hsettled'.settle_rest
  refine ⟨_, rfl, ?_, ?_, ?_, ?_, ?_⟩ <;> rw [hwrite]
  · exact (State.fb_of_regs htregs _).trans hbit
  · rw [htseq]
  · rw [htseq]
    exact hfirst
  · rw [htseq]
    exact (congrArg Seq.running hseq).trans hstop
  · exact htevents.trans hvevents

/-- In DIAGNOSTIC the cleared run bit lets the running sequencer stop. -/
theorem seqRunStop_diagnostic (h : s.MayWrite m) (hmode : s.mode = .diagnostic) (hrun : s.fb F.GLB_DIAG_CTL_seq_run = true)
    (hgoes : s.seq.running = true) :
    ∃ t, exec (.seqRunStop m) s = .next t ∧ t.fb F.GLB_DIAG_CTL_seq_run = false ∧ t.seq = { s.seq with stopPend := true }
      ∧ t.events = s.events := by
  set u := s.setF F.GLB_DIAG_CTL_seq_run 0 with hu
  have hold : bitOf (s.rd R.GLB_DIAG_CTL) 0 = true := by rw [← State.fb_eq_bitOf]; exact hrun
  have hset : u.fb F.GLB_DIAG_CTL_seq_run = false := s.fb_setF_bit F_GLB_DIAG_CTL_seq_run_ok rfl false
  have hkeep : u.mode = s.mode ∧ u.seq = s.seq ∧ u.events = s.events ∧ u.hif = s.hif ∧ u.sched = s.sched ∧ u.pair = s.pair := by simp [hu]
  obtain ⟨hmode', hseq, hevents, hhif, hsched, hpair⟩ := hkeep
  have hwrite : s.ownerWrite m R.GLB_DIAG_CTL 0 = { u with seq := { s.seq with stopPend := true } } := by
    rw [h.diagCtl (by decide), if_pos hmode, ← hu]
    simp [State.seqRunWritten, hset, hmode', hmode, hold, hseq, hgoes]
  obtain ⟨-, -, hsettled, -⟩ := h
  have hsettled' : ({ u with seq := { s.seq with stopPend := true } } : State).Settled := hsettled.of_eq hhif hsched rfl hpair
  clear_value u
  obtain ⟨htregs, htevents, htseq, -, -⟩ := hsettled'.settle_rest
  refine ⟨_, rfl, ?_, ?_, ?_⟩ <;> rw [hwrite]
  · exact (State.fb_of_regs htregs _).trans hset
  · exact htseq
  · exact htevents.trans hevents

/-- Outside DIAGNOSTIC the write of the run bit changes nothing. -/
theorem State.diagCtl_elsewhere (h : s.MayWrite m) (hmode : s.mode ≠ .diagnostic) {v : Nat} (hv : v < 2) :
    let t := (s.ownerWrite m R.GLB_DIAG_CTL v).settle
    t.seq = s.seq ∧ t.f F.GLB_DIAG_CTL_seq_run = s.f F.GLB_DIAG_CTL_seq_run ∧ t.events = s.events := by
  set u := s.setF F.GLB_DIAG_CTL_seq_run (s.f F.GLB_DIAG_CTL_seq_run) with hu
  have hset : u.f F.GLB_DIAG_CTL_seq_run = s.f F.GLB_DIAG_CTL_seq_run := s.f_setF_value F_GLB_DIAG_CTL_seq_run_ok (s.f_lt _)
  have hkeep : u.mode = s.mode ∧ u.seq = s.seq ∧ u.events = s.events ∧ u.hif = s.hif ∧ u.sched = s.sched ∧ u.pair = s.pair := by simp [hu]
  obtain ⟨hmode', hseq, hevents, hhif, hsched, hpair⟩ := hkeep
  have hwrite : s.ownerWrite m R.GLB_DIAG_CTL v = u := by
    rw [h.diagCtl hv, if_neg hmode, ← hu, State.seqRunWritten]
    exact if_pos (.inl (by rw [hmode']; exact hmode))
  obtain ⟨-, -, hsettled, -⟩ := h
  obtain ⟨htregs, htevents, htseq, -, -⟩ := (hsettled.of_eq hhif hsched (by rw [hseq]) hpair).settle_rest
  dsimp only
  rw [hwrite]
  exact ⟨htseq.trans hseq, (State.f_of_regs htregs _).trans hset, htevents.trans hevents⟩

end

/-! ### go (R64) -/

theorem State.writeReg_GLB_BOOT_CTL {s : State} {w : WSrc} (hrecs : s.pwmIo.recs = []) : s.writeReg w R.GLB_BOOT_CTL 1 = s.bootGo := by
  have haside : s.writeAside w .GLB_BOOT_CTL 0 R.GLB_BOOT_CTL 1 = none := rfl
  have hlock (d : RegDef) (h : d.fields = [⟨0, 0, .w1s, .none⟩]) : s.lockDiffers d R.GLB_BOOT_CTL 1 = false := by
    simp [State.lockDiffers, h]
  have hpre : s.premask .GLB_BOOT_CTL 0 R.GLB_BOOT_CTL 1 = 1 := rfl
  simp only [State.writeReg, State.recordStands_of_nil hrecs, lookup_GLB_BOOT_CTL, show 1 % 2 ^ 32 = 1 from rfl, haside, hpre]
  rw [hlock _ rfl, if_neg (by decide)]
  rfl

/-- A source begins to be read or checked. -/
theorem State.bootBegin_keeps (s : State) (source : Nat) (p : BootPhase) :
    let t := s.bootBegin source p
    t.fb F.GLB_BOOT_STAT_busy = true ∧ t.f F.GLB_BOOT_STAT_boot_err = s.f F.GLB_BOOT_STAT_boot_err
      ∧ t.boot.phase = p ∧ t.boot.qspiLeft = s.boot.qspiLeft ∧ t.mode = s.mode := by
  have hsource : F.GLB_BOOT_STAT_source.ok := ⟨by decide, by decide⟩
  have hbusy : F.GLB_BOOT_STAT_busy.ok := ⟨by decide, by decide⟩
  unfold State.bootBegin
  set u := s.setF F.GLB_BOOT_STAT_source source with hu
  set v := u.setF F.GLB_BOOT_STAT_busy 1 with hv
  have hbit : v.fb F.GLB_BOOT_STAT_busy = true := u.fb_setF_bit hbusy rfl true
  have herr : v.f F.GLB_BOOT_STAT_boot_err = s.f F.GLB_BOOT_STAT_boot_err :=
    (u.f_setF_apart _ _ _ hbusy (.inr (.inl (by decide)))).trans (s.f_setF_apart _ _ _ hsource (.inr (.inl (by decide))))
  have hsame : v.boot = s.boot ∧ v.mode = s.mode := by simp [hv, hu]
  have hleft : v.boot.qspiLeft = s.boot.qspiLeft := by rw [hsame.1]
  clear_value v
  exact ⟨hbit, herr, rfl, hleft, hsame.2⟩

theorem State.bootBegin_source (s : State) {source : Nat} (p : BootPhase) (h : source < 4) :
    (s.bootBegin source p).f F.GLB_BOOT_STAT_source = source := by
  have hbusy : F.GLB_BOOT_STAT_busy.ok := ⟨by decide, by decide⟩
  have hset : (s.setF F.GLB_BOOT_STAT_source source).f F.GLB_BOOT_STAT_source = source := s.f_setF_value ⟨by decide, by decide⟩ h
  have hkept := (State.f_setF_apart (s.setF F.GLB_BOOT_STAT_source source) _ _ 1 hbusy (.inr (.inr (by decide)))).trans hset
  unfold State.bootBegin
  generalize (s.setF F.GLB_BOOT_STAT_source source).setF F.GLB_BOOT_STAT_busy 1 = v at *
  exact hkept

theorem State.fb_setF_go (s : State) (b : Bool) : (s.setF F.GLB_BOOT_CTL_go (b2n b)).fb F.GLB_BOOT_CTL_go = b :=
  s.fb_setF_bit (x := F.GLB_BOOT_CTL_go) ⟨by decide, by decide⟩ rfl b

section
variable {s t : State} {m : Master}

theorem State.BootOnly.fb_go (h : s.BootOnly t) : t.fb F.GLB_BOOT_CTL_go = s.fb F.GLB_BOOT_CTL_go :=
  State.fb_of_rd (x := F.GLB_BOOT_CTL_go) (h.rd _ (by decide))

theorem State.setF_frame (s : State) (x : Fld) (v : Nat) :
    s.setF x v = { s with regs := (s.setF x v).regs, boot := (s.setF x v).boot } := rfl

/-- A written go changes registers and the boot alone. -/
theorem State.bootGo_frame (s : State) : s.bootGo = { s with regs := s.bootGo.regs, boot := s.bootGo.boot } := by
  have hset (v : Nat) : s.setF F.GLB_BOOT_CTL_go v
      = { s with regs := (s.setF F.GLB_BOOT_CTL_go v).regs, boot := (s.setF F.GLB_BOOT_CTL_go v).boot } := s.setF_frame ..
  have hbegin : (s.setF F.GLB_BOOT_CTL_go 1).bootBegin 3 .checking
      = { s with regs := ((s.setF F.GLB_BOOT_CTL_go 1).bootBegin 3 .checking).regs
                 boot := ((s.setF F.GLB_BOOT_CTL_go 1).bootBegin 3 .checking).boot } := by
    have hb := ((s.setF F.GLB_BOOT_CTL_go 1).bootBegin_bootOnly 3 .checking).frame
    rw [hset] at hb
    exact hb
  unfold State.bootGo
  split
  · exact hset 0
  · split
    · split
      exacts [hset 0, hbegin]
    · exact hset 0
    · exact hset 1

/-- After the owner's write of go nothing more happens. -/
theorem exec_bootGo (h : s.MayWrite m) :
    ∃ t, exec (.bootGo m) s = .next t ∧ t.regs = s.bootGo.regs ∧ t.boot = s.bootGo.boot ∧ t.mode = s.mode := by
  obtain ⟨hlive, howner, hsettled, hrecs⟩ := h
  have hwrite : s.ownerWrite m R.GLB_BOOT_CTL 1 = s.bootGo := by
    rw [State.ownerWrite_eq hlive howner (by decide) (by decide), State.writeReg_GLB_BOOT_CTL hrecs]
  have hf := s.bootGo_frame
  generalize s.bootGo = u at *
  have hsame : u.hif = s.hif ∧ u.sched = s.sched ∧ u.seq.running = s.seq.running ∧ u.pair = s.pair ∧ u.mode = s.mode := by
    rw [hf]
    exact ⟨rfl, rfl, rfl, rfl, rfl⟩
  obtain ⟨hhif, hsched, hrun, hpair, hmode⟩ := hsame
  obtain ⟨hregs, -, -, hboot, htmode⟩ := (hsettled.of_eq hhif hsched hrun hpair).settle_rest
  refine ⟨u.settle, ?_, hregs, hboot, htmode.trans hmode⟩
  rw [← hwrite]
  rfl

/-- go where nothing is under way begins the check of the host download. -/
theorem bootGo_idle (h : s.MayWrite m) (hmode : s.mode = .boot) (hsel : s.f F.GLB_BOOT_STAT_boot_sel ≠ 2) (hphase : s.boot.phase = .idle)
    (hrestart : s.boot.restart = false) :
    ∃ t, exec (.bootGo m) s = .next t ∧ t.boot.phase = .checking ∧ t.f F.GLB_BOOT_STAT_source = 3
      ∧ t.fb F.GLB_BOOT_STAT_busy = true ∧ t.fb F.GLB_BOOT_CTL_go = true ∧ t.mode = .boot := by
  have hgo : s.bootGo = (s.setF F.GLB_BOOT_CTL_go 1).bootBegin 3 .checking := by
    simp [State.bootGo, State.hostDownload, State.bootSel, hmode, hsel, hphase, hrestart]
  obtain ⟨t, ht, hregs, hboot, hmode'⟩ := exec_bootGo h
  rw [hgo] at hregs hboot
  obtain ⟨hbusy, -, hphase', -, -⟩ := (s.setF F.GLB_BOOT_CTL_go 1).bootBegin_keeps 3 .checking
  have hsource := (s.setF F.GLB_BOOT_CTL_go 1).bootBegin_source (source := 3) .checking (by decide)
  refine ⟨t, ht, by rw [hboot, hphase'], (State.f_of_regs hregs _).trans hsource, (State.fb_of_regs hregs _).trans hbusy, ?_,
    hmode'.trans hmode⟩
  exact (State.fb_of_regs hregs _).trans ((State.bootBegin_bootOnly _ 3 .checking).fb_go.trans (s.fb_setF_go true))

/-- go while a source is read or checked is held. -/
theorem bootGo_busy (h : s.MayWrite m) (hmode : s.mode = .boot) (hsel : s.f F.GLB_BOOT_STAT_boot_sel ≠ 2)
    (hphase : s.boot.phase = .reading ∨ s.boot.phase = .checking) :
    ∃ t, exec (.bootGo m) s = .next t ∧ t.boot = s.boot ∧ t.fb F.GLB_BOOT_CTL_go = true ∧ t.rd R.GLB_BOOT_STAT = s.rd R.GLB_BOOT_STAT := by
  have hgo : s.bootGo = s.setF F.GLB_BOOT_CTL_go 1 := by
    rcases hphase with hphase | hphase <;> simp [State.bootGo, State.hostDownload, State.bootSel, hmode, hsel, hphase]
  obtain ⟨t, ht, hregs, hboot, -⟩ := exec_bootGo h
  rw [hgo] at hregs hboot
  exact ⟨t, ht, hboot, (State.fb_of_regs hregs _).trans (s.fb_setF_go true), (State.rd_of_regs hregs _).trans (s.rd_setF_ne _ _ (by decide))⟩

/-- go without a host download to be had has no effect. -/
theorem bootGo_refused (h : s.MayWrite m) (hno : s.mode ≠ .boot ∨ s.f F.GLB_BOOT_STAT_boot_sel = 2) :
    ∃ t, exec (.bootGo m) s = .next t ∧ t.boot = s.boot ∧ t.fb F.GLB_BOOT_CTL_go = false ∧ t.mode = s.mode := by
  have hgo : s.bootGo = s.setF F.GLB_BOOT_CTL_go 0 := by
    rcases hno with hno | hno <;> simp [State.bootGo, State.hostDownload, State.bootSel, hno]
  obtain ⟨t, ht, hregs, hboot, hmode⟩ := exec_bootGo h
  rw [hgo] at hregs hboot
  exact ⟨t, ht, hboot, (State.fb_of_regs hregs _).trans (s.fb_setF_go false), hmode⟩

end

end Sys2Proof.Machine
end

section
/-! SUPPORT. Reading, checking and loading a boot image (R60 to R63). -/

namespace Sys2Proof.Machine

/-! ### Reading and checking -/

theorem boot_err_ok : F.GLB_BOOT_STAT_boot_err.ok := ⟨by decide, by decide⟩

/-- What the next source leaves: the error shown, and the mode; nothing is loaded, and at the end of the sources nothing is under way. -/
theorem State.bootNext_spec (s : State) :
    s.bootNext.f F.GLB_BOOT_STAT_boot_err = s.f F.GLB_BOOT_STAT_boot_err ∧ s.bootNext.mode = s.mode ∧ s.bootNext.boot.phase ≠ .loading := by
  have hbusy : F.GLB_BOOT_STAT_busy.ok := ⟨by decide, by decide⟩
  have hidle : (s.setF F.GLB_BOOT_STAT_busy 0).f F.GLB_BOOT_STAT_boot_err = s.f F.GLB_BOOT_STAT_boot_err :=
    s.f_setF_apart _ _ _ hbusy (.inr (.inl (by decide)))
  have hmode : (s.setF F.GLB_BOOT_STAT_busy 0).mode = s.mode := by simp
  unfold State.bootNext
  split
  · next src rest _ =>
    obtain ⟨-, herr, hphase, -, hmode'⟩ := State.bootBegin_keeps { s with boot := { s.boot with qspiLeft := rest } } src .reading
    exact ⟨herr, hmode', by rw [hphase]; nofun⟩
  · generalize s.setF F.GLB_BOOT_STAT_busy 0 = v at *
    dsimp only
    split
    · obtain ⟨-, herr, hphase, -, hmode'⟩ :=
        State.bootBegin_keeps { v with boot := { s.boot with phase := .idle, image := [] } } 3 .checking
      exact ⟨herr.trans hidle, hmode'.trans hmode, by rw [hphase]; nofun⟩
    · exact ⟨hidle, hmode, nofun⟩

section
variable {s : State} {im : List Byte}

theorem bootReadDone_read (hlive : s.live = true) (hphase : s.boot.phase = .reading) (him : 256 ≤ im.length) :
    ∃ t, exec (.bootReadDone true im) s = .next t ∧ t.boot.phase = .checking ∧ t.boot.image = im ∧ t.regs = s.regs := by
  refine ⟨{ s with boot := { s.boot with phase := .checking, image := im } }, ?_, rfl, rfl, rfl⟩
  simp [exec, execBootReadDone, hlive, hphase, him]

theorem exec_bootReadDone_failed {b : Bool} (hlive : s.live = true) (hphase : s.boot.phase = .reading) (him : b = false ∨ im.length < 256) :
    exec (.bootReadDone b im) s = .next (s.setF F.GLB_BOOT_STAT_boot_err 9).bootNext := by
  have hno : (b && decide (256 ≤ im.length)) = false := by
    rcases him with him | him <;> simp [him]
  simp [exec, execBootReadDone, hlive, hphase, hno]

theorem bootReadDone_next {b : Bool} {src : Nat} {rest : List Nat} (hlive : s.live = true) (hphase : s.boot.phase = .reading)
    (him : b = false ∨ im.length < 256) (hleft : s.boot.qspiLeft = src :: rest) (hsrc : src < 4) :
    ∃ t, exec (.bootReadDone b im) s = .next t ∧ t.f F.GLB_BOOT_STAT_boot_err = 9 ∧ t.boot.phase = .reading
      ∧ t.f F.GLB_BOOT_STAT_source = src ∧ t.boot.qspiLeft = rest := by
  set u := s.setF F.GLB_BOOT_STAT_boot_err 9 with hu
  have herr : u.f F.GLB_BOOT_STAT_boot_err = 9 := s.f_setF_value boot_err_ok (by decide)
  have hnext : u.bootNext = ({ u with boot := { s.boot with qspiLeft := rest } } : State).bootBegin src .reading := by
    have hboot : u.boot = s.boot := by simp [hu]
    rw [State.bootNext, hboot, hleft]
  obtain ⟨-, herr', hphase', hleft', -⟩ := State.bootBegin_keeps { u with boot := { s.boot with qspiLeft := rest } } src .reading
  have hsource := State.bootBegin_source { u with boot := { s.boot with qspiLeft := rest } } .reading hsrc
  rw [exec_bootReadDone_failed hlive hphase him, ← hu, hnext]
  exact ⟨_, rfl, herr'.trans herr, hphase', hsource, hleft'⟩

theorem bootReadDone_last {b : Bool} (hlive : s.live = true) (hphase : s.boot.phase = .reading) (him : b = false ∨ im.length < 256)
    (hleft : s.boot.qspiLeft = []) (hgo : s.fb F.GLB_BOOT_CTL_go = false) :
    ∃ t, exec (.bootReadDone b im) s = .next t ∧ t.f F.GLB_BOOT_STAT_boot_err = 9 ∧ t.boot.phase = .idle
      ∧ t.fb F.GLB_BOOT_STAT_busy = false ∧ t.mode = s.mode := by
  set u := s.setF F.GLB_BOOT_STAT_boot_err 9 with hu
  have hbusy : F.GLB_BOOT_STAT_busy.ok := ⟨by decide, by decide⟩
  have herr : u.f F.GLB_BOOT_STAT_boot_err = 9 := s.f_setF_value boot_err_ok (by decide)
  have hgo' : (u.setF F.GLB_BOOT_STAT_busy 0).fb F.GLB_BOOT_CTL_go = false :=
    (State.fb_of_rd (x := F.GLB_BOOT_CTL_go) ((u.rd_setF_ne _ _ (by decide)).trans (s.rd_setF_ne _ _ (by decide)))).trans hgo
  have hnext : u.bootNext = { u.setF F.GLB_BOOT_STAT_busy 0 with boot := { s.boot with phase := .idle, image := [] } } := by
    have hboot : u.boot = s.boot := by simp [hu]
    rw [State.bootNext, hboot, hleft]
    exact if_neg (by simpa using fun hg => absurd (hg.symm.trans hgo') (by decide))
  rw [exec_bootReadDone_failed hlive hphase him, ← hu, hnext]
  exact ⟨_, rfl, (u.f_setF_apart _ _ _ hbusy (.inr (.inl (by decide)))).trans herr, rfl, u.fb_setF_bit hbusy rfl false, by simp [hu]⟩

/-- The check of an image that is no host download. -/
theorem exec_bootCheckDone_failed {e : Nat} (hlive : s.live = true) (hphase : s.boot.phase = .checking)
    (hsource : s.f F.GLB_BOOT_STAT_source ≠ 3) (him : s.boot.image = im) (hcheck : s.imgCheck im none = e) (he : e ≠ 0) :
    exec .bootCheckDone s = .next (s.setF F.GLB_BOOT_STAT_boot_err e).bootNext := by
  have hsource' : (s.f F.GLB_BOOT_STAT_source == 3) = false := by simpa using hsource
  simp [exec, execBootCheckDone, hlive, hphase, hsource', him, hcheck, he]

theorem bootCheckDone_failed {e : Nat} (hlive : s.live = true) (hphase : s.boot.phase = .checking)
    (hsource : s.f F.GLB_BOOT_STAT_source ≠ 3) (him : s.boot.image = im) (hcheck : s.imgCheck im none = e) (he : e ≠ 0) (hlt : e < 256) :
    ∃ t, exec .bootCheckDone s = .next t ∧ t.f F.GLB_BOOT_STAT_boot_err = e ∧ t.boot.phase ≠ .loading ∧ t.mode = s.mode := by
  obtain ⟨herr, hmode, hphase'⟩ := (s.setF F.GLB_BOOT_STAT_boot_err e).bootNext_spec
  exact ⟨_, exec_bootCheckDone_failed hlive hphase hsource him hcheck he, herr.trans (s.f_setF_value boot_err_ok hlt), hphase',
    hmode.trans (by simp)⟩

theorem bootCheckDone_passed (hlive : s.live = true) (hphase : s.boot.phase = .checking)
    (hsource : s.f F.GLB_BOOT_STAT_source ≠ 3) (him : s.boot.image = im) (hcheck : s.imgCheck im none = 0) :
    ∃ t, exec .bootCheckDone s = .next t ∧ t.boot.phase = .loading ∧ t.boot.image = im
      ∧ t.f F.GLB_BOOT_STAT_boot_err = s.f F.GLB_BOOT_STAT_boot_err ∧ t.mode = s.mode := by
  have hsource' : (s.f F.GLB_BOOT_STAT_source == 3) = false := by simpa using hsource
  set v := (s.setF F.GLB_BOOT_CTL_go 0).setF F.GLB_BOOT_STAT_verified (b2n (imgSigned im && Config.fusedKeyHash.isSome)) with hv
  have herr : v.f F.GLB_BOOT_STAT_boot_err = s.f F.GLB_BOOT_STAT_boot_err :=
    (State.f_setF_apart _ _ _ _ ⟨by decide, by decide⟩ (.inr (.inl (by decide)))).trans
      (State.f_of_rd (x := F.GLB_BOOT_STAT_boot_err) (s.rd_setF_ne _ _ (by decide)))
  have hexec : exec .bootCheckDone s = .next { v with boot := { v.boot with phase := .loading, image := im } } := by
    simp [exec, execBootCheckDone, hlive, hphase, hsource', him, hcheck, hv]
  exact ⟨_, hexec, rfl, rfl, herr, by simp [hv]⟩

theorem imgCheck_magic (h : fieldAt im 0 4 ≠ 0x3036384A) : s.imgCheck im none = 1 := by
  have hmagic : imgHeaderOk im = false := by
    have : (imgWord im 0 == 0x3036384A) = false := by simpa [imgWord] using h
    simp [imgHeaderOk, this]
  simp [State.imgCheck, hmagic]

/-- The halves of a word of a byte string. -/
theorem leNat_take_four (l : List Byte) :
    bitsOf (leNat (l.take 4)) 31 16 = leNat ((l.drop 2).take 2) ∧ bitsOf (leNat (l.take 4)) 7 0 = leNat (l.take 1) := by
  have hlt (b : Byte) : b.toNat < 256 := b.isLt
  match l with
  | [] => decide
  | [a] => have := hlt a; simp [leNat, bitsOf]; omega
  | [a, b] => have := hlt a; have := hlt b; simp [leNat, bitsOf]; omega
  | [a, b, c] => have := hlt a; have := hlt b; have := hlt c; simp [leNat, bitsOf]; omega
  | a :: b :: c :: d :: _ => have := hlt a; have := hlt b; have := hlt c; have := hlt d; simp [leNat, bitsOf]; omega

theorem imgCheck_crc (hheader : imgHeaderOk im = true) (hlengths : imgLengthsOk im none = true) (hpart : fieldAt im 0x12 2 = 0x4860)
    (hstep : fieldAt im 0x10 1 ≤ s.stepping) (hcrc : crc32c (im.take (imgCrcAt im)) ≠ fieldAt im (imgCrcAt im) 4) : s.imgCheck im none = 4 := by
  obtain ⟨hhigh, hlow⟩ := leNat_take_four (im.drop 0x10)
  have hhigh' : bitsOf (imgWord im 0x10) 31 16 = 0x4860 := by
    rw [imgWord, fieldAt, hhigh, List.drop_drop]
    exact hpart
  have hlow' : bitsOf (imgWord im 0x10) 7 0 = fieldAt im 0x10 1 := hlow
  have hcrc' : crc32c (im.take (imgCrcAt im)) ≠ imgWord im (imgCrcAt im) := hcrc
  simp [State.imgCheck, hheader, hlengths, hhigh', hlow', Nat.not_lt.mpr hstep, hcrc']

end

end Sys2Proof.Machine
end

section
/-! SUPPORT. The load of a boot image: its sections, and CONFIGURE (R62, R65). -/

namespace Sys2Proof.Machine

/-! ### Bytes -/

theorem putBytes_append (m : List Host.Cell) (a : Nat) (xs ys : List Byte) :
    putBytes m a (xs ++ ys) = putBytes (putBytes m a xs) (a + xs.length) ys := by
  induction xs generalizing m a with
  | nil => rfl
  | cons x xs ih =>
    rw [List.cons_append, putBytes, ih, putBytes, List.length_cons, Nat.add_assoc, Nat.add_comm 1]

theorem leNat_lt (bs : List Byte) : leNat bs < 256 ^ bs.length := by
  induction bs with
  | nil => decide
  | cons b bs ih =>
    have := b.isLt
    rw [leNat, List.length_cons, pow_succ]
    omega

theorem fieldAt_word_lt (bs : List Byte) (a : Nat) : fieldAt bs a 4 < 2 ^ 32 := by
  have hlen : ((bs.drop a).take 4).length ≤ 4 := List.length_take_le ..
  calc fieldAt bs a 4 < 256 ^ ((bs.drop a).take 4).length := leNat_lt _
    _ ≤ 256 ^ 4 := Nat.pow_le_pow_right (by decide) hlen

/-! ### The sections -/

/-- `s` has come from `s₀` by work that is no change of mode, but for the data memories. -/
def State.Loads (s s₀ : State) : Prop := s.Stays { s₀ with dm := s.dm }

section
variable {s t s₀ : State}

theorem State.Loads.refl (s : State) : s.Loads s := State.Stays.refl s

theorem State.Loads.withDm (h : s.Loads s₀) (d : List Host.Cell) : { s with dm := d }.Stays { s₀ with dm := d } :=
  ⟨h.mode, h.cyc, h.request, h.blocked, h.limit, h.mbox, h.waits, h.idle, h.boot, rfl, h.events, h.low⟩

theorem State.Loads.trans (h : t.Loads s) (h' : s.Loads s₀) : t.Loads s₀ := State.Stays.trans h (h'.withDm t.dm)

theorem State.Loads.of_stays (h : s.Stays s₀) : s.Loads s₀ :=
  ⟨h.mode, h.cyc, h.request, h.blocked, h.limit, h.mbox, h.waits, h.idle, h.boot, rfl, h.events, h.low⟩

theorem State.Loads.dmPut {e a : Nat} {bs : List Byte} (h : s.Loads s₀) : (s.dmPut e a bs).Loads s₀ := h.withDm _

theorem State.Stays.modEng {e : Nat} {g : Engine → Engine} (h : s.Stays s₀) : (s.modEng e g).Stays s₀ := h.same

theorem State.Stays.reread {e : Nat} {hit : CycRead → Bool} (h : s.Stays s₀) : (s.reread e hit).Stays s₀ := by
  unfold State.reread
  extract_lets go
  split
  · exact h
  · exact State.Stays.modEng h.same

/-- Beside the bytes, an external write leaves notes, and the window's generation. -/
theorem State.dmExtern_stays (s : State) (e a : Nat) (bs : List Byte) : (s.dmExtern e a bs).Stays (s.dmPut e a bs) := by
  have h1 : { s.dmPut e a bs with dmExt := s.dmExtNow ++ [(s.cyc, e * dmSize + a, bs)] }.Stays (s.dmPut e a bs) :=
    (State.Stays.refl _).same
  unfold State.dmExtern
  extract_lets +onlyGivenNames _ s1 s2 base limit was s3 s4
  have h2 : s2.Stays (s.dmPut e a bs) := h1.reread
  have h4 : s4.Stays (s.dmPut e a bs) := h2.modEng.setF
  exact .ite h4.mark.raise.reread h2

/-- A row of words is the bytes it holds. -/
theorem State.dmWords_spec (s : State) (e a n : Nat) (bs : List Byte) :
    (s.dmWords e a n bs).Loads s ∧ (s.dmWords e a n bs).dm = putBytes s.dm (e * dmSize + a) (bs.take (4 * n)) := by
  induction n generalizing s a bs with
  | zero => exact ⟨.refl s, by rw [Nat.mul_zero, List.take_zero]; rfl⟩
  | succ n ih =>
    unfold State.dmWords
    split
    · next hbs =>
      rw [List.isEmpty_iff.mp hbs, List.take_nil]
      exact ⟨.refl s, rfl⟩
    · have hext := s.dmExtern_stays e a (bs.take 4)
      obtain ⟨hloads, hdm⟩ := ih (s.dmExtern e a (bs.take 4)) (a + 4) (bs.drop 4)
      refine ⟨hloads.trans ((State.Loads.of_stays hext).trans (State.Loads.refl s).dmPut), ?_⟩
      rw [hdm, hext.dm, show 4 * (n + 1) = 4 + 4 * n by omega, List.take_add, putBytes_append]
      by_cases hlen : 4 ≤ bs.length
      · rw [List.length_take, Nat.min_eq_left hlen, Nat.add_assoc]
        rfl
      · simp only [List.drop_eq_nil_of_le (show bs.length ≤ 4 by omega), List.take_nil, putBytes, State.dmPut]

theorem State.Stays.pmPut {e pc v : Nat} (h : s.Stays s₀) : (s.pmPut e pc v).Stays s₀ := h.same

theorem State.Stays.pmLoad {e a : Nat} {bs : List Byte} (h : s.Stays s₀) : (s.pmLoad e a bs).Stays s₀ := by
  induction bs generalizing s a with
  | nil => exact h
  | cons b bs ih =>
    rw [State.pmLoad]
    exact ih h.pmPut

theorem State.Stays.grnLoad {a : Nat} {bs : List Byte} (h : s.Stays s₀) : (s.grnWait.grnWrite a bs).Stays s₀ := by
  have h1 : s.grnWait.Stays s₀ := .ite h (h.setF (by decide))
  unfold State.grnWrite
  split
  · exact h1.same
  · exact h1

theorem State.loadSection_loads (im : List Byte) (s : State) (x : Section) : (State.loadSection im s x).Loads s := by
  unfold State.loadSection
  extract_lets bs
  split
  · exact .of_stays (State.Stays.refl s).pmLoad
  · split
    · exact (s.dmWords_spec ..).1
    · split
      · exact .of_stays (State.Stays.refl s).grnLoad
      · exact .refl s

theorem State.loadSections_loads (im : List Byte) (s : State) (xs : List Section) : (xs.foldl (State.loadSection im) s).Loads s := by
  induction xs generalizing s with
  | nil => exact .refl s
  | cons x xs ih => exact (ih _).trans (State.loadSection_loads im s x)

/-- The bytes of the only section, one of data memory, are in that memory. -/
theorem State.loadSection_dm {im : List Byte} {x : Section} (hkind : x.kind = 2) (hsrc : x.src + x.length ≤ im.length) {k : Nat}
    (hk : k < x.length) : tget (0 : Byte) (State.loadSection im s x).dm (x.target * dmSize + x.dest + k) = im.getD (x.src + k) 0 := by
  set bs := (im.drop x.src).take x.length with hbs
  have hlen : bs.length = x.length := by rw [hbs, List.length_take, List.length_drop, Nat.min_eq_left (by omega)]
  have hload : State.loadSection im s x = s.dmWords x.target x.dest ((x.length + 3) / 4) bs := by
    simp [State.loadSection, hkind, hbs]
  have hall : bs.take (4 * ((x.length + 3) / 4)) = bs := List.take_of_length_le (by omega)
  rw [hload, (s.dmWords_spec ..).2, hall, tget_putBytes_in _ _ _ _ (by omega)]
  simp [hbs, List.getD_eq_getElem?_getD, List.getElem?_eq_getElem (show x.src + k < im.length by omega)]

end

/-! ### CONFIGURE after the load -/

theorem modeCode_lt (m : Mode) : modeCode m < 16 := by cases m <;> decide

/-- What the log says of the last change. -/
theorem State.Enters.logged {s t : State} {old dest : Mode} {cause : Nat} (h : s.Enters t old dest cause) (hc : cause < 256) :
    t.f F.GLB_MODE_LOG_last_from = modeCode old ∧ t.f F.GLB_MODE_LOG_last_to = modeCode dest ∧ t.f F.GLB_MODE_LOG_cause = cause := by
  have hold := modeCode_lt old
  have hdest := modeCode_lt dest
  have hlow : t.rd R.GLB_MODE_LOG % 65536 = modeCode old + modeCode dest * 16 + cause * 256 := by
    have hsame := bitsOf_setBits_same (s.rd R.GLB_MODE_LOG) 15 0 (modeCode old + modeCode dest * 16 + cause * 256)
    rw [← h.log] at hsame
    unfold bitsOf at hsame
    omega
  refine ⟨?_, ?_, ?_⟩ <;>
    simp only [State.f, F.GLB_MODE_LOG_last_from, F.GLB_MODE_LOG_last_to, F.GLB_MODE_LOG_cause, bitsOf] <;> omega

/-- The state of a device that has loaded its image and enters CONFIGURE. -/
def State.imageLoaded (s : State) (im : List Byte) : State :=
  { ((s.wr R.GLB_IMAGE_VER (imgWord im 0x14)).setF F.GLB_BOOT_STAT_done 1).setF F.GLB_BOOT_STAT_busy 0 with
    boot := { phase := .idle, image := [], restart := false, qspiLeft := [] } }

theorem State.imageLoaded_spec (s : State) (im : List Byte) :
    let t := s.imageLoaded im
    t.fb F.GLB_BOOT_STAT_done = true ∧ t.fb F.GLB_BOOT_STAT_busy = false ∧ t.boot.phase = .idle
      ∧ t.rd R.GLB_IMAGE_VER = fieldAt im 0x14 4 ∧ t.sched = s.sched ∧ t.hif = s.hif ∧ t.pair = s.pair ∧ t.dm = s.dm := by
  have hdone : F.GLB_BOOT_STAT_done.ok := ⟨by decide, by decide⟩
  have hbusy : F.GLB_BOOT_STAT_busy.ok := ⟨by decide, by decide⟩
  unfold State.imageLoaded
  set u := s.wr R.GLB_IMAGE_VER (imgWord im 0x14) with hu
  set v := u.setF F.GLB_BOOT_STAT_done 1 with hv
  set w := v.setF F.GLB_BOOT_STAT_busy 0 with hw
  have hver : w.rd R.GLB_IMAGE_VER = fieldAt im 0x14 4 := by
    rw [hw, State.rd_setF_ne _ _ _ (by decide), hv, State.rd_setF_ne _ _ _ (by decide), hu, State.rd_wr_same]
    exact Nat.mod_eq_of_lt (fieldAt_word_lt im 0x14)
  have hdone' : w.fb F.GLB_BOOT_STAT_done = true :=
    (v.fb_setF_apart _ hbusy (.inr (.inl (by decide)))).trans (u.fb_setF_bit hdone rfl true)
  have hbusy' : w.fb F.GLB_BOOT_STAT_busy = false := v.fb_setF_bit hbusy rfl false
  have hsame : w.sched = s.sched ∧ w.hif = s.hif ∧ w.pair = s.pair ∧ w.dm = s.dm := by simp [hw, hv, hu]
  clear_value w
  exact ⟨hdone', hbusy', rfl, hver, hsame⟩

theorem exec_bootLoadDone {s : State} (hlive : s.live = true) (hphase : s.boot.phase = .loading)
    (htable : ∀ x ∈ imgTable s.boot.image, x.kind ≠ 4) :
    exec .bootLoadDone s
      = .next ((((imgTable s.boot.image).foldl (State.loadSection s.boot.image) s).imageLoaded s.boot.image).enterMode .configure 2).settle := by
  have hnone : (imgTable s.boot.image).filter (fun x => x.kind == 4) = [] :=
    List.filter_eq_nil_iff.mpr fun x hx => by simpa using htable x hx
  simp only [exec, execBootLoadDone, hlive, hphase, hnone, List.foldl_nil, beq_self_eq_true, Bool.and_self, if_true, State.imageLoaded]

/-- The load ends in CONFIGURE, with the status of the boot and the image's version. -/
theorem bootLoadDone_configured {s : State} (hlive : s.live = true) (hphase : s.boot.phase = .loading) (halone : s.Alone)
    (htable : ∀ x ∈ imgTable s.boot.image, x.kind ≠ 4) :
    ∃ t, exec .bootLoadDone s = .next t ∧ t.mode = .configure ∧ t.f F.GLB_MODE_LOG_cause = 2
      ∧ t.fb F.GLB_BOOT_STAT_done = true ∧ t.fb F.GLB_BOOT_STAT_busy = false ∧ t.boot.phase = .idle
      ∧ t.rd R.GLB_IMAGE_VER = fieldAt s.boot.image 0x14 4
      ∧ (∀ x, imgTable s.boot.image = [x] → x.kind = 2 → x.target < 12 → x.dest + x.length ≤ dmSize →
          x.src + x.length ≤ s.boot.image.length → ∀ k < x.length,
          tget (0 : Byte) t.dm (x.target * dmSize + x.dest + k) = s.boot.image.getD (x.src + k) 0) := by
  obtain ⟨hmbox, hlimit, -, hdeferred, hlast, hnow⟩ := halone
  have hdm (x : Section) (hx : imgTable s.boot.image = [x]) : (imgTable s.boot.image).foldl (State.loadSection s.boot.image) s
      = State.loadSection s.boot.image s x := by rw [hx]; rfl
  have hload := State.loadSections_loads s.boot.image s (imgTable s.boot.image)
  rw [exec_bootLoadDone hlive hphase htable]
  generalize (imgTable s.boot.image).foldl (State.loadSection s.boot.image) s = u at *
  obtain ⟨hdone, hbusy, hidle, hver, hsched, hhif, hpair, hvdm⟩ := u.imageLoaded_spec s.boot.image
  generalize u.imageLoaded s.boot.image = v at *
  have hvwaits : v.NoneWaits := by
    unfold State.NoneWaits
    rw [hpair]
    exact hload.waits ⟨hdeferred, hlast, hnow⟩
  have he : v.Enters (v.enterMode .configure 2) v.mode .configure 2 := State.enterMode_enters 2 (by decide) (.inl rfl)
  generalize v.enterMode .configure 2 = w at *
  have hs : w.settle.Stays w := State.settle_stays (he.limit.trans (by rw [hsched]; exact hload.limit.trans hlimit))
    (he.mbox.trans (by rw [hhif]; exact hload.mbox.trans hmbox)) (he.waits hvwaits)
  have ht := he.stays hs
  have hlow {x : Fld} (hx : x.off < lowRegs) (hne : x.off ≠ R.GLB_MODE_LOG) : w.settle.fb x = v.fb x :=
    State.fb_of_rd (ht.low (by decide) _ hx hne)
  refine ⟨_, rfl, ht.mode, (ht.logged (by decide)).2.2, (hlow (by decide) (by decide)).trans hdone, (hlow (by decide) (by decide)).trans hbusy,
    ?_, (ht.low (by decide) _ (by decide) (by decide)).trans hver, fun x hx hkind _ _ hsrc k hk => ?_⟩
  · rw [ht.boot (by decide), hidle]
  · rw [ht.dm, hvdm, hdm x hx]
    exact State.loadSection_dm hkind hsrc hk

end Sys2Proof.Machine
end

section
/-! The diagnostic sequencer and the boot images (R58 to R65). -/

open Sys2Proof.Machine

namespace Sys2Proof

/-- Settles O31: the run bit and go by the write of their registers, the sources and checks of an image one after another, and the load by
what each section and the entry of CONFIGURE leave alone. -/
theorem bootImagesAndDiagnosticSequencer : Obligations.BootImagesAndDiagnosticSequencer := by
  unfold Obligations.BootImagesAndDiagnosticSequencer
  refine ⟨fun s m h => ⟨seqRunStart_diagnostic h, seqRunStop_diagnostic h, fun hmode i hi => ?_, bootGo_idle h, bootGo_busy h,
      bootGo_refused h⟩,
    fun s im b src rest hlive => ⟨bootReadDone_read hlive, bootReadDone_next hlive, bootReadDone_last hlive,
      fun hphase hsource him => ⟨fun hmagic => bootCheckDone_failed hlive hphase hsource him (imgCheck_magic hmagic) (by decide) (by decide),
        fun hheader hlengths hpart hstep hcrc => ?_, bootCheckDone_passed hlive hphase hsource him⟩,
      fun hphase halone _ htable => bootLoadDone_configured hlive hphase halone htable⟩⟩
  · rcases List.mem_pair.mp hi with rfl | rfl
    · exact ⟨_, rfl, State.diagCtl_elsewhere h hmode (by decide)⟩
    · exact ⟨_, rfl, State.diagCtl_elsewhere h hmode (by decide)⟩
  · obtain ⟨t, ht, herr, hphase', -⟩ := bootCheckDone_failed hlive hphase hsource him (imgCheck_crc hheader hlengths hpart hstep hcrc)
      (by decide) (by decide)
    exact ⟨t, ht, herr, hphase'⟩

end Sys2Proof
end

section
/-! SUPPORT. The work of a period tick, once its mode is settled, and the requests that the tick held back are no change of mode. -/

namespace Sys2Proof.Machine

section
variable {s t s₀ : State}

/-! ### Checked reads, and the injection generators -/

theorem State.Stays.eccUncorr {aux a : Nat} (h : s.Stays s₀) : (s.eccUncorr aux a).Stays s₀ :=
  (((h.bumpF (by decide)).setF (by decide)).setF (by decide)).raise

/-- A read whose words bring no new error. -/
theorem State.Stays.grnCheck_none {aux a n : Nat} (h : s.Stays s₀) : (s.grnCheck aux a n []).2.Stays s₀ := by
  unfold State.grnCheck State.grnCheckBy
  simp only [List.zip_nil_right, List.foldl_nil]
  exact h.forEach fun ht => ht.eccUncorr

theorem State.Stays.modTim {g : Tim → Tim} (h : s.Stays s₀) : (s.modTim g).Stays s₀ := h.same

theorem State.Stays.timRecord (h : s.Stays s₀) : s.timRecord.Stays s₀ := by
  unfold State.timRecord
  dsimp only
  split
  · split
    · exact h.grnCheck_none.modTim
    · exact .ite h.grnCheck_none.modTim h.grnCheck_none.modTim.modTim
  · exact h

theorem State.Stays.injTick {e : Nat} (h : s.Stays s₀) : (s.injTick e).Stays s₀ := by
  unfold State.injTick State.injStop State.injStart
  exact .ite h.setF.setF (.ite h.modEng (.ite h.setF.setF.modEng h))

/-! ### The edge planner -/

theorem State.Stays.setFlt {i : Nat} {x : FltIn} (h : s.Stays s₀) : (s.setFlt i x).Stays s₀ := h.same

theorem State.Stays.startMask {src : Nat} (h : s.Stays s₀) : (s.startMask src).Stays s₀ := .ite h h.same

theorem State.Stays.pwmHiZ (h : s.Stays s₀) : s.pwmHiZ.Stays s₀ := h.forEach fun ht => ht.modPwm

theorem State.Stays.fltTell {i tally : Nat} (h : s.Stays s₀) : (s.fltTell i tally).Stays s₀ := by
  unfold State.fltTell
  exact .raise (.setFlt h.same)

theorem State.Stays.fltAct {i : Nat} (h : s.Stays s₀) : (s.fltAct i).Stays s₀ := by
  unfold State.fltAct
  extract_lets +onlyGivenNames _ s1 _ s2 _ _ s3 _ s4 _ s5
  have h1 : s1.Stays s₀ := h.setFlt
  have h2 : s2.Stays s₀ := h1.setF
  have h3 : s3.Stays s₀ := .ite h2.setF h2
  have h4 : s4.Stays s₀ := h3.setF.startMask
  have h5 : s5.Stays s₀ := .ite (.pwmHiZ h4.same) (h4.forEach fun ht => ht.modPwm)
  exact .ite h5 h5.fltTell

theorem State.Stays.fltCheck {i : Nat} (h : s.Stays s₀) : (s.fltCheck i).Stays s₀ := .ite h.fltAct h

theorem State.Stays.pulseDrop {c : Nat} (h : s.Stays s₀) : (s.pulseDrop c).Stays s₀ := .ite h (.ite h.bumpF.raise h.bumpF)

theorem State.Stays.edge {c : Nat} {level : Bool} {t : Int} {minP : Nat} {stretch : Bool} (h : s.Stays s₀) :
    (s.edge c level t minP stretch).Stays s₀ := by
  unfold State.edge
  exact .modPwm (.ite h.pulseDrop h)

theorem State.Stays.startBypass {e : Nat} (h : s.Stays s₀) : (s.startBypass e).Stays s₀ := .ite h h.same

theorem State.Stays.activate {c onT offT n dead minP : Nat} {stretch : Bool} (h : s.Stays s₀) :
    (s.activate c onT offT n dead minP stretch).Stays s₀ := .ite h (.ite h.pulseDrop (.ite h.edge.startBypass h.edge))

theorem State.Stays.deactivate {c onT offT n dead minP : Nat} {stretch : Bool} (h : s.Stays s₀) :
    (s.deactivate c onT offT n dead minP stretch).Stays s₀ := .ite h (.ite h.pulseDrop h.edge)

theorem State.Stays.blankEnd {c : Nat} (h : s.Stays s₀) : (s.blankEnd c).Stays s₀ := h.forEach fun ht => .ite ht.fltCheck ht

theorem State.Stays.releaseCycle {c pins : Nat} (h : s.Stays s₀) : (s.releaseCycle c pins).Stays s₀ :=
  h.modPwm.forEach fun ht => .ite ht.setF ht

theorem State.Stays.loadWave {c : Nat} {k : PwmSet} {complement : Bool} {start : Nat} (h : s.Stays s₀) :
    (s.loadWave c k complement start).Stays s₀ := .ite h.modPwm.activate (.ite h.modPwm.deactivate.blankEnd h.modPwm)

theorem State.Stays.reloadOne {c start pins at_ : Nat} (h : s.Stays s₀) : (s.reloadOne c start pins at_).Stays s₀ :=
  .releaseCycle (.ite h.modPwm.loadWave h.modPwm.loadWave)

theorem State.Stays.reloadPair {c start pins at_ : Nat} (h : s.Stays s₀) : (s.reloadPair c start pins at_).Stays s₀ :=
  .ite h.reloadOne.reloadOne h.reloadOne

theorem State.Stays.reloadFrom {n c start pins at_ : Nat} (h : s.Stays s₀) : (State.reloadFrom n s c start pins at_).Stays s₀ := by
  induction n generalizing s c start with
  | zero => exact h.reloadPair
  | succ n ih => exact h.reloadPair.forEach fun ht => ih ht

theorem State.Stays.syncLoad {src : Nat} (h : s.Stays s₀) : (s.syncLoad src).Stays s₀ := by
  unfold State.syncLoad State.lagChain
  exact h.forEach fun ht => .reloadFrom (ht.forEach fun hu => hu.modPwm)

theorem State.Stays.commitTransfer (h : s.Stays s₀) : s.commitTransfer.Stays s₀ := by
  unfold State.commitTransfer
  refine .ite h (.forEach (.setF h.same (by decide)) fun ht => ht.modPwm)

/-! ### The front end -/

theorem State.Stays.adcPeriod (h : s.Stays s₀) : s.adcPeriod.Stays s₀ :=
  .ite (.forEach h.same fun ht => .ite ht.transfer.modSlice.startNext ht) h

theorem State.Stays.urgentLost {u : Nat} (h : s.Stays s₀) : (s.urgentLost u).Stays s₀ := .ite h.bumpF.raise h.bumpF

theorem State.Stays.urgentSlice {k : Nat} (h : s.Stays s₀) : (s.urgentSlice k).Stays s₀ := by
  unfold State.urgentSlice
  extract_lets +onlyGivenNames _
  split
  · exact h
  · split
    · exact h.startNext
    · exact .ite h.modSlice.startNext h

theorem State.Stays.urgentTie {us : List Nat} {k : Nat} (h : s.Stays s₀) : (s.urgentTie us k).Stays s₀ := by
  unfold State.urgentTie
  extract_lets +onlyGivenNames _ _ _ s1 _ s2
  have h1 : s1.Stays s₀ := h.forEach fun ht => ht.modSlice
  have h2 : s2.Stays s₀ := .ite h1 h1.same
  exact h2.urgentSlice

theorem State.Stays.urgentTogether {us : List Nat} (h : s.Stays s₀) : (s.urgentTogether us).Stays s₀ := by
  unfold State.urgentTogether
  extract_lets +onlyGivenNames _ _ _ s1 t
  have h1 : s1.Stays s₀ := .ite h.same h
  have ht : t.Stays s₀ := h1.forEach fun hu => hu.urgentTie
  exact ht.same

theorem State.Stays.urgentReload {chs : List Nat} (h : s.Stays s₀) : (s.urgentReload chs).Stays s₀ :=
  .ite h (.ite (h.forEach fun ht => ht.urgentLost) (State.Stays.forEach h fun ht => ht.urgentLost).urgentTogether)

theorem State.Stays.syncEvent {src : Nat} (h : s.Stays s₀) : (s.syncEvent src).Stays s₀ := h.syncLoad.urgentReload

/-! ### The tick's work -/

theorem State.Stays.laneBoundary (h : s.Stays s₀) : s.laneBoundary.Stays s₀ := by
  unfold State.laneBoundary
  refine h.forEach fun {t i} ht => ?_
  have hdown : (if t.laneState i = laneDown then t.modLane i (fun y => { y with unreach := true }) else t).Stays s₀ := .ite ht.modLane ht
  exact .ite hdown (.ite hdown.modLane.setF.setF hdown.modLane)

theorem State.Stays.periodWork (h : s.Stays s₀) : s.periodWork.Stays s₀ := by
  unfold State.periodWork
  extract_lets +onlyGivenNames _ _ s1 _ s3 _ s5
  have h1 : s1.Stays s₀ := .same h.laneBoundary
  have h3 : s3.Stays s₀ := h1.timRecord.forEach fun ht => ht.injTick
  have h5 : s5.Stays s₀ := h3.adcPeriod.commitTransfer.syncEvent
  exact h5.same

/-! ### Steps and slews of the timebase -/

theorem State.Stays.timRefuse {source reason : Nat} {ofs : Int} (h : s.Stays s₀) : (s.timRefuse source reason ofs).Stays s₀ :=
  (((h.setF (by decide)).mark (by decide)).bumpF (by decide)).raise

theorem State.Scheduled.emptyDelays (h : s.Scheduled s₀) : s.emptyDelays.Scheduled s₀ :=
  h.forEach fun _ htc _ ht => .ite (ht.dropInstance (lt_of_mem_allTasks htc)) ht

theorem State.Stays.recStep (h : s.Stays s₀) : s.recStep.Stays s₀ := by
  unfold State.recStep State.modSilo
  exact h.forEach fun ht => .ite ht ht.same

theorem State.Stays.stepTo {v : Nat} (h : s.Stays s₀) : (s.stepTo v).Stays s₀ := by
  unfold State.stepTo State.adcStep
  extract_lets +onlyGivenNames _ _ _ s1 s2 s3 s4
  have h1 : s1.Stays s₀ := (h.forEach fun ht => ht.modSlice).modTim
  have h2 : s2.Stays s₀ := h1.same
  have h3 : s3.Stays s₀ := (h2.modTim.setF (by decide)).mark (by decide)
  have h4 : s4.Stays s₀ := ((State.Scheduled.refl _).emptyDelays.stays (h3.bumpF (by decide))).recStep
  exact .adcResume (.ite (h4.withSeq id) h4)

theorem State.Stays.offsetRequest {source : Nat} {d : Int} {force : Bool} (h : s.Stays s₀) : (s.offsetRequest source d force).Stays s₀ := by
  unfold State.offsetRequest State.stepBy State.slewBy
  exact .ite h.timRefuse (.ite h.timRefuse (.ite h.timRefuse (.ite (.ite h.timRefuse h.stepTo) (h.modTim.setF (by decide)))))

theorem State.Stays.absoluteSet {source : Nat} (h : s.Stays s₀) : (s.absoluteSet source).Stays s₀ :=
  .ite h.timRefuse (.ite h.timRefuse h.stepTo)

theorem State.Stays.lateRequests (h : s.Stays s₀) : s.lateRequests.Stays s₀ := by
  refine h.modTim.foldl fun {t r} ht => ?_
  unfold State.timRequest
  split
  · exact ht.offsetRequest
  · exact ht.absoluteSet

end

end Sys2Proof.Machine
end

section
/-! SUPPORT. What the period tick does before the requests are evaluated leaves everything that their conditions read (R45, R48). -/

namespace Sys2Proof.Machine

/-- The registers that the tick writes before the evaluation, but for the fields of RED_STAT and RED_FLAGS: the slew, the statistics of the
period and of the scheduler, the missed STATUS frames, and the lists of lanes that no map names. -/
def tickReg (off : Nat) : Prop :=
  off = R.TIM_STAT ∨ schedReg off ∨ off = R.GLB_MS_GATHER ∨ off = R.GLB_MS_PLAN ∨ (R.WIN_UNIT_STAT 0 ≤ off ∧ off < R.WIN_UNIT_STAT 6)
    ∨ (0xAC800 ≤ off ∧ (off % 0x400 = 4 ∨ 0x200 ≤ off % 0x400)) ∨ off = R.RED_CNT ∨ off = R.RED_STAT ∨ off = R.RED_FLAGS

/-- A field of the pair's status and flags that the tick leaves alone. -/
def Fld.held (x : Fld) : Prop := x.off = R.RED_STAT ∧ 20 ≤ x.lo ∨ x.off = R.RED_FLAGS ∧ 8 ≤ x.lo

/-- A field of the pair's status and flags that the tick writes. -/
def Fld.stepped (y : Fld) : Prop := y.ok ∧ (y.off = R.RED_STAT ∧ y.hi < 20 ∨ y.off = R.RED_FLAGS ∧ y.hi < 8)

/-- `s` stands in the tick that is to come in `p`, before the requests of the boundary are evaluated. -/
structure State.InTick (s p : State) : Prop where
  mode : s.mode = p.mode
  ctl : s.ctl = p.ctl
  saf : s.saf = p.saf
  cells : s.cells = p.cells
  timing : ∀ l, (s.lane l).timingOk = (p.lane l).timingOk
  request : s.pair.request = p.pair.request
  limit : s.sched.limitHit = p.sched.limitHit
  mbox : s.hif.mboxGo = p.hif.mboxGo
  waits : p.NoneWaits → s.NoneWaits
  running : p.seq.running = true → s.seq.running = true
  cyc : s.cyc = p.tickCyc
  events : p.events <+: s.events
  regs : ∀ off, ¬ tickReg off → s.rd off = p.rd off
  held : ∀ x : Fld, x.held → s.f x = p.f x

section
variable {s t p : State}

theorem State.InTick.ite {c : Prop} [Decidable c] (hs : s.InTick p) (ht : t.InTick p) : (if c then s else t).InTick p := by
  split
  exacts [hs, ht]

theorem State.InTick.forEach {is : List Nat} {g : State → Nat → State} (h : s.InTick p)
    (hg : ∀ i ∈ is, ∀ t, t.InTick p → (g t i).InTick p) : (s.forEach is g).InTick p := by
  unfold State.forEach
  induction is generalizing s with
  | nil => exact h
  | cons i is ih => exact ih (hg i List.mem_cons_self s h) fun j hj => hg j (List.mem_cons_of_mem i hj)

/-- An update of fields that the relation does not speak of. -/
theorem State.InTick.same {just justAt grn grnBad eccWb units fr pwm evSeq} (h : s.InTick p) :
    ({ s with just, justAt, grn, grnBad, eccWb, units, fr, pwm, evSeq } : State).InTick p :=
  ⟨h.mode, h.ctl, h.saf, h.cells, h.timing, h.request, h.limit, h.mbox, h.waits, h.running, h.cyc, h.events, h.regs, h.held⟩

theorem State.InTick.withSeq {x : Seq} (h : s.InTick p) (hx : s.seq.running = true → x.running = true) : { s with seq := x }.InTick p :=
  ⟨h.mode, h.ctl, h.saf, h.cells, h.timing, h.request, h.limit, h.mbox, h.waits, fun hp => hx (h.running hp), h.cyc, h.events, h.regs,
    h.held⟩

theorem State.InTick.modPair {g : Pair → Pair} (h : s.InTick p) (hr : (g s.pair).request = s.pair.request)
    (hg : s.NoneWaits → (g s.pair).deferred = [] ∧ (g s.pair).capLast = [] ∧ (g s.pair).capNow = []) : (s.modPair g).InTick p :=
  ⟨h.mode, h.ctl, h.saf, h.cells, h.timing, hr.trans h.request, h.limit, h.mbox, fun hp => hg (h.waits hp), h.running, h.cyc, h.events,
    h.regs, h.held⟩

theorem State.InTick.modLane {l : Nat} {g : Lane → Lane} (h : s.InTick p) (hg : ∀ x, (g x).timingOk = x.timingOk) :
    (s.modLane l g).InTick p := by
  refine ⟨h.mode, h.ctl, h.saf, h.cells, fun k => ?_, h.request, h.limit, h.mbox, h.waits, h.running, h.cyc, h.events, h.regs, h.held⟩
  by_cases hk : k = l
  · rw [hk, State.lane_modLane, hg, h.timing]
  · rw [State.lane_modLane_ne _ _ hk, h.timing]

/-! ### Registers and events -/

/-- A field of the pair's status shares no register with those of the statistics. -/
theorem Fld.held.ne {x : Fld} (h : x.held) {off : Nat} (hs : off ≠ R.RED_STAT) (hf : off ≠ R.RED_FLAGS) : x.off ≠ off := by
  rcases h with h | h
  · exact fun he => hs (he ▸ h.1)
  · exact fun he => hf (he ▸ h.1)

theorem State.InTick.wr {off v : Nat} (h : s.InTick p) (ho : tickReg off) (hs : off ≠ R.RED_STAT) (hf : off ≠ R.RED_FLAGS) :
    (s.wr off v).InTick p :=
  ⟨h.mode, h.ctl, h.saf, h.cells, h.timing, h.request, h.limit, h.mbox, h.waits, h.running, h.cyc, h.events,
    fun o hno => (s.rd_wr_ne v fun (he : o = off) => hno (he ▸ ho)).trans (h.regs o hno),
    fun x hx => (State.f_of_rd (s.rd_wr_ne v (hx.ne hs hf))).trans (h.held x hx)⟩

theorem State.InTick.setF {y : Fld} {v : Nat} (h : s.InTick p) (ho : tickReg y.off) (hs : y.off ≠ R.RED_STAT) (hf : y.off ≠ R.RED_FLAGS) :
    (s.setF y v).InTick p := h.wr ho hs hf

theorem Fld.stepped.tick {y : Fld} (h : y.stepped) : tickReg y.off := by
  rcases h.2 with h | h <;> rw [h.1] <;> simp [tickReg]

theorem Fld.stepped.apart {x y : Fld} (h : y.stepped) (hx : x.held) : y.apart x := by
  unfold Fld.apart
  rcases h.2 with h | h <;> rcases hx with hx | hx
  · exact .inr (.inr (by omega))
  · exact .inl (by rw [h.1, hx.1]; decide)
  · exact .inl (by rw [h.1, hx.1]; decide)
  · exact .inr (.inr (by omega))

theorem State.InTick.step {y : Fld} {v : Nat} (h : s.InTick p) (hy : y.stepped) : (s.setF y v).InTick p :=
  ⟨h.mode, h.ctl, h.saf, h.cells, h.timing, h.request, h.limit, h.mbox, h.waits, h.running, h.cyc, h.events,
    fun o hno => (s.rd_setF_ne y v fun (he : o = y.off) => hno (he ▸ hy.tick)).trans (h.regs o hno),
    fun x hx => (s.f_setF_apart y x v hy.1 (hy.apart hx)).trans (h.held x hx)⟩

theorem State.InTick.note {off m : Nat} (h : s.InTick p) : (s.note off m).InTick p := h.same

theorem State.InTick.putWorst {y : Fld} {v : Nat} (h : s.InTick p) (ho : tickReg y.off) (hs : y.off ≠ R.RED_STAT)
    (hf : y.off ≠ R.RED_FLAGS) : (s.putWorst y v).InTick p := .ite (h.setF ho hs hf).note h

theorem State.InTick.raise {c : EvCode} {u a v : Nat} (h : s.InTick p) : (s.raise c u a v).InTick p :=
  ⟨h.mode, h.ctl, h.saf, h.cells, h.timing, h.request, h.limit, h.mbox, h.waits, h.running, h.cyc,
    h.events.trans (s.events_raise_grown c u a v), h.regs, h.held⟩

theorem State.InTick.of_scheduled (h : t.Scheduled s) (hs : s.InTick p) : t.InTick p := by
  obtain ⟨hframe, hevents, hlimit, hregs⟩ := h
  have hrd : ∀ off, ¬ tickReg off → t.rd off = s.rd off := fun off ho => hregs off fun hsr => ho (.inr (.inl hsr))
  have hheld : ∀ x : Fld, x.held → t.f x = s.f x := fun x hx => State.f_of_rd (hregs _ fun hsr => by
    unfold schedReg at hsr
    rcases hx with hx | hx <;> rw [hx.1] at hsr <;> revert hsr <;> decide)
  have hsame : t.mode = s.mode ∧ t.ctl = s.ctl ∧ t.saf = s.saf ∧ t.cells = s.cells ∧ t.lanes = s.lanes ∧ t.pair = s.pair ∧ t.hif = s.hif
      ∧ t.seq = s.seq ∧ t.cyc = s.cyc := by
    rw [hframe]
    exact ⟨rfl, rfl, rfl, rfl, rfl, rfl, rfl, rfl, rfl⟩
  obtain ⟨hmode, hctl, hsaf, hcells, hlanes, hpair, hhif, hseq, hcyc⟩ := hsame
  exact
    { mode := hmode.trans hs.mode, ctl := hctl.trans hs.ctl, saf := hsaf.trans hs.saf, cells := hcells.trans hs.cells
      timing := fun l => by rw [← hs.timing l, State.lane, State.lane, hlanes]
      request := by rw [hpair, hs.request], limit := hlimit.trans hs.limit, mbox := by rw [hhif, hs.mbox]
      waits := fun hp => by have := hs.waits hp; unfold State.NoneWaits at this ⊢; rwa [hpair]
      running := fun hp => by rw [hseq, hs.running hp], cyc := hcyc.trans hs.cyc, events := hs.events.trans hevents
      regs := fun off ho => (hrd off ho).trans (hs.regs off ho), held := fun x hx => (hheld x hx).trans (hs.held x hx) }

end

/-! ### What the conditions read -/

section
variable {s t p : State}

theorem State.SameMap.laneInUse (h : s.SameMap t) (k : Nat) : t.laneInUse k = s.laneInUse k := by
  unfold State.laneInUse
  by_cases hk : k < 48
  · rw [h.topology hk]
  · simp [hk]

theorem State.SameMap.lanesInUse (h : s.SameMap t) : t.lanesInUse = s.lanesInUse := List.filter_congr fun k _ => h.laneInUse k

theorem State.SameMap.laneCells (h : s.SameMap t) (k : Nat) : t.laneCells k = s.laneCells k := by
  rw [State.laneCells, State.laneCells, h.laneCount]

theorem State.SameMap.allCells (h : s.SameMap t) : t.allCells = s.allCells := by
  rw [State.allCells, State.allCells, funext h.laneCells]

theorem State.SameMap.armOfCell (h : s.SameMap t) (c : Nat) : t.armOfCell c = s.armOfCell c := by
  unfold State.armOfCell
  rw [h.laneCount]
  by_cases hc : c % 64 < s.laneCount (c / 64)
  · have hk : c / 64 < 48 := by
      by_contra hk
      simp [State.laneCount, State.laneInUse, hk] at hc
    have hslot : t.armOfSlot (c / 64) (c % 64) = s.armOfSlot (c / 64) (c % 64) := by
      unfold State.armOfSlot
      rw [h.laneCount, State.f_of_rd (x := F.GLB_LANE_MAP_split _) (h _ hk), State.f_of_rd (x := F.GLB_LANE_MAP_arm_lo _) (h _ hk),
        State.f_of_rd (x := F.GLB_LANE_MAP_arm_hi _) (h _ hk)]
    rw [hslot]
  · rw [if_neg hc, if_neg hc]

theorem State.SameMap.armCells (h : s.SameMap t) (a : Nat) : t.armCells a = s.armCells a := by
  rw [State.armCells, State.armCells, h.allCells]
  exact List.filter_congr fun c _ => by rw [h.armOfCell]

theorem State.lt_of_mem_armCells {a c : Nat} (h : c ∈ s.armCells a) : c < 3072 := by
  obtain ⟨l, hl, hc⟩ := List.mem_flatMap.mp (List.mem_of_mem_filter h)
  obtain ⟨k, hk, rfl⟩ := List.mem_map.mp hc
  have hl' : l < 48 := List.mem_range.mp hl
  have hk' : k < s.laneCount l := List.mem_range.mp hk
  have hcount : s.laneCount l ≤ 64 := by
    unfold State.laneCount
    split <;> omega
  omega

theorem State.InTick.sameMap (h : s.InTick p) : p.SameMap s := fun k hk => h.regs _ (by
  simp only [tickReg, schedReg, R.GLB_LANE_MAP, R.TIM_STAT, R.GLB_MS_GATHER, R.GLB_MS_PLAN, R.WIN_UNIT_STAT, R.RED_CNT, R.RED_STAT,
    R.RED_FLAGS]
  omega)

/-- A field of a register that the tick does not write. -/
theorem State.InTick.f (h : s.InTick p) {x : Fld} (hx : ¬ tickReg x.off) : s.f x = p.f x := State.f_of_rd (h.regs _ hx)

theorem State.InTick.fb (h : s.InTick p) {x : Fld} (hx : ¬ tickReg x.off) : s.fb x = p.fb x := State.fb_of_rd (h.regs _ hx)

theorem State.InTick.fbHeld (h : s.InTick p) {x : Fld} (hx : x.held) : s.fb x = p.fb x := by rw [State.fb, State.fb, h.held x hx]

end

end Sys2Proof.Machine
end

section
/-! SUPPORT. A request is answered in the tick as it would be answered before it. -/

namespace Sys2Proof.Machine

theorem all_eq_of_mem {l : List Nat} {g g' : Nat → Bool} (h : ∀ a ∈ l, g a = g' a) : l.all g = l.all g' := by
  rw [Bool.eq_iff_iff, List.all_eq_true, List.all_eq_true]
  exact forall₂_congr fun a ha => by rw [h a ha]

theorem any_eq_of_mem {l : List Nat} {g g' : Nat → Bool} (h : ∀ a ∈ l, g a = g' a) : l.any g = l.any g' := by
  rw [Bool.eq_iff_iff, List.any_eq_true, List.any_eq_true]
  exact exists_congr fun a => and_congr_right fun ha => by rw [h a ha]

/-- A register below those of the scheduler and of the units, the pair's apart, is none that the tick writes. -/
theorem not_tickReg_of_lt {off : Nat} (h : off < 0x30000) (hg : off ≠ R.GLB_MS_GATHER) (hp : off ≠ R.GLB_MS_PLAN) : ¬ tickReg off := by
  simp only [tickReg, schedReg, R.TIM_STAT, R.WIN_UNIT_STAT, R.RED_CNT, R.RED_STAT, R.RED_FLAGS]
  omega

section
variable {s p : State}

theorem State.InTick.cell (h : s.InTick p) (c : Nat) : s.cell c = p.cell c := by rw [State.cell, State.cell, h.cells]

theorem State.InTick.enabledArms (h : s.InTick p) : s.enabledArms = p.enabledArms := List.filter_congr fun a ha => by
  have ha' : a < 12 := List.mem_range.mp ha
  exact h.fb (x := F.GLB_ARM_CFG_arm_enable a) (not_tickReg_of_lt (by simp only [F.GLB_ARM_CFG_arm_enable, R.GLB_ARM_CFG]; omega)
    (by simp only [F.GLB_ARM_CFG_arm_enable, R.GLB_ARM_CFG, R.GLB_MS_GATHER]; omega)
    (by simp only [F.GLB_ARM_CFG_arm_enable, R.GLB_ARM_CFG, R.GLB_MS_PLAN]; omega))

theorem State.InTick.nRequired (h : s.InTick p) {a : Nat} (ha : a ∈ p.enabledArms) :
    s.f (F.GLB_ARM_CFG_n_required a) = p.f (F.GLB_ARM_CFG_n_required a) := by
  have ha' : a < 12 := List.mem_range.mp (List.mem_of_mem_filter ha)
  exact h.f (x := F.GLB_ARM_CFG_n_required a) (not_tickReg_of_lt (by simp only [F.GLB_ARM_CFG_n_required, R.GLB_ARM_CFG]; omega)
    (by simp only [F.GLB_ARM_CFG_n_required, R.GLB_ARM_CFG, R.GLB_MS_GATHER]; omega)
    (by simp only [F.GLB_ARM_CFG_n_required, R.GLB_ARM_CFG, R.GLB_MS_PLAN]; omega))

theorem State.InTick.cellCode (h : s.InTick p) {c : Nat} (hc : c < 3072) : s.cellCode c = p.cellCode c :=
  h.f (x := F.WIN_CELL_STAT_code c) (by
    simp only [tickReg, schedReg, F.WIN_CELL_STAT_code, R.WIN_CELL_STAT, R.TIM_STAT, R.GLB_MS_GATHER, R.GLB_MS_PLAN, R.WIN_UNIT_STAT,
      R.RED_CNT, R.RED_STAT, R.RED_FLAGS]
    omega)

theorem State.InTick.countCodes (h : s.InTick p) (a : Nat) (g : Nat → Bool) : s.countCodes a g = p.countCodes a g := by
  unfold State.countCodes
  rw [h.sameMap.armCells, List.filter_congr fun c hc => by rw [h.cellCode (State.lt_of_mem_armCells hc)]]

theorem State.InTick.nAvailable (h : s.InTick p) (a : Nat) : s.nAvailable a = p.nAvailable a := by
  simp only [State.nAvailable, State.nInstalled, State.nBypassed, State.nUnreachable, State.nFaulted, h.sameMap.armCells, h.countCodes]

theorem State.InTick.anyArmLow (h : s.InTick p) : s.anyArmLow = p.anyArmLow := by
  unfold State.anyArmLow
  rw [h.enabledArms]
  exact any_eq_of_mem fun a ha => by rw [State.armLow, State.armLow, h.nAvailable, h.nRequired ha]

theorem State.InTick.energisedAny (h : s.InTick p) : s.energisedAny = p.energisedAny := by
  simp only [State.energisedAny, h.sameMap.allCells, h.cell]

theorem State.InTick.safeF (h : s.InTick p) {x : Fld} (hx : 0x20000 ≤ x.off ∧ x.off < 0x30000) : s.f x = p.f x :=
  h.f (not_tickReg_of_lt hx.2 (fun he => by rw [he] at hx; revert hx; decide) (fun he => by rw [he] at hx; revert hx; decide))

theorem State.InTick.channelAsserted (h : s.InTick p) (ch : Nat) : s.channelAsserted ch = p.channelAsserted ch := by
  have hen : s.f (F.SAF_IN_CFG_en (pairOf ch)) = p.f (F.SAF_IN_CFG_en (pairOf ch)) :=
    h.safeF (by simp only [F.SAF_IN_CFG_en, R.SAF_IN_CFG, pairOf]; omega)
  simp only [State.channelAsserted, State.channelFailed, State.fb, hen, h.safeF (x := F.SAF_STAT_in_now) (by decide),
    h.safeF (x := F.SAF_TEST_STAT_test_fail) (by decide), h.safeF (x := F.SAF_TEST_CFG_test_fail_trip) (by decide)]

theorem State.InTick.inputAsserted (h : s.InTick p) : s.inputAsserted = p.inputAsserted := by
  rw [State.inputAsserted, State.inputAsserted, funext h.channelAsserted]

theorem State.InTick.causeActive (h : s.InTick p) : s.causeActive = p.causeActive := by
  simp only [State.causeActive, State.tmActive, State.fb, h.inputAsserted, h.safeF (x := F.SAF_STAT_arm_low) (by decide),
    h.safeF (x := F.SAF_LATCH_in_latch) (by decide), h.safeF (x := F.SAF_TM_MASK0_mask) (by decide),
    h.safeF (x := F.SAF_TM_MASK1_mask) (by decide), h.f (x := F.ADC_LIM_ACT0_act) (by unfold tickReg schedReg; decide),
    h.f (x := F.ADC_LIM_ACT1_act) (by unfold tickReg schedReg; decide)]

theorem State.InTick.lockedOut (h : s.InTick p) : s.lockedOut = p.lockedOut := by
  simp only [State.lockedOut, State.fb, h.saf, h.safeF (x := F.SAF_STAT_ret_err) (by decide)]

theorem State.InTick.laneState (h : s.InTick p) (l : Nat) : s.laneState l = p.laneState l :=
  h.f (x := F.LPHY_STAT_state l) (by
    simp only [tickReg, schedReg, F.LPHY_STAT_state, R.LPHY_STAT, R.TIM_STAT, R.GLB_MS_GATHER, R.GLB_MS_PLAN, R.WIN_UNIT_STAT,
      R.RED_CNT, R.RED_STAT, R.RED_FLAGS]
    omega)

theorem State.InTick.discStep (h : s.InTick p) {l : Nat} (hl : l < 48) : s.f (F.NCL_LSTAT_disc_step l) = p.f (F.NCL_LSTAT_disc_step l) :=
  h.f (x := F.NCL_LSTAT_disc_step l) (by
    simp only [tickReg, schedReg, F.NCL_LSTAT_disc_step, R.NCL_LSTAT, R.TIM_STAT, R.GLB_MS_GATHER, R.GLB_MS_PLAN, R.WIN_UNIT_STAT,
      R.RED_CNT, R.RED_STAT, R.RED_FLAGS]
    omega)

theorem State.InTick.musterOk (h : s.InTick p) : s.musterOk = p.musterOk := by
  have hdisc : (p.lanesInUse.filter (fun l => p.laneState l == laneUp)).all
        (fun l => (s.lane l).timingOk && s.f (F.NCL_LSTAT_disc_step l) == 5)
      = (p.lanesInUse.filter (fun l => p.laneState l == laneUp)).all
        (fun l => (p.lane l).timingOk && p.f (F.NCL_LSTAT_disc_step l) == 5) := all_eq_of_mem fun l hl => by
    rw [h.timing, h.discStep (List.mem_range.mp (List.mem_of_mem_filter (List.mem_of_mem_filter hl)))]
  have harms : p.enabledArms.all (fun a => decide (s.f (F.GLB_ARM_CFG_n_required a) ≤ s.nAvailable a))
      = p.enabledArms.all (fun a => decide (p.f (F.GLB_ARM_CFG_n_required a) ≤ p.nAvailable a)) := all_eq_of_mem fun a ha => by
    rw [h.nAvailable, h.nRequired ha]
  simp only [State.musterOk, h.sameMap.lanesInUse, h.laneState, hdisc, h.sameMap.laneCells, h.cell, h.enabledArms, harms, h.inputAsserted]

theorem State.InTick.musterDone (h : s.InTick p) : s.musterDone = p.musterDone := by
  simp only [State.musterDone, h.ctl, h.mode, h.musterOk]

/-! ### The pair -/

theorem State.InTick.paired (h : s.InTick p) : s.paired = p.paired := h.fb (x := F.RED_CFG_pair_en) (by unfold tickReg schedReg; decide)

theorem State.InTick.holder (h : s.InTick p) : s.holder = p.holder := by
  rw [State.holder, State.holder, h.paired, h.held F.RED_STAT_drive (.inl (by decide))]

theorem State.InTick.entitled (h : s.InTick p) : s.entitled = p.entitled := by
  rw [State.entitled, State.entitled, h.paired, h.mode, h.held F.RED_STAT_drive (.inl (by decide)),
    h.held F.RED_STAT_sense (.inl (by decide))]

theorem State.InTick.pairRefuses (h : s.InTick p) : s.pairRefuses = p.pairRefuses := by
  rw [State.pairRefuses, State.pairRefuses, h.fbHeld (x := F.RED_STAT_sig_match) (.inl (by decide)),
    h.fbHeld (x := F.RED_FLAGS_side_clash) (.inr (by decide)), State.mirrorTooLate, State.mirrorTooLate,
    h.f (x := F.RED_TIMING_mirror_dly) (by unfold tickReg schedReg; decide),
    h.f (x := F.GLB_GATHER_DEADLINE_deadline_steps) (by unfold tickReg schedReg; decide)]

/-- A request is answered as before the tick. -/
theorem State.InTick.requestResult (h : s.InTick p) (target : Nat) (fwd : Bool) : s.requestResult target fwd = p.requestResult target fwd := by
  have hmap : s.fb F.GLB_MAP_STAT_map_valid = p.fb F.GLB_MAP_STAT_map_valid :=
    h.fb (x := F.GLB_MAP_STAT_map_valid) (by unfold tickReg schedReg; decide)
  simp only [State.requestResult, h.mode, hmap, h.sameMap.lanesInUse, h.musterDone, h.lockedOut, h.energisedAny, h.ctl, h.entitled,
    h.causeActive, h.anyArmLow, h.paired, h.pairRefuses]

theorem State.InTick.uncritical (h : s.InTick p) (hp : p.Uncritical) : s.Uncritical := fun tc htc =>
  (h.fb (x := F.SCH_TC_CFG_crit tc) (by
    simp only [tickReg, schedReg, F.SCH_TC_CFG_crit, R.SCH_TC_CFG, R.TIM_STAT, R.GLB_MS_GATHER, R.GLB_MS_PLAN, R.WIN_UNIT_STAT,
      R.RED_CNT, R.RED_STAT, R.RED_FLAGS]
    omega)).trans (hp tc htc)

end

end Sys2Proof.Machine
end

section
/-! SUPPORT. The tick up to the evaluation of its requests (R24, R46). -/

namespace Sys2Proof.Machine

theorem State.advanceTo_rd (s : State) (ns : Nat) {off : Nat} (h : off ≠ R.TIM_STAT) : (s.advanceTo ns).rd off = s.rd off := by
  unfold State.advanceTo State.advanceToU State.cycles
  split
  · split
    · exact s.slewAfter_rd _ h
    · rfl
  · rfl

section
variable {s t p : State}

/-! ### Time, and the sets that wait -/

theorem State.inTick_advanceTo (p : State) : (p.advanceTo (p.boundary p.seq.next)).InTick p := by
  have hframe := p.advanceTo_timeOnly (p.boundary p.seq.next)
  have hrd {off : Nat} (ho : off ≠ R.TIM_STAT) := p.advanceTo_rd (p.boundary p.seq.next) ho
  have hcyc : (p.advanceTo (p.boundary p.seq.next)).cyc = p.tickCyc := rfl
  generalize p.advanceTo (p.boundary p.seq.next) = t at *
  have hregs : ∀ off, ¬ tickReg off → t.rd off = p.rd off := fun off ho => hrd fun he => ho (.inl he)
  have hheld : ∀ x : Fld, x.held → t.f x = p.f x := fun x hx =>
    State.f_of_rd (hrd (hx.ne (by decide) (by decide)))
  rw [State.TimeOnly] at hframe
  generalize t.now = now at hframe
  generalize t.cyc = cyc at hframe hcyc
  generalize t.tim = tim at hframe
  generalize t.regs = regs at hframe
  subst hframe
  exact ⟨rfl, rfl, rfl, rfl, fun _ => rfl, rfl, rfl, rfl, id, id, hcyc, List.prefix_rfl, hregs, hheld⟩

theorem tickReg_assign {i j : Nat} (hi : 50 ≤ i) (hj : j < 64) : tickReg (R.NCL_ASSIGN i j) ∧ tickReg (R.NCL_ASSIGN_W i j) := by
  simp only [tickReg, R.NCL_ASSIGN, R.NCL_ASSIGN_W]
  omega

theorem tickReg_lstat {l : Nat} (hl : 50 ≤ l) : tickReg (R.NCL_LSTAT l) := by
  simp only [tickReg, R.NCL_LSTAT]
  omega

/-- A set of a lane past the last of the map shows its delay past the last cell of the map. -/
theorem State.InTick.showAssigned {l : Nat} {d : TxSet} (h : s.InTick p) (hl : 50 ≤ l) : (s.showAssigned l d).InTick p := by
  have hchain : s.isChain l = false := by simp [State.isChain, show ¬ l < 48 by omega]
  unfold State.showAssigned State.showU State.showW
  simp only [hchain, Bool.false_eq_true, if_false]
  generalize bitsOf d.payload 26 20 = pos
  have hreg := tickReg_assign (i := (l * 64 + pos) / 64) (j := (l * 64 + pos) % 64) (by omega) (by omega)
  exact .ite (h.wr hreg.2 (by simp only [R.NCL_ASSIGN_W, R.RED_STAT]; omega) (by simp only [R.NCL_ASSIGN_W, R.RED_FLAGS]; omega))
    (h.wr hreg.1 (by simp only [R.NCL_ASSIGN, R.RED_STAT]; omega) (by simp only [R.NCL_ASSIGN, R.RED_FLAGS]; omega))

theorem State.InTick.assignSent {l a : Nat} (h : s.InTick p) (hl : 50 ≤ l) : (s.assignSent l a).InTick p := by
  have hs : R.NCL_LSTAT l ≠ R.RED_STAT := by simp only [R.NCL_LSTAT, R.RED_STAT]; omega
  have hf : R.NCL_LSTAT l ≠ R.RED_FLAGS := by simp only [R.NCL_LSTAT, R.RED_FLAGS]; omega
  unfold State.assignSent
  exact ((h.setF (tickReg_lstat hl) hs hf).setF (tickReg_lstat hl) hs hf).modLane fun _ => rfl

theorem State.InTick.flushOne {l : Nat} (h : s.InTick p) (hl : 50 ≤ l) : (s.flushOne l).InTick p := by
  unfold State.flushOne
  extract_lets +onlyGivenNames x
  split
  · exact h
  · extract_lets a _ _ t1 t2
    have h1 : t1.InTick p := h.modLane fun _ => rfl
    have h2 : t2.InTick p := .ite (h1.showAssigned hl) h1
    exact .ite (.ite (h2.assignSent hl) h2) h

theorem State.InTick.flushSets (h : s.InTick p) (hdue : ∀ l < 50, (s.lane l).tx.due = []) : s.flushSets.InTick p := by
  unfold State.flushSets
  refine h.forEach fun l hl t ht => ?_
  have hl' : 50 ≤ l := by
    by_contra hlt
    simp [hdue l (by omega)] at hl
  exact List.foldlRecOn (motive := fun u : State => u.InTick p) _ _ ht fun u hu _ _ => hu.flushOne hl'

/-! ### The statistics and the beginning of the period -/

theorem State.InTick.periodStats (h : s.InTick p) : s.periodStats.InTick p := by
  unfold State.periodStats
  extract_lets +onlyGivenNames s1 s2
  have h1 : s1.InTick p := by
    unfold s1
    split
    · exact h
    · exact (h.setF (.inr (.inr (.inl rfl))) (by decide) (by decide)).putWorst (.inr (.inr (.inl rfl))) (by decide) (by decide)
  have h2 : s2.InTick p := by
    unfold s2
    split
    · exact h1
    · exact (h1.setF (.inr (.inr (.inr (.inl rfl)))) (by decide) (by decide)).putWorst (.inr (.inr (.inr (.inl rfl)))) (by decide) (by decide)
  refine h2.forEach fun u hu t ht => ?_
  have hu' : u < 6 := List.mem_range.mp hu
  have hreg : tickReg (R.WIN_UNIT_STAT u) := by
    simp only [tickReg, R.WIN_UNIT_STAT]
    omega
  have hs : R.WIN_UNIT_STAT u ≠ R.RED_STAT := by simp only [R.WIN_UNIT_STAT, R.RED_STAT]; omega
  have hf : R.WIN_UNIT_STAT u ≠ R.RED_FLAGS := by simp only [R.WIN_UNIT_STAT, R.RED_FLAGS]; omega
  exact .same ((ht.setF hreg hs hf).putWorst hreg hs hf)

theorem State.InTick.periodBegin {n : Nat} (h : s.InTick p) : (s.periodBegin n).InTick p := by
  unfold State.periodBegin State.headerBegin State.grnWrite
  extract_lets +onlyGivenNames _ s1 _ _ s3
  have h1 : s1.InTick p := h.withSeq fun _ => rfl
  have h3 : s3.InTick p := .forEach h1.same fun _ _ _ ht => ht.modLane fun _ => rfl
  exact .ite h3.same h3

/-! ### The pair -/

theorem State.InTick.mark {y : Fld} (h : s.InTick p) (hy : y.stepped) : (s.mark y).InTick p := (h.step hy).note

theorem State.InTick.pairStatus (h : s.InTick p) : s.pairStatus.InTick p := by
  have hrun : F.RED_STAT_match_run.stepped := ⟨⟨by decide, by decide⟩, .inl (by decide)⟩
  have hlost : F.RED_FLAGS_partner_lost.stepped := ⟨⟨by decide, by decide⟩, .inr (by decide)⟩
  have hmiss : tickReg F.RED_CNT_status_miss.off := by unfold tickReg schedReg; decide
  unfold State.pairStatus
  extract_lets +onlyGivenNames s1 s2
  have h1 : s1.InTick p := .ite h (h.step hrun)
  have h2 : s2.InTick p := .modPair (h1.setF hmiss (by decide) (by decide)).note rfl id
  exact .ite (h1.modPair rfl id) (.ite (.modPair (h2.mark hlost).raise rfl id) h2)

theorem State.InTick.pairStep (h : s.InTick p) : s.pairStep.InTick p := by
  have hin : F.RED_STAT_in_step.stepped := ⟨⟨by decide, by decide⟩, .inl (by decide)⟩
  have hel : F.RED_STAT_eligible.stepped := ⟨⟨by decide, by decide⟩, .inl (by decide)⟩
  exact .ite (h.step hin) ((h.step hin).step hel)

theorem State.pairStatus_due (s : State) : s.pairStatus.pair.handoverDue = s.pair.handoverDue := by
  unfold State.pairStatus
  extract_lets s1 s2
  have h1 : s1.pair = s.pair := by
    unfold s1
    split <;> simp
  clear_value s1
  have h2 : s2.pair.handoverDue = s.pair.handoverDue := by simp [s2, State.modPair, h1]
  clear_value s2
  split
  · simp [State.modPair, h1]
  · split
    · simpa [State.modPair] using h2
    · exact h2

theorem State.pairStep_pair (s : State) : s.pairStep.pair = s.pair := by
  unfold State.pairStep
  extract_lets _ _ _ _ s1
  have h1 : s1.pair = s.pair := by simp [s1]
  clear_value s1
  split
  · exact h1
  · simpa using h1

theorem State.InTick.pairHandover (h : s.InTick p) (hdue : s.pair.handoverDue = false) : s.pairHandover.InTick p := by
  unfold State.pairHandover
  simp only [hdue, Bool.false_and, Bool.false_eq_true, if_false]
  exact h.modPair rfl id

/-- No captured entry is left where none waited. -/
theorem State.InTick.pairPeriod {was : Bool} (h : s.InTick p) (hdue : s.paired = true → s.pair.handoverDue = false) :
    (s.pairPeriod was).InTick p := by
  unfold State.pairPeriod
  extract_lets s1 s2
  have h1 : s1.InTick p := h.modPair rfl fun hw => by
    obtain ⟨hdef, hlast, hnow⟩ := hw
    exact ⟨hdef, by simp [hlast, hnow], rfl⟩
  have hdue1 : s1.paired = true → s1.pair.handoverDue = false := hdue
  clear_value s1
  split
  · next hp =>
    have h2 : s2.InTick p := .ite h1.pairStatus h1
    have hdue2 : s2.pair.handoverDue = false := by
      unfold s2
      split
      · exact s1.pairStatus_due.trans (hdue1 hp)
      · exact hdue1 hp
    refine (h2.pairStep.pairHandover (by rw [State.pairStep_pair, hdue2])).modPair rfl fun hw => ?_
    obtain ⟨hdef, hlast, hnow⟩ := hw
    exact ⟨by split; exacts [hdef, rfl], hlast, hnow⟩
  · exact h1

/-! ### What leaves the pair alone -/

theorem State.pair_forEach {is : List Nat} {g : State → Nat → State} (h : t.pair = p.pair)
    (hg : ∀ {u : State} {i : Nat}, u.pair = p.pair → (g u i).pair = p.pair) : (t.forEach is g).pair = p.pair :=
  List.foldlRecOn (motive := fun u : State => u.pair = p.pair) is g h fun _ hu _ _ => hg hu

/-- A set that leaves changes its lane and the registers alone. -/
theorem State.flushOne_keeps (s : State) (l : Nat) : (s.flushOne l).pair = s.pair ∧ (s.flushOne l).seq = s.seq := by
  unfold State.flushOne State.showAssigned State.assignSent State.showU State.showW
  extract_lets _
  split
  · exact ⟨rfl, rfl⟩
  · extract_lets _ _ _ t1 _ _ t2
    have h2 : t2.pair = s.pair ∧ t2.seq = s.seq := by
      unfold t2
      split
      · split <;> exact ⟨rfl, rfl⟩
      · exact ⟨rfl, rfl⟩
    split
    · split
      · simpa using h2
      · exact h2
    · exact ⟨rfl, rfl⟩

theorem State.flushSets_keeps (s : State) : s.flushSets.pair = s.pair ∧ s.flushSets.seq = s.seq := by
  have hlane (u : State) (l : Nat) : (u.flushLane l).pair = u.pair ∧ (u.flushLane l).seq = u.seq :=
    List.foldlRecOn (motive := fun v : State => v.pair = u.pair ∧ v.seq = u.seq) _ _ ⟨rfl, rfl⟩ fun v ⟨hpair, hseq⟩ _ _ =>
      ⟨(v.flushOne_keeps l).1.trans hpair, (v.flushOne_keeps l).2.trans hseq⟩
  exact List.foldlRecOn (motive := fun v : State => v.pair = s.pair ∧ v.seq = s.seq) _ _ ⟨rfl, rfl⟩ fun v ⟨hpair, hseq⟩ l _ =>
    ⟨(hlane v l).1.trans hpair, (hlane v l).2.trans hseq⟩

theorem State.periodStats_pair (s : State) : s.periodStats.pair = s.pair := by
  have hworst (u : State) (x : Fld) (v : Nat) : (u.putWorst x v).pair = u.pair := by
    unfold State.putWorst
    split <;> rfl
  unfold State.periodStats
  extract_lets s1 s2
  have h1 : s1.pair = s.pair := by
    unfold s1
    split
    exacts [rfl, (hworst ..).trans (by simp)]
  have h2 : s2.pair = s.pair := by
    unfold s2
    split
    exacts [h1, (hworst ..).trans (by simpa using h1)]
  exact State.pair_forEach h2 fun hu => (hworst ..).trans (by simpa using hu)

theorem State.grnWrite_pair (s : State) (a : Nat) (bs : List Byte) : (s.grnWrite a bs).pair = s.pair := by
  unfold State.grnWrite
  split <;> rfl

theorem State.headerBegin_pair (s : State) (n : Nat) : (s.headerBegin n).pair = s.pair := State.grnWrite_pair ..

theorem State.periodBegin_pair (s : State) (n : Nat) : (s.periodBegin n).pair = s.pair :=
  (State.headerBegin_pair ..).trans (State.pair_forEach (p := s) rfl fun hu => hu)

end

end Sys2Proof.Machine
end

section
/-! SUPPORT. What the table of mode changes answers, and what an answer leaves (R45 to R50). -/

namespace Sys2Proof.Machine

section
variable {s t u p s₀ : State} {dest : Mode} {target reason cause : Nat} {fwd : Bool}

/-! ### A refusal (R48) -/

/-- `t` has come from `s` by a refusal, and nothing that the refusal is no part of is lost. -/
structure State.Declines (s t : State) (target reason : Nat) : Prop where
  mode : t.mode = s.mode
  reason : t.f F.GLB_MODE_LOG_refuse_reason = reason
  target : t.f F.GLB_MODE_LOG_refused_target = target
  told : .modeRefused ∈ s.raised t
  request : t.ctl.request = s.ctl.request
  limit : t.sched.limitHit = s.sched.limitHit
  mbox : t.hif.mboxGo = s.hif.mboxGo
  waits : s.NoneWaits → t.NoneWaits

theorem State.Declines.stays (h : s.Declines t target reason) (hu : u.Stays t) : s.Declines u target reason where
  mode := hu.mode.trans h.mode
  reason := (State.f_of_rd (x := F.GLB_MODE_LOG_refuse_reason) (hu.low _ (by decide))).trans h.reason
  target := (State.f_of_rd (x := F.GLB_MODE_LOG_refused_target) (hu.low _ (by decide))).trans h.target
  told := State.mem_raised_of_grown hu.events h.told
  request := hu.request.trans h.request
  limit := hu.limit.trans h.limit
  mbox := hu.mbox.trans h.mbox
  waits := hu.waits ∘ h.waits

theorem refuse_reason_ok : F.GLB_MODE_LOG_refuse_reason.ok := ⟨by decide, by decide⟩

theorem refused_target_ok : F.GLB_MODE_LOG_refused_target.ok := ⟨by decide, by decide⟩

/-- What a refusal shows. -/
theorem State.refuseMode_log (s : State) (target : Nat) (hreason : reason < 256) :
    (s.refuseMode target reason).f F.GLB_MODE_LOG_refuse_reason = reason
      ∧ (s.refuseMode target reason).f F.GLB_MODE_LOG_refused_target = target % 16 := by
  have hr : (s.setF F.GLB_MODE_LOG_refuse_reason reason).f F.GLB_MODE_LOG_refuse_reason = reason := s.f_setF_value refuse_reason_ok hreason
  unfold State.refuseMode
  generalize s.setF F.GLB_MODE_LOG_refuse_reason reason = u at *
  have hu : (u.setF F.GLB_MODE_LOG_refused_target target).f F.GLB_MODE_LOG_refuse_reason = reason :=
    (u.f_setF_apart _ F.GLB_MODE_LOG_refuse_reason _ refused_target_ok (.inr (.inr (by decide)))).trans hr
  have ht : (u.setF F.GLB_MODE_LOG_refused_target target).f F.GLB_MODE_LOG_refused_target = target % 16 := u.f_setF_same _ _ refused_target_ok
  generalize u.setF F.GLB_MODE_LOG_refused_target target = v at *
  have hregs : (v.raise .modeRefused target reason 0).regs = v.regs := by simp
  exact ⟨(State.f_of_regs hregs _).trans hu, (State.f_of_regs hregs _).trans ht⟩

theorem State.refuseMode_frame (s : State) (target reason : Nat) :
    (s.refuseMode target reason).mode = s.mode ∧ (s.refuseMode target reason).ctl = s.ctl ∧ (s.refuseMode target reason).sched = s.sched
      ∧ (s.refuseMode target reason).hif = s.hif ∧ (s.refuseMode target reason).pair = s.pair ∧ (s.refuseMode target reason).seq = s.seq
      ∧ (s.refuseMode target reason).cyc = s.cyc := by
  simp [State.refuseMode]

theorem State.raised_refuseMode (h : t.events = s.events) (target reason : Nat) : s.raised (t.refuseMode target reason) = [.modeRefused] :=
  State.raised_raise (by simpa using h) ..

theorem State.refuseMode_declines (s : State) (htarget : target < 16) (hreason : reason < 256) :
    s.Declines (s.refuseMode target reason) target reason := by
  obtain ⟨hr, ht⟩ := s.refuseMode_log target hreason
  obtain ⟨hmode, hctl, hsched, hhif, hpair, -⟩ := s.refuseMode_frame target reason
  have htold := State.raised_refuseMode (s := s) rfl target reason
  rw [Nat.mod_eq_of_lt htarget] at ht
  generalize s.refuseMode target reason = v at *
  exact ⟨hmode, hr, ht, htold ▸ List.mem_singleton_self _, by rw [hctl], by rw [hsched], by rw [hhif],
    by unfold State.NoneWaits; rw [hpair]; exact id⟩

/-! ### The evaluation -/

theorem State.evalRequest_tripped (h : s.trippedNow = true) : s.evalRequest target cause fwd = s.refuseMode target 8 := if_pos h

theorem State.evalRequest_refused (ht : s.trippedNow = false) (hr : s.requestResult target fwd = .error reason) (htarget : target < 16)
    (hreason : reason < 256) : s.Declines (s.evalRequest target cause fwd) target reason := by
  have h := s.refuseMode_declines htarget hreason
  unfold State.evalRequest
  simp only [ht, hr, Bool.false_eq_true, if_false]
  exact h.stays (.ite (State.Stays.refl _).raise (.refl _))

theorem State.evalRequest_taken (ht : s.trippedNow = false) (hr : s.requestResult target fwd = .ok dest) (hm : dest ≠ .muster)
    (hq : s.QuietEntry dest) : s.Enters (s.evalRequest target cause fwd) s.mode dest cause := by
  have h := State.enterMode_enters cause hm hq
  unfold State.evalRequest
  simp only [ht, hr, Bool.false_eq_true, if_false]
  generalize s.enterMode dest cause = v at *
  have hv : { v with undo := some s.undoOf }.Stays v := (State.Stays.refl v).same
  exact h.stays (hv.withCtl rfl rfl)

/-! ### The table -/

/-- The ways out are taken. -/
theorem State.requestResult_wayOut (hent : s.mode.fromMuster = true → s.entitled = true) {w : Mode × Nat × Prop × Mode} (hw : w ∈ s.wayOut)
    (hmode : s.mode = w.1) (hc : w.2.2.1) : s.requestResult w.2.1 fwd = .ok w.2.2.2 := by
  simp only [State.wayOut, List.mem_cons, List.not_mem_nil, or_false] at hw
  rcases hw with rfl | rfl | rfl | rfl | rfl | rfl | rfl | rfl | rfl | rfl | rfl | rfl | rfl | rfl <;>
    simp_all [State.requestResult, Mode.fromMuster]

/-- The refusals of R48 are answered with their reasons. -/
theorem State.requestResult_refusal (hent : s.mode.fromMuster = true → s.entitled = true) {w : Mode × Nat × Prop × Nat} (hw : w ∈ s.refusal)
    (hmode : s.mode = w.1) (hc : w.2.2.1) : s.requestResult w.2.1 fwd = .error w.2.2.2 := by
  simp only [State.refusal, List.mem_cons, List.not_mem_nil, or_false] at hw
  rcases hw with rfl | rfl | rfl | rfl | rfl | rfl | rfl | rfl <;> simp_all [State.requestResult, Mode.fromMuster]
  rcases hc with hc | hc <;> simp [hc]

theorem State.wayOut_dest {w : Mode × Nat × Prop × Mode} (hw : w ∈ s.wayOut) :
    w.2.2.2 ≠ .muster ∧ (s.mode = w.1 → s.Uncritical ∨ s.seq.running = false → s.QuietEntry w.2.2.2) := by
  simp only [State.wayOut, List.mem_cons, List.not_mem_nil, or_false] at hw
  rcases hw with rfl | rfl | rfl | rfl | rfl | rfl | rfl | rfl | rfl | rfl | rfl | rfl | rfl | rfl <;>
    simp +contextual [State.QuietEntry, Mode.fromMuster, or_comm]

theorem State.refusal_small {w : Mode × Nat × Prop × Nat} (hw : w ∈ s.refusal) : w.2.1 < 16 ∧ w.2.2.2 < 256 := by
  simp only [State.refusal, List.mem_cons, List.not_mem_nil, or_false] at hw
  rcases hw with rfl | rfl | rfl | rfl | rfl | rfl | rfl | rfl <;> simp

/-- Any other target is refused with reason 1. -/
theorem State.requestResult_other (hno : ∀ w ∈ s.wayOut, ¬ (s.mode = w.1 ∧ target = w.2.1)) (hsh : s.mode = .shadow → target ≠ 7) :
    s.requestResult target fwd = .error 1 := by
  simp only [State.wayOut, List.forall_mem_cons] at hno
  unfold State.requestResult
  split <;> simp_all

end

end Sys2Proof.Machine
end

section
/-! SUPPORT. Where requests are evaluated: while the sequencer is stopped, and at the boundary (R46, R350). -/

namespace Sys2Proof.Machine

/-- No overrun trip is due and nothing waits. -/
def State.Calm (s : State) : Prop := s.sched.limitHit = false ∧ s.hif.mboxGo = none ∧ s.NoneWaits

/-- A state whose pending request is taken up for evaluation. -/
def State.noRequest (s : State) : State := { s with ctl := { s.ctl with request := none } }

/-- A state whose pair's request is taken up for evaluation. -/
def State.noPairRequest (s : State) : State := s.modPair fun p => { p with request := none }

section
variable {s t u q : State} {old dest : Mode} {target reason cause c : Nat} {fwd : Bool}

theorem State.Enters.calm (h : s.Enters t old dest cause) (hs : s.Calm) : t.Calm := by
  obtain ⟨hlimit, hmbox, hwaits⟩ := hs
  exact ⟨h.limit.trans hlimit, h.mbox.trans hmbox, h.waits hwaits⟩

theorem State.Declines.calm (h : s.Declines t target reason) (hs : s.Calm) : t.Calm := by
  obtain ⟨hlimit, hmbox, hwaits⟩ := hs
  exact ⟨h.limit.trans hlimit, h.mbox.trans hmbox, h.waits hwaits⟩

theorem State.Stays.calm (h : t.Stays s) (hs : s.Calm) : t.Calm := by
  obtain ⟨hlimit, hmbox, hwaits⟩ := hs
  exact ⟨h.limit.trans hlimit, h.mbox.trans hmbox, h.waits hwaits⟩

theorem State.Calm.settle (h : s.Calm) : s.settle.Stays s := by
  obtain ⟨hlimit, hmbox, hwaits⟩ := h
  exact State.settle_stays hlimit hmbox hwaits

theorem State.Alone.calm (h : s.Alone) : s.Calm := by
  obtain ⟨hmbox, hlimit, -, hdeferred, hlast, hnow⟩ := h
  exact ⟨hlimit, hmbox, hdeferred, hlast, hnow⟩

/-- A change of mode, seen from a state whose mode it leaves and whose events still stand. -/
theorem State.Enters.changesTo (h : q.Enters t s.mode dest cause) (hevents : s.events <+: q.events) (hcause : cause < 256) :
    s.ChangesTo (.next t) dest cause := by
  obtain ⟨hfrom, hto, hlog⟩ := h.logged hcause
  exact ⟨t, rfl, h.mode, hfrom, hto, hlog, State.mem_raised_of_later hevents h.change⟩

/-- A refusal, seen from a state in whose mode it stays and whose events still stand. -/
theorem State.Declines.refuses (h : q.Declines t target reason) (hmode : q.mode = s.mode) (hevents : s.events <+: q.events)
    (hrequest : q.ctl.request = none) : s.Refuses (.next t) target reason :=
  ⟨t, rfl, h.mode.trans hmode, h.request.trans hrequest, h.reason, h.target, State.mem_raised_of_later hevents h.told⟩

theorem State.noRequest_result (s : State) (target : Nat) (fwd : Bool) :
    s.noRequest.requestResult target fwd = s.requestResult target fwd := rfl

/-! ### With the sequencer stopped -/

/-- A request that waits while the sequencer is stopped is evaluated. -/
theorem exec_modeRequestEval (hlive : s.live = true) (hreq : s.ctl.request.map (fun r => (r.target, r.forwarded)) = some (c, false))
    (hrun : s.seq.running = false) (hdiag : s.mode = .diagnostic → s.fb F.GLB_DIAG_CTL_seq_run = false) :
    exec .modeRequestEval s = .next (s.noRequest.evalRequest c 3 false).settle := by
  obtain ⟨r, hr, hrc⟩ := Option.map_eq_some_iff.mp hreq
  have htarget : r.target = c := congrArg Prod.fst hrc
  have hgo : (s.seq.running || (s.mode == .diagnostic && s.fb F.GLB_DIAG_CTL_seq_run)) = false := by
    by_cases hm : s.mode = .diagnostic
    · simp [hrun, hdiag hm]
    · simp [hrun, hm]
  simp only [exec, execModeRequestEval, hlive, if_true, State.evalNow, hr, hgo, Bool.false_eq_true, if_false, htarget]
  rfl

theorem State.trippedNow_noRequest (s : State) : s.noRequest.trippedNow = s.trippedNow := rfl

theorem State.Alone.calm_noRequest (h : s.Alone) : s.noRequest.Calm := h.calm

theorem modeRequestEval_taken (h : s.Asked c) {w : Mode × Nat × Prop × Mode} (hw : w ∈ s.wayOut) (hc : w.2.1 = c) (hmode : s.mode = w.1)
    (hcond : w.2.2.1) : s.ChangesTo (exec .modeRequestEval s) w.2.2.2 3 := by
  obtain ⟨hlive, hreq, hrun, hdiag, htrip, hpaired, halone⟩ := h
  obtain ⟨hdest, hquiet⟩ := State.wayOut_dest hw
  have hresult : s.noRequest.requestResult c false = .ok w.2.2.2 := by
    rw [State.noRequest_result, ← hc]
    exact State.requestResult_wayOut (by simp [State.entitled, hpaired]) hw hmode hcond
  have he := State.evalRequest_taken (cause := 3) ((s.trippedNow_noRequest).trans htrip) hresult hdest (hquiet hmode (.inr hrun))
  rw [exec_modeRequestEval hlive hreq hrun hdiag]
  exact (he.stays (he.calm halone.calm_noRequest).settle).changesTo List.prefix_rfl (by decide)

/-- An evaluation that refuses, whatever for. -/
theorem modeRequestEval_declines (hlive : s.live = true) (hreq : s.ctl.request.map (fun r => (r.target, r.forwarded)) = some (c, false))
    (hrun : s.seq.running = false) (hdiag : s.mode = .diagnostic → s.fb F.GLB_DIAG_CTL_seq_run = false) (halone : s.Alone)
    (hd : s.noRequest.Declines (s.noRequest.evalRequest c 3 false) c reason) : s.Refuses (exec .modeRequestEval s) c reason := by
  rw [exec_modeRequestEval hlive hreq hrun hdiag]
  exact (hd.stays (hd.calm halone.calm_noRequest).settle).refuses rfl List.prefix_rfl rfl

theorem modeRequestEval_refused (h : s.Asked c) (hc : c < 16) (hreason : reason < 256) (hresult : s.requestResult c false = .error reason) :
    s.Refuses (exec .modeRequestEval s) c reason := by
  obtain ⟨hlive, hreq, hrun, hdiag, htrip, -, halone⟩ := h
  exact modeRequestEval_declines hlive hreq hrun hdiag halone
    (State.evalRequest_refused ((s.trippedNow_noRequest).trans htrip) ((s.noRequest_result c false).trans hresult) hc hreason)

theorem modeRequestEval_tripped (hlive : s.live = true) (hreq : s.ctl.request.map (fun r => (r.target, r.forwarded)) = some (c, false))
    (hc : c < 16) (hrun : s.seq.running = false) (hmode : s.mode = .safeBlock) (htrip : s.trippedNow = true) (halone : s.Alone) :
    s.Refuses (exec .modeRequestEval s) c 8 := by
  refine modeRequestEval_declines hlive hreq hrun (by simp [hmode]) halone ?_
  rw [State.evalRequest_tripped ((s.trippedNow_noRequest).trans htrip)]
  exact State.refuseMode_declines _ hc (by decide)

theorem modeRequestEval_idle (hreq : s.ctl.request = none) (hsettled : s.Settled) :
    ∃ t, exec .modeRequestEval s = .next t ∧ t.mode = s.mode ∧ t.regs = s.regs ∧ t.events = s.events := by
  obtain ⟨hregs, hevents, -, -, hmode⟩ := hsettled.settle_rest
  cases hlive : s.live with
  | false => exact ⟨s, by simp [exec, execModeRequestEval, hlive], rfl, rfl, rfl⟩
  | true => exact ⟨s.settle, by simp [exec, execModeRequestEval, hlive, State.evalNow, hreq], hmode, hregs, hevents⟩

/-! ### At the boundary -/

theorem State.TickClear.calm (h : s.TickClear) : s.Calm := by
  obtain ⟨-, -, -, halone, -⟩ := h
  exact halone.calm

theorem State.InTick.calm (h : q.InTick s) (hs : s.Calm) : q.Calm := by
  obtain ⟨hlimit, hmbox, hwaits⟩ := hs
  exact ⟨h.limit.trans hlimit, h.mbox.trans hmbox, h.waits hwaits⟩

/-- Where the entitlement fits the mode, no change of it moves the device (R337). -/
theorem State.entitlementMode_fits {ent : Bool} (hrun : s.mode = .run → ent = true) (hshadow : s.mode = .shadow → ent = false) :
    s.entitlementMode ent = s := by
  unfold State.entitlementMode
  split
  · next h => simp [hrun h]
  · next h => simp [hshadow h]
  · rfl

/-- The tick up to the evaluation. -/
theorem State.InTick.tick {r : State} {n : Nat} (h : r.InTick s) (hcalm : s.Calm) (hcrit : s.Uncritical)
    (hdue : s.paired = true → r.pair.handoverDue = false)
    (hrun : s.mode = .run → s.entitled = true) (hshadow : s.mode = .shadow → s.entitled = false) :
    ∃ q : State, q.InTick s ∧ r.tick n
      = if q.evalBoundary.overrunTrip.seq.running then q.evalBoundary.overrunTrip.periodWork else q.evalBoundary.overrunTrip := by
  unfold State.tick
  extract_lets ent was s1 s2 s3
  have h1 : s1.InTick s := .ite h.periodStats h
  have hpair1 : s1.pair = r.pair := by
    unfold s1
    split
    exacts [r.periodStats_pair, rfl]
  have hb : (s1.periodBegin n).InTick s := h1.periodBegin
  have h2 : s2.InTick s := hb.pairPeriod fun hp => by
    rw [State.periodBegin_pair, hpair1]
    exact hdue (hb.paired ▸ hp)
  have hsched : s2.schedPeriod.InTick s := .of_scheduled ((State.Scheduled.refl s2).schedPeriod (h2.uncritical hcrit)) h2
  have hidle : s2.schedPeriod.overrunTrip = s2.schedPeriod := State.overrunTrip_idle (hsched.calm hcalm).1
  have hstay : s2.schedPeriod.entitlementMode ent = s2.schedPeriod :=
    State.entitlementMode_fits (fun hm => h.entitled.trans (hrun (hsched.mode ▸ hm))) fun hm => h.entitled.trans (hshadow (hsched.mode ▸ hm))
  refine ⟨s2.schedPeriod, hsched, ?_⟩
  unfold s3
  rw [hidle, hstay]

/-- A tick that runs on evaluates its requests in a state of the tick, and what follows the evaluation is no change of mode. -/
theorem State.TickClear.reaches (h : s.TickClear) (hdue : s.paired = true → s.pair.handoverDue = false)
    (hrun : s.mode = .run → s.entitled = true) (hshadow : s.mode = .shadow → s.entitled = false) :
    ∃ q : State, q.InTick s ∧ q.Calm ∧ (q.evalBoundary.Calm → ∃ t, exec .periodTick s = .next t ∧ t.Stays q.evalBoundary) := by
  have hcalm := h.calm
  obtain ⟨hlive, hgoes, hstop, -, hdues, hcrit⟩ := h
  have ha := s.inTick_advanceTo
  have hframe := s.advanceTo_timeOnly (s.boundary s.seq.next)
  have hbefore : (s.advanceTo (s.boundary s.seq.next)).pair = s.pair ∧ (s.advanceTo (s.boundary s.seq.next)).lanes = s.lanes
      ∧ (s.advanceTo (s.boundary s.seq.next)).seq = s.seq := by
    rw [hframe]
    exact ⟨rfl, rfl, rfl⟩
  have hexec (hs : (s.advanceTo (s.boundary s.seq.next)).flushSets.catchUp.seq.stopPend = false) : exec .periodTick s
      = .next (((s.advanceTo (s.boundary s.seq.next)).flushSets.catchUp.tick s.seq.next).lateRequests.settle) := by
    simp [exec, execPeriodTick, hlive, hgoes, hs]
  generalize s.advanceTo (s.boundary s.seq.next) = a at *
  obtain ⟨hpair, hlanes, hseq⟩ := hbefore
  have hflush : a.flushSets.InTick s := ha.flushSets fun l hl => by
    rw [State.lane, hlanes]
    exact hdues l hl
  have hcatch : a.flushSets.catchUp.Scheduled a.flushSets := (State.Scheduled.refl _).catchUp
  have hpair' : a.flushSets.catchUp.pair = s.pair := by rw [hcatch.frame, a.flushSets_keeps.1, hpair]
  have hseq' : a.flushSets.catchUp.seq = s.seq := by rw [hcatch.frame, a.flushSets_keeps.2, hseq]
  obtain ⟨q, hq, htick⟩ := (State.InTick.of_scheduled hcatch hflush).tick (n := s.seq.next) hcalm hcrit (fun hp => by rw [hpair', hdue hp])
    hrun hshadow
  refine ⟨q, hq, hq.calm hcalm, fun hc => ?_⟩
  have hexec' := hexec (by rw [hseq', hstop])
  rw [htick, State.overrunTrip_idle hc.1] at hexec'
  have hwork : (if q.evalBoundary.seq.running then q.evalBoundary.periodWork else q.evalBoundary).lateRequests.Stays q.evalBoundary :=
    State.Stays.lateRequests (.ite (State.Stays.refl _).periodWork (.refl _))
  exact ⟨_, hexec', (hwork.calm hc).settle.trans hwork⟩

/-! ### The requests of a boundary -/

theorem State.evalBoundary_own {r : ModeReq} (hpair : s.pair.request = none) (hr : s.ctl.request = some r) (hfwd : r.forwarded = false)
    (hat : r.at_ ≠ s.cyc) : s.evalBoundary = s.noRequest.evalRequest r.target 3 false := by
  have hat' : (r.at_ == s.cyc) = false := by simpa using hat
  simp only [State.evalBoundary, hpair, hr, hfwd, hat', Bool.or_false, Bool.false_eq_true, if_false]
  rfl

theorem State.evalBoundary_waits {r : ModeReq} (hpair : s.pair.request = none) (hr : s.ctl.request = some r) (hat : r.at_ = s.cyc) :
    s.evalBoundary = s := by
  simp [State.evalBoundary, hpair, hr, hat]

theorem State.evalBoundary_pair (hpair : s.pair.request = some (c, 0)) (hr : s.ctl.request = none)
    (hafter : (s.noPairRequest.evalRequest c (if s.holder then 3 else 0x10) (!s.holder)).ctl.request = none) :
    s.evalBoundary = s.noPairRequest.evalRequest c (if s.holder then 3 else 0x10) (!s.holder) := by
  have hown : s.noPairRequest.ctl.request = none := hr
  have hholder : s.noPairRequest.holder = s.holder := rfl
  rw [← hholder] at hafter ⊢
  unfold State.evalBoundary
  simp only [hpair]
  rw [show s.modPair (fun p => { p with request := none }) = s.noPairRequest from rfl]
  simp only [hown, Option.any_none, Bool.false_eq_true, if_false, if_true, hafter]

end

end Sys2Proof.Machine
end

section
/-! SUPPORT. The answers of a period tick to the request that waits for it (R46, R350). -/

namespace Sys2Proof.Machine

section
variable {s q : State} {dest : Mode} {reason c : Nat}

theorem State.InTick.trippedNow (h : q.InTick s) : q.trippedNow = (s.mode == .safeBlock && s.ctl.blockedAt == some s.tickCyc) := by
  rw [State.trippedNow, h.mode, h.ctl, h.cyc]

theorem State.InTick.quietEntry (h : q.InTick s) (hs : s.TickClear) (hq : s.QuietEntry dest) : q.QuietEntry dest := by
  obtain ⟨-, hgoes, -, -, -, hcrit⟩ := hs
  rcases hq with hq | hq | hq | ⟨-, hc, hd⟩
  · exact .inl hq
  · exact .inr (.inl hq)
  · rw [hgoes] at hq
    cases hq
  · exact .inr (.inr (.inr ⟨h.uncritical hcrit, h.mode ▸ hc, h.mode ▸ hd⟩))

/-! ### The device's own request -/

/-- A request of the device's own that is evaluated at the tick. -/
theorem State.AskedAtTick.reaches (h : s.AskedAtTick c) (hshadow : s.mode ≠ .shadow) :
    ∃ q : State, q.InTick s ∧ q.Calm ∧ ((q.noRequest.evalRequest c 3 false).Calm →
      ∃ t, exec .periodTick s = .next t ∧ t.Stays (q.noRequest.evalRequest c 3 false)) := by
  obtain ⟨hclear, hpaired, hpair, hreq, hat⟩ := h
  obtain ⟨q, hq, hcalm, hnext⟩ := hclear.reaches (by simp [hpaired]) (fun hm => by simp [State.entitled, hpaired, hm, Mode.fromMuster])
    (fun hm => absurd hm hshadow)
  obtain ⟨r, hr, hrc⟩ := Option.map_eq_some_iff.mp hreq
  have htarget : r.target = c := congrArg Prod.fst hrc
  have hat' : r.at_ ≠ q.cyc := fun he => hat (by rw [hr, ← hq.cyc, ← he]; rfl)
  have heval := State.evalBoundary_own (s := q) (hq.request.trans hpair) (by rw [hq.ctl, hr]) (congrArg Prod.snd hrc) hat'
  rw [htarget] at heval
  rw [heval] at hnext
  exact ⟨q, hq, hcalm, hnext⟩

theorem periodTick_taken (h : s.AskedAtTick c) (hshadow : s.mode ≠ .shadow)
    (htrip : (s.mode == .safeBlock && s.ctl.blockedAt == some s.tickCyc) = false) (hresult : s.requestResult c false = .ok dest)
    (hm : dest ≠ .muster) (hquiet : s.QuietEntry dest) : s.ChangesTo (exec .periodTick s) dest 3 := by
  obtain ⟨q, hq, hcalm, hnext⟩ := h.reaches hshadow
  have he := State.evalRequest_taken (s := q.noRequest) (cause := 3) (hq.trippedNow.trans htrip)
    ((hq.requestResult c false).trans hresult) hm (hq.quietEntry h.1 hquiet)
  obtain ⟨t, ht, hstays⟩ := hnext (he.calm hcalm)
  have hmode : q.noRequest.mode = s.mode := hq.mode
  rw [ht]
  exact ((hmode ▸ he).stays hstays).changesTo hq.events (by decide)

theorem periodTick_declines (h : s.AskedAtTick c) (hshadow : s.mode ≠ .shadow)
    (hd : ∀ q : State, q.InTick s → q.noRequest.Declines (q.noRequest.evalRequest c 3 false) c reason) :
    s.Refuses (exec .periodTick s) c reason := by
  obtain ⟨q, hq, hcalm, hnext⟩ := h.reaches hshadow
  have hd' := hd q hq
  obtain ⟨t, ht, hstays⟩ := hnext (hd'.calm hcalm)
  rw [ht]
  exact (hd'.stays hstays).refuses hq.mode hq.events rfl

theorem periodTick_refused (h : s.AskedAtTick c) (hshadow : s.mode ≠ .shadow)
    (htrip : (s.mode == .safeBlock && s.ctl.blockedAt == some s.tickCyc) = false) (hc : c < 16) (hreason : reason < 256)
    (hresult : s.requestResult c false = .error reason) : s.Refuses (exec .periodTick s) c reason :=
  periodTick_declines h hshadow fun q hq => State.evalRequest_refused (s := q.noRequest) (hq.trippedNow.trans htrip)
    ((hq.requestResult c false).trans hresult) hc hreason

theorem periodTick_tripped (h : s.AskedAtTick c) (hc : c < 16) (hmode : s.mode = .safeBlock) (hblocked : s.ctl.blockedAt = some s.tickCyc) :
    s.Refuses (exec .periodTick s) c 8 :=
  periodTick_declines h (by simp [hmode]) fun q hq => by
    rw [State.evalRequest_tripped (s := q.noRequest) (hq.trippedNow.trans (by simp [hmode, hblocked]))]
    exact State.refuseMode_declines _ hc (by decide)

/-- A request written in the cycle of the tick waits for the next one. -/
theorem periodTick_waits {r : ModeReq} (hclear : s.TickClear) (hpaired : s.paired = false) (hpair : s.pair.request = none)
    (hr : s.ctl.request = some r) (hat : r.at_ = s.tickCyc) (hshadow : s.mode ≠ .shadow) :
    ∃ t, exec .periodTick s = .next t ∧ t.mode = s.mode ∧ t.ctl.request = some r := by
  obtain ⟨q, hq, hcalm, hnext⟩ := hclear.reaches (by simp [hpaired]) (fun hm => by simp [State.entitled, hpaired, hm, Mode.fromMuster])
    (fun hm => absurd hm hshadow)
  have hreq : q.ctl.request = some r := by rw [hq.ctl, hr]
  rw [State.evalBoundary_waits (hq.request.trans hpair) hreq (hat.trans hq.cyc.symm)] at hnext
  obtain ⟨t, ht, hstays⟩ := hnext hcalm
  exact ⟨t, ht, hstays.mode.trans hq.mode, hstays.request.trans hreq⟩

/-! ### A request that the pair has brought -/

theorem State.Forwarded.reaches (h : s.Forwarded c) (hrun : s.mode = .run → s.entitled = true) (hshadow : s.mode = .shadow → s.entitled = false) :
    ∃ q : State, q.InTick s ∧ q.Calm ∧ q.noPairRequest.ctl.request = none
      ∧ ((q.noPairRequest.evalRequest c (if s.holder then 3 else 0x10) (!s.holder)).Calm →
          (q.noPairRequest.evalRequest c (if s.holder then 3 else 0x10) (!s.holder)).ctl.request = none →
          ∃ t, exec .periodTick s = .next t ∧ t.Stays (q.noPairRequest.evalRequest c (if s.holder then 3 else 0x10) (!s.holder))) := by
  obtain ⟨hclear, hpaired, hdue, hpair, hreq⟩ := h
  obtain ⟨q, hq, hcalm, hnext⟩ := hclear.reaches (fun _ => hdue) hrun hshadow
  have hnone : q.ctl.request = none := by rw [hq.ctl, hreq]
  refine ⟨q, hq, hcalm, hnone, fun hc hr => ?_⟩
  rw [← hq.holder] at hc hr ⊢
  rw [State.evalBoundary_pair (hq.request.trans hpair) hnone hr] at hnext
  exact hnext hc

theorem forwarded_taken (h : s.Forwarded c) (hrun : s.mode = .run → s.entitled = true) (hshadow : s.mode = .shadow → s.entitled = false)
    (hmode : s.mode ≠ .safeBlock) (hresult : s.requestResult c (!s.holder) = .ok dest) (hm : dest ≠ .muster) (hquiet : s.QuietEntry dest) :
    s.ChangesTo (exec .periodTick s) dest (if s.holder then 3 else 0x10) := by
  obtain ⟨q, hq, hcalm, hnone, hnext⟩ := h.reaches hrun hshadow
  have he := State.evalRequest_taken (s := q.noPairRequest) (cause := if s.holder then 3 else 0x10)
    (hq.trippedNow.trans (by simp [hmode])) ((hq.requestResult c _).trans hresult) hm (hq.quietEntry h.1 hquiet)
  obtain ⟨t, ht, hstays⟩ := hnext (he.calm hcalm) (he.request.trans hnone)
  have hmode : q.noPairRequest.mode = s.mode := hq.mode
  rw [ht]
  exact ((hmode ▸ he).stays hstays).changesTo hq.events (by split <;> decide)

theorem forwarded_refused (h : s.Forwarded c) (hrun : s.mode = .run → s.entitled = true) (hshadow : s.mode = .shadow → s.entitled = false)
    (hmode : s.mode ≠ .safeBlock) (hc : c < 16) (hreason : reason < 256) (hresult : s.requestResult c (!s.holder) = .error reason) :
    s.Refuses (exec .periodTick s) c reason := by
  obtain ⟨q, hq, hcalm, hnone, hnext⟩ := h.reaches hrun hshadow
  have hd := State.evalRequest_refused (s := q.noPairRequest) (cause := if s.holder then 3 else 0x10)
    (hq.trippedNow.trans (by simp [hmode])) ((hq.requestResult c _).trans hresult) hc hreason
  obtain ⟨t, ht, hstays⟩ := hnext (hd.calm hcalm) (hd.request.trans hnone)
  rw [ht]
  exact (hd.stays hstays).refuses hq.mode hq.events hnone

end

end Sys2Proof.Machine
end

section
/-! SUPPORT. The owner's write of GLB_MODE_REQ (R46 to R48, R353). -/

namespace Sys2Proof.Machine

theorem lookup_GLB_MODE_REQ :
    lookup R.GLB_MODE_REQ = some (⟨.GLB_MODE_REQ, 0x14, 1, 0, 1, 0, true, 0, [⟨3, 0, .wo, .none⟩]⟩, 0, 0) := rfl

theorem State.writeReg_GLB_MODE_REQ {s : State} {w : WSrc} (hrecs : s.pwmIo.recs = []) {v : Nat} (hv : v < 16) :
    s.writeReg w R.GLB_MODE_REQ v = s.requestWritten w.master w.source v := by
  have hmod : v % 2 ^ 32 = v := Nat.mod_eq_of_lt (by omega)
  have haside : s.writeAside w .GLB_MODE_REQ 0 R.GLB_MODE_REQ v = none := rfl
  have hlock (d : RegDef) (h : d.fields = [⟨3, 0, .wo, .none⟩]) : s.lockDiffers d R.GLB_MODE_REQ v = false := by
    simp [State.lockDiffers, h]
  have hpre : s.premask .GLB_MODE_REQ 0 R.GLB_MODE_REQ v = v := rfl
  have hbits : bitsOf v 3 0 = v := by
    unfold bitsOf
    omega
  simp only [State.writeReg, State.recordStands_of_nil hrecs, lookup_GLB_MODE_REQ, hmod, haside, hpre, Bool.false_eq_true, if_false]
  rw [hlock _ rfl, if_neg (by decide)]
  exact congrArg (s.requestWritten w.master w.source) hbits

/-- A target code that a request row writes is written to the state: what the pending request leaves is dropped already. -/
def State.putRequest (s : State) (master source target : Nat) : State :=
  let shared := s.paired && decide (6 ≤ target) && decide (target ≤ 8)
  if shared && !s.holder then
    (({ s with ctl := { s.ctl with request := none } }).refuseMode target 9).raiseFrom .fwdRefused source master 0 target
  else
    let s := { s with ctl := { s.ctl with request := some { target := target, forwarded := shared && s.seq.running, at_ := s.cyc } } }
    if shared then s.capture (s.item 5 0 (leBytes 4 target) none) else s

section
variable {s t : State} {m : Master} {i : Instr} {master source c : Nat}

theorem State.requestWritten_none (h : s.ctl.request = none) : s.requestWritten master source c = s.putRequest master source c := by
  unfold State.requestWritten
  simp only [h]
  rfl

theorem State.requestWritten_some {r : ModeReq} (h : s.ctl.request = some r) :
    s.requestWritten master source c = (s.refuseMode r.target 10).putRequest master source c := by
  unfold State.requestWritten
  simp only [h]
  rfl

/-- The request that a row writes. -/
def State.asked (s : State) (c : Nat) : ModeReq :=
  { target := c, forwarded := s.paired && decide (6 ≤ c) && decide (c ≤ 8) && s.seq.running, at_ := s.cyc }

theorem State.capture_keeps (s : State) (it : MirItem) (h : s.Settled) :
    (s.capture it).mode = s.mode ∧ (s.capture it).ctl = s.ctl ∧ (s.capture it).regs = s.regs ∧ (s.capture it).events = s.events
      ∧ (s.capture it).Settled := by
  unfold State.capture
  split
  · next hc =>
    have hrun : s.seq.running = true := by
      unfold State.captures at hc
      exact (Bool.and_eq_true_iff.mp hc).1
    obtain ⟨hmbox, hlimit, hplan, -⟩ := h
    exact ⟨rfl, rfl, rfl, rfl, hmbox, hlimit, hplan, .inl hrun⟩
  · exact ⟨rfl, rfl, rfl, rfl, h⟩

/-- Where the device may take the request it becomes the pending one. -/
theorem State.putRequest_pends (h : s.Settled) (hshare : (s.paired && decide (6 ≤ c) && decide (c ≤ 8) && !s.holder) = false) :
    let t := s.putRequest master source c
    t.mode = s.mode ∧ t.ctl.request = some (s.asked c) ∧ t.regs = s.regs ∧ t.events = s.events ∧ t.Settled := by
  have hset : ({ s with ctl := { s.ctl with request := some (s.asked c) } } : State).Settled := h
  unfold State.putRequest
  simp only [hshare, Bool.false_eq_true, if_false]
  change let t := if s.paired && decide (6 ≤ c) && decide (c ≤ 8) then
      ({ s with ctl := { s.ctl with request := some (s.asked c) } } : State).capture _ else
      ({ s with ctl := { s.ctl with request := some (s.asked c) } } : State)
    t.mode = s.mode ∧ t.ctl.request = some (s.asked c) ∧ t.regs = s.regs ∧ t.events = s.events ∧ t.Settled
  generalize hu : ({ s with ctl := { s.ctl with request := some (s.asked c) } } : State) = u at hset
  have hsame : u.mode = s.mode ∧ u.ctl.request = some (s.asked c) ∧ u.regs = s.regs ∧ u.events = s.events := by
    rw [← hu]
    exact ⟨rfl, rfl, rfl, rfl⟩
  obtain ⟨hmode, hreq, hregs, hevents⟩ := hsame
  dsimp only
  split
  · obtain ⟨hcmode, hcctl, hcregs, hcevents, hcset⟩ := u.capture_keeps _ hset
    exact ⟨hcmode.trans hmode, by rw [hcctl, hreq], hcregs.trans hregs, hcevents.trans hevents, hcset⟩
  · exact ⟨hmode, hreq, hregs, hevents, hset⟩

theorem State.musterLapse_request (s : State) : s.musterLapse.ctl.request = s.ctl.request := by
  unfold State.musterLapse
  split <;> rfl

/-- What follows the write leaves it as it is. -/
theorem State.Settled.settle_request (h : s.Settled) :
    s.settle.mode = s.mode ∧ s.settle.ctl.request = s.ctl.request ∧ s.settle.regs = s.regs ∧ s.settle.events = s.events := by
  obtain ⟨hregs, hevents, -, -, hmode⟩ := h.settle_rest
  exact ⟨hmode, by rw [h.settle, s.musterLapse_request], hregs, hevents⟩

/-- A request row writes its target code. -/
theorem exec_modeRow (h : s.MayWrite m) (hrow : (i, c) ∈ modeRows m) :
    c < 16 ∧ exec i s = .next (s.requestWritten (WSrc.ofMaster m).master (WSrc.ofMaster m).source c).settle := by
  obtain ⟨hlive, howner, -, hrecs⟩ := h
  have hask {c : Nat} (hc : c < 16) : s.askMode m c = (s.requestWritten (WSrc.ofMaster m).master (WSrc.ofMaster m).source c).settle := by
    rw [State.askMode, State.ownerWrite_eq hlive howner (by decide) (by omega), State.writeReg_GLB_MODE_REQ hrecs hc]
  have hc : c < 16 ∧ exec i s = .next (s.askMode m c) := by
    simp only [modeRows, List.mem_cons, Prod.mk.injEq, List.not_mem_nil, or_false] at hrow
    rcases hrow with ⟨rfl, rfl⟩ | ⟨rfl, rfl⟩ | ⟨rfl, rfl⟩ | ⟨rfl, rfl⟩ | ⟨rfl, rfl⟩ | ⟨rfl, rfl⟩ | ⟨rfl, rfl⟩ <;>
      exact ⟨by decide, rfl⟩
  exact ⟨hc.1, hc.2.trans (congrArg _ (hask hc.1))⟩

theorem State.refuseMode_rd (s : State) (target reason : Nat) {off : Nat} (h : off ≠ R.GLB_MODE_LOG) :
    (s.refuseMode target reason).rd off = s.rd off :=
  (State.rd_raise ..).trans (((s.setF F.GLB_MODE_LOG_refuse_reason reason).rd_setF_ne _ _ h).trans (s.rd_setF_ne _ _ h))

theorem State.refuseMode_pair (s : State) (target reason : Nat) :
    (s.refuseMode target reason).paired = s.paired ∧ (s.refuseMode target reason).holder = s.holder := by
  have hp : (s.refuseMode target reason).paired = s.paired := State.fb_of_rd (x := F.RED_CFG_pair_en) (s.refuseMode_rd _ _ (by decide))
  exact ⟨hp, by rw [State.holder, State.holder, hp, State.f_of_rd (x := F.RED_STAT_drive) (s.refuseMode_rd _ _ (by decide))]⟩

theorem State.refuseMode_grown (s : State) (target reason : Nat) : s.events <+: (s.refuseMode target reason).events := by
  have h : ((s.setF F.GLB_MODE_LOG_refuse_reason reason).setF F.GLB_MODE_LOG_refused_target target).events = s.events := by simp
  exact h ▸ State.events_raise_grown ..

theorem State.raised_raiseP {e : EvCode} {src : Nat} {p : List Byte} (h : s.events <+: t.events) :
    s.raised (t.raiseP e src p) = s.raised t ++ [e] := by
  obtain ⟨es, hes⟩ := h
  rw [State.raised_of_append hes.symm, State.raised_of_append (es := es ++ [_]) (by rw [State.raiseP_events, ← hes, List.append_assoc])]
  simp

/-- A request that the device may take. -/
theorem modeRow_pends (h : s.MayWrite m) (hrow : (i, c) ∈ modeRows m) (hmay : s.paired = false ∨ c < 6 ∨ 8 < c ∨ s.holder = true) :
    ∃ t, exec i s = .next t ∧ t.mode = s.mode ∧ t.ctl.request = some (s.asked c) ∧ (s.ctl.request = none → s.raised t = [])
      ∧ (∀ r, s.ctl.request = some r → s.raised t = [.modeRefused] ∧ t.f F.GLB_MODE_LOG_refuse_reason = 10
          ∧ t.f F.GLB_MODE_LOG_refused_target = r.target % 16) := by
  obtain ⟨-, hexec⟩ := exec_modeRow h hrow
  obtain ⟨-, -, hsettled, -⟩ := h
  have hshare : (s.paired && decide (6 ≤ c) && decide (c ≤ 8) && !s.holder) = false := by
    rcases hmay with hmay | hmay | hmay | hmay
    · simp [hmay]
    · simp [show ¬ 6 ≤ c by omega]
    · simp [show ¬ c ≤ 8 by omega]
    · simp [hmay]
  refine ⟨_, hexec, ?_⟩
  cases hreq : s.ctl.request with
  | none =>
    rw [State.requestWritten_none hreq]
    obtain ⟨hmode, hput, -, hevents, hset⟩ := State.putRequest_pends (master := (WSrc.ofMaster m).master)
      (source := (WSrc.ofMaster m).source) hsettled hshare
    obtain ⟨htmode, htreq, -, htevents⟩ := hset.settle_request
    exact ⟨htmode.trans hmode, htreq.trans hput, fun _ => State.raised_of_events (htevents.trans hevents), nofun⟩
  | some r =>
    rw [State.requestWritten_some hreq]
    obtain ⟨hlogr, hlogt⟩ := s.refuseMode_log (reason := 10) r.target (by decide)
    obtain ⟨hfmode, -, hfsched, hfhif, hfpair, hfseq, hfcyc⟩ := s.refuseMode_frame r.target 10
    obtain ⟨hpaired, hholder⟩ := s.refuseMode_pair r.target 10
    have htold := State.raised_refuseMode (s := s) rfl r.target 10
    generalize s.refuseMode r.target 10 = v at *
    have hasked : v.asked c = s.asked c := by rw [State.asked, State.asked, hpaired, hfseq, hfcyc]
    obtain ⟨hmode, hput, hregs, hevents, hset⟩ := State.putRequest_pends (s := v) (c := c) (master := (WSrc.ofMaster m).master)
      (source := (WSrc.ofMaster m).source) (hsettled.of_eq hfhif hfsched (by rw [hfseq]) hfpair) (by rw [hpaired, hholder, hshare])
    obtain ⟨htmode, htreq, htregs, htevents⟩ := hset.settle_request
    have hregs' := htregs.trans hregs
    refine ⟨(htmode.trans hmode).trans hfmode, (htreq.trans hput).trans (congrArg some hasked), nofun, fun r' hr' => ?_⟩
    obtain rfl := Option.some.inj hr'
    exact ⟨by rw [State.raised, htevents, hevents]; exact htold, (State.f_of_regs hregs' _).trans hlogr,
      (State.f_of_regs hregs' _).trans hlogt⟩

theorem State.raiseFrom_frame (s : State) (e : EvCode) (src u a v : Nat) :
    (s.raiseFrom e src u a v).mode = s.mode ∧ (s.raiseFrom e src u a v).ctl = s.ctl ∧ (s.raiseFrom e src u a v).sched = s.sched
      ∧ (s.raiseFrom e src u a v).hif = s.hif ∧ (s.raiseFrom e src u a v).pair = s.pair ∧ (s.raiseFrom e src u a v).seq = s.seq
      ∧ (s.raiseFrom e src u a v).regs = s.regs := by
  simp

theorem State.putRequest_standby (hpaired : s.paired = true) (hlow : 6 ≤ c) (hhigh : c ≤ 8) (hholder : s.holder = false) :
    s.putRequest master source c = (s.noRequest.refuseMode c 9).raiseFrom .fwdRefused source master 0 c := by
  simp [State.putRequest, State.noRequest, hpaired, hlow, hhigh, hholder]

/-- A shared target on a paired device that does not drive HOLD. -/
theorem modeRow_standby (h : s.MayWrite m) (hrow : (i, c) ∈ modeRows m) (hpaired : s.paired = true) (hlow : 6 ≤ c) (hhigh : c ≤ 8)
    (hholder : s.holder = false) (hreq : s.ctl.request = none) :
    ∃ t, exec i s = .next t ∧ t.mode = s.mode ∧ t.ctl.request = none ∧ s.raised t = [.modeRefused, .fwdRefused]
      ∧ t.f F.GLB_MODE_LOG_refuse_reason = 9 ∧ t.f F.GLB_MODE_LOG_refused_target = c := by
  obtain ⟨-, hexec⟩ := exec_modeRow h hrow
  obtain ⟨-, -, hsettled, -⟩ := h
  rw [State.requestWritten_none hreq, State.putRequest_standby hpaired hlow hhigh hholder] at hexec
  obtain ⟨hlogr, hlogt⟩ := s.noRequest.refuseMode_log (reason := 9) c (by decide)
  obtain ⟨hfmode, hfctl, hfsched, hfhif, hfpair, hfseq, -⟩ := s.noRequest.refuseMode_frame c 9
  have htold := State.raised_refuseMode (s := s) (t := s.noRequest) rfl c 9
  have hgrown : s.events <+: (s.noRequest.refuseMode c 9).events := s.noRequest.refuseMode_grown c 9
  generalize s.noRequest.refuseMode c 9 = v at *
  have htold' := State.raised_raiseP (e := .fwdRefused) (src := (WSrc.ofMaster m).source)
    (p := v.stdPayload (WSrc.ofMaster m).master 0 c) hgrown
  rw [htold] at htold'
  obtain ⟨hwmode, hwctl, hwsched, hwhif, hwpair, hwseq, hwregs⟩ :=
    v.raiseFrom_frame .fwdRefused (WSrc.ofMaster m).source (WSrc.ofMaster m).master 0 c
  unfold State.raiseFrom at *
  generalize v.raiseP .fwdRefused (WSrc.ofMaster m).source (v.stdPayload (WSrc.ofMaster m).master 0 c) = w at *
  have hset : w.Settled := hsettled.of_eq (hwhif.trans hfhif) (hwsched.trans hfsched)
    ((congrArg Seq.running hwseq).trans (congrArg Seq.running hfseq)) (hwpair.trans hfpair)
  obtain ⟨htmode, htreq, htregs, htevents⟩ := hset.settle_request
  have hregs := htregs.trans hwregs
  refine ⟨_, hexec, (htmode.trans hwmode).trans hfmode, htreq.trans ((congrArg ModeCtl.request hwctl).trans (congrArg ModeCtl.request hfctl)),
    ?_, (State.f_of_regs hregs _).trans hlogr, ((State.f_of_regs hregs _).trans hlogt).trans (Nat.mod_eq_of_lt (by omega))⟩
  rw [State.raised, htevents]
  exact htold'

end

end Sys2Proof.Machine
end

section
/-! SUPPORT. The rows of the table of mode changes, each as the claim states it (R45, R48). -/

namespace Sys2Proof.Machine

section
variable {s : State} {c : Nat}

theorem State.wayOut_from {w : Mode × Nat × Prop × Mode} (hw : w ∈ s.wayOut) : w.1 ≠ .safeBlock ∧ w.1 ≠ .shadow := by
  simp only [State.wayOut, List.mem_cons, List.not_mem_nil, or_false] at hw
  rcases hw with rfl | rfl | rfl | rfl | rfl | rfl | rfl | rfl | rfl | rfl | rfl | rfl | rfl | rfl <;> exact ⟨nofun, nofun⟩

theorem State.refusal_from {w : Mode × Nat × Prop × Nat} (hw : w ∈ s.refusal) : w.1 ≠ .safeBlock ∧ w.1 ≠ .shadow := by
  simp only [State.refusal, List.mem_cons, List.not_mem_nil, or_false] at hw
  rcases hw with rfl | rfl | rfl | rfl | rfl | rfl | rfl | rfl <;> exact ⟨nofun, nofun⟩

/-- An unpaired device is entitled from MUSTER on. -/
theorem State.entitled_unpaired (h : s.paired = false) : s.mode.fromMuster = true → s.entitled = true := by simp [State.entitled, h]

theorem modeRequestEval_wayOut {w : Mode × Nat × Prop × Mode} (hw : w ∈ s.wayOut) (h : s.Asked w.2.1) (hmode : s.mode = w.1)
    (hcond : w.2.2.1) : s.ChangesTo (exec .modeRequestEval s) w.2.2.2 3 := modeRequestEval_taken h hw rfl hmode hcond

theorem modeRequestEval_refusal {w : Mode × Nat × Prop × Nat} (hw : w ∈ s.refusal) (h : s.Asked w.2.1) (hmode : s.mode = w.1)
    (hcond : w.2.2.1) : s.Refuses (exec .modeRequestEval s) w.2.1 w.2.2.2 := by
  obtain ⟨htarget, hreason⟩ := State.refusal_small hw
  obtain ⟨-, -, -, -, -, hpaired, -⟩ := id h
  exact modeRequestEval_refused h htarget hreason (State.requestResult_refusal (State.entitled_unpaired hpaired) hw hmode hcond)

theorem periodTick_wayOut {w : Mode × Nat × Prop × Mode} (hw : w ∈ s.wayOut) (h : s.AskedAtTick w.2.1) (hmode : s.mode = w.1)
    (hcond : w.2.2.1) : s.ChangesTo (exec .periodTick s) w.2.2.2 3 := by
  obtain ⟨hblock, hshadow⟩ := State.wayOut_from hw
  obtain ⟨hdest, hquiet⟩ := State.wayOut_dest hw
  obtain ⟨⟨-, -, -, -, -, hcrit⟩, hpaired, -⟩ := id h
  exact periodTick_taken h (hmode ▸ hshadow) (by simp [hmode, hblock])
    (State.requestResult_wayOut (State.entitled_unpaired hpaired) hw hmode hcond) hdest (hquiet hmode (.inl hcrit))

theorem periodTick_refusal {w : Mode × Nat × Prop × Nat} (hw : w ∈ s.refusal) (h : s.AskedAtTick w.2.1) (hmode : s.mode = w.1)
    (hcond : w.2.2.1) : s.Refuses (exec .periodTick s) w.2.1 w.2.2.2 := by
  obtain ⟨hblock, hshadow⟩ := State.refusal_from hw
  obtain ⟨htarget, hreason⟩ := State.refusal_small hw
  obtain ⟨-, hpaired, -⟩ := id h
  exact periodTick_refused h (hmode ▸ hshadow) (by simp [hmode, hblock]) htarget hreason
    (State.requestResult_refusal (State.entitled_unpaired hpaired) hw hmode hcond)

/-- The holder takes the change that its own INPUT frame brings back to it. -/
theorem forwarded_wayOut {w : Mode × Nat × Prop × Mode} (hw : w ∈ s.wayOut) (h : s.Forwarded c) (hholder : s.holder = true)
    (hsense : s.f F.RED_STAT_sense ≠ 2) (hmode : s.mode = w.1) (hc : c = w.2.1) (hcond : w.2.2.1) :
    s.ChangesTo (exec .periodTick s) w.2.2.2 3 := by
  obtain ⟨hblock, hshadow⟩ := State.wayOut_from hw
  obtain ⟨hdest, hquiet⟩ := State.wayOut_dest hw
  obtain ⟨⟨-, -, -, -, -, hcrit⟩, hpaired, -⟩ := id h
  have hdrive : s.f F.RED_STAT_drive = 2 := by simpa [State.holder, hpaired] using hholder
  have hent : s.entitled = true := by simp [State.entitled, hpaired, hdrive, hsense]
  have htaken := forwarded_taken h (fun _ => hent) (fun hm => absurd hm (hmode ▸ hshadow)) (hmode ▸ hblock)
    (hc ▸ State.requestResult_wayOut (fun _ => hent) hw hmode hcond) hdest (hquiet hmode (.inl hcrit))
  simpa [hholder] using htaken

/-- A follower is not entitled. -/
theorem State.entitled_follower (hpaired : s.paired = true) (hholder : s.holder = false) : s.entitled = false := by
  have hdrive : s.f F.RED_STAT_drive ≠ 2 := by simpa [State.holder, hpaired] using hholder
  simp [State.entitled, hpaired, hdrive]

/-- A follower takes the change that the INPUT frame of the holder brings. -/
theorem follower_taken {dest : Mode} (h : s.Forwarded c) (hholder : s.holder = false) (hrun : s.mode ≠ .run) (hblock : s.mode ≠ .safeBlock)
    (hc : s.mode ≠ .configure) (hd : s.mode ≠ .diagnostic) (hresult : s.requestResult c true = .ok dest) (hm : dest ≠ .muster) :
    s.ChangesTo (exec .periodTick s) dest 0x10 := by
  obtain ⟨⟨-, -, -, -, -, hcrit⟩, hpaired, -⟩ := id h
  have htaken := forwarded_taken h (fun hm => absurd hm hrun) (fun _ => State.entitled_follower hpaired hholder) hblock
    (by rw [hholder]; exact hresult) hm (.inr (.inr (.inr ⟨hcrit, hc, hd⟩)))
  simpa [hholder] using htaken

theorem follower_refused {reason : Nat} (h : s.Forwarded c) (hholder : s.holder = false) (hrun : s.mode ≠ .run) (hblock : s.mode ≠ .safeBlock)
    (hc : c < 16) (hreason : reason < 256) (hresult : s.requestResult c true = .error reason) : s.Refuses (exec .periodTick s) c reason := by
  obtain ⟨-, hpaired, -⟩ := id h
  exact forwarded_refused h (fun hm => absurd hm hrun) (fun _ => State.entitled_follower hpaired hholder) hblock hc hreason
    (by rw [hholder]; exact hresult)

end

end Sys2Proof.Machine
end

section
/-! CERTIFICATE. A mode request waits for its evaluation, and is taken or refused by the table of mode changes. -/

open Sys2Proof.Machine

namespace Sys2Proof

/-- Settles O30: the write of a request row through the shape of `putRequest`; the evaluation through the answers of `requestResult`,
which the tick up to the evaluation leaves alone (`InTick`); and what follows the evaluation is no change of mode (`Stays`). -/
theorem modeRequests : Obligations.ModeRequests := by
  unfold Obligations.ModeRequests
  refine ⟨fun s m i c hrow hmay => ⟨modeRow_pends hmay hrow, fun hpaired hlow hhigh hholder hreq =>
    modeRow_standby hmay hrow hpaired hlow hhigh hholder hreq⟩, fun s c => ⟨?_, ?_, ?_, ?_, ?_, ?_, ?_, ?_, ?_, ?_, ?_, ?_⟩⟩
  · exact fun w hw h hmode hcond => modeRequestEval_wayOut hw h hmode hcond
  · exact fun w hw h hmode hcond => modeRequestEval_refusal hw h hmode hcond
  · exact fun h hc hno hshadow => modeRequestEval_refused h hc (by decide) (State.requestResult_other hno hshadow)
  · exact fun hlive hreq hc hrun hmode htrip halone => modeRequestEval_tripped hlive hreq hc hrun hmode htrip halone
  · exact fun hreq hsettled => modeRequestEval_idle hreq hsettled
  · exact fun w hw h _ hmode hcond => periodTick_wayOut hw h hmode hcond
  · exact fun w hw h _ hmode hcond => periodTick_refusal hw h hmode hcond
  · exact fun h hc _ hno hshadow hblocked => periodTick_refused h hshadow (by simp [hblocked]) hc (by decide)
      (State.requestResult_other hno fun hm => absurd hm hshadow)
  · exact fun h hc hmode hblocked => periodTick_tripped h hc hmode hblocked
  · exact fun r hclear hpaired hpair hr hat hshadow => periodTick_waits hclear hpaired hpair hr hat hshadow
  · exact fun h hholder hsense w hw _ hmode hc hcond => forwarded_wayOut hw h hholder hsense hmode hc hcond
  · intro h hholder
    have hnot : s.entitled = false := State.entitled_follower h.2.1 hholder
    refine ⟨fun hmode hc => ?_, fun hmode hc hcharge => ?_, fun hmode hc href => ?_, fun hmode hc href => ?_⟩
    · exact follower_taken h hholder (by simp [hmode]) (by simp [hmode]) (by simp [hmode]) (by simp [hmode])
        (by simp [State.requestResult, hmode, hc]) nofun
    · exact follower_taken h hholder (by simp [hmode]) (by simp [hmode]) (by simp [hmode]) (by simp [hmode])
        (by simp [State.requestResult, hmode, hc, hcharge]) nofun
    · exact follower_taken h hholder (by simp [hmode]) (by simp [hmode]) (by simp [hmode]) (by simp [hmode])
        (by simp [State.requestResult, hmode, hc, hnot, h.2.1, href]) nofun
    · exact follower_refused h hholder (by simp [hmode]) (by simp [hmode]) (by omega) (by decide)
        (by simp [State.requestResult, hmode, hc, hnot, h.2.1, href])

end Sys2Proof
end

section
/-! SUPPORT. What the loss of a lane's block lock, or its being taken down, leaves alone: the course of the period, and the fields in which
the lane's faults are counted and shown (R112, R113, R120, R127 to R129). -/

namespace Sys2Proof.Machine

/-! ### Counts -/

theorem satAdd_eq_min (x k top : Nat) : satAdd x k top = min top (x + k) := by
  unfold satAdd
  split <;> omega

theorem State.f_bumpF_min (s : State) (x : Fld) (k : Nat) (h : x.ok) :
    (s.bumpF x k).f x = min (2 ^ (x.hi + 1 - x.lo) - 1) (s.f x + k) := by
  rw [s.f_bumpF_same x k h, satAdd_eq_min]

theorem State.rd_bumpF_ne (s : State) (x : Fld) (k : Nat) {off : Nat} (h : off ≠ x.off) : (s.bumpF x k).rd off = s.rd off :=
  s.rd_setF_ne _ _ h

theorem State.fb_bumpF_apart (s : State) {x y : Fld} (k : Nat) (h : x.ok) (hxy : x.apart y) : (s.bumpF x k).fb y = s.fb y := by
  rw [State.fb, s.f_bumpF_apart x y k h hxy, State.fb]

/-! ### The frame of a lane's fall -/

/-- Nothing but the registers, the events, the lanes, the granary and the pins of the local PWM differs. -/
def State.LaneFrame (s t : State) : Prop :=
  t = { s with regs := t.regs, just := t.just, justAt := t.justAt, events := t.events, evSeq := t.evSeq, lanes := t.lanes
               grn := t.grn, grnBad := t.grnBad, eccWb := t.eccWb, pwm := t.pwm }

section
variable {s t u : State}

theorem State.LaneFrame.refl (s : State) : s.LaneFrame s := rfl

theorem State.LaneFrame.trans (h : s.LaneFrame t) (h' : t.LaneFrame u) : s.LaneFrame u := by
  unfold State.LaneFrame at *
  rw [h] at h'
  exact h'

theorem State.LaneFrame.ite {c : Prop} [Decidable c] (ht : s.LaneFrame t) (hu : s.LaneFrame u) : s.LaneFrame (if c then t else u) := by
  split
  exacts [ht, hu]

theorem State.LaneFrame.setF (h : s.LaneFrame t) {x : Fld} {v : Nat} : s.LaneFrame (t.setF x v) := h.trans rfl

theorem State.LaneFrame.mark (h : s.LaneFrame t) {x : Fld} : s.LaneFrame (t.mark x) := h.trans rfl

theorem State.LaneFrame.bumpF (h : s.LaneFrame t) {x : Fld} {k : Nat} : s.LaneFrame (t.bumpF x k) := h.trans rfl

theorem State.LaneFrame.raise (h : s.LaneFrame t) {c : EvCode} {u a v : Nat} : s.LaneFrame (t.raise c u a v) := h.trans rfl

theorem State.LaneFrame.modLane (h : s.LaneFrame t) {l : Nat} {g : Lane → Lane} : s.LaneFrame (t.modLane l g) := h.trans rfl

theorem State.LaneFrame.modPwm (h : s.LaneFrame t) {c : Nat} {g : Pwm → Pwm} : s.LaneFrame (t.modPwm c g) := h.trans rfl

theorem State.LaneFrame.hideLane (h : s.LaneFrame t) {l : Nat} : s.LaneFrame (t.hideLane l) := h.trans rfl

theorem State.LaneFrame.grnWrite (h : s.LaneFrame t) {a : Nat} {bs : List Byte} : s.LaneFrame (t.grnWrite a bs) := by
  unfold State.grnWrite
  split
  exacts [h.trans rfl, h]

theorem State.LaneFrame.forEach {is : List Nat} {g : State → Nat → State} (h : s.LaneFrame t)
    (hg : ∀ {u i}, s.LaneFrame u → s.LaneFrame (g u i)) : s.LaneFrame (t.forEach is g) :=
  List.foldlRecOn is g (motive := fun u => s.LaneFrame u) h fun _ hu _ _ => hg hu

theorem State.LaneFrame.cyc (h : s.LaneFrame t) : t.cyc = s.cyc := by rw [h]

theorem State.LaneFrame.mode (h : s.LaneFrame t) : t.mode = s.mode := by rw [h]

theorem State.LaneFrame.settled (h : s.LaneFrame t) (hs : s.Settled) : t.Settled := by
  rw [h]
  exact hs

/-- GATHER_DONE has come, where a period is in progress. -/
abbrev State.Gathered (s : State) : Prop := s.inPeriod = true → s.seq.gatherDone = true

theorem State.LaneFrame.gathered (h : s.LaneFrame t) (hs : s.Gathered) : t.Gathered := by
  rw [h]
  exact hs

theorem State.Gathered.gatherCheck (h : s.Gathered) : s.gatherCheck = s := by
  have hcond : (s.inPeriod && !s.seq.gatherDone) = false := by
    cases hp : s.inPeriod
    · rfl
    · simp [h hp]
  simp [State.gatherCheck, hcond]

/-- After GATHER_DONE a lane that falls makes nothing follow, and in a settled state muster_done alone may fall. -/
theorem State.LaneFrame.ends (h : s.LaneFrame t) (hg : s.Gathered) (hs : s.Settled) : t.gatherCheck.settle = t.musterLapse := by
  rw [(h.gathered hg).gatherCheck, (h.settled hs).settle]

theorem State.musterLapse_lanes (s : State) : s.musterLapse.lanes = s.lanes ∧ s.musterLapse.cyc = s.cyc := by
  unfold State.musterLapse
  split <;> exact ⟨rfl, rfl⟩

/-- What a command has done stands as it ends. -/
theorem State.LaneFrame.ends_spec (h : s.LaneFrame t) (hg : s.Gathered) (hs : s.Settled) :
    t.gatherCheck.settle.regs = t.regs ∧ t.gatherCheck.settle.events = t.events ∧ t.gatherCheck.settle.cyc = t.cyc
      ∧ ∀ l, t.gatherCheck.settle.lane l = t.lane l := by
  rw [h.ends hg hs]
  obtain ⟨hregs, hevents⟩ := t.musterLapse_keeps
  obtain ⟨hlanes, hcyc⟩ := t.musterLapse_lanes
  exact ⟨hregs, hevents, hcyc, fun l => by rw [State.lane, hlanes, State.lane]⟩

end

/-! ### The fields of a lane's faults -/

/-- The fields in which the faults of lane l are shown and counted, and those that count failed frames. -/
inductive FaultField (l : Nat) : Fld → Prop
  | lock : FaultField l (F.LPHY_STAT_block_lock l)
  | miswire : FaultField l (F.LPHY_STAT_miswire l)
  | badSync : FaultField l (F.LPHY_ERRCNT_bad_sync l)
  | frames (j : Nat) (h : j < 48) : FaultField l (F.NCL_ERRCNT_frame_crc_err j)

theorem tget_filter {α : Type} (d : α) (t : List (Nat × α)) {p : Nat × α → Bool} {k : Nat} (h : ∀ v, p (k, v) = true) :
    tget d (t.filter p) k = tget d t k := by
  induction t with
  | nil => rfl
  | cons e t ih =>
    obtain ⟨j, v⟩ := e
    by_cases hj : j = k
    · subst hj
      simp [h, tget]
    · by_cases hp : p (j, v) = true <;> simp [tget, hp, hj, ih]

/-- A register that is no word of NCL_ASSIGN reads as before where words of it are hidden. -/
theorem State.rd_hideAssigned (s : State) (gone : Nat → Bool → Bool) {off : Nat} (h : assignWord off = none) :
    (s.hideAssigned gone).rd off = s.rd off := by
  unfold State.rd State.hideAssigned
  dsimp only
  rw [tget_filter]
  intro v
  simp only [h]

/-- What a write has to be apart from, and what it may not hide, for field `y` to outlast the fall of lane l. -/
structure Fld.Outlasts (y : Fld) (l : Nat) : Prop where
  state : (F.LPHY_STAT_state l).apart y
  attempts : (F.LPHY_STAT_attempts l).apart y
  disc : y.off ≠ R.NCL_LSTAT l
  drive : y.off ≠ R.RED_STAT
  word : assignWord y.off = none

theorem Fld.outlasts_STAT {y : Fld} {l : Nat} (hl : l < 48) (hoff : y.off = R.LPHY_STAT l) (hlo : 2 < y.lo) (hhi : y.hi < 24) : y.Outlasts l where
  state := .inr (.inr hlo)
  attempts := .inr (.inl hhi)
  disc := by
    rw [hoff]
    simp only [R.LPHY_STAT, R.NCL_LSTAT]
    omega
  drive := by
    rw [hoff]
    simp only [R.LPHY_STAT, R.RED_STAT]
    omega
  word := by
    rw [hoff]
    exact if_neg (by simp only [R.LPHY_STAT, R.NCL_ASSIGN]; omega)

theorem FaultField.outlasts {l : Nat} {y : Fld} (hl : l < 48) (h : FaultField l y) : y.Outlasts l := by
  cases h with
  | lock => exact Fld.outlasts_STAT hl rfl (by simp [F.LPHY_STAT_block_lock]) (by simp [F.LPHY_STAT_block_lock])
  | miswire => exact Fld.outlasts_STAT hl rfl (by simp [F.LPHY_STAT_miswire]) (by simp [F.LPHY_STAT_miswire])
  | badSync =>
    refine ⟨.inl ?_, .inl ?_, ?_, ?_, if_neg ?_⟩ <;>
      simp only [F.LPHY_ERRCNT_bad_sync, F.LPHY_STAT_state, F.LPHY_STAT_attempts, R.LPHY_ERRCNT, R.LPHY_STAT, R.NCL_LSTAT, R.RED_STAT,
        R.NCL_ASSIGN] <;> omega
  | frames j hj =>
    refine ⟨.inl ?_, .inl ?_, ?_, ?_, if_neg ?_⟩ <;>
      simp only [F.NCL_ERRCNT_frame_crc_err, F.LPHY_STAT_state, F.LPHY_STAT_attempts, R.NCL_ERRCNT, R.LPHY_STAT, R.NCL_LSTAT, R.RED_STAT,
        R.NCL_ASSIGN] <;> omega

theorem FaultField.apart_lockLost {l : Nat} {y : Fld} (h : FaultField l y) : (F.LPHY_STAT_lock_lost l).apart y := by
  cases h with
  | lock => exact .inr (.inl (by simp [F.LPHY_STAT_block_lock, F.LPHY_STAT_lock_lost]))
  | miswire => exact .inr (.inr (by simp [F.LPHY_STAT_miswire, F.LPHY_STAT_lock_lost]))
  | badSync => exact .inl (by simp only [F.LPHY_ERRCNT_bad_sync, F.LPHY_STAT_lock_lost, R.LPHY_ERRCNT, R.LPHY_STAT]; omega)
  | frames j _ => exact .inl (by simp only [F.NCL_ERRCNT_frame_crc_err, F.LPHY_STAT_lock_lost, R.NCL_ERRCNT, R.LPHY_STAT]; omega)

end Sys2Proof.Machine
end

section
/-! SUPPORT. A lane that falls: it trains again, goes down, or waits for its lock (R112, R127 to R129). -/

namespace Sys2Proof.Machine

theorem ok_LPHY_STAT_state (l : Nat) : (F.LPHY_STAT_state l).ok := ⟨by simp [F.LPHY_STAT_state], by simp [F.LPHY_STAT_state]⟩

theorem ok_LPHY_STAT_lock_lost (l : Nat) : (F.LPHY_STAT_lock_lost l).ok := ⟨by simp [F.LPHY_STAT_lock_lost], by simp [F.LPHY_STAT_lock_lost]⟩

/-! ### Training again -/

section
variable (s : State) {l : Nat}

theorem State.lane_hideLane (j : Nat) : (s.hideLane l).lane j = s.lane j := rfl

/-- The lane as its training begins. -/
def State.trainingBegun (s : State) (l : Nat) : State :=
  let s := (s.setLaneState l laneTraining).setF (F.LPHY_STAT_attempts l) 1
  s.modLane l (fun x => { x with
    attempt := true, backoff := false, attemptAt := s.cyc, helloNext := s.cyc, markerFail := false, helloSeen := false
    trainedOnce := false, deadSaid := false, echoN := 0, echoD := 0, echoR := 0, echoOut := false, timingOk := false, discPeriods := 0
    missRun := 0, relock := false, unreach := false, yielded := false, splitIn := 0, tx := { x.tx with due := [] } })

theorem State.startTraining_cell (hl : l < 48) :
    s.startTraining l = (((((s.trainingBegun l).setF (F.NCL_LSTAT_disc_step l) 0).setF (F.NCL_LSTAT_path_mode l) 0).setF
      (F.NCL_LSTAT_break_pos l) 0).setF (F.NCL_LSTAT_delay_valid l) 0).hideLane l := by
  unfold State.startTraining State.trainingBegun
  dsimp only
  rw [if_pos hl]

theorem State.trainingBegun_frame : s.LaneFrame (s.trainingBegun l) := by
  unfold State.trainingBegun
  exact (State.LaneFrame.refl s).setF.setF.modLane

theorem State.trainingBegun_attempt : ((s.trainingBegun l).lane l).attempt = true := by rw [State.trainingBegun, State.lane_modLane]

theorem State.startTraining_frame (hl : l < 48) : s.LaneFrame (s.startTraining l) := by
  rw [s.startTraining_cell hl]
  exact s.trainingBegun_frame.setF.setF.setF.setF.hideLane

theorem State.startTraining_attempt (hl : l < 48) : ((s.startTraining l).lane l).attempt = true := by
  rw [s.startTraining_cell hl, State.lane_hideLane, State.lane_setF, State.lane_setF, State.lane_setF, State.lane_setF]
  exact s.trainingBegun_attempt

/-- Of the registers, training of a cell lane begins in LPHY_STAT, in its discovery, and in the delays it has assigned. -/
theorem State.startTraining_rd (hl : l < 48) {off : Nat} (hdisc : off ≠ R.NCL_LSTAT l) (hword : assignWord off = none) :
    (s.startTraining l).rd off = ((s.setLaneState l laneTraining).setF (F.LPHY_STAT_attempts l) 1).rd off := by
  rw [s.startTraining_cell hl, State.hideLane, State.rd_hideAssigned _ _ hword, State.rd_setF_ne _ _ _ hdisc, State.rd_setF_ne _ _ _ hdisc,
    State.rd_setF_ne _ _ _ hdisc, State.rd_setF_ne _ _ _ hdisc]
  exact State.rd_of_regs (by simp [State.trainingBegun]) off

theorem State.startTraining_f (hl : l < 48) {y : Fld} (h : y.Outlasts l) : (s.startTraining l).f y = s.f y := by
  rw [State.f_of_rd (s.startTraining_rd hl h.disc h.word),
    State.f_setF_apart _ _ _ _ ⟨by simp [F.LPHY_STAT_attempts], by simp [F.LPHY_STAT_attempts]⟩ h.attempts]
  exact s.f_setF_apart _ _ _ (ok_LPHY_STAT_state l) h.state

theorem State.startTraining_laneState (hl : l < 48) : (s.startTraining l).laneState l = 2 := by
  have hrd := s.startTraining_rd hl (off := R.LPHY_STAT l) (by simp only [R.LPHY_STAT, R.NCL_LSTAT]; omega)
    (if_neg (by simp only [R.LPHY_STAT, R.NCL_ASSIGN]; omega))
  rw [State.laneState, State.f_of_rd (x := F.LPHY_STAT_state l) hrd,
    State.f_setF_apart _ _ _ _ ⟨by simp [F.LPHY_STAT_attempts], by simp [F.LPHY_STAT_attempts]⟩
      (.inr (.inl (by simp [F.LPHY_STAT_attempts, F.LPHY_STAT_state])))]
  exact s.f_setF_same _ _ (ok_LPHY_STAT_state l)

end

/-! ### Going down -/

section
variable (s : State) {l : Nat}

/-- A holder in RUN drives IDLE for a lane that goes down, where its partner is in step and has the lane UP (R365). -/
def State.yieldLane (s : State) (l : Nat) : State :=
  if s.holder && s.fb F.RED_CFG_yield_lane && s.mode == .run && s.fb F.RED_STAT_partner_in_step && bitOf (s.pair.status.getD 5 0) l then
    ((s.setF F.RED_STAT_drive 1).updateDrive).modLane l (fun x => { x with yielded := true })
  else s

theorem State.LaneFrame.updateDrive {t : State} (h : s.LaneFrame t) : s.LaneFrame t.updateDrive :=
  .ite (h.forEach fun hu => .ite hu.modPwm hu) (h.forEach fun hu => hu.modPwm)

theorem State.updateDrive_events : s.updateDrive.events = s.events := by
  unfold State.updateDrive
  split
  · exact List.foldlRecOn (motive := fun t : State => t.events = s.events) _ _ rfl fun t ht c _ => by
      split
      exacts [ht, ht]
  · exact List.foldlRecOn (motive := fun t : State => t.events = s.events) _ _ rfl fun t ht c _ => ht

theorem State.yieldLane_spec :
    s.LaneFrame (s.yieldLane l) ∧ (s.yieldLane l).events = s.events ∧ ∀ off, off ≠ R.RED_STAT → (s.yieldLane l).rd off = s.rd off := by
  unfold State.yieldLane
  split
  · have hregs := (s.setF F.RED_STAT_drive 1).updateDrive_regs
    have hevents := (s.setF F.RED_STAT_drive 1).updateDrive_events
    exact ⟨(State.LaneFrame.refl s).setF.updateDrive.modLane, by simp [hevents], fun off ho =>
      (State.rd_of_regs hregs off).trans (s.rd_setF_ne _ _ ho)⟩
  · exact ⟨rfl, rfl, fun _ _ => rfl⟩

/-- The lane as it goes down, but for what its partner takes over. -/
def State.laneFallen (s : State) (l cause : Nat) : State :=
  let s := ((s.setLaneState l laneDown).raise .laneDown l cause 0).modLane l (fun x => { x with relock := false })
  if cause = 0 then s.mark (F.LPHY_STAT_lock_lost l) else s

theorem State.takeDown_eq (cause : Nat) : s.takeDown l cause = (s.laneFallen l cause).yieldLane l := rfl

theorem State.laneFallen_regs (cause : Nat) : (s.laneFallen l cause).regs
    = (if cause = 0 then (s.setLaneState l laneDown).mark (F.LPHY_STAT_lock_lost l) else s.setLaneState l laneDown).regs := by
  unfold State.laneFallen
  dsimp only
  split <;> rfl

theorem State.takeDown_frame (cause : Nat) : s.LaneFrame (s.takeDown l cause) := by
  have hdown : s.LaneFrame (s.laneFallen l cause) :=
    .ite (State.LaneFrame.refl s).setF.raise.modLane.mark (State.LaneFrame.refl s).setF.raise.modLane
  obtain ⟨hframe, -, -⟩ := (s.laneFallen l cause).yieldLane_spec (l := l)
  exact hdown.trans hframe

/-- LANE_DOWN follows the events that have been raised before. -/
theorem State.takeDown_raised (cause : Nat) {r : State} (hr : r.events <+: s.events) :
    r.raised (s.takeDown l cause) = r.raised s ++ [.laneDown] := by
  have hfallen : (s.laneFallen l cause).events = ((s.setLaneState l laneDown).raise .laneDown l cause 0).events := by
    unfold State.laneFallen
    dsimp only
    split <;> rfl
  obtain ⟨-, hevents, -⟩ := (s.laneFallen l cause).yieldLane_spec (l := l)
  rw [s.takeDown_eq, State.raised, hevents, hfallen]
  exact State.raised_raiseP hr

theorem State.takeDown_f (cause : Nat) {y : Fld} (h : y.Outlasts l) (hlost : (F.LPHY_STAT_lock_lost l).apart y) :
    (s.takeDown l cause).f y = s.f y := by
  obtain ⟨-, -, hrd⟩ := (s.laneFallen l cause).yieldLane_spec (l := l)
  have hstate : (s.setLaneState l laneDown).f y = s.f y := s.f_setF_apart _ _ _ (ok_LPHY_STAT_state l) h.state
  rw [s.takeDown_eq, State.f_of_rd (hrd _ h.drive), State.f_of_regs (s.laneFallen_regs cause)]
  split
  · rw [State.f_mark_apart _ _ _ (ok_LPHY_STAT_lock_lost l) hlost, hstate]
  · exact hstate

theorem State.takeDown_laneState (cause : Nat) : (s.takeDown l cause).laneState l = 4 := by
  obtain ⟨-, -, hrd⟩ := (s.laneFallen l cause).yieldLane_spec (l := l)
  have hdown : (s.setLaneState l laneDown).f (F.LPHY_STAT_state l) = 4 := s.f_setF_same _ _ (ok_LPHY_STAT_state l)
  rw [s.takeDown_eq, State.laneState,
    State.f_of_rd (x := F.LPHY_STAT_state l) (hrd _ (by simp only [F.LPHY_STAT_state, R.LPHY_STAT, R.RED_STAT]; omega)),
    State.f_of_regs (s.laneFallen_regs cause)]
  split
  · rw [State.f_mark_apart _ _ _ (ok_LPHY_STAT_lock_lost l) (.inr (.inl (by simp [F.LPHY_STAT_lock_lost, F.LPHY_STAT_state]))), hdown]
  · exact hdown

theorem State.takeDown_lockLost : (s.takeDown l 0).fb (F.LPHY_STAT_lock_lost l) = true := by
  obtain ⟨-, -, hrd⟩ := (s.laneFallen l 0).yieldLane_spec (l := l)
  rw [s.takeDown_eq, State.fb_of_rd (x := F.LPHY_STAT_lock_lost l) (hrd _ (by simp only [F.LPHY_STAT_lock_lost, R.LPHY_STAT, R.RED_STAT]; omega)),
    State.fb_of_regs (s.laneFallen_regs 0), if_pos rfl]
  exact State.fb_mark_same _ (ok_LPHY_STAT_lock_lost l) rfl

end

end Sys2Proof.Machine
end

section
/-! SUPPORT. The receivers of the lanes: block lock taken and lost, frames cut short, and markers of another lane (R112, R113, R120,
R127 to R129). -/

namespace Sys2Proof.Machine

theorem ok_LPHY_STAT_block_lock (l : Nat) : (F.LPHY_STAT_block_lock l).ok :=
  ⟨by simp [F.LPHY_STAT_block_lock], by simp [F.LPHY_STAT_block_lock]⟩

theorem ok_LPHY_STAT_rx_signal (l : Nat) : (F.LPHY_STAT_rx_signal l).ok := ⟨by simp [F.LPHY_STAT_rx_signal], by simp [F.LPHY_STAT_rx_signal]⟩

theorem ok_LPHY_ERRCNT_bad_sync (l : Nat) : (F.LPHY_ERRCNT_bad_sync l).ok :=
  ⟨by simp [F.LPHY_ERRCNT_bad_sync], by simp [F.LPHY_ERRCNT_bad_sync]⟩

theorem LPHY_STAT_ne_ERRCNT (l : Nat) : R.LPHY_STAT l ≠ R.LPHY_ERRCNT l := by
  simp only [R.LPHY_STAT, R.LPHY_ERRCNT]
  omega

theorem State.badSync_bumpF (s : State) (l n : Nat) : (s.bumpF (F.LPHY_ERRCNT_bad_sync l) n).f (F.LPHY_ERRCNT_bad_sync l)
    = min 0xFFFF (s.f (F.LPHY_ERRCNT_bad_sync l) + n) := s.f_bumpF_min _ n (ok_LPHY_ERRCNT_bad_sync l)

theorem State.rd_modLane (s : State) (l : Nat) (g : Lane → Lane) (off : Nat) : (s.modLane l g).rd off = s.rd off := rfl

theorem State.f_modLane (s : State) (l : Nat) (g : Lane → Lane) (x : Fld) : (s.modLane l g).f x = s.f x := rfl

theorem State.fb_modLane (s : State) (l : Nat) (g : Lane → Lane) (x : Fld) : (s.modLane l g).fb x = s.fb x := rfl

/-- Counting in LPHY_ERRCNT leaves the fields of LPHY_STAT. -/
theorem State.fb_countBad (s : State) {l n : Nat} {x : Fld} (hx : x.off = R.LPHY_STAT l) :
    (s.bumpF (F.LPHY_ERRCNT_bad_sync l) n).fb x = s.fb x :=
  State.fb_of_rd (s.rd_bumpF_ne _ n (by rw [hx]; exact LPHY_STAT_ne_ERRCNT l))

/-! ### The signal of a receiver (R112) -/

section
variable (s : State) (l : Nat) (sig : Bool) (n : Nat)

/-- A signal that comes or goes is counted, and shown. -/
theorem State.signalIs_spec :
    (s.signalIs l sig n).fb (F.LPHY_STAT_rx_signal l) = sig ∧ (s.signalIs l sig n).laneState l = s.laneState l
      ∧ (s.signalIs l sig n).events = s.events
      ∧ ∀ off, off ≠ R.LPHY_ERRCNT l → off ≠ R.LPHY_STAT l → (s.signalIs l sig n).rd off = s.rd off := by
  unfold State.signalIs
  split
  · next h => exact ⟨eq_of_beq h, rfl, rfl, fun _ _ _ => rfl⟩
  · dsimp only
    generalize satAdd _ _ _ = v
    set u := (s.setF (F.LPHY_ERRCNT_bad_sync l) v).modLane l (fun x => { x with noSigAt := s.cyc }) with hu
    have hrd (off : Nat) (ho : off ≠ R.LPHY_ERRCNT l) : u.rd off = s.rd off :=
      (State.rd_modLane ..).trans (s.rd_setF_ne (F.LPHY_ERRCNT_bad_sync l) v ho)
    have hevents : u.events = s.events := by simp [hu]
    clear_value u
    refine ⟨u.fb_setF_bit (ok_LPHY_STAT_rx_signal l) rfl sig, ?_, by simp [hevents], fun off ho hs =>
      (u.rd_setF_ne _ _ hs).trans (hrd off ho)⟩
    rw [State.laneState, State.f_setF_apart _ _ _ _ (ok_LPHY_STAT_rx_signal l)
      (.inr (.inl (by simp [F.LPHY_STAT_rx_signal, F.LPHY_STAT_state])))]
    exact State.f_of_rd (x := F.LPHY_STAT_state l) (hrd _ (LPHY_STAT_ne_ERRCNT l))

theorem State.signalIs_same (h : s.fb (F.LPHY_STAT_rx_signal l) = sig) : s.signalIs l sig n = s := by simp [State.signalIs, h]

end

/-- A receiver shows whether it holds block lock, and whether it detects a signal. -/
def State.showLock (s : State) (l : Nat) (lock sig : Bool) : State :=
  (s.setF (F.LPHY_STAT_block_lock l) (b2n lock)).setF (F.LPHY_STAT_rx_signal l) (b2n sig)

theorem State.showLock_spec (s : State) (l : Nat) (lock sig : Bool) :
    (s.showLock l lock sig).fb (F.LPHY_STAT_block_lock l) = lock ∧ (s.showLock l lock sig).laneState l = s.laneState l
      ∧ (s.showLock l lock sig).events = s.events ∧ ∀ off, off ≠ R.LPHY_STAT l → (s.showLock l lock sig).rd off = s.rd off := by
  unfold State.showLock
  refine ⟨?_, ?_, by simp, fun off ho =>
    (State.rd_setF_ne _ (F.LPHY_STAT_rx_signal l) _ ho).trans (s.rd_setF_ne (F.LPHY_STAT_block_lock l) _ ho)⟩
  · rw [State.fb_setF_apart _ _ (ok_LPHY_STAT_rx_signal l) (.inr (.inl (by simp [F.LPHY_STAT_rx_signal, F.LPHY_STAT_block_lock])))]
    exact s.fb_setF_bit (ok_LPHY_STAT_block_lock l) rfl lock
  · rw [State.laneState, State.f_setF_apart _ _ _ _ (ok_LPHY_STAT_rx_signal l)
      (.inr (.inl (by simp [F.LPHY_STAT_rx_signal, F.LPHY_STAT_state]))), State.f_setF_apart _ _ _ _ (ok_LPHY_STAT_block_lock l)
      (.inr (.inl (by simp [F.LPHY_STAT_block_lock, F.LPHY_STAT_state]))), State.laneState]

/-! ### Block lock taken (R112) -/

section
variable {s : State} {l : Fin 50} {n : Nat}

theorem exec_blockLockAcquired_taken (hclock : s.laneClock l = true) (hlock : s.fb (F.LPHY_STAT_block_lock l) = false) (hn : 64 ≤ n) :
    exec (.blockLockAcquired ⟨l, n⟩) s
      = .next (((s.signalIs l true n).showLock l true true).modLane l (fun x => { x with relock := false, fomAt := s.cyc })) := by
  simp only [exec, execBlockLockAcquired, hclock, hlock, hn, Bool.not_false, decide_true, Bool.and_self, if_true]
  rfl

theorem blockLockAcquired_taken (hclock : s.laneClock l = true) (hlock : s.fb (F.LPHY_STAT_block_lock l) = false) (hn : 64 ≤ n) :
    ∃ t, exec (.blockLockAcquired ⟨l, n⟩) s = .next t ∧ t.fb (F.LPHY_STAT_block_lock l) = true
      ∧ (t.lane l).relock = false ∧ t.laneState l = s.laneState l ∧ t.events = s.events := by
  obtain ⟨-, hstate, hevents, -⟩ := s.signalIs_spec l true n
  obtain ⟨hshown, hstate', hevents', -⟩ := (s.signalIs l true n).showLock_spec l true true
  exact ⟨_, exec_blockLockAcquired_taken hclock hlock hn, (State.fb_modLane ..).trans hshown, by rw [State.lane_modLane],
    (State.f_modLane ..).trans (hstate'.trans hstate), by simp [hevents', hevents]⟩

theorem exec_blockLockAcquired_idle (h : s.laneClock l = false ∨ n < 64) : exec (.blockLockAcquired ⟨l, n⟩) s = .next s := by
  rcases h with h | h <;> simp [exec, execBlockLockAcquired, h]

end

/-! ### What the loss of block lock does to a cell lane (R127 to R129) -/

section
variable (s : State) {l : Nat}

/-- A trained lane shows that it has lost its lock. -/
theorem State.lockLost_trained (hl : l < 48) (hup : s.laneState l = 3) :
    s.lockLost l = (let u := s.mark (F.LPHY_STAT_lock_lost l)
      if u.mode == .muster then u.startTraining l
      else if u.mode.laneDownMode then
        if u.isChain l then u.modLane l (fun x => { x with relock := true, relockAt := u.cyc }) else u.takeDown l 0
      else u) := by
  have hmirror : ¬ l ≥ 48 := by omega
  simp only [State.lockLost, hup, laneUp, beq_self_eq_true, if_true, if_neg hmirror, Bool.not_true, Bool.false_eq_true, if_false]

theorem State.lockLost_untrained (hl : l < 48) (hup : s.laneState l ≠ 3) : s.lockLost l = s := by
  have hmirror : ¬ l ≥ 48 := by omega
  have htrained : (s.laneState l == laneUp) = false := by simpa [laneUp] using hup
  simp only [State.lockLost, htrained, if_neg hmirror, Bool.not_false, Bool.false_eq_true, if_false, if_true]

theorem State.mark_keepsFault {y : Fld} (h : FaultField l y) : (s.mark (F.LPHY_STAT_lock_lost l)).f y = s.f y :=
  s.f_mark_apart _ _ (ok_LPHY_STAT_lock_lost l) h.apart_lockLost

/-- Whatever the lane does, its faults stay as they are counted, and the period goes on. -/
theorem State.lockLost_keeps (hl : l < 48) : s.LaneFrame (s.lockLost l) ∧ ∀ y, FaultField l y → (s.lockLost l).f y = s.f y := by
  by_cases hup : s.laneState l = 3
  · rw [s.lockLost_trained hl hup]
    have hmark : s.LaneFrame (s.mark (F.LPHY_STAT_lock_lost l)) := (State.LaneFrame.refl s).mark
    have hfield (y : Fld) (hy : FaultField l y) := s.mark_keepsFault hy
    generalize s.mark (F.LPHY_STAT_lock_lost l) = u at *
    dsimp only
    split
    · exact ⟨hmark.trans (u.startTraining_frame hl), fun y hy => (u.startTraining_f hl (hy.outlasts hl)).trans (hfield y hy)⟩
    · split
      · split
        · exact ⟨hmark.modLane, fun y hy => (State.f_modLane ..).trans (hfield y hy)⟩
        · exact ⟨hmark.trans (u.takeDown_frame 0),
            fun y hy => (u.takeDown_f 0 (hy.outlasts hl) hy.apart_lockLost).trans (hfield y hy)⟩
      · exact ⟨hmark, hfield⟩
  · rw [s.lockLost_untrained hl hup]
    exact ⟨.refl s, fun _ _ => rfl⟩

/-- What a trained lane does in each of the modes. -/
theorem State.lockLost_spec (hl : l < 48) (hup : s.laneState l = 3) : (s.lockLost l).fb (F.LPHY_STAT_lock_lost l) = true
    ∧ (s.mode = .muster → (s.lockLost l).laneState l = 2 ∧ ((s.lockLost l).lane l).attempt = true)
    ∧ (s.mode.laneDownMode = true → s.isChain l = false → (s.lockLost l).laneState l = 4 ∧ s.raised (s.lockLost l) = [.laneDown])
    ∧ (s.mode.laneDownMode = true → s.isChain l = true → (s.lockLost l).laneState l = 3 ∧ ((s.lockLost l).lane l).relock = true
        ∧ ((s.lockLost l).lane l).relockAt = s.cyc ∧ (s.lockLost l).events = s.events) := by
  rw [s.lockLost_trained hl hup]
  have hframe : s.LaneFrame (s.mark (F.LPHY_STAT_lock_lost l)) := (State.LaneFrame.refl s).mark
  have hlost : (s.mark (F.LPHY_STAT_lock_lost l)).fb (F.LPHY_STAT_lock_lost l) = true := s.fb_mark_same (ok_LPHY_STAT_lock_lost l) rfl
  have hstate : (s.mark (F.LPHY_STAT_lock_lost l)).laneState l = 3 :=
    (s.f_mark_apart _ _ (ok_LPHY_STAT_lock_lost l) (.inr (.inl (by simp [F.LPHY_STAT_lock_lost, F.LPHY_STAT_state])))).trans hup
  have hevents : (s.mark (F.LPHY_STAT_lock_lost l)).events = s.events := by simp
  have hmap : s.SameMap (s.mark (F.LPHY_STAT_lock_lost l)) := fun k hk =>
    s.rd_mark_ne _ (by simp only [F.LPHY_STAT_lock_lost, R.LPHY_STAT, R.GLB_LANE_MAP]; omega)
  generalize s.mark (F.LPHY_STAT_lock_lost l) = u at *
  have hmode := hframe.mode
  have hcyc := hframe.cyc
  have hchain := hmap.isChain l
  dsimp only
  rw [hmode, hchain]
  split
  · next hm =>
    have hm : s.mode = .muster := eq_of_beq hm
    refine ⟨?_, fun _ => ⟨u.startTraining_laneState hl, u.startTraining_attempt hl⟩, fun h => absurd h (by rw [hm]; decide),
      fun h => absurd h (by rw [hm]; decide)⟩
    rw [State.fb, u.startTraining_f hl (Fld.outlasts_STAT hl rfl (by simp [F.LPHY_STAT_lock_lost]) (by simp [F.LPHY_STAT_lock_lost]))]
    exact hlost
  · next hm =>
    have hm : s.mode ≠ .muster := by simpa using hm
    split
    · next hdown =>
      split
      · next hc =>
        refine ⟨(State.fb_modLane ..).trans hlost, fun h => absurd h hm, fun _ h => absurd h (by simp [hc]),
          fun _ _ => ⟨(State.f_modLane ..).trans hstate, ?_, ?_, by simp [hevents]⟩⟩
        · rw [State.lane_modLane]
        · rw [State.lane_modLane]
          exact hcyc
      · next hc =>
        refine ⟨u.takeDown_lockLost, fun h => absurd h hm, fun _ _ => ⟨u.takeDown_laneState 0, ?_⟩, fun _ h => absurd h hc⟩
        rw [u.takeDown_raised 0 (by rw [hevents]), State.raised_of_events hevents]
        rfl
    · next hdown => exact ⟨hlost, fun h => absurd h hm, fun h => absurd h hdown, fun h => absurd h hdown⟩

end

/-! ### A receiver without block lock (R112, R113) -/

/-- The receiver has dropped its lock. -/
def State.unlocked (s : State) (l : Nat) (sig : Bool) : State := (s.noSigTake l).showLock l false sig

section
variable (s : State) (l : Nat) (sig : Bool)

theorem State.noSigTake_spec : (s.noSigTake l).events = s.events
    ∧ (s.fb (F.LPHY_STAT_rx_signal l) = true → s.f (F.LPHY_ERRCNT_bad_sync l) ≤ 0xFFFF →
        (s.noSigTake l).f (F.LPHY_ERRCNT_bad_sync l) = s.f (F.LPHY_ERRCNT_bad_sync l))
    ∧ ∀ off, off ≠ R.LPHY_ERRCNT l → (s.noSigTake l).rd off = s.rd off := by
  refine ⟨by simp [State.noSigTake], fun hsig hle => ?_, fun off ho =>
    (State.rd_modLane ..).trans (s.rd_setF_ne (F.LPHY_ERRCNT_bad_sync l) _ ho)⟩
  have hcount : s.noSigCount l = 0 := by simp [State.noSigCount, hsig]
  rw [State.noSigTake, State.f_modLane, s.f_setF_same _ _ (ok_LPHY_ERRCNT_bad_sync l), hcount, satAdd_eq_min, Nat.add_zero,
    Nat.min_eq_right hle]
  have hwidth : (F.LPHY_ERRCNT_bad_sync l).hi + 1 - (F.LPHY_ERRCNT_bad_sync l).lo = 16 := rfl
  rw [hwidth]
  exact Nat.mod_eq_of_lt (by omega)

theorem State.unlocked_frame : s.LaneFrame (s.unlocked l sig) := by
  unfold State.unlocked State.noSigTake State.showLock
  exact (State.LaneFrame.refl s).setF.modLane.setF.setF

theorem State.unlocked_spec : (s.unlocked l sig).fb (F.LPHY_STAT_block_lock l) = false ∧ (s.unlocked l sig).laneState l = s.laneState l
    ∧ (s.unlocked l sig).events = s.events
    ∧ (s.fb (F.LPHY_STAT_rx_signal l) = true → s.f (F.LPHY_ERRCNT_bad_sync l) ≤ 0xFFFF →
        (s.unlocked l sig).f (F.LPHY_ERRCNT_bad_sync l) = s.f (F.LPHY_ERRCNT_bad_sync l))
    ∧ ∀ off, off ≠ R.LPHY_ERRCNT l → off ≠ R.LPHY_STAT l → (s.unlocked l sig).rd off = s.rd off := by
  obtain ⟨hevents, hbad, hrd⟩ := s.noSigTake_spec l
  obtain ⟨hlock, hstate, hevents', hrd'⟩ := (s.noSigTake l).showLock_spec l false sig
  exact ⟨hlock, hstate.trans (State.f_of_rd (x := F.LPHY_STAT_state l) (hrd _ (LPHY_STAT_ne_ERRCNT l))), hevents'.trans hevents,
    fun hsig hle => (State.f_of_rd (x := F.LPHY_ERRCNT_bad_sync l) (hrd' _ (LPHY_STAT_ne_ERRCNT l).symm)).trans (hbad hsig hle),
    fun off ho hs => (hrd' off hs).trans (hrd off ho)⟩

/-- The receiver drops its lock on `n` invalid headers: they are counted, and nothing else of the lane differs. -/
theorem State.unlocked_counted (n : Nat) :
    let u := (s.bumpF (F.LPHY_ERRCNT_bad_sync l) n).unlocked l sig
    s.LaneFrame u ∧ u.fb (F.LPHY_STAT_block_lock l) = false ∧ u.laneState l = s.laneState l ∧ u.events = s.events ∧ s.SameMap u
      ∧ (s.fb (F.LPHY_STAT_rx_signal l) = true → u.f (F.LPHY_ERRCNT_bad_sync l) = min 0xFFFF (s.f (F.LPHY_ERRCNT_bad_sync l) + n)) := by
  dsimp only
  have hcount := s.badSync_bumpF l n
  have hsignal : (s.bumpF (F.LPHY_ERRCNT_bad_sync l) n).fb (F.LPHY_STAT_rx_signal l) = s.fb (F.LPHY_STAT_rx_signal l) := s.fb_countBad rfl
  have hrd (off : Nat) (ho : off ≠ R.LPHY_ERRCNT l) := s.rd_bumpF_ne (F.LPHY_ERRCNT_bad_sync l) n ho
  have hframe : s.LaneFrame (s.bumpF (F.LPHY_ERRCNT_bad_sync l) n) := (State.LaneFrame.refl s).bumpF
  have hevents : (s.bumpF (F.LPHY_ERRCNT_bad_sync l) n).events = s.events := by simp
  generalize s.bumpF (F.LPHY_ERRCNT_bad_sync l) n = a at *
  obtain ⟨hlock, hstate, hevents', hbad, hrd'⟩ := a.unlocked_spec l sig
  refine ⟨hframe.trans (a.unlocked_frame l sig), hlock,
    hstate.trans (State.f_of_rd (x := F.LPHY_STAT_state l) (hrd _ (LPHY_STAT_ne_ERRCNT l))), hevents'.trans hevents, fun k hk => ?_,
    fun hsig => (hbad (hsignal.trans hsig) (by omega)).trans hcount⟩
  have herr : R.GLB_LANE_MAP k ≠ R.LPHY_ERRCNT l := by simp only [R.LPHY_ERRCNT, R.GLB_LANE_MAP]; omega
  have hstat : R.GLB_LANE_MAP k ≠ R.LPHY_STAT l := by simp only [R.LPHY_STAT, R.GLB_LANE_MAP]; omega
  exact (hrd' _ herr hstat).trans (hrd _ herr)

end

end Sys2Proof.Machine
end

section
/-! SUPPORT. Block lock lost in a frame or outside one, the wait of a chain lane, and markers of another lane (R112, R113, R120, R127 to R129). -/

namespace Sys2Proof.Machine

/-! ### A frame that fails (R27, R113) -/

theorem FaultField.high {k : Nat} {y : Fld} (h : FaultField k y) : 0xA0000 ≤ y.off := by
  cases h <;> simp only [F.LPHY_STAT_block_lock, F.LPHY_STAT_miswire, F.LPHY_ERRCNT_bad_sync, F.NCL_ERRCNT_frame_crc_err, R.LPHY_STAT,
    R.LPHY_ERRCNT, R.NCL_ERRCNT] <;> omega

theorem FaultField.ne_NCL_LSTAT {k : Nat} {y : Fld} (h : FaultField k y) (l : Nat) : y.off ≠ R.NCL_LSTAT l := by
  cases h <;> simp only [F.LPHY_STAT_block_lock, F.LPHY_STAT_miswire, F.LPHY_ERRCNT_bad_sync, F.NCL_ERRCNT_frame_crc_err, R.LPHY_STAT,
    R.LPHY_ERRCNT, R.NCL_ERRCNT, R.NCL_LSTAT] <;> omega

theorem FaultField.apart_slots {k : Nat} {y : Fld} (h : FaultField k y) {l : Nat} (hl : l < 48) : (F.NCL_ERRCNT_slot_crc_err l).apart y := by
  cases h with
  | frames j hj => exact .inr (.inr (by simp [F.NCL_ERRCNT_slot_crc_err, F.NCL_ERRCNT_frame_crc_err]))
  | _ =>
    refine .inl ?_
    simp only [F.LPHY_STAT_block_lock, F.LPHY_STAT_miswire, F.LPHY_ERRCNT_bad_sync, F.NCL_ERRCNT_slot_crc_err, R.LPHY_STAT, R.LPHY_ERRCNT,
      R.NCL_ERRCNT]
    omega

section
variable {s : State} {k l : Nat} {y : Fld}

theorem State.gatherMissed_frame (s : State) (l : Nat) : s.LaneFrame (s.gatherMissed l) :=
  .ite (.refl s) (State.LaneFrame.refl s).mark.setF.bumpF.modLane.raise

theorem State.gatherMissed_f (h : FaultField k y) : (s.gatherMissed l).f y = s.f y := by
  have hhigh := h.high
  have hstat : y.off ≠ R.GLB_TIMING_STAT := fun he => absurd (he ▸ hhigh) (by decide)
  have hcount : y.off ≠ R.GLB_LATE_CNT := fun he => absurd (he ▸ hhigh) (by decide)
  unfold State.gatherMissed
  split
  · rfl
  · unfold State.gatherLate
    dsimp only
    rw [State.f_of_rd (State.rd_raise ..), State.f_modLane, State.f_of_rd (State.rd_bumpF_ne _ F.GLB_LATE_CNT_gather_late_cnt _ hcount),
      State.f_of_rd (State.rd_setF_ne _ F.GLB_TIMING_STAT_late_lane _ hstat),
      State.f_of_rd (State.rd_mark_ne _ F.GLB_TIMING_STAT_gather_late hstat)]

theorem State.gatherTally_frame (s : State) (l : Nat) : s.LaneFrame (s.gatherTally l) :=
  .ite (State.LaneFrame.refl s).bumpF (State.LaneFrame.refl s).bumpF.mark

theorem State.gatherTally_f (hl : l < 48) (h : FaultField k y) : (s.gatherTally l).f y = s.f y := by
  have hok : (F.NCL_ERRCNT_slot_crc_err l).ok := ⟨by simp [F.NCL_ERRCNT_slot_crc_err], by simp [F.NCL_ERRCNT_slot_crc_err]⟩
  have hcount : (s.countInvalid l).f y = s.f y := s.f_bumpF_apart _ _ _ hok (h.apart_slots hl)
  unfold State.gatherTally
  dsimp only
  split
  · exact hcount
  · exact (State.f_of_rd (State.rd_mark_ne _ (F.NCL_LSTAT_bale_err l) (h.ne_NCL_LSTAT l))).trans hcount

theorem State.f_grnWrite (s : State) (a : Nat) (bs : List Byte) (x : Fld) : (s.grnWrite a bs).f x = s.f x := State.f_of_regs (by simp) x

theorem State.gatherComplete_frame (s : State) (l : Nat) : s.LaneFrame (s.gatherComplete l) :=
  (State.LaneFrame.refl s).modLane.grnWrite.trans (State.gatherTally_frame _ l)

theorem State.gatherComplete_f (hl : l < 48) (h : FaultField k y) : (s.gatherComplete l).f y = s.f y :=
  (State.gatherTally_f hl h).trans ((State.f_grnWrite ..).trans (State.f_modLane ..))

/-- After GATHER_DONE a failed copy of a frame leaves the faults as they are counted. -/
theorem State.copyFailed_keeps (rx : Nat) (hl : l < 48) (hg : s.Gathered) :
    s.LaneFrame (s.copyFailed l rx) ∧ ∀ y, FaultField k y → (s.copyFailed l rx).f y = s.f y := by
  unfold State.copyFailed
  extract_lets u
  have hu : s.LaneFrame u := (State.LaneFrame.refl s).modLane
  have huf (y : Fld) : u.f y = s.f y := s.f_modLane ..
  clear_value u
  split
  · exact ⟨hu, fun y _ => huf y⟩
  · split
    · have hframe := hu.trans (u.gatherComplete_frame l)
      rw [(hframe.gathered hg).gatherCheck]
      exact ⟨hframe, fun y hy => (State.gatherComplete_f hl hy).trans (huf y)⟩
    · exact ⟨hu.trans (u.gatherMissed_frame l), fun y hy => (State.gatherMissed_f hy).trans (huf y)⟩

end

/-! ### Block lock lost (R112, R113) -/

section
variable {s t : State} {l : Nat}

theorem State.rxLane_lt (s : State) (hl : l < 48) : s.rxLane l < 48 := by
  unfold State.rxLane
  split
  exacts [partnerLane_lt hl, hl]

/-- The end of a path stands in the map and in what its discovery has found. -/
theorem State.rxLane_of_rd (h : ∀ off, off ≠ R.LPHY_ERRCNT l → off ≠ R.LPHY_STAT l → t.rd off = s.rd off) :
    t.rxLane l = s.rxLane l := by
  have hmap : s.SameMap t := fun k hk => h _ (by simp only [R.GLB_LANE_MAP, R.LPHY_ERRCNT]; omega)
    (by simp only [R.GLB_LANE_MAP, R.LPHY_STAT]; omega)
  have hmode : t.f (F.NCL_LSTAT_path_mode l) = s.f (F.NCL_LSTAT_path_mode l) :=
    State.f_of_rd (x := F.NCL_LSTAT_path_mode l) (h _ (by simp only [F.NCL_LSTAT_path_mode, R.NCL_LSTAT, R.LPHY_ERRCNT]; omega)
      (by simp only [F.NCL_LSTAT_path_mode, R.NCL_LSTAT, R.LPHY_STAT]; omega))
  rw [State.rxLane, State.rxLane, State.laneSplit, State.laneSplit, hmap.isChain, hmode]

theorem State.dropLock_none (s : State) (l : Nat) (sig : Bool) : s.dropLock l sig none = (s.unlocked l sig).lockLost l := rfl

/-- The frame in progress is counted as failed, and what of it was decoded is kept. -/
def State.frameCut (s : State) (x : Nat) (cut : List W64) : State :=
  let s := (s.bumpF (F.NCL_ERRCNT_frame_crc_err x) 1).modLane x (fun x => { x with gatherSeen := true })
  if s.inPeriod && s.laneAwaited x then s.storeCut x cut else s

theorem State.dropLock_some (s : State) (hl : l < 48) (sig : Bool) (cut : List W64) :
    s.dropLock l sig (some cut) = (let x := (s.unlocked l sig).rxLane l
      let u := ((s.unlocked l sig).frameCut x cut).lockLost l
      if u.inPeriod && u.laneAwaited x && !u.gatherHad x l then u.copyFailed x l else u) := by
  unfold State.dropLock
  dsimp only
  rw [if_neg (by omega)]
  rfl

theorem State.frameCut_spec (s : State) {x : Nat} (cut : List W64) :
    s.LaneFrame (s.frameCut x cut) ∧ ((s.frameCut x cut).fb (F.LPHY_STAT_block_lock l) = s.fb (F.LPHY_STAT_block_lock l))
      ∧ (s.frameCut x cut).f (F.NCL_ERRCNT_frame_crc_err x) = min 0xFFFF (s.f (F.NCL_ERRCNT_frame_crc_err x) + 1) := by
  have hok : (F.NCL_ERRCNT_frame_crc_err x).ok := ⟨by simp [F.NCL_ERRCNT_frame_crc_err], by simp [F.NCL_ERRCNT_frame_crc_err]⟩
  have hcount := s.f_bumpF_min (F.NCL_ERRCNT_frame_crc_err x) 1 hok
  have hlock : (s.bumpF (F.NCL_ERRCNT_frame_crc_err x) 1).fb (F.LPHY_STAT_block_lock l) = s.fb (F.LPHY_STAT_block_lock l) :=
    s.fb_bumpF_apart 1 hok (.inl (by simp only [F.LPHY_STAT_block_lock, F.NCL_ERRCNT_frame_crc_err, R.LPHY_STAT, R.NCL_ERRCNT]; omega))
  unfold State.frameCut
  extract_lets u
  have hu : s.LaneFrame u := (State.LaneFrame.refl s).bumpF.modLane
  have huf (y : Fld) : u.f y = (s.bumpF (F.NCL_ERRCNT_frame_crc_err x) 1).f y := State.f_modLane ..
  clear_value u
  have hstored : u.LaneFrame (if u.inPeriod && u.laneAwaited x then u.storeCut x cut else u)
      ∧ ∀ y, (if u.inPeriod && u.laneAwaited x then u.storeCut x cut else u).f y = u.f y := by
    split
    · unfold State.storeCut
      split
      · exact ⟨.refl u, fun _ => rfl⟩
      · exact ⟨(State.LaneFrame.refl u).grnWrite, fun y => u.f_grnWrite ..⟩
    · exact ⟨.refl u, fun _ => rfl⟩
  refine ⟨hu.trans hstored.1, ?_, ?_⟩
  · rw [State.fb, hstored.2, huf]
    exact hlock
  · rw [hstored.2, huf, hcount]
    rfl

/-- A frame that the loss of lock cuts short is counted as failed, whatever the lane does then. -/
theorem State.dropLock_cut (hl : l < 48) (sig : Bool) (cut : List W64) (hg : s.Gathered) :
    s.LaneFrame (s.dropLock l sig (some cut)) ∧ (s.dropLock l sig (some cut)).fb (F.LPHY_STAT_block_lock l) = false
      ∧ (s.dropLock l sig (some cut)).f (F.NCL_ERRCNT_frame_crc_err (s.rxLane l))
        = min 0xFFFF (s.f (F.NCL_ERRCNT_frame_crc_err (s.rxLane l)) + 1) := by
  obtain ⟨hlock, -, -, -, hrd⟩ := s.unlocked_spec l sig
  have hframe := s.unlocked_frame l sig
  have hrx := State.rxLane_of_rd hrd
  have hx := s.rxLane_lt hl
  have hcount : (s.unlocked l sig).f (F.NCL_ERRCNT_frame_crc_err (s.rxLane l)) = s.f (F.NCL_ERRCNT_frame_crc_err (s.rxLane l)) :=
    State.f_of_rd (x := F.NCL_ERRCNT_frame_crc_err _) (hrd _
      (by simp only [F.NCL_ERRCNT_frame_crc_err, R.NCL_ERRCNT, R.LPHY_ERRCNT]; omega)
      (by simp only [F.NCL_ERRCNT_frame_crc_err, R.NCL_ERRCNT, R.LPHY_STAT]; omega))
  rw [s.dropLock_some hl, hrx]
  generalize s.rxLane l = x at *
  generalize s.unlocked l sig = u at *
  obtain ⟨hcut, hcutLock, hcutCount⟩ := u.frameCut_spec (l := l) (x := x) cut
  dsimp only
  generalize u.frameCut x cut = v at *
  obtain ⟨hlost, hfield⟩ := v.lockLost_keeps hl
  have hw : s.LaneFrame (v.lockLost l) := (hframe.trans hcut).trans hlost
  have hend : s.LaneFrame (if (v.lockLost l).inPeriod && (v.lockLost l).laneAwaited x && !(v.lockLost l).gatherHad x l then
        (v.lockLost l).copyFailed x l else v.lockLost l)
      ∧ ∀ y, FaultField l y → (if (v.lockLost l).inPeriod && (v.lockLost l).laneAwaited x && !(v.lockLost l).gatherHad x l then
        (v.lockLost l).copyFailed x l else v.lockLost l).f y = v.f y := by
    split
    · obtain ⟨hfailed, hkept⟩ := State.copyFailed_keeps (k := l) l hx (hw.gathered hg)
      exact ⟨hw.trans hfailed, fun y hy => (hkept y hy).trans (hfield y hy)⟩
    · exact ⟨hw, hfield⟩
  refine ⟨hend.1, ?_, ?_⟩
  · rw [State.fb, hend.2 _ .lock]
    exact hcutLock.trans hlock
  · rw [hend.2 _ (.frames x hx), hcutCount, hcount]

end

section
variable {s : State} {l : Fin 50} {x : Fin 48} {n : Nat} {sig : Bool}

theorem exec_blockLockLost_dropped {inFrame : Option (List W64)} (hlock : s.fb (F.LPHY_STAT_block_lock l) = true) (hn : 16 ≤ n) :
    exec (.blockLockLost l n sig inFrame) s
      = .next (((s.bumpF (F.LPHY_ERRCNT_bad_sync l) n).dropLock l sig inFrame).gatherCheck).settle := by
  have hlock' : (s.bumpF (F.LPHY_ERRCNT_bad_sync l) n).fb (F.LPHY_STAT_block_lock l) = true := (s.fb_countBad rfl).trans hlock
  simp only [exec, execBlockLockLost, hlock', hn, Bool.not_true, Bool.false_eq_true, if_false, if_true]

theorem exec_blockLockLost_kept {inFrame : Option (List W64)} (hlock : s.fb (F.LPHY_STAT_block_lock l) = true) (hn : n < 16) :
    exec (.blockLockLost l n sig inFrame) s = .next (s.bumpF (F.LPHY_ERRCNT_bad_sync l) n) := by
  have hlock' : (s.bumpF (F.LPHY_ERRCNT_bad_sync l) n).fb (F.LPHY_STAT_block_lock l) = true := (s.fb_countBad rfl).trans hlock
  simp only [exec, execBlockLockLost, hlock', Nat.not_le.mpr hn, Bool.not_true, Bool.false_eq_true, if_false]

theorem exec_blockLockLost_unlocked {inFrame : Option (List W64)} (hlock : s.fb (F.LPHY_STAT_block_lock l) = false) (hup : s.up = true) :
    exec (.blockLockLost l n sig inFrame) s = .next ((s.bumpF (F.LPHY_ERRCNT_bad_sync l) n).signalIs l sig 0) := by
  have hlock' : (s.bumpF (F.LPHY_ERRCNT_bad_sync l) n).fb (F.LPHY_STAT_block_lock l) = false := (s.fb_countBad rfl).trans hlock
  have hup' : (s.bumpF (F.LPHY_ERRCNT_bad_sync l) n).up = true := hup
  simp only [exec, execBlockLockLost, hlock', hup', Bool.not_false, if_true]

/-- Outside a frame: the count, and what a trained lane does. -/
theorem blockLockLost_idle (hg : s.Gathered) (hs : s.Settled) (hlock : s.fb (F.LPHY_STAT_block_lock x) = true)
    (hsig : s.fb (F.LPHY_STAT_rx_signal x) = true) (hup : s.laneState x = 3) (hn : 16 ≤ n) :
    ∃ t, exec (.blockLockLost (x.castLE (by decide)) n sig none) s = .next t ∧ t.fb (F.LPHY_STAT_block_lock x) = false
      ∧ t.fb (F.LPHY_STAT_lock_lost x) = true ∧ t.f (F.LPHY_ERRCNT_bad_sync x) = min 0xFFFF (s.f (F.LPHY_ERRCNT_bad_sync x) + n)
      ∧ (s.mode = .muster → t.laneState x = 2 ∧ (t.lane x).attempt = true)
      ∧ (s.mode.laneDownMode = true → s.isChain x = false → t.laneState x = 4 ∧ s.raised t = [.laneDown])
      ∧ (s.mode.laneDownMode = true → s.isChain x = true → t.laneState x = 3 ∧ (t.lane x).relock = true
          ∧ (t.lane x).relockAt = s.cyc ∧ t.events = s.events) := by
  have hexec := exec_blockLockLost_dropped (l := x.castLE (by decide)) (sig := sig) (inFrame := none) hlock hn
  rw [State.dropLock_none, Fin.val_castLE] at hexec
  obtain ⟨hframe, hunlocked, hstate, huevents, hmap, hbad⟩ := s.unlocked_counted x sig n
  rw [hup] at hstate
  replace hbad := hbad hsig
  generalize (s.bumpF (F.LPHY_ERRCNT_bad_sync x) n).unlocked x sig = u at *
  obtain ⟨hwframe, hwfield⟩ := u.lockLost_keeps x.isLt
  obtain ⟨hlost, hmuster, hring, hchain⟩ := u.lockLost_spec x.isLt hstate
  obtain ⟨hregs, hevents, -, hlane⟩ := (hframe.trans hwframe).ends_spec hg hs
  rw [hframe.mode, hmap.isChain, State.raised, huevents, ← State.raised] at hring
  rw [hframe.mode] at hmuster
  rw [hframe.mode, hmap.isChain, hframe.cyc, huevents] at hchain
  have hended (v : Nat) (h : (u.lockLost x).laneState x = v) : (u.lockLost x).gatherCheck.settle.laneState x = v :=
    (State.f_of_regs hregs _).trans h
  refine ⟨_, hexec, ?_, (State.fb_of_regs hregs _).trans hlost, ?_, fun hm => ?_, fun hm hc => ?_, fun hm hc => ?_⟩
  · rw [State.fb_of_regs hregs, State.fb, hwfield _ .lock]
    exact hunlocked
  · rw [State.f_of_regs hregs, hwfield _ .badSync, hbad]
  · obtain ⟨htraining, hattempt⟩ := hmuster hm
    exact ⟨hended _ htraining, by rw [hlane, hattempt]⟩
  · obtain ⟨hdown, hraised⟩ := hring hm hc
    exact ⟨hended _ hdown, by rw [State.raised, hevents, ← State.raised, hraised]⟩
  · obtain ⟨hup', hrelock, hat, hquiet⟩ := hchain hm hc
    exact ⟨hended _ hup', by rw [hlane, hrelock], by rw [hlane, hat], by rw [hevents, hquiet]⟩

/-- In a frame: the frame is counted as failed, on the lane whose frames come back there (log entry 14). -/
theorem blockLockLost_inFrame (cut : List W64) (hg : s.Gathered) (hs : s.Settled) (hlock : s.fb (F.LPHY_STAT_block_lock x) = true)
    (hn : 16 ≤ n) :
    ∃ t, exec (.blockLockLost (x.castLE (by decide)) n sig (some cut)) s = .next t ∧ t.fb (F.LPHY_STAT_block_lock x) = false
      ∧ t.f (F.NCL_ERRCNT_frame_crc_err (s.rxLane x)) = min 0xFFFF (s.f (F.NCL_ERRCNT_frame_crc_err (s.rxLane x)) + 1) := by
  have hexec := exec_blockLockLost_dropped (l := x.castLE (by decide)) (sig := sig) (inFrame := some cut) hlock hn
  rw [Fin.val_castLE] at hexec
  have hframe : s.LaneFrame (s.bumpF (F.LPHY_ERRCNT_bad_sync x) n) := (State.LaneFrame.refl s).bumpF
  have hrd (off : Nat) (ho : off ≠ R.LPHY_ERRCNT x) : (s.bumpF (F.LPHY_ERRCNT_bad_sync x) n).rd off = s.rd off := s.rd_bumpF_ne _ n ho
  have hrx := State.rxLane_of_rd (l := x) fun off ho _ => hrd off ho
  have hx := s.rxLane_lt x.isLt
  obtain ⟨hdrop, hdlock, hcount⟩ := State.dropLock_cut x.isLt sig cut (hframe.gathered hg)
  obtain ⟨hregs, -, -, -⟩ := (hframe.trans hdrop).ends_spec hg hs
  refine ⟨_, hexec, (State.fb_of_regs hregs _).trans hdlock, ?_⟩
  rw [State.f_of_regs hregs, ← hrx, hcount, hrx]
  rw [State.f_of_rd (x := F.NCL_ERRCNT_frame_crc_err (s.rxLane x)) (hrd _
    (by simp only [F.NCL_ERRCNT_frame_crc_err, R.NCL_ERRCNT, R.LPHY_ERRCNT]; omega))]

/-- A receiver without lock counts, and shows the signal. -/
theorem blockLockLost_unlocked (hlock : s.fb (F.LPHY_STAT_block_lock l) = false) (hup : s.up = true) :
    ∃ t, exec (.blockLockLost l n sig none) s = .next t ∧ t.fb (F.LPHY_STAT_rx_signal l) = sig ∧ t.events = s.events
      ∧ (s.fb (F.LPHY_STAT_rx_signal l) = sig → t.f (F.LPHY_ERRCNT_bad_sync l) = min 0xFFFF (s.f (F.LPHY_ERRCNT_bad_sync l) + n))
      ∧ (∀ off, off ≠ R.LPHY_ERRCNT l → off ≠ R.LPHY_STAT l → t.rd off = s.rd off) := by
  obtain ⟨hsignal, -, hevents, hrd⟩ := (s.bumpF (F.LPHY_ERRCNT_bad_sync l) n).signalIs_spec l sig 0
  refine ⟨_, exec_blockLockLost_unlocked hlock hup, hsignal, hevents.trans (by simp), fun h => ?_,
    fun off ho hst => (hrd off ho hst).trans (s.rd_bumpF_ne _ n ho)⟩
  rw [State.signalIs_same _ _ _ _ ((s.fb_countBad rfl).trans h), State.badSync_bumpF]

/-- Fewer invalid headers than 16 are counted. -/
theorem blockLockLost_kept (cut : List W64) (hlock : s.fb (F.LPHY_STAT_block_lock l) = true) (hn : n < 16) :
    ∃ t, exec (.blockLockLost l n sig (some cut)) s = .next t ∧ State.RegsOnly s t ∧ t.events = s.events
      ∧ t.f (F.LPHY_ERRCNT_bad_sync l) = min 0xFFFF (s.f (F.LPHY_ERRCNT_bad_sync l) + n)
      ∧ (∀ off, off ≠ R.LPHY_ERRCNT l → t.rd off = s.rd off) :=
  ⟨_, exec_blockLockLost_kept hlock hn, (State.RegsOnly.refl s).bumpF _ _, by simp, s.badSync_bumpF l n, fun _ ho => s.rd_bumpF_ne _ n ho⟩

/-! ### A chain lane that does not regain its lock (R129) -/

theorem exec_chainRelockTimeout_down (hrelock : (s.lane x).relock = true) (hlock : s.fb (F.LPHY_STAT_block_lock x) = false)
    (hup : s.laneState x = 3) :
    exec (.chainRelockTimeout x) s
      = .next ((s.advanceCyc ((s.lane x).relockAt + 3125)).takeDown x 0).gatherCheck.settle := by
  simp [exec, execChainRelockTimeout, hrelock, hlock, hup, laneUp, cycPerUs]

theorem State.TimeOnly.settled {s t : State} (h : s.TimeOnly t) (hs : s.Settled) : t.Settled := by
  rw [h]
  exact hs

theorem State.TimeOnly.gathered {s t : State} (h : s.TimeOnly t) (hg : s.Gathered) : t.Gathered := by
  rw [h]
  exact hg

theorem chainRelockTimeout_down (hg : s.Gathered) (hs : s.Settled) (hrelock : (s.lane x).relock = true)
    (hlock : s.fb (F.LPHY_STAT_block_lock x) = false) (hup : s.laneState x = 3) :
    ∃ t, exec (.chainRelockTimeout x) s = .next t ∧ t.laneState x = 4 ∧ s.raised t = [.laneDown]
      ∧ t.cyc = max s.cyc ((s.lane x).relockAt + 3125) := by
  have hexec := exec_chainRelockTimeout_down hrelock hlock hup
  have htime := s.advanceCyc_timeOnly ((s.lane x).relockAt + 3125)
  have hcyc := s.advanceCyc_cyc ((s.lane x).relockAt + 3125)
  have hevents := s.advanceCyc_events ((s.lane x).relockAt + 3125)
  generalize s.advanceCyc ((s.lane x).relockAt + 3125) = u at *
  have hframe := u.takeDown_frame (l := x) 0
  obtain ⟨hregs, htevents, htcyc, -⟩ := hframe.ends_spec (htime.gathered hg) (htime.settled hs)
  refine ⟨_, hexec, (State.f_of_regs hregs _).trans (u.takeDown_laneState 0), ?_, by rw [htcyc, hframe.cyc, hcyc]⟩
  rw [State.raised, htevents, ← State.raised, u.takeDown_raised 0 (by rw [hevents]), State.raised_of_events hevents]
  rfl

theorem exec_chainRelockTimeout_idle (hrelock : (s.lane x).relock = false) : exec (.chainRelockTimeout x) s = .next s := by
  simp [exec, execChainRelockTimeout, hrelock]

/-! ### A marker that comes back (R120) -/

variable {y : RxSet}

/-- The lane of a marker with another lane's number: the miswire is reported, and an attempt in progress fails. -/
def State.markerWrong (s : State) (l lane : Nat) : State :=
  let s := s.miswired l lane
  if (s.lane l).attempt then s.modLane l (fun x => { x with markerFail := true }) else s

theorem exec_markerReceived_wrong {k : Nat} (hwhole : setWhole 5 y = true) (hrx : s.rxDelivers x = true) (hlane : bitsOf y.payload.toNat 5 0 = k)
    (huse : s.laneInUse x = true) (hk : k ≠ x.val) (hpartner : s.isChain x = true → k ≠ partnerLane x) :
    exec (.markerReceived x y) s = .next (let u := s.markerWrong x k
      if u.mode.laneDownMode && u.laneState x == 3 then (u.takeDown x 2).gatherCheck.settle else u) := by
  have hown : (k == x.val) = false := by simpa using hk
  have hother : (s.isChain x && k == partnerLane x) = false := by
    cases hc : s.isChain x
    · rfl
    · simpa using hpartner hc
  simp only [exec, execMarkerReceived, State.markerWrong, State.miswired, if_neg hk, hwhole, hrx, hlane, huse, hown, hother, Bool.not_true,
    Bool.or_self, Bool.false_eq_true, if_false, laneUp]
  split <;> split <;> rfl

theorem State.markerWrong_spec (s : State) {l lane : Nat} (h : lane ≠ l) :
    s.LaneFrame (s.markerWrong l lane) ∧ (s.markerWrong l lane).fb (F.LPHY_STAT_miswire l) = true
      ∧ (s.markerWrong l lane).laneState l = s.laneState l ∧ s.events <+: (s.markerWrong l lane).events
      ∧ s.raised (s.markerWrong l lane) = [.laneMiswire] := by
  obtain ⟨hmiswire, -, hraised⟩ := s.miswired_other h
  have hstate : (s.miswired l lane).laneState l = s.laneState l := by
    rw [State.miswired, if_neg h]
    exact s.f_mark_apart _ _ ⟨by simp [F.LPHY_STAT_miswire], by simp [F.LPHY_STAT_miswire]⟩
      (.inr (.inl (by simp [F.LPHY_STAT_miswire, F.LPHY_STAT_state])))
  have hframe : s.LaneFrame (s.miswired l lane) := .ite (.refl s) (State.LaneFrame.refl s).mark.raise
  have hevents : s.events <+: (s.miswired l lane).events := by
    rw [State.miswired, if_neg h]
    exact (s.mark _).events_raise_grown .laneMiswire l 0 lane
  unfold State.markerWrong
  generalize s.miswired l lane = u at *
  dsimp only
  split
  · exact ⟨hframe.modLane, (State.fb_modLane ..).trans hmiswire, (State.f_modLane ..).trans hstate, by simpa using hevents,
      by simpa [State.raised] using hraised⟩
  · exact ⟨hframe, hmiswire, hstate, hevents, hraised⟩

theorem markerReceived_wrong {k : Nat} (hg : s.Gathered) (hs : s.Settled) (hwhole : setWhole 5 y = true) (hrx : s.rxDelivers x = true)
    (hlane : bitsOf y.payload.toNat 5 0 = k) (huse : s.laneInUse x = true) (hk : k ≠ x.val)
    (hpartner : s.isChain x = true → k ≠ partnerLane x) :
    ∃ t, exec (.markerReceived x y) s = .next t ∧ t.fb (F.LPHY_STAT_miswire x) = true
      ∧ (s.mode.laneDownMode = true → s.laneState x = 3 → t.laneState x = 4 ∧ s.raised t = [.laneMiswire, .laneDown])
      ∧ (s.mode.laneDownMode = false → t.laneState x = s.laneState x ∧ s.raised t = [.laneMiswire]) := by
  have hexec := exec_markerReceived_wrong hwhole hrx hlane huse hk hpartner
  obtain ⟨hframe, hmiswire, hstate, hgrown, hraised⟩ := s.markerWrong_spec hk
  generalize s.markerWrong x k = u at *
  dsimp only at hexec
  rw [hframe.mode, hstate] at hexec
  by_cases hdown : s.mode.laneDownMode = true ∧ s.laneState x = 3
  · obtain ⟨hmode, hup⟩ := hdown
    rw [if_pos (by simp [hmode, hup])] at hexec
    obtain ⟨hregs, hevents, -, -⟩ := (hframe.trans (u.takeDown_frame (l := x) 2)).ends_spec hg hs
    refine ⟨_, hexec, ?_, fun _ _ => ⟨(State.f_of_regs hregs _).trans (u.takeDown_laneState 2), ?_⟩, fun h => absurd hmode (by simp [h])⟩
    · rw [State.fb_of_regs hregs, State.fb, u.takeDown_f 2 (FaultField.miswire.outlasts x.isLt) FaultField.miswire.apart_lockLost]
      exact hmiswire
    · rw [State.raised, hevents, ← State.raised, u.takeDown_raised 2 hgrown, hraised]
      rfl
  · have hcond : (s.mode.laneDownMode && s.laneState x == 3) = false := by simpa using hdown
    rw [if_neg (by simp [hcond])] at hexec
    exact ⟨_, hexec, hmiswire, fun hm hup => absurd ⟨hm, hup⟩ hdown, fun _ => ⟨hstate, hraised⟩⟩

theorem exec_markerReceived_own (h : setWhole 5 y = false ∨ s.rxDelivers x = false ∨ bitsOf y.payload.toNat 5 0 = x) :
    exec (.markerReceived x y) s = .next s := by
  rcases h with h | h | h <;> simp [exec, execMarkerReceived, h]

end

end Sys2Proof.Machine
end

section
/-! SUPPORT. The elastic buffer, the markers of a cell lane, and the BLOCK sets that repeat (R92, R114, R117, R119, R120, R323). -/

namespace Sys2Proof.Machine

/-! ### Elastic buffer (R117) -/

section
variable {s : State} {l : Fin 50} {fill : Fin 5}

theorem exec_idleDelete_deletes (hlock : s.fb (F.LPHY_STAT_block_lock l) = true) (hfill : 3 ≤ fill.val) :
    exec (.idleDelete ⟨l, fill, false⟩) s
      = .next ((s.bumpF (F.LPHY_RMCNT_idle_del l) 1).modLane l (fun x => { x with fill := fill.val - 1 })) := by
  simp [exec, execIdleDelete, hlock, hfill]

theorem exec_idleInsert_inserts (hlock : s.fb (F.LPHY_STAT_block_lock l) = true) (hfill : fill.val ≤ 1) :
    exec (.idleInsert ⟨l, fill, false⟩) s
      = .next ((s.bumpF (F.LPHY_RMCNT_idle_ins l) 1).modLane l (fun x => { x with fill := fill.val + 1 })) := by
  simp [exec, execIdleInsert, hlock, hfill]

/-- An IDLE block deleted or inserted is counted in its own half of LPHY_RMCNT. -/
theorem State.idleCounted (s : State) (l k : Nat) {x y : Fld} (hx : x.ok) (hxy : x.apart y) (hwidth : x.hi + 1 - x.lo = 16) :
    let t := (s.bumpF x 1).modLane l (fun z => { z with fill := k })
    t.f x = min 0xFFFF (s.f x + 1) ∧ (t.lane l).fill = k ∧ t.f y = s.f y ∧ t.events = s.events := by
  refine ⟨?_, by rw [State.lane_modLane], (State.f_modLane ..).trans (s.f_bumpF_apart x y 1 hx hxy), by simp⟩
  rw [State.f_modLane, s.f_bumpF_min x 1 hx, hwidth]
  rfl

theorem idleDelete_deletes (hlock : s.fb (F.LPHY_STAT_block_lock l) = true) (hfill : 3 ≤ fill.val) :
    ∃ t, exec (.idleDelete ⟨l, fill, false⟩) s = .next t ∧ t.f (F.LPHY_RMCNT_idle_del l) = min 0xFFFF (s.f (F.LPHY_RMCNT_idle_del l) + 1)
      ∧ (t.lane l).fill = fill - 1 ∧ t.f (F.LPHY_RMCNT_idle_ins l) = s.f (F.LPHY_RMCNT_idle_ins l) ∧ t.events = s.events :=
  ⟨_, exec_idleDelete_deletes hlock hfill,
    s.idleCounted l _ ⟨by simp [F.LPHY_RMCNT_idle_del], by simp [F.LPHY_RMCNT_idle_del]⟩
      (.inr (.inl (by simp [F.LPHY_RMCNT_idle_del, F.LPHY_RMCNT_idle_ins]))) rfl⟩

theorem idleInsert_inserts (hlock : s.fb (F.LPHY_STAT_block_lock l) = true) (hfill : fill.val ≤ 1) :
    ∃ t, exec (.idleInsert ⟨l, fill, false⟩) s = .next t ∧ t.f (F.LPHY_RMCNT_idle_ins l) = min 0xFFFF (s.f (F.LPHY_RMCNT_idle_ins l) + 1)
      ∧ (t.lane l).fill = fill + 1 ∧ t.f (F.LPHY_RMCNT_idle_del l) = s.f (F.LPHY_RMCNT_idle_del l) ∧ t.events = s.events :=
  ⟨_, exec_idleInsert_inserts hlock hfill,
    s.idleCounted l _ ⟨by simp [F.LPHY_RMCNT_idle_ins], by simp [F.LPHY_RMCNT_idle_ins]⟩
      (.inr (.inr (by simp [F.LPHY_RMCNT_idle_del, F.LPHY_RMCNT_idle_ins]))) rfl⟩

/-- Inside a frame no IDLE block is deleted, and none inserted: the fill alone is noted. -/
theorem idle_inFrame : ∀ i ∈ [Instr.idleDelete ⟨l, fill, true⟩, .idleInsert ⟨l, fill, true⟩],
    ∃ t, exec i s = .next t ∧ t.regs = s.regs := by
  intro i hi
  have hnoted : exec i s = .next (if s.fb (F.LPHY_STAT_block_lock l) then s.modLane l (fun x => { x with fill := fill }) else s) := by
    rcases List.mem_pair.mp hi with rfl | rfl
    · simp only [exec, execIdleDelete, Bool.true_eq_false, and_false, if_false]
      split <;> rfl
    · simp only [exec, execIdleInsert, Bool.true_eq_false, and_false, if_false]
      split <;> rfl
  refine ⟨_, hnoted, ?_⟩
  split
  · simp
  · rfl

end

/-! ### A marker that leaves a cell lane (R114, R119, R120) -/

/-- Room for IDLE blocks is made by waiting. -/
theorem le_roomFor (k : Nat) (runs : List (Nat × Nat)) (c : Nat) : c ≤ roomFor k runs c := by
  induction runs generalizing c with
  | nil => exact Nat.le_refl c
  | cons r rest ih =>
    unfold roomFor
    split
    · exact Nat.le_refl c
    · exact (Nat.le_max_left ..).trans (ih _)

theorem LaneTx.le_startAt (x : LaneTx) (c k : Nat) (frame : Bool) : c ≤ x.startAt c k frame :=
  (Nat.le_max_left ..).trans (le_roomFor ..)

section
variable {s : State} {l : Nat}

theorem State.flushOne_alone {d : DueSet} (hdue : (s.lane l).tx.due = [d]) (hcode : d.set.code = 5) :
    s.flushOne l = (let x := (s.lane l).tx
      if s.mayStart l (x.startAt d.since 1 false) then
        s.modLane l (fun y => { y with sets := [d.set], tx := { (x.put d.since 1 false) with
          due := [], markAt := x.startAt d.since 1 false } })
      else s) := by
  have hnext : nextDue (s.lane l).tx.due = some d := by
    rw [hdue]
    rfl
  have herase : (s.lane l).tx.due.erase d = [] := by simp [hdue]
  simp only [State.flushOne, hnext, herase, hcode, Nat.reduceEqDiff, if_false, if_true, false_and]

/-- A marker that falls due where no set waits leaves in its own cycle, or waits; the lane's count stays. -/
theorem State.sendDue_marker {x : TxSet} (hcoded : s.laneCoded l = true) (hdue : (s.lane l).tx.due = []) (hcode : x.code = 5) :
    s.LanesOnly (s.sendDue l 5 [x]) ∧ ((s.sendDue l 5 [x]).lane l).mcount = (s.lane l).mcount
      ∧ (((s.sendDue l 5 [x]).lane l).sets = [x] ∧ ((s.sendDue l 5 [x]).lane l).tx.markAt = s.cyc
        ∨ ((s.sendDue l 5 [x]).lane l).tx.markAt = (s.lane l).tx.markAt
          ∧ ((s.sendDue l 5 [x]).lane l).tx.due = [{ rank := 5, since := s.cyc, set := x }]) := by
  set u := s.modLane l (fun y => { y with tx := { y.tx with due := y.tx.due ++ [{ rank := 5, since := s.cyc, set := x }] } }) with hu
  have hulane : u.lane l = { s.lane l with tx := { (s.lane l).tx with due := [{ rank := 5, since := s.cyc, set := x }] } } := by
    rw [hu, State.lane_modLane, hdue, List.nil_append]
  have hframe : s.LanesOnly u := rfl
  have hudue : (u.lane l).tx.due = [{ rank := 5, since := s.cyc, set := x }] := by rw [hulane]
  have hmark : (u.lane l).tx.markAt = (s.lane l).tx.markAt := by rw [hulane]
  have hcount : (u.lane l).mcount = (s.lane l).mcount := by rw [hulane]
  have heq : s.sendDue l 5 [x] = u.flushOne l := by
    unfold State.sendDue
    rw [if_pos hcoded]
    change u.flushLane l = _
    rw [State.flushLane, hudue]
    rfl
  clear_value u
  rw [heq, State.flushOne_alone hudue hcode]
  dsimp only
  split
  · next hmay =>
    obtain ⟨⟨-, hnow⟩, -⟩ : (u.laneCoded l = true ∧ (u.lane l).tx.startAt s.cyc 1 false ≤ u.cyc) ∧ _ := by
      simpa only [State.mayStart, Bool.and_eq_true, decide_eq_true_eq] using hmay
    have hstart : (u.lane l).tx.startAt s.cyc 1 false = s.cyc := by
      rw [hframe.cyc] at hnow
      exact Nat.le_antisymm hnow (LaneTx.le_startAt ..)
    refine ⟨hframe.trans rfl, by rw [State.lane_modLane, hcount], .inl ⟨by rw [State.lane_modLane], ?_⟩⟩
    rw [State.lane_modLane]
    exact hstart
  · exact ⟨hframe, hcount, .inr ⟨hmark, hudue⟩⟩

theorem State.flushLane_none (h : (s.lane l).tx.due = []) : s.flushLane l = s := by
  rw [State.flushLane, h]
  rfl

/-- On a cell lane every set takes its rank. -/
theorem State.sendSet_cell (s : State) (rank : Nat) (x : TxSet) (hl : l < 48) : s.sendSet l rank x = s.sendDue l rank [x] :=
  if_neg fun h => absurd h.1 (by omega)

theorem exec_markerSend_due {x : Fin 48} (huse : s.laneInUse x = true) (hlow : 2 ≤ s.laneState x) (hhigh : s.laneState x ≤ 5)
    (hdue : (s.lane x).tx.due = []) :
    exec (.markerSend x) s = .next (((s.advanceCyc ((s.lane x).tx.markAt + 65536)).modLane x
      (fun y => { y with mcount := ((s.lane x).mcount + 1) % 2 ^ 24 })).sendDue x 5 [mkSet 5 (markPayload x (s.lane x).mcount)]) := by
  have hcond : s.laneInUse x = true ∧ laneTraining ≤ s.laneState x ∧ s.laneState x ≤ laneDead
      ∧ (s.lane x).tx.due.all (fun d => d.set.code != 5) = true := ⟨huse, hlow, hhigh, by rw [hdue]; rfl⟩
  have hflush : (s.advanceCyc ((s.lane x).tx.markAt + 65536)).flushLane x = s.advanceCyc ((s.lane x).tx.markAt + 65536) :=
    State.flushLane_none (by rw [State.advanceCyc_lane, hdue])
  simp only [exec, execMarkerSend, if_pos hcond, markCycles, hflush, State.advanceCyc_lane, State.sendSet_cell _ _ _ x.isLt]

theorem markerSend_due {x : Fin 48} (huse : s.laneInUse x = true) (hlow : 2 ≤ s.laneState x) (hhigh : s.laneState x ≤ 5)
    (hcoded : s.laneCoded x = true) (hdue : (s.lane x).tx.due = []) :
    ∃ t, exec (.markerSend x) s = .next t ∧ (t.lane x).mcount = ((s.lane x).mcount + 1) % 2 ^ 24 ∧ State.SameRegs s t
      ∧ t.cyc = max s.cyc ((s.lane x).tx.markAt + 65536)
      ∧ ((t.lane x).sets = [mkSet 5 (x + (s.lane x).mcount % 2 ^ 24 * 256)] ∧ (t.lane x).tx.markAt = t.cyc
        ∨ (t.lane x).tx.markAt = (s.lane x).tx.markAt
          ∧ (t.lane x).tx.due = [{ rank := 5, since := t.cyc, set := mkSet 5 (x + (s.lane x).mcount % 2 ^ 24 * 256) }]) := by
  have hexec := exec_markerSend_due huse hlow hhigh hdue
  set a := s.advanceCyc ((s.lane x).tx.markAt + 65536) with ha
  set u := a.modLane x (fun y => { y with mcount := ((s.lane x).mcount + 1) % 2 ^ 24 }) with hu
  have hulane : u.lane x = { s.lane x with mcount := ((s.lane x).mcount + 1) % 2 ^ 24 } := by
    rw [hu, State.lane_modLane, ha, State.advanceCyc_lane]
  have hucoded : u.laneCoded x = true := (s.advanceCyc_laneCoded _ x).trans hcoded
  have hucyc : u.cyc = max s.cyc ((s.lane x).tx.markAt + 65536) := by simp [hu, ha, State.advanceCyc_cyc]
  have hurd (off : Nat) (ho : off ≠ R.TIM_STAT) : u.rd off = s.rd off := (State.rd_modLane ..).trans (s.advanceCyc_rd _ ho)
  clear_value u
  obtain ⟨hframe, hcount, hsent⟩ :=
    State.sendDue_marker (x := mkSet 5 (markPayload x (s.lane x).mcount)) hucoded (by rw [hulane, hdue]) rfl
  refine ⟨_, hexec, by rw [hcount, hulane], fun off ho => (State.rd_of_regs (by rw [hframe]) off).trans (hurd off ho),
    hframe.cyc.trans hucyc, ?_⟩
  rw [hframe.cyc]
  rw [hulane] at hsent
  exact hsent

end

/-! ### BLOCK sets that repeat (R92, R323) -/

/-- One more BLOCK set leaves a lane. -/
def State.blockOn (s : State) (l : Nat) : State := s.sendNow l [blockSet s.repeatClass s.entitled]

section
variable {s t : State} {l : Nat}

theorem exec_blockSetRepeat_on (hawake : s.awake = true) (hblock : s.blockTx = true) :
    exec .blockSetRepeat s = .next (s.forEach (upto 48) State.blockOn) := by
  simp only [exec, execBlockSetRepeat, hawake, hblock, Bool.and_self, if_true]
  rfl

theorem exec_blockSetRepeat_off (h : s.blockTx = false) : exec .blockSetRepeat s = .next s := by
  simp [exec, execBlockSetRepeat, h]

theorem State.blocksOn_lanesOnly (s : State) (ls : List Nat) : s.LanesOnly (s.forEach ls State.blockOn) :=
  List.foldlRecOn (motive := fun t : State => s.LanesOnly t) _ _ rfl fun t ht _ _ => ht.trans (t.sendNow_lanesOnly ..)

/-- No set has another class, or says anything else of the device, for the sets that have left before it. -/
theorem State.LanesOnly.blockOn (h : s.LanesOnly t) (l : Nat) : t.blockOn l = t.sendNow l [blockSet s.repeatClass s.entitled] := by
  have hclass : t.repeatClass = s.repeatClass := by
    rw [h]
    rfl
  have hentitled : t.entitled = s.entitled := by
    rw [h]
    rfl
  rw [State.blockOn, hclass, hentitled]

/-- A lane that is coded has sent its set when its turn has come. -/
theorem State.LanesOnly.blocksOn_sets {ls : List Nat} (h : s.LanesOnly t) (hcoded : s.laneCoded l = true)
    (hturn : l ∈ ls ∨ (t.lane l).sets = [blockSet s.repeatClass s.entitled]) :
    ((t.forEach ls State.blockOn).lane l).sets = [blockSet s.repeatClass s.entitled] := by
  induction ls generalizing t with
  | nil => exact hturn.resolve_left List.not_mem_nil
  | cons j ls ih =>
    refine ih (t := t.blockOn j) (h.trans (t.sendNow_lanesOnly ..)) ?_
    rw [h.blockOn]
    by_cases hj : l = j
    · subst hj
      exact .inr (State.sendNow_sets _ ((h.laneCoded l).trans hcoded))
    · rw [t.sendNow_lane_ne _ hj]
      exact hturn.imp_left fun hm => (List.mem_cons.mp hm).resolve_left hj

/-- A lane that is not coded sends none. -/
theorem State.blocksOn_uncoded (hcoded : s.laneCoded l = false) (ls : List Nat) : (s.forEach ls State.blockOn).lane l = s.lane l := by
  have hstart : s.LanesOnly s ∧ s.lane l = s.lane l := ⟨rfl, rfl⟩
  refine (List.foldlRecOn (motive := fun t : State => s.LanesOnly t ∧ t.lane l = s.lane l) _ _ hstart fun t ht j _ =>
    ⟨ht.1.trans (t.sendNow_lanesOnly ..), ?_⟩).2
  by_cases hj : l = j
  · subst hj
    have hnot : t.laneCoded l = false := (ht.1.laneCoded l).trans hcoded
    simp [State.sendNow, hnot, ht.2]
  · exact (t.sendNow_lane_ne _ hj).trans ht.2

theorem blockSetRepeat_safeBlock {x : Fin 48} (hawake : s.awake = true) (hmode : s.mode = .safeBlock) (hlatch : s.f F.SAF_LATCH_in_latch = 0) :
    ∃ t, exec .blockSetRepeat s = .next t ∧ t = { s with lanes := t.lanes }
      ∧ (s.laneCoded x = true → (t.lane x).sets = [blockSet s.saf.blockClass s.entitled])
      ∧ (s.laneCoded x = false → t.lane x = s.lane x) := by
  have hclass : s.repeatClass = s.saf.blockClass := by simp [State.repeatClass, hlatch, hmode]
  refine ⟨_, exec_blockSetRepeat_on hawake (by simp [State.blockTx, hmode]), s.blocksOn_lanesOnly _, fun h => ?_,
    fun h => State.blocksOn_uncoded h _⟩
  rw [← hclass]
  exact State.LanesOnly.blocksOn_sets rfl h (.inl (List.mem_range.mpr x.isLt))

end

end Sys2Proof.Machine
end

section
/-! CERTIFICATE. Block lock, markers, the elastic buffer and the BLOCK sets of the lanes (R92, R112, R113, R117 to R120, R127 to R129, R323). -/

open Sys2Proof.Machine

namespace Sys2Proof

/-- Settles O38, row by row: block lock taken and lost, the chain lane that does not regain it, markers that come back and leave, the
elastic buffer, and the BLOCK sets that repeat. -/
theorem locksMarkersAndLostLanes : Obligations.LocksMarkersAndLostLanes := by
  unfold Obligations.LocksMarkersAndLostLanes
  intro s l x n sig inF k y fill cut hg hs
  refine ⟨blockLockAcquired_taken, exec_blockLockAcquired_idle, blockLockLost_idle hg hs, blockLockLost_inFrame cut hg hs,
    blockLockLost_unlocked, blockLockLost_kept cut, chainRelockTimeout_down hg hs, exec_chainRelockTimeout_idle,
    markerReceived_wrong hg hs, exec_markerReceived_own, markerSend_due, fun hlock hout hfill => ?_, fun hlock hout hfill => ?_,
    fun hin => ?_, blockSetRepeat_safeBlock, exec_blockSetRepeat_off⟩
  · subst hout
    exact idleDelete_deletes hlock hfill
  · subst hout
    exact idleInsert_inserts hlock hfill
  · subst hin
    exact idle_inFrame

end Sys2Proof
end

section
/-! SUPPORT. The eye monitor and the adaptation of a receiver (R131, R133 to R136). -/

namespace Sys2Proof.Machine

/-! ### One step of an adapted value (R134) -/

theorem sx_six_bounds (v : Nat) : -32 ≤ sx 6 v ∧ sx 6 v ≤ 31 := by
  unfold sx
  dsimp only
  split <;> omega

/-- A step upwards within the bound. -/
theorem adaptStep_up {now centre table : Int} (hup : now < centre) (hhigh : now + 1 ≤ table + 8) (hlow : table - 8 ≤ now)
    (hmin : -32 ≤ now) (hmax : now + 1 ≤ 31) : adaptStep now centre table = (now + 1, false) := by
  have hin : iclamp (now + 1) (table - 8) (table + 8) = now + 1 := by rw [iclamp, if_neg (by omega), if_neg (by omega)]
  have hcode : iclamp (now + 1) (-32) 31 = now + 1 := by rw [iclamp, if_neg (by omega), if_neg (by omega)]
  rw [adaptStep, if_pos hup, hin, hcode, bne_self_eq_false]

/-- A step upwards from the bound: the value stays, and the clamp has stopped it. -/
theorem adaptStep_limit {now centre table : Int} (hup : now < centre) (hbound : now = table + 8) (hmin : -32 ≤ now) (hmax : now ≤ 31) :
    adaptStep now centre table = (now, true) := by
  have hin : iclamp (now + 1) (table - 8) (table + 8) = now := by rw [iclamp, if_neg (by omega), if_pos (by omega), hbound]
  have hcode : iclamp now (-32) 31 = now := by rw [iclamp, if_neg (by omega), if_neg (by omega)]
  have hstopped : (now != now + 1) = true := bne_iff_ne.mpr (by omega)
  rw [adaptStep, if_pos hup, hin, hcode, hstopped]

/-! ### What a measurement shows (R133) -/

theorem LPHY_FOM_fields_ok (l : Nat) : (F.LPHY_FOM_eye_v l).ok ∧ (F.LPHY_FOM_eye_h l).ok ∧ (F.LPHY_FOM_off_now l).ok
    ∧ (F.LPHY_FOM_phase_now l).ok := by
  simp [Fld.ok, F.LPHY_FOM_eye_v, F.LPHY_FOM_eye_h, F.LPHY_FOM_off_now, F.LPHY_FOM_phase_now]

theorem ok_LPHY_STAT_fom_limit (l : Nat) : (F.LPHY_STAT_fom_limit l).ok := ⟨by simp [F.LPHY_STAT_fom_limit], by simp [F.LPHY_STAT_fom_limit]⟩

theorem ok_LPHY_STAT_frozen (l : Nat) : (F.LPHY_STAT_frozen l).ok := ⟨by simp [F.LPHY_STAT_frozen], by simp [F.LPHY_STAT_frozen]⟩

theorem LPHY_STAT_ne_FOM (l : Nat) : R.LPHY_STAT l ≠ R.LPHY_FOM l := by
  simp only [R.LPHY_STAT, R.LPHY_FOM]
  omega

theorem LPHY_FOM_ne_TIM_STAT (l : Nat) : R.LPHY_FOM l ≠ R.TIM_STAT := by
  simp only [R.LPHY_FOM, R.TIM_STAT]
  omega

section
variable (s : State) (l : Nat)

/-- The eye that a measurement shows. -/
def State.showEye (eyeV eyeH : Nat) : State := (s.setF (F.LPHY_FOM_eye_v l) (min eyeV 255)).setF (F.LPHY_FOM_eye_h l) (min eyeH 64)

/-- The eye takes the place of the one before. -/
theorem State.showEye_eye {eyeV eyeH : Nat} (hv : eyeV < 256) (hh : eyeH ≤ 64) :
    (s.showEye l eyeV eyeH).f (F.LPHY_FOM_eye_v l) = eyeV ∧ (s.showEye l eyeV eyeH).f (F.LPHY_FOM_eye_h l) = eyeH := by
  obtain ⟨hokV, hokH, -, -⟩ := LPHY_FOM_fields_ok l
  unfold State.showEye
  rw [Nat.min_eq_left (Nat.le_of_lt_succ hv), Nat.min_eq_left hh]
  refine ⟨?_, State.f_setF_value _ hokH (show eyeH < 2 ^ 7 by omega)⟩
  rw [State.f_setF_apart _ _ _ _ hokH (.inr (.inl (by simp [F.LPHY_FOM_eye_h, F.LPHY_FOM_eye_v])))]
  exact s.f_setF_value hokV hv

/-- Beside the eye nothing of the registers changes, the adapted values among them. -/
theorem State.showEye_keeps (eyeV eyeH : Nat) :
    (s.showEye l eyeV eyeH).f (F.LPHY_FOM_off_now l) = s.f (F.LPHY_FOM_off_now l)
      ∧ ∀ off, off ≠ R.LPHY_FOM l → (s.showEye l eyeV eyeH).rd off = s.rd off := by
  obtain ⟨hokV, hokH, -, -⟩ := LPHY_FOM_fields_ok l
  unfold State.showEye
  refine ⟨?_, fun off ho => (State.rd_setF_ne _ (F.LPHY_FOM_eye_h l) _ ho).trans (s.rd_setF_ne (F.LPHY_FOM_eye_v l) _ ho)⟩
  rw [State.f_setF_apart _ _ _ _ hokH (.inr (.inr (by simp [F.LPHY_FOM_eye_h, F.LPHY_FOM_off_now]))),
    State.f_setF_apart _ _ _ _ hokV (.inr (.inr (by simp [F.LPHY_FOM_eye_v, F.LPHY_FOM_off_now])))]

/-- The adapted values in force. -/
def State.showAdapted (o p : Int) : State := (s.setF (F.LPHY_FOM_off_now l) (twos 6 o)).setF (F.LPHY_FOM_phase_now l) (twos 6 p)

/-- The offset shown is the one adapted. -/
theorem State.sx_showAdapted {o p : Int} (hmin : -32 ≤ o) (hmax : o ≤ 31) :
    sx 6 ((s.showAdapted l o p).f (F.LPHY_FOM_off_now l)) = o := by
  obtain ⟨-, -, hokO, hokP⟩ := LPHY_FOM_fields_ok l
  rw [State.showAdapted, State.f_setF_apart _ _ _ _ hokP (.inr (.inl (by simp [F.LPHY_FOM_phase_now, F.LPHY_FOM_off_now]))),
    State.f_setF_same _ _ _ hokO]
  exact sx_twos (w := 6) (by omega) (by omega) (by decide)

theorem State.showAdapted_keeps (o p : Int) :
    (s.showAdapted l o p).f (F.LPHY_FOM_eye_v l) = s.f (F.LPHY_FOM_eye_v l)
      ∧ (s.showAdapted l o p).f (F.LPHY_FOM_eye_h l) = s.f (F.LPHY_FOM_eye_h l)
      ∧ (∀ off, off ≠ R.LPHY_FOM l → (s.showAdapted l o p).rd off = s.rd off)
      ∧ (s.showAdapted l o p).cyc = s.cyc ∧ (s.showAdapted l o p).lane l = s.lane l ∧ (s.showAdapted l o p).events = s.events := by
  obtain ⟨-, -, hokO, hokP⟩ := LPHY_FOM_fields_ok l
  have hbelow (x : Fld) (hx : x.hi < 16) : (s.showAdapted l o p).f x = s.f x := by
    rw [State.showAdapted, State.f_setF_apart _ _ _ _ hokP (.inr (.inl (hx.trans (by simp [F.LPHY_FOM_phase_now])))),
      State.f_setF_apart _ _ _ _ hokO (.inr (.inl hx))]
  exact ⟨hbelow _ (by simp [F.LPHY_FOM_eye_v]), hbelow _ (by simp [F.LPHY_FOM_eye_h]), fun off ho =>
    (State.rd_setF_ne _ (F.LPHY_FOM_phase_now l) _ ho).trans (s.rd_setF_ne (F.LPHY_FOM_off_now l) _ ho),
    by simp [State.showAdapted], by rw [State.showAdapted, State.lane_setF, State.lane_setF], by simp [State.showAdapted]⟩

/-- The state in which the monitor has completed a measurement, and nothing is adapted yet. -/
def State.eyeMeasured (eyeV eyeH : Nat) : State :=
  ((s.advanceCyc ((s.lane l).fomAt + 16384)).modLane l
    (fun x => { x with fomAt := (s.advanceCyc ((s.lane l).fomAt + 16384)).cyc })).showEye l eyeV eyeH

theorem State.eyeMeasured_eye {eyeV eyeH : Nat} (hv : eyeV < 256) (hh : eyeH ≤ 64) :
    (s.eyeMeasured l eyeV eyeH).f (F.LPHY_FOM_eye_v l) = eyeV ∧ (s.eyeMeasured l eyeV eyeH).f (F.LPHY_FOM_eye_h l) = eyeH :=
  State.showEye_eye _ l hv hh

theorem State.eyeMeasured_keeps (eyeV eyeH : Nat) :
    (s.eyeMeasured l eyeV eyeH).f (F.LPHY_FOM_off_now l) = s.f (F.LPHY_FOM_off_now l)
      ∧ (s.eyeMeasured l eyeV eyeH).rd (R.LPHY_STAT l) = s.rd (R.LPHY_STAT l)
      ∧ (s.eyeMeasured l eyeV eyeH).cyc = max s.cyc ((s.lane l).fomAt + 16384)
      ∧ (s.eyeMeasured l eyeV eyeH).lane l = { s.lane l with fomAt := (s.eyeMeasured l eyeV eyeH).cyc }
      ∧ (s.eyeMeasured l eyeV eyeH).events = s.events := by
  unfold State.eyeMeasured
  set a := s.advanceCyc ((s.lane l).fomAt + 16384) with ha
  obtain ⟨hoff, hrd⟩ := (a.modLane l (fun x => { x with fomAt := a.cyc })).showEye_keeps l eyeV eyeH
  have hcyc : a.cyc = max s.cyc ((s.lane l).fomAt + 16384) := s.advanceCyc_cyc _
  have hlane : a.lane l = s.lane l := s.advanceCyc_lane ..
  have hevents : a.events = s.events := s.advanceCyc_events _
  have hoffs : a.f (F.LPHY_FOM_off_now l) = s.f (F.LPHY_FOM_off_now l) :=
    State.f_of_rd (x := F.LPHY_FOM_off_now l) (s.advanceCyc_rd _ (LPHY_FOM_ne_TIM_STAT l))
  have hstat : a.rd (R.LPHY_STAT l) = s.rd (R.LPHY_STAT l) := s.advanceCyc_rd _ (LPHY_STAT_ne_TIM_STAT l)
  clear_value a
  refine ⟨hoff.trans hoffs, (hrd _ (LPHY_STAT_ne_FOM l)).trans hstat, hcyc, ?_, hevents⟩
  rw [State.showEye, State.lane_setF, State.lane_setF, State.lane_modLane, hlane]
  rfl

end

/-! ### The bound that stops a step (R134, R136) -/

/-- A bit that is set and reported once: another register, the lanes and the cycle stay. -/
theorem State.raiseOnce_keeps (s : State) (bit : Fld) (c : EvCode) (u a v : Nat) :
    (∀ off, off ≠ bit.off → (s.raiseOnce bit c u a v).rd off = s.rd off) ∧ (s.raiseOnce bit c u a v).lanes = s.lanes
      ∧ (s.raiseOnce bit c u a v).cyc = s.cyc := by
  unfold State.raiseOnce
  split
  · exact ⟨fun off ho => s.rd_mark_ne bit ho, rfl, rfl⟩
  · exact ⟨fun off ho => s.rd_mark_ne bit ho, rfl, rfl⟩

/-- The bit reads 1, and the event comes where it read 0 before. -/
theorem State.raiseOnce_spec {bit : Fld} (s : State) (c : EvCode) (u a v : Nat) (hok : bit.ok) (hbit : bit.hi = bit.lo) :
    (s.raiseOnce bit c u a v).fb bit = true ∧ (s.fb bit = false → s.raised (s.raiseOnce bit c u a v) = [c])
      ∧ (s.fb bit = true → (s.raiseOnce bit c u a v).events = s.events) := by
  unfold State.raiseOnce
  split
  · next h => exact ⟨s.fb_mark_same hok hbit, fun h' => absurd (h.symm.trans h') (by decide), fun _ => rfl⟩
  · next h =>
    exact ⟨s.fb_mark_same hok hbit, fun _ => State.raised_of_append ((State.raiseP_events ..).trans (congrArg (· ++ _) rfl)),
      fun h' => absurd h' h⟩

/-- A step that the clamp has stopped is reported once. -/
def State.reportLimit (s : State) (l : Nat) (stop : Bool) : State :=
  if stop then s.raiseOnce (F.LPHY_STAT_fom_limit l) .fomLimit l 0 0 else s

theorem State.reportLimit_true (s : State) (l : Nat) :
    s.reportLimit l true = s.raiseOnce (F.LPHY_STAT_fom_limit l) .fomLimit l 0 0 := if_pos rfl

theorem State.reportLimit_keeps (s : State) (l : Nat) (stop : Bool) :
    (s.reportLimit l stop).rd (R.LPHY_FOM l) = s.rd (R.LPHY_FOM l) ∧ (s.reportLimit l stop).lane l = s.lane l
      ∧ (s.reportLimit l stop).cyc = s.cyc := by
  unfold State.reportLimit
  split
  · obtain ⟨hrd, hlanes, hcyc⟩ := s.raiseOnce_keeps (F.LPHY_STAT_fom_limit l) .fomLimit l 0 0
    exact ⟨hrd _ (LPHY_STAT_ne_FOM l).symm, by rw [State.lane, hlanes, State.lane], hcyc⟩
  · exact ⟨rfl, rfl, rfl⟩

/-! ### The adapted values step (R134, R136) -/

section
variable (s : State) (l : Nat) (centreV centreH : Int)

/-- The offset after a step and the phase after it, each with whether the clamp has stopped it. -/
def State.adapted : (Int × Bool) × (Int × Bool) :=
  (adaptStep (sx 6 (s.f (F.LPHY_FOM_off_now l))) centreV (s.lane l).centreOff,
    adaptStep (sx 6 (s.f (F.LPHY_FOM_phase_now l))) centreH (s.lane l).centrePhase)

/-- The adapted values move, and a step that the clamp has stopped is reported. -/
def State.stepAdapted : State :=
  (s.showAdapted l (s.adapted l centreV centreH).1.1 (s.adapted l centreV centreH).2.1).reportLimit l
    ((s.adapted l centreV centreH).1.2 || (s.adapted l centreV centreH).2.2)

/-- A step leaves the eye, the lane and the cycle. -/
theorem State.stepAdapted_keeps :
    (s.stepAdapted l centreV centreH).f (F.LPHY_FOM_eye_v l) = s.f (F.LPHY_FOM_eye_v l)
      ∧ (s.stepAdapted l centreV centreH).f (F.LPHY_FOM_eye_h l) = s.f (F.LPHY_FOM_eye_h l)
      ∧ (s.stepAdapted l centreV centreH).cyc = s.cyc ∧ (s.stepAdapted l centreV centreH).lane l = s.lane l := by
  unfold State.stepAdapted
  generalize s.adapted l centreV centreH = r
  obtain ⟨heyeV, heyeH, -, hcyc', hlane', -⟩ := s.showAdapted_keeps l r.1.1 r.2.1
  obtain ⟨hrd, hlane, hcyc⟩ := (s.showAdapted l r.1.1 r.2.1).reportLimit_keeps l (r.1.2 || r.2.2)
  exact ⟨(State.f_of_rd (x := F.LPHY_FOM_eye_v l) hrd).trans heyeV, (State.f_of_rd (x := F.LPHY_FOM_eye_h l) hrd).trans heyeH, hcyc.trans hcyc',
    hlane.trans hlane'⟩

variable {s l centreV} {now : Int} {stop : Bool}

theorem State.stepAdapted_offset (h : adaptStep (sx 6 (s.f (F.LPHY_FOM_off_now l))) centreV (s.lane l).centreOff = (now, stop))
    (hmin : -32 ≤ now) (hmax : now ≤ 31) : sx 6 ((s.stepAdapted l centreV centreH).f (F.LPHY_FOM_off_now l)) = now := by
  have hnow : (s.adapted l centreV centreH).1.1 = now := congrArg Prod.fst h
  unfold State.stepAdapted
  rw [hnow]
  obtain ⟨hrd, -, -⟩ := (s.showAdapted l now (s.adapted l centreV centreH).2.1).reportLimit_keeps l
    ((s.adapted l centreV centreH).1.2 || (s.adapted l centreV centreH).2.2)
  rw [State.f_of_rd (x := F.LPHY_FOM_off_now l) hrd]
  exact s.sx_showAdapted l hmin hmax

theorem State.stepAdapted_limit (h : adaptStep (sx 6 (s.f (F.LPHY_FOM_off_now l))) centreV (s.lane l).centreOff = (now, true)) :
    (s.stepAdapted l centreV centreH).fb (F.LPHY_STAT_fom_limit l) = true
      ∧ (s.fb (F.LPHY_STAT_fom_limit l) = false → s.raised (s.stepAdapted l centreV centreH) = [.fomLimit])
      ∧ (s.fb (F.LPHY_STAT_fom_limit l) = true → (s.stepAdapted l centreV centreH).events = s.events) := by
  have hstop : (s.adapted l centreV centreH).1.2 = true := congrArg Prod.snd h
  unfold State.stepAdapted
  rw [hstop, Bool.true_or, State.reportLimit_true]
  generalize s.adapted l centreV centreH = r
  obtain ⟨-, -, hrd, -, -, hevents⟩ := s.showAdapted_keeps l r.1.1 r.2.1
  have hbit : (s.showAdapted l r.1.1 r.2.1).fb (F.LPHY_STAT_fom_limit l) = s.fb (F.LPHY_STAT_fom_limit l) :=
    State.fb_of_rd (x := F.LPHY_STAT_fom_limit l) (hrd _ (LPHY_STAT_ne_FOM l))
  obtain ⟨hset, hnew, hagain⟩ := (s.showAdapted l r.1.1 r.2.1).raiseOnce_spec .fomLimit l 0 0 (ok_LPHY_STAT_fom_limit l) rfl
  rw [hbit, State.raised, hevents] at hnew
  rw [hbit, hevents] at hagain
  exact ⟨hset, hnew, hagain⟩

end

/-! ### A measurement of the eye (R133 to R136) -/

section
variable {s : State} {l : Fin 50} {eyeV eyeH : Nat} {centreV centreH : Int}

theorem exec_fomMeasure_locked (hlock : s.fb (F.LPHY_STAT_block_lock l) = true) :
    exec (.fomMeasure l eyeV eyeH centreV centreH) s =
      (let u := s.eyeMeasured l eyeV eyeH
       if u.fb (F.LPHY_STAT_frozen l) || decide ((s.lane l).fomAt < (u.lane l).resumeAt) then .next u
       else .next (u.stepAdapted l centreV centreH)) := by
  simp only [exec, execFomMeasure, hlock, Bool.not_true, Bool.false_eq_true, if_false]
  rfl

/-- The adaptation is neither frozen nor resumed since the measurement before this one (R135). -/
abbrev State.adaptReady (s : State) (l : Nat) : Prop := s.fb (F.LPHY_STAT_frozen l) = false ∧ (s.lane l).resumeAt ≤ (s.lane l).fomAt

/-- Whether a measurement adapts is what the state before it says. -/
theorem State.eyeMeasured_ready (s : State) (l eyeV eyeH : Nat) :
    ((s.eyeMeasured l eyeV eyeH).fb (F.LPHY_STAT_frozen l)
      || decide ((s.lane l).fomAt < ((s.eyeMeasured l eyeV eyeH).lane l).resumeAt)) = !decide (s.adaptReady l) := by
  obtain ⟨-, hstat, -, hlane, -⟩ := s.eyeMeasured_keeps l eyeV eyeH
  have hlater : decide ((s.lane l).fomAt < (s.lane l).resumeAt) = !decide ((s.lane l).resumeAt ≤ (s.lane l).fomAt) := by
    rw [← decide_not]
    exact decide_eq_decide.mpr not_le.symm
  rw [State.fb_of_rd (x := F.LPHY_STAT_frozen l) hstat, hlane, hlater]
  simp [State.adaptReady]

theorem exec_fomMeasure_holds (hlock : s.fb (F.LPHY_STAT_block_lock l) = true) (hready : ¬ s.adaptReady l) :
    exec (.fomMeasure l eyeV eyeH centreV centreH) s = .next (s.eyeMeasured l eyeV eyeH) := by
  rw [exec_fomMeasure_locked hlock]
  exact if_pos (by simp [s.eyeMeasured_ready, hready])

theorem exec_fomMeasure_adapts (hlock : s.fb (F.LPHY_STAT_block_lock l) = true) (hready : s.adaptReady l) :
    exec (.fomMeasure l eyeV eyeH centreV centreH) s = .next ((s.eyeMeasured l eyeV eyeH).stepAdapted l centreV centreH) := by
  rw [exec_fomMeasure_locked hlock]
  exact if_neg (by simp [s.eyeMeasured_ready, hready])

/-- A measurement on a locked lane shows the eye, and moves the offset one step towards a centre above it, or stays at the bound. -/
theorem fomMeasure_towards (hlock : s.fb (F.LPHY_STAT_block_lock l) = true) (hv : eyeV < 256) (hh : eyeH ≤ 64) :
    ∃ t, exec (.fomMeasure l eyeV eyeH centreV centreH) s = .next t ∧ t.f (F.LPHY_FOM_eye_v l) = eyeV ∧ t.f (F.LPHY_FOM_eye_h l) = eyeH
      ∧ t.cyc = max s.cyc ((s.lane l).fomAt + 16384) ∧ (t.lane l).fomAt = t.cyc
      ∧ (¬ s.adaptReady l → t.f (F.LPHY_FOM_off_now l) = s.f (F.LPHY_FOM_off_now l) ∧ t.events = s.events)
      ∧ (s.adaptReady l → sx 6 (s.f (F.LPHY_FOM_off_now l)) < centreV →
          sx 6 (s.f (F.LPHY_FOM_off_now l)) + 1 ≤ (s.lane l).centreOff + 8 → (s.lane l).centreOff - 8 ≤ sx 6 (s.f (F.LPHY_FOM_off_now l)) →
          sx 6 (s.f (F.LPHY_FOM_off_now l)) + 1 ≤ 31 → sx 6 (t.f (F.LPHY_FOM_off_now l)) = sx 6 (s.f (F.LPHY_FOM_off_now l)) + 1)
      ∧ (s.adaptReady l → sx 6 (s.f (F.LPHY_FOM_off_now l)) < centreV →
          sx 6 (s.f (F.LPHY_FOM_off_now l)) = (s.lane l).centreOff + 8 →
          sx 6 (t.f (F.LPHY_FOM_off_now l)) = sx 6 (s.f (F.LPHY_FOM_off_now l))
            ∧ t.fb (F.LPHY_STAT_fom_limit l) = true ∧ (s.fb (F.LPHY_STAT_fom_limit l) = false → s.raised t = [.fomLimit])
            ∧ (s.fb (F.LPHY_STAT_fom_limit l) = true → t.events = s.events)) := by
  obtain ⟨hoff, hstat, hcyc, hlane, hevents⟩ := s.eyeMeasured_keeps l eyeV eyeH
  have hfom : ((s.eyeMeasured l eyeV eyeH).lane l).fomAt = (s.eyeMeasured l eyeV eyeH).cyc := by rw [hlane]
  obtain ⟨heyeV, heyeH⟩ := s.eyeMeasured_eye l hv hh
  by_cases hready : s.adaptReady l
  · have hexec := exec_fomMeasure_adapts (eyeV := eyeV) (eyeH := eyeH) (centreV := centreV) (centreH := centreH) hlock hready
    generalize s.eyeMeasured l eyeV eyeH = u at *
    obtain ⟨heyeV', heyeH', hcyc', hlane'⟩ := u.stepAdapted_keeps l centreV centreH
    have hstep (r : Int × Bool) (h : adaptStep (sx 6 (s.f (F.LPHY_FOM_off_now l))) centreV (s.lane l).centreOff = r) :
        adaptStep (sx 6 (u.f (F.LPHY_FOM_off_now l))) centreV (u.lane l).centreOff = r := by rw [hoff, hlane, h]
    obtain ⟨hmin, hmax⟩ := sx_six_bounds (s.f (F.LPHY_FOM_off_now l))
    refine ⟨_, hexec, heyeV'.trans heyeV, heyeH'.trans heyeH, hcyc'.trans hcyc, by rw [hlane', hfom, hcyc'], fun h => absurd hready h,
      fun _ hup hhigh hlow hlast => ?_, fun _ hup hbound => ?_⟩
    · exact State.stepAdapted_offset centreH (hstep _ (adaptStep_up hup hhigh hlow hmin hlast)) (by omega) hlast
    · have hstay := hstep _ (adaptStep_limit hup hbound hmin hmax)
      obtain ⟨hset, hnew, hagain⟩ := State.stepAdapted_limit centreH hstay
      rw [State.fb_of_rd (x := F.LPHY_STAT_fom_limit l) hstat, hevents] at hagain
      rw [State.fb_of_rd (x := F.LPHY_STAT_fom_limit l) hstat, State.raised, hevents] at hnew
      exact ⟨State.stepAdapted_offset centreH hstay hmin hmax, hset, hnew, hagain⟩
  · exact ⟨_, exec_fomMeasure_holds hlock hready, heyeV, heyeH, hcyc, hfom, fun _ => ⟨hoff, hevents⟩, fun h => absurd h hready,
      fun h => absurd h hready⟩

end

end Sys2Proof.Machine
end

section
/-! SUPPORT. The freeze of the adaptation, and the writes of the receiver's equalisation (R131, R135). -/

namespace Sys2Proof.Machine

/-! ### Freeze and resumption (R135) -/

section
variable {s : State} {l : Fin 50} {n : Nat}

/-- Freezing or resuming shows in its own bit. -/
theorem State.showFrozen_spec (s : State) (l : Nat) (b : Bool) :
    (s.setF (F.LPHY_STAT_frozen l) (b2n b)).fb (F.LPHY_STAT_frozen l) = b
      ∧ (s.setF (F.LPHY_STAT_frozen l) (b2n b)).laneState l = s.laneState l :=
  ⟨s.fb_setF_bit (ok_LPHY_STAT_frozen l) rfl b,
    s.f_setF_apart _ _ _ (ok_LPHY_STAT_frozen l) (.inr (.inl (by simp [F.LPHY_STAT_frozen, F.LPHY_STAT_state])))⟩

theorem exec_adaptFreeze_idle (hlock : s.fb (F.LPHY_STAT_block_lock l) = true) (hn : 8192 ≤ n) :
    exec (.adaptFreeze ⟨l, n⟩) s = .next (s.setF (F.LPHY_STAT_frozen l) 1) := by
  simp [exec, execAdaptFreeze, hlock, hn]

theorem adaptFreeze_frozen (hlock : s.fb (F.LPHY_STAT_block_lock l) = true) (hn : 8192 ≤ n) :
    ∃ t, exec (.adaptFreeze ⟨l, n⟩) s = .next t ∧ t.fb (F.LPHY_STAT_frozen l) = true ∧ t.laneState l = s.laneState l
      ∧ t.events = s.events := by
  obtain ⟨hfrozen, hstate⟩ := s.showFrozen_spec l true
  exact ⟨_, exec_adaptFreeze_idle hlock hn, hfrozen, hstate, by simp⟩

theorem exec_adaptResume_others (hlock : s.fb (F.LPHY_STAT_block_lock l) = true) (hfrozen : s.fb (F.LPHY_STAT_frozen l) = true) (hn : 256 ≤ n) :
    exec (.adaptResume ⟨l, n⟩) s
      = .next ((s.setF (F.LPHY_STAT_frozen l) 0).modLane l (fun x => { x with resumeAt := s.cyc })) := by
  simp [exec, execAdaptResume, hlock, hfrozen, hn]

theorem adaptResume_resumed (hlock : s.fb (F.LPHY_STAT_block_lock l) = true) (hfrozen : s.fb (F.LPHY_STAT_frozen l) = true) (hn : 256 ≤ n) :
    ∃ t, exec (.adaptResume ⟨l, n⟩) s = .next t ∧ t.fb (F.LPHY_STAT_frozen l) = false ∧ (t.lane l).resumeAt = s.cyc
      ∧ t.laneState l = s.laneState l ∧ t.events = s.events := by
  obtain ⟨hresumed, hstate⟩ := s.showFrozen_spec l false
  exact ⟨_, exec_adaptResume_others hlock hfrozen hn, (State.fb_modLane ..).trans hresumed, by rw [State.lane_modLane],
    (State.f_modLane ..).trans hstate, by simp⟩

theorem exec_adapt_tooFew (hn : n < 256) : ∀ i ∈ [Instr.adaptFreeze ⟨l, n⟩, .adaptResume ⟨l, n⟩], exec i s = .next s := by
  intro i hi
  rcases List.mem_pair.mp hi with rfl | rfl
  · simp [exec, execAdaptFreeze, show ¬ 8192 ≤ n by omega]
  · simp [exec, execAdaptResume, show ¬ 256 ≤ n by omega]

end

/-! ### What the write of a lane's register changes -/

/-- Nothing but the registers, the events, the lanes and the next free value differs. -/
def State.LaneWrite (s t : State) : Prop :=
  t = { s with regs := t.regs, just := t.just, justAt := t.justAt, events := t.events, evSeq := t.evSeq, lanes := t.lanes
               freeCtr := t.freeCtr }

section
variable {s t u : State}

theorem State.LaneWrite.trans (h : s.LaneWrite t) (h' : t.LaneWrite u) : s.LaneWrite u := by
  unfold State.LaneWrite at *
  rw [h] at h'
  exact h'

theorem State.LaneWrite.refl (s : State) : s.LaneWrite s := rfl

theorem State.LaneWrite.setF (h : s.LaneWrite t) {x : Fld} {v : Nat} : s.LaneWrite (t.setF x v) := h.trans rfl

theorem State.LaneWrite.modLane (h : s.LaneWrite t) {l : Nat} {g : Lane → Lane} : s.LaneWrite (t.modLane l g) := h.trans rfl

theorem State.RegsOnly.laneWrite (h : s.RegsOnly t) : s.LaneWrite t := by
  rw [h]
  rfl

theorem State.LaneWrite.mode (h : s.LaneWrite t) : t.mode = s.mode := by rw [h]

theorem State.LaneWrite.cyc (h : s.LaneWrite t) : t.cyc = s.cyc := by rw [h]

theorem State.LaneWrite.settled (h : s.LaneWrite t) (hs : s.Settled) : t.Settled := by
  rw [h]
  exact hs

/-- Where the state before the write is settled, what the write has done stands. -/
theorem State.LaneWrite.settle_keeps (h : s.LaneWrite t) (hs : s.Settled) :
    t.settle.regs = t.regs ∧ t.settle.lanes = t.lanes ∧ ∀ l, t.settle.lane l = t.lane l := by
  obtain ⟨hlanes, -⟩ := t.musterLapse_lanes
  rw [(h.settled hs).settle]
  exact ⟨t.musterLapse_keeps.1, hlanes, fun l => by rw [State.lane, hlanes, State.lane]⟩

end

/-! ### The receiver's equalisation (R131) -/

theorem lookup_LPHY_EQ_RX (l : Fin 50) : lookup (R.LPHY_EQ_RX l)
    = some (⟨.LPHY_EQ_RX, 0xC0014, 50, 0x400, 1, 0x0, false, 0x6, [⟨21, 16, .rwl, .none⟩, ⟨13, 8, .rwl, .none⟩, ⟨3, 0, .rwl, .none⟩]⟩,
        l.val, 0) := by
  fin_cases l <;> rfl

theorem LPHY_EQ_RX_word (l : Fin 50) : R.LPHY_EQ_RX l % 4 = 0 ∧ R.LPHY_EQ_RX l ≠ R.LPHY_FOM l ∧ R.LPHY_EQ_RX l ≠ R.HIF_ACC_CNT
    ∧ R.LPHY_FOM l ≠ R.HIF_ACC_CNT := by
  simp only [R.LPHY_EQ_RX, R.LPHY_FOM, R.HIF_ACC_CNT]
  omega

theorem LPHY_EQ_RX_fields_ok (l : Nat) : (F.LPHY_EQ_RX_rx_phase l).ok ∧ (F.LPHY_EQ_RX_rx_offset l).ok ∧ (F.LPHY_EQ_RX_rx_ctle l).ok := by
  simp [Fld.ok, F.LPHY_EQ_RX_rx_phase, F.LPHY_EQ_RX_rx_offset, F.LPHY_EQ_RX_rx_ctle]

/-- In CONFIGURE a locked field that holds any value is stored as it is written. -/
theorem State.writeField_locked {s : State} (hmode : s.mode = .configure) (w : WSrc) (reg : Reg) (i j off v hi lo : Nat) :
    State.writeField w reg i j off v s ⟨hi, lo, .rwl, .none⟩ = s.setF ⟨off, hi, lo⟩ (bitsOf v hi lo) := by
  simp [State.writeField, State.clampField, State.setF, hmode]

/-- The equalisation of a receiver as it is written. -/
def State.storeEqRx (s : State) (l v : Nat) : State :=
  ((s.setF (F.LPHY_EQ_RX_rx_phase l) (bitsOf v 21 16)).setF (F.LPHY_EQ_RX_rx_offset l) (bitsOf v 13 8)).setF (F.LPHY_EQ_RX_rx_ctle l) (bitsOf v 3 0)

theorem State.storeEqRx_spec (s : State) (l v : Nat) :
    (s.storeEqRx l v).f (F.LPHY_EQ_RX_rx_offset l) = bitsOf v 13 8 ∧ (s.storeEqRx l v).f (F.LPHY_EQ_RX_rx_phase l) = bitsOf v 21 16 := by
  obtain ⟨hokP, hokO, hokC⟩ := LPHY_EQ_RX_fields_ok l
  unfold State.storeEqRx
  constructor
  · rw [State.f_setF_apart _ _ _ _ hokC (.inr (.inr (by simp [F.LPHY_EQ_RX_rx_ctle, F.LPHY_EQ_RX_rx_offset])))]
    exact State.f_setF_value _ hokO (bitsOf_lt v 13 8)
  · rw [State.f_setF_apart _ _ _ _ hokC (.inr (.inr (by simp [F.LPHY_EQ_RX_rx_ctle, F.LPHY_EQ_RX_rx_phase]))),
      State.f_setF_apart _ _ _ _ hokO (.inr (.inr (by simp [F.LPHY_EQ_RX_rx_offset, F.LPHY_EQ_RX_rx_phase])))]
    exact State.f_setF_value _ hokP (bitsOf_lt v 21 16)

section
variable {s : State} {w : WSrc} {l : Fin 50} {v : Nat}

theorem State.writeReg_LPHY_EQ_RX_configure (hmode : s.mode = .configure) (hrecs : s.pwmIo.recs = []) (hv : v < 2 ^ 32) :
    s.writeReg w (R.LPHY_EQ_RX l) v = (s.storeEqRx l v).eqRxWritten l := by
  have hmod : v % 2 ^ 32 = v := Nat.mod_eq_of_lt hv
  have haside : s.writeAside w .LPHY_EQ_RX l (R.LPHY_EQ_RX l) v = none := rfl
  have hpre : s.premask .LPHY_EQ_RX l (R.LPHY_EQ_RX l) v = v := rfl
  have hdiff (d : RegDef) : s.lockDiffers d (R.LPHY_EQ_RX l) v = false := by simp [State.lockDiffers, hmode]
  have hmode' : (s.storeEqRx l v).mode = .configure := hmode
  simp only [State.writeReg, State.recordStands_of_nil hrecs, lookup_LPHY_EQ_RX, hmod, haside, hpre, hdiff, Bool.false_eq_true, if_false,
    List.foldl_cons, List.foldl_nil]
  simp only [State.writeField_locked, State.setF_keeps, hmode]
  exact if_pos hmode'

theorem State.writeReg_LPHY_EQ_RX_locked (hmode : s.mode ≠ .configure) (hrecs : s.pwmIo.recs = []) (hv : v < 2 ^ 32) :
    s.writeReg w (R.LPHY_EQ_RX l) v = s ∨ s.writeReg w (R.LPHY_EQ_RX l) v = s.lockedOutWrite w (R.LPHY_EQ_RX l) := by
  have hmod : v % 2 ^ 32 = v := Nat.mod_eq_of_lt hv
  have haside : s.writeAside w .LPHY_EQ_RX l (R.LPHY_EQ_RX l) v = none := rfl
  have hpre : s.premask .LPHY_EQ_RX l (R.LPHY_EQ_RX l) v = v := rfl
  have hkept (u : State) (hu : u.mode ≠ .configure) : ([⟨21, 16, .rwl, .none⟩, ⟨13, 8, .rwl, .none⟩, ⟨3, 0, .rwl, .none⟩] : List FieldDef).foldl
      (State.writeField w .LPHY_EQ_RX l 0 (R.LPHY_EQ_RX l) v) u = u := State.foldl_writeField_rwl (by decide) hu
  have hnone (u : State) (hu : u.mode ≠ .configure) (i j off old x : Nat) : u.postWrite w .LPHY_EQ_RX i j off old x = u := if_neg hu
  simp only [State.writeReg, State.recordStands_of_nil hrecs, lookup_LPHY_EQ_RX, hmod, haside, hpre, Bool.false_eq_true, if_false]
  split
  · have hmode' : (s.lockedOutWrite w (R.LPHY_EQ_RX l)).mode ≠ .configure := by rwa [State.lockedOutWrite_mode]
    rw [hkept _ hmode', hnone _ hmode']
    exact .inr rfl
  · rw [hkept _ hmode, hnone _ hmode]
    exact .inl rfl

theorem exec_eqRxWrite {m : Master} {x : W32} (h : s.MayWrite m) :
    exec (.eqRxWrite m l x) s = .next (s.writeReg (WSrc.ofMaster m) (R.LPHY_EQ_RX l) x.toNat).settle := by
  obtain ⟨hlive, howner, -, -⟩ := h
  simp only [exec, execEqRxWrite, State.wordWrite, State.ownerWrite_eq hlive howner (LPHY_EQ_RX_word l).1 x.isLt]

/-- The written values take effect, and are those that the adaptation starts from. -/
theorem State.eqRxWritten_spec (u : State) (l : Fin 50) :
    (u.eqRxWritten l).f (F.LPHY_EQ_RX_rx_offset l) = u.f (F.LPHY_EQ_RX_rx_offset l)
      ∧ (u.eqRxWritten l).f (F.LPHY_FOM_off_now l) = u.f (F.LPHY_EQ_RX_rx_offset l)
      ∧ (u.eqRxWritten l).f (F.LPHY_FOM_phase_now l) = u.f (F.LPHY_EQ_RX_rx_phase l)
      ∧ ((u.eqRxWritten l).lane l).centreOff = sx 6 (u.f (F.LPHY_EQ_RX_rx_offset l)) ∧ u.LaneWrite (u.eqRxWritten l) := by
  obtain ⟨-, -, hokO, hokP⟩ := LPHY_FOM_fields_ok l
  obtain ⟨-, hother, -, -⟩ := LPHY_EQ_RX_word l
  unfold State.eqRxWritten
  refine ⟨?_, ?_, ?_, by rw [State.lane_modLane], (State.LaneWrite.refl u).setF.setF.modLane⟩
  · rw [State.f_modLane, State.f_setF_apart _ _ _ _ hokP (.inl hother), State.f_setF_apart _ _ _ _ hokO (.inl hother)]
  · rw [State.f_modLane, State.f_setF_apart _ _ _ _ hokP (.inr (.inl (by simp [F.LPHY_FOM_phase_now, F.LPHY_FOM_off_now])))]
    exact State.f_setF_value _ hokO (u.f_lt (F.LPHY_EQ_RX_rx_offset l))
  · rw [State.f_modLane]
    exact State.f_setF_value _ hokP (u.f_lt (F.LPHY_EQ_RX_rx_phase l))

theorem eqRxWrite_configure {m : Master} {x : W32} (h : s.MayWrite m) (hmode : s.mode = .configure) :
    ∃ t, exec (.eqRxWrite m l x) s = .next t
      ∧ t.f (F.LPHY_EQ_RX_rx_offset l) = bitsOf x.toNat 13 8 ∧ t.f (F.LPHY_FOM_off_now l) = bitsOf x.toNat 13 8
      ∧ t.f (F.LPHY_FOM_phase_now l) = bitsOf x.toNat 21 16 ∧ (t.lane l).centreOff = sx 6 (bitsOf x.toNat 13 8) := by
  have hexec := exec_eqRxWrite (l := l) (x := x) h
  obtain ⟨-, -, hsettled, hrecs⟩ := h
  rw [State.writeReg_LPHY_EQ_RX_configure hmode hrecs x.isLt] at hexec
  obtain ⟨hoff, hphase⟩ := s.storeEqRx_spec l x.toNat
  have hstore : s.LaneWrite (s.storeEqRx l x.toNat) := (State.LaneWrite.refl s).setF.setF.setF
  generalize s.storeEqRx l x.toNat = u at *
  obtain ⟨hkept, hoffNow, hphaseNow, hcentre, hframe⟩ := u.eqRxWritten_spec l
  obtain ⟨hregs, -, hlane⟩ := (hstore.trans hframe).settle_keeps hsettled
  refine ⟨_, hexec, ?_, ?_, ?_, ?_⟩
  · rw [State.f_of_regs hregs, hkept, hoff]
  · rw [State.f_of_regs hregs, hoffNow, hoff]
  · rw [State.f_of_regs hregs, hphaseNow, hphase]
  · rw [hlane, hcentre, hoff]

theorem eqRxWrite_elsewhere {m : Master} {x : W32} (h : s.MayWrite m) (hmode : s.mode ≠ .configure) :
    ∃ t, exec (.eqRxWrite m l x) s = .next t ∧ t.rd (R.LPHY_EQ_RX l) = s.rd (R.LPHY_EQ_RX l) ∧ t.rd (R.LPHY_FOM l) = s.rd (R.LPHY_FOM l) := by
  have hexec := exec_eqRxWrite (l := l) (x := x) h
  obtain ⟨-, -, hsettled, hrecs⟩ := h
  obtain ⟨-, -, heq, hfom⟩ := LPHY_EQ_RX_word l
  refine ⟨_, hexec, ?_⟩
  rcases State.writeReg_LPHY_EQ_RX_locked (w := WSrc.ofMaster m) (l := l) hmode hrecs x.isLt with hwrite | hwrite
  · rw [hwrite, State.rd_of_regs hsettled.settle_keeps.1, State.rd_of_regs hsettled.settle_keeps.1]
    exact ⟨rfl, rfl⟩
  · have hframe : s.LaneWrite (s.lockedOutWrite (WSrc.ofMaster m) (R.LPHY_EQ_RX l)) :=
      ((State.RegsOnly.refl s).lockedOutWrite _ _).laneWrite
    obtain ⟨hregs, -, -⟩ := hframe.settle_keeps hsettled
    rw [hwrite, State.rd_of_regs hregs, State.rd_of_regs hregs]
    exact ⟨State.lockedOutWrite_rd heq, State.lockedOutWrite_rd hfom⟩

end

end Sys2Proof.Machine
end

section
/-! SUPPORT. The fields that a write of a register stores, and the ones it leaves alone (R9, R10, R13). -/

namespace Sys2Proof.Machine

section
variable {s : State} {w : WSrc} {reg : Reg} {i j off v : Nat} {fd : FieldDef}

/-- A field of a word stores its part, leaves it, or clears the bits that are set in it. -/
theorem State.writeField_regsOnly : s.RegsOnly (State.writeField w reg i j off v s fd) := by
  have hstore (y x : Nat) : s.RegsOnly (if y = x then s.wr off (setBits (s.rd off) fd.hi fd.lo y)
      else if ownCheck reg fd.lo then (s.wr off (setBits (s.rd off) fd.hi fd.lo y)).raiseClamp 4 off fd.lo x y
      else (s.wr off (setBits (s.rd off) fd.hi fd.lo y)).raiseClampFrom w.source w.origin off fd.lo x y) := by
    split
    · exact (State.RegsOnly.refl s).wr ..
    · split <;> exact ((State.RegsOnly.refl s).wr ..).raiseP ..
  unfold State.writeField
  dsimp only
  split
  · exact hstore ..
  · split
    exacts [hstore .., .refl s]
  · exact (State.RegsOnly.refl s).wr ..
  · exact .refl s

theorem State.foldl_writeField_regsOnly (fds : List FieldDef) : s.RegsOnly (fds.foldl (State.writeField w reg i j off v) s) :=
  List.foldlRecOn (motive := fun t : State => s.RegsOnly t) _ _ (.refl s) fun _ ht _ _ => ht.trans State.writeField_regsOnly

/-- A stored field holds its part of the word, as far as its clamp lets it. -/
theorem State.regs_writeField_rw (hacc : fd.acc = .rw) :
    (State.writeField w reg i j off v s fd).regs = (s.setF ⟨off, fd.hi, fd.lo⟩ (s.clampField reg i j v fd (bitsOf v fd.hi fd.lo))).regs := by
  unfold State.writeField
  dsimp only
  rw [hacc]
  dsimp only
  split
  · rfl
  · split <;> rfl

/-- A field that is stored, or that the device sets by itself, leaves the others. -/
theorem State.writeField_f_apart (hacc : fd.acc = .rw ∨ fd.acc = .w1s) (hok : fd.lo ≤ fd.hi ∧ fd.hi < 32) {x : Fld}
    (hx : x.hi < fd.lo ∨ fd.hi < x.lo) : (State.writeField w reg i j off v s fd).f x = s.f x := by
  rcases hacc with hacc | hacc
  · rw [State.f_of_regs (State.regs_writeField_rw hacc)]
    exact s.f_setF_apart _ _ _ hok (.inr hx)
  · simp [State.writeField, hacc]

theorem State.foldl_writeField_f {fds : List FieldDef} {x : Fld}
    (h : ∀ fd ∈ fds, (fd.acc = .rw ∨ fd.acc = .w1s) ∧ (fd.lo ≤ fd.hi ∧ fd.hi < 32) ∧ (x.hi < fd.lo ∨ fd.hi < x.lo)) :
    (fds.foldl (State.writeField w reg i j off v) s).f x = s.f x :=
  List.foldlRecOn (motive := fun t : State => t.f x = s.f x) _ _ rfl fun t ht fd hfd => by
    obtain ⟨hacc, hok, hx⟩ := h fd hfd
    exact (State.writeField_f_apart hacc hok hx).trans ht

theorem State.writeField_f_same (hacc : fd.acc = .rw) (hok : fd.lo ≤ fd.hi ∧ fd.hi < 32)
    (hclamp : s.clampField reg i j v fd (bitsOf v fd.hi fd.lo) = bitsOf v fd.hi fd.lo) :
    (State.writeField w reg i j off v s fd).f ⟨off, fd.hi, fd.lo⟩ = bitsOf v fd.hi fd.lo := by
  rw [State.f_of_regs (State.regs_writeField_rw hacc), hclamp]
  exact State.f_setF_value s (x := ⟨off, fd.hi, fd.lo⟩) hok (bitsOf_lt ..)

/-- No other register is written. -/
theorem State.writeField_rd_ne {off' : Nat} (h : off' ≠ off) : (State.writeField w reg i j off v s fd).rd off' = s.rd off' := by
  have hstore (y : Nat) : (s.wr off y).rd off' = s.rd off' := s.rd_wr_ne _ h
  unfold State.writeField
  dsimp only
  split
  · split
    · exact hstore _
    · split <;> exact hstore _
  · split
    · split
      · exact hstore _
      · split <;> exact hstore _
    · rfl
  · exact hstore _
  · rfl

theorem State.foldl_writeField_rd_ne (fds : List FieldDef) {off' : Nat} (h : off' ≠ off) :
    (fds.foldl (State.writeField w reg i j off v) s).rd off' = s.rd off' :=
  List.foldlRecOn (motive := fun t : State => t.rd off' = s.rd off') _ _ rfl fun _ ht _ _ => (State.writeField_rd_ne h).trans ht

end

end Sys2Proof.Machine
end

section
/-! SUPPORT. The injections that a write of LPHY_DIAG asks for (R137 to R139). -/

namespace Sys2Proof.Machine

/-! ### Free bits (log entry 3) -/

/-- Nothing but the next free value differs. -/
def State.FreeOnly (s t : State) : Prop := t = { s with freeCtr := t.freeCtr }

section
variable {s t u : State}

theorem State.FreeOnly.trans (h : s.FreeOnly t) (h' : t.FreeOnly u) : s.FreeOnly u := by
  unfold State.FreeOnly at *
  rw [h] at h'
  exact h'

theorem State.free_freeOnly (s : State) : s.FreeOnly s.free.2 := rfl

theorem State.FreeOnly.laneWrite (h : s.FreeOnly t) : s.LaneWrite t := by
  rw [h]
  rfl

theorem State.FreeOnly.regs (h : s.FreeOnly t) : t.regs = s.regs := by rw [h]

theorem State.FreeOnly.lanes (h : s.FreeOnly t) : t.lanes = s.lanes := by rw [h]

theorem State.FreeOnly.lane (h : s.FreeOnly t) (l : Nat) : t.lane l = s.lane l := by rw [State.lane, h.lanes, State.lane]

/-- No more free bits are taken than were asked for. -/
theorem State.freeBits_spec (n : Nat) (s : State) : s.FreeOnly (s.freeBits n).2 ∧ (s.freeBits n).1.length ≤ n := by
  unfold State.freeBits
  refine List.foldlRecOn (motive := fun p : List Bool × State => s.FreeOnly p.2 ∧ p.1.length ≤ n) _ _
    ⟨rfl, Nat.zero_le n⟩ fun p hp _ _ => ?_
  obtain ⟨hframe, hlen⟩ := hp
  refine ⟨hframe.trans p.2.free_freeOnly, ?_⟩
  simp only [List.length_append, List.length_map, upto, List.length_range]
  omega

end

/-! ### The pattern generator starts (R138) -/

/-- A generator that starts leaves the injections of its own lane, and the registers. -/
theorem State.startPattern_spec (s : State) (l : Nat) :
    s.LaneWrite (s.startPattern l) ∧ (s.startPattern l).regs = s.regs
      ∧ ∃ bits, ((s.startPattern l).lane l).tx = { (s.lane l).tx with gen := bits, genFrom := s.cyc } := by
  have hfree : s.FreeOnly (if s.f (F.LPHY_DIAG_pat_sel l) = 3 then (s.userWord l, s)
      else s.freeBits (prbsLags (s.f (F.LPHY_DIAG_pat_sel l))).1).2 := by
    split
    exacts [rfl, (State.freeBits_spec ..).1]
  unfold State.startPattern
  dsimp only
  generalize (if s.f (F.LPHY_DIAG_pat_sel l) = 3 then (s.userWord l, s)
    else s.freeBits (prbsLags (s.f (F.LPHY_DIAG_pat_sel l))).1) = r at hfree ⊢
  refine ⟨hfree.laneWrite.modLane, hfree.regs, ?_⟩
  rw [State.lane_modLane, hfree.lane]
  exact ⟨_, rfl⟩

/-! ### What else the write starts (R137, R138) -/

/-- The counts of a checker that is enabled begin at 0, and a checker that does not run holds no lock. -/
def State.checkerReset (s : State) (l old : Nat) : State :=
  let s := if s.fb (F.LPHY_DIAG_chk_en l) && !bitOf old 8 then
      (s.wr (R.LPHY_CHK_BITS_LO l) 0).wr (R.LPHY_CHK_BITS_HI l) 0 else s
  if s.checkerOn l then s else s.setF (F.LPHY_STAT_chk_lock l) 0

/-- What a write of LPHY_DIAG starts after the injections. -/
def State.functionWritten (s : State) (l old : Nat) : State :=
  let s := s.checkerReset l old
  let m := s.f (F.LPHY_DIAG_diag_mode l)
  let s := if m = 1 ∧ (bitsOf old 2 0 ≠ 1 ∨ s.f (F.LPHY_DIAG_pat_sel l) ≠ bitsOf old 6 4) then s.startPattern l else s
  if m = bitsOf old 2 0 then s
  else if m = 0 then s.diagNormal l
  else if s.laneState l = laneDiag then s
  else
    let st := s.laneState l
    (s.modLane l (fun x => { x with preDiag := st })).setLaneState l laneDiag

theorem State.diagWritten_eq (s : State) (l old v : Nat) :
    s.diagWritten l old v = (let u := if bitOf v 12 then s.inject l 1 false else s
      (if bitOf v 13 then u.inject l (u.f (F.LPHY_DIAG_burst_len l)) true else u).functionWritten l old) := rfl

theorem ok_LPHY_STAT_chk_lock (l : Nat) : (F.LPHY_STAT_chk_lock l).ok := ⟨by simp [F.LPHY_STAT_chk_lock], by simp [F.LPHY_STAT_chk_lock]⟩

theorem LPHY_DIAG_apart (l : Nat) : R.LPHY_DIAG l ≠ R.LPHY_STAT l ∧ R.LPHY_DIAG l ≠ R.LPHY_CHK_BITS_LO l
    ∧ R.LPHY_DIAG l ≠ R.LPHY_CHK_BITS_HI l ∧ R.LPHY_STAT l ≠ R.LPHY_CHK_BITS_LO l ∧ R.LPHY_STAT l ≠ R.LPHY_CHK_BITS_HI l := by
  simp only [R.LPHY_DIAG, R.LPHY_STAT, R.LPHY_CHK_BITS_LO, R.LPHY_CHK_BITS_HI]
  omega

theorem State.checkerReset_spec (s : State) (l old : Nat) :
    s.RegsOnly (s.checkerReset l old) ∧ (s.checkerReset l old).laneState l = s.laneState l
      ∧ (s.checkerReset l old).rd (R.LPHY_DIAG l) = s.rd (R.LPHY_DIAG l) := by
  obtain ⟨hstat, hdlo, hdhi, hslo, hshi⟩ := LPHY_DIAG_apart l
  have hcounts : let u := if s.fb (F.LPHY_DIAG_chk_en l) && !bitOf old 8 then
        (s.wr (R.LPHY_CHK_BITS_LO l) 0).wr (R.LPHY_CHK_BITS_HI l) 0 else s
      s.RegsOnly u ∧ u.rd (R.LPHY_STAT l) = s.rd (R.LPHY_STAT l) ∧ u.rd (R.LPHY_DIAG l) = s.rd (R.LPHY_DIAG l) := by
    dsimp only
    split
    · exact ⟨((State.RegsOnly.refl s).wr ..).wr .., (State.rd_wr_ne _ _ hshi).trans (s.rd_wr_ne _ hslo),
        (State.rd_wr_ne _ _ hdhi).trans (s.rd_wr_ne _ hdlo)⟩
    · exact ⟨.refl s, rfl, rfl⟩
  unfold State.checkerReset
  dsimp only at hcounts ⊢
  generalize (if s.fb (F.LPHY_DIAG_chk_en l) && !bitOf old 8 then
    (s.wr (R.LPHY_CHK_BITS_LO l) 0).wr (R.LPHY_CHK_BITS_HI l) 0 else s) = u at hcounts ⊢
  obtain ⟨hregs, hustat, hudiag⟩ := hcounts
  have hstate : u.laneState l = s.laneState l := State.f_of_rd (x := F.LPHY_STAT_state l) hustat
  split
  · exact ⟨hregs, hstate, hudiag⟩
  · refine ⟨hregs.setF .., ?_, (u.rd_setF_ne (F.LPHY_STAT_chk_lock l) 0 hstat).trans hudiag⟩
    rw [State.laneState, State.f_setF_apart _ _ _ _ (ok_LPHY_STAT_chk_lock l)
      (.inr (.inl (by simp [F.LPHY_STAT_chk_lock, F.LPHY_STAT_state])))]
    exact hstate

theorem State.RegsOnly.lanes {s t : State} (h : s.RegsOnly t) : t.lanes = s.lanes := by rw [h]

theorem State.RegsOnly.lane {s t : State} (h : s.RegsOnly t) (l : Nat) : t.lane l = s.lane l := by rw [State.lane, h.lanes, State.lane]

/-- A write that leaves the function of a lane leaves its state and its injections; a lane that sends no pattern stays as it is. -/
theorem State.functionWritten_same {s : State} {l old : Nat} (h : s.f (F.LPHY_DIAG_diag_mode l) = bitsOf old 2 0) :
    s.LaneWrite (s.functionWritten l old) ∧ (s.functionWritten l old).laneState l = s.laneState l
      ∧ (∃ bits from_, ((s.functionWritten l old).lane l).tx = { (s.lane l).tx with gen := bits, genFrom := from_ })
      ∧ (s.f (F.LPHY_DIAG_diag_mode l) ≠ 1 → (s.functionWritten l old).lanes = s.lanes) := by
  obtain ⟨hregs, hstate, hdiag⟩ := s.checkerReset_spec l old
  have hlanes := hregs.lanes
  have hlane := hregs.lane l
  have hmode : (s.checkerReset l old).f (F.LPHY_DIAG_diag_mode l) = s.f (F.LPHY_DIAG_diag_mode l) :=
    State.f_of_rd (x := F.LPHY_DIAG_diag_mode l) hdiag
  unfold State.functionWritten
  dsimp only
  generalize s.checkerReset l old = u at *
  rw [hmode, if_pos h]
  split
  · next hstarts =>
    obtain ⟨hframe, hsame, bits, htx⟩ := u.startPattern_spec l
    refine ⟨hregs.laneWrite.trans hframe, ?_, ⟨bits, u.cyc, by rw [htx, hlane]⟩, fun hne => absurd hstarts.1 hne⟩
    exact (State.f_of_regs hsame (F.LPHY_STAT_state l)).trans hstate
  · exact ⟨hregs.laneWrite, hstate, ⟨_, _, by rw [hlane]⟩, fun _ => hlanes⟩

/-! ### An injection (R139) -/

/-- 64-bit words begin every 128/33 cycles: the next one begins in the four cycles to come. -/
theorem nextWord_bounds {g c : Nat} (h : g ≤ c) :
    c < g + ceilDiv (128 * ((c - g) * 33 / 2 / 64 + 1)) 33 ∧ g + ceilDiv (128 * ((c - g) * 33 / 2 / 64 + 1)) 33 ≤ c + 4 := by
  unfold ceilDiv
  omega

section
variable {s : State} {l bits : Nat} {burst : Bool}

theorem State.inject_elsewhere (h : s.mode ≠ .diagnostic) : s.inject l bits burst = s := by
  simp [State.inject, h]

/-- An injection waits in the lane, its registers and its state as before. -/
def State.Injects (s t : State) (l bits : Nat) (burst : Bool) : Prop :=
  s.LaneWrite t ∧ t.regs = s.regs ∧ (t.lane l).tx.injBits = bits ∧ (t.lane l).tx.injBurst = burst
    ∧ ∃ a, (t.lane l).tx.injFrom = some a ∧ s.cyc < a ∧ a ≤ s.cyc + 4

theorem State.inject_pattern (hmode : s.mode = .diagnostic) (hidle : (s.lane l).tx.injBits = 0) (hfrom : (s.lane l).tx.genFrom ≤ s.cyc)
    (h : s.f (F.LPHY_DIAG_diag_mode l) = 1) : s.Injects (s.inject l bits burst) l bits burst := by
  have hfree : (s.mode != .diagnostic || (s.lane l).tx.injecting s.cyc) = false := by simp [hmode, LaneTx.injecting, hidle]
  have hcarries : s.txCarries l = .pattern := by simp [State.txCarries, h]
  have hlane : s.inject l bits burst = s.modLane l (fun y => { y with tx := { y.tx with
      injBits := bits, injBurst := burst
      injFrom := some ((s.lane l).tx.genFrom + ceilDiv (128 * ((s.lane l).tx.patternPlace s.cyc / 64 + 1)) 33) } }) := by
    simp only [State.inject, hfree, hcarries, Bool.false_eq_true, if_false]
  rw [hlane]
  refine ⟨(State.LaneWrite.refl s).modLane, rfl, ?_, ?_, ?_⟩
  · rw [State.lane_modLane]
  · rw [State.lane_modLane]
  · rw [State.lane_modLane]
    exact ⟨_, rfl, nextWord_bounds hfrom⟩

theorem State.inject_looped (hmode : s.mode = .diagnostic) (hidle : (s.lane l).tx.injBits = 0)
    (h : s.f (F.LPHY_DIAG_diag_mode l) = 2) : s.Injects (s.inject l bits burst) l bits burst := by
  have hfree : (s.mode != .diagnostic || (s.lane l).tx.injecting s.cyc) = false := by simp [hmode, LaneTx.injecting, hidle]
  have hcarries : s.txCarries l = .looped := by simp [State.txCarries, h]
  have hlane : s.inject l bits burst = s.free.2.modLane l (fun y => { y with tx := { y.tx with
      injBits := bits, injBurst := burst, injFrom := some (s.cyc + 1 + s.free.1 % 4) } }) := by
    simp only [State.inject, hfree, hcarries, Bool.false_eq_true, if_false]
  rw [hlane]
  refine ⟨s.free_freeOnly.laneWrite.modLane, rfl, ?_, ?_, ?_⟩
  · rw [State.lane_modLane]
  · rw [State.lane_modLane]
  · rw [State.lane_modLane]
    exact ⟨_, rfl, by omega, by omega⟩

end

end Sys2Proof.Machine
end

section
/-! SUPPORT. The writes of LPHY_DIAG that ask for an injection, and leave the register's other fields (R137, R139). -/

namespace Sys2Proof.Machine

/-! ### The written word -/

/-- The fields of LPHY_DIAG, of which the two injections are set only. -/
def diagFields : List FieldDef :=
  [⟨24, 24, .rw, .none⟩, ⟨22, 16, .rw, .range 1 64⟩, ⟨13, 13, .w1s, .none⟩, ⟨12, 12, .w1s, .none⟩, ⟨8, 8, .rw, .none⟩,
    ⟨6, 4, .rw, .els 3 0⟩, ⟨2, 0, .rw, .special⟩]

theorem lookup_LPHY_DIAG (l : Fin 50) : lookup (R.LPHY_DIAG l)
    = some (⟨.LPHY_DIAG, 0xC0020, 50, 0x400, 1, 0x0, false, 0x10000, diagFields⟩, l.val, 0) := by
  fin_cases l <;> rfl

/-- The word of a write that sets bit `k` and gives every other field its present value. -/
def State.diagWord (s : State) (l k : Nat) : Nat := setBits (s.keepWord (R.LPHY_DIAG l)) k k 1

theorem State.keepWord_LPHY_DIAG (s : State) (l : Fin 50) : s.keepWord (R.LPHY_DIAG l)
    = setBits (setBits (setBits (setBits (setBits 0 24 24 (s.f (F.LPHY_DIAG_inj_coded l))) 22 16 (s.f (F.LPHY_DIAG_burst_len l)))
        8 8 (s.f (F.LPHY_DIAG_chk_en l))) 6 4 (s.f (F.LPHY_DIAG_pat_sel l))) 2 0 (s.f (F.LPHY_DIAG_diag_mode l)) := by
  rw [State.keepWord, lookup_LPHY_DIAG]
  rfl

theorem bitOf_eq_bitsOf (v b : Nat) : bitOf v b = (bitsOf v b b == 1) := by rw [bitOf, bitsOf, Nat.add_sub_cancel_left, pow_one]

/-- The word gives the function and the length of a burst as they are, and of the bits between them sets the one asked for. -/
theorem State.diagWord_spec (s : State) (l : Fin 50) {k : Nat} (hlow : 8 < k) (hhigh : k < 16) :
    s.diagWord l k < 2 ^ 32 ∧ bitsOf (s.diagWord l k) 2 0 = s.f (F.LPHY_DIAG_diag_mode l)
      ∧ bitsOf (s.diagWord l k) 22 16 = s.f (F.LPHY_DIAG_burst_len l) ∧ ∀ b, 8 < b → b < 16 → bitOf (s.diagWord l k) b = decide (b = k) := by
  have hmode : s.f (F.LPHY_DIAG_diag_mode l) % 2 ^ (2 + 1 - 0) = s.f (F.LPHY_DIAG_diag_mode l) :=
    Nat.mod_eq_of_lt (s.f_lt (F.LPHY_DIAG_diag_mode l))
  have hlen : s.f (F.LPHY_DIAG_burst_len l) % 2 ^ (22 + 1 - 16) = s.f (F.LPHY_DIAG_burst_len l) :=
    Nat.mod_eq_of_lt (s.f_lt (F.LPHY_DIAG_burst_len l))
  have hzero (hi lo : Nat) : bitsOf 0 hi lo = 0 := by simp [bitsOf]
  rw [State.diagWord, s.keepWord_LPHY_DIAG]
  refine ⟨?_, ?_, ?_, fun b hb hb' => ?_⟩
  · exact setBits_lt (by omega) le_rfl (setBits_lt (by decide) (by decide) (setBits_lt (by decide) (by decide)
      (setBits_lt (by decide) (by decide) (setBits_lt (by decide) (by decide) (setBits_lt (by decide) (by decide) (by decide))))))
  · simp (disch := omega) only [bitsOf_setBits_same, bitsOf_setBits_below, hmode]
  · simp (disch := omega) only [bitsOf_setBits_same, bitsOf_setBits_above, hlen]
  · rw [bitOf_eq_bitsOf]
    rcases lt_trichotomy b k with h | rfl | h
    · simp (disch := omega) only [bitsOf_setBits_below, bitsOf_setBits_above, hzero, h.ne, decide_false]
      rfl
    · rw [bitsOf_setBits_same, Nat.add_sub_cancel_left]
      simp
    · simp (disch := omega) only [bitsOf_setBits_below, bitsOf_setBits_above, hzero, h.ne', decide_false]
      rfl

/-! ### The fields stored -/

section
variable {s : State} {w : WSrc} {l : Fin 50} {v : Nat}

/-- LPHY_DIAG as a word is stored in it. -/
def State.storeDiag (s : State) (w : WSrc) (l v : Nat) : State :=
  diagFields.foldl (State.writeField w .LPHY_DIAG l 0 (R.LPHY_DIAG l) v) s

theorem State.storeDiag_regsOnly : s.RegsOnly (s.storeDiag w l v) := State.foldl_writeField_regsOnly _

theorem State.storeDiag_laneState : (s.storeDiag w l v).laneState l = s.laneState l :=
  State.f_of_rd (x := F.LPHY_STAT_state l) (State.foldl_writeField_rd_ne _ (LPHY_DIAG_apart l).1.symm)

/-- A function that is selectable in the mode is stored: 0 in every mode, and up to 3 in DIAGNOSTIC. -/
theorem State.storeDiag_mode (h : bitsOf v 2 0 = 0 ∨ s.mode = .diagnostic ∧ bitsOf v 2 0 ≤ 3) :
    (s.storeDiag w l v).f (F.LPHY_DIAG_diag_mode l) = bitsOf v 2 0 := by
  have hsplit : s.storeDiag w l v = State.writeField w .LPHY_DIAG l 0 (R.LPHY_DIAG l) v
      ((diagFields.take 6).foldl (State.writeField w .LPHY_DIAG l 0 (R.LPHY_DIAG l) v) s) ⟨2, 0, .rw, .special⟩ := rfl
  have hmode : ((diagFields.take 6).foldl (State.writeField w .LPHY_DIAG l 0 (R.LPHY_DIAG l) v) s).mode = s.mode := by
    rw [State.foldl_writeField_regsOnly (s := s) (diagFields.take 6)]
  rw [hsplit]
  refine State.writeField_f_same (fd := ⟨2, 0, .rw, .special⟩) rfl (by decide) ?_
  change (if bitsOf v 2 0 > 3 ∨ _ ≠ Mode.diagnostic then 0 else bitsOf v 2 0) = bitsOf v 2 0
  rw [hmode]
  rcases h with h | ⟨hdiag, hle⟩
  · rw [h, ite_self]
  · exact if_neg (by simp [hdiag, hle])

/-- A length in its range is stored. -/
theorem State.storeDiag_burstLen (hlow : 1 ≤ bitsOf v 22 16) (hhigh : bitsOf v 22 16 ≤ 64) :
    (s.storeDiag w l v).f (F.LPHY_DIAG_burst_len l) = bitsOf v 22 16 := by
  have hsplit : s.storeDiag w l v = (diagFields.drop 2).foldl (State.writeField w .LPHY_DIAG l 0 (R.LPHY_DIAG l) v)
      (State.writeField w .LPHY_DIAG l 0 (R.LPHY_DIAG l) v (State.writeField w .LPHY_DIAG l 0 (R.LPHY_DIAG l) v s ⟨24, 24, .rw, .none⟩)
        ⟨22, 16, .rw, .range 1 64⟩) := rfl
  have hrest : ∀ fd ∈ diagFields.drop 2, (fd.acc = .rw ∨ fd.acc = .w1s) ∧ (fd.lo ≤ fd.hi ∧ fd.hi < 32)
      ∧ ((F.LPHY_DIAG_burst_len l).hi < fd.lo ∨ fd.hi < (F.LPHY_DIAG_burst_len l).lo) := by
    change ∀ fd ∈ diagFields.drop 2, (fd.acc = .rw ∨ fd.acc = .w1s) ∧ (fd.lo ≤ fd.hi ∧ fd.hi < 32) ∧ (22 < fd.lo ∨ fd.hi < 16)
    decide
  rw [hsplit, State.foldl_writeField_f hrest]
  refine State.writeField_f_same (fd := ⟨22, 16, .rw, .range 1 64⟩) rfl (by decide) ?_
  change nclamp (bitsOf v 22 16) 1 64 = bitsOf v 22 16
  rw [nclamp, if_neg (by omega), if_neg (by omega)]

theorem State.writeReg_LPHY_DIAG (hrecs : s.pwmIo.recs = []) (hv : v < 2 ^ 32) :
    s.writeReg w (R.LPHY_DIAG l) v = (s.storeDiag w l v).diagWritten l (s.rd (R.LPHY_DIAG l)) v := by
  have hmod : v % 2 ^ 32 = v := Nat.mod_eq_of_lt hv
  have haside : s.writeAside w .LPHY_DIAG l (R.LPHY_DIAG l) v = none := rfl
  have hpre : s.premask .LPHY_DIAG l (R.LPHY_DIAG l) v = v := rfl
  have hlock (d : RegDef) (h : d.fields = diagFields) : s.lockDiffers d (R.LPHY_DIAG l) v = false := by
    simp [State.lockDiffers, h, diagFields]
  simp only [State.writeReg, State.recordStands_of_nil hrecs, lookup_LPHY_DIAG, hmod, haside, hpre, Bool.false_eq_true, if_false]
  rw [hlock _ rfl, if_neg (by decide)]
  rfl

/-- A master's write of one bit of LPHY_DIAG. -/
theorem State.fieldWrite_LPHY_DIAG {m : Master} {k : Nat} (h : s.MayWrite m) (hlow : 8 < k) (hhigh : k < 16) :
    s.fieldWrite m ⟨R.LPHY_DIAG l, k, k⟩ 1
      = ((s.storeDiag (WSrc.ofMaster m) l (s.diagWord l k)).diagWritten l (s.rd (R.LPHY_DIAG l)) (s.diagWord l k)).settle := by
  obtain ⟨hlive, howner, -, hrecs⟩ := h
  obtain ⟨hlt, -⟩ := s.diagWord_spec l hlow hhigh
  have hal : R.LPHY_DIAG l % 4 = 0 := by
    simp only [R.LPHY_DIAG]
    omega
  change (s.ownerWrite m (R.LPHY_DIAG l) (s.diagWord l k)).settle = _
  rw [State.ownerWrite_eq hlive howner hal hlt, State.writeReg_LPHY_DIAG hrecs hlt]

theorem exec_injectSingle {m : Master} (h : s.MayWrite m) :
    exec (.injectSingle m l) s = .next (((s.storeDiag (WSrc.ofMaster m) l (s.diagWord l 12)).inject l 1 false).functionWritten l
      (s.rd (R.LPHY_DIAG l))).settle := by
  obtain ⟨-, -, -, hbits⟩ := s.diagWord_spec l (k := 12) (by decide) (by decide)
  have hwrite := State.fieldWrite_LPHY_DIAG (l := l) (k := 12) h (by decide) (by decide)
  rw [State.diagWritten_eq, hbits 12 (by decide) (by decide), hbits 13 (by decide) (by decide)] at hwrite
  exact congrArg Host.Outcome.next hwrite

theorem exec_injectBurst {m : Master} (h : s.MayWrite m) :
    exec (.injectBurst m l) s = .next (((s.storeDiag (WSrc.ofMaster m) l (s.diagWord l 13)).inject l
      ((s.storeDiag (WSrc.ofMaster m) l (s.diagWord l 13)).f (F.LPHY_DIAG_burst_len l)) true).functionWritten l
      (s.rd (R.LPHY_DIAG l))).settle := by
  obtain ⟨-, -, -, hbits⟩ := s.diagWord_spec l (k := 13) (by decide) (by decide)
  have hwrite := State.fieldWrite_LPHY_DIAG (l := l) (k := 13) h (by decide) (by decide)
  rw [State.diagWritten_eq, hbits 12 (by decide) (by decide), hbits 13 (by decide) (by decide)] at hwrite
  exact congrArg Host.Outcome.next hwrite

/-! ### The injections -/

/-- In PATTERN and LOOP_NEAR the injection that a write asks for waits for its word, once the write has taken effect. -/
theorem State.injectionWritten {bits : Nat} {burst : Bool} {k : Nat} (hlow : 8 < k) (hhigh : k < 16) (hs : s.Settled)
    (hmode : s.mode = .diagnostic) (hfun : s.f (F.LPHY_DIAG_diag_mode l) = 1 ∨ s.f (F.LPHY_DIAG_diag_mode l) = 2)
    (hidle : (s.lane l).tx.injBits = 0) (hfrom : (s.lane l).tx.genFrom ≤ s.cyc) :
    let t := (((s.storeDiag w l (s.diagWord l k)).inject l bits burst).functionWritten l (s.rd (R.LPHY_DIAG l))).settle
    (t.lane l).tx.injBits = bits ∧ (t.lane l).tx.injBurst = burst
      ∧ (∃ a, (t.lane l).tx.injFrom = some a ∧ s.cyc < a ∧ a ≤ s.cyc + 4) ∧ t.laneState l = s.laneState l := by
  obtain ⟨-, hword, -, -⟩ := s.diagWord_spec l hlow hhigh
  have hstored : (s.storeDiag w l (s.diagWord l k)).f (F.LPHY_DIAG_diag_mode l) = s.f (F.LPHY_DIAG_diag_mode l) := by
    rw [← hword]
    exact State.storeDiag_mode (.inr ⟨hmode, by omega⟩)
  have hstate : (s.storeDiag w l (s.diagWord l k)).laneState l = s.laneState l := State.storeDiag_laneState
  have hregs : s.RegsOnly (s.storeDiag w l (s.diagWord l k)) := State.storeDiag_regsOnly
  generalize s.storeDiag w l (s.diagWord l k) = u at *
  have hulane := hregs.lane l
  have hucyc := hregs.laneWrite.cyc
  have humode := hregs.laneWrite.mode.trans hmode
  have hinject : u.Injects (u.inject l bits burst) l bits burst := by
    rcases hfun with hfun | hfun
    · exact State.inject_pattern humode (by rw [hulane, hidle]) (by rw [hulane, hucyc]; exact hfrom) (hstored.trans hfun)
    · exact State.inject_looped humode (by rw [hulane, hidle]) (hstored.trans hfun)
  obtain ⟨hframe, hsame, hbits, hburst, a, ha, hafter, hwithin⟩ := hinject
  generalize u.inject l bits burst = y at *
  have hkept : y.f (F.LPHY_DIAG_diag_mode l) = bitsOf (s.rd (R.LPHY_DIAG l)) 2 0 := (State.f_of_regs hsame _).trans hstored
  obtain ⟨hframe', hstate', ⟨gen, from_, htx⟩, -⟩ := State.functionWritten_same hkept
  generalize y.functionWritten l (s.rd (R.LPHY_DIAG l)) = z at *
  obtain ⟨hsettled, -, hlane⟩ := (hregs.laneWrite.trans (hframe.trans hframe')).settle_keeps hs
  rw [hucyc] at hafter hwithin
  dsimp only
  rw [hlane, htx]
  refine ⟨hbits, hburst, ⟨a, ha, hafter, hwithin⟩, ?_⟩
  rw [State.laneState, State.f_of_regs hsettled]
  exact hstate'.trans ((State.f_of_regs hsame (F.LPHY_STAT_state l)).trans hstate)

/-- In a mode other than DIAGNOSTIC, where no function is selected, no lane changes. -/
theorem State.injectionRefused {bits : Nat} {burst : Bool} {k : Nat} (hlow : 8 < k) (hhigh : k < 16) (hs : s.Settled)
    (hmode : s.mode ≠ .diagnostic) (hfun : s.f (F.LPHY_DIAG_diag_mode l) = 0) :
    (((s.storeDiag w l (s.diagWord l k)).inject l bits burst).functionWritten l (s.rd (R.LPHY_DIAG l))).settle.lanes = s.lanes := by
  obtain ⟨-, hword, -, -⟩ := s.diagWord_spec l hlow hhigh
  have hstored : (s.storeDiag w l (s.diagWord l k)).f (F.LPHY_DIAG_diag_mode l) = s.f (F.LPHY_DIAG_diag_mode l) := by
    rw [← hword]
    exact State.storeDiag_mode (.inl (hword.trans hfun))
  have hregs : s.RegsOnly (s.storeDiag w l (s.diagWord l k)) := State.storeDiag_regsOnly
  generalize s.storeDiag w l (s.diagWord l k) = u at *
  rw [State.inject_elsewhere (by rw [hregs.laneWrite.mode]; exact hmode)]
  obtain ⟨hframe, -, -, hlanes⟩ := State.functionWritten_same (old := s.rd (R.LPHY_DIAG l)) hstored
  obtain ⟨-, hkept, -⟩ := (hregs.laneWrite.trans hframe).settle_keeps hs
  rw [hkept, hlanes (by rw [hstored, hfun]; decide), hregs.lanes]

variable {m : Master}

theorem injectSingle_waits (h : s.MayWrite m) (hmode : s.mode = .diagnostic)
    (hfun : s.f (F.LPHY_DIAG_diag_mode l) = 1 ∨ s.f (F.LPHY_DIAG_diag_mode l) = 2) (hidle : (s.lane l).tx.injBits = 0)
    (hfrom : (s.lane l).tx.genFrom ≤ s.cyc) :
    ∃ t, exec (.injectSingle m l) s = .next t ∧ (t.lane l).tx.injBits = 1 ∧ (t.lane l).tx.injBurst = false
      ∧ (∃ a, (t.lane l).tx.injFrom = some a ∧ s.cyc < a ∧ a ≤ s.cyc + 4) ∧ t.laneState l = s.laneState l := by
  have hexec := exec_injectSingle (l := l) h
  obtain ⟨-, -, hsettled, -⟩ := h
  exact ⟨_, hexec, State.injectionWritten (by decide) (by decide) hsettled hmode hfun hidle hfrom⟩

theorem injectBurst_waits (h : s.MayWrite m) (hmode : s.mode = .diagnostic)
    (hfun : s.f (F.LPHY_DIAG_diag_mode l) = 1 ∨ s.f (F.LPHY_DIAG_diag_mode l) = 2) (hidle : (s.lane l).tx.injBits = 0)
    (hfrom : (s.lane l).tx.genFrom ≤ s.cyc) (hlow : 1 ≤ s.f (F.LPHY_DIAG_burst_len l)) (hhigh : s.f (F.LPHY_DIAG_burst_len l) ≤ 64) :
    ∃ t, exec (.injectBurst m l) s = .next t ∧ (t.lane l).tx.injBits = s.f (F.LPHY_DIAG_burst_len l) ∧ (t.lane l).tx.injBurst = true
      ∧ t.laneState l = s.laneState l := by
  have hexec := exec_injectBurst (l := l) h
  obtain ⟨-, -, hsettled, -⟩ := h
  obtain ⟨-, -, hword, -⟩ := s.diagWord_spec l (k := 13) (by decide) (by decide)
  rw [State.storeDiag_burstLen (by rw [hword]; exact hlow) (by rw [hword]; exact hhigh), hword] at hexec
  obtain ⟨hbits, hburst, -, hstate⟩ := State.injectionWritten (w := WSrc.ofMaster m) (bits := s.f (F.LPHY_DIAG_burst_len l)) (burst := true)
    (k := 13) (by decide) (by decide) hsettled hmode hfun hidle hfrom
  exact ⟨_, hexec, hbits, hburst, hstate⟩

theorem inject_refused (h : s.MayWrite m) (hmode : s.mode ≠ .diagnostic) (hfun : s.f (F.LPHY_DIAG_diag_mode l) = 0) :
    ∀ i ∈ [Instr.injectSingle m l, .injectBurst m l], ∃ t, exec i s = .next t ∧ t.lanes = s.lanes := by
  have hsingle := exec_injectSingle (l := l) h
  have hburst := exec_injectBurst (l := l) h
  obtain ⟨-, -, hsettled, -⟩ := h
  intro i hi
  rcases List.mem_pair.mp hi with rfl | rfl
  · exact ⟨_, hsingle, State.injectionRefused (by decide) (by decide) hsettled hmode hfun⟩
  · exact ⟨_, hburst, State.injectionRefused (by decide) (by decide) hsettled hmode hfun⟩

end

end Sys2Proof.Machine
end

section
/-! SUPPORT. The pattern checker: its lock, what it counts, and the loss of its lock (R137, R138). -/

namespace Sys2Proof.Machine

section
variable {s t : State} {l : Fin 50}

/-! ### The bits a checker receives -/

theorem State.checkedBits_spec (s : State) (l : Nat) (bits : List Bool) :
    s.FreeOnly (s.checkedBits l bits).2 ∧ (s.checkedBits l bits).1.length ≤ bits.length := by
  unfold State.checkedBits
  split
  · exact State.freeBits_spec ..
  · exact ⟨rfl, Nat.le_refl _⟩

theorem State.checkedBits_pattern {bits : List Bool} (h : s.txCarries l = .pattern) : s.checkedBits l bits = (bits, s) :=
  if_neg (by simp [h])

/-- No free value says with which bits a checker locks. -/
theorem State.FreeOnly.checkerSeed (h : s.FreeOnly t) (l : Nat) (bits : List Bool) : t.checkerSeed l bits = s.checkerSeed l bits := by
  rw [h]
  rfl

/-! ### Lock (R138) -/

theorem exec_checkerLock_seeded {bits seed : List Bool} (hon : s.checkerOn l = true) (hlock : s.fb (F.LPHY_STAT_chk_lock l) = false)
    (hseed : s.checkerSeed l (s.checkedBits l bits).1 = some seed) :
    exec (.checkerLock ⟨l, bits⟩) s = .next (((s.checkedBits l bits).2.setF (F.LPHY_STAT_chk_lock l) 1).modLane l
      (fun y => { y with chk := { bits := seed, count := 0, errs := [] } })) := by
  have hseed' := ((s.checkedBits_spec l bits).1.checkerSeed l (s.checkedBits l bits).1).trans hseed
  simp only [exec, execCheckerLock, hon, hlock, Bool.not_false, Bool.and_self, if_true, hseed']

theorem checkerLock_locked {bits : List Bool} (hon : s.checkerOn l = true) (hlock : s.fb (F.LPHY_STAT_chk_lock l) = false)
    (hseed : s.checkerSeed l (s.checkedBits l bits).1 ≠ none) :
    ∃ t, exec (.checkerLock ⟨l, bits⟩) s = .next t ∧ t.fb (F.LPHY_STAT_chk_lock l) = true ∧ (t.lane l).chk.errs = [] := by
  obtain ⟨seed, hsome⟩ := Option.ne_none_iff_exists'.mp hseed
  exact ⟨_, exec_checkerLock_seeded hon hlock hsome,
    (State.fb_modLane ..).trans (State.fb_setF_bit _ (ok_LPHY_STAT_chk_lock l) rfl true), by rw [State.lane_modLane]⟩

theorem exec_checkerLock_idle {bits : List Bool}
    (h : s.checkerOn l = false ∨ s.txCarries l = .pattern ∧ s.checkerSeed l bits = none) :
    exec (.checkerLock ⟨l, bits⟩) s = .next s := by
  rcases h with h | ⟨hpattern, hnone⟩
  · simp [exec, execCheckerLock, h]
  · simp only [exec, execCheckerLock, State.checkedBits_pattern hpattern, hnone, ite_self]

/-! ### Comparison (R138) -/

/-- Each bit compared is at most one error, and none is compared that has not come. -/
theorem Checker.run_counts (pat : Nat) (x : Checker) (bits : List Bool) :
    (x.run pat bits).2.2 ≤ (x.run pat bits).2.1 ∧ (x.run pat bits).2.1 ≤ bits.length := by
  induction bits generalizing x with
  | nil => exact ⟨Nat.le_refl _, Nat.le_refl _⟩
  | cons b rest ih =>
    unfold Checker.run
    split
    · exact ⟨Nat.le_refl _, Nat.zero_le _⟩
    · obtain ⟨herrs, hbits⟩ := ih (x.step pat b).1
      have hone : b2n (x.step pat b).2 ≤ 1 := by cases (x.step pat b).2 <;> decide
      exact ⟨Nat.add_le_add herrs hone, Nat.succ_le_succ hbits⟩

theorem LPHY_CHK_apart (l : Nat) : R.LPHY_CHK_ERR l ≠ R.LPHY_CHK_BITS_LO l ∧ R.LPHY_CHK_ERR l ≠ R.LPHY_CHK_BITS_HI l
    ∧ R.LPHY_CHK_BITS_LO l ≠ R.LPHY_CHK_BITS_HI l ∧ R.LPHY_STAT l ≠ R.LPHY_CHK_ERR l := by
  simp only [R.LPHY_CHK_ERR, R.LPHY_CHK_BITS_LO, R.LPHY_CHK_BITS_HI, R.LPHY_STAT]
  omega

theorem ok_LPHY_CHK_ERR_chk_err (l : Nat) : (F.LPHY_CHK_ERR_chk_err l).ok :=
  ⟨by simp [F.LPHY_CHK_ERR_chk_err], by simp [F.LPHY_CHK_ERR_chk_err]⟩

/-- The bits that a checker has compared since it was enabled. -/
def State.bitsCompared (s : State) (l : Nat) : Nat := s.rd (R.LPHY_CHK_BITS_LO l) + s.rd (R.LPHY_CHK_BITS_HI l) * 2 ^ 32

/-- Errors and bits are counted, each up to its largest value, and the status of the lane stays. -/
theorem State.countChecked_spec (s : State) (l errs n : Nat) :
    (s.countChecked l errs n).f (F.LPHY_CHK_ERR_chk_err l) = min 0xFFFFFFFF (s.f (F.LPHY_CHK_ERR_chk_err l) + errs)
      ∧ (s.countChecked l errs n).bitsCompared l = min (2 ^ 64 - 1) (s.bitsCompared l + n)
      ∧ (s.countChecked l errs n).rd (R.LPHY_STAT l) = s.rd (R.LPHY_STAT l) := by
  obtain ⟨hlo, hhi, hhalves, hstat⟩ := LPHY_CHK_apart l
  obtain ⟨-, -, -, hslo, hshi⟩ := LPHY_DIAG_apart l
  unfold State.countChecked
  dsimp only
  set u := s.bumpF (F.LPHY_CHK_ERR_chk_err l) errs with hu
  have hnow : u.bitsCompared l = s.bitsCompared l := by
    rw [State.bitsCompared, hu, s.rd_bumpF_ne (F.LPHY_CHK_ERR_chk_err l) errs hlo.symm, s.rd_bumpF_ne (F.LPHY_CHK_ERR_chk_err l) errs hhi.symm,
      State.bitsCompared]
  have herrs : u.f (F.LPHY_CHK_ERR_chk_err l) = min 0xFFFFFFFF (s.f (F.LPHY_CHK_ERR_chk_err l) + errs) :=
    s.f_bumpF_min _ errs (ok_LPHY_CHK_ERR_chk_err l)
  have hustat : u.rd (R.LPHY_STAT l) = s.rd (R.LPHY_STAT l) := s.rd_bumpF_ne (F.LPHY_CHK_ERR_chk_err l) errs hstat
  have hsum : satAdd (u.bitsCompared l) n (2 ^ 64 - 1) = min (2 ^ 64 - 1) (s.bitsCompared l + n) := by rw [satAdd_eq_min, hnow]
  clear_value u
  change ((u.wr (R.LPHY_CHK_BITS_LO l) (satAdd (u.bitsCompared l) n (2 ^ 64 - 1))).wr (R.LPHY_CHK_BITS_HI l)
      (satAdd (u.bitsCompared l) n (2 ^ 64 - 1) / 2 ^ 32)).f _ = _
    ∧ ((u.wr (R.LPHY_CHK_BITS_LO l) (satAdd (u.bitsCompared l) n (2 ^ 64 - 1))).wr (R.LPHY_CHK_BITS_HI l)
      (satAdd (u.bitsCompared l) n (2 ^ 64 - 1) / 2 ^ 32)).bitsCompared l = _
    ∧ ((u.wr (R.LPHY_CHK_BITS_LO l) (satAdd (u.bitsCompared l) n (2 ^ 64 - 1))).wr (R.LPHY_CHK_BITS_HI l)
      (satAdd (u.bitsCompared l) n (2 ^ 64 - 1) / 2 ^ 32)).rd _ = _
  rw [hsum]
  have hle : min (2 ^ 64 - 1) (s.bitsCompared l + n) ≤ 2 ^ 64 - 1 := Nat.min_le_left ..
  generalize min (2 ^ 64 - 1) (s.bitsCompared l + n) = v at hle ⊢
  have hrd {off : Nat} (h : off ≠ R.LPHY_CHK_BITS_LO l) (h' : off ≠ R.LPHY_CHK_BITS_HI l) :
      ((u.wr (R.LPHY_CHK_BITS_LO l) v).wr (R.LPHY_CHK_BITS_HI l) (v / 2 ^ 32)).rd off = u.rd off :=
    (State.rd_wr_ne _ _ h').trans (u.rd_wr_ne v h)
  refine ⟨(State.f_of_rd (x := F.LPHY_CHK_ERR_chk_err l) (hrd hlo hhi)).trans herrs, ?_, (hrd hslo hshi).trans hustat⟩
  rw [State.bitsCompared, State.rd_wr_same, State.rd_wr_ne _ _ hhalves, State.rd_wr_same]
  omega

/-- A checker after received bits, and whether it still holds lock. -/
def State.checkedTo (s : State) (l : Nat) (x : Checker) : State :=
  if x.lost then (s.modLane l (fun y => { y with chk := x })).setF (F.LPHY_STAT_chk_lock l) 0 else s.modLane l (fun y => { y with chk := x })

theorem State.checkedTo_spec (s : State) (l : Nat) (x : Checker) (hlock : s.fb (F.LPHY_STAT_chk_lock l) = true) :
    (s.checkedTo l x).fb (F.LPHY_STAT_chk_lock l) = decide (x.errs.length < 64)
      ∧ ∀ off, off ≠ R.LPHY_STAT l → (s.checkedTo l x).rd off = s.rd off := by
  unfold State.checkedTo
  split
  · next hlost =>
    rw [Checker.lost, decide_eq_true_eq] at hlost
    refine ⟨?_, fun off ho => (State.rd_setF_ne _ (F.LPHY_STAT_chk_lock l) 0 ho).trans (State.rd_modLane ..)⟩
    rw [decide_eq_false (Nat.not_lt.mpr hlost)]
    exact State.fb_setF_bit _ (ok_LPHY_STAT_chk_lock l) rfl false
  · next hheld =>
    rw [Checker.lost, decide_eq_true_eq, Nat.not_le] at hheld
    rw [decide_eq_true hheld]
    exact ⟨(State.fb_modLane ..).trans hlock, fun off _ => State.rd_modLane ..⟩

theorem exec_checkerLoss_compared {bit : Bool} {bits : List Bool} (hon : s.checkerOn l = true) (hlock : s.fb (F.LPHY_STAT_chk_lock l) = true) :
    exec (.checkerLoss l bit bits) s =
      (let q := s.checkedBits l (bit :: bits)
       let r := (q.2.lane l).chk.run (q.2.f (F.LPHY_DIAG_pat_sel l)) q.1
       .next ((q.2.countChecked l r.2.2 r.2.1).checkedTo l r.1)) := by
  simp only [exec, execCheckerLoss, hon, hlock, Bool.and_self, if_true]
  rfl

theorem checkerLoss_compared {bit : Bool} {bits : List Bool} (hon : s.checkerOn l = true) (hlock : s.fb (F.LPHY_STAT_chk_lock l) = true) :
    ∃ t, exec (.checkerLoss l bit bits) s = .next t
      ∧ (let r := (s.lane l).chk.run (s.f (F.LPHY_DIAG_pat_sel l)) (s.checkedBits l (bit :: bits)).1
         r.2.2 ≤ r.2.1 ∧ r.2.1 ≤ bits.length + 1
          ∧ t.f (F.LPHY_CHK_ERR_chk_err l) = min 0xFFFFFFFF (s.f (F.LPHY_CHK_ERR_chk_err l) + r.2.2)
          ∧ t.rd (R.LPHY_CHK_BITS_LO l) + t.rd (R.LPHY_CHK_BITS_HI l) * 2 ^ 32
              = min (2 ^ 64 - 1) (s.rd (R.LPHY_CHK_BITS_LO l) + s.rd (R.LPHY_CHK_BITS_HI l) * 2 ^ 32 + r.2.1)
          ∧ t.fb (F.LPHY_STAT_chk_lock l) = decide (r.1.errs.length < 64)) := by
  have hexec := exec_checkerLoss_compared (bit := bit) (bits := bits) hon hlock
  obtain ⟨hfree, hlen⟩ := s.checkedBits_spec l (bit :: bits)
  obtain ⟨hlo, hhi, -, hstat⟩ := LPHY_CHK_apart l
  obtain ⟨-, -, -, hslo, hshi⟩ := LPHY_DIAG_apart l
  dsimp only at hexec
  rw [hfree.lane, State.f_of_regs hfree.regs] at hexec
  refine ⟨_, hexec, ?_⟩
  dsimp only
  obtain ⟨herrs, hcompared⟩ := Checker.run_counts (s.f (F.LPHY_DIAG_pat_sel l)) (s.lane l).chk (s.checkedBits l (bit :: bits)).1
  generalize (s.lane l).chk.run (s.f (F.LPHY_DIAG_pat_sel l)) (s.checkedBits l (bit :: bits)).1 = r at *
  obtain ⟨hchkErr, hchkBits, hkept⟩ := (s.checkedBits l (bit :: bits)).2.countChecked_spec l r.2.2 r.2.1
  obtain ⟨hheld, hrd⟩ := ((s.checkedBits l (bit :: bits)).2.countChecked l r.2.2 r.2.1).checkedTo_spec l r.1
    ((State.fb_of_rd (x := F.LPHY_STAT_chk_lock l) hkept).trans ((State.fb_of_regs hfree.regs _).trans hlock))
  have hbits : (s.checkedBits l (bit :: bits)).2.bitsCompared l = s.bitsCompared l := by
    rw [State.bitsCompared, State.rd_of_regs hfree.regs, State.rd_of_regs hfree.regs, State.bitsCompared]
  refine ⟨herrs, hcompared.trans hlen, ?_, ?_, hheld⟩
  · rw [State.f_of_rd (x := F.LPHY_CHK_ERR_chk_err l) (hrd _ hstat.symm), hchkErr, State.f_of_regs hfree.regs]
  · rw [hrd _ hslo.symm, hrd _ hshi.symm]
    exact hchkBits.trans (by rw [hbits]; rfl)

theorem exec_checkerLoss_idle {bit : Bool} {bits : List Bool} (h : s.checkerOn l = false ∨ s.fb (F.LPHY_STAT_chk_lock l) = false) :
    exec (.checkerLoss l bit bits) s = .next s := by
  rcases h with h | h <;> simp [exec, execCheckerLoss, h]

end

end Sys2Proof.Machine
end

section
/-! CERTIFICATE. Adaptation of the receivers, injections, and the pattern checker (R131 to R139). -/

open Sys2Proof.Machine

namespace Sys2Proof

/-- Settles O40, row by row: a measurement of the eye, the freeze and the resumption, the write of the receiver's equalisation, the
injections, and the checker's lock, counts and loss. -/
theorem receiverAdaptationAndPatterns : Obligations.ReceiverAdaptationAndPatterns := by
  unfold Obligations.ReceiverAdaptationAndPatterns
  intro s m l ev eh n cv v bit bits
  exact ⟨fomMeasure_towards, adaptFreeze_frozen, adaptResume_resumed, exec_adapt_tooFew, eqRxWrite_configure, eqRxWrite_elsewhere,
    fun h hmode hfun hidle hfrom => ⟨injectSingle_waits h hmode hfun hidle hfrom, injectBurst_waits h hmode hfun hidle hfrom⟩,
    inject_refused, checkerLock_locked, exec_checkerLock_idle, checkerLoss_compared, exec_checkerLoss_idle⟩

end Sys2Proof
end

section
/-! SUPPORT. The selection of an arm: its candidates in the order of their composite keys, and the counts of its levels (R158 to R161). -/

namespace Sys2Proof.Machine

/-! ### Lists sorted by their first component -/

theorem sortIns_perm (p : Nat × Nat) (l : List (Nat × Nat)) : (sortIns p l).Perm (p :: l) := by
  induction l with
  | nil => exact .refl _
  | cons q t ih =>
    unfold sortIns
    split
    · exact .refl _
    · exact (ih.cons q).trans (.swap p q t)

theorem sortPairs_perm (l : List (Nat × Nat)) : (sortPairs l).Perm l := by
  have key : ∀ acc : List (Nat × Nat), (l.foldl (fun acc p => sortIns p acc) acc).Perm (acc ++ l) := by
    induction l with
    | nil => intro acc; rw [List.append_nil]; exact .refl _
    | cons p t ih =>
      intro acc
      exact (ih _).trans (((sortIns_perm p acc).append_right t).trans List.perm_middle.symm)
  exact key []

theorem sortIns_rising (p : Nat × Nat) {l : List (Nat × Nat)} (h : l.Pairwise (fun x y => x.1 ≤ y.1)) :
    (sortIns p l).Pairwise (fun x y => x.1 ≤ y.1) := by
  induction l with
  | nil => exact List.pairwise_singleton _ _
  | cons q t ih =>
    obtain ⟨hq, ht⟩ := List.pairwise_cons.mp h
    unfold sortIns
    split
    · next hlt =>
      refine List.pairwise_cons.mpr ⟨fun x hx => ?_, h⟩
      rcases List.mem_cons.mp hx with rfl | hx
      · exact hlt.le
      · exact hlt.le.trans (hq x hx)
    · next hge =>
      refine List.pairwise_cons.mpr ⟨fun x hx => ?_, ih ht⟩
      rcases List.mem_cons.mp ((sortIns_perm p t).subset hx) with rfl | hx
      · exact Nat.le_of_not_lt hge
      · exact hq x hx

theorem sortPairs_rising (l : List (Nat × Nat)) : (sortPairs l).Pairwise (fun x y => x.1 ≤ y.1) :=
  List.foldlRecOn (motive := fun acc : List (Nat × Nat) => acc.Pairwise (fun x y => x.1 ≤ y.1)) l _ .nil
    fun _ hacc p _ => sortIns_rising p hacc

/-! ### The least and the greatest count -/

theorem foldl_min_least {l : List Nat} {b : Nat} (hne : l ≠ []) (hb : ∀ k ∈ l, k ≤ b) :
    l.foldl min b ∈ l ∧ ∀ k ∈ l, l.foldl min b ≤ k := by
  obtain ⟨m, hm⟩ := Option.isSome_iff_exists.mp (List.isSome_min?_of_ne_nil hne)
  obtain ⟨hmem, hle⟩ := List.min?_eq_some_iff.mp hm
  rw [List.foldl_min, hm, Option.getD_some, min_eq_right (hb m hmem)]
  exact ⟨hmem, hle⟩

theorem foldl_max_greatest {l : List Nat} (hne : l ≠ []) : l.foldl max 0 ∈ l ∧ ∀ k ∈ l, k ≤ l.foldl max 0 := by
  obtain ⟨m, hm⟩ := Option.isSome_iff_exists.mp (List.isSome_max?_of_ne_nil hne)
  obtain ⟨hmem, hle⟩ := List.max?_eq_some_iff.mp hm
  rw [List.foldl_max, hm, Option.getD_some, Nat.zero_max]
  exact ⟨hmem, hle⟩

theorem iclamp_eq_max_min {x lo hi : Int} (h : lo ≤ hi) : iclamp x lo hi = max lo (min x hi) := by
  unfold iclamp
  split
  · omega
  · split <;> omega

/-! ### The cells of an arm -/

section
variable (s : State) (a : Nat) (r : ArmReq)

theorem State.laneCount_le (l : Nat) : s.laneCount l ≤ 64 := by
  unfold State.laneCount
  split <;> omega

theorem State.mem_laneCells_iff {l c : Nat} : c ∈ s.laneCells l ↔ ∃ k < s.laneCount l, l * 64 + k = c := by
  simp [State.laneCells, upto]

theorem State.allCells_nodup : s.allCells.Nodup := by
  refine List.nodup_flatMap.mpr ⟨fun l _ => s.laneCells_nodup l, List.nodup_range.imp fun {l j} hne c hl hj => ?_⟩
  obtain ⟨k, hk, rfl⟩ := s.mem_laneCells_iff.mp hl
  obtain ⟨i, hi, heq⟩ := s.mem_laneCells_iff.mp hj
  have hk64 := s.laneCount_le l
  have hi64 := s.laneCount_le j
  omega

theorem State.armCells_nodup : (s.armCells a).Nodup := s.allCells_nodup.filter _

/-! ### The candidates (R158) -/

/-- The cells of code 0 of an arm, in the order of their positions. -/
def State.eligible : List Nat := (s.armCells a).filter (fun c => s.cellCode c == 0)

/-- A candidate with its composite key. -/
def State.keyed (c : Nat) : Nat × Nat := (s.compositeKey a c (s.armPos a c) (s.armCells a).length r, c)

theorem State.zipIdx_armPos {p : Nat × Nat} (h : p ∈ (s.armCells a).zipIdx) : p.2 = s.armPos a p.1 := by
  obtain ⟨hlt, hget⟩ := List.getElem?_eq_some_iff.mp (List.mem_zipIdx_iff_getElem?.mp h)
  rw [← hget, State.armPos, (s.armCells_nodup a).idxOf_getElem]

theorem State.select_cands : (s.select a r).cands = (sortPairs ((s.eligible a).map (s.keyed a r))).map Prod.snd := by
  have hkeys : ((s.armCells a).zipIdx.filter (fun p => s.cellCode p.1 == 0)).map
        (fun p => (s.compositeKey a p.1 p.2 (s.armCells a).length r, p.1))
      = (s.eligible a).map (s.keyed a r) := by
    calc _ = ((s.armCells a).zipIdx.filter (fun p => s.cellCode p.1 == 0)).map (s.keyed a r ∘ Prod.fst) :=
          List.map_congr_left fun p hp => by
            rw [s.zipIdx_armPos a (List.mem_of_mem_filter hp), Function.comp_apply, State.keyed]
      _ = ((((s.armCells a).zipIdx.map Prod.fst)).filter (fun c => s.cellCode c == 0)).map (s.keyed a r) := by
          rw [List.filter_map, List.map_map]
          rfl
      _ = (s.eligible a).map (s.keyed a r) := by rw [List.zipIdx_map_fst, State.eligible]
  exact congrArg (fun l => (sortPairs l).map Prod.snd) hkeys

theorem State.select_cands_perm : (s.select a r).cands.Perm (s.eligible a) := by
  rw [s.select_cands]
  refine ((sortPairs_perm _).map _).trans (.of_eq ?_)
  rw [List.map_map]
  exact List.map_id _

theorem State.mem_select_cands {c : Nat} : c ∈ (s.select a r).cands ↔ c ∈ s.armCells a ∧ s.f (F.WIN_CELL_STAT_code c) = 0 := by
  rw [(s.select_cands_perm a r).mem_iff, State.eligible, List.mem_filter, beq_iff_eq, State.cellCode]

theorem State.select_cands_nodup : (s.select a r).cands.Nodup :=
  (s.select_cands_perm a r).nodup_iff.mpr ((s.armCells_nodup a).filter _)

/-- The candidates stand in the order of their composite keys. -/
theorem State.select_cands_rising : (s.select a r).cands.Pairwise (fun c d => (s.keyed a r c).1 ≤ (s.keyed a r d).1) := by
  rw [s.select_cands, List.pairwise_map]
  refine (sortPairs_rising _).imp_of_mem fun {p q} hp hq hle => ?_
  obtain ⟨c, -, rfl⟩ := List.mem_map.mp ((sortPairs_perm _).subset hp)
  obtain ⟨d, -, rfl⟩ := List.mem_map.mp ((sortPairs_perm _).subset hq)
  exact hle

/-! ### Base set, swing list and counts (R159 to R161) -/

/-- The pinned cells inserted with a polarity. -/
theorem State.pinned_filter (pol : Bool) : ((s.armCells a).filter (fun c => s.cellCode c == 8)).filter (fun c => insertedWith pol (s.present c))
    = (s.armCells a).filter (fun c => s.f (F.WIN_CELL_STAT_code c) == 8 && insertedWith pol (s.present c)) := by
  rw [List.filter_filter]
  exact List.filter_congr fun c _ => Bool.and_comm _ _

theorem State.select_q : (s.select a r).q
    = (((s.armCells a).filter (fun c => s.f (F.WIN_CELL_STAT_code c) == 8 && insertedWith r.pol (s.present c))).length : Int)
      - (((s.armCells a).filter (fun c => s.f (F.WIN_CELL_STAT_code c) == 8 && insertedWith (!r.pol) (s.present c))).length : Int) := by
  rw [← s.pinned_filter, ← s.pinned_filter]
  dsimp only [State.select]

theorem State.select_counts : (s.select a r).counts = (r.level0 :: r.changes.map Prod.snd).map
    (fun (lv : Nat) => (iclamp ((lv : Int) - (s.select a r).q) 0 (s.select a r).cands.length).toNat) := by
  dsimp only [State.select]

theorem State.select_counts_le {k : Nat} (h : k ∈ (s.select a r).counts) : k ≤ (s.select a r).cands.length := by
  rw [s.select_counts] at h
  obtain ⟨lv, -, rfl⟩ := List.mem_map.mp h
  rw [iclamp_eq_max_min (by omega)]
  omega

theorem State.select_count_of_level {j lv : Nat} (h : (r.level0 :: r.changes.map Prod.snd)[j]? = some lv) :
    (s.select a r).counts[j]?
      = some (max 0 (min ((lv : Int) - (s.select a r).q) ((s.select a r).cands.length : Int))).toNat := by
  rw [s.select_counts, List.getElem?_map, h, Option.map_some, iclamp_eq_max_min (by omega)]

theorem State.select_counts_length : (s.select a r).counts.length = r.changes.length + 1 := by
  rw [s.select_counts, List.length_map, List.length_cons, List.length_map]

theorem State.select_counts_ne_nil : (s.select a r).counts ≠ [] :=
  List.ne_nil_of_length_eq_add_one (s.select_counts_length a r)

theorem State.select_mLo : (s.select a r).mLo = (s.select a r).counts.foldl min (s.select a r).cands.length := by
  dsimp only [State.select]

theorem State.select_mHi : (s.select a r).mHi = (s.select a r).counts.foldl max 0 := by
  dsimp only [State.select]

theorem State.select_mLo_least : (s.select a r).mLo ∈ (s.select a r).counts ∧ ∀ k ∈ (s.select a r).counts, (s.select a r).mLo ≤ k := by
  rw [s.select_mLo]
  exact foldl_min_least (s.select_counts_ne_nil a r) fun _ => s.select_counts_le a r

theorem State.select_mHi_greatest : (s.select a r).mHi ∈ (s.select a r).counts ∧ ∀ k ∈ (s.select a r).counts, k ≤ (s.select a r).mHi := by
  rw [s.select_mHi]
  exact foldl_max_greatest (s.select_counts_ne_nil a r)

theorem State.select_swing : (s.select a r).swing = ((s.select a r).cands.drop (s.select a r).mLo).take
    (min ((s.select a r).mHi - (s.select a r).mLo + s.f (F.WIN_ARM_CFG_reserve a))
      ((s.select a r).cands.length - (s.select a r).mLo)) := by
  dsimp only [State.select]

theorem State.select_base : (s.select a r).base = (s.select a r).cands.take (s.select a r).mLo := by
  dsimp only [State.select]

theorem State.select_req : (s.select a r).req = r := by
  dsimp only [State.select]

/-- The base set and the swing list begin the list of the candidates. -/
theorem State.select_base_swing : (s.select a r).base ++ (s.select a r).swing <+: (s.select a r).cands := by
  rw [s.select_swing, s.select_base, ← List.take_add]
  exact List.take_prefix _ _

/-- The trim cell is the candidate next in rank after the swing list. -/
theorem State.select_trim : (s.select a r).trim
    = if r.trimEn then (s.select a r).cands[(s.select a r).mLo + (s.select a r).swing.length]? else none := by
  rw [s.select_swing, List.length_take, List.length_drop, min_assoc, min_self]
  dsimp only [State.select]

end

end Sys2Proof.Machine
end

section
/-! SUPPORT. The hand-over of a selection: what it reports and stores, and the next arm and the ranking that the unit starts with it (R162 to
R164, R166). -/

namespace Sys2Proof.Machine

/-! ### Stores into the granary -/

/-- Nothing but the granary, its spoilt words and its waiting write-backs differs. -/
def State.GrnOnly (s t : State) : Prop := t = { s with grn := t.grn, grnBad := t.grnBad, eccWb := t.eccWb }

section
variable {s t u : State}

theorem State.GrnOnly.trans (h : s.GrnOnly t) (h' : t.GrnOnly u) : s.GrnOnly u := by
  unfold State.GrnOnly at *
  rw [h] at h'
  exact h'

theorem State.grnWrite_grnOnly (s : State) (a : Nat) (bs : List Byte) : s.GrnOnly (s.grnWrite a bs) := by
  unfold State.grnWrite
  split <;> rfl

theorem State.grnWriteA_grnOnly (s : State) (a : Nat) (bs : List Byte) : s.GrnOnly (s.grnWriteA a bs) :=
  List.foldlRecOn (motive := s.GrnOnly) _ _ (s.grnWrite_grnOnly a bs) fun t ht _ _ => ht.trans (t.grnWrite_grnOnly ..)

theorem State.GrnOnly.plan (h : s.GrnOnly t) : t.plan = s.plan := by rw [h]

theorem State.GrnOnly.events (h : s.GrnOnly t) : t.events = s.events := by rw [h]

/-! ### The work that a unit starts -/

/-- Units and arms change alone, and of an arm neither its selection nor whether it was handed over. -/
def State.UnitWork (s t : State) : Prop :=
  t = { s with units := t.units, arms := t.arms }
    ∧ ∀ b, (t.arm b).selection = (s.arm b).selection ∧ (t.arm b).handed = (s.arm b).handed

theorem State.UnitWork.refl (s : State) : s.UnitWork s := ⟨rfl, fun _ => ⟨rfl, rfl⟩⟩

theorem State.UnitWork.trans (h : s.UnitWork t) (h' : t.UnitWork u) : s.UnitWork u := by
  obtain ⟨heq, harm⟩ := h
  obtain ⟨heq', harm'⟩ := h'
  refine ⟨?_, fun b => ⟨(harm' b).1.trans (harm b).1, (harm' b).2.trans (harm b).2⟩⟩
  rw [heq] at heq'
  exact heq'

theorem State.UnitWork.keeps (h : s.UnitWork t) : t.plan = s.plan ∧ t.grn = s.grn ∧ t.events = s.events := by
  rw [h.1]
  exact ⟨rfl, rfl, rfl⟩

theorem State.UnitWork.modUnit (h : s.UnitWork t) {k : Nat} {g : WinUnit → WinUnit} : s.UnitWork (t.modUnit k g) :=
  h.trans ⟨rfl, fun _ => ⟨rfl, rfl⟩⟩

theorem State.UnitWork.modArm (h : s.UnitWork t) {a : Nat} {g : Arm → Arm}
    (hg : ∀ x, (g x).selection = x.selection ∧ (g x).handed = x.handed) : s.UnitWork (t.modArm a g) := by
  refine h.trans ⟨rfl, fun b => ?_⟩
  by_cases hb : b = a
  · rw [hb, State.arm_modArm]
    exact hg _
  · rw [State.arm_modArm_ne _ _ hb]
    exact ⟨rfl, rfl⟩

theorem State.UnitWork.startUnit (h : s.UnitWork t) {k : Nat} : s.UnitWork (t.startUnit k) := by
  unfold State.startUnit
  split
  · exact h.modUnit.modArm fun _ => ⟨rfl, rfl⟩
  · exact h

theorem State.UnitWork.tryRanking (h : s.UnitWork t) {k : Nat} : s.UnitWork (t.tryRanking k) := by
  have hTally : s.UnitWork (t.forEach (t.unitArms k) (fun s a => s.modArm a (fun x => { x with tallyI := x.req.map ArmReq.iPrev }))) :=
    List.foldlRecOn (motive := s.UnitWork) _ _ h fun _ hv _ _ => hv.modArm fun _ => ⟨rfl, rfl⟩
  unfold State.tryRanking
  dsimp only
  split
  · split
    · exact h.modUnit
    · exact hTally.modUnit
  · exact h

end

/-! ### The steps of a hand-over -/

section
variable (s : State) (k a : Nat) (r : ArmReq) (x : Selection)

/-- A level that had to be clamped and a trim cell that is missing are shown in the flags of the arm. -/
def State.selectionShown : State :=
  let t := if x.clampSeen then s.raiseOnce (F.WIN_ARM_FLAGS_level_clamp a) .levelClamp a 0 0 else s
  if r.trimEn && x.trim.isNone then t.mark (F.WIN_ARM_FLAGS_trim_drop a) else t

/-- The selection record is stored where one is asked for (R163). -/
def State.selectionStored : State :=
  if s.fb F.WIN_SEL_BASE_sel_en then
    s.grnWriteA (s.f F.WIN_SEL_BASE_base * 4096 + a * 0x100 + r.period % 2 * 0x80) (s.selectionRecord a x)
  else s

/-- The unit is free again, and the arm waits for its planner with its selection (R162). -/
def State.selectionQueued : State :=
  let t := s.free.2.modUnit k (fun y => { y with
    busy := none, cycles := y.cycles + s.free.1 % (selectCycles (s.nInstalled a) + 1) })
  let t := t.modArm a (fun y => { y with handed := true, selection := some x })
  { t with plan := { t.plan with queue := t.plan.queue ++ [a] } }

/-- Nothing but registers, events and the bits set in this cycle differs, and of the registers the flags of arm a alone. -/
def State.FlagWork (t : State) : Prop := s.RegsOnly t ∧ ∀ off, off ≠ R.WIN_ARM_FLAGS a → t.rd off = s.rd off

theorem State.raiseOnce_flagWork {bit : Fld} (hbit : bit.off = R.WIN_ARM_FLAGS a) (c : EvCode) (i j v : Nat) :
    s.FlagWork a (s.raiseOnce bit c i j v) := by
  refine ⟨?_, fun off hoff => (s.raiseOnce_keeps bit c i j v).1 off (hbit ▸ hoff)⟩
  unfold State.raiseOnce
  split
  · rfl
  · rfl

theorem State.FlagWork.mark {s : State} {a : Nat} {t : State} (h : s.FlagWork a t) {bit : Fld} (hbit : bit.off = R.WIN_ARM_FLAGS a) :
    s.FlagWork a (t.mark bit) :=
  ⟨h.1.trans rfl, fun off hoff => (t.rd_mark_ne bit (hbit ▸ hoff)).trans (h.2 off hoff)⟩

theorem State.selectionShown_flagWork : s.FlagWork a (s.selectionShown a r x) := by
  have hclamp : s.FlagWork a (if x.clampSeen then s.raiseOnce (F.WIN_ARM_FLAGS_level_clamp a) .levelClamp a 0 0 else s) := by
    split
    · exact s.raiseOnce_flagWork a rfl ..
    · exact ⟨rfl, fun _ _ => rfl⟩
  unfold State.selectionShown
  dsimp only
  split
  · exact hclamp.mark rfl
  · exact hclamp

/-- Without a clamped level nothing is reported. -/
theorem State.selectionShown_events (h : x.clampSeen = false) : (s.selectionShown a r x).events = s.events := by
  rw [State.selectionShown, h]
  split
  · rfl
  · rfl

theorem State.selectionShown_keeps : (s.selectionShown a r x).plan = s.plan ∧ (s.selectionShown a r x).grn = s.grn
    ∧ (s.selectionShown a r x).fb F.WIN_SEL_BASE_sel_en = s.fb F.WIN_SEL_BASE_sel_en := by
  obtain ⟨hregs, hrd⟩ := s.selectionShown_flagWork a r x
  have hoff : R.WIN_SEL_BASE ≠ R.WIN_ARM_FLAGS a := by simp only [R.WIN_SEL_BASE, R.WIN_ARM_FLAGS]; omega
  refine ⟨?_, ?_, State.fb_of_rd (hrd _ hoff)⟩
  · rw [hregs]
  · rw [hregs]

theorem State.selectionStored_keeps : (s.selectionStored a r x).plan = s.plan ∧ (s.selectionStored a r x).events = s.events
    ∧ (s.fb F.WIN_SEL_BASE_sel_en = false → (s.selectionStored a r x).grn = s.grn) := by
  unfold State.selectionStored
  split
  · next hen =>
    have hgrn := s.grnWriteA_grnOnly (s.f F.WIN_SEL_BASE_base * 4096 + a * 0x100 + r.period % 2 * 0x80) (s.selectionRecord a x)
    exact ⟨hgrn.plan, hgrn.events, fun hdis => absurd (hen.symm.trans hdis) (by decide)⟩
  · exact ⟨rfl, rfl, fun _ => rfl⟩

theorem State.selectionQueued_keeps : (s.selectionQueued k a x).plan.queue = s.plan.queue ++ [a]
    ∧ (s.selectionQueued k a x).grn = s.grn ∧ (s.selectionQueued k a x).events = s.events := by
  simp [State.selectionQueued]

theorem State.selectionQueued_arm : ((s.selectionQueued k a x).arm a).selection = some x ∧ ((s.selectionQueued k a x).arm a).handed = true := by
  have harm := State.arm_modArm (s.free.2.modUnit k (fun y => { y with
    busy := none, cycles := y.cycles + s.free.1 % (selectCycles (s.nInstalled a) + 1) })) a (fun y => { y with handed := true, selection := some x })
  exact ⟨congrArg Arm.selection harm, congrArg Arm.handed harm⟩

end

/-! ### The hand-over -/

section
variable {s : State} {u : Fin 6} {a : Nat} {r : ArmReq}

theorem exec_selectionHandover_work (hbusy : (s.unit u).busy = some a) (hwork : (s.arm a).work = some r) :
    exec (.selectionHandover u) s = .next (((((s.selectionShown a r (s.select a r)).selectionStored a r (s.select a r)).selectionQueued u a
      (s.select a r)).startUnit u).tryRanking u) := by
  show execSelectionHandover u s = _
  simp only [execSelectionHandover, hbusy, hwork]
  rfl

/-- The hand-over of the arm in work, and what it leaves alone. -/
theorem selectionHandover_handed (hbusy : (s.unit u).busy = some a) (hwork : (s.arm a).work = some r) :
    ∃ t, exec (.selectionHandover u) s = .next t ∧ (t.arm a).selection = some (s.select a r) ∧ (t.arm a).handed = true
      ∧ t.plan.queue = s.plan.queue ++ [a] ∧ (s.fb F.WIN_SEL_BASE_sel_en = false → t.grn = s.grn)
      ∧ ((s.select a r).clampSeen = false → s.events = t.events) := by
  refine ⟨_, exec_selectionHandover_work hbusy hwork, ?_⟩
  generalize s.select a r = x
  obtain ⟨hplan, hgrn, hen⟩ := s.selectionShown_keeps a r x
  have hevents := s.selectionShown_events a r x
  generalize s.selectionShown a r x = s1 at *
  obtain ⟨hplan₁, hevents₁, hgrn₁⟩ := s1.selectionStored_keeps a r x
  generalize s1.selectionStored a r x = s2 at *
  obtain ⟨hsel, hhand⟩ := s2.selectionQueued_arm u a x
  obtain ⟨hqueue, hgrn₂, hevents₂⟩ := s2.selectionQueued_keeps u a x
  generalize s2.selectionQueued u a x = s3 at *
  have hwork : s3.UnitWork ((s3.startUnit u).tryRanking u) := (State.UnitWork.refl s3).startUnit.tryRanking
  obtain ⟨hplan₃, hgrn₃, hevents₃⟩ := hwork.keeps
  obtain ⟨hsel₃, hhand₃⟩ := hwork.2 a
  refine ⟨hsel₃.trans hsel, hhand₃.trans hhand, ?_, fun hdis => ?_, fun hno => ?_⟩
  · rw [hplan₃, hqueue, hplan₁, hplan]
  · rw [hgrn₃, hgrn₂, hgrn₁ (hen.trans hdis), hgrn]
  · rw [hevents₃, hevents₂, hevents₁, hevents hno]

end

end Sys2Proof.Machine
end

section
/-! SUPPORT. The rank tables: a table read back half-word by half-word, and what the completion of a ranking leaves alone (R164). -/

namespace Sys2Proof.Machine

/-! ### Half-words in the granary -/

/-- The bytes of the half-words g 0 to g (n - 1). -/
def halfWords (g : Nat → Nat) (n : Nat) : List Byte := (upto n).flatMap (fun i => leBytes 2 (g i))

theorem halfWords_succ (g : Nat → Nat) (n : Nat) :
    halfWords g (n + 1) = halfWords g n ++ [BitVec.ofNat 8 (g n), BitVec.ofNat 8 (g n / 256)] := by
  simp [halfWords, upto, List.range_succ, leBytes]

theorem halfWords_length (g : Nat → Nat) (n : Nat) : (halfWords g n).length = 2 * n := by
  induction n with
  | zero => rfl
  | succ n ih => rw [halfWords_succ, List.length_append, ih]; rfl

theorem halfWords_getElem? (g : Nat → Nat) {n i : Nat} (h : i < n) :
    (halfWords g n)[2 * i]? = some (BitVec.ofNat 8 (g i)) ∧ (halfWords g n)[2 * i + 1]? = some (BitVec.ofNat 8 (g i / 256)) := by
  induction n with
  | zero => omega
  | succ n ih =>
    rw [halfWords_succ]
    rcases Nat.lt_succ_iff_lt_or_eq.mp h with hlt | rfl
    · obtain ⟨hlow, hhigh⟩ := ih hlt
      have hlen := halfWords_length g n
      exact ⟨(List.getElem?_append_left (by omega)).trans hlow, (List.getElem?_append_left (by omega)).trans hhigh⟩
    · have hlen := halfWords_length g i
      constructor
      · rw [List.getElem?_append_right (by omega), hlen, Nat.sub_self]; rfl
      · rw [List.getElem?_append_right (by omega), hlen, Nat.add_sub_cancel_left]; rfl

section
variable {s t u : State}

theorem State.grnNat_two (s : State) (a : Nat) : s.grnNat a 2 = (s.grnByte a).toNat + 256 * (s.grnByte (a + 1)).toNat := rfl

theorem State.grnNat_two_of_grn (h : t.grn = s.grn) (a : Nat) : t.grnNat a 2 = s.grnNat a 2 := by
  simp only [State.grnNat_two, State.grnByte, h]

theorem State.grnNat_two_setF (s : State) (x : Fld) (v a : Nat) : (s.setF x v).grnNat a 2 = s.grnNat a 2 :=
  State.grnNat_two_of_grn (by simp) a

theorem State.grnByte_grnWrite_of_getElem? {a i : Nat} {bs : List Byte} {b : Byte} (hget : bs[i]? = some b) (hfit : a + bs.length ≤ grnSize) :
    (s.grnWrite a bs).grnByte (a + i) = b := by
  obtain ⟨hlt, rfl⟩ := List.getElem?_eq_some_iff.mp hget
  exact s.grnByte_grnWrite_in a bs i hlt hfit

/-- A half-word of a stored table is read back, modulo its width. -/
theorem State.grnNat_grnWrite_halfWords {a n i : Nat} {g : Nat → Nat} (hfit : a + 2 * n ≤ grnSize) (hi : i < n) :
    (s.grnWrite a (halfWords g n)).grnNat (a + 2 * i) 2 = g i % 2 ^ 16 := by
  obtain ⟨hlow, hhigh⟩ := halfWords_getElem? g hi
  have hlen : a + (halfWords g n).length ≤ grnSize := by rwa [halfWords_length]
  rw [State.grnNat_two, State.grnByte_grnWrite_of_getElem? hlow hlen, Nat.add_assoc, State.grnByte_grnWrite_of_getElem? hhigh hlen,
    BitVec.toNat_ofNat, BitVec.toNat_ofNat]
  omega

theorem State.grnWriteA_of_portB_idle (h : s.portBNow = []) (a : Nat) (bs : List Byte) : s.grnWriteA a bs = s.grnWrite a bs := by
  have hidle : (s.grnWrite a bs).portBNow = [] := by simpa [State.portBNow] using h
  simp [State.grnWriteA, hidle]

/-! ### One rank table -/

theorem State.writeRank_eq (s : State) (a : Nat) (x : Selection) : s.writeRank a x
    = (s.grnWriteA (s.f F.WIN_RANK_BASE_base * 16384 + a * 0x400)
        (halfWords (fun i => (x.cands.map (s.armPos a)).getD i 0xFFFF) 512)).setF (F.WIN_ARM_STAT_rank_seq a) x.req.period := rfl

theorem State.writeRank_table {a i : Nat} {x : Selection} (hidle : s.portBNow = [])
    (hfit : s.f F.WIN_RANK_BASE_base * 16384 + a * 0x400 + 1024 ≤ grnSize) (hi : i < 512) :
    (s.writeRank a x).grnNat (s.f F.WIN_RANK_BASE_base * 16384 + a * 0x400 + 2 * i) 2
      = (x.cands.map (s.armPos a)).getD i 0xFFFF % 2 ^ 16 := by
  rw [s.writeRank_eq, State.grnNat_two_setF, State.grnWriteA_of_portB_idle hidle]
  exact State.grnNat_grnWrite_halfWords (by omega) hi

theorem State.writeRank_rank_seq (s : State) (a : Nat) (x : Selection) :
    (s.writeRank a x).f (F.WIN_ARM_STAT_rank_seq a) = x.req.period % 2 ^ 16 := by
  rw [s.writeRank_eq]
  exact State.f_setF_same _ _ _ ⟨(by decide : 16 ≤ 31), (by decide : 31 < 32)⟩

/-! ### What a ranking leaves alone -/

/-- The mode, the events, the cells and the units stay, and of the registers only WIN_ARM_STAT of these arms differs. -/
def State.RankWork (s t : State) (arms : List Nat) : Prop :=
  t.mode = s.mode ∧ t.events = s.events ∧ t.cells = s.cells ∧ t.units = s.units
    ∧ ∀ b, b ∉ arms → t.rd (R.WIN_ARM_STAT b) = s.rd (R.WIN_ARM_STAT b)

theorem State.RankWork.trans {arms : List Nat} (h : s.RankWork t arms) (h' : t.RankWork u arms) : s.RankWork u arms := by
  obtain ⟨hmode, hevents, hcells, hunits, hrd⟩ := h
  obtain ⟨hmode', hevents', hcells', hunits', hrd'⟩ := h'
  exact ⟨hmode'.trans hmode, hevents'.trans hevents, hcells'.trans hcells, hunits'.trans hunits,
    fun b hb => (hrd' b hb).trans (hrd b hb)⟩

theorem State.GrnOnly.rankWork (h : s.GrnOnly t) (arms : List Nat) : s.RankWork t arms := by
  rw [h]
  exact ⟨rfl, rfl, rfl, rfl, fun _ _ => rfl⟩

theorem State.writeRank_rankWork (s : State) {a : Nat} (x : Selection) {arms : List Nat} (ha : a ∈ arms) : s.RankWork (s.writeRank a x) arms := by
  rw [s.writeRank_eq]
  refine ((s.grnWriteA_grnOnly _ _).rankWork arms).trans ⟨by simp, by simp, by simp, by simp, fun b hb => State.rd_setF_ne _ _ _ ?_⟩
  have hne : b ≠ a := fun hba => hb (hba ▸ ha)
  simp only [F.WIN_ARM_STAT_rank_seq, R.WIN_ARM_STAT]
  omega

/-- The rank tables of several arms. -/
def State.writeRanks (s : State) (l : List (Nat × Selection)) : State := l.foldl (fun s p => s.writeRank p.1 p.2) s

theorem State.writeRanks_rankWork (s : State) (l : List (Nat × Selection)) : s.RankWork (s.writeRanks l) (l.map Prod.fst) :=
  List.foldlRecOn (motive := fun t => s.RankWork t (l.map Prod.fst)) l _ ⟨rfl, rfl, rfl, rfl, fun _ _ => rfl⟩
    fun t ht p hp => ht.trans (t.writeRank_rankWork p.2 (List.mem_map_of_mem hp))

end

/-! ### The completion of a ranking -/

section
variable {s : State} {u : Fin 6} {a : Fin 12} {x : Selection}

theorem exec_rankComplete_ranking (h : (s.unit u).ranking = true) :
    exec (.rankComplete u) s
      = .next ((s.writeRanks (s.ranked u)).modUnit u (fun y => { y with ranking := false, rankArms := [] })) := by
  show execRankComplete u s = _
  simp only [execRankComplete, h]
  rfl

theorem exec_rankComplete_past (h : (s.unit u).ranking = false) (hat : (s.unit u).pastAt = s.cyc) :
    exec (.rankComplete u) s = .next ((s.writeRanks (s.unit u).past).modUnit u (fun y => { y with past := [] })) := by
  show execRankComplete u s = _
  simp only [execRankComplete, h, hat]
  rfl

/-- A ranking that runs ends, whatever its arms. -/
theorem rankComplete_ends (h : (s.unit u).ranking = true) :
    ∃ t, exec (.rankComplete u) s = .next t ∧ (t.unit u).ranking = false ∧ (t.unit u).rankArms = [] ∧ t.mode = s.mode
      ∧ t.events = s.events ∧ t.cells = s.cells
      ∧ ∀ b < 12, b ∉ (s.ranked u).map Prod.fst → t.rd (R.WIN_ARM_STAT b) = s.rd (R.WIN_ARM_STAT b) := by
  refine ⟨_, exec_rankComplete_ranking h, ?_⟩
  obtain ⟨hmode, hevents, hcells, -, hrd⟩ := s.writeRanks_rankWork (s.ranked u)
  generalize s.writeRanks (s.ranked u) = t at *
  rw [State.unit_modUnit]
  exact ⟨rfl, rfl, hmode, hevents, hcells, fun b _ hb => hrd b hb⟩

/-- The ranking of one arm, in its period or in the cycle of the next GATHER_DONE, writes its table. -/
theorem exec_rankComplete_one (h : (s.unit u).ranking = true ∧ (s.unit u).rankArms = [a.val] ∧ (s.arm a).selection = some x
      ∨ (s.unit u).ranking = false ∧ (s.unit u).pastAt = s.cyc ∧ (s.unit u).past = [(a.val, x)]) :
    ∃ g : WinUnit → WinUnit, exec (.rankComplete u) s = .next ((s.writeRank a x).modUnit u g) ∧ (g (s.unit u)).ranking = false := by
  rcases h with ⟨hrun, harms, hsel⟩ | ⟨hrun, hat, hpast⟩
  · have hranked : s.ranked u = [(a.val, x)] := by simp [State.ranked, harms, hsel]
    exact ⟨_, hranked ▸ exec_rankComplete_ranking hrun, rfl⟩
  · exact ⟨_, hpast ▸ exec_rankComplete_past hrun hat, hrun⟩

theorem rankComplete_table (h : (s.unit u).ranking = true ∧ (s.unit u).rankArms = [a.val] ∧ (s.arm a).selection = some x
      ∨ (s.unit u).ranking = false ∧ (s.unit u).pastAt = s.cyc ∧ (s.unit u).past = [(a.val, x)])
    (hlen : x.cands.length ≤ 512) (hidle : s.portBNow = []) (hfit : s.f F.WIN_RANK_BASE_base * 16384 + a * 0x400 + 1024 ≤ grnSize) :
    ∃ t, exec (.rankComplete u) s = .next t ∧ t.f (F.WIN_ARM_STAT_rank_seq a) = x.req.period % 2 ^ 16
      ∧ (∀ i c, x.cands[i]? = some c → s.armPos a c < 2 ^ 16 →
          t.grnNat (s.f F.WIN_RANK_BASE_base * 16384 + a * 0x400 + 2 * i) 2 = s.armPos a c)
      ∧ (∀ i, x.cands.length ≤ i → i < 512 → t.grnNat (s.f F.WIN_RANK_BASE_base * 16384 + a * 0x400 + 2 * i) 2 = 0xFFFF)
      ∧ (t.unit u).ranking = false ∧ t.events = s.events := by
  obtain ⟨g, hexec, hrank⟩ := exec_rankComplete_one h
  obtain ⟨-, hevents, -, hunits, -⟩ := s.writeRank_rankWork x (List.mem_singleton_self a.val)
  have hseq := s.writeRank_rank_seq a x
  have htable : ∀ i < 512, _ := fun i hi => State.writeRank_table (x := x) hidle hfit hi
  have hunit : ((s.writeRank a x).unit u) = s.unit u := by rw [State.unit, hunits, State.unit]
  generalize s.writeRank a x = t at *
  have hgrn : (t.modUnit u g).grn = t.grn := by simp
  refine ⟨_, hexec, (State.f_of_regs (by simp) _).trans hseq, fun i c hc hpos => ?_, fun i hi hlt => ?_, ?_, by simpa using hevents⟩
  · have hi : i < x.cands.length := (List.getElem?_eq_some_iff.mp hc).1
    rw [State.grnNat_two_of_grn hgrn, htable i (by omega), List.getD_eq_getElem?_getD, List.getElem?_map, hc]
    exact Nat.mod_eq_of_lt hpos
  · rw [State.grnNat_two_of_grn hgrn, htable i hlt, List.getD_eq_default _ _ (by rwa [List.length_map])]
    rfl
  · rw [State.unit_modUnit, hunit]
    exact hrank

end

end Sys2Proof.Machine
end

section
/-! SUPPORT. The capacitance tally: the periods that qualify, the correction of cgain, and the cells and registers that it leaves alone
(R170 to R174). -/

namespace Sys2Proof.Machine

/-! ### A period that qualifies (R171) -/

theorem status_calm_iff (x : Cell) : (stRefused x || stHolding x || stDual x) = false ↔ x.status &&& 0x38 = 0 := by
  have hlow : ∀ i < 6, (0x38 : Nat).testBit i = true → i = 3 ∨ i = 4 ∨ i = 5 := by decide
  have hmask : ∀ i, (0x38 : Nat).testBit i = true → i = 3 ∨ i = 4 ∨ i = 5 := fun i hi =>
    hlow i (by
      have hge := Nat.ge_two_pow_of_testBit hi
      exact (Nat.pow_lt_pow_iff_right (by decide : 1 < 2)).mp (hge.trans_lt (by decide))) hi
  simp only [stRefused, stHolding, stDual, bitOf_eq_testBit, Bool.or_eq_false_iff]
  constructor
  · rintro ⟨⟨hrefused, hholding⟩, hdual⟩
    refine Nat.eq_of_testBit_eq fun i => ?_
    rw [Nat.testBit_and, Nat.zero_testBit, Bool.and_eq_false_iff, or_iff_not_imp_right, Bool.not_eq_false]
    intro hi
    rcases hmask i hi with rfl | rfl | rfl
    · exact hrefused
    · exact hholding
    · exact hdual
  · intro h
    have hbit : ∀ i, (0x38 : Nat).testBit i = true → x.status.testBit i = false := fun i hi => by
      have := congrArg (Nat.testBit · i) h
      simpa [Nat.testBit_and, hi] using this
    exact ⟨⟨hbit 3 rfl, hbit 4 rfl⟩, hbit 5 rfl⟩

section
variable {s : State} {c : Nat} {i : Int}

/-- The predicted change of a cell's voltage for a current (R171). -/
def State.tallyPred (s : State) (c : Nat) (i : Int) : Int := roundHalfAway (i * (s.cell c).tauP * s.f (F.WIN_CELL_TALLY_cgain c)) 32

/-- The period qualifies for the tally of a cell whose predicted change is d. -/
def State.tallyQualifies (s : State) (c : Nat) (d : Int) : Prop :=
  (s.cell c).fresh = true ∧ (s.cell c).freshPrev = true ∧ s.f (F.WIN_CELL_STAT_code c) = 0 ∧ (s.cell c).codePrev = 0
    ∧ (s.cell c).status &&& 0x38 = 0 ∧ (s.cell c).calmPrev = true ∧ s.f F.WIN_TALLY_CFG_tally_min ≤ d.natAbs

/-- The accumulators of a cell after a period that qualifies. -/
def Cell.tallied (x : Cell) (d : Int) : Cell :=
  let dMeas := ((x.vcap : Int) - x.vcapPrev) * 16
  { x with
    accA := iclamp (x.accA + (if d < 0 then -dMeas else dMeas)) (-2147483648) 2147483647
    accB := min (x.accB + d.natAbs) 0xFFFFFFFF
    m := x.m + 1 }

theorem State.tallyCell_of_not (h : ¬ s.tallyQualifies c (s.tallyPred c i)) : s.tallyCell c i = s := by
  unfold State.tallyCell
  dsimp only
  split
  · next hcond =>
    simp only [Bool.and_eq_true, beq_iff_eq, Bool.not_eq_true', status_calm_iff] at hcond
    obtain ⟨⟨⟨⟨⟨hfresh, hprev⟩, hcode⟩, hcodePrev⟩, hcalm⟩, hcalmPrev⟩ := hcond
    exact if_neg fun hmin => h ⟨hfresh, hprev, hcode, hcodePrev, hcalm, hcalmPrev, hmin⟩
  · rfl

theorem State.tallyCell_of_qualifies (h : s.tallyQualifies c (s.tallyPred c i)) :
    s.tallyCell c i = if s.f F.WIN_TALLY_CFG_tally_block ≤ (s.cell c).m + 1
      then (s.modCell c (Cell.tallied · (s.tallyPred c i))).correctTally c
      else s.modCell c (Cell.tallied · (s.tallyPred c i)) := by
  obtain ⟨hfresh, hprev, hcode, hcodePrev, hcalm, hcalmPrev, hmin⟩ := h
  have hcalm' := (status_calm_iff _).mpr hcalm
  unfold State.tallyCell
  dsimp only
  rw [if_pos (by simp [hfresh, hprev, hcodePrev, hcalm', hcalmPrev, State.cellCode, hcode])]
  refine (if_pos hmin).trans ?_
  rw [State.cell_modCell]
  rfl

end

/-! ### The frame of the tally -/

/-- Mode, granary, units and arms stay, of the registers only WIN_CELL_TALLY of the cells in p differs, and of the cells only those. -/
def State.TallyWork (s : State) (p : Nat → Prop) (t : State) : Prop :=
  t.mode = s.mode ∧ t.grn = s.grn ∧ t.units = s.units ∧ t.arms = s.arms
    ∧ (∀ off, (∀ c, p c → off ≠ R.WIN_CELL_TALLY c) → t.rd off = s.rd off) ∧ ∀ d, ¬ p d → t.cell d = s.cell d

section
variable {s t u : State} {p : Nat → Prop} {c : Nat}

theorem State.TallyWork.refl (s : State) : s.TallyWork p s := ⟨rfl, rfl, rfl, rfl, fun _ _ => rfl, fun _ _ => rfl⟩

theorem State.TallyWork.trans (h : s.TallyWork p t) (h' : t.TallyWork p u) : s.TallyWork p u := by
  obtain ⟨hmode, hgrn, hunits, harms, hrd, hcell⟩ := h
  obtain ⟨hmode', hgrn', hunits', harms', hrd', hcell'⟩ := h'
  exact ⟨hmode'.trans hmode, hgrn'.trans hgrn, hunits'.trans hunits, harms'.trans harms,
    fun off hoff => (hrd' off hoff).trans (hrd off hoff), fun d hd => (hcell' d hd).trans (hcell d hd)⟩

theorem State.TallyWork.modCell (h : s.TallyWork p t) (hc : p c) {g : Cell → Cell} : s.TallyWork p (t.modCell c g) :=
  h.trans ⟨rfl, rfl, rfl, rfl, fun _ _ => rfl, fun _ hd => t.cell_modCell_ne g fun hdc => hd (hdc ▸ hc)⟩

theorem State.TallyWork.raise (h : s.TallyWork p t) {e : EvCode} {i j v : Nat} : s.TallyWork p (t.raise e i j v) :=
  h.trans ⟨rfl, rfl, rfl, rfl, fun _ _ => rfl, fun _ _ => rfl⟩

theorem State.TallyWork.setCgain (h : s.TallyWork p t) (hc : p c) {v : Nat} : s.TallyWork p (t.setF (F.WIN_CELL_TALLY_cgain c) v) :=
  h.trans ⟨rfl, rfl, rfl, rfl, fun _ hoff => t.rd_setF_ne _ v (hoff c hc), fun _ _ => rfl⟩

theorem State.TallyWork.driftCheck (h : s.TallyWork p t) (hc : p c) : s.TallyWork p (t.driftCheck c) := by
  unfold State.driftCheck
  dsimp only
  split
  · split
    · exact h
    · exact (h.modCell hc).raise
  · split
    · exact h.modCell hc
    · exact h

theorem State.TallyWork.correctTally (h : s.TallyWork p t) (hc : p c) : s.TallyWork p (t.correctTally c) := by
  unfold State.correctTally
  dsimp only
  split
  · exact (((h.setCgain hc).modCell hc).modCell hc).raise.driftCheck hc
  · exact ((h.setCgain hc).modCell hc).driftCheck hc

theorem State.TallyWork.tallyCell (h : s.TallyWork p t) (hc : p c) {i : Int} : s.TallyWork p (t.tallyCell c i) := by
  by_cases hq : t.tallyQualifies c (t.tallyPred c i)
  · rw [State.tallyCell_of_qualifies hq]
    split
    · exact (h.modCell hc).correctTally hc
    · exact h.modCell hc
  · rwa [State.tallyCell_of_not hq]

theorem State.TallyWork.sameMap (h : s.TallyWork p t) : s.SameMap t := by
  obtain ⟨-, -, -, -, hrd, -⟩ := h
  refine fun k hk => hrd _ fun c _ => ?_
  simp only [R.GLB_LANE_MAP, R.WIN_CELL_TALLY]
  omega

/-- The tally of one arm. -/
def State.tallyArm (s : State) (a : Nat) : State :=
  match (s.arm a).tallyI with
  | some i => s.forEach (s.armCells a) (fun s c => s.tallyCell c i)
  | none => s

theorem State.TallyWork.tallyArm (h : s.TallyWork p t) {a : Nat} (ha : ∀ c ∈ s.armCells a, p c) : s.TallyWork p (t.tallyArm a) := by
  unfold State.tallyArm
  split
  · refine List.foldlRecOn (motive := s.TallyWork p) _ _ h fun _ hv c hc => hv.tallyCell (ha c ?_)
    rwa [h.sameMap.armCells] at hc
  · exact h

/-- The tally of the arms in a list changes no cell but theirs. -/
theorem State.tallyArms_tallyWork (s : State) (arms : List Nat) :
    s.TallyWork (fun c => ∃ b ∈ arms, c ∈ s.armCells b) (s.forEach arms State.tallyArm) :=
  List.foldlRecOn (motive := s.TallyWork _) arms _ (.refl s) fun _ ht a ha => ht.tallyArm fun _ hc => ⟨a, ha, hc⟩

end

/-! ### The correction of cgain (R172, R173) -/

theorem iclamp_bounds {x lo hi : Int} (h : lo ≤ hi) : lo ≤ iclamp x lo hi ∧ iclamp x lo hi ≤ hi := by
  rw [iclamp_eq_max_min h]
  omega

theorem corrected_bounds (g : Nat) {g0 : Nat} (accA : Int) (accB shift : Nat) (h : g0 < 2 ^ 24) :
    g0 / 2 ≤ (corrected g g0 accA accB shift).1 ∧ (corrected g g0 accA accB shift).1 ≤ min (g0 * 2) 0xFFFFFF := by
  have hle : ((g0 / 2 : Nat) : Int) ≤ ((min (g0 * 2) 0xFFFFFF : Nat) : Int) := by omega
  unfold corrected
  dsimp only
  generalize (g : Int) + _ = want
  have := iclamp_bounds (x := want) hle
  omega

section
variable {s t u : State} {c : Nat}

/-- The registers stay, and the accumulators and the block count of a cell. -/
def State.TallyKept (s t : State) (c : Nat) : Prop :=
  t.regs = s.regs ∧ (t.cell c).m = (s.cell c).m ∧ (t.cell c).accA = (s.cell c).accA ∧ (t.cell c).accB = (s.cell c).accB

theorem State.TallyKept.trans (h : s.TallyKept t c) (h' : t.TallyKept u c) : s.TallyKept u c := by
  obtain ⟨hregs, hm, hA, hB⟩ := h
  obtain ⟨hregs', hm', hA', hB'⟩ := h'
  exact ⟨hregs'.trans hregs, hm'.trans hm, hA'.trans hA, hB'.trans hB⟩

theorem State.modCell_tallyKept (s : State) {g : Cell → Cell} (hg : ∀ x, (g x).m = x.m ∧ (g x).accA = x.accA ∧ (g x).accB = x.accB) :
    s.TallyKept (s.modCell c g) c := by
  rw [State.TallyKept, State.cell_modCell]
  exact ⟨rfl, hg _⟩

theorem State.TallyKept.raise (h : s.TallyKept t c) {e : EvCode} {i j v : Nat} : s.TallyKept (t.raise e i j v) c := h.trans ⟨rfl, rfl, rfl, rfl⟩

theorem State.driftCheck_tallyKept (s : State) (c : Nat) : s.TallyKept (s.driftCheck c) c := by
  have hseen : ∀ b, s.TallyKept (s.modCell c (fun x => { x with driftSeen := b })) c :=
    fun _ => s.modCell_tallyKept fun _ => ⟨rfl, rfl, rfl⟩
  unfold State.driftCheck
  dsimp only
  split
  · split
    · exact ⟨rfl, rfl, rfl, rfl⟩
    · exact (hseen true).raise
  · split
    · exact hseen false
    · exact ⟨rfl, rfl, rfl, rfl⟩

/-- A cell whose block is complete: cgain takes its corrected value, and the accumulators and the block count are 0. -/
def State.cgainSet (s : State) (c : Nat) : State :=
  (s.setF (F.WIN_CELL_TALLY_cgain c) (corrected (s.f (F.WIN_CELL_TALLY_cgain c)) (s.cell c).cgain0 (s.cell c).accA (s.cell c).accB
    (s.f F.WIN_TALLY_CFG_tally_shift)).1).modCell c (fun x => { x with accA := 0, accB := 0, m := 0, tallyKept := false })

theorem State.f_modCell (s : State) (c : Nat) (g : Cell → Cell) (x : Fld) : (s.modCell c g).f x = s.f x := rfl

theorem State.cgainSet_cell (s : State) (c : Nat) :
    ((s.cgainSet c).cell c).m = 0 ∧ ((s.cgainSet c).cell c).accA = 0 ∧ ((s.cgainSet c).cell c).accB = 0 := by
  have hcell := State.cell_modCell (s.setF (F.WIN_CELL_TALLY_cgain c) (corrected (s.f (F.WIN_CELL_TALLY_cgain c)) (s.cell c).cgain0
    (s.cell c).accA (s.cell c).accB (s.f F.WIN_TALLY_CFG_tally_shift)).1) c (fun x => { x with accA := 0, accB := 0, m := 0, tallyKept := false })
  exact ⟨congrArg Cell.m hcell, congrArg Cell.accA hcell, congrArg Cell.accB hcell⟩

theorem State.cgainSet_cgain (s : State) (c : Nat) (h : (s.cell c).cgain0 < 2 ^ 24) :
    (s.cell c).cgain0 / 2 ≤ (s.cgainSet c).f (F.WIN_CELL_TALLY_cgain c)
      ∧ (s.cgainSet c).f (F.WIN_CELL_TALLY_cgain c) ≤ min ((s.cell c).cgain0 * 2) 0xFFFFFF := by
  have hbounds := corrected_bounds (s.f (F.WIN_CELL_TALLY_cgain c)) (s.cell c).accA (s.cell c).accB (s.f F.WIN_TALLY_CFG_tally_shift) h
  have hfits := hbounds.2.trans_lt (by omega : _ < 2 ^ 24)
  have hvalue := State.f_setF_value (x := F.WIN_CELL_TALLY_cgain c) s ⟨(by decide : 0 ≤ 23), (by decide : 23 < 32)⟩ hfits
  rwa [State.cgainSet, State.f_modCell, hvalue]

theorem State.correctTally_tallyKept (s : State) (c : Nat) : (s.cgainSet c).TallyKept (s.correctTally c) c := by
  have hlimit : (s.cgainSet c).TallyKept ((s.cgainSet c).modCell c (fun x => { x with limitSeen := true })) c :=
    State.modCell_tallyKept _ fun _ => ⟨rfl, rfl, rfl⟩
  unfold State.correctTally
  dsimp only
  rw [← State.cgainSet]
  split
  · exact hlimit.raise.trans (State.driftCheck_tallyKept _ c)
  · exact State.driftCheck_tallyKept _ c

theorem State.correctTally_spec (s : State) (c : Nat) (h : (s.cell c).cgain0 < 2 ^ 24) :
    let t := s.correctTally c
    (t.cell c).m = 0 ∧ (t.cell c).accA = 0 ∧ (t.cell c).accB = 0 ∧ (s.cell c).cgain0 / 2 ≤ t.f (F.WIN_CELL_TALLY_cgain c)
      ∧ t.f (F.WIN_CELL_TALLY_cgain c) ≤ min ((s.cell c).cgain0 * 2) 0xFFFFFF := by
  obtain ⟨hregs, hm, hA, hB⟩ := s.correctTally_tallyKept c
  obtain ⟨hm', hA', hB'⟩ := s.cgainSet_cell c
  obtain ⟨hlow, hhigh⟩ := s.cgainSet_cgain c h
  rw [← State.f_of_regs hregs] at hlow hhigh
  exact ⟨hm.trans hm', hA.trans hA', hB.trans hB', hlow, hhigh⟩

end

end Sys2Proof.Machine
end

section
/-! SUPPORT. The tally update of a unit: of any arms, of none, and of one arm of one cell (R171, R172, R174). -/

namespace Sys2Proof.Machine

/-! ### One cell -/

section
variable {s : State} {c : Nat} {i : Int}

theorem tallySign_mul (d x : Int) : (if d < 0 then -(x * 16) else x * 16) = (if d < 0 then -1 else 1) * x * 16 := by
  split <;> ring

/-- A period that qualifies and does not complete its block goes into the accumulators. -/
theorem State.tallyCell_counts (hq : s.tallyQualifies c (s.tallyPred c i)) (hm : (s.cell c).m + 1 < s.f F.WIN_TALLY_CFG_tally_block) :
    let t := s.tallyCell c i
    (t.cell c).m = (s.cell c).m + 1 ∧ (t.cell c).accB = min ((s.cell c).accB + (s.tallyPred c i).natAbs) 0xFFFFFFFF
      ∧ (t.cell c).accA = max (-2147483648) (min ((s.cell c).accA
          + (if s.tallyPred c i < 0 then -1 else 1) * (((s.cell c).vcap : Int) - (s.cell c).vcapPrev) * 16) 2147483647)
      ∧ t.regs = s.regs ∧ t.events = s.events := by
  dsimp only
  rw [State.tallyCell_of_qualifies hq, if_neg (by omega), State.cell_modCell, ← tallySign_mul, ← iclamp_eq_max_min (by decide)]
  exact ⟨rfl, rfl, rfl, rfl, rfl⟩

/-- A period that qualifies and completes its block corrects cgain within its bounds. -/
theorem State.tallyCell_corrects (hq : s.tallyQualifies c (s.tallyPred c i)) (hm : s.f F.WIN_TALLY_CFG_tally_block ≤ (s.cell c).m + 1)
    (hgain : (s.cell c).cgain0 < 2 ^ 24) :
    let t := s.tallyCell c i
    (t.cell c).m = 0 ∧ (t.cell c).accA = 0 ∧ (t.cell c).accB = 0 ∧ (s.cell c).cgain0 / 2 ≤ t.f (F.WIN_CELL_TALLY_cgain c)
      ∧ t.f (F.WIN_CELL_TALLY_cgain c) ≤ min ((s.cell c).cgain0 * 2) 0xFFFFFF := by
  have hkeep : ((s.modCell c (Cell.tallied · (s.tallyPred c i))).cell c).cgain0 = (s.cell c).cgain0 :=
    (congrArg Cell.cgain0 (s.cell_modCell c _)).trans rfl
  have hspec := (s.modCell c (Cell.tallied · (s.tallyPred c i))).correctTally_spec c (hkeep ▸ hgain)
  rw [hkeep] at hspec
  rw [State.tallyCell_of_qualifies hq, if_pos hm]
  exact hspec

end

/-! ### The row -/

section
variable {s : State} {u : Fin 6}

/-- The tally of the period is no longer due. -/
def State.tallyTaken (s : State) (u : Nat) : State := s.modUnit u (fun x => { x with tallyDue := false })

theorem exec_tallyUpdate_due (h : (s.unit u).tallyDue = true) :
    exec (.tallyUpdate u) s = .next (if s.mode.controls && s.fb F.WIN_TALLY_CFG_tally_en
      then (s.tallyTaken u).forEach (s.unitArms u) State.tallyArm else s.tallyTaken u) := by
  show execTallyUpdate u s = _
  rw [execTallyUpdate, if_pos h]
  split
  · next hrun => exact if_pos hrun
  · next hrun => exact if_neg hrun

/-- Whatever its arms, the tally of a unit is done, and changes no cell but theirs. -/
theorem tallyUpdate_done (h : (s.unit u).tallyDue = true) :
    ∃ t, exec (.tallyUpdate u) s = .next t ∧ (t.unit u).tallyDue = false ∧ t.mode = s.mode ∧ t.grn = s.grn
      ∧ ∀ c < 3072, (∀ b ∈ s.unitArms u, c ∉ s.armCells b) →
          t.cell c = s.cell c ∧ t.rd (R.WIN_CELL_TALLY c) = s.rd (R.WIN_CELL_TALLY c) := by
  have hunit : ((s.tallyTaken u).unit u).tallyDue = false := congrArg WinUnit.tallyDue (s.unit_modUnit u _)
  refine ⟨_, exec_tallyUpdate_due h, ?_⟩
  split
  · obtain ⟨hmode, hgrn, hunits, -, hrd, hcell⟩ := (s.tallyTaken u).tallyArms_tallyWork (s.unitArms u)
    refine ⟨?_, hmode, hgrn, fun c _ hc => ⟨hcell c ?_, hrd _ ?_⟩⟩
    · rwa [State.unit, hunits]
    · rintro ⟨b, hb, hcb⟩
      exact hc b hb hcb
    · rintro d ⟨b, hb, hdb⟩ heq
      have hcd : c = d := by
        simp only [R.WIN_CELL_TALLY] at heq
        omega
      exact hc b hb (hcd ▸ hdb)
  · exact ⟨hunit, rfl, rfl, fun _ _ _ => ⟨rfl, rfl⟩⟩

/-- Where no tally is kept, the row changes no accumulator. -/
theorem tallyUpdate_off (h : (s.unit u).tallyDue = true) (hoff : s.mode.controls = false ∨ s.fb F.WIN_TALLY_CFG_tally_en = false) :
    ∃ t, exec (.tallyUpdate u) s = .next t ∧ t.cells = s.cells ∧ t.regs = s.regs ∧ t.events = s.events := by
  have hcond : (s.mode.controls && s.fb F.WIN_TALLY_CFG_tally_en) = false := by
    rw [Bool.and_eq_false_iff]
    exact hoff
  refine ⟨_, exec_tallyUpdate_due h, ?_⟩
  rw [hcond]
  exact ⟨rfl, rfl, rfl⟩

theorem exec_tallyUpdate_one {a c : Nat} {i : Int} (h : (s.unit u).tallyDue = true) (hmode : s.mode.controls = true)
    (hen : s.fb F.WIN_TALLY_CFG_tally_en = true) (harms : s.unitArms u = [a]) (hi : (s.arm a).tallyI = some i) (hcells : s.armCells a = [c]) :
    exec (.tallyUpdate u) s = .next ((s.tallyTaken u).tallyCell c i) := by
  have harm : ((s.tallyTaken u).arm a).tallyI = some i := hi
  have hcell : (s.tallyTaken u).armCells a = [c] := hcells
  rw [exec_tallyUpdate_due h, hmode, hen, harms]
  simp [State.forEach, State.tallyArm, harm, hcell]

/-- The tally of a unit with one arm of one cell. -/
theorem tallyUpdate_one {a c : Nat} {i dp : Int} (h : (s.unit u).tallyDue = true) (hmode : s.mode.controls = true)
    (hen : s.fb F.WIN_TALLY_CFG_tally_en = true) (harms : s.unitArms u = [a]) (hi : (s.arm a).tallyI = some i) (hcells : s.armCells a = [c])
    (hdp : dp = s.tallyPred c i) :
    ∃ t, exec (.tallyUpdate u) s = .next t
      ∧ (s.tallyQualifies c dp → (s.cell c).m + 1 < s.f F.WIN_TALLY_CFG_tally_block →
          (t.cell c).m = (s.cell c).m + 1 ∧ (t.cell c).accB = min ((s.cell c).accB + dp.natAbs) 0xFFFFFFFF
            ∧ (t.cell c).accA = max (-2147483648) (min ((s.cell c).accA
                + (if dp < 0 then -1 else 1) * (((s.cell c).vcap : Int) - (s.cell c).vcapPrev) * 16) 2147483647)
            ∧ t.regs = s.regs ∧ t.events = s.events)
      ∧ (s.tallyQualifies c dp → s.f F.WIN_TALLY_CFG_tally_block ≤ (s.cell c).m + 1 → (s.cell c).cgain0 < 2 ^ 24 →
          (t.cell c).m = 0 ∧ (t.cell c).accA = 0 ∧ (t.cell c).accB = 0 ∧ (s.cell c).cgain0 / 2 ≤ t.f (F.WIN_CELL_TALLY_cgain c)
            ∧ t.f (F.WIN_CELL_TALLY_cgain c) ≤ min ((s.cell c).cgain0 * 2) 0xFFFFFF)
      ∧ (¬ s.tallyQualifies c dp → t.cells = s.cells ∧ t.regs = s.regs ∧ t.events = s.events) := by
  subst hdp
  refine ⟨_, exec_tallyUpdate_one h hmode hen harms hi hcells, fun hq hm => ?_, fun hq hm hgain => ?_, fun hq => ?_⟩
  · exact State.tallyCell_counts (s := s.tallyTaken u) hq hm
  · exact State.tallyCell_corrects (s := s.tallyTaken u) hq hm hgain
  · rw [State.tallyCell_of_not (s := s.tallyTaken u) hq]
    exact ⟨rfl, rfl, rfl⟩

end

end Sys2Proof.Machine
end

section
/-! CERTIFICATE. Selection, ranking and tally of the winnow units (R158 to R164, R170 to R174). -/

open Sys2Proof.Machine

namespace Sys2Proof

/-- Settles O1, row by row: the selection handed over, the rank tables, and the tally of a unit. -/
theorem selectionRankingAndTally : Obligations.SelectionRankingAndTally := by
  unfold Obligations.SelectionRankingAndTally
  refine ⟨fun s u a r hbusy hwork => ?_, fun s u a x => ⟨rankComplete_table, rankComplete_ends, tallyUpdate_done, tallyUpdate_off,
    fun hdue hmode hen harms c i dp hi hcells _ hdp => tallyUpdate_one hdue hmode hen harms hi hcells hdp⟩⟩
  obtain ⟨t, hexec, hsel, hhand, hqueue, hgrn, hevents⟩ := selectionHandover_handed hbusy hwork
  obtain ⟨hlow, hleast⟩ := s.select_mLo_least a r
  obtain ⟨hhigh, hgreatest⟩ := s.select_mHi_greatest a r
  exact ⟨t, s.select a r, hexec, hsel, hhand, hqueue, hgrn, fun c => s.mem_select_cands a r, s.select_cands_rising a r, s.select_req a r, s.select_q a r,
    s.select_base a r, s.select_swing a r, (s.select_base_swing a r).sublist.nodup (s.select_cands_nodup a r), s.select_counts_length a r,
    fun j lv => s.select_count_of_level a r, hlow, hhigh, fun k hk => ⟨hleast k hk, hgreatest k hk⟩, s.select_trim a r, hevents⟩

end Sys2Proof
end
